-- ==== Sys2Proof/Word.lean ====
section
/-! DEFINITION. The word types, the bit-field arithmetic on naturals, and the type of sparse maps
(memories and register files held as rising lists of the entries that differ from reset). -/

namespace Sys2Proof

/-- One byte of a frame, a record or a memory. -/
abbrev Byte := BitVec 8

/-- One register word: R27 gives every access 32 bits. -/
abbrev Word32 := BitVec 32

/-- One table image of R345, at most 512 bits wide. -/
abbrev Image := BitVec 512

/-- A sparse map: pairs of key and value, keys strictly rising, no value equal to the key's default. -/
abbrev Sparse (α : Type) := List (Nat × α)

/-- Bits [hi:lo] of `n`, as the manual writes them. -/
def bits (n hi lo : Nat) : Nat := n / 2 ^ lo % 2 ^ (hi + 1 - lo)

/-- Bit `k` of `n` as a truth value. -/
def bitAt (n k : Nat) : Bool := n / 2 ^ k % 2 == 1

/-- `n` with bits [hi:lo] replaced by the low bits of `v`. -/
def putBits (n hi lo v : Nat) : Nat :=
  n - bits n hi lo * 2 ^ lo + v % 2 ^ (hi + 1 - lo) * 2 ^ lo

/-- 1 for true, 0 for false. -/
def bit (b : Bool) : Nat := if b then 1 else 0

/-- The value of `n` read as a signed number of `w` bits. -/
def signed (n w : Nat) : Int := if 2 ^ (w - 1) ≤ n % 2 ^ w then (n % 2 ^ w : Int) - 2 ^ w else n % 2 ^ w

/-- A signed number written in two's complement of `w` bits. -/
def unsigned (i : Int) (w : Nat) : Nat := (i % (2 ^ w : Int)).toNat

/-- `i` limited to the range of `lo` to `hi`. -/
def clampInt (lo hi i : Int) : Int := if i < lo then lo else if hi < i then hi else i

/-- Big-endian value of a byte string: the first byte is the most significant. -/
def beNat : List Byte → Nat
  | [] => 0
  | b :: bs => b.toNat * 256 ^ bs.length + beNat bs

/-- Little-endian value of a byte string: the first byte is the least significant. -/
def leNat : List Byte → Nat
  | [] => 0
  | b :: bs => b.toNat + 256 * leNat bs

/-- `n` as `k` bytes, most significant first. -/
def beBytes (k n : Nat) : List Byte := (List.range k).map fun i => BitVec.ofNat 8 (n / 256 ^ (k - 1 - i))

/-- `n` as `k` bytes, least significant first. -/
def leBytes (k n : Nat) : List Byte := (List.range k).map fun i => BitVec.ofNat 8 (n / 256 ^ i)

/-- `k` bytes of `bs` from offset `off`; bytes beyond the end are absent. -/
def slice (bs : List Byte) (off k : Nat) : List Byte := (bs.drop off).take k

/-- The big-endian value of `k` bytes of `bs` from offset `off`. -/
def beAt (bs : List Byte) (off k : Nat) : Nat := beNat (slice bs off k)

/-- `bs` with the bytes from offset `off` on replaced by `v`. -/
def patch (bs : List Byte) (off : Nat) (v : List Byte) : List Byte :=
  bs.take off ++ v ++ bs.drop (off + v.length)

/-- The least number `m ≥ n` that is a multiple of `k` (`n` itself when `k` is 0). -/
def roundUp (n k : Nat) : Nat := if k = 0 then n else (n + k - 1) / k * k

/-- Division rounded up. -/
def ceilDiv (n k : Nat) : Nat := if k = 0 then 0 else (n + k - 1) / k

end Sys2Proof
end

