-- ==== Sys2Proof/Syntax.lean ====
section
/-! DEFINITION. The commands of the block: one constructor per row of spec/opcode_table.json, with the row's operands.
A command carries what comes from outside the block when it happens: an access source and the value it writes, the
bytes of a frame, the samples of a pin, the words of a record, the answer of a neighbour. -/

namespace Sys2Proof

/-- The access sources of R29. `task` is the sequencer while it runs a customer task (R382). -/
inductive Source
  | seq | task | pf0 | pf1 | dma | kettle | i2c | jtag
  deriving DecidableEq, Repr

/-- The number under which ACCESS_FAULT.SOURCE and the per-source latches know a source (R31). -/
def Source.code : Source → Nat
  | .seq => 0 | .task => 0 | .pf0 => 1 | .pf1 => 2 | .dma => 3 | .kettle => 4 | .i2c => 5 | .jtag => 6

/-- The fields of a microword beside UOP (R368). -/
structure Micro where
  dest : Fin 32
  src : Fin 32
  aux : Fin 2048
  dwell : Fin 4
  setcc : Bool
  setmf : Bool
  deriving DecidableEq, Repr

/-- The five dyadic micro-ops 0x02 to 0x06 of R371. -/
inductive AluOp
  | add | sub | and | or | xor
  deriving DecidableEq, Repr

/-- The five branch micro-ops 0x10 to 0x14 of R371. -/
inductive BranchOp
  | br | bz | bnz | bn | bc
  deriving DecidableEq, Repr

/-- How the end of a received frame was found by the MAC (R50, R147) or by the reassembly of R231. -/
inductive FrameFault
  | none | fcs | undersize | oversize | fragment | jabber | symbol | assembly | smd
  deriving DecidableEq, Repr

/-- How a 64-byte spill read returns (R168, R169). -/
inductive ReadStatus
  | good | poison | header | record | fcs
  deriving DecidableEq, Repr

/-- What a memory device reports at a health poll (R190). -/
structure Health where
  replace : Bool
  degraded : Bool
  maintenance : Bool
  temperature : BitVec 8
  critical : Bool
  lifeUsed : BitVec 8
  mailboxFailed : Bool
  deriving DecidableEq, Repr

/-- A signed image as its checks find it (R393): whether it could be read, whether it is authentic, its signer and SVN. -/
structure ImageCheck where
  readOk : Bool
  authentic : Bool
  signer : Nat
  svn : Nat
  deriving DecidableEq, Repr

/-- The commands, in the order of the table. -/
inductive Instr
  -- configuration model
  | registerWrite (src : Source) (addr : Nat) (size : Nat) (value : Word32) (parityOk : Bool)
  | pairLoRead (src : Source) (addr : Nat)
  | pairHiRead (src : Source) (addr : Nat)
  | pairLoWrite (src : Source) (addr : Nat) (value : Word32)
  | pairHiWrite (src : Source) (addr : Nat) (value : Word32)
  | intForce (src : Source) (addr : Nat) (value : Word32)
  | lock (src : Source) (addr : Nat)
  | resume (src : Source) (addr : Nat) (mismatch : Bool)
  | discardStaged (src : Source) (addr : Nat)
  | sysCommitGo (src : Source) (epoch : BitVec 16)
  | sliceEpochSwitch (slice : Fin 8)
  | commitDone
  | fenceGo (src : Source) (full : Bool)
  | fenceDone
  | cycleBoundary (estimate : Nat) (parityBad : List Nat)
  -- frames, ports and links
  | frameReceive (port : Fin 64) (bytes : List Byte) (ended : Bool) (preemptable : Bool)
  | macControlFrame (port : Fin 64) (bytes : List Byte)
  | frameEnd (port : Fin 64) (preemptable : Bool) (rest : List Byte) (fault : FrameFault) (fragments : Nat)
  | portSelect (port : Fin 65) (express : Bool)
  | transmitStart (port : Fin 64) (express : Bool)
  | transmitEnd (port : Fin 64) (express : Bool)
  | ctUnderrun (port : Fin 64) (express : Bool)
  | residenceScan (queue : Fin 131072)
  | bufPeakClear (src : Source)
  | portEnable (src : Source) (port : Fin 64)
  | portDisable (src : Source) (port : Fin 64)
  | portReset (src : Source) (port : Fin 64)
  | retrain (src : Source) (port : Fin 64)
  | linkEstablished (port : Fin 64) (mode : Nat) (rxLatency txLatency : Nat) (lpi : Bool)
  | linkLoss (port : Fin 64) (lanes : BitVec 8)
  | holdoffExpiry (port : Fin 64)
  | flushDone (port : Fin 64)
  | trainingFailed (port : Fin 64) (cause : Fin 8)
  | pauseTimerExpiry (port : Fin 64) (prio : Fin 8)
  | fcRefresh (port : Fin 64) (prio : Fin 8)
  | lpiEntry (port : Fin 64)
  -- tables, learning and the shadow compare
  | learnRequest
  | ploughVisit
  | tableEntryEcc (table : Nat) (index : Nat)
  | lagRedistribute (group : Fin 32)
  | shadowVisit (shadow : Option (List Image))
  | shadowReread (shadow : Option Image)
  | shadowOnePass (src : Source)
  | policerRefill
  | streamGateChange (gate : Fin 1024)
  -- spill memory and CXL
  | batchClose (queue : Fin 131072)
  | sheetChoice (queue : Fin 131072)
  | sheetWaitExpiry (queue : Fin 131072)
  | sheetWriteDone (queue : Fin 131072) (serial : Nat)
  | prefetchStart (queue : Fin 131072)
  | spillReadReturn (queue : Fin 131072) (serial : Nat) (block : Nat) (status : ReadStatus)
  | spillReadTimeout (queue : Fin 131072) (serial : Nat) (record : Nat)
  | sheetRelease (queue : Fin 131072) (serial : Nat) (headerOk ownerOk poisoned : Bool)
  | sheetAgeScan (queue : Fin 131072)
  | spillPlaceWrite (src : Source) (mask : Fin 16)
  | forceDiscard (src : Source) (mask : Fin 16)
  | poolInit (src : Source) (port : Fin 4) (pool : Fin 4) (filled : Nat)
  | spillQuery (src : Source) (queue : Fin 131072)
  | cxlPortEnable (src : Source) (port : Fin 4)
  | cxlLinkUp (port : Fin 4) (x8 : Bool) (rate : Fin 4) (cxl2 : Bool) (wide mem : Bool)
  | cxlEnumerationTimeout (port : Fin 4) (cause : Fin 16)
  | cxlReady (port : Fin 4) (capacity : Nat)
  | cxlHealthPoll (port : Fin 4) (health : Health) (events : List (Nat × List Nat))
  | cxlEventSignal (port : Fin 4) (events : List (Nat × List Nat))
  | cxlPortFailure (port : Fin 4) (cause : Fin 16)
  | cxlPortReset (src : Source) (port : Fin 4)
  | sanitizeDone (port : Fin 4) (ok : Bool)
  -- scheduling, gates and preemption
  | shaperRefill (tier : Fin 4)
  | transitEnd (node : Nat)
  | nodeQuery (src : Source) (index : Nat)
  | gateConfigChange (src : Source) (port : Fin 64)
  | gateChangeTime (port : Fin 64)
  | gateEntryChange (port : Fin 64)
  | gateDisable (src : Source) (port : Fin 64)
  | gateWake (slice : Fin 8)
  | verifySend (port : Fin 64)
  | verifyResponse (port : Fin 64)
  -- time
  | timeCapture (src : Source)
  | timeStep (src : Source)
  | timeSlew (src : Source)
  | slewAbort (src : Source)
  | slewDone
  | tevEdgeCapture (pin : Fin 8) (falling : Bool)
  | tevCapRead (src : Source) (pin : Fin 8)
  | tevArm (src : Source) (pin : Fin 8)
  | tevOutputEdge (pin : Fin 8)
  | rclkSquelch (output : Fin 2)
  | rclkRestart (output : Fin 2)
  | pllUnlock
  -- twin operation
  | twinArm (src : Source)
  | twinDisarm (src : Source)
  | claimAssert (samples : List Bool)
  | claimConfirm (samples : List Bool) (matePresent : Bool)
  | claimConflict
  | egressAllowed (samples : List Bool)
  | claimRelease
  | twinRelease (src : Source)
  | takeoverActive
  | kettleEnable (src : Source)
  | kettleTrained
  | hello (seatB : Bool) (versions : Word32) (spdm : List Nat)
  | kettleUp (chainOk sameOwner sameImages : Bool)
  | kettleDown
  | kettleFailedRetry
  | heartbeat (seq : Nat) (words : List Nat) (rxSec rxNs : Nat)
  | mateResetPulseEnd
  | mateResetDisarm (src : Source)
  | delta (seq : Nat) (cp : Bool) (sub : Nat) (words : List Nat)
  | endRecord (seq : Nat) (cp : Bool) (words : List Nat)
  | mailboxRecord (seq : Nat) (sub : Nat) (words : List Nat)
  | health (seq : Nat) (words : List Nat)
  | ack (upTo : Nat) (nak : Bool)
  | kettleRetransmitTimer
  | kettleRecordBad
  | configDigest
  | handover (src : Source)
  | handoverDrainEnd
  | handoverRelease
  | resync (src : Source)
  | bulk (seq : Nat) (sub : Nat) (words : List Nat)
  | syncDone
  | selftestFrame (slice : Fin 8) (contentOk sequenceOk : Bool) (latency : Nat)
  | selftestSpill (port : Fin 4) (same : Bool)
  | selftestEye (heights : List Nat)
  | selftestScrub (corrected : Nat) (uncorrectable : Bool)
  -- clocks, sleep and power
  | wdKick (src : Source) (value : Word32)
  | watchdogExpired
  | delayedWarmReset
  | sliceSleepEntry (slice : Fin 8)
  | sliceDeepSleep (slice : Fin 8)
  | sliceWakeTrigger (slice : Fin 8)
  | sliceAwake (slice : Fin 8)
  | govRelax
  | fastEstimate (tenths : Nat)
  | pmbusAlert (asserted : Bool)
  | voltageConfirmed
  | pmbusError
  | agingMonitorRead (steps : Nat)
  | standby (src : Source)
  | wake (src : Source)
  | thermalSample (temps : List (BitVec 8))
  | thermalAutoRestart
  | quiet (src : Source) (on : Bool)
  | resetReq (src : Source)
  -- counters, mirroring and tracing
  | snapshot (src : Source)
  | dumpCounterRead
  | dumpDone
  | counterSaturated (addr : Nat)
  | pf1Read (offset : Nat)
  | captureRecord
  | traceRecord
  -- host interface
  | perstN (asserted : Bool)
  | hotReset
  | flrPf0
  | flrPf1
  | doorbell (page : Fin 256) (value : Word32)
  | txFrameFetch (ring : Fin 64) (descriptors : List (List Nat)) (data : List Byte) (dmaOk : Bool)
  | rxDeliver (buffers : List (Nat × Nat)) (dmaOk : Bool)
  | itrExpiry (ring : Fin 136)
  | ringEnable (src : Source) (ring : Fin 136)
  | ringDisable (src : Source) (ring : Fin 136)
  | ringIdle (ring : Fin 136) (commands : List (Nat × Nat))
  | read (table tag : Nat) (applied : Bool) (index count hostAddr : Nat) (dmaOk : Bool)
  | write (table tag index count : Nat) (images : List Image) (dmaOk : Bool)
  | insert (table tag : Nat) (image : Image) (dmaOk : Bool)
  | delete (table tag : Nat) (image : Image) (dmaOk : Bool)
  | lockEntry (table tag : Nat) (image : Image) (dmaOk : Bool)
  | unlock (table tag : Nat) (image : Image) (dmaOk : Bool)
  | flush (table tag : Nat) (includeStatic : Bool) (filter : Fin 4) (value : BitVec 16)
  | fdbFlushComplete
  | regRead (tag index count hostAddr : Nat) (dmaOk : Bool)
  | regWrite (tag index : Nat) (value : Word32)
  | nop (tag : Nat)
  | tableCompletion
  | tableWindowRead (src : Source) (addr : Nat)
  | qspiRead (src : Source) (addr : Nat)
  | qspiProgram (src : Source) (addr : Nat)
  | qspiErase (src : Source) (addr : Nat)
  | qspiDone (ok : Bool) (data : List Byte)
  | gpioEvent (pin : Fin 16) (level : Bool)
  -- mailboxes and firmware commands
  | mailboxGo (src : Source) (channel : Fin 12)
  | take (src : Source) (channel : Fin 12)
  | withdraw (src : Source) (channel : Fin 12)
  | mailboxTimeout (channel : Fin 12)
  | receiverDown (channel : Fin 12)
  | senderReset (src : Source) (channel : Fin 12)
  | firmwareTakeCommand
  | fwVersion (channel : Fin 6)
  | profileSet (channel : Fin 6)
  | powerEnvelopeSet (channel : Fin 6)
  | spillEnable (channel : Fin 6)
  | cxlStatus (channel : Fin 6)
  | tableFlush (channel : Fin 6)
  | fdbFlushPort (channel : Fin 6)
  | twinStatus (channel : Fin 6)
  | twinHandover (channel : Fin 6)
  | healthGet (channel : Fin 6)
  | selftestRun (channel : Fin 6) (results : BitVec 32)
  | lifecycleAdvance (channel : Fin 6) (otpOk : Bool)
  -- the sequencer
  | rostalInstruction
  | mov (rd ra : Fin 32)
  | sub (rd ra rb : Fin 32)
  | ldi (rd : Fin 32) (imm : BitVec 14)
  | bnz (offset : BitVec 24)
  | halt
  | customerInstruction
  | uopNop (m : Micro)
  | uopMov (m : Micro)
  | uopAlu (op : AluOp) (m : Micro)
  | uopShift (right : Bool) (m : Micro)
  | uopAddi (m : Micro)
  | uopLdi (m : Micro)
  | uopBranch (op : BranchOp) (m : Micro)
  | jmpt (m : Micro)
  | uopLoop (m : Micro)
  | dld (m : Micro)
  | dst (m : Micro)
  | rrd (m : Micro)
  | rwr (m : Micro)
  | trd (m : Micro)
  | twr (m : Micro)
  | uopDma (m : Micro)
  | poll (m : Micro) (idle : Bool)
  | commit (m : Micro)
  | uopEnd (m : Micro)
  | fault (m : Micro)
  | waitTimeout
  | seqInterrupt
  | microFault (cause : Fin 16)
  | taskGo (src : Source) (entry : BitVec 20)
  | taskAbort (src : Source)
  | ucodeLoad (src : Source) (image : ImageCheck) (version : BitVec 16) (entries words : List Word32)
  | seqDramAccess (src : Source) (store : Option Word32)
  | seqEccError (dataRam : Bool) (addr : Nat) (correctable : Bool)
  -- security and identity
  | zeroise (src : Source)
  | ownerEnrol (src : Source) (onCurve otpOk : Bool) (digest : List Word32)
  | debugToken (src : Source) (image : ImageCheck) (serial : BitVec 64) (nonce : List Word32)
  | debugClose (src : Source)
  | entropyFailure
  | firmwareBoot (image : ImageCheck) (version patchVersion : Word32) (patch entries : List Word32) (trusted : BitVec 64)
  | confirm (src : Source)
  | bootFailure
  | getVersion
  | getCapabilities
  | negotiateAlgorithms
  | getDigests (slot : Nat)
  | getCertificate (slot offset length : Nat)
  | challenge (slot : Nat) (nonce : List Nat)
  | getMeasurements (index : Nat) (signed : Bool) (nonce : List Nat)
  | unsupportedRequest (code : Nat)
  | statusRead (port : Fin 64)
  | deviceReset (port : Fin 64)
  | rescueTwinHandover (port : Fin 64)
  | slotSelect (port : Fin 64)
  -- start-up, resets and errors
  | powerUp (seatB : Bool) (addr : Fin 4)
  | coreRailsInRange (colophonOk bistOk : Bool)
  | sysResetN (lowNs : Nat)
  | warmReset (cause : Fin 256) (colophonOk bistOk : Bool)
  | coldReset (cause : Fin 256) (seatB : Bool)
  | sliceReset (src : Source) (slice : Fin 8)
  | supplyLoss (rail : Fin 7)
  | sentinelWedge
  | deviceFatal (code : BitVec 16)
  | errorLogRecord
  | cxlPortDisable (src : Source) (port : Fin 4)
  | kettleTrainingTimeout
  | pllLock
  | setTimestamp
  | estimateCalibration (vin iin : Nat)
  | freeRingTransfer (port : Fin 4) (pool : Fin 4) (addresses : Option (List Nat))
  | wdConfigWrite (src : Source) (value : Word32)
  deriving DecidableEq, Repr

end Sys2Proof
end

