-- ==== Sys2Proof/Config.lean ====
section
/-! DEFINITION. What the spec leaves open: constants without a body. Each is applied to the model's draw counter
`State.freeCount`, or to the data its value depends on, so that nothing can be proved of one particular value. -/

namespace Sys2Proof.Config

/-- DESIGN CHOICE (log 10). The next word of a slice's 32-bit sampling generator (R319), from its present word. -/
opaque sample : Nat → BitVec 32

/-- DESIGN CHOICE (log 10). The seed of a slice's sampling generator, drawn from the DRBG (R319). -/
opaque sampleSeed : Nat → BitVec 32

/-- DESIGN CHOICE (log 10). 96 bits drawn from the DRBG for DEBUG_NONCE (R400). -/
opaque nonce : Nat → BitVec 96

/-- DESIGN CHOICE (log 10). A KEY_EPOCH drawn with a new spill key (R173). -/
opaque keyEpoch : Nat → BitVec 32

/-- DESIGN CHOICE (log 11). The SHA-384 digest of R281 over an epoch and the applied configuration, whose byte form
the spec leaves open. -/
opaque configDigest : Nat → List (Nat × BitVec 32) → List (Nat × BitVec 512) → BitVec 384

/-- DESIGN CHOICE (log 11). The salt of a Kettle session's key schedule (R273), by the draw that gave the keys. -/
opaque kettleSalt : Nat → BitVec 96

/-- DESIGN CHOICE (log 11). AES-256-GCM under a Kettle session's key (R271): draw of the keys, nonce, header word, payload; the encrypted
payload and the 64-bit tag. -/
opaque kettleCipher : Nat → BitVec 96 → Nat → List Nat → List (BitVec 32)
opaque kettleTag : Nat → BitVec 96 → Nat → List Nat → BitVec 64

/-- DESIGN CHOICE (log 11). AES-256-XTS under the spill key of a KEY_EPOCH (R173, R325): KEY_EPOCH, tweak, number of the 16-byte block in
its data unit, the block. -/
opaque spillCipher : Nat → Nat → Nat → BitVec 128 → BitVec 128

/-- DESIGN CHOICE (log 26). The host addresses that a sequencer DMA touches, from T_12 to T_15, which describe it in a form that the spec
leaves open (R371): the first, and how many bytes. -/
opaque dmaRange : List Nat → Nat × Nat

/-- DESIGN CHOICE (log 11). The payload of an SPDM response of DSP0274, which the spec names and does not lay out:
request code, the measurement or slot asked for, and the draw counter. -/
opaque spdm : Nat → Nat → Nat → List Nat

/-- DESIGN CHOICE (log 13). The bucket that each of the two hash functions of the subscriber map gives a key (R71), which the spec
names and does not define: half, key; reduced to 8,192 where used. -/
opaque mapHash : Nat → Nat → Nat

/-- DESIGN CHOICE (log 11). The measured FEC, deskew and PMA latency of a port in ps, by port and mode (R242). -/
opaque latency : Nat → Nat → Nat

/-- DESIGN CHOICE (log 11). Whether the PMD clause of a port mode (width, RATE code) requires link training where AN_ENABLE is 0, which
the spec leaves to the clause (R48). -/
opaque pmdTrains : Nat → Nat → Bool

/-- DESIGN CHOICE (log 22). Whether a memory device reports partitioning (R184), and which of Sanitize, Secure Erase and neither it
supports (R191), by the draw counter. -/
opaque partitions : Nat → Bool
opaque sanitizes : Nat → Nat

/-- DESIGN CHOICE (log 11). The fused VDD_CORE setpoint of a device in mV, by clock code (R298). -/
opaque setpoint : Nat → Nat

/-- DESIGN CHOICE (log 11). The length in ns of a core clock change's stall, by the draw counter; reduced where used to at most 200
(R14). -/
opaque clockStall : Nat → Nat

/-- DESIGN CHOICE (log 11). The correction in 1/1024 that firmware derives from READ_VIN, READ_IIN and the raw estimate of the cycle
just ended (R293). -/
opaque calibration : Nat → Nat → Nat → Nat

/-- DESIGN CHOICE (log 12). The value a temporary holds before a routine has written it (R369). -/
opaque temporary : Nat → BitVec 64

/-- DESIGN CHOICE (log 12). A register or table value read by a vendor routine that the spec does not list. -/
opaque unstated : Nat → BitVec 64

/-- DESIGN CHOICE (log 14). The LEVEL of an error record where R415 leaves open which level contains the error: code, block type of the
page; reduced where used to the levels that R415 allows. -/
opaque errorLevel : Nat → Nat → Nat

/-- DESIGN CHOICE (log 14). The class under which an event record of a memory device is reported, by its severity (R190, R416);
reduced where used to the classes below device-fatal. -/
opaque eventClass : Nat → Nat

end Sys2Proof.Config
end

