-- ==== Sys2Proof/Machine/Map.lean ====
section
/-! DEFINITION. The register map: every page of BAR_0 (R422, R423), every register of every page with its
field types and its reset value (R33, R425, and the field map of the owning chapter), the capability list
(R426), the counter indexes of the fixed region (R427) and the table windows (R428). -/

namespace Sys2Proof.Machine

/-- The types of a register field (R33). -/
inductive FieldType
  | rw | ro | w1c | w1s | stg | rwl | wo1 | cnt | req
  deriving DecidableEq, Repr

/-- A field of a register: its bit range and its type. Bits in no field are reserved (R28). -/
structure Field where
  hi : Nat
  lo : Nat
  ty : FieldType
  deriving DecidableEq, Repr

/-- How a register takes part in a _LO/_HI pair (R30). -/
inductive PairRole
  | single | lo | hi
  deriving DecidableEq, Repr

/-- A row of a register index: `count` registers from offset `first`, `stride` bytes apart. -/
structure Row where
  name : String
  first : Nat
  stride : Nat
  count : Nat
  fields : List Field
  pair : PairRole
  rst : Nat → Nat

def rw (hi lo : Nat) : Field := ⟨hi, lo, .rw⟩
def ro (hi lo : Nat) : Field := ⟨hi, lo, .ro⟩
def w1c (hi lo : Nat) : Field := ⟨hi, lo, .w1c⟩
def w1s (hi lo : Nat) : Field := ⟨hi, lo, .w1s⟩
def stg (hi lo : Nat) : Field := ⟨hi, lo, .stg⟩
def rwl (hi lo : Nat) : Field := ⟨hi, lo, .rwl⟩
def wo1 (hi lo : Nat) : Field := ⟨hi, lo, .wo1⟩
def cntF (hi lo : Nat) : Field := ⟨hi, lo, .cnt⟩
def req (hi lo : Nat) : Field := ⟨hi, lo, .req⟩

/-- One register at `off`. -/
def reg (name : String) (off rst : Nat) (fs : List Field) : Row := ⟨name, off, 4, 1, fs, .single, fun _ => rst⟩

/-- `n` registers at `off`, `stride` bytes apart, all with one reset value. -/
def regs (name : String) (off stride n rst : Nat) (fs : List Field) : Row := ⟨name, off, stride, n, fs, .single, fun _ => rst⟩

/-- `n` _LO/_HI pairs at `off`, `stride` bytes apart. -/
def pairs (name : String) (off stride n rlo rhi : Nat) (flo fhi : List Field) : List Row :=
  [⟨name ++ "_LO", off, stride, n, flo, .lo, fun _ => rlo⟩, ⟨name ++ "_HI", off + 4, stride, n, fhi, .hi, fun _ => rhi⟩]

/-- `n` wide counters (64-bit pairs of type CNT, R303) at `off`, `stride` bytes apart. -/
def wide (name : String) (off stride n : Nat) : List Row := pairs name off stride n 0 0 [cntF 31 0] [cntF 31 0]

/-- `n` narrow counters (R304: 16 bits and SATURATED) at `off`, 4 bytes apart. -/
def narrow (name : String) (off n : Nat) : Row := regs name off 4 n 0 [ro 31 31, cntF 15 0]

/-- The pages of BAR_0 (R422, R423). -/
inductive Page
  | root | colophon | alwaysOn | power | time | timeEvents | twin | mailbox
  | sequencer | hostIf | dma (k : Nat) | counters | mirror | tracer
  | slice (s k : Nat) | port (p k : Nat) | lane (l : Nat)
  | buffer (k : Nat) | spill (k : Nat) | cxl (c : Nat)
  | sched | fwd (k : Nat) | police (k : Nat)
  deriving DecidableEq, Repr

/-- The BAR_0 address of a page (R422, R423). -/
def Page.base : Page → Nat
  | .root => 0 | .colophon => 0x1000 | .alwaysOn => 0x2000 | .power => 0x3000
  | .time => 0x4000 | .timeEvents => 0x5000 | .twin => 0x6000 | .mailbox => 0x7000
  | .sequencer => 0x8000 | .hostIf => 0x9000 | .dma k => 0xA000 + k * 0x1000
  | .counters => 0xD000 | .mirror => 0xE000 | .tracer => 0xF000
  | .slice s k => 0x100000 + s * 0x20000 + k * 0x1000
  | .port p k => 0x200000 + p * 0x4000 + k * 0x1000
  | .lane l => 0x300000 + l * 0x1000
  | .buffer k => 0x400000 + k * 0x1000
  | .spill k => 0x404000 + k * 0x1000
  | .cxl c => 0x408000 + c * 0x1000
  | .sched => 0x500000
  | .fwd k => 0x600000 + k * 0x1000
  | .police k => 0x604000 + k * 0x1000

/-- The page whose 4 KiB hold the address, if R422 places one there. -/
def pageAt (a : Nat) : Option Page :=
  if a < 0x10000 then
    match a / 0x1000 with
    | 0 => some .root | 1 => some .colophon | 2 => some .alwaysOn | 3 => some .power
    | 4 => some .time | 5 => some .timeEvents | 6 => some .twin | 7 => some .mailbox
    | 8 => some .sequencer | 9 => some .hostIf | 10 => some (.dma 0) | 11 => some (.dma 1)
    | 12 => some (.dma 2) | 13 => some .counters | 14 => some .mirror | _ => some .tracer
  else if 0x100000 ≤ a ∧ a < 0x200000 then
    let o := a - 0x100000
    if o % 0x20000 < 0x4000 then some (.slice (o / 0x20000) (o % 0x20000 / 0x1000)) else none
  else if 0x200000 ≤ a ∧ a < 0x300000 then
    let o := a - 0x200000
    some (.port (o / 0x4000) (o % 0x4000 / 0x1000))
  else if 0x300000 ≤ a ∧ a < 0x340000 then some (.lane ((a - 0x300000) / 0x1000))
  else if 0x400000 ≤ a ∧ a < 0x40C000 then
    let k := (a - 0x400000) / 0x1000
    if k < 4 then some (.buffer k) else if k < 7 then some (.spill (k - 4))
    else if k = 7 then none else some (.cxl (k - 8))
  else if 0x500000 ≤ a ∧ a < 0x501000 then some .sched
  else if 0x600000 ≤ a ∧ a < 0x606000 then
    let k := (a - 0x600000) / 0x1000
    if k < 4 then some (.fwd k) else some (.police (k - 4))
  else none

/-- BLOCK_ID.TYPE of a page (R423). -/
def Page.blockType : Page → Nat
  | .root => 0x10 | .colophon => 0x20 | .alwaysOn => 0x30 | .power => 0x40 | .time => 0x50
  | .timeEvents => 0x60 | .twin => 0x70 | .mailbox => 0x80 | .sequencer => 0x90 | .hostIf => 0xA0
  | .dma k => 0xB0 + k | .counters => 0xC0 | .mirror => 0xD0 | .tracer => 0xE0
  | .slice _ k => 0x100 + k | .port _ k => 0x200 + k | .lane _ => 0x300
  | .buffer k => 0x400 + k | .spill k => 0x410 + k | .cxl _ => 0x420
  | .sched => 0x500 | .fwd k => 0x600 + k | .police k => 0x610 + k

/-- BLOCK_ID.INSTANCE of a page (R423). -/
def Page.number : Page → Nat
  | .slice s _ => s | .port p _ => p | .lane l => l | .cxl c => c | _ => 0

/-- The PF0 vector that a page's interrupt causes raise (R423). -/
def Page.vector : Page → Nat
  | .root => 212 | .colophon => 213 | .alwaysOn => 214 | .power => 215 | .time => 216
  | .timeEvents => 217 | .twin => 218 | .mailbox => 219 | .sequencer => 220 | .hostIf => 221
  | .dma k => 222 + k | .counters => 225 | .mirror => 226 | .tracer => 227
  | .slice s _ => 200 + s | .port p _ => 136 + p | .lane l => 136 + l
  | .buffer k => 228 + k | .spill k => 232 + k | .cxl c => 208 + c
  | .sched => 235 | .fwd k => 236 + k | .police k => 240 + k

/-- The block-specific interrupt causes that the owning chapter defines for a page, as a mask of INT_STATUS. -/
def Page.causes : Page → Nat
  | .root => 0x0003 | .colophon => 0x000F | .alwaysOn => 0x0007 | .power => 0x000F | .time => 0x001F
  | .timeEvents => 0xFFFF | .twin => 0x07FF | .mailbox => 0x3F3F | .sequencer => 0x000F
  | .hostIf => 0x003F | .dma _ => 0 | .counters => 0x007F | .mirror => 0x0003 | .tracer => 0x0001
  | .slice _ _ => 0 | .port _ 0 => 0x003F | .port _ 1 => 0x003F | .port _ _ => 0 | .lane _ => 0x0003
  | .buffer 0 => 0x001F | .buffer _ => 0 | .spill 0 => 0x007F | .spill 2 => 0x0001 | .spill _ => 0
  | .cxl _ => 0x001F | .sched => 0x0003 | .fwd 0 => 0x003F | .fwd 3 => 0x0007 | .fwd _ => 0
  | .police 0 => 0x0007 | .police _ => 0

/-- The fields of INT_STATUS of a page, with type `t`: ACCESS_FAULT, PARITY and the page's causes. -/
def causeFields (pg : Page) (t : FieldType) : List Field :=
  [⟨31, 31, t⟩, ⟨30, 30, t⟩] ++ ((List.range 16).filter (fun k => bitAt pg.causes k)).map fun k => ⟨k, k, t⟩

/-- The page header (the header layout of "Pages, Staging and Epoch Commits"; resets of R425). -/
def headerRows (pg : Page) : List Row := [
  reg "BLOCK_ID" 0x000 (pg.blockType * 2 ^ 16 + pg.number * 2 ^ 8 + 1) [ro 31 16, ro 15 8, ro 7 0],
  reg "CAP_NEXT" 0x004 (if pg = .root then 0x200 else 0) [ro 25 2],
  reg "PAGE_STATUS" 0x008 0x10000000 [ro 31 31, ro 30 30, ro 29 29, ro 28 28, ro 15 0],
  reg "PAGE_CONTROL" 0x00C 0 [rw 31 31, req 30 30, req 29 29, rw 15 0],
  reg "INT_STATUS" 0x010 0 (causeFields pg .w1c),
  reg "INT_ENABLE" 0x014 0 (causeFields pg .rw),
  reg "INT_FORCE" 0x018 0 (causeFields pg .w1s),
  reg "ACCESS_FAULT" 0x01C 0 [ro 31 28, ro 27 25, ro 11 2],
  reg "PARITY_STATUS" 0x020 0 [w1c 31 31, ro 30 30, ro 9 0],
  reg "EPOCH_APPLIED" 0x024 0 [ro 15 0],
  reg "LOCK" 0x028 0 [w1s 0 0]]

/-- The words of the capability list, from root page offset 0x200 (R426). -/
def capabilityWords : List Nat := [
  0x00010105, 0x00000214, 0x01144008, 0x00020000, 0x00060000,
  0x00020104, 0x00000224, 0x00000004, 0x00000100,
  0x00030103, 0x00000230, 0x00000001,
  0x00040104, 0x00000240, 0x00000400, 0xEE6B2800,
  0x00050103, 0x0000024C, 0x00000064,
  0x00060104, 0, 0x00003000, 0x00001000]

/-- Root page ("Pages, Staging and Epoch Commits", "Architecture", "Start-Up"). -/
def rootRows : List Row := [
  reg "SYS_COMMIT" 0x040 0 [req 31 31, rw 15 0],
  reg "COMMIT_STATUS" 0x044 0x00FF0000 [ro 31 31, ro 30 30, ro 23 16, ro 15 0],
  reg "PROFILE_STATUS" 0x048 0 [ro 11 9, ro 8 8, ro 7 6, ro 5 4, ro 3 3, ro 2 2, ro 1 1],
  reg "FENCE_CONTROL" 0x04C 0 [req 31 31, rw 0 0],
  reg "FENCE_STATUS" 0x050 0 [ro 31 31, ro 30 30, ro 29 29, ro 23 0]]
  ++ wide "ERRORS" 0x080 8 6
  ++ [⟨"CAPABILITY", 0x200, 4, 23, [ro 31 0], .single, fun k => capabilityWords.getD k 0⟩]

/-- Colophon page ("Colophon, Life Cycle and Authority"). -/
def colophonRows : List Row := [
  reg "COLOPHON_STATUS" 0x040 0 [ro 31 29, ro 28 28, ro 27 27, ro 26 26, ro 25 25, ro 24 24, ro 7 0]]
  ++ pairs "DEVICE_SERIAL" 0x044 8 1 0 0 [ro 31 0] [ro 31 0] ++ [
  reg "OWNER_ENROL" 0x04C 0 [req 31 31, ro 30 28],
  reg "ZEROISE" 0x050 0 [req 31 31],
  regs "DEBUG_NONCE" 0x060 4 3 0 [ro 31 0]]
  ++ pairs "DEBUG_TOKEN_ADDR" 0x070 8 1 0 0 [rw 31 0] [rw 31 0] ++ [
  reg "DEBUG_CONTROL" 0x078 0 [req 31 31, req 30 30, ro 29 28],
  regs "OWNER_KEY" 0x100 4 24 0 [rw 31 0],
  regs "OWNER_DIGEST" 0x180 4 12 0 [ro 31 0]]

/-- Always-on page ("Clocks, Sleep and the Power Governor", "Colophon", "Start-Up"). -/
def alwaysOnRows : List Row := [
  reg "AO_CONTROL" 0x040 0 [req 31 31, rw 30 30, req 29 29, req 28 28, req 27 27],
  reg "WD_CONFIG" 0x044 0x800003E8 [rwl 31 31, rwl 30 30, rwl 15 0],
  reg "WD_KICK" 0x048 0 [rw 31 0],
  reg "WD_STATUS" 0x04C 0x3E8 [w1c 31 31, ro 15 0],
  reg "THERMAL_CONFIG" 0x050 0x80000000 [rwl 31 31],
  reg "THERMAL_STATUS" 0x054 0 [w1c 31 31, ro 30 30, ro 11 8, ro 7 0],
  regs "THERMAL" 0x058 4 4 0 [ro 31 0],
  reg "BOOT_CONTROL" 0x080 0 [req 31 31, rw 30 30, ro 29 29, ro 28 27],
  narrow "BOOT_FALLBACKS" 0x084 1, narrow "RESCUE_ACCEPTED" 0x088 1, narrow "RESCUE_REFUSED" 0x08C 1,
  reg "RESET_CAUSE" 0x090 1 [ro 7 0],
  reg "FAULT_STATUS" 0x094 0 [w1c 31 31, w1c 30 30, w1c 29 29, w1c 28 28, w1c 27 27, w1c 26 26, w1c 25 25],
  reg "FATAL_CONFIG" 0x098 0 [rwl 31 31, rwl 30 30],
  reg "ERR_LAST_CODE" 0x09C 0 [ro 31 29, ro 15 0],
  reg "ERR_LAST_CYCLE" 0x0A0 0 [ro 31 0], reg "ERR_LAST_DETAIL" 0x0A4 0 [ro 31 0],
  narrow "WARM_RESETS" 0x0A8 1]

/-- Power page ("Clocks, Sleep and the Power Governor"). -/
def powerRows : List Row := [
  reg "POWER_KNOBS" 0x040 0x154 [stg 31 31, stg 30 30, stg 29 28, stg 27 26, stg 25 25, stg 24 24, stg 8 0],
  reg "GOV_CONFIG" 0x044 0x00080A64 [rw 31 31, rw 23 16, rw 15 8, rw 7 0],
  reg "HARD_CAP" 0x048 0x154 [rwl 8 0],
  reg "SLEEP_CONFIG" 0x04C 0x03E80032 [rw 31 16, rw 15 0],
  reg "POWER_STATUS" 0x050 0x2EE [ro 31 30, ro 29 29, ro 28 26, ro 25 19, ro 18 18, ro 15 0],
  reg "POWER_ESTIMATE" 0x054 0 [ro 31 16, ro 15 0],
  reg "SLEEP_STATUS" 0x058 0xFF [ro 23 16, ro 15 8, ro 7 0],
  narrow "EMERGENCY_CAPS" 0x080 1, narrow "GOV_STEPS" 0x084 1]
  ++ wide "SLICE_WAKES" 0x100 8 8 ++ wide "SLICE_ASLEEP_US" 0x140 8 8

/-- Time page ("Time, Timestamps and Transparent Clocking"). -/
def timeRows : List Row := [
  reg "TIME_CONTROL" 0x040 0 [req 31 31, req 30 30, req 29 29, req 28 28]]
  ++ pairs "TIME_INCREMENT" 0x044 8 1 0 0x100 [rw 31 0] [rw 15 0]
  ++ pairs "TIME_STEP" 0x04C 8 1 0 0 [rw 31 0] [rw 31 0] ++ [
  reg "TIME_SLEW_ADJ" 0x054 0 [rw 31 0]]
  ++ pairs "TIME_SLEW_TICKS" 0x058 8 1 0 0 [rw 31 0] [rw 15 0]
  ++ pairs "TIME_SLEW_LEFT" 0x060 8 1 0 0 [ro 31 0] [ro 15 0]
  ++ pairs "TIME_CAP_SEC" 0x068 8 1 0 0 [ro 31 0] [ro 15 0] ++ [
  reg "TIME_CAP_NS" 0x070 0 [ro 31 0], reg "TIME_CAP_FRAC" 0x074 0 [ro 31 0],
  reg "TIME_STATUS" 0x078 0 [ro 31 31, ro 30 30, ro 29 29, cntF 15 0],
  reg "CYCLE_NUMBER" 0x07C 0 [ro 31 0], reg "REPHASE_OLD" 0x080 0 [ro 31 0], reg "REPHASE_NEW" 0x084 0 [ro 31 0],
  reg "TIME_UTC_OFFSET" 0x088 0 [rw 31 31, rw 15 0],
  reg "TC_CONFIG" 0x08C 0 [rw 31 30],
  regs "RCLK_CONFIG" 0x090 4 2 0x60000008 [rw 31 31, rw 30 30, ro 29 29, rw 27 22, rw 11 0]]

/-- Time-event page ("Time, Timestamps and Transparent Clocking"). -/
def timeEventRows : List Row := [
  regs "TEV_CONFIG" 0x040 0x20 8 0 [rw 31 29, rw 28 27, rw 26 26, req 25 25, ro 4 0],
  regs "TEV_START_NS" 0x044 0x20 8 0 [rw 31 0]]
  ++ pairs "TEV_START_SEC" 0x048 0x20 8 0 0 [rw 31 0] [rw 15 0] ++ [
  regs "TEV_PERIOD" 0x050 0x20 8 0x1E848 [rw 31 3],
  regs "TEV_WIDTH" 0x054 0x20 8 0x64 [rw 31 0],
  regs "TEV_CAP_NS" 0x058 0x20 8 0 [ro 31 31, ro 30 30, ro 29 0],
  regs "TEV_CAP_SEC" 0x05C 0x20 8 0 [ro 31 0],
  narrow "TEV_OVERFLOW" 0x140 8]

/-- Twin page ("Twin Pairs: Interlock, Kettle Link and Switchover"). -/
def twinRows : List Row := [
  reg "TWIN_CONFIG" 0x040 0x50000032 [rw 30 30, w1s 29 29, rw 28 28, rw 7 0],
  reg "KETTLE_CONFIG" 0x044 0 [rw 31 31],
  reg "TWIN_CONTROL" 0x048 0 [w1s 31 31, req 30 30, req 29 29, req 28 28, req 27 27, req 26 26],
  reg "TWIN_STATUS" 0x04C 0 [ro 31 29, ro 28 28, ro 27 27, ro 26 26, ro 25 25, ro 24 24, ro 23 23, ro 22 20, ro 19 18],
  reg "KETTLE_STATUS" 0x050 0 [ro 31 29, ro 28 25, ro 15 8, ro 7 0],
  reg "TWIN_SELFTEST" 0x054 0x08100000 [rw 31 24, rw 23 16],
  reg "TWIN_SELFTEST_STATUS" 0x058 0 [ro 31 24, ro 23 23, ro 22 22, ro 21 21, req 20 20, ro 6 0],
  reg "TWIN_SYNC_CYCLE" 0x05C 0 [ro 31 0], reg "TWIN_MATE_OFFSET" 0x060 0 [ro 31 0],
  reg "TWIN_EPOCHS" 0x064 0 [ro 31 16, ro 15 0],
  regs "TWIN_DIGEST" 0x068 4 12 0 [ro 31 0]]
  ++ wide "TWIN_WIDE" 0x100 8 3 ++ [narrow "TWIN_NARROW" 0x118 6]

/-- Mailbox page ("Mailboxes and Firmware Commands"): inbound channels from 0x100, outbound from 0x800. -/
def mailboxRows : List Row :=
  [reg "MBX_CONFIG" 0x040 0x50 [rw 15 0]] ++
  ((List.range 6).map (fun k => 0x100 + k * 0x100) ++ (List.range 6).map (fun k => 0x800 + k * 0x100)).flatMap fun b => [
    regs "MSG" b 4 16 0 [rw 31 0],
    reg "CONTROL" (b + 0x040) 0 [req 31 31, req 30 30, req 29 29],
    reg "STATUS" (b + 0x044) 0 [ro 31 31, w1c 30 30, w1c 29 29, w1c 28 28, ro 27 25, w1c 24 24, w1c 23 23, ro 7 0],
    reg "TAKE" (b + 0x048) 0 [ro 31 0],
    regs "HELD" (b + 0x04C) 4 15 0 [ro 31 0]]

/-- Sequencer page ("The Sequencer, Rostal and Customer Microcode"). -/
def sequencerRows : List Row := [
  reg "SEQ_STATUS" 0x040 0xE0000000 [ro 31 30, ro 29 29, ro 28 28, ro 15 0],
  reg "SEQ_FAULT" 0x044 0 [ro 31 28, ro 27 27, ro 13 0],
  reg "SEQ_FAULT_PC" 0x048 0 [ro 19 0]]
  ++ pairs "UCODE_LOAD_ADDR" 0x04C 8 1 0 0 [rw 31 0] [rw 31 0] ++ [
  reg "UCODE_LOAD" 0x054 0 [req 31 31, ro 30 28, rw 19 0],
  reg "TASK_CONTROL" 0x058 0xC0000 [req 31 31, req 30 30, rw 19 0],
  reg "TASK_STATUS" 0x05C 0 [ro 31 29, ro 28 24, ro 19 0],
  regs "TASK_ARG" 0x060 4 4 0 [rw 31 0],
  reg "TASK_RESULT" 0x070 0 [ro 31 0],
  reg "SEQ_DRAM_ADDR" 0x074 0xC0000 [rw 19 2],
  reg "SEQ_DRAM_DATA" 0x078 0 [rw 31 0]]
  ++ pairs "CUST_HOST_BASE" 0x080 8 1 0 0 [rwl 31 12] [rwl 31 0]
  ++ pairs "CUST_HOST_LIMIT" 0x088 8 1 0 0 [rwl 31 12] [rwl 31 0]
  ++ wide "RESTARTS" 0x0C0 8 1 ++ [narrow "MICRO_FAULTS" 0x0C8 1, narrow "SEQ_ECC_CORRECTED" 0x0CC 1]

/-- Host interface page ("PCI Express Host Interface and DMA Rings"). -/
def hostIfRows : List Row := [
  reg "QSPI_ACCESS" 0x040 0 [req 31 31, rw 30 29, ro 28 27, rw 26 0],
  reg "GPIO_DIR" 0x050 0 [rw 15 0], reg "GPIO_OUT" 0x054 0 [rw 15 0], reg "GPIO_IN" 0x058 0 [ro 15 0],
  reg "GPIO_RISE" 0x05C 0 [rw 15 0], reg "GPIO_FALL" 0x060 0 [rw 31 16], reg "GPIO_EVENT" 0x064 0 [w1c 15 0],
  regs "QSPI_DATA" 0x080 4 16 0 [rw 31 0],
  regs "RX_TRAP_MAP" 0x100 4 64 0 [rw 29 24, rw 21 16, rw 13 8, rw 5 0],
  regs "RX_CLASS_MAP" 0x200 4 2 0 [rw 29 24, rw 21 16, rw 13 8, rw 5 0]]
  ++ wide "HOST_WIDE" 0x300 8 5 ++ [narrow "HOST_NARROW" 0x328 3]

/-- DMA pages 0 (transmit rings), 1 (receive rings) and 2 (event rings). -/
def dmaRows (k : Nat) : List Row :=
  let n := if k < 2 then 64 else 8
  pairs "RING_BASE" 0x040 0x20 n 0 0 [rw 31 12] [rw 31 0] ++ [
  ⟨"RING_CONFIG", 0x048, 0x20, n, [rw 31 31, ro 30 30, rw 29 25] ++ (if k = 0 then [rw 24 22] else []) ++ [rw 15 0], .single,
    fun i => if k = 0 then 0x4C000008 + i % 8 * 0x400000 else if k = 1 then 0x4C000008 else 0x58000008⟩,
  regs "RING_HEAD" 0x04C 0x20 n 0 [if k < 2 then ro 15 0 else ro 30 0],
  regs "RING_TAIL" 0x050 0x20 n 0 [if k < 2 then ro 15 0 else ro 30 0]]
  ++ pairs "RING_WB" 0x054 0x20 n 0 0 [rw 31 3] [rw 31 0]
  ++ (if k < 2 then wide "RING_COUNT" 0x900 8 128 else [])

/-- Counters page ("Counters, Snapshots and Dumps"; PF1_APERTURE of R430). -/
def counterRows : List Row := [
  reg "COUNTER_CONTROL" 0x040 0 [req 31 31], reg "SNAPSHOT_VIEW" 0x044 0 [rw 6 0],
  reg "SNAPSHOT_CYCLE" 0x048 0 [ro 31 0], reg "SNAPSHOT_NS" 0x04C 0 [ro 31 0], reg "SNAPSHOT_SEC" 0x050 0 [ro 31 0],
  reg "DUMP_CONFIG" 0x054 0x00FF0008 [rw 31 31, rw 23 16, rw 15 0],
  reg "DUMP_STATUS" 0x058 0 [ro 31 31, ro 18 0], reg "DUMP_SEQUENCE" 0x05C 0 [ro 31 0],
  reg "PF1_CONTROL" 0x060 0 [rw 31 31], reg "PF1_APERTURE" 0x064 0 [rw 2 0],
  regs "USER_READ_MASK" 0x080 4 8 0 [rw 31 0],
  regs "ALARM_INDEX" 0x100 0x10 32 0 [rw 31 31, rw 18 0],
  regs "ALARM_WINDOW" 0x104 0x10 32 0x1F40 [rw 15 0]]
  ++ pairs "ALARM_THRESHOLD" 0x108 0x10 32 1 0 [rw 31 0] [rw 31 0] ++ [
  reg "ALARM_STATUS" 0x300 0 [w1c 31 0]]
  ++ wide "DUMP_RECORDS_LOST" 0x380 8 1 ++ [narrow "DUMPS_SKIPPED" 0x388 1, narrow "USER_READ_DENIED" 0x38C 1]
  ++ wide "DROP" 0x400 8 256

/-- Mirror page ("Mirroring, Capture and Frame Tracing"). -/
def mirrorRows : List Row := [
  regs "MIRROR_CONFIG" 0x040 0x40 16 0 [rw 31 31, rw 30 30, rw 29 29, rw 28 28, rw 27 27, rw 26 20, rw 19 17, rw 16 16, rw 15 14],
  regs "MIRROR_CARRIER" 0x044 0x40 16 0 [rw 16 16, rw 15 13, rw 12 12, rw 11 0],
  regs "MIRROR_SAMPLE" 0x048 0x40 16 1 [rw 23 0],
  regs "RX_PORTS_0" 0x050 0x40 16 0 [rw 31 0], regs "RX_PORTS_1" 0x054 0x40 16 0 [rw 31 0], regs "RX_PORTS_2" 0x058 0x40 16 0 [rw 0 0],
  regs "TX_PORTS_0" 0x060 0x40 16 0 [rw 31 0], regs "TX_PORTS_1" 0x064 0x40 16 0 [rw 31 0], regs "TX_PORTS_2" 0x068 0x40 16 0 [rw 0 0],
  reg "CAPTURE_CONFIG" 0x440 0 [rw 31 31, rw 30 30, rw 29 28, rw 27 26, rw 25 0],
  reg "CAPTURE_SIZE" 0x444 0 [rw 25 0], reg "CAPTURE_HEAD" 0x448 0 [ro 31 0]]
  ++ wide "SESSION" 0x500 8 32 ++ wide "CAPTURE_COUNT" 0x600 8 2

/-- Tracer page ("Mirroring, Capture and Frame Tracing"). -/
def tracerRows : List Row := [
  reg "TRACE_CONFIG" 0x040 0x14000000 [rw 31 31, rw 30 30, rw 29 29, rw 28 24, rw 21 20],
  reg "TRACE_BASE" 0x044 0 [rw 25 0], reg "TRACE_SIZE" 0x048 0 [rw 25 0], reg "TRACE_HEAD" 0x04C 0 [ro 31 0]]
  ++ wide "TRACE_COUNT" 0x080 8 3 ++ [narrow "TRACE_ABANDONED" 0x098 1]

/-- Reset of PCP_MAP_k_n (R425). -/
def pcpMapReset (n : Nat) : Nat := [0x09010800, 0x0B030A02, 0x0D050C04, 0x0F070E06].getD n 0

/-- Slice pages 0 to 3 ("Parsing, Subscribers and Classification"; SLICE_CONTROL of "Start-Up"). -/
def sliceRows : Nat → List Row
  | 0 => [
    reg "TPID_01" 0x040 0x88A88100 [stg 31 16, stg 15 0], reg "TPID_23" 0x044 0x92009100 [stg 31 16, stg 15 0],
    reg "PARSE_CONTROL" 0x048 0x60000000 [stg 31 31, stg 30 30, stg 29 29],
    reg "SLICE_CONTROL" 0x04C 0 [req 31 31, ro 30 30]]
  | 1 => [
    regs "INGRESS_CONFIG" 0x040 8 9 0x20844000
      [stg 31 30, stg 29 29, stg 28 28, stg 27 26, stg 25 22, stg 21 18, stg 17 15, stg 14 14, stg 13 0],
    regs "PORT_DEFAULTS" 0x044 8 9 1 [stg 23 16, stg 11 0]]
  | 2 => (List.range 4).flatMap fun k => [
    ⟨"PCP_MAP", 0x040 + k * 0x50, 4, 4, [stg 31 0], .single, pcpMapReset⟩,
    ⟨"DSCP_MAP", 0x050 + k * 0x50, 4, 16, [stg 31 0], .single, fun n => n / 2 * 0x01010101⟩]
  | _ => [
    reg "CLASSIFIER_KEY_LO" 0x040 0x840C2040 [stg 31 31, stg 29 0],
    reg "CLASSIFIER_KEY_HI" 0x044 0x11407185 [stg 29 0]]

/-- Port pages 0 to 3 ("Lanes, Ports and Links", "Time-Aware Gates", "Counters", "Time"). -/
def portRows : Nat → List Row
  | 0 => [
    reg "PORT_CONFIG" 0x040 0x48000000 [rw 31 31, rw 30 30, stg 29 29, rwl 28 28, rw 27 27, rw 26 25],
    reg "PORT_MTU" 0x044 0x5F2 [stg 13 0], reg "PORT_HOLDOFF" 0x048 0 [rw 9 0],
    reg "PORT_STATUS" 0x04C 0 [ro 31 29, ro 28 28, ro 27 27, ro 26 26, ro 25 25, ro 24 24, ro 23 21, ro 20 19],
    reg "PORT_CONTROL" 0x050 0 [req 31 31, req 30 30],
    reg "FLUSH_STATUS" 0x054 0 [ro 31 31, ro 23 0]]
  | 1 => [
    reg "FC_CONFIG" 0x040 0 [rw 31 30, rw 29 29, rw 28 28, rw 15 8, rw 7 0]]
    ++ pairs "FC_CLASS_MAP" 0x044 8 1 0x08040201 0x80402010 [rw 31 0] [rw 31 0] ++ [
    reg "FC_GEN_PRIO" 0x04C 0x00FAC688 [rw 23 0],
    reg "FC_XOFF" 0x050 0x800 [rw 18 0], reg "FC_XON" 0x054 0x600 [rw 18 0],
    reg "FC_QUANTA" 0x058 0x8000FFFF [rw 31 16, rw 15 0], reg "FC_STATUS" 0x05C 0 [ro 15 8, ro 7 0],
    reg "LPI_CONFIG" 0x060 0xA [rw 31 31, rw 15 0],
    reg "GATE_CONFIG" 0x080 0x000100FF [rw 31 31, req 30 30, rw 26 16, rw 7 0],
    reg "ADMIN_BASE_TIME_NS" 0x084 0 [rw 31 0]]
    ++ pairs "ADMIN_BASE_TIME_SEC" 0x088 8 1 0 0 [rw 31 0] [rw 15 0] ++ [
    reg "ADMIN_CYCLE_TIME" 0x090 0x000F4240 [rw 31 0], reg "ADMIN_CYCLE_EXT" 0x094 0 [rw 31 0],
    reg "GATE_MARGIN" 0x098 0x10 [rw 15 0],
    reg "GATE_STATUS" 0x09C 0xFF [ro 31 31, ro 30 30, ro 25 16, ro 7 0],
    reg "CHANGE_TIME_NS" 0x0A0 0 [ro 31 0]]
    ++ pairs "CHANGE_TIME_SEC" 0x0A4 8 1 0 0 [ro 31 0] [ro 15 0]
    ++ [reg "OPER_BASE_TIME_NS" 0x0AC 0 [ro 31 0]]
    ++ pairs "OPER_BASE_TIME_SEC" 0x0B0 8 1 0 0 [ro 31 0] [ro 15 0] ++ [
    reg "OPER_CYCLE_TIME" 0x0B8 0 [ro 31 0], reg "OPER_CYCLE_EXT" 0x0BC 0 [ro 31 0],
    reg "OPER_LIST" 0x0C0 0 [ro 10 0], reg "PAST_CYCLES" 0x0C4 0 [ro 31 0],
    reg "PREEMPT_CONFIG" 0x0D0 0x048000FF [rw 31 31, rw 30 30, rw 29 23, rw 9 8, rw 7 0],
    reg "PREEMPT_STATUS" 0x0D4 0 [ro 31 31, ro 30 30, ro 29 27]]
  | 2 => wide "PORT_WIDE" 0x040 8 10 ++ [narrow "PORT_NARROW" 0x090 2]
    ++ wide "WAKE_OVERFLOW" 0x098 8 1 ++ wide "GATE_WIDE" 0x0A0 8 8 ++ [narrow "BASE_TIME_IN_PAST" 0x0E0 1]
    ++ wide "PORT_STATISTIC" 0x100 8 30
  | _ => [
    reg "PTP_CONFIG" 0x040 0x80000000 [rw 31 31],
    reg "TS_RX_ADJ" 0x044 0 [rw 31 0], reg "TS_TX_ADJ" 0x048 0 [rw 31 0], reg "ASYM" 0x04C 0 [rw 31 0],
    reg "LINK_DELAY" 0x050 0 [rw 31 0], reg "TS_LATENCY_RX" 0x054 0 [ro 31 0], reg "TS_LATENCY_TX" 0x058 0 [ro 31 0]]
    ++ wide "PTP_COUNT" 0x080 8 2 ++ [narrow "PTP_SATURATED" 0x090 1]

/-- Lane pages ("Lanes, Ports and Links"). -/
def laneRows : List Row := [
  reg "LANE_CONTROL" 0x040 4 [rw 15 15, rw 14 14, rw 13 13, rw 12 11, rw 10 10, rw 2 0],
  reg "LANE_STATUS" 0x044 0 [ro 31 31, ro 30 30, ro 29 29, ro 28 28, ro 27 25, ro 24 24, ro 23 23],
  reg "LANE_TX_EQ" 0x048 0x7C0 [rw 23 18, rw 17 12, rw 11 6, rw 5 0],
  reg "LANE_TX_EQ_APPLIED" 0x04C 0 [ro 23 18, ro 17 12, ro 11 6, ro 5 0],
  reg "LANE_EYE" 0x050 0 [ro 15 8, ro 7 0]] ++ wide "LANE_FEC_SYMBOLS" 0x054 8 1

/-- The limit layout of INGRESS_BUF_j, which EGRESS_BUF_j and NODE_BUF_n share. -/
def limitFields : List Field := [rw 31 29, rw 28 26, rw 18 0]

/-- Buffer pages 0 to 3 ("Shared Buffer, Admission and Cut-Through"). -/
def bufferRows : Nat → List Row
  | 0 => [
    reg "BUF_GLOBAL_GREEN" 0x040 0x60000 [rw 18 0], reg "BUF_GLOBAL_YELLOW" 0x044 0x54000 [rw 18 0],
    reg "BUF_GLOBAL_RED" 0x048 0x48000 [rw 18 0],
    reg "BUF_STATUS" 0x04C 0 [ro 31 29, ro 18 0], reg "BUF_USED" 0x050 0 [ro 18 0],
    reg "BUF_CAPACITY" 0x054 0x60000 [ro 18 0], reg "BUF_PEAK" 0x058 0 [req 31 31, ro 18 0],
    reg "DESC_USED" 0x05C 0 [ro 18 0], reg "QUEUE_MAX_RESIDENCE" 0x060 0x800001F4 [rw 31 31, rw 15 0]]
    ++ wide "BUFFER_COUNT" 0x080 8 11
  | 1 => [
    regs "INGRESS_BUF" 0x040 8 65 0x60000 limitFields, regs "INGRESS_HEADROOM" 0x044 8 65 0 [rw 11 0],
    regs "INGRESS_USED" 0x400 8 65 0 [ro 31 19, ro 18 0]]
  | 2 => [regs "EGRESS_BUF" 0x040 8 65 0x60000 limitFields, regs "EGRESS_USED" 0x044 8 65 0 [ro 18 0]]
  | _ => [
    regs "NODE_BUF" 0x040 4 64 0x60000 limitFields,
    regs "QP_ADMIT" 0x200 0x10 64 0x875 [rw 11 8, rw 7 4, rw 3 0],
    regs "QP_MIN" 0x204 0x10 64 0x28 [rw 18 0], regs "QP_MAX" 0x208 0x10 64 0x10000 [rw 18 0]]

/-- Spill pages 0 to 2 ("Spill Memory: Sheets, Catchwords and the Collator"). -/
def spillRows : Nat → List Row
  | 0 => [
    reg "SPILL_CONTROL" 0x040 0 [rw 31 28, req 27 24],
    reg "SPILL_TIMERS" 0x044 0x32140FA0 [rw 31 24, rw 23 16, rw 15 0],
    reg "SHEET_MAX_AGE" 0x048 0xFA0 [rw 15 0],
    reg "SPILL_STATUS" 0x04C 0 [ro 31 29, ro 28 22, ro 14 0], reg "SPILL_READS" 0x050 0 [ro 13 0],
    reg "KEY_EPOCH" 0x054 0 [ro 31 0], regs "SHEETS_HELD" 0x058 4 4 0 [ro 26 0],
    reg "SPILL_LAST_LOSS" 0x068 0 [ro 31 28, ro 27 26, ro 16 0], reg "SPILL_LAST_LOSS_CW" 0x06C 0 [ro 31 16, ro 15 0],
    reg "ORDER_INFO" 0x070 0 [w1c 31 31, ro 16 0], reg "ORDER_VALUES" 0x074 0 [ro 31 16, ro 15 0],
    reg "SPILL_QUERY" 0x078 0 [req 31 31, rw 16 0], reg "SPILL_QUERY_STATE" 0x07C 0 [ro 31 30, ro 29 26, ro 25 0],
    reg "SPILL_QUERY_BYTES" 0x080 0 [ro 25 0]]
    ++ wide "SPILL_WIDE" 0x100 8 8 ++ [narrow "SPILL_NARROW" 0x140 3]
  | 1 => [
    regs "SP_QUOTA" 0x040 0x10 64 0 [rw 31 29, rw 28 26, rw 25 0],
    regs "SP_ON" 0x044 0x10 64 0x1000 [rw 18 0], regs "SP_OFF" 0x048 0x10 64 0x100 [rw 18 0],
    regs "SP_PREFETCH" 0x04C 0x10 64 0x40000400 [rw 31 28, rw 18 0]]
  | _ => [
    regs "POOL_RING_BASE" 0x040 0x20 16 0 [rw 25 0], regs "POOL_RING_SIZE" 0x044 0x20 16 0 [rw 26 0],
    regs "POOL_INIT" 0x048 0x20 16 0 [req 31 31, rw 26 0], regs "POOL_FREE" 0x04C 0x20 16 0 [ro 26 0],
    regs "POOL_CACHED" 0x050 0x20 16 0 [ro 10 0]]

/-- CXL port pages ("CXL Root Ports and Memory Devices"). -/
def cxlRows : List Row := [
  reg "CXL_PORT_CONFIG" 0x040 0 [rw 31 31, rw 27 27, rw 26 24], reg "CXL_PORT_CONTROL" 0x044 0 [req 31 31],
  reg "CXL_PORT_STATUS" 0x048 0x00800000 [ro 31 28, ro 27 24, ro 23 23, ro 22 21, ro 20 19, ro 18 16],
  reg "CXL_CAPACITY" 0x04C 0 [ro 31 16, ro 10 0],
  reg "CXL_HEALTH" 0x050 0xFF [ro 31 31, ro 30 30, ro 29 29, ro 28 28, ro 23 16, ro 7 0],
  reg "CXL_POLL" 0x054 0x3E8 [rw 15 0]]
  ++ wide "CXL_WIDE" 0x080 8 5 ++ [narrow "CXL_NARROW" 0x0A8 3]

/-- Scheduler page 0 ("Hierarchical Scheduling and Shaping"). -/
def schedRows : List Row := [
  reg "NODE_QUERY" 0x040 0 [req 31 31, rw 17 0],
  reg "NODE_QUERY_STATUS" 0x044 0 [ro 31 31, ro 30 30, ro 29 29, ro 28 28, ro 27 27, ro 18 0],
  reg "NODE_QUERY_DEFICIT" 0x048 0 [ro 19 0], reg "NODE_QUERY_BUCKET_A" 0x04C 0 [ro 31 0],
  reg "NODE_QUERY_BUCKET_B" 0x050 0 [ro 31 0], reg "SCHED_TRANSIT" 0x054 0 [ro 14 0]]
  ++ wide "NO_EGRESS_NODE" 0x080 8 1

/-- Forwarding pages 0 to 3 ("Forwarding, Learning and Ageing"). -/
def fwdRows : Nat → List Row
  | 0 => [
    reg "FDB_AGE" 0x040 0x812C03E8 [rw 31 31, rw 25 16, rw 9 0], reg "FDB_MOVE_HOLD" 0x044 0x3E8 [rw 15 0],
    reg "FDB_HASH_SEED" 0x048 0 [wo1 31 0], reg "LEARN_CONTROL" 0x04C 0x800000DE [rw 31 31, rw 7 0],
    reg "LEARN_STATUS" 0x050 0x80000000 [ro 31 31, ro 10 0], reg "PLOUGH_STATUS" 0x054 0x29600 [ro 18 16, ro 15 8, ro 7 0]]
    ++ wide "FWD_WIDE" 0x080 8 9 ++ [narrow "ENTRY_ECC_INVALIDATED" 0x0C8 1, reg "FDB_VALID_ENTRIES" 0x0CC 0 [ro 31 0]]
  | 1 => [⟨"FWD_PORT_CONFIG", 0x040, 4, 65, [rw 31 31, stg 30 30, stg 29 29, stg 28 24], .single,
      fun j => if j = 64 then 0x40000000 else 0xC0000000⟩]
  | 2 => [regs "LAG_HASH_SEL" 0x040 4 4 0x3EE [rw 11 0], reg "LAG_HASH_SEED" 0x050 0 [rw 31 0]]
  | _ => [
    reg "SHADOW_CONTROL" 0x040 0xFF [rw 31 31, rw 30 30, req 29 29, rw 7 0],
    reg "SHADOW_PACE" 0x044 0x2710 [rw 19 0],
    reg "SHADOW_STATUS" 0x048 0 [ro 31 31, ro 29 27, ro 19 0], reg "SHADOW_PASSES" 0x04C 0 [cntF 31 0]]
    ++ pairs "SHADOW_BASE" 0x050 8 8 0 0 [rw 31 12] [rw 31 0] ++ [
    reg "SHADOW_MISMATCH_INFO" 0x090 0 [w1c 31 31, ro 30 30, ro 29 27, ro 26 26, ro 25 24, ro 19 0],
    regs "SHADOW_HW" 0x0A0 4 16 0 [ro 31 0], regs "SHADOW_SW" 0x0E0 4 16 0 [ro 31 0]]
    ++ wide "SHADOW_MISMATCHES" 0x120 8 1

/-- Policing pages 0 and 1 ("Policing and Stream Filtering"). -/
def policeRows : Nat → List Row
  | 0 => wide "POLICE_WIDE" 0x040 8 6
  | _ => [regs "STORM" 0x040 4 195 0 [rw 31 31, rw 15 0]]

/-- The block registers of a page, without its header. -/
def Page.blockRows : Page → List Row
  | .root => rootRows | .colophon => colophonRows | .alwaysOn => alwaysOnRows | .power => powerRows
  | .time => timeRows | .timeEvents => timeEventRows | .twin => twinRows | .mailbox => mailboxRows
  | .sequencer => sequencerRows | .hostIf => hostIfRows | .dma k => dmaRows k | .counters => counterRows
  | .mirror => mirrorRows | .tracer => tracerRows | .slice _ k => sliceRows k | .port _ k => portRows k
  | .lane _ => laneRows | .buffer k => bufferRows k | .spill k => spillRows k | .cxl _ => cxlRows
  | .sched => schedRows | .fwd k => fwdRows k | .police k => policeRows k

/-- Whether a row places one of its registers at page offset `off`. -/
def Row.covers (r : Row) (off : Nat) : Bool :=
  r.first ≤ off && (off - r.first) % r.stride == 0 && (off - r.first) / r.stride < r.count

/-- The row of the register at page offset `off`, or none where the page defines no register (R27). -/
def rowAt (pg : Page) (off : Nat) : Option Row :=
  if off < 0x40 then (headerRows pg).find? (·.covers off) else pg.blockRows.find? (·.covers off)

/-- The fields of the register at BAR_0 address `a`; none where no register is defined. -/
def fieldsAt (a : Nat) : Option (List Field) :=
  match pageAt a with
  | none => none
  | some pg => (rowAt pg (a % 0x1000)).map (·.fields)

/-- The reset value of the register word at BAR_0 address `a` (R425). Reserved space reads 0. -/
def resetWord (a : Nat) : Word32 :=
  match pageAt a with
  | none => 0
  | some pg =>
    match rowAt pg (a % 0x1000) with
    | none => 0
    | some r => BitVec.ofNat 32 (r.rst ((a % 0x1000 - r.first) / r.stride))

/-- The mask of the bits of a field list that satisfy `p`. -/
def fieldMask (p : FieldType → Bool) (fs : List Field) : Nat :=
  fs.foldl (fun m f => if p f.ty then m ||| (2 ^ (f.hi + 1) - 2 ^ f.lo) else m) 0

/-- The index in the counter set of the wide counter whose _LO word is at `a` (R427), for every wide register counter. -/
def wideIndex (a : Nat) : Option Nat :=
  let o := a % 0x1000
  let at_ (first n idx : Nat) : Option Nat :=
    if first ≤ o ∧ (o - first) % 8 = 0 ∧ (o - first) / 8 < n then some (idx + (o - first) / 8) else none
  match pageAt a with
  | some .root => at_ 0x080 6 0
  | some .power => at_ 0x100 16 6
  | some .twin => at_ 0x100 3 22
  | some .sequencer => at_ 0x0C0 1 25
  | some .hostIf => at_ 0x300 5 26
  | some (.dma 0) => at_ 0x900 128 31
  | some (.dma 1) => at_ 0x900 128 159
  | some .counters => (at_ 0x380 1 287).or (at_ 0x400 256 288)
  | some .mirror => (at_ 0x500 32 544).or (at_ 0x600 2 576)
  | some .tracer => at_ 0x080 3 578
  | some (.port p 2) =>
    (at_ 0x040 10 (581 + 51 * p)).or ((at_ 0x098 1 (591 + 51 * p)).or
      ((at_ 0x0A0 8 (592 + 51 * p)).or (at_ 0x100 30 (600 + 51 * p))))
  | some (.port p 3) => at_ 0x080 2 (630 + 51 * p)
  | some (.lane l) => if o = 0x054 then some (3845 + l) else none
  | some (.buffer 0) => at_ 0x080 11 3909
  | some (.spill 0) => at_ 0x100 8 3920
  | some (.cxl c) => at_ 0x080 5 (3928 + 5 * c)
  | some .sched => at_ 0x080 1 3948
  | some (.fwd 0) => at_ 0x080 9 3949
  | some (.fwd 3) => at_ 0x120 1 3958
  | some (.police 0) => at_ 0x040 6 3959
  | _ => none

/-- A table window (R428): its base, its TABLE code and the bytes of one image. -/
structure Window where
  base : Nat
  table : Nat
  bytes : Nat
  deriving DecidableEq, Repr

/-- The table windows of R428. -/
def windows : List Window := [
  ⟨0x01000000, 0x02, 16⟩, ⟨0x01800000, 0x11, 16⟩, ⟨0x01C00000, 0x12, 16⟩, ⟨0x02000000, 0x17, 8⟩,
  ⟨0x02400000, 0x08, 64⟩, ⟨0x02500000, 0x09, 64⟩, ⟨0x02600000, 0x0C, 16⟩, ⟨0x02700000, 0x0D, 16⟩,
  ⟨0x02800000, 0x06, 8⟩, ⟨0x02880000, 0x13, 8⟩, ⟨0x02900000, 0x14, 8⟩, ⟨0x02980000, 0x15, 8⟩,
  ⟨0x02A00000, 0x03, 16⟩, ⟨0x02A40000, 0x07, 16⟩, ⟨0x02A80000, 0x0A, 16⟩, ⟨0x02AC0000, 0x00, 32⟩,
  ⟨0x02AE0000, 0x10, 8⟩, ⟨0x02B00000, 0x16, 8⟩, ⟨0x02B20000, 0x0E, 8⟩, ⟨0x02B30000, 0x0F, 32⟩,
  ⟨0x02B38000, 0x0B, 8⟩, ⟨0x02B3C000, 0x05, 32⟩, ⟨0x02B3D000, 0x01, 16⟩, ⟨0x02B3E000, 0x04, 16⟩]

/-- The number of entries of a table (R345); the rings 0x18 and 0x19 are bounded by their SIZE registers. -/
def tableEntries (t : Nat) : Nat :=
  [4096, 64, 524288, 16384, 32, 128, 65536, 16384, 16384, 16384, 16384, 2048, 65536, 65536, 8192, 1024, 16384,
   148545, 148545, 65536, 65536, 65536, 16384, 524288].getD t 0

/-- The bytes of one image of a table (R345). -/
def tableBytes (t : Nat) : Nat :=
  [32, 16, 16, 16, 16, 32, 8, 16, 64, 64, 16, 8, 16, 16, 8, 32, 8, 16, 16, 8, 8, 8, 8, 8, 64, 64].getD t 0

/-- The staged tables of R345: VLAN, edit profiles and scheduler configuration. -/
def tableStaged (t : Nat) : Bool := t == 0x00 || t == 0x0B || t == 0x11

/-- The read-only tables of R345. -/
def tableReadOnly (t : Nat) : Bool := t == 0x14 || t == 0x15 || t == 0x18 || t == 0x19

/-- The table entry and word offset that an address lies in, if a window of R428 covers it. -/
def windowAt (a : Nat) : Option (Window × Nat × Nat) :=
  match windows.find? (fun w => w.base ≤ a && (a - w.base) / w.bytes < tableEntries w.table) with
  | none => none
  | some w => some (w, (a - w.base) / w.bytes, (a - w.base) % w.bytes)

end Sys2Proof.Machine
end

