-- ==== Sys2Proof/Machine/Sparse.lean ====
section
/-! DEFINITION. The operations of a sparse map: reading a key, writing a key so that the canonical form is kept,
and the canonical form itself (keys strictly rising, no listed value equal to the key's default). -/

namespace Sys2Proof.Machine

variable {α : Type}

/-- The value at key `k`: the listed one, else the default of `k`. -/
def sget (d : Nat → α) : Sparse α → Nat → α
  | [], k => d k
  | (j, v) :: m, k => if k = j then v else sget d m k

/-- List `v` at key `k`, in the place that keeps the keys rising. -/
def sput : Sparse α → Nat → α → Sparse α
  | [], k, v => [(k, v)]
  | (j, u) :: m, k, v => if k < j then (k, v) :: (j, u) :: m else if k = j then (k, v) :: m else (j, u) :: sput m k v

/-- Write `v` at key `k`; writing the default removes the entry. -/
def sset [DecidableEq α] (d : Nat → α) : Sparse α → Nat → α → Sparse α
  | [], k, v => if v = d k then [] else [(k, v)]
  | e :: m, k, v => if v = d k then (e :: m).filter fun e => !(e.1 == k) else sput (e :: m) k v

/-- Every listed key is above `b`, keys rise strictly, and no value is its key's default. -/
def swfFrom [DecidableEq α] (d : Nat → α) : Nat → Sparse α → Bool
  | _, [] => true
  | b, (k, v) :: m => decide (b ≤ k) && decide (v ≠ d k) && swfFrom d (k + 1) m

/-- The canonical form of a sparse map. -/
def swf [DecidableEq α] (d : Nat → α) (m : Sparse α) : Bool := swfFrom d 0 m

/-- The entries whose key satisfies `p`; the canonical form is kept. -/
def skeep (p : Nat → Bool) (m : Sparse α) : Sparse α := m.filter fun e => p e.1

/-- The values at the keys satisfying `p` are taken from `m`, the others from `n`. -/
def smerge [DecidableEq α] (d : Nat → α) (p : Nat → Bool) (m n : Sparse α) : Sparse α :=
  (skeep p m).foldl (fun acc e => sset d acc e.1 e.2) (skeep (fun k => !p k) n)

/-- The default of a map of natural numbers. -/
def zeroNat : Nat → Nat := fun _ => 0

end Sys2Proof.Machine
end

