-- ==== Sys2Proof/Machine/State.lean ====
section
/-! DEFINITION. The state of the block as plain data: every register word, table entry, counter, buffer, queue and
engine the spec gives the T968, the queue of waiting commands, the stops, and the state after reset. -/

namespace Sys2Proof.Machine

/-- Why a command stops the machine. -/
inductive Fault
  /-- Raised by a command whose fixed-size operand list has a length the spec gives it no form for
  (WellFormed refuses it). Safe: no such command exists on the hardware. -/
  | illFormed
  deriving DecidableEq, Repr

/-- Why the model refuses a command. -/
inductive Refusal
  /-- Raised by an arm of exec whose command has no meaning yet. Safe: nothing is claimed of it. -/
  | notModelled (mnemonic : String)
  deriving DecidableEq, Repr

/-! ### What the block emits -/

/-- What leaves the block: the model's own log, newest last. -/
inductive Out
  /-- A frame, or a fragment of one, on a front port's wire. -/
  | wire (port : Nat) (bytes : List Byte)
  /-- A MAC control frame or a verify or respond mPacket on a front port's wire. -/
  | control (port : Nat) (bytes : List Byte)
  /-- A record written to an event ring: its words. -/
  | record (ring : Nat) (words : List Nat)
  /-- A read of host memory: address and length in bytes. -/
  | hostRead (addr len : Nat)
  /-- Bytes written to host memory. -/
  | hostWrite (addr : Nat) (bytes : List Byte)
  /-- A record sent over Kettle: its header word (TYPE, SUB, CP, SEQ) and its payload words. -/
  | kettle (header : Nat) (words : List Nat)
  /-- An MSI-X message of a PCI function. -/
  | vector (function number : Nat)
  /-- A pin driven to a level. -/
  | pin (name : String) (index : Nat) (level : Bool)
  /-- A request issued to a memory device on a CXL port. -/
  | cxl (port : Nat) (words : List Nat)
  /-- A request issued to the flash, a regulator or another low-speed neighbour. -/
  | low (bus : String) (words : List Nat)
  /-- A response the firmware or the colophon gives to a request: channel code and words. -/
  | response (channel : Nat) (words : List Nat)
  /-- The word that a read of an access source returns. -/
  | value (source : Source) (addr word : Nat)
  deriving DecidableEq, Repr

/-! ### Frames, copies and queues -/

/-- What the parser of R64 found in the first 256 bytes of a frame. Offsets are from the destination address;
an absent header has offset 0, which no header behind the addresses can have. -/
structure Parsed where
  /-- Tags counted, at most three, taken or skipped. -/
  tags : Nat := 0
  outer : Option Nat := none
  inner : Option Nat := none
  /-- EtherType after the tags, or the length of a layer 2 frame. -/
  etype : Nat := 0
  pppoeDisc : Bool := false
  pppoeSess : Bool := false
  session : Nat := 0
  /-- L3 type of META: 0 none, 1 IPv4, 2 IPv6. -/
  l3 : Nat := 0
  l3Off : Nat := 0
  dscp : Nat := 0
  ecn : Nat := 0
  proto : Nat := 0
  ttl : Nat := 0
  flow : Nat := 0
  sa : Nat := 0
  da : Nat := 0
  /-- IPv4 total length, or IPv6 payload length plus 40. -/
  ipLen : Nat := 0
  fragment : Bool := false
  /-- L4 type of META: 0 none, 1 UDP, 2 TCP, 3 other or not parsed. -/
  l4 : Nat := 0
  sport : Nat := 0
  dport : Nat := 0
  tcpFlags : Nat := 0
  ptpEvent : Bool := false
  ptpGeneral : Bool := false
  ptpOff : Nat := 0
  ptpType : Nat := 0
  ptpDomain : Nat := 0
  malformed : Bool := false
  deriving DecidableEq, Repr

/-- A debit made of a bucket at stage 7, kept for the true-up of R120. -/
structure Debit where
  policer : Nat
  bucketA : Bool
  bucketB : Bool
  deriving DecidableEq, Repr

/-- A mirror session for which stage 8 marked a frame (R318), with the session's registers as they stood then (R329). -/
structure Mark where
  session : Nat
  config : Nat
  carrier : Nat
  /-- RX_PORTS or a rule selects the frame, for the ingress and drop directions. -/
  rx : Bool
  /-- TX_PORTS as three words. -/
  tx : Nat
  deriving DecidableEq, Repr

/-- A trace in progress (R326, R327): stage points in ns after the SFD. -/
structure Trace where
  points : List (Option Nat)
  woke : Bool
  runClock : Nat
  inSpill : Bool := false
  depth : Nat := 0
  held : Nat := 0
  enqueued : Bool := false
  /-- Egress port of the copy that is followed; 127 while none is known. -/
  port : Nat := 127
  deriving DecidableEq, Repr

/-- What a copy of a frame is for. -/
inductive CopyKind
  | forward
  | trap (code : Nat)
  | mirrorRx (session config carrier : Nat)
  | mirrorTx (session config carrier : Nat)
  | mirrorDrop (session config carrier : Nat)
  deriving DecidableEq, Repr

/-- A copy of a frame bound for one queue. -/
structure Copy where
  frame : Nat
  kind : CopyKind := .forward
  port : Nat := 0
  queue : Nat := 0
  catchword : Nat := 0
  /-- Which physical copy the sharer holds. -/
  phys : Nat := 0
  cut : Bool := false
  /-- The egress port of the forwarding copy that an egress mirror copy follows; 127 when it follows none (R320). -/
  source : Nat := 127
  /-- The receive ring that a copy for the host port was given at admission (R339). -/
  ring : Nat := 0
  /-- Its frame descriptor (R131): 18 bits; none for a copy that has no queue, and for a cut-through copy, which is never linked (R146). -/
  desc : Option Nat := none
  deriving DecidableEq, Repr

/-- A frame in the device: its descriptor data, its bytes, and what the ingress stages decided. -/
structure Frame where
  inPort : Nat := 0
  slice : Nat := 0
  bytes : List Byte := []
  ended : Bool := false
  /-- Found bad at its end: copies whose head has left are stomped (R147). -/
  bad : Bool := false
  /-- Drop code of R309, 0 while not dropped. -/
  reason : Nat := 0
  /-- Metered length B of R119. -/
  metered : Nat := 0
  /-- Charge C of R132, in leaves. -/
  charge : Nat := 0
  /-- Reference counts of the physical copies (R143, R144). -/
  refs : List Nat := []
  /-- The leaves of each physical copy in chain order, as 19-bit leaf numbers (R130). -/
  chains : List (List Nat) := []
  /-- Charged to the PFC headroom instead of the shared counts (R142). -/
  headroom : Bool := false
  /-- Receive timestamp in units of 2^-16 ns of device time (R242). -/
  rx : Nat := 0
  hasRx : Bool := true
  /-- Arrival stamp in µs of steady time (R149). -/
  arrival : Nat := 0
  /-- Steady time of the SFD. -/
  sfd : Nat := 0
  /-- Device time of the SFD in ns. -/
  sfdDev : Nat := 0
  epoch : Nat := 0
  cls : Nat := 0
  /-- 0 green, 1 yellow, 2 red. -/
  colour : Nat := 0
  preemptable : Bool := false
  sub : Nat := 0
  mapHit : Bool := false
  vid : Nat := 0
  trap : Option Nat := none
  copyTrap : Option Nat := none
  edit : Option Nat := none
  parsed : Parsed := {}
  launch : Option Nat := none
  /-- The front port that a host descriptor names in DEST (R337). -/
  dest : Option Nat := none
  debits : List Debit := []
  /-- Policers that metered the frame, with their colour (R128). -/
  coloured : List (Nat × Nat) := []
  filter : Option Nat := none
  /-- The frame passed stage 5, and counts against its VLAN (R306). -/
  vlanCounted : Bool := false
  subCounted : Bool := false
  /-- Object counters that count the frame at its end (R306). -/
  tallies : List Nat := []
  /-- The frame has been counted under its one reason of R309, though it goes on (R67, R79, R83, R92). -/
  accounted : Bool := false
  /-- The mirror session that a classifier rule marks (R79, R318). -/
  ruleMark : Option Nat := none
  marks : List Mark := []
  trace : Option Trace := none
  /-- Priority under which the frame's leaves are counted for flow control (R54). -/
  fcPrio : Nat := 0
  /-- The frame travelled through a sheet (R171). -/
  spilled : Bool := false
  /-- The host descriptor's ring, for its completion. -/
  ring : Option Nat := none
  /-- Stage 8's marks have been decided (R318). -/
  marked : Bool := false
  /-- Copies admitted and not yet linked: stored copies until the frame ends, egress mirror copies until their source copy
  enters egress stage 6 (R131, R320). -/
  copies : List Copy := []
  /-- Mirror-only frames that take this frame's bytes at its end (R322). -/
  followers : List Nat := []
  /-- Queues for which copies were refused, counted at the frame's end (R306). -/
  refused : List Nat := []
  /-- The first reason for which a copy was refused at admission, 0 while none was. -/
  refusal : Nat := 0
  /-- Queues that took a copy before the frame ended: their enqueue counts follow at its end (R306). -/
  lateEnq : List Nat := []
  /-- The frame whose egress mirror copies wait for this one, which came back through a sheet: its number plus one. -/
  origin : Nat := 0
  /-- A rescue frame, for the rescue filter of R403. -/
  rescue : Bool := false
  /-- A frame of EtherType 0x8808, for the MAC (R52). -/
  control : Bool := false
  /-- Leaves of the frame, by their place in it, that hold an uncorrectable ECC error (R24, R181). -/
  badLeaves : List Nat := []
  deriving DecidableEq, Repr

/-- An item of a queue's list: a copy, or the notice that a catchword range was skipped (R168). -/
inductive QItem
  | copy (c : Copy)
  | skip (first last : Nat)
  deriving DecidableEq, Repr

/-- A record of a data sheet (R160): a copy with its frame, or a skipped range. -/
inductive SheetRecord
  | frame (c : Copy) (f : Frame)
  | skip (first last : Nat)
  deriving DecidableEq, Repr

/-- How far the collator has come with a record: waiting, complete, or lost with its cause of R169. -/
inductive RecordState
  | waiting (blocks : List Nat)
  | complete
  | lost (cause : Nat)
  | released
  deriving DecidableEq, Repr

/-- A sheet in spill memory (R158, R159, R165). -/
structure Sheet where
  port : Nat
  pool : Nat
  address : Nat
  owner : Nat
  serial : Nat
  first : Nat
  /-- Catchword after the last record. -/
  last : Nat
  blocks : Nat
  oldest : Nat
  keyEpoch : Nat
  records : List SheetRecord
  /-- Reading: the state of each record, none while unread. -/
  reading : Option (List RecordState) := none
  /-- Leaves still reserved for the sheet (R167). -/
  reserved : Nat := 0
  /-- The header has returned and checked. -/
  headerOk : Bool := false
  /-- The write is still in flight. -/
  writing : Bool := false
  /-- The entry stands for a sheet that is released unread or abandoned: its range is skipped (R171, R177). -/
  abandoned : Bool := false
  /-- Blocks whose reads are outstanding, with the steady time of their issue (R169), and blocks whose reads wait for room (R167). -/
  outstanding : List (Nat × Nat) := []
  toIssue : List Nat := []
  /-- Blocks written with poison, because a leaf they come from held an uncorrectable error (R181). -/
  poison : List Nat := []
  /-- The sheet is an index block on its way to release, and where its LINK_A and LINK_B point (R159, R164). -/
  isIndex : Bool := false
  links : List (Nat × Nat) := []
  deriving DecidableEq, Repr

/-- An index block of a queue's sheet index (R164): its two copies as (port, address, pool). -/
structure IndexBlock where
  copies : List (Nat × Nat × Nat)
  entries : Nat
  serial : Nat
  keyEpoch : Nat := 0
  /-- The copies of the next block: (port, address). -/
  links : List (Nat × Nat) := []
  /-- Words of the entries that are not yet written to spill memory: less than a line of four. -/
  line : List Nat := []
  /-- Reads of the block that are outstanding: (port of the copy, line, steady time of issue). -/
  reads : List (Nat × Nat × Nat) := []
  deriving DecidableEq, Repr

/-- The spill sub-states of R153. -/
inductive SpillSub
  | spilling | blocked | draining
  deriving DecidableEq, Repr

/-- A queue's spill context (R152 to R155, R164). -/
structure SpillCtx where
  sub : SpillSub := .spilling
  /-- Steady time at which the open batch opened. -/
  opened : Option Nat := none
  /-- A closed batch that waits for a sheet. -/
  waiting : Option (List QItem) := none
  /-- Steady time of the waiting batch's first refusal (R163). -/
  refused : Option Nat := none
  /-- The sheet index, oldest first; a prefix is in prefetch. -/
  index : List Sheet := []
  indexBlocks : List IndexBlock := []
  /-- Steady time at which the queue was first found to need a prefetch that the device had no room for (R167). -/
  needSince : Option Nat := none
  /-- The queue is being flushed: its context is freed at FLUSH_DONE (R172). -/
  flushing : Bool := false
  deriving DecidableEq, Repr

/-- A queue: its lists, its catchword counters and its on-chip leaves (R131, R153, R157, R170). -/
structure Queue where
  head : List QItem := []
  tail : List QItem := []
  next : Nat := 0
  expected : Nat := 0
  leaves : Nat := 0
  spill : Option SpillCtx := none
  /-- The queue stands above SPILL_ON and was refused a context (R152). -/
  contextFull : Bool := false
  /-- A cut-through copy selected for the port and not yet gone (R145). -/
  cutHeld : Nat := 0
  /-- SERIAL of the queue's next sheet or index block, from 0 at device reset (R159). -/
  serial : Nat := 0
  deriving DecidableEq, Repr

/-! ### Ports, lanes and gates -/

/-- A frame that a port's MAC is sending, or holds between fragments (R204, R230). -/
structure Tx where
  copy : Copy
  /-- Steady ns at which the present fragment, or the frame, began. -/
  start : Nat := 0
  /-- The edit profile's image and the TPIDs, as egress stage 3 found them. -/
  profile : Nat := 0
  tpids : List Nat := []
  /-- What egress stage 4 adds to correctionField, in 2^-16 ns (R245, R249). -/
  add : Option Int := none
  /-- Device ns at which the gate of the frame's class closes, as the lists stood when the fragment began (R226, R232). -/
  closeAt : Option Nat := none
  /-- The carrier tag pushed on a mirror copy: TPID × 2^16 + TCI (R321). -/
  carrier : Option Nat := none
  /-- Fragments sent before the present one, and the bytes of the edited frame they held. -/
  fragments : Nat := 0
  sent : Nat := 0
  suspended : Bool := false
  deriving DecidableEq, Repr

/-- A gate list: base time (ns of device time), cycle time, extension, and its entries (states, interval). -/
structure GateList where
  base : Nat
  cycle : Nat
  ext : Nat
  entries : List (Nat × Nat)
  deriving DecidableEq, Repr

/-- The lists of a port or stream gate: pending with its change time and acceptance instant, and oper (R217, R220). -/
structure GateRt where
  pending : Option (GateList × Nat × Nat) := none
  oper : Option GateList := none
  /-- What ran before the last change: the old oper list, the change time and the acceptance instant. A receive timestamp may lie before
  the change (R124). -/
  former : Option (Option GateList × Nat × Nat) := none
  deriving DecidableEq, Repr

/-- The run-time state of a front port or of the host port (number 64). -/
structure Port where
  /-- Width with which the port was enabled (R5). -/
  width : Nat := 1
  /-- Frames being received: the express one and the preemptable one (R135). -/
  rxExpress : Option Nat := none
  rxPreempt : Option Nat := none
  /-- The copy selected for the express and for the preemptable MAC, whose first byte has not left (R61). -/
  selected : Option Copy := none
  selectedPreempt : Option Copy := none
  txExpress : Option Tx := none
  txPreempt : Option Tx := none
  /-- Steady ns at which each of the eight pause timers runs out; 0 when it does not run (R53). -/
  pauseEnd : List Nat := List.replicate 8 0
  /-- Steady ns of the last flow-control frame with quanta, per priority (R54). -/
  fcSent : List Nat := List.replicate 8 0
  /-- Flow-control frames that wait for the next frame boundary: priority and quanta (R54). -/
  fcDue : List (Nat × Nat) := []
  /-- Steady ns at which the hold-off expires (R59). -/
  holdEnd : Nat := 0
  /-- The partner agreed to LPI (R56). -/
  lpiAgreed : Bool := false
  /-- Steady ns since which the port has had nothing to send. -/
  idleSince : Nat := 0
  gate : GateRt := {}
  /-- Verify mPackets sent and the steady ns of the last (R229). -/
  verifySent : Nat := 0
  verifyAt : Nat := 0
  /-- Steady ns of the last accepted rescue frame, plus one; 0 when none (R403). -/
  rescueAt : Nat := 0
  /-- The lane rate with which the port was enabled (R47). -/
  enabledRate : Nat := 0
  /-- The flush ends in an enable under the current configuration, or none: a disable, a reset or a shed began it (R47, R59). -/
  reconfigure : Bool := false
  deriving DecidableEq, Repr

/-- An entry of a wake FIFO: a frame that arrived while its slice was not running (R15, R290). -/
structure WakeEntry where
  port : Nat
  bytes : List Byte
  preemptable : Bool
  rx : Nat
  sfd : Nat
  sfdDev : Nat
  /-- The frame has ended: what its end reported. -/
  ended : Option (FrameFault × Nat) := none
  traced : Bool := false
  /-- The slice was not running at the SFD. -/
  woke : Bool := false
  deriving DecidableEq, Repr

/-- Where a slice stands between running and sleep (R289 to R292). -/
inductive SleepState
  | awake | light | deep | waking (fromDeep : Bool)
  deriving DecidableEq, Repr

/-- The run-time state of a slice. -/
structure SliceRt where
  sleep : SleepState := .awake
  /-- Steady ns since which the slice has been idle, and since which it sleeps. -/
  idleSince : Nat := 0
  asleepSince : Nat := 0
  wakeFifo : List WakeEntry := []
  /-- Traces between SFD and enqueue (R326). -/
  tracing : Nat := 0
  /-- The word of the slice's sampling generator (R319). -/
  sampler : Nat := 0
  /-- The word of the generator of the slice's tracer (R326). -/
  tracer : Nat := 0
  inReset : Bool := false
  deriving DecidableEq, Repr

/-! ### Buffer, policing, scheduler, tables -/

/-- The counts of the shared buffer (R130 to R144), all in leaves but for the descriptors. -/
structure Buffer where
  sharedUsed : Nat := 0
  headUsed : Sparse Nat := []
  ingress : Sparse Nat := []
  egress : Sparse Nat := []
  node : Sparse Nat := []
  /-- The frame descriptors in use, by number (R131). -/
  descriptors : List Nat := []
  /-- Leaves held per (port × 8 + priority) for flow control (R54). -/
  fcCount : Sparse Nat := []
  /-- Bank at which the leaf allocator serves next (R130). -/
  bank : Nat := 0
  /-- The leaves in use. -/
  leaves : List Nat := []
  /-- The link memory: the next leaf of a leaf that has one (R130). -/
  links : Sparse Nat := []
  deriving DecidableEq, Repr

/-- Policer buckets in credit units (R118), the entries in use (R122) and the true-ups that wait (R120). -/
structure Policing where
  bucketA : Sparse Int := []
  bucketB : Sparse Int := []
  /-- The configuration entry in use by each policer. -/
  active : Sparse Image := []
  trueUps : List (Debit × Int) := []
  refills : Nat := 0
  /-- Policers that metered a frame in the present cycle (R276). -/
  metered : List Nat := []
  deriving DecidableEq, Repr

/-- The scheduler's own state (R201 to R215), keyed by the table index of R216. -/
structure Sched where
  /-- Entry in force for each queue and node; differs from the applied copy only in transit (R214). -/
  inForce : Sparse Image := []
  /-- Entry whose shaper fields are in use (R215). -/
  shaping : Sparse Image := []
  bucketA : Sparse Int := []
  bucketB : Sparse Int := []
  deficit : Sparse Int := []
  pointer : Sparse Nat := []
  /-- Strict child served last, plus one, per (node index × 8 + priority). -/
  lastStrict : Sparse Nat := []
  transit : List Nat := []
  /-- Refill instants done, by tier: queue, subscriber, group, port. -/
  refills : List Nat := [0, 0, 0, 0]
  deriving DecidableEq, Repr

/-- A learn request in the serialiser's queue (R98, R99). -/
structure LearnReq where
  fid : Nat
  mac : Nat
  /-- [15:14] DEST_TYPE, [13:0] DEST. -/
  dest : Nat
  slice : Nat
  port : Nat
  deriving DecidableEq, Repr

/-- An FDB flush in progress (R107): the entries removed, and who asked. -/
structure FlushJob where
  /-- The filter with its value, and INCLUDE_STATIC (R106). -/
  filter : Nat
  value : Nat
  static : Bool
  /-- The slot that the walker visits next, and the core clock, in tenths, at which it began. -/
  slot : Nat := 0
  began : Option Nat := none
  removed : Nat := 0
  /-- A table command's tag and ring place, or none for FDB_FLUSH_PORT. -/
  tag : Option Nat
  channel : Option Nat
  deriving DecidableEq, Repr

/-- A compare-and-swap that the plough has read for (R102 to R105): the entry as read, and what replaces it. -/
structure PloughSwap where
  slot : Nat
  read : Nat
  /-- The new entry; none removes it as aged. -/
  entry : Option Nat
  deriving DecidableEq, Repr

/-- The learn serialiser and the plough (R99 to R107). -/
structure Fdb where
  learnQ : List LearnReq := []
  /-- Next slot the plough visits, and the visits done since the pass began. -/
  slot : Nat := 0
  passes : Nat := 0
  /-- PERIOD and THRESHOLD of the pass under way. -/
  period : Nat := 2
  threshold : Nat := 150
  /-- FDB_AGE.ENABLE of the pass under way. -/
  ageing : Bool := true
  /-- TICK_MS of the pass under way. -/
  tickMs : Nat := 1000
  /-- Steady time at which the pass began, moved on by the flushes that have suspended it. -/
  passAt : Nat := 0
  /-- Steady time from which flushes have suspended the pass. -/
  stopped : Option Nat := none
  /-- The plough's swap of the present clock. -/
  swap : Option PloughSwap := none
  flushes : List FlushJob := []
  eventSeq : Nat := 0
  /-- Effective distribution of each link aggregation group: the egress port of each of its 256 slots, 127 for none (R96). -/
  lag : Sparse (List Nat) := []
  deriving DecidableEq, Repr

/-- A difference found by the scrub-compare engine that waits for its re-read (R112). -/
structure ShadowDiff where
  table : Nat
  index : Nat
  part : Nat
  applied : Bool
  hw : Nat
  at_ : Nat
  deriving DecidableEq, Repr

/-- The scrub-compare engine (R110 to R113). -/
structure Shadow where
  table : Nat := 0
  index : Nat := 0
  /-- Steady time from which the next entry may be visited (R111). -/
  due : Nat := 0
  diffs : List ShadowDiff := []
  deriving DecidableEq, Repr

/-- A partition of a sheet pool (R161): how many free sheets its ring in spill memory lists, and the cached addresses. -/
structure Partition where
  started : Bool := false
  ring : Nat := 0
  cache : List Nat := []
  /-- What the ring lists from its read position on, as runs of `n` entries: known ones as (first address, step), and ones that software
  has filled, whose addresses only a read shows. -/
  runs : List (Option (Nat × Nat) × Nat) := []
  /-- Entry of the ring read next, and entry written next. -/
  readAt : Nat := 0
  writeAt : Nat := 0
  deriving DecidableEq, Repr

/-- An HDM decoder of a memory device (R185), in bytes. -/
structure HdmDecoder where
  base : Nat
  size : Nat
  ways : Nat := 1
  granularity : Nat := 256
  hostOnly : Bool := true
  locked : Bool := true
  deriving DecidableEq, Repr

/-- A CXL port beside its registers (R184 to R190). -/
structure CxlLink where
  /-- Steady ns at which the enumeration in progress began (t0), and at which it released PERST. -/
  t0 : Nat := 0
  released : Nat := 0
  /-- HDM decoder 0 of the device and the root port's own decoder, and Mem_Enable. -/
  decoder : Option HdmDecoder := none
  root : Option HdmDecoder := none
  memEnable : Bool := false
  /-- Steady ns of the last health poll, and the device has signalled a record since. -/
  polledAt : Nat := 0
  signalled : Bool := false
  deriving DecidableEq, Repr

/-- The spill engine as a whole (R161 to R177). -/
structure Spill where
  partitions : Sparse Partition := []
  /-- Bytes of spill writes outstanding per port (R162). -/
  writing : Sparse Nat := []
  keyDrawn : Bool := false
  /-- Sheets of queues being flushed that still wait for release (R172): (egress port, sheet). -/
  releasing : List (Nat × Sheet) := []
  /-- Sheets quarantined: (port, address). -/
  quarantined : List (Nat × Nat) := []
  /-- Consecutive read timeouts per CXL port (R192). -/
  timeouts : Sparse Nat := []
  /-- The CXL ports. -/
  links : Sparse CxlLink := []
  deriving DecidableEq, Repr

/-! ### Counters, errors, accesses and time -/

/-- A dump in progress (R312 to R315). -/
structure Dump where
  /-- Next index to be read. -/
  next : Nat
  sets : Nat
  cycle : Nat
  ns : Nat
  sec : Nat
  /-- Counters gathered for the DATA record under way: (index, value). -/
  gathered : List (Nat × Nat)
  records : Nat
  lost : Nat
  /-- The core clock, in tenths, from which the engine may read its next counter (R312). -/
  due : Nat := 0
  deriving DecidableEq, Repr

/-- An alarm's window (R316). -/
structure Alarm where
  running : Bool := false
  base : Nat := 0
  left : Nat := 0
  fired : Bool := false
  restart : Bool := false
  /-- The window restarts with base 0 (a write to the counter). -/
  zero : Bool := false
  deriving DecidableEq, Repr

/-- The counter memory (R303 to R316), by counter index. -/
structure Counters where
  /-- This device's own correctable errors, block-fatal errors and drops of the present cycle, whatever the twin copy covers (R285). -/
  ownCorrected : Nat := 0
  ownBlockFatal : Nat := 0
  ownDrops : Nat := 0
  wide : Sparse Nat := []
  /-- Increments of a frozen counter since the dump boundary. -/
  delta : Sparse Nat := []
  /-- A value written to a frozen counter, plus one (R313). -/
  written : Sparse Nat := []
  dump : Option Dump := none
  /-- Cycle boundaries until the next dump start; 0 when the next boundary starts one. -/
  dumpWait : Nat := 0
  sequence : Nat := 0
  /-- Holding copies of the snapshot: wide counters by index, narrow words by address (R311). -/
  holdWide : Sparse Nat := []
  holdWord : Sparse Word32 := []
  alarms : Sparse Alarm := []
  deriving DecidableEq, Repr

/-- An error that waits to be written to the error log (R417). -/
structure ErrRec where
  cls : Nat
  level : Nat
  code : Nat
  type : Nat
  number : Nat
  cycle : Nat
  ns : Nat
  sec : Nat
  detail : List Nat
  deriving DecidableEq, Repr

/-- Error reporting (R416 to R420). -/
structure Errors where
  waiting : List ErrRec := []
  /-- Codes and pages of correctable errors logged in the present cycle. -/
  logged : List (Nat × Nat) := []
  sequence : Nat := 0
  /-- The latched error of a device-fatal reset, to be logged first (R418). -/
  first : Option ErrRec := none
  /-- Steady ns at which the delayed warm reset of R420 is due, and its cause. -/
  resetAt : Option (Nat × Nat) := none
  deriving DecidableEq, Repr

/-- What the access sources hold (R30, R238, R252, R428). Keys combine the source with the address. -/
structure Access where
  /-- Latched _HI words, plus one. -/
  latch : Sparse Nat := []
  /-- Held _LO writes, plus one. -/
  held : Sparse Nat := []
  /-- Table window latches: (source, table, entry, image). -/
  window : List (Nat × Nat × Nat × Image) := []
  /-- Words of which every source has its own copy: captures and latched seconds. -/
  own : Sparse Word32 := []
  /-- Addresses of registers whose WO1 field has been written. -/
  once : List Nat := []
  deriving DecidableEq, Repr

/-- Device time, steady time and the control cycle (R6, R207, R233 to R240). -/
structure Clock where
  /-- Steady time in ticks of 1 ns. -/
  steady : Nat := 0
  /-- Device time in units of 2^-40 ns. -/
  dev : Nat := 0
  /-- Steady time at which the cycle in progress began. -/
  cycleStart : Nat := 0
  /-- Device time in ns at which the cycle in progress ends. -/
  cycleEnd : Nat := 125000
  /-- The number with which the cycle in progress began (R239). -/
  cycleNumber : Nat := 0
  /-- The adjustment of the slew that runs (units of 2^-40 ns). -/
  slewAdj : Int := 0
  slewLeft : Nat := 0
  /-- TIME_STEP of the step that waits for the next tick (R236). -/
  stepWaiting : Option Int := none
  /-- Ticks and adjustment of the slew that starts at the next tick, and whether the running one ends there (R235, R237). -/
  slewNext : Option (Nat × Int) := none
  slewEnds : Bool := false
  /-- Core clocks since the last core reset, in tenths: the rotations of R140 and R163 count them. -/
  coreTenths : Nat := 0
  deriving DecidableEq, Repr

/-- A commit in progress, and the slices that have still to switch (R37 to R41). -/
structure Commit where
  waiting : List Nat := []
  /-- Knob register value before the commit, whether a preset issued it, and which. -/
  knobsBefore : Nat := 0
  preset : Nat := 0
  deriving DecidableEq, Repr

/-- A fence in progress: it waits for the frames numbered below `first`; its scope and its start (R42 to R44). -/
structure Fence where
  first : Nat
  full : Bool
  start : Nat
  deriving DecidableEq, Repr

/-! ### Twin pair, Kettle, power and low-speed pins -/

/-- A DELTA, END or BULK record as it is staged: SUB and payload words. -/
structure StagedRecord where
  sub : Nat
  words : List Nat
  deriving DecidableEq, Repr

/-- A delta staged on a standby (R279): its CP, its records, and its END as (cycle, final, count). -/
structure StagedDelta where
  cp : Bool
  records : List StagedRecord
  ended : Option (Nat × Bool × Nat) := none
  /-- Heartbeats of the mate received since its first record: 1 for the cycle before the present one. -/
  age : Nat := 0
  deriving DecidableEq, Repr

/-- A graceful handover (R282): accepted, draining since b1, or waiting for the final END since b1. -/
inductive HandoverPhase
  | none
  | accepted
  | draining (b1 : Nat)
  | final (b1 : Nat)
  /-- Step 6 has begun: the transmitters are idle, and the claim line follows 200 ns later (R264). -/
  | releasing
  deriving DecidableEq, Repr

/-- A bulk resynchronisation (R283). -/
inductive BulkPhase
  | none
  /-- Standby: BULK REQUEST sent, no START yet. -/
  | requested
  /-- Standby: START received for cycle k0; records counted so far. -/
  | loading (k0 count : Nat)
  /-- Standby: END received; staged deltas from k0 are applied. -/
  | applying (k0 : Nat)
  deriving DecidableEq, Repr

/-- The twin controller (R257 to R286). -/
structure Twin where
  confirmed : Bool := false
  /-- The claim met the mate's claim before its confirmation (R261). -/
  conflicted : Bool := false
  confirmedAt : Nat := 0
  /-- Steady ns at which the claim is released (R264). -/
  releaseAt : Option Nat := none
  handover : HandoverPhase := .none
  finalApplied : Bool := false
  staged : List StagedDelta := []
  bulk : BulkPhase := .none
  /-- The mate has asked for a bulk, which the next boundary as ACTIVE or HANDING_OVER starts. -/
  serve : Bool := false
  /-- Last delta cycle sent or applied. -/
  lastDelta : Nat := 0
  /-- The transition to ACTIVE that runs is a takeover (R269). -/
  takeover : Bool := false
  /-- DELTA records sent in the present cycle. -/
  sentRecords : Nat := 0
  /-- Which sixty-fourth of the counter set goes next (R276). -/
  rotation : Nat := 0
  /-- Steady ns until which the mate's reset is held low. -/
  mateResetUntil : Option Nat := none
  heard : Bool := false
  mateArm : Bool := false
  mateSynced : Bool := false
  mateFailed : Bool := false
  /-- Transmit time of the last own heartbeat and receive time of the mate's last one: (seconds, ns). -/
  sentAt : Nat × Nat := (0, 0)
  heardAt : Nat × Nat := (0, 0)
  /-- Transmit time of the own heartbeat before the last one. -/
  sentBefore : Nat × Nat := (0, 0)
  /-- Cycle boundaries so far, and the counts at which the synthetic frame of each slice and the spill test of each CXL port are due
  again (R240, R286). -/
  boundaries : Nat := 0
  frameDue : List Nat := List.replicate 8 0
  spillDue : List Nat := List.replicate 4 0
  /-- Steady ns since which the two current epochs differ, plus one. -/
  divergentSince : Nat := 0
  /-- The divergence of epochs that lasts has been raised (R281). -/
  divergentRaised : Bool := false
  /-- Digest words received for the mate's epoch. -/
  mateDigest : Option (Nat × List Nat) := none
  /-- Epoch of the digest shown, plus one; 0 before the first. -/
  digestEpoch : Nat := 0
  digestDue : Bool := false
  /-- Slices whose last synthetic frame passed, bit s. -/
  passed : Nat := 0
  /-- Corrections, errors and drops of the present cycle, for the health body. -/
  scrubCorrections : Nat := 0
  worstEye : Nat := 0
  worstLane : Nat := 0
  healthSeq : Nat := 0
  /-- KETTLE_RETRANSMITS at the last boundary. -/
  base : Nat := 0
  deriving DecidableEq, Repr

/-- A sequenced Kettle record that is not yet acknowledged (R272): its header word without SEQ, and its payload. -/
structure KettleRecord where
  seq : Nat
  head : Nat
  words : List Nat
  /-- Retransmissions so far. -/
  sends : Nat
  sentAt : Nat
  deriving DecidableEq, Repr

/-- The Kettle link (R270 to R273). -/
structure Kettle where
  nextSeq : Nat := 0
  /-- Next SEQ expected in order. -/
  expected : Nat := 0
  unacked : List KettleRecord := []
  /-- Records that found 1,024 unacknowledged ones before them: header word without SEQ, and payload. -/
  waiting : List (Nat × List Nat) := []
  /-- Steady ns at which the present state was entered. -/
  since : Nat := 0
  helloDone : Bool := false
  session : Bool := false
  /-- The draw that gave the session its keys and salt. -/
  key : Nat := 0
  /-- Sequenced records put on the link in the session, and ACK records sent in it: the counts of the two nonce spaces (R273). -/
  sent : Nat := 0
  acks : Nat := 0
  /-- The first half of an M_0 message that waits for the second (R359). -/
  mailHalf : List Nat := []
  deriving DecidableEq, Repr

/-- A governor step in force (R294): the ladder step, and the port for a shed. -/
structure GovStep where
  step : Nat
  port : Nat := 0
  deriving DecidableEq, Repr

/-- The power governor, the voltage controller and the thermal trips (R293 to R300, R444). -/
structure Power where
  /-- Consecutive cycles above the envelope. -/
  overCycles : Nat := 0
  /-- Steady ns since which every estimate is at or below the margin. -/
  relaxSince : Nat := 0
  /-- Steps in force, most recent first. -/
  steps : List GovStep := []
  /-- Cycles below 90 % of HARD_CAP while the emergency cap is in force. -/
  calm : Nat := 0
  alert : Bool := false
  /-- Core clock code that the boundary is to apply once the voltage is confirmed. -/
  target : Nat := 0
  /-- Steady ns at which the higher voltage was written; none while no step up waits. -/
  voltageAt : Option Nat := none
  /-- The regulator failed to confirm the voltage for `target`. -/
  failed : Bool := false
  /-- ENVELOPE_ON went to 0: the next boundary undoes every step (R296). -/
  undo : Bool := false
  /-- Steady ns at which the stall of a core clock change ends (R14, R15). -/
  stallUntil : Option Nat := none
  /-- Highest clock that the confirmed voltage supports (code of CLOCK_CAP). -/
  supported : Nat := 0
  /-- Uplift of the aging monitors in steps of 2.5 mV. -/
  uplift : Nat := 0
  agingWanted : Bool := false
  /-- Correction of the estimate in 1/1024. -/
  correction : Nat := 1024
  /-- Raw estimate of the cycle just ended, before calibration. -/
  lastRaw : Nat := 0
  /-- Sensors at or above 120 °C in the last sample, bit k. -/
  hot : Nat := 0
  tripped : Bool := false
  /-- Steady ns since which every sensor reads below 95 °C, plus one. -/
  coolSince : Nat := 0
  /-- Front transmitters are held quiet after a watchdog expiry or a device-fatal error with ACTION 1. -/
  hold : Bool := false
  /-- Steady ns at which the watchdog expires; none while it does not count. -/
  watchdog : Option Nat := none
  /-- Milliseconds left while the watchdog does not count. -/
  watchdogLeft : Nat := 1000
  expired : Bool := false
  inStandby : Bool := false
  deriving DecidableEq, Repr

/-- A time-event pin (R252, R253). -/
structure TevPin where
  /-- Capture FIFO: (seconds, ns, falling). -/
  fifo : List (Nat × Nat × Bool) := []
  armed : Bool := false
  start : Nat := 0
  period : Nat := 0
  width : Nat := 0
  /-- Device ns of the next edge. -/
  nextEdge : Nat := 0
  /-- Steady ns at which the active level that is driven ends; none while the inactive level is driven. -/
  activeUntil : Option Nat := none
  deriving DecidableEq, Repr

/-- The pins that no register shows (R413). -/
structure Pins where
  /-- TWIN_PRESENT_OUT_N is low. -/
  present : Bool := false
  /-- The level of the TWIN_SEAT strap: high is seat B. -/
  seatB : Bool := false
  corePower : Bool := false
  mateReset : Bool := false
  i2cAddress : Nat := 0x58
  rclkOn : List Bool := [false, false]
  /-- Steady ns at which each lane locked to its received signal, plus one. -/
  laneLock : Sparse Nat := []
  deriving DecidableEq, Repr

/-! ### Host interface, mailboxes and firmware -/

/-- A completion record that waits for ring 6 (R346): its words without NS, SECONDS and SEQUENCE. -/
structure Completion where
  opcode : Nat
  status : Nat
  tag : Nat
  result : Nat
  done : Nat
  deriving DecidableEq, Repr

/-- The run-time state of a ring (R335, R336, R343). Rings 0 to 63 transmit, 64 to 127 receive, 128 to 135 event. -/
structure Ring where
  /-- Steady ns of the first completion not yet signalled, plus one. -/
  unsignalled : Nat := 0
  deriving DecidableEq, Repr

/-- The host interface (R330 to R349). -/
structure HostIf where
  inReset : Bool := true
  linkUp : Bool := false
  d0 : Bool := false
  busMaster : Bool := false
  rings : Sparse Ring := []
  /-- Last value written to each doorbell page. -/
  doorbells : Sparse Nat := []
  completions : List Completion := []
  completionSeq : Nat := 0
  /-- The copy selected for host egress that waits for buffers (R339). -/
  waiting : Option Copy := none
  /-- Flash request in progress: operation and address. -/
  flash : Option (Nat × Nat) := none
  deriving DecidableEq, Repr

/-- A mailbox channel beside its registers (R350 to R359): inbound 0 to 5, outbound 6 to 11. -/
structure Channel where
  posted : List Nat := []
  postedAt : Nat := 0
  /-- TIMEOUT has been set for the posted message, or RECEIVER_DOWN replaced it. -/
  timed : Bool := false
  /-- RECEIVER_DOWN has been set for the posted message (R355). -/
  down : Bool := false
  /-- The message has gone over Kettle (R359). -/
  sent : Bool := false
  /-- A WITHDRAW has gone over Kettle and waits for its answer (R359). -/
  withdrawing : Bool := false
  /-- The receiver was in reset when the message was posted (R356). -/
  inReceiverReset : Bool := false
  deriving DecidableEq, Repr

/-- A command that firmware has taken and not answered (R360 to R362). -/
structure FwCommand where
  channel : Nat
  words : List Nat
  started : Bool := false
  deriving DecidableEq, Repr

/-- Firmware as the spec describes it: what runs, and the commands in progress. -/
structure Firmware where
  running : Bool := false
  version : Nat := 0
  patchVersion : Nat := 0
  svn : Nat := 0
  commands : List FwCommand := []
  /-- Inbound channel after the one served last (R360). -/
  nextChannel : Nat := 0
  /-- Mailbox command failures in a row, per CXL port (R190). -/
  mailboxFails : Sparse Nat := []
  /-- Sanitisation per CXL port: 0 not requested, 1 done, 2 failed, 3 absent (R363). -/
  sanitized : Sparse Nat := []
  /-- CXL ports whose LIFE_USED above 90 % has been raised (R190). -/
  lifeRaised : List Nat := []
  /-- A reserved self-test sheet per CXL port (R286). -/
  reserved : List (Nat × Nat) := []
  /-- The layout in force per CXL port: pool 0 to 2 regions in GiB, capture and trace in GiB (R188). -/
  layouts : Sparse (List Nat) := []
  /-- Booted the other slot after a failure (R395). -/
  fellBack : Bool := false
  bootFailed : Bool := false
  deriving DecidableEq, Repr

/-! ### The sequencer -/

/-- The target of an architectural write of a routine (R376). -/
inductive SeqWrite
  | general (index : Nat) (value : BitVec 64)
  | flags (value : Nat)
  | ram (addr : Nat) (value : BitVec 64)
  | device (addr : Nat) (value : Word32)
  | table (table index : Nat) (value : Image)
  | dma (toSpill : Bool) (words : List Nat)
  deriving DecidableEq, Repr

/-- The routine that runs (R368 to R378). -/
structure Routine where
  entry : Nat
  upc : Nat
  /-- The macro-instruction word. -/
  word : Word32
  opcode : Nat
  /-- True in RESTART mode. -/
  restart : Bool
  /-- The draw under which the values that the routine has not written stand (R369). -/
  seed : Nat := 0
  /-- The temporaries, MAR, MDR and LOOP: none until the routine writes them. -/
  temps : List (Option (BitVec 64)) := List.replicate 16 none
  mar : Option (BitVec 64) := none
  mdr : Option (BitVec 64) := none
  loop : Option (BitVec 64) := none
  z : Bool := false
  n : Bool := false
  c : Bool := false
  committed : Bool := false
  /-- Words executed, and words executed after COMMIT. -/
  words : Nat := 0
  after : Nat := 0
  buffer : List SeqWrite := []
  deriving DecidableEq, Repr

/-- The sequencer (R365 to R386). -/
structure Seq where
  g : Sparse (BitVec 64) := []
  /-- Macro flags Z, N, C, V. -/
  z : Bool := false
  n : Bool := false
  c : Bool := false
  v : Bool := false
  pc : Nat := 0
  ram : Sparse Byte := []
  store : Sparse Word32 := []
  dispatch : Sparse Word32 := []
  routine : Option Routine := none
  /-- Consecutive abandonments by interrupts, and consecutive WAIT_TIMEOUTs, of one instruction (R378). -/
  abandoned : Nat := 0
  waits : Nat := 0
  /-- An interrupt waits for the end of the instruction or the routine. -/
  interrupt : Bool := false
  task : Bool := false
  abort : Bool := false
  deriving DecidableEq, Repr

/-! ### Security, start-up -/

/-- The colophon (R387 to R401). -/
structure Colophon where
  /-- Life-cycle state of R363. -/
  lifecycle : Nat := 1
  ownerDigest : Option (List Word32) := none
  ownerRevoked : Bool := false
  /-- The owner slot has been spent by a failed write. -/
  ownerSpent : Bool := false
  antiRollback : Nat := 0
  serial : BitVec 64 := 0
  identity : Bool := true
  revokedSigners : List Nat := []
  debugByToken : Bool := false
  /-- A spill key is held (R173, R174). -/
  spillKey : Bool := false
  /-- The DRBG has been seeded (R388). -/
  seeded : Bool := false
  /-- The SPDM negotiation over DOE is complete (R397). -/
  negotiated : Bool := false
  deriving DecidableEq, Repr

/-- Where the device stands between power and service (R405 to R411). -/
structure Startup where
  aonUp : Bool := false
  railsUp : Bool := false
  /-- The timing island is powered and clocked (R13): from step 4 of power-up until a cold reset or the loss of a supply. -/
  island : Bool := false
  /-- A device reset runs. -/
  resetting : Bool := false
  /-- A failure of step 7 stopped power-up (R408), or of step 5 stopped the boot (R389). -/
  bistFailed : Bool := false
  bootStopped : Bool := false
  recovery : Bool := false
  /-- Steady ns of the last dequeue of the queue manager (R421). -/
  lastDequeue : Nat := 0
  /-- Steady ns of the last Set Timestamp round. -/
  lastTimestamp : Nat := 0
  deriving DecidableEq, Repr

/-- A rescue frame accepted on a port and waiting for the always-on controller (R403). -/
structure Rescue where
  port : Nat
  op : Nat
  operand : Nat
  sequence : Nat
  source : List Byte
  deriving DecidableEq, Repr

/-! ### The state -/

/-- The state of the T968, and the queue of commands that wait, first in, first out. -/
structure State where
  pending : List Instr := []
  clock : Clock := {}
  /-- Every register word that differs from its reset value, by BAR_0 address; the pending copy of staged fields. -/
  regs : Sparse Word32 := []
  /-- Applied copies of the words with staged fields: the current epoch's and the previous one's (R37 to R40). -/
  regsCur : Sparse Word32 := []
  regsOld : Sparse Word32 := []
  /-- Table entries by table × 2^20 + index; the pending copy of staged tables. -/
  tabs : Sparse Image := []
  tabsCur : Sparse Image := []
  tabsOld : Sparse Image := []
  counters : Counters := {}
  errors : Errors := {}
  access : Access := {}
  commit : Option Commit := none
  fence : Option Fence := none
  frames : Sparse Frame := []
  nextFrame : Nat := 0
  queues : Sparse Queue := []
  ports : Sparse Port := []
  slices : Sparse SliceRt := []
  buffer : Buffer := {}
  policing : Policing := {}
  streamGates : Sparse GateRt := []
  sched : Sched := {}
  fdb : Fdb := {}
  shadow : Shadow := {}
  spill : Spill := {}
  twin : Twin := {}
  kettle : Kettle := {}
  power : Power := {}
  tev : Sparse TevPin := []
  pins : Pins := {}
  host : HostIf := {}
  channels : Sparse Channel := []
  firmware : Firmware := {}
  seq : Seq := {}
  colophon : Colophon := {}
  startup : Startup := {}
  rescues : List Rescue := []
  /-- Capture records and trace records that wait for their ring (R324, R328). -/
  captures : List (List Byte) := []
  traces : List (List Nat) := []
  /-- Records written so far to the capture, trace, learn, dump and health streams: their SEQUENCE numbers. -/
  captureSeq : Nat := 0
  traceSeq : Nat := 0
  /-- The model's own field, no state of the T968: how many free values have been drawn. -/
  freeCount : Nat := 0
  /-- The model's own field: what has left the block, newest last. -/
  out : List Out := []
  deriving DecidableEq, Repr

/-- The state right after reset: every register at its reset value, nothing powered yet, no command waiting. -/
def State.reset : State := {}

end Sys2Proof.Machine
end

