-- ==== Sys2Proof/Machine/Ops.lean ====
section
/-! DEFINITION. The named operations every meaning is built from: register words and fields, interrupt causes, counters,
error reports, time, draws of free values, and the accessors of the sparse parts of the state. -/

namespace Sys2Proof.Machine

/-- The three outcomes of a step on this machine. -/
abbrev Res := Host.Outcome State Fault Refusal

/-- The command completes with state `s`. -/
def done (s : State) : Res := .next s

/-- The command completes with `s` when its operands have their fixed sizes; otherwise it stops (safe). -/
def sized (ok : Bool) (s : State) : Res := if ok then .next s else .fault .illFormed

/-! ### Register words -/

/-- The live word of the register at `a`: the pending copy of its staged fields. -/
def rd (s : State) (a : Nat) : Nat := (sget resetWord s.regs a).toNat

/-- Store the word `v` at `a`, whatever the types of its fields: the hardware's own update. -/
def wr (s : State) (a v : Nat) : State := { s with regs := sset resetWord s.regs a (BitVec.ofNat 32 v) }

/-- Field [hi:lo] of the register at `a`. -/
def fld (s : State) (a hi lo : Nat) : Nat := bits (rd s a) hi lo

/-- Bit `k` of the register at `a`. -/
def flag (s : State) (a k : Nat) : Bool := bitAt (rd s a) k

/-- Set field [hi:lo] of the register at `a`. -/
def setFld (s : State) (a hi lo v : Nat) : State := wr s a (putBits (rd s a) hi lo v)

/-- Set bit `k` of the register at `a`. -/
def setFlag (s : State) (a k : Nat) (b : Bool) : State := setFld s a k k (bit b)

/-- The address of offset `off` of a page. -/
def Page.at_ (p : Page) (off : Nat) : Nat := p.base + off

/-- The bits of the register at `a` that are staged. -/
def stagedMask (a : Nat) : Nat :=
  match fieldsAt a with
  | none => 0
  | some fs => fieldMask (· == .stg) fs

/-- The word at `a` with its staged bits taken from `m`. -/
def mergeStaged (s : State) (m : Sparse Word32) (a : Nat) : Nat :=
  let k := stagedMask a
  (rd s a &&& (0xFFFFFFFF ^^^ k)) ||| ((sget resetWord m a).toNat &&& k)

/-- The word at `a` as applied in the current epoch (R38). -/
def rdCur (s : State) (a : Nat) : Nat := mergeStaged s s.regsCur a

/-- COMMIT_STATUS.CURRENT. -/
def currentEpoch (s : State) : Nat := fld s 0x44 15 0

/-- The word at `a` as the epoch with low bit `e` applies it (R40). -/
def rdEpoch (s : State) (e a : Nat) : Nat :=
  if e % 2 = currentEpoch s % 2 then rdCur s a else mergeStaged s s.regsOld a

/-- Field [hi:lo] as applied in the current epoch. -/
def fldCur (s : State) (a hi lo : Nat) : Nat := bits (rdCur s a) hi lo

/-! ### Time -/

/-- Device time in ns since its start (R233). -/
def devNs (s : State) : Nat := s.clock.dev / 2 ^ 40

/-- The seconds field of device time, low 32 bits. -/
def devSec (s : State) : Nat := devNs s / 1000000000 % 2 ^ 32

/-- The nanoseconds field of device time. -/
def devSub (s : State) : Nat := devNs s % 1000000000

/-- Steady time in ns (R207). -/
def now (s : State) : Nat := s.clock.steady

/-- Steady time in µs (R149). -/
def nowUs (s : State) : Nat := s.clock.steady / 1000

/-- CYCLE_NUMBER: the cycle that device time lies in, low 32 bits (R6). -/
def cycleNo (s : State) : Nat := devNs s / 125000 % 2 ^ 32

/-! ### What leaves the block, and free values -/

/-- Append to what has left the block. -/
def emit (s : State) (o : Out) : State := { s with out := s.out ++ [o] }

/-- Advance the draw counter: the next free value is another one. -/
def drawn (s : State) : State := { s with freeCount := s.freeCount + 1 }

/-! ### Interrupts -/

/-- The MSI-X messages that a cause of a page raises (R334). -/
def vectors (s : State) (p : Page) (k : Nat) : List Out :=
  (if flag s (p.at_ 0x14) k then
    [.vector 0 (if p = .mailbox ∧ 8 ≤ k ∧ k ≤ 11 then 248 + k else p.vector)] else []) ++
  (if p = .counters ∧ flag s 0xD060 31 then
    (if k = 0 then [.vector 1 0] else if k = 3 then [.vector 1 1] else []) else [])

/-- Raise cause `k` of page `p`: INT_STATUS records it, and the vector follows when it is enabled. -/
def raise (s : State) (p : Page) (k : Nat) : State :=
  let s := { s with out := s.out ++ vectors s p k }
  setFld s (p.at_ 0x10) k k 1

/-! ### Table entries -/

/-- The key of entry `i` of table `t`. -/
def tkey (t i : Nat) : Nat := t * 2 ^ 20 + i

/-- The reset value of entry `i` of the scheduler configuration table (R216). -/
def schedReset (i : Nat) : Nat :=
  let burst := 0x1007
  if i < 131072 then (7 - i % 8) * 2 ^ 119 + 2 ^ 107 + burst * 2 ^ 62
  else if i < 147456 then
    let n := i - 131072
    (if n ≤ 64 then 2 ^ 127 + n * 2 ^ 117 else 0) + 2 ^ 102 + burst * 2 ^ 15 + burst * 2 ^ 2
  else if i < 148480 then
    let g := i - 147456
    (if g ≤ 64 then 2 ^ 127 + g * 2 ^ 120 else 0x7F * 2 ^ 120) + 2 ^ 105 + burst * 2 ^ 56
  else (i - 148480) * 2 ^ 114 + burst * 2 ^ 65 + 20 * 2 ^ 58

/-- The reset value of the table entry with key `k` (R86, R216, R307, R345). -/
def resetImage (k : Nat) : Image :=
  let t := k / 2 ^ 20
  let i := k % 2 ^ 20
  if t = 0x16 then (if i ≤ 64 then BitVec.ofNat 512 (2 ^ 15 + i) else 0)
  else if t = 0x11 then BitVec.ofNat 512 (schedReset i)
  else if t = 0x0B then 0x10000
  else 0

/-- The pending copy of entry `i` of table `t`. -/
def tab (s : State) (t i : Nat) : Image := sget resetImage s.tabs (tkey t i)

/-- The entry as a number. -/
def tabN (s : State) (t i : Nat) : Nat := (tab s t i).toNat

/-- Write entry `i` of table `t`, in its pending copy. -/
def setTab (s : State) (t i : Nat) (v : Image) : State := { s with tabs := sset resetImage s.tabs (tkey t i) v }

/-- The entry as the current epoch applies it: for an unstaged table its only copy. -/
def tabCur (s : State) (t i : Nat) : Nat :=
  if tableStaged t then (sget resetImage s.tabsCur (tkey t i)).toNat else tabN s t i

/-- The entry as the epoch with low bit `e` applies it (R40). -/
def tabEpoch (s : State) (e t i : Nat) : Nat :=
  if tableStaged t ∧ e % 2 ≠ currentEpoch s % 2 then (sget resetImage s.tabsOld (tkey t i)).toNat else tabCur s t i

/-! ### Accessors of the sparse parts -/

def frameAt (s : State) (i : Nat) : Frame := sget (fun _ => {}) s.frames i
def setFrame (s : State) (i : Nat) (f : Frame) : State := { s with frames := sset (fun _ => {}) s.frames i f }
def queueAt (s : State) (q : Nat) : Queue := sget (fun _ => {}) s.queues q
def setQueue (s : State) (q : Nat) (v : Queue) : State := { s with queues := sset (fun _ => {}) s.queues q v }
def portAt (s : State) (p : Nat) : Port := sget (fun _ => {}) s.ports p
def setPort (s : State) (p : Nat) (v : Port) : State := { s with ports := sset (fun _ => {}) s.ports p v }
def sliceAt (s : State) (i : Nat) : SliceRt := sget (fun _ => {}) s.slices i
def setSlice (s : State) (i : Nat) (v : SliceRt) : State := { s with slices := sset (fun _ => {}) s.slices i v }
def gateAt (s : State) (g : Nat) : GateRt := sget (fun _ => {}) s.streamGates g
def setGate (s : State) (g : Nat) (v : GateRt) : State := { s with streamGates := sset (fun _ => {}) s.streamGates g v }
def channelAt (s : State) (k : Nat) : Channel := sget (fun _ => {}) s.channels k
def setChannel (s : State) (k : Nat) (v : Channel) : State := { s with channels := sset (fun _ => {}) s.channels k v }
def tevAt (s : State) (n : Nat) : TevPin := sget (fun _ => {}) s.tev n
def setTev (s : State) (n : Nat) (v : TevPin) : State := { s with tev := sset (fun _ => {}) s.tev n v }
def ringAt (s : State) (r : Nat) : Ring := sget (fun _ => {}) s.host.rings r
def setRing (s : State) (r : Nat) (v : Ring) : State :=
  { s with host := { s.host with rings := sset (fun _ => {}) s.host.rings r v } }

/-- Element `k` of a list of words; a word that is absent reads 0. -/
def nth (l : List Nat) (k : Nat) : Nat := l.getD k 0

/-- `l` with element `k` replaced. -/
def setNth (l : List Nat) (k v : Nat) : List Nat := l.set k v

/-- `m` with `n` added at key `k`. -/
def sadd (m : Sparse Nat) (k n : Nat) : Sparse Nat := sset zeroNat m k (sget zeroNat m k + n)

/-- `m` with `n` taken away at key `k`, not below 0. -/
def ssub (m : Sparse Nat) (k n : Nat) : Sparse Nat := sset zeroNat m k (sget zeroNat m k - n)

/-! ### The counter set (R303 to R316) -/

/-- The region of the counter set that an index lies in (R305). -/
def region (i : Nat) : Nat :=
  if i < 16384 then 0 else if i < 212992 then 1 else if i < 262144 then 2 else if i < 278528 then 3
  else if i < 294912 then 4 else if i < 299008 then 5 else if i < 364544 then 6 else 7

/-- Whether index `i` holds a counter: the fixed region ends at 3,964 (R427), region 7 at slot 3,327. -/
def counterExists (i : Nat) : Bool := i ≤ 3964 || (16384 ≤ i && i < 524288)

/-- The slot that entry `n` of the queue counter map names, if it is valid (R307). -/
def slotOf (s : State) (n : Nat) : Option Nat :=
  let e := tabN s 0x16 n
  if bitAt e 15 ∧ bits e 11 0 ≤ 3327 then some (bits e 11 0) else none

/-- Whether some valid map entry names the slot: one of the entries written, or one of the default entries. -/
def slotNamed (s : State) (k : Nat) : Bool :=
  (k ≤ 64 && slotOf s k == some k) ||
  s.tabs.any fun e => e.1 / 2 ^ 20 == 0x16 && bitAt e.2.toNat 15 && bits e.2.toNat 11 0 == k

/-- Whether a dump of `sets` covers index `i` (R312). -/
def dumpCovers (s : State) (sets i : Nat) : Bool :=
  counterExists i && bitAt sets (region i) && (region i != 7 || slotNamed s ((i - 364544) / 48))

/-- A covered counter that the running dump has not read yet is frozen (R313). -/
def frozen (s : State) (i : Nat) : Bool :=
  match s.counters.dump with
  | none => false
  | some d => d.next ≤ i && dumpCovers s d.sets i

/-- The live value of counter `i` (R310, R313). -/
def counter (s : State) (i : Nat) : Nat :=
  let c := s.counters
  let w := sget zeroNat c.written i
  ((if w = 0 then sget zeroNat c.wide i else w - 1) + sget zeroNat c.delta i) % 2 ^ 64

/-- TWIN_STATUS.ROLE: 0 STANDBY, 1 CLAIMING, 2 TAKING_OVER, 3 ACTIVE, 4 HANDING_OVER (R266). -/
def role (s : State) : Nat := fld s 0x604C 31 29

/-- The role is neither ACTIVE nor HANDING_OVER (R267). -/
def standsBy (s : State) : Bool := role s ≠ 3 && role s ≠ 4

/-- The twin copy covers counter `i`: not a counter of the twin page, of a lane page or of a CXL page, nor a FEC counter of
a port (R280). -/
def copied (i : Nat) : Bool :=
  !((22 ≤ i && i ≤ 24) || (3845 ≤ i && i ≤ 3908) || (3928 ≤ i && i ≤ 3947) ||
    (581 ≤ i && i < 3845 && ((i - 581) % 51 == 8 || (i - 581) % 51 == 9)))

/-- On a standby a covered counter changes only by the copy (R267, R280). -/
def keepsCounter (s : State) (i : Nat) : Bool := standsBy s && copied i

/-- Add `n` events to wide counter `i`. -/
def count (s : State) (i n : Nat) : State :=
  if keepsCounter s i then s
  else if frozen s i then { s with counters := { s.counters with delta := sadd s.counters.delta i n } }
  else { s with counters := { s.counters with
    wide := sset zeroNat s.counters.wide i ((sget zeroNat s.counters.wide i + n) % 2 ^ 64) } }

/-- The alarms that watch counter `i` restart their window with base 0 (R316). -/
def restartAlarms (s : State) (i : Nat) : State :=
  let al := (List.range 32).foldl (fun (m : Sparse Alarm) n =>
    if fld s (0xD100 + n * 16) 18 0 = i ∧ flag s (0xD100 + n * 16) 31 then
      sset (fun _ => {}) m n { (sget (fun _ => {}) m n) with restart := true, zero := true }
    else m) s.counters.alarms
  { s with counters := { s.counters with alarms := al } }

/-- Load wide counter `i` (R310, R313). -/
def loadCounter (s : State) (i v : Nat) : State :=
  let s := if frozen s i then
      { s with counters := { s.counters with
        written := sset zeroNat s.counters.written i (v % 2 ^ 64 + 1), delta := sset zeroNat s.counters.delta i 0 } }
    else { s with counters := { s.counters with wide := sset zeroNat s.counters.wide i (v % 2 ^ 64) } }
  restartAlarms s i

/-- Index `i` holds a counter that counts: of the drop reasons those of codes 0 to 0x2E; the others read 0 (R305, R309). -/
def counterHeld (i : Nat) : Bool := counterExists i && !(335 ≤ i && i ≤ 543)

/-- Write wide counter `i` (R310). -/
def setCounter (s : State) (i v : Nat) : State := if keepsCounter s i ∨ !counterHeld i then s else loadCounter s i v

/-- Count a frame or copy dropped for reason `r`, `n` times (R309). -/
def countDrop (s : State) (r n : Nat) : State :=
  let s := { s with counters := { s.counters with ownDrops := s.counters.ownDrops + n } }
  count s (288 + r) n

/-- The index of counter `k` of front port `p` (R427). -/
def portCounter (p k : Nat) : Nat := 581 + 51 * p + k

/-! ### Error reports (R415 to R419) -/

/-- The class of an error code (R416): 0 correctable, 1 frame-fatal, 2 entry-fatal, 3 block-fatal, 4 device-fatal. -/
def errClass (code : Nat) : Nat :=
  if code ∈ [0x0101, 0x0202, 0x0204, 0x040A, 0x0501, 0x0602, 0x0701, 0x0703, 0x0A01, 0x0A02, 0x0A03] then 0
  else if code ∈ [0x0102, 0x0301, 0x0401, 0x0402, 0x0403, 0x0404, 0x0405, 0x0407, 0x0503] then 1
  else if code ∈ [0x0103, 0x0104, 0x0105, 0x0106, 0x0108, 0x0203, 0x0406, 0x0408, 0x0409] then 2
  else if code ∈ [0x0107, 0x0702, 0x0801, 0x0802, 0x0804, 0x0901, 0x0902] then 4
  else 3

/-- Whether the catalogue counts the code in its class counter of the root page (R416). -/
def errInRoot (code : Nat) : Bool :=
  code ∈ [0x0101, 0x0202, 0x0204, 0x0701, 0x0105, 0x0106, 0x0201, 0x0601, 0x0603, 0x0704, 0x0705,
    0x0107, 0x0702, 0x0801, 0x0901, 0x0902]

/-- LEVEL of an error record, the level number of R3 minus 1: the level at which R415 contains the error's class, and a free value
(log 14) where it names two levels or none: a frame-fatal error is contained at its leaf or its frame, a table entry and a block are
no levels of R3, and a correctable error is contained nowhere. -/
def errLevel (code : Nat) (cls : Nat) (p : Page) : Nat :=
  let l := Config.errorLevel code p.blockType
  match cls with
  | 0 => l % 7
  | 1 => l % 2
  | 2 => if code = 0x0103 ∨ code = 0x0406 then 2 else l % 7
  | 3 => match p with
    | .port _ _ => 3
    | .lane _ => 3
    | .slice _ _ => 4
    | _ => l % 7
  | _ => 5

/-- Insert a record among those of the same instant, in ascending LEVEL, then CODE (R417). -/
def insertErr (r : ErrRec) : List ErrRec → List ErrRec
  | [] => [r]
  | e :: l =>
    if e.sec = r.sec ∧ e.ns = r.ns ∧ e.cycle = r.cycle ∧
      (r.level < e.level ∨ (r.level = e.level ∧ r.code < e.code)) then r :: e :: l
    else e :: insertErr r l

/-- Set a bit of FAULT_STATUS; FAULT_N is low while any bit is 1 (R419). -/
def setFault (s : State) (k : Nat) : State :=
  let s := if bits (rd s 0x2094) 31 25 = 0 then emit s (.pin "FAULT_N" 0 false) else s
  setFlag s 0x2094 k true

/-- Latch a block-fatal or device-fatal error (R418). -/
def latchErr (s : State) (r : ErrRec) : State :=
  let s := wr s 0x209C (r.cls * 2 ^ 29 + r.code)
  let s := wr s 0x20A0 r.cycle
  let s := wr s 0x20A4 (nth r.detail 0)
  let s := if r.cls = 4 then { s with errors := { s.errors with first := some r } } else s
  if r.cls = 3 ∧ flag s 0x2098 30 then setFault s 25 else s

/-- The pages that stay usable throughout a device warm reset (R447). -/
def resetOpen : Page → Bool
  | .root => true | .alwaysOn => true | .hostIf => true | .mailbox => true | .time => true | .timeEvents => true
  | _ => false

/-- The domain that holds the page is powered (R13): the always-on page with VDD_AON, the pages of the timing island with the island,
every other page with the core rails. -/
def pagePowered (s : State) : Page → Bool
  | .alwaysOn => s.startup.aonUp
  | .time => s.startup.island
  | .timeEvents => s.startup.island
  | _ => s.startup.railsUp

/-- The page is held in reset: its domain has no power, or a device reset runs that holds it (R13, R447). -/
def heldInReset (s : State) (p : Page) : Bool := !pagePowered s p || (s.startup.resetting && !resetOpen p)

/-- The core is powered and out of reset (R13). -/
def coreRuns (s : State) : Bool := s.startup.railsUp && !s.startup.resetting

/-- Report an error of page `p` with its class: its class counter, its log record and its latch (R416 to R418). A page held
in reset reports nothing (R417), and without the core there is neither a counter nor a log (R13). -/
def reportAs (s : State) (cls code : Nat) (p : Page) (detail : List Nat) : State :=
  if heldInReset s p then s else
  let r : ErrRec := { cls, level := errLevel code cls p, code, type := p.blockType, number := p.number,
                      cycle := cycleNo s, ns := devSub s, sec := devSec s, detail }
  let s := { s with counters := { s.counters with
    ownCorrected := s.counters.ownCorrected + bit (cls == 0), ownBlockFatal := s.counters.ownBlockFatal + bit (cls == 3) } }
  let s := if errInRoot code ∧ s.startup.railsUp then count s cls 1 else s
  let s := if !s.startup.railsUp ∨ cls = 0 ∧ (code, p.base) ∈ s.errors.logged then s
    else { s with errors := { s.errors with
      waiting := insertErr r s.errors.waiting,
      logged := if cls = 0 then (code, p.base) :: s.errors.logged else s.errors.logged } }
  if 3 ≤ cls then latchErr s r else s

/-- Report an error under the class of the catalogue. -/
def report (s : State) (code : Nat) (p : Page) (detail : List Nat) : State := reportAs s (errClass code) code p detail

/-! ### Narrow counters (R303, R304) -/

/-- The effects of a narrow counter's first clock at 0xFFFF. -/
def saturate (s : State) (a : Nat) : State :=
  let s := setFlag s a 31 true
  let s := raise s .counters 4
  report s 0x0A01 .counters [a / 0x1000 * 0x1000, a % 0x1000]

/-- Add `n` events to the narrow counter register at `a`. -/
def narrowAdd (s : State) (a n : Nat) : State :=
  let v := fld s a 15 0 + n
  if v < 0xFFFF then setFld s a 15 0 v
  else
    let s' := setFld s a 15 0 0xFFFF
    if flag s a 31 then s' else saturate s' a

/-- One event of the narrow counter register at `a`. -/
def tally (s : State) (a : Nat) : State := narrowAdd s a 1

/-! ### Slices -/

/-- SLEEP_STATUS follows the states of the slices. -/
def showSleep (s : State) (i : Nat) : State :=
  let (d, l, a) := match (sliceAt s i).sleep with
    | .awake => (false, false, true)
    | .light => (false, true, false)
    | .waking false => (false, true, false)
    | .deep => (true, false, false)
    | .waking true => (true, false, false)
  setFlag (setFlag (setFlag s 0x3058 (16 + i) d) 0x3058 (8 + i) l) 0x3058 i a

/-- A trigger of R290 reaches slice `i`: a sleeping slice starts to wake, an awake one restarts its idle count. -/
def wakeSlice (s : State) (i : Nat) : State :=
  let v := sliceAt s i
  match v.sleep with
  | .awake => setSlice s i { v with idleSince := now s }
  | .light => count (setSlice s i { v with sleep := .waking false }) (6 + i) 1
  | .deep => count (setSlice s i { v with sleep := .waking true }) (6 + i) 1
  | .waking _ => s

/-- The idle count of slice `i` restarts while it is awake (R289). -/
def touchSlice (s : State) (i : Nat) : State :=
  let v := sliceAt s i
  if v.sleep = .awake then setSlice s i { v with idleSince := now s } else s

/-- Slice `i` is out of reset and does not sleep. -/
def awake (s : State) (i : Nat) : Bool := (sliceAt s i).sleep == .awake && !(sliceAt s i).inReset

/-- The pipelines of slice `i` run: it is awake, and no core clock change stalls it (R14, R15). -/
def pipelineRuns (s : State) (i : Nat) : Bool := awake s i && s.power.stallUntil.isNone

/-! ### Records for the host -/

/-- The byte size of event ring `e`: 2^SIZE_LOG2, SIZE_LOG2 held to 12 to 30 (R342). -/
def eventRingSize (s : State) (e : Nat) : Nat :=
  2 ^ (max 12 (min 30 (fld s (0xC048 + e * 0x20) 29 25)))

/-- Whether event ring `e` takes a record of `n` bytes: enabled, and room between TAIL and HEAD (R342). -/
def eventRoom (s : State) (e n : Nat) : Bool :=
  let size := eventRingSize s e
  let head := rd s (0xC04C + e * 0x20)
  let tail := rd s (0xC050 + e * 0x20)
  flag s (0xC048 + e * 0x20) 31 && n < size - (tail + size - head) % size

/-- A completion of ring `r` (0 to 63 transmit, 64 to 127 receive, 128 to 135 event): its vector follows at once
when ITR_US is 0, and otherwise when its time runs out (R335). -/
def signal (s : State) (r itr : Nat) : State :=
  if itr = 0 then emit s (.vector 0 r)
  else if (ringAt s r).unsignalled = 0 then setRing s r { (ringAt s r) with unsignalled := now s + 1 } else s

/-- Write a record to event ring `e`; TAIL, its write-back and the vector follow (R342). The ring has room for it. -/
def eventWrite (s : State) (e : Nat) (ws : List Nat) : State :=
  let b := 0xC040 + e * 0x20
  let size := eventRingSize s e
  let s := emit s (.record e ws)
  let tail := (rd s (b + 0x10) + ws.length * 4) % size
  let s := wr s (b + 0x10) tail
  let wb := rd s (b + 0x14) + rd s (b + 0x18) * 2 ^ 32
  let s := if wb = 0 then s else emit s (.hostWrite wb (leBytes 4 tail))
  signal s (128 + e) (fld s (b + 8) 15 0)

end Sys2Proof.Machine
end

