-- ==== Sys2Proof/Machine/Access.lean ====
section
/-! DEFINITION. Register accesses before they reach a register: the checks of R27, R30, R34, R35, R402 and R447 in the
order an access meets them, fault records, held and latched pair words, and the effect of a write by field type (R33). -/

namespace Sys2Proof.Machine

/-! ### Faults -/

/-- Record a faulted access (R31, R424): an address in no page is recorded in the root page. A page held in reset records none (R447). -/
def accessFault (s : State) (src : Source) (a cause : Nat) : State :=
  let p := (pageAt a).getD .root
  if heldInReset s p then s else
  raise (wr s (p.at_ 0x1C) (cause * 2 ^ 28 + src.code * 2 ^ 25 + a % 0x1000 / 4 * 4)) p 31

/-! ### Who may reach what (R402, R350, R317) -/

/-- Debug is open by life cycle or by token (R400). -/
def debugOpen (s : State) : Bool := s.colophon.lifecycle ≠ 2 || s.colophon.debugByToken

/-- The mailbox channel whose block holds page offset `o`: inbound 0 to 5, outbound 6 to 11. -/
def channelOf (o : Nat) : Option Nat :=
  if 0x100 ≤ o ∧ o < 0x700 then some (o / 0x100 - 1)
  else if 0x800 ≤ o ∧ o < 0xE00 then some (o / 0x100 - 8 + 6) else none

/-- The page offset of a channel's block. -/
def channelBase (c : Nat) : Nat := if c < 6 then 0x7100 + c * 0x100 else 0x7800 + (c - 6) * 0x100

/-- The authority an access source carries: table DMA that of PF0, JTAG that of PF0 while debug is open (R402). -/
def acts : Source → Source
  | .dma => .pf0 | .jtag => .pf0 | .task => .seq | s => s

/-- The access source at the outer end of mailbox channel pair `k` (R350). -/
def channelPeer (k : Nat) : Source := if k < 4 then .pf0 else if k = 4 then .i2c else .kettle

/-- The sender of channel `c` (R350). -/
def channelSender (c : Nat) : Source := if c < 6 then channelPeer c else .seq

/-- The receiver of channel `c` (R350). -/
def channelReceiver (c : Nat) : Source := if c < 6 then .seq else channelPeer (c - 6)

/-- The pages that PF0 may write in SCRAPPED and in recovery (R395, R402). -/
def restrictedPage : Page → Bool
  | .root => true | .colophon => true | .alwaysOn => true | .hostIf => true | _ => false

/-- The mailbox blocks of channel pair `k`. -/
def inChannelPair (a k : Nat) : Bool :=
  a / 0x1000 == 7 && (channelOf (a % 0x1000) == some k || channelOf (a % 0x1000) == some (k + 6))

/-- The BAR_0 page that page `p` of PF1's window mirrors (R429). -/
def pf1Page (p : Nat) : Option Page :=
  if p < 64 then some (.port p 2)
  else match p with
    | 64 => some .counters | 65 => some .root | 66 => some (.buffer 0) | 67 => some (.spill 0)
    | 68 => some (.cxl 0) | 69 => some (.cxl 1) | 70 => some (.cxl 2) | 71 => some (.cxl 3)
    | 72 => some .sched | 73 => some (.fwd 0) | 74 => some (.fwd 3) | 75 => some (.police 0)
    | 76 => some .power | 77 => some .twin | 78 => some .mirror | 79 => some .tracer
    | 80 => some .hostIf | 81 => some (.dma 0) | 82 => some (.dma 1) | 83 => some .sequencer
    | _ => none

/-- Page `p` of PF1's window is readable (R317). -/
def pf1Allowed (s : State) (p : Nat) : Bool := flag s 0xD060 31 && flag s (0xD080 + p / 32 * 4) (p % 32)

/-- The page of PF1's window that mirrors the page holding the address, if PF1 may read it. -/
def pf1Sees (s : State) (a : Nat) : Bool :=
  (List.range 84).any fun p => pf1Page p == pageAt a && pf1Allowed s p

/-- After a failure of BIST only the always-on page answers (R408). -/
def answersAfterBist (s : State) (pg : Option Page) : Bool := !s.startup.bistFailed || pg == some .alwaysOn

/-- Reads that the arrival port may make (R402, R350, R408). -/
def mayRead (s : State) (src : Source) (a : Nat) : Bool :=
  let pg := pageAt a
  let receiver : Bool := match pg with
    | some .mailbox =>
      match channelOf (a % 0x1000) with
      | some c => a % 0x100 < 0x48 || channelReceiver c == acts src
      | none => true
    | _ => true
  let arrival : Bool := match src with
    | .seq => true | .task => true
    | .pf0 => true | .dma => true
    | .pf1 => pf1Sees s a
    | .i2c => pg == some .alwaysOn || pg == some .power || pg == some .twin || inChannelPair a 4
    | .kettle => inChannelPair a 5
    | .jtag => debugOpen s
  receiver && arrival && answersAfterBist s pg

/-- PF1_CONTROL, PF1_APERTURE and USER_READ_MASK, which only PF0 writes (R317, R430). -/
def onlyHostWrites (a : Nat) : Bool := a = 0xD060 || a = 0xD064 || (0xD080 ≤ a && a < 0xD0A0)

/-- Writes that the arrival port may make (R402, R350, R317, R408). -/
def mayWrite (s : State) (src : Source) (a : Nat) : Bool :=
  let pg := pageAt a
  let sender : Bool := match pg with
    | some .mailbox =>
      match channelOf (a % 0x1000) with
      | some c => channelSender c == acts src || (c = 10 && a % 0x100 = 0x40 && src == .i2c)
      | none => true
    | _ => true
  let host : Bool :=
    (!(s.colophon.lifecycle == 4 || s.startup.recovery) || (match pg with | some p => restrictedPage p | none => false))
  let arrival : Bool := match src with
    | .seq => true | .task => true
    | .pf0 => host | .dma => host
    | .pf1 => false
    | .i2c => a = 0x2040 || a = 0x2048 || a = 0x2080 || inChannelPair a 4
    | .kettle => inChannelPair a 5
    | .jtag => debugOpen s && host
  sender && arrival && answersAfterBist s pg && (!onlyHostWrites a || acts src == .pf0)

/-! ### Pages in reset, and port pages not in service -/

/-- PORT_STATUS.STATE of front port `p` (R58): 0 DISABLED, 1 TRAINING, 2 UP, 3 HOLD, 4 FLUSHING. -/
def portState (s : State) (p : Nat) : Nat := fld s (0x20004C + p * 0x4000) 31 29

/-- Front port `p` is not in service: it falls on an upper lane of a wider port in force (R5). -/
def notInService (s : State) (p : Nat) : Bool :=
  (List.range 7).any fun d => d + 1 ≤ p && d + 1 < (portAt s (p - (d + 1))).width && portState s (p - (d + 1)) ≠ 0

/-- The port page at `a` belongs to a port number that is not in service. -/
def hiddenPort (s : State) (a : Nat) : Bool :=
  match pageAt a with
  | some (.port p _) => notInService s p
  | _ => false

/-! ### Pair words (R30) and wakes (R290) -/

/-- The key of a source's latch or held word at an address. -/
def sourceKey (src : Source) (a : Nat) : Nat := src.code * 2 ^ 26 + a

/-- A source writes a register: what it held for the _LO words of the page is discarded (R30). -/
def dropHeld (s : State) (src : Source) (a : Nat) : State :=
  { s with access := { s.access with
    held := skeep (fun k => !(k / 2 ^ 26 == src.code && k % 2 ^ 26 / 0x1000 == a / 0x1000)) s.access.held } }

/-- A register access that reaches a page of a sleeping slice wakes the slice (R290). -/
def wakeForPage (s : State) (a : Nat) : State :=
  match pageAt a with
  | some (.slice i _) => if i < 8 then wakeSlice s i else s
  | _ => s

/-- Reads of any other address give up the source's table window latch (R428). -/
def dropWindow (s : State) (src : Source) : State :=
  { s with access := { s.access with window := s.access.window.filter fun e => e.1 != src.code } }

/-- A write of one aligned word: dropped and faulted where R27, R35, R402 or R447 say, and otherwise `act`. DESIGN CHOICE (log 7): the
checks of R27 and R402 come before the test for a hidden port page, so an unaligned, undefined or unauthorised write to such a page is
recorded in ACCESS_FAULT, where R5 and R424 only say that writes to it are ignored. -/
def guarded (s : State) (src : Source) (a : Nat) (act : State → State) : State :=
  if a % 4 ≠ 0 then accessFault s src a 1
  else if (windowAt a).isSome then accessFault s src a 5
  else match pageAt a, fieldsAt a with
    | some p, some _ =>
      if heldInReset s p then s
      else if !mayWrite s src a then accessFault s src a 5
      else
        let s := wakeForPage (dropHeld s src a) a
        if hiddenPort s a then s else act s
    | _, _ => accessFault s src a 2

/-! ### The effect of a write by field type (R33, R34) -/

/-- The page's LOCK bit is set. -/
def pageLocked (s : State) (a : Nat) : Bool := flag s (a / 0x1000 * 0x1000 + 0x28) 0

/-- The wide counter whose _LO (false) or _HI (true) word is at `a`. -/
def wideAt (a : Nat) : Option (Nat × Bool) :=
  match wideIndex a with
  | some i => some (i, false)
  | none => if 4 ≤ a then (wideIndex (a - 4)).map fun i => (i, true) else none

/-- The bits of the register that a write may no longer change: locked RWL fields and WO1 fields already written. -/
def barredMask (s : State) (a : Nat) (fs : List Field) : Nat :=
  (if pageLocked s a then fieldMask (· == .rwl) fs else 0) |||
  (if a ∈ s.access.once then fieldMask (· == .wo1) fs else 0)

/-- The fault that R34 gives a write of `v`: 3 LOCKED, 4 WRITTEN_ONCE, 0 none. -/
def barredCause (s : State) (a : Nat) (fs : List Field) (v : Nat) : Nat :=
  let locked := if pageLocked s a then fieldMask (· == .rwl) fs else 0
  let writable := fieldMask (· != .ro) fs
  if a ∈ s.access.once ∧ fieldMask (· == .wo1) fs ≠ 0 then 4
  else if locked ≠ 0 ∧ (writable = locked ∨ v &&& locked ≠ rd s a &&& locked) then 3
  else 0

/-- The word that a write of `v` leaves in a register: RW, STG, open RWL and unwritten WO1 bits take the value, W1C bits
written 1 clear, W1S bits written 1 set, and a CNT field clears, with the SATURATED bit above it (R33, R304). -/
def writtenWord (s : State) (a : Nat) (fs : List Field) (v : Nat) : Nat :=
  let old := rd s a
  let take := fieldMask (fun t => t == .rw || t == .stg || t == .rwl || t == .wo1) fs &&&
    (0xFFFFFFFF ^^^ barredMask s a fs)
  let clear := (fieldMask (· == .w1c) fs &&& v) ||| fieldMask (· == .cnt) fs |||
    (if narrowAt fs then 2 ^ 31 else 0)
  let set := fieldMask (· == .w1s) fs &&& v
  (((old &&& (0xFFFFFFFF ^^^ take)) ||| (v &&& take)) &&& (0xFFFFFFFF ^^^ clear)) ||| set
where
  /-- A register that holds a narrow counter alone (R303). -/
  narrowAt (fs : List Field) : Bool := fs == [ro 31 31, cntF 15 0]

/-- A write of `v` to the register at `a` takes effect by the type of each field (R33), with the fault of R34. -/
def fieldWrite (s : State) (src : Source) (a v : Nat) : State :=
  match fieldsAt a with
  | none => s
  | some fs =>
    let cause := barredCause s a fs v
    let new := writtenWord s a fs v
    let s := if fieldMask (· == .wo1) fs ≠ 0 ∧ a ∉ s.access.once then
        { s with access := { s.access with once := a :: s.access.once } } else s
    let s := match wideAt a with
      | some (i, _) => setCounter s i 0
      | none => wr s a new
    let s := if fieldMask (· == .stg) fs ≠ 0 then setFlag s (a / 0x1000 * 0x1000 + 8) 29 true else s
    if cause = 0 then s else accessFault s src a cause

end Sys2Proof.Machine
end

