-- ==== Sys2Proof/Machine/Counters.lean ====
section
/-! DEFINITION. The counter set beyond its registers: object counters (R305 to R307), port statistics (R308), snapshots
(R311), dumps (R312 to R315), alarms (R316). -/

namespace Sys2Proof.Machine

/-! ### Object counters (R306) -/

/-- Count bytes of a colour against a policer. -/
def countPolicer (s : State) (k colour bytes : Nat) : State := count s (16384 + 3 * k + colour) bytes

/-- Count a frame and its bytes under counters `i` and `i + 1` of the object whose counters begin at `first`. -/
def countBoth (s : State) (first i bytes : Nat) : State := count (count s (first + i) 1) (first + i + 1) bytes

def vlanCounters (v : Nat) : Nat := 278528 + 4 * v
def groupCounters (g : Nat) : Nat := 294912 + 4 * g
def subCounters (n : Nat) : Nat := 299008 + 4 * n

/-- Count a frame and its bytes against a queue: `i` is 0 enqueued, 2 dequeued, 4 dropped (R307). -/
def countQueue (s : State) (q i bytes : Nat) : State :=
  match slotOf s (q / 8) with
  | none => s
  | some k => countBoth s (364544 + 48 * k + 6 * (q % 8)) i bytes

/-! ### Port statistics (R308) -/

/-- The size bin of a length of 64 bytes or more. -/
def sizeBin (n : Nat) : Nat :=
  if n ≤ 64 then 0 else if n ≤ 127 then 1 else if n ≤ 255 then 2 else if n ≤ 511 then 3 else if n ≤ 1023 then 4
  else if n ≤ 1518 then 5 else if n ≤ 2047 then 6 else if n ≤ 4095 then 7 else if n ≤ 8191 then 8 else 9

/-- The frame is broadcast. -/
def isBroadcast (b : List Byte) : Bool := b.take 6 == List.replicate 6 0xFF

/-- The frame goes to a group address. -/
def isGroup (b : List Byte) : Bool := match b with | [] => false | x :: _ => x.toNat % 2 == 1

/-- A frame sent on a front port: its bin, and the good-frame counters when its FCS is correct. -/
def countSent (s : State) (p : Nat) (b : List Byte) (good : Bool) : State :=
  let s := if 64 ≤ b.length then count s (portCounter p (39 + sizeBin b.length)) 1 else s
  if !good then s
  else
    let s := count (count s (portCounter p 25) 1) (portCounter p 26) b.length
    if isBroadcast b then count s (portCounter p 28) 1
    else if isGroup b then count s (portCounter p 27) 1 else s

/-- A frame received on a front port: its bin, and the good-frame counters when it has no fault. -/
def countReceived (s : State) (p : Nat) (b : List Byte) (good : Bool) : State :=
  let s := if 64 ≤ b.length then count s (portCounter p (29 + sizeBin b.length)) 1 else s
  if !good then s
  else
    let s := count (count s (portCounter p 19) 1) (portCounter p 20) b.length
    if isBroadcast b then count s (portCounter p 23) 1
    else if isGroup b then count s (portCounter p 22) 1 else s

/-! ### Snapshots (R311) -/

/-- The register at `a` has a CNT field. -/
def hasCount (a : Nat) : Bool := match fieldsAt a with | none => false | some fs => fs.any fun f => f.ty == .cnt

/-- COUNTER_CONTROL.SNAPSHOT. -/
def snapshot (s : State) : State :=
  let wide := (List.range 3965).foldl (fun m i => sset zeroNat m i (counter s i)) []
  let s := { s with counters := { s.counters with holdWide := wide, holdWord := skeep hasCount s.regs } }
  let s := wr (wr (wr s 0xD048 (cycleNo s)) 0xD04C (devSub s)) 0xD050 (devSec s)
  raise s .counters 6

/-! ### Dumps (R312 to R315) -/

/-- The first index after region `r`. -/
def regionEnd (r : Nat) : Nat := [3965, 212992, 262144, 278528, 294912, 299008, 364544, 524288].getD r 524288

/-- The first index at or above `i` that a dump of `sets` covers. -/
def nextCovered (s : State) (sets : Nat) : Nat → Nat → Option Nat
  | 0, _ => none
  | fuel + 1, i =>
    if 524288 ≤ i then none
    else if 3965 ≤ i ∧ i < 16384 then nextCovered s sets fuel 16384
    else if !bitAt sets (region i) then nextCovered s sets fuel (if region i = 0 then 16384 else regionEnd (region i))
    else if region i = 7 ∧ !slotNamed s ((i - 364544) / 48) then
      nextCovered s sets fuel (364544 + ((i - 364544) / 48 + 1) * 48)
    else some i

/-- Two indexes may share a DATA record: consecutive, of one region, and in region 7 of one slot (R314). -/
def sameRecord (i j : Nat) : Bool :=
  j == i + 1 && region i == region j && (region i != 7 || (i - 364544) / 48 == (j - 364544) / 48)

/-- Write a dump record, or count it lost when ring 3 has no room (R315). -/
def dumpRecord (s : State) (ws : List Nat) : Bool × State :=
  if eventRoom s 3 64 then (true, eventWrite s 3 ws)
  else (false, raise (count s 287 1) .counters 2)

/-- The DATA record of the counters gathered so far. -/
def flushGathered (s : State) (d : Dump) : Dump × State :=
  match d.gathered with
  | [] => (d, s)
  | (first, _) :: _ =>
    let vals := d.gathered.flatMap fun e => [e.2 % 2 ^ 32, e.2 / 2 ^ 32]
    let ws := [1 * 2 ^ 28 + d.gathered.length * 2 ^ 25 + first, d.cycle, d.ns, d.sec] ++ vals ++
      List.replicate (12 - vals.length) 0
    let r := dumpRecord s ws
    ({ d with gathered := [], records := d.records + 1, lost := d.lost + bit (!r.1) }, r.2)

/-- DUMP_STATUS follows the engine. -/
def showDump (s : State) : State :=
  wr s 0xD058 (match s.counters.dump with | none => 0 | some d => 2 ^ 31 + d.next % 2 ^ 19)

/-- Set the dump in progress. -/
def setDump (s : State) (d : Option Dump) : State := showDump { s with counters := { s.counters with dump := d } }

/-- The engine reads the next covered counter, one in every 4 core clocks: it records the frozen value and folds the delta (R312, R313). -/
def dumpRead (s : State) : State :=
  match s.counters.dump with
  | none => s
  | some d =>
    match (if s.clock.coreTenths < d.due then none else nextCovered s d.sets 5000 d.next) with
    | none => s
    | some i =>
      let c := s.counters
      let v := sget zeroNat c.wide i
      let live := counter s i
      let s := { s with counters := { c with
        wide := sset zeroNat c.wide i live, delta := sset zeroNat c.delta i 0, written := sset zeroNat c.written i 0 } }
      let fits := match d.gathered.getLast? with
        | none => true
        | some (j, _) => sameRecord j i && d.gathered.length < 6
      let (d, s) := if fits then (d, s) else flushGathered s d
      setDump s (some { d with next := i + 1, gathered := d.gathered ++ [(i, v)], due := d.due + 40 })

/-- Every covered counter has been read: the last DATA record and the END record follow (R314). -/
def dumpEnd (s : State) : State :=
  match s.counters.dump with
  | none => s
  | some d =>
    match nextCovered s d.sets 5000 d.next with
    | some _ => s
    | none =>
      let (d, s) := flushGathered s d
      let r := dumpRecord s ([2 * 2 ^ 28, d.cycle, d.ns, d.sec, s.counters.sequence, d.records, d.lost, d.sets] ++
        List.replicate 8 0)
      let s := wr r.2 0xD05C r.2.counters.sequence
      let s := { s with counters := { s.counters with sequence := (s.counters.sequence + 1) % 2 ^ 32 } }
      raise (setDump s none) .counters 0

/-- A cycle boundary meets the dump engine: a dump starts, or its start is skipped (R312). -/
def dumpBoundary (s : State) : State :=
  if !flag s 0xD054 31 then s
  else if s.counters.dumpWait ≠ 0 then
    { s with counters := { s.counters with dumpWait := s.counters.dumpWait - 1 } }
  else
    let s := { s with counters := { s.counters with dumpWait := max 8 (fld s 0xD054 15 0) - 1 } }
    match s.counters.dump with
    | some _ => raise (tally s 0xD388) .counters 1
    | none => setDump s (some { next := 0, sets := fld s 0xD054 23 16, cycle := cycleNo s, ns := devSub s,
                                sec := devSec s, gathered := [], records := 0, lost := 0, due := s.clock.coreTenths })

/-! ### Alarms (R316) -/

def alarmAt (s : State) (n : Nat) : Alarm := sget (fun _ => {}) s.counters.alarms n

/-- A cycle boundary meets alarm `n`. -/
def alarmBoundary (s : State) (n : Nat) : State :=
  let b := 0xD100 + n * 16
  let set := fun (s : State) (a : Alarm) =>
    { s with counters := { s.counters with alarms := sset (fun _ => {}) s.counters.alarms n a } }
  if !flag s b 31 then set s {}
  else
    let a := alarmAt s n
    let v := counter s (fld s b 18 0)
    let a := if !a.running ∨ a.restart ∨ a.left = 0 then
        { running := true, base := if a.zero then 0 else v, left := max 1 (fld s (b + 4) 15 0), fired := false }
      else a
    let growth := (v + 2 ^ 64 - a.base) % 2 ^ 64
    let limit := rd s (b + 8) + rd s (b + 12) * 2 ^ 32
    let fires := !a.fired && limit ≤ growth
    let s := set s { a with left := a.left - 1, fired := a.fired || fires }
    if fires then
      report (raise (setFlag s 0xD300 n true) .counters 3) 0x0A02 .counters
        [fld s b 18 0, growth % 2 ^ 32, growth / 2 ^ 32, cycleNo s]
    else s

/-- A cycle boundary meets every alarm. -/
def alarmsBoundary (s : State) : State := (List.range 32).foldl alarmBoundary s

/-! ### The commands -/

/-- SNAPSHOT: a write of 1 to COUNTER_CONTROL.SNAPSHOT (R311). -/
def execSnapshot (src : Source) (s : State) : Res := done (guarded s src 0xD040 snapshot)

/-- DUMP_COUNTER_READ: the dump engine reads one frozen counter (R313). -/
def execDumpCounterRead (s : State) : Res := done (dumpRead s)

/-- DUMP_DONE: a dump ends with its END record (R314, R315). -/
def execDumpDone (s : State) : Res := done (dumpEnd s)

/-- COUNTER_SATURATED: the narrow counter at an address reaches 0xFFFF (R304). -/
def execCounterSaturated (addr : Nat) (s : State) : Res :=
  done (if fieldsAt addr = some [ro 31 31, cntF 15 0] then narrowAdd s addr (0xFFFF - fld s addr 15 0) else s)

end Sys2Proof.Machine
end

