-- ==== Sys2Proof/Machine/Time.lean ====
section
/-! DEFINITION. Device time and steady time: the tick, slews and steps (R233 to R237), captures (R238), the re-phasing of
a cycle (R239), the time PLL, and the time-event pins (R252 to R254). -/

namespace Sys2Proof.Machine

/-- The value of a register pair whose _LO word is at `a`. -/
def rdPair (s : State) (a : Nat) : Nat := rd s a + rd s (a + 4) * 2 ^ 32

/-- Device time wraps after 2^48 seconds (R233), in units of 2^-40 ns. -/
def devWrap : Nat := 2 ^ 48 * 1000000000 * 2 ^ 40

/-- TIME_INCREMENT as it acts, in units of 2^-40 ns: from 0.5 ns to 2.0 ns (R234). -/
def tickIncrement (s : State) : Nat := max (2 ^ 39) (min (2 ^ 41) (rdPair s 0x4044))

/-- What the next tick adds to device time, in units of 2^-40 ns (R235). -/
def tickAdvance (s : State) : Nat :=
  if 0 < s.clock.slewLeft then (tickIncrement s + s.clock.slewAdj).toNat else tickIncrement s

/-- POWER_STATUS.RUN_CLOCK in tenths of a GHz. -/
def runTenths (s : State) : Nat := [16, 12, 8, 4].getD (fld s 0x3050 31 30) 16

/-- The clocks of 1 ns: steady time, and while the timing island is powered device time by the increment and the slew's
adjustment; while the core is powered and out of reset its clock runs (R13, R234, R235). -/
def advance (s : State) : State :=
  { s with clock := { s.clock with
    steady := s.clock.steady + 1,
    dev := if s.startup.island then (s.clock.dev + tickAdvance s) % devWrap else s.clock.dev,
    slewLeft := if s.startup.island then s.clock.slewLeft - 1 else s.clock.slewLeft,
    coreTenths := if coreRuns s then s.clock.coreTenths + runTenths s else s.clock.coreTenths } }

/-- The number of the cycle that device time lies in (R6). -/
def cycleOf (ns : Nat) : Nat := ns / 125000

/-- The ticks of steady time until device time reaches `ns`, at the advance in force. -/
def ticksUntil (s : State) (ns : Nat) : Nat := ceilDiv (ns * 2 ^ 40 - s.clock.dev) (tickAdvance s)

/-- A slew ends (R235). -/
def endSlew (s : State) : State :=
  let s := { s with clock := { s.clock with slewLeft := 0, slewAdj := 0 } }
  raise (setFlag s 0x4078 30 false) .time 2

/-- TIME_CONTROL.SLEW: the values of the registers wait for the next tick (R235). -/
def startSlew (s : State) : State :=
  { s with clock := { s.clock with slewNext := some (bits (rdPair s 0x4058) 47 0, signed (rd s 0x4054) 32) } }

/-- SLEW_ABORT and SLEW at the tick, in that order (R237): a running slew that is aborted, or whose ticks have run out, ends; the
slew that waits then starts, or restarts the one that runs. -/
def slewTick (s : State) : State :=
  let s := if flag s 0x4078 30 ∧ (s.clock.slewEnds ∨ s.clock.slewLeft = 0) then endSlew s else s
  let s := { s with clock := { s.clock with slewEnds := false } }
  match s.clock.slewNext with
  | none => s
  | some (n, adj) =>
    setFlag { s with clock := { s.clock with slewLeft := n, slewAdj := adj, slewNext := none } } 0x4078 30 true

/-- The cycle in progress is re-phased after a step (R239): d₁ with its fraction is device time now. -/
def rephase (s : State) : State :=
  let m := ceilDiv s.clock.dev (125000 * 2 ^ 40) * 125000
  let length := s.clock.steady + ticksUntil s m - s.clock.cycleStart
  let stop := if length < 62500 then m + 125000 else m
  let s := { s with clock := { s.clock with cycleEnd := stop } }
  let s := wr (wr s 0x4080 (s.clock.cycleNumber % 2 ^ 32)) 0x4084 (cycleOf stop % 2 ^ 32)
  raise (narrowShared s 0x4078) .time 0
where
  /-- A narrow counter that shares its register: it stops at 0xFFFF (R303, R304). -/
  narrowShared (s : State) (a : Nat) : State :=
    if fld s a 15 0 = 0xFFFF then s
    else
      let s := setFld s a 15 0 (fld s a 15 0 + 1)
      if fld s a 15 0 = 0xFFFF then
        report (raise s .counters 4) 0x0A01 .counters [a / 0x1000 * 0x1000, a % 0x1000]
      else s

/-- TIME_CONTROL.STEP: the value of TIME_STEP waits for the next tick, in place of one that waits already (R236). -/
def holdStep (s : State) : State :=
  setFlag { s with clock := { s.clock with stepWaiting := some (signed (rdPair s 0x404C) 64) } } 0x4078 29 true

/-- The waiting step applies: device time moves by it, with its fraction kept (R236). -/
def applyStep (s : State) (step : Int) : State :=
  let s := { s with clock := { s.clock with
    dev := (((s.clock.dev : Int) + step * 2 ^ 40) % (devWrap : Int)).toNat, stepWaiting := none } }
  setFlag s 0x4078 29 false

/-- Device time as a capture finds it: after the step that waits for the tick, if one does (R237). -/
def stepped (s : State) : State :=
  match s.clock.stepWaiting with
  | some n => applyStep s n
  | none => s

/-- A source's own copy of a word, such as a capture register. -/
def ownWord (s : State) (src : Source) (a : Nat) : Nat := (sget (fun _ => 0) s.access.own (sourceKey src a)).toNat

/-- Set a source's own copy of a word. -/
def setOwn (s : State) (src : Source) (a v : Nat) : State :=
  { s with access := { s.access with own := sset (fun _ => 0) s.access.own (sourceKey src a) (BitVec.ofNat 32 v) } }

/-- Device time is copied into the capture registers of a source (R238). -/
def capture (s : State) (src : Source) : State :=
  let d := stepped s
  let sec := devNs d / 1000000000
  let s' := setOwn (setOwn s src 0x4068 sec) src 0x406C (sec / 2 ^ 32)
  setOwn (setOwn s' src 0x4070 (devSub d)) src 0x4074 (d.clock.dev % 2 ^ 40 / 2 ^ 8)

/-! ### Time-event pins -/

/-- The address of pin `n`'s registers. -/
def tevBase (n : Nat) : Nat := 0x5040 + n * 0x20

/-- TEV_CONFIG.MODE: 0 off, 1 capture, 2 single, 3 periodic, 4 cycle. -/
def tevMode (s : State) (n : Nat) : Nat := fld s (tevBase n) 31 29

/-- The period of pin `n` in ns. -/
def tevPeriod (s : State) (n : Nat) : Nat := max 2 (fld s (tevBase n + 0x10) 31 3) * 8

/-- The first point at or after `t` of a grid from `start` in steps of `period`. -/
def gridFrom (start period t : Nat) : Nat := if t ≤ start then start else start + ceilDiv (t - start) period * period

/-- ARM: the schedule is taken from the registers (R253). -/
def armPin (s : State) (n : Nat) : State :=
  let b := tevBase n
  let mode := tevMode s n
  let start := (rd s (b + 8) + fld s (b + 0xC) 15 0 * 2 ^ 32) * 1000000000 + rd s (b + 4)
  let period := if mode = 4 then 125000 else tevPeriod s n
  let width := max 4 (if mode = 2 then rd s (b + 0x14) else min (period - 4) (rd s (b + 0x14)))
  let pin := { tevAt s n with armed := true, start, period, width, nextEdge := 0 }
  if mode = 2 then
    if start < devNs s + 1000 then raise (setTev s n { pin with armed := false }) .timeEvents (8 + n)
    else setTev s n { pin with nextEdge := start }
  else if mode = 3 then setTev s n { pin with nextEdge := gridFrom start period (devNs s + 1000) }
  else if mode = 4 then setTev s n pin
  else s

/-- The time page or the time-event page is in its fault-safe action: output edges hold their level (R35). -/
def tevFrozen (s : State) : Bool := flag s 0x5008 31 || flag s 0x4008 31

/-- WIDTH has passed since an edge: the pin returns to its inactive level, unless its page holds the level (R253, R35). -/
def tevEnd (s : State) (n : Nat) : State :=
  match (tevAt s n).activeUntil with
  | none => s
  | some t =>
    if now s < t ∨ tevFrozen s then s
    else emit (setTev s n { tevAt s n with activeUntil := none }) (.pin "TEV" n (flag s (tevBase n) 26))

/-- An output schedule meets a step to device time d₁, before the tick's increment (R237, R254): a periodic output's next edge is the
first point of its grid after d₁, and a single edge earlier than d₁ is skipped. -/
def tevStep (s : State) (n : Nat) : State :=
  let p := tevAt s n
  if !p.armed then s
  else if tevMode s n = 3 then setTev s n { p with nextEdge := gridFrom p.start p.period (devNs s + 1) }
  else if tevMode s n = 2 ∧ p.nextEdge * 2 ^ 40 < s.clock.dev then
    raise (setTev s n { p with armed := false, nextEdge := 0 }) .timeEvents (8 + n)
  else s

/-- A selected edge on a capture pin is stamped, or counted when the FIFO is full (R252). -/
def tevEdge (s : State) (n : Nat) (falling : Bool) : State :=
  let p := tevAt s n
  let edge := fld s (tevBase n) 28 27
  if tevMode s n ≠ 1 ∨ (edge = 0 ∧ falling) ∨ (edge = 1 ∧ !falling) then s
  else if 16 ≤ p.fifo.length then tally s (0x5140 + n * 4)
  else
    let s := setTev s n { p with fifo := p.fifo ++ [(devSec s, devSub s, falling)] }
    raise (setFld s (tevBase n) 4 0 (p.fifo.length + 1)) .timeEvents n

/-- A read of TEV_CAP_NS removes the oldest stamp and latches its seconds for the source (R252). -/
def tevPop (s : State) (src : Source) (n : Nat) : Nat × State :=
  let p := tevAt s n
  match p.fifo with
  | [] => (0, s)
  | (sec, ns, falling) :: rest =>
    let s := setTev s n { p with fifo := rest }
    let s := setFld s (tevBase n) 4 0 rest.length
    (2 ^ 31 + bit falling * 2 ^ 30 + ns, setOwn s src (tevBase n + 0x1C) sec)

/-- An output edge of pin `n`: its active level is driven from now for WIDTH (log 35). A page in its fault-safe action holds the level
(R35). -/
def tevOutput (s : State) (n : Nat) : State :=
  let p := tevAt s n
  let mode := tevMode s n
  if !p.armed ∨ mode < 2 ∨ 4 < mode ∨ p.nextEdge = 0 ∨ devNs s < p.nextEdge ∨ tevFrozen s then s
  else
    let p' := { p with activeUntil := some (now s + p.width), armed := mode ≠ 2,
                       nextEdge := if mode = 3 then p.nextEdge + p.period else 0 }
    emit (setTev s n p') (.pin "TEV" n !flag s (tevBase n) 26)

/-! ### The commands -/

/-- TIME_CAPTURE: TIME_CONTROL.CAPTURE (R238). -/
def execTimeCapture (src : Source) (s : State) : Res := done (guarded s src 0x4040 fun s => capture s src)

/-- TIME_SLEW: TIME_CONTROL.SLEW starts or restarts a slew (R235). -/
def execTimeSlew (src : Source) (s : State) : Res := done (guarded s src 0x4040 startSlew)

/-- TIME_CONTROL.SLEW_ABORT: the running slew ends at the next tick, before a slew that starts there (R235, R237). -/
def abortSlew (s : State) : State := { s with clock := { s.clock with slewEnds := true } }

/-- SLEW_ABORT: TIME_CONTROL.SLEW_ABORT (R235). -/
def execSlewAbort (src : Source) (s : State) : Res :=
  done (guarded s src 0x4040 abortSlew)

/-- SLEW_DONE: the tick count of the running slew has run out (R235). -/
def execSlewDone (s : State) : Res :=
  done (if flag s 0x4078 30 ∧ s.clock.slewLeft = 0 then endSlew s else s)

/-- TEV_EDGE_CAPTURE: an edge at a pin (R252). -/
def execTevEdgeCapture (pin : Fin 8) (falling : Bool) (s : State) : Res := done (tevEdge s pin falling)

/-- TEV_CAP_READ: a read of TEV_CAP_NS_n (R252). -/
def execTevCapRead (src : Source) (pin : Fin 8) (s : State) : Res :=
  let a := tevBase pin + 0x18
  let s := dropWindow s src
  if !mayRead s src a then done (emit (accessFault s src a 5) (.value src a 0))
  else
    let r := tevPop s src pin
    done (emit r.2 (.value src a r.1))

/-- TEV_ARM: TEV_CONFIG.ARM (R253). -/
def execTevArm (src : Source) (pin : Fin 8) (s : State) : Res :=
  done (guarded s src (tevBase pin) fun s => armPin s pin)

/-- TEV_OUTPUT_EDGE: a scheduled edge time is reached (R253). -/
def execTevOutputEdge (pin : Fin 8) (s : State) : Res := done (tevOutput s pin)

/-- PLL_UNLOCK: the time PLL loses its reference (R416). -/
def execPllUnlock (s : State) : Res :=
  done (if pagePowered s .time then report (raise (setFlag s 0x4078 31 false) .time 3) 0x0705 .time [] else s)

/-- PLL_LOCK: the time PLL regains lock, and timestamps are valid again. -/
def execPllLock (s : State) : Res := done (if pagePowered s .time then setFlag s 0x4078 31 true else s)

end Sys2Proof.Machine
end

