-- ==== Sys2Proof/Machine/Gates.lean ====
section
/-! DEFINITION. Gate lists of ports and streams (R217 to R227, R125): the states a list gives at an instant, when a gate
next closes, the longest open span, the configuration change, and the gate commands of ports and streams. -/

namespace Sys2Proof.Machine

/-! ### What a list says at an instant -/

/-- An interval as it acts: 0 to 31 act as 32 (R217). -/
def clampInterval (n : Nat) : Nat := max 32 n

/-- The entries of one cycle as (offset, states): entries that begin at or beyond the cycle's end do not run (R218). -/
def gateOffsets (cycle : Nat) : Nat → List (Nat × Nat) → List (Nat × Nat)
  | _, [] => []
  | off, (states, interval) :: l => if off < cycle then (off, states) :: gateOffsets cycle (off + clampInterval interval) l else []

/-- The entry in force at `pos` within a cycle: its number and states. -/
def gateEntryAt (pos : Nat) : Nat → List (Nat × Nat) → Nat × Nat → Nat × Nat
  | _, [], acc => acc
  | k, (off, states) :: l, acc => if off ≤ pos then gateEntryAt pos (k + 1) l (k, states) else acc

/-- The number and states of the entry in force at device time `t`; before the base time `admin` holds (R218). -/
def listAt (L : GateList) (admin t : Nat) : Nat × Nat :=
  if t < L.base then (0, admin)
  else gateEntryAt ((t - L.base) % L.cycle) 0 (gateOffsets L.cycle 0 L.entries) (0, admin)

/-- The start of the old cycle that a pending change at `C`, accepted at `ta`, extends to `C`, if it extends one (R221). -/
def extendedFrom (L : GateList) (C ta : Nat) : Option Nat :=
  if C < L.base then none
  else
    let s := L.base + (C - L.base) / L.cycle * L.cycle
    if 0 < C - s ∧ C - s < L.ext ∧ ta < s ∧ s ≠ L.base then some s else none

/-- What runs at `t` before a change at `C`, accepted at `ta`, that replaces `oper` (R218, R221). -/
def beforeChange (oper : Option GateList) (C ta admin t : Nat) : Nat × Nat :=
  match oper with
  | none => (0, admin)
  | some L =>
    match extendedFrom L C ta with
    | some s => if s ≤ t then listAt L admin (s - 1) else listAt L admin t
    | none => listAt L admin t

/-- The number and states of the entry that a gate runs at device time `t` (R218, R219, R221): a pending list from its change time
on, and for an instant before the last change what ran then. -/
def gateNow (g : GateRt) (admin t : Nat) : Nat × Nat :=
  let here := match g.pending with
    | some (N, C, ta) => if C ≤ t then listAt N admin t else beforeChange g.oper C ta admin t
    | none => match g.oper with
      | none => (0, admin)
      | some L => listAt L admin t
  match g.former with
  | some (old, C, ta) => if t < C then beforeChange old C ta admin t else here
  | none => here

/-- The boundaries of a list after `t` as (instant, states), over the cycle in progress and the next two. -/
def boundaries (L : GateList) (t : Nat) : List (Nat × Nat) :=
  let k := if t < L.base then 0 else (t - L.base) / L.cycle
  let offs := gateOffsets L.cycle 0 L.entries
  ([k, k + 1, k + 2].flatMap fun j => offs.map fun e => (L.base + j * L.cycle + e.1, e.2)).filter fun e => t < e.1

/-- The boundaries after `t` of what a gate is to run: the oper list until a pending change ends or extends it, then the pending list
(R221, R224). -/
def timeline (g : GateRt) (t : Nat) : List (Nat × Nat) :=
  let old := match g.oper with | none => [] | some L => boundaries L t
  match g.pending with
  | none => old
  | some (N, C, ta) =>
    let stop := match g.oper with
      | none => C
      | some L => (extendedFrom L C ta).getD C
    old.filter (fun e => e.1 < stop) ++ boundaries N t

/-- The first instant after `t` at which class `c` is set closed by the oper list or by a pending change; none when
nothing closes it (R224). -/
def nextClose (g : GateRt) (c t : Nat) : Option Nat := ((timeline g t).find? fun e => !bitAt e.2 c).map (·.1)

/-- The longest run of open spans in a list of (open, length), given the run under way and the best so far. -/
def longestRun : Nat → Nat → List (Bool × Nat) → Nat
  | run, best, [] => max run best
  | run, best, (true, n) :: l => longestRun (run + n) (max best (run + n)) l
  | run, best, (false, _) :: l => longestRun 0 (max run best) l

/-- The longest span in which class `c` stays open in one cycle, a wrapping span included; none when it never closes
(R225). -/
def longestOpen (L : GateList) (c : Nat) : Option Nat :=
  let offs := gateOffsets L.cycle 0 L.entries
  let ends := (offs.map (·.1)).drop 1 ++ [L.cycle]
  let spans := (offs.zip ends).map fun e => (bitAt e.1.2 c, e.2 - e.1.1)
  if spans.all (·.1) then none else some (longestRun 0 0 (spans ++ spans))

/-! ### Port gates -/

/-- The address of offset `off` of port page `k` of front port `p`. -/
def portReg (p k off : Nat) : Nat := 0x200000 + p * 0x4000 + k * 0x1000 + off

/-- GATE_CONFIG.ENABLE of a front port. -/
def gateEnabled (s : State) (p : Nat) : Bool := p < 64 && flag s (portReg p 1 0x80) 31

/-- The entry number and gate states of front port `p` at device time `t`; with ENABLE = 0 every gate is open (R219). -/
def portGates (s : State) (p t : Nat) : Nat × Nat :=
  if gateEnabled s p then gateNow (portAt s p).gate (fld s (portReg p 1 0x80) 7 0) t else (0, 0xFF)

/-- Gate `c` of port `p` is open at `t`. -/
def gateOpen (s : State) (p c t : Nat) : Bool := bitAt (portGates s p t).2 c

/-- Gate `c` of port `p` is open at `t` and stays open at least until `u` (R224). -/
def gateOpenUntil (s : State) (p c t u : Nat) : Bool :=
  gateOpen s p c t &&
  (!gateEnabled s p || match nextClose (portAt s p).gate c t with | none => true | some b => u ≤ b)

/-- The frame with duration `D` is longer than every open span of its class, in a list that opens it at all (R225). -/
def gateTooLong (s : State) (p c D : Nat) : Bool :=
  gateEnabled s p && match (portAt s p).gate.oper with
  | none => false
  | some L => match longestOpen L c with
    | none => false
    | some m => 0 < m && m < D

/-- Cycle time in its range (R218). -/
def clampCycle (n : Nat) : Nat := max 1000 (min 4000000000 n)

/-- The change time of a list accepted at `ta`, and the cycles it was rolled forward (R220). -/
def changeTime (base cycle ta : Nat) : Nat × Nat :=
  if ta + 10000 ≤ base then (base, 0)
  else
    let n := ceilDiv (ta + 10000 - base) cycle
    (base + n * cycle, n)

/-- GATE_STATUS follows the gate engine of the port. -/
def showGate (s : State) (p : Nat) : State :=
  let g := (portAt s p).gate
  let e := portGates s p (devNs s)
  wr s (portReg p 1 0x9C)
    (bit g.pending.isSome * 2 ^ 31 + bit g.oper.isSome * 2 ^ 30 + bits e.1 9 0 * 2 ^ 16 + bits e.2 7 0)

/-- A time of device time written as NS, SEC_LO and SEC_HI from address `a` on. -/
def wrTime (s : State) (a t : Nat) : State :=
  let sec := t / 1000000000
  wr (wr (wr s a (t % 1000000000)) (a + 4) (sec % 2 ^ 32)) (a + 8) (sec / 2 ^ 32 % 2 ^ 16)

/-- The administrative list of front port `p` as its registers and table 0x13 hold it. -/
def adminList (s : State) (p : Nat) : GateList :=
  let n := max 1 (min 1024 (fld s (portReg p 1 0x80) 26 16))
  let sec := rd s (portReg p 1 0x88) + fld s (portReg p 1 0x8C) 15 0 * 2 ^ 32
  { base := sec * 1000000000 + min 999999999 (rd s (portReg p 1 0x84)),
    cycle := clampCycle (rd s (portReg p 1 0x90)),
    ext := rd s (portReg p 1 0x94),
    entries := (List.range n).map fun i =>
      let e := tabN s 0x13 (1024 * p + i)
      (bits e 39 32, bits e 31 0) }

/-- At the change time the pending list of a port becomes oper (R221). -/
def switchGate (s : State) (p : Nat) : State :=
  let v := portAt s p
  match v.gate.pending with
  | none => s
  | some (L, C, ta) =>
    let s := setPort s p { v with gate := { pending := none, oper := some L, former := some (v.gate.oper, C, ta) } }
    let s := wrTime s (portReg p 1 0xAC) L.base
    let s := wr (wr s (portReg p 1 0xB8) L.cycle) (portReg p 1 0xBC) L.ext
    let s := wr s (portReg p 1 0xC0) L.entries.length
    raise (showGate s p) (.port p 1) 0

/-- The pending change of a port is due. -/
def gateDue (s : State) (p : Nat) : Bool :=
  match (portAt s p).gate.pending with
  | some (_, C, _) => C ≤ devNs s
  | none => false

/-- A configuration change of a port gate is accepted (R220). A pending change that is due comes first, and its list is then the old
one (R222). -/
def acceptGate (s : State) (p : Nat) : State :=
  let s := if gateDue s p then switchGate s p else s
  let L := adminList s p
  let ta := devNs s
  let c := changeTime L.base L.cycle ta
  let v := portAt s p
  let s := setPort s p { v with gate := { v.gate with pending := some ({ L with base := c.1 }, c.1, ta) } }
  let s := wrTime s (portReg p 1 0xA0) c.1
  let s := if c.2 = 0 then s
    else raise (tally (wr s (portReg p 1 0xC4) (c.2 % 2 ^ 32)) (portReg p 2 0xE0)) (.port p 1) 1
  showGate s p

/-- The lists of a port are dropped (R219). -/
def dropGates (s : State) (p : Nat) : State :=
  showGate (setPort s p { portAt s p with gate := {} }) p

/-! ### Stream gates (R125) -/

/-- The administrative list of stream gate `g`. -/
def streamList (s : State) (g : Nat) : GateList :=
  let e := tabN s 0x0F g
  { base := bits e 225 178 * 1000000000 + min 999999999 (bits e 177 146),
    cycle := clampCycle (bits e 145 114), ext := bits e 113 82,
    entries := (List.range (max 1 (min 1024 (bits e 236 226)))).map fun i =>
      let x := tabN s 0x10 ((bits e 250 237 + i) % 16384)
      (bit (bitAt x 63), bits x 31 0) }

/-- At the change time the pending list of a stream gate becomes oper, and CONFIG_CHANGE clears. -/
def switchStream (s : State) (g : Nat) : State :=
  match (gateAt s g).pending with
  | none => s
  | some (L, C, ta) =>
    let s := setGate s g { pending := none, oper := some L, former := some ((gateAt s g).oper, C, ta) }
    setTab s 0x0F g (BitVec.ofNat 512 (putBits (tabN s 0x0F g) 251 251 0))

/-- The pending change of a stream gate is due. -/
def streamDue (s : State) (g : Nat) : Bool :=
  match (gateAt s g).pending with
  | some (_, C, _) => C ≤ devNs s
  | none => false

/-- CONFIG_CHANGE of a stream gate: its list is taken as pending, after a change that is due (R222). -/
def acceptStream (s : State) (g : Nat) : State :=
  let s := if streamDue s g then switchStream s g else s
  let L := streamList s g
  let C := (changeTime L.base L.cycle (devNs s)).1
  setGate s g { gateAt s g with pending := some ({ L with base := C }, C, devNs s) }

/-- Stream gate `g` is open at device time `t`: a gate not in use reads as open, one with CLOSED_INVALID_RX set stays closed
(R124, R125). -/
def streamOpen (s : State) (g t : Nat) : Bool :=
  let e := tabN s 0x0F g
  !bitAt e 255 || (!bitAt e 252 && bitAt (gateNow (gateAt s g) (bit (bitAt e 254)) t).2 0)

/-- A transmission under the lists of a gate that a step has moved: its gate closes where they now say. -/
def closeAgain (g : GateRt) (t : Nat) (x : Tx) : Tx := { x with closeAt := nextClose g (x.copy.queue % 8) t }

/-- A port gate after a step: a pending change carried into the past applies, and the lists alone say what is in force (R223). -/
def gateStep (s : State) (p : Nat) : State :=
  let s := if gateDue s p then switchGate s p else s
  let v := portAt s p
  let g := { v.gate with former := none }
  showGate (setPort s p { v with
    gate := g
    txExpress := v.txExpress.map (closeAgain g (devNs s))
    txPreempt := v.txPreempt.map (closeAgain g (devNs s)) }) p

/-- A stream gate after a step. -/
def streamStep (s : State) (g : Nat) : State :=
  let s := if streamDue s g then switchStream s g else s
  setGate s g { gateAt s g with former := none }

/-- Every pending change that a step has carried into the past applies at the step, without extension (R223). -/
def gatesStep (s : State) : State :=
  let s := (List.range 64).foldl gateStep s
  (s.streamGates.map (·.1)).foldl streamStep s

/-! ### The commands -/

/-- GATE_CONFIG_CHANGE: a write of 1 to CONFIG_CHANGE; not accepted while ENABLE is 0 (R220). -/
def execGateConfigChange (src : Source) (port : Fin 64) (s : State) : Res :=
  done (guarded s src (portReg port 1 0x80) fun s => if gateEnabled s port then acceptGate s port else s)

/-- GATE_CHANGE_TIME: device time reaches the change time (R221). -/
def execGateChangeTime (port : Fin 64) (s : State) : Res := done (if gateDue s port then switchGate s port else s)

/-- GATE_DISABLE: a write of 0 to GATE_CONFIG.ENABLE (R219, R222). -/
def execGateDisable (src : Source) (port : Fin 64) (s : State) : Res :=
  done (guarded s src (portReg port 1 0x80) fun s => dropGates (setFlag s (portReg port 1 0x80) 31 false) port)

/-- STREAM_GATE_CHANGE: a stream gate's change time, or the end of an entry's interval, which the schedule itself gives. -/
def execStreamGateChange (gate : Fin 1024) (s : State) : Res :=
  done (if streamDue s gate then switchStream s gate else s)

end Sys2Proof.Machine
end

