-- ==== Sys2Proof/Machine/PortBase.lean ====
section
/-! DEFINITION. What the rest of the device asks of a port: its state and rate in force (R45, R58), paused classes (R53),
whether it may start a frame, the shared capacity that ports leave (R134), and limits by colour (R137). -/

namespace Sys2Proof.Machine

/-- The lane rate in Gb/s of a RATE code. -/
def laneGbps (code : Nat) : Nat := [10, 25, 50, 100, 200].getD code 0

/-- The width that PORT_CONFIG.WIDTH names. -/
def widthOf (code : Nat) : Nat := [1, 2, 4, 8].getD code 1

/-- A width and a RATE code that are a row of the table of supported port modes (R45). -/
def modeSupported (width rate : Nat) : Bool :=
  match width with
  | 1 => rate ≤ 4 | 2 => 2 ≤ rate && rate ≤ 4 | 4 => 1 ≤ rate && rate ≤ 4 | 8 => 2 ≤ rate && rate ≤ 4
  | _ => false

/-- PORT_STATUS.FEC of a mode: 0 none, 1 RS(528,514), 2 RS(544,514) (R45). -/
def modeFec (rate : Nat) : Nat := if rate = 0 then 0 else if rate = 1 then 1 else 2

/-- The port rate in force in Gb/s. -/
def portGbps (s : State) (p : Nat) : Nat := (portAt s p).width * laneGbps (fld s (portReg p 0 0x4C) 23 21)

/-- The port is UP. -/
def portUp (s : State) (p : Nat) : Bool := portState s p == 2

/-- The time in ns that `bytes` take on the wire of the port, rounded up. -/
def wireNs (s : State) (p bytes : Nat) : Nat := ceilDiv (bytes * 8) (max 1 (portGbps s p))

/-- The slice of a lane or front port. -/
def sliceOf (p : Nat) : Nat := p / 8

/-- FC_CONFIG.MODE: 0 off, 1 PAUSE, 2 PFC; 3 acts as off. -/
def fcMode (s : State) (p : Nat) : Nat := if fld s (portReg p 1 0x40) 31 30 = 3 then 0 else fld s (portReg p 1 0x40) 31 30

/-- The classes that a running timer of priority `k` pauses: every class in PAUSE mode, byte `k` of FC_CLASS_MAP in PFC
mode (R53). -/
def pauseCovers (s : State) (p k : Nat) : Nat :=
  match fcMode s p with
  | 1 => if k = 0 then 0xFF else 0
  | 2 => bits (rdPair s (portReg p 1 0x44)) (8 * k + 7) (8 * k)
  | _ => 0

/-- The classes of a port now paused by its partner (R53). DESIGN CHOICE (log 33): a timer that runs goes on when HONOUR or HONOUR_MASK is
cleared, which govern the frames received, and only MODE says what it covers. -/
def pausedClasses (s : State) (p : Nat) : Nat :=
  (List.range 8).foldl (fun m k => if now s < nth (portAt s p).pauseEnd k then m ||| pauseCovers s p k else m) 0

/-- FC_STATUS.RX_PAUSED follows the pause timers. -/
def showPause (s : State) (p : Nat) : State := setFld s (portReg p 1 0x5C) 7 0 (pausedClasses s p)

/-- Front egress is enabled and not forced quiet: no transmitter starts a frame otherwise (R145, R260, R288, R302). -/
def egressOpen (s : State) : Bool := flag s 0x604C 25 && !flag s 0x2040 30 && !s.power.hold

/-- A transmission is on the wire now. -/
def onWire (t : Option Tx) : Option Tx := t.filter fun x => !x.suspended

/-- A frame or a fragment is on the wire of the port. -/
def wireBusy (s : State) (p : Nat) : Bool := (onWire (portAt s p).txExpress).isSome || (onWire (portAt s p).txPreempt).isSome

/-- Headroom of a front port in leaves: 80, and its PFC leaves (R134). -/
def headroomOf (s : State) (p : Nat) : Nat := 80 + fld s (0x401044 + p * 8) 11 0

/-- S: the shared capacity (R134). -/
def sharedCapacity (s : State) : Nat :=
  (List.range 64).foldl (fun n p => if portState s p = 0 then n else n - headroomOf s p) 393216

/-- F of R137: the shared leaves that are free. -/
def sharedFree (s : State) : Nat := sharedCapacity s - s.buffer.sharedUsed

/-- A limit register with MAX, YELLOW and RED: its limit for a colour (R137). -/
def colourLimit (w colour : Nat) : Nat :=
  let eighths := fun (n : Nat) => if n = 0 then 8 else n
  let m := bits w 18 0
  match colour with
  | 0 => m | 1 => m * eighths (bits w 31 29) / 8 | _ => m * eighths (bits w 28 26) / 8

/-- The global limit for a colour: BUF_GLOBAL_c, at most S (R136). -/
def globalLimit (s : State) (colour : Nat) : Nat :=
  min (bits (rd s (0x400040 + min colour 2 * 4)) 18 0) (sharedCapacity s)

/-- The queue limit of queue profile `n` for a colour: MIN, MAX and alpha times the free leaves (R137). -/
def queueLimit (s : State) (n colour : Nat) : Nat :=
  let b := 0x403200 + n * 0x10
  let a := rd s b
  let k := match colour with | 0 => bits a 11 8 | 1 => bits a 7 4 | _ => bits a 3 0
  let share := if k = 0 then 0 else sharedFree s * 2 ^ k / 2 ^ 7
  max (fld s (b + 4) 18 0) (min (fld s (b + 8) 18 0) share)

end Sys2Proof.Machine
end

