-- ==== Sys2Proof/Machine/Sched.lean ====
section
/-! DEFINITION. The scheduling tree (R195 to R203), shapers (R206 to R211, R215), the debits of a selection (R204), the
nodes in transit (R213, R214) and the queries of scheduler page 0. Nodes are numbered as the table of R216 indexes them:
queue q, subscriber node 131,072 + n, group node 147,456 + g, port node 148,480 + p. -/

namespace Sys2Proof.Machine

def subIdx (n : Nat) : Nat := 131072 + n
def groupIdx (g : Nat) : Nat := 147456 + g
def portIdx (p : Nat) : Nat := 148480 + p

/-- The tier of a table index: 0 queue, 1 subscriber node, 2 group node, 3 port node. -/
def tierOf (i : Nat) : Nat := if i < 131072 then 0 else if i < 147456 then 1 else if i < 148480 then 2 else 3

/-- The entry under which a queue or node is scheduled: its applied entry, or its old one while in transit (R214). -/
def schedEntry (s : State) (i : Nat) : Nat :=
  if i ∈ s.sched.transit then (sget (fun _ => 0) s.sched.inForce i).toNat else tabCur s 0x11 i

/-- The entry whose shaper fields are in use (R215). -/
def shaperEntry (s : State) (i : Nat) : Nat := (sget (fun k => BitVec.ofNat 512 (schedReset k)) s.sched.shaping i).toNat

/-! ### Fields of the entries (R216) -/

def subParent (e : Nat) : Nat := bits e 126 117
def groupParent (e : Nat) : Nat := bits e 126 120
def nodeValid (e : Nat) : Bool := bitAt e 127

/-- PRIORITY of an entry at its parent. -/
def entryPriority (i e : Nat) : Nat :=
  match tierOf i with | 0 => bits e 121 119 | 1 => bits e 116 114 | _ => bits e 119 117

/-- WEIGHT of an entry at its parent; 0 acts as 1 (R201). -/
def entryWeight (i e : Nat) : Nat :=
  max 1 (match tierOf i with | 0 => bits e 118 107 | 1 => bits e 113 102 | _ => bits e 116 105)

/-- STRICT of a node entry; above 8 acts as 8 (R201, R216). -/
def entryStrict (i e : Nat) : Nat :=
  min 8 (match tierOf i with | 1 => bits e 101 98 | 2 => bits e 104 101 | _ => bits e 113 110)

/-- The quantum of a child in bytes (R201). -/
def quantumOf (i e : Nat) : Nat := entryWeight i e * 64

/-- A burst field: MANT × 2^EXP bytes, at most 16 MiB, in units of 2^-20 byte (R208). -/
def burstUnits (f : Nat) : Int := min 16777216 (bits f 12 5 * 2 ^ bits f 4 0) * 2 ^ 20

/-- Bucket A of an entry is enabled: SHAPE, or CIR_EN of a subscriber node (R206). -/
def bucketAOn (i e : Nat) : Bool :=
  match tierOf i with
  | 0 => bitAt e 106 | 1 => bitAt e 91 | 2 => bitAt e 100 | _ => bitAt e 109

/-- Bucket B of a subscriber node entry is enabled: PIR_EN. -/
def bucketBOn (i e : Nat) : Bool := tierOf i == 1 && bitAt e 90

/-- The rate of bucket A in kb/s, as written. -/
def rateA (i e : Nat) : Nat :=
  match tierOf i with | 0 => bits e 105 75 | 1 => bits e 89 59 | 2 => bits e 99 69 | _ => bits e 108 78

/-- The rate of bucket B in kb/s: PIR, or CIR where PIR is below it (R208). -/
def rateB (e : Nat) : Nat := max (bits e 58 28) (bits e 89 59)

def burstA (i e : Nat) : Int :=
  burstUnits (match tierOf i with | 0 => bits e 74 62 | 1 => bits e 27 15 | 2 => bits e 68 56 | _ => bits e 77 65)

def burstB (e : Nat) : Int := burstUnits (bits e 14 2)

/-- OVERHEAD of a port node's entry, signed bytes (R205). -/
def entryOverhead (e : Nat) : Int := signed (bits e 64 58) 7

/-! ### Places in the tree -/

/-- The port node that a subscriber node is scheduled under, if any. -/
def subPort (s : State) (n : Nat) : Option Nat :=
  let e := schedEntry s (subIdx n)
  let g := schedEntry s (groupIdx (subParent e))
  if nodeValid e ∧ nodeValid g ∧ groupParent g ≤ 64 then some (groupParent g) else none

/-- The port node that a queue is scheduled under. -/
def queuePort (s : State) (q : Nat) : Option Nat := subPort s (q / 8)

/-- Subscriber node `n` is attached under port node `p` in one copy of the table (R196). -/
def attachedIn (s : State) (get : Nat → Nat) (n p : Nat) : Bool :=
  let e := get (subIdx n)
  let g := subParent e
  nodeValid e && subIdx n ∉ s.sched.transit && nodeValid (get (groupIdx g)) && groupIdx g ∉ s.sched.transit &&
    groupParent (get (groupIdx g)) == p

/-- Attached for a frame of epoch `e`: in the frame's epoch and in the current one (R196). -/
def attached (s : State) (e n p : Nat) : Bool :=
  attachedIn s (tabEpoch s e 0x11) n p && attachedIn s (tabCur s 0x11) n p

/-- The queue of a copy for port `p` of class `c`: under NODE, else under the port's default node, else none (R70, R197). -/
def queueFor (s : State) (e p : Nat) (node : Option Nat) (c : Nat) : Option Nat :=
  let under := match node with | some n => attached s e n p | none => false
  if under then node.map fun n => 8 * n + c
  else
    let d := bits (tabEpoch s e 0x11 (portIdx p)) 127 114
    if attached s e d p then some (8 * d + c) else none

/-- The queue holds a frame: on chip, in a batch, a sheet or the collator, or a cut-through copy not yet gone. -/
def queueBusy (v : Queue) : Bool :=
  !v.head.isEmpty || !v.tail.isEmpty || v.cutHeld ≠ 0 ||
  match v.spill with
  | none => false
  | some c => !c.index.isEmpty || c.waiting.isSome

/-- The queues that hold frames. -/
def busyQueues (s : State) : List Nat := (s.queues.filter fun e => queueBusy e.2).map (·.1)

/-- The subtree of a table index holds a frame. -/
def subtreeBusy (s : State) (i : Nat) : Bool :=
  match tierOf i with
  | 0 => queueBusy (queueAt s i)
  | 1 => (busyQueues s).any fun q => subIdx (q / 8) == i
  | 2 => (busyQueues s).any fun q => groupIdx (subParent (schedEntry s (subIdx (q / 8)))) == i
  | _ => (busyQueues s).any fun q => queuePort s q == some (i - portIdx 0)

/-- The queues for which copies are admitted and not yet linked. -/
def unlinkedQueues (s : State) : List Nat :=
  s.frames.flatMap fun e => (e.2.copies.filter fun c => c.port != 127).map fun c => c.queue

/-- The subtree of a node holds a frame, or a copy was admitted for one of its queues and is not yet linked (R214: such a copy
leaves by the port that admitted it). -/
def subtreeHeld (s : State) (i : Nat) : Bool :=
  subtreeBusy s i || (unlinkedQueues s).any fun q =>
    match tierOf i with
    | 1 => subIdx (q / 8) == i
    | 2 => groupIdx (subParent (schedEntry s (subIdx (q / 8)))) == i
    | _ => false

/-- A child's deficit is 0 while its subtree holds no frame (R202): settled for the path of a queue. -/
def settleDeficits (s : State) (q : Nat) : State :=
  let n := subIdx (q / 8)
  let g := groupIdx (subParent (schedEntry s n))
  [q, n, g].foldl (fun s i =>
    if subtreeBusy s i then s
    else { s with sched := { s.sched with deficit := sset (fun _ => 0) s.sched.deficit i 0 } }) s

/-- Every deficit whose child's subtree holds no frame is 0, as when a backlog has moved (R202, R213). -/
def settleAll (s : State) : State :=
  (s.sched.deficit.map (·.1)).foldl (fun s i =>
    if subtreeBusy s i then s
    else { s with sched := { s.sched with deficit := sset (fun _ => 0) s.sched.deficit i 0 } }) s

/-! ### Shapers -/

def bucketA (s : State) (i : Nat) : Int := sget (fun _ => 0) s.sched.bucketA i
def bucketB (s : State) (i : Nat) : Int := sget (fun _ => 0) s.sched.bucketB i
def setBucketA (s : State) (i : Nat) (v : Int) : State :=
  { s with sched := { s.sched with bucketA := sset (fun _ => 0) s.sched.bucketA i v } }
def setBucketB (s : State) (i : Nat) (v : Int) : State :=
  { s with sched := { s.sched with bucketB := sset (fun _ => 0) s.sched.bucketB i v } }

/-- Bucket A of a table index permits: disabled, or not negative (R206). -/
def permitsA (s : State) (i : Nat) : Bool := !bucketAOn i (shaperEntry s i) || 0 ≤ bucketA s i
def permitsB (s : State) (i : Nat) : Bool := !bucketBOn i (shaperEntry s i) || 0 ≤ bucketB s i

/-- Every enabled bucket on a queue's path permits (R212). -/
def pathPermits (s : State) (q p : Nat) : Bool :=
  let n := subIdx (q / 8)
  let g := groupIdx (subParent (schedEntry s n))
  permitsA s q && permitsA s n && permitsB s n && permitsA s g && permitsA s (portIdx p)

/-- The tiers' refill intervals in ns (R208). -/
def tierInterval (t : Nat) : Nat := [8000, 4000, 1000, 256].getD t 256

/-- A rate as it acts in its tier: 0 stops, others lie in the tier's range (R208). A port node's highest rate is the
port's rate in force, 100 Gb/s for the host port (R341). -/
def clampRate (s : State) (i r : Nat) : Nat :=
  if r = 0 then 0
  else match tierOf i with
    | 0 => max 64 (min 200000000 r)
    | 1 => max 64 (min 100000000 r)
    | 2 => max 1000 (min 1600000000 r)
    | _ => max 64 (min ((if i = portIdx 64 then 100 else portGbps s (i - portIdx 0)) * 1000000) r)

/-- A bucket after a refill of one interval, capped at its burst (R207). -/
def refillUnits (rate interval : Nat) (burst v : Int) : Int := min burst (v + (rate * interval * 2 ^ 20 / 8000000 : Nat))

/-- The node of a table index becomes VALID (R211). -/
def becomesValid (i old new : Nat) : Bool := (tierOf i == 1 || tierOf i == 2) && !nodeValid old && nodeValid new

/-- One bucket at a refill instant: set full when its shaper has just become enabled or its node VALID, refilled and capped otherwise (R211,
R215). -/
def refillOne (wasOn isOn : Bool) (rate interval : Nat) (burst v : Int) : Int :=
  if !isOn then v else if !wasOn then burst else refillUnits rate interval burst v

/-- The entries of a tier that take effect at its refill instant: every entry in force whose image differs from reset. -/
def tierInForce (s : State) (t : Nat) : Sparse Image :=
  let base := 0x11 * 2 ^ 20
  let listed := (s.tabsCur.filter fun e => base ≤ e.1 && e.1 < base + 148545 && tierOf (e.1 - base) == t).map
    fun e => (e.1 - base, e.2)
  s.sched.transit.foldl (fun m i => if tierOf i = t then
    sset (fun k => BitVec.ofNat 512 (schedReset k)) m i (sget (fun _ => 0) s.sched.inForce i) else m) listed

/-- One refill instant of a tier (R207, R211, R215). -/
def refillTier (s : State) (t : Nat) : State :=
  let old := s.sched.shaping
  let new := smerge (fun k => BitVec.ofNat 512 (schedReset k)) (fun i => tierOf i == t) (tierInForce s t) old
  let keys := (new.filter fun e => tierOf e.1 == t).map (·.1)
  let s0 := s
  let s := { s with sched := { s.sched with shaping := new, refills := s.sched.refills.set t (nth s.sched.refills t + 1) } }
  keys.foldl (fun s i =>
    let e := shaperEntry s i
    let o := shaperEntry s0 i
    let I := tierInterval t
    let s := setBucketA s i
      (refillOne (bucketAOn i o && !becomesValid i o e) (bucketAOn i e) (clampRate s i (rateA i e)) I (burstA i e) (bucketA s i))
    if t = 1 then
      setBucketB s i (refillOne (bucketBOn i o && !becomesValid i o e) (bucketBOn i e) (clampRate s i (rateB e)) I (burstB e) (bucketB s i))
    else s) s

/-- The shaped length of a stored length at port `p` (R205). -/
def shapedLength (s : State) (p len : Nat) : Nat := ((len : Int) + entryOverhead (shaperEntry s (portIdx p))).toNat

/-- Take a shaped length from every enabled bucket on the path of a queue (R204). -/
def debitBuckets (s : State) (q p L : Nat) : State :=
  let n := subIdx (q / 8)
  let g := groupIdx (subParent (schedEntry s n))
  let s := [q, n, g, portIdx p].foldl (fun s i =>
    if bucketAOn i (shaperEntry s i) then setBucketA s i (bucketA s i - L * 2 ^ 20) else s) s
  if bucketBOn n (shaperEntry s n) then setBucketB s n (bucketB s n - L * 2 ^ 20) else s

/-! ### Choosing (R201 to R203) -/

/-- A child that takes part in a choice: its number at the parent, and its table index. -/
structure Child where
  num : Nat
  idx : Nat
  prio : Nat
  quantum : Nat
  deriving DecidableEq, Repr

/-- The first child in ascending number from `from_`, wrapping. -/
def firstFrom (from_ : Nat) (l : List Child) : Option Child :=
  match l.find? fun c => from_ ≤ c.num with
  | some c => some c
  | none => l.head?

def deficitOf (sc : Sched) (i : Nat) : Int := sget (fun _ => 0) sc.deficit i

/-- The least number of quanta after which some child's deficit is positive (R202). -/
def quantaNeeded (sc : Sched) : List Child → Nat
  | [] => 1
  | [c] => max 1 ((-deficitOf sc c.idx / (c.quantum : Int)).toNat + 1)
  | c :: l => min (max 1 ((-deficitOf sc c.idx / (c.quantum : Int)).toNat + 1)) (quantaNeeded sc l)

/-- The choice of node `node` with strict count `S` among its eligible children, in ascending number: the child, and the
scheduler's pointers and deficits after the choice. -/
def chooseChild (sc : Sched) (node S : Nat) (kids : List Child) : Option (Child × Sched) :=
  let strict := kids.filter fun c => c.prio < S
  match strict with
  | [] =>
    match kids with
    | [] => none
    | _ =>
      let sc := if kids.any fun c => 0 < deficitOf sc c.idx then sc
        else
          let k := quantaNeeded sc kids
          { sc with deficit := kids.foldl (fun m c =>
              sset (fun _ => 0) m c.idx (sget (fun _ => 0) m c.idx + k * c.quantum)) sc.deficit }
      match firstFrom (sget zeroNat sc.pointer node) (kids.filter fun c => 0 < deficitOf sc c.idx) with
      | none => none
      | some c => some (c, { sc with pointer := sset zeroNat sc.pointer node c.num })
  | _ =>
    let p := strict.foldl (fun m c => min m c.prio) 7
    let key := node * 8 + p
    match firstFrom (sget zeroNat sc.lastStrict key) (strict.filter fun c => c.prio = p) with
    | none => none
    | some c => some (c, { sc with lastStrict := sset zeroNat sc.lastStrict key (c.num + 1) })

/-- A weighted child's deficit and its parent's pointer after a frame of shaped length `L` (R202). -/
def debitChild (sc : Sched) (node S L : Nat) (c : Child) : Sched :=
  if c.prio < S then sc
  else
    let d := deficitOf sc c.idx - L
    { sc with deficit := sset (fun _ => 0) sc.deficit c.idx d,
              pointer := if d ≤ 0 then sset zeroNat sc.pointer node (c.num + 1) else sc.pointer }

/-- The state of a subscriber node at its group (R203): 2 committed, 1 excess, 0 not eligible. -/
def subState (s : State) (n : Nat) : Nat :=
  let i := subIdx n
  let e := shaperEntry s i
  if !permitsB s i then 0
  else if bucketAOn i e ∧ 0 ≤ bucketA s i then 2 else 1

def childOf (s : State) (num idx : Nat) : Child :=
  { num, idx, prio := entryPriority idx (schedEntry s idx), quantum := quantumOf idx (schedEntry s idx) }

/-- The frame a port node selects among the eligible queues of `qs` (ascending): the queue, and the scheduler's pointers,
deficits and quanta after the choices. Nothing is debited yet. -/
def pickQueue (s : State) (p : Nat) (qs : List Nat) : Option (Nat × Sched) :=
  let subs := (qs.map (· / 8)).eraseDups.filter fun n => subState s n ≠ 0
  let groupOf := fun n => subParent (schedEntry s (subIdx n))
  let groups := ((subs.map groupOf).mergeSort).eraseDups.filter fun g => permitsA s (groupIdx g)
  if !permitsA s (portIdx p) then none
  else
    match chooseChild s.sched (portIdx p) (entryStrict (portIdx p) (schedEntry s (portIdx p)))
        (groups.map fun g => childOf s g (groupIdx g)) with
    | none => none
    | some (cg, sc) =>
      let mine := subs.filter fun n => groupOf n == cg.num
      let committed := mine.filter fun n => subState s n == 2
      let pass := if committed.isEmpty then mine else committed
      match chooseChild sc cg.idx (entryStrict cg.idx (schedEntry s cg.idx)) (pass.map fun n => childOf s n (subIdx n)) with
      | none => none
      | some (cn, sc) =>
        match chooseChild sc cn.idx (entryStrict cn.idx (schedEntry s cn.idx))
            ((qs.filter fun q => q / 8 == cn.num).map fun q => childOf s (q % 8) q) with
        | none => none
        | some (cq, sc) => some (cq.idx, sc)

/-- The debits of a frame of shaped length `L` sent through queue `q` of port `p`: buckets, deficits and pointers (R204). -/
def debitPath (s : State) (q p L : Nat) : State :=
  let n := subIdx (q / 8)
  let g := groupIdx (subParent (schedEntry s n))
  let S := fun i => entryStrict i (schedEntry s i)
  let sc := debitChild s.sched n (S n) L (childOf s (q % 8) q)
  let sc := debitChild sc g (S g) L (childOf s (q / 8) n)
  let sc := debitChild sc (portIdx p) (S (portIdx p)) L (childOf s (g - groupIdx 0) g)
  debitBuckets { s with sched := sc } q p L

/-- The class of a queue is paused by the port's partner (R53). -/
def classPaused (s : State) (p c : Nat) : Bool := p < 64 && bitAt (pausedClasses s p) c

/-! ### Commits and transit (R213, R214) -/

/-- Where a subscriber or group node stands under an entry `e`: its port node, none while invalid. -/
def placeOf (s : State) (i e : Nat) : Option Nat :=
  if !nodeValid e then none
  else if tierOf i = 2 then some (groupParent e)
  else
    let g := schedEntry s (groupIdx (subParent e))
    if nodeValid g then some (groupParent g) else none

/-- SCHED_TRANSIT.NODES follows the list of nodes in transit. -/
def showTransit (s : State) : State := wr s 0x500054 s.sched.transit.length

/-- A node's transit ends: it takes its new entry. -/
def leaveTransit (s : State) (i : Nat) : State :=
  showTransit { s with sched := { s.sched with
    transit := s.sched.transit.filter (· != i), inForce := sset (fun _ => 0) s.sched.inForce i 0 } }

/-- A node enters transit under its old entry `e`. -/
def enterTransit (s : State) (i : Nat) (e : Nat) : State :=
  showTransit { s with sched := { s.sched with
    transit := i :: s.sched.transit, inForce := sset (fun _ => 0) s.sched.inForce i (BitVec.ofNat 512 e) } }

/-- One node at the acceptance of a commit, `old` being the state before it (R214). -/
def commitNode (old : State) (s : State) (i : Nat) : State :=
  let was := schedEntry old i
  let will := tabCur s 0x11 i
  let place := placeOf old i was
  if i ∈ s.sched.transit then
    if nodeValid will ∧ placeOf s i will = place then raise (leaveTransit s i) .sched 0 else s
  else if was ≠ will ∧ place.isSome ∧ placeOf s i will ≠ place ∧ subtreeHeld old i then enterTransit s i was
  else s

/-- The scheduler's part of an accepted commit: group nodes first, then the subscriber nodes under them; the nodes in transit are looked at
whatever entry the commit changes (R214). -/
def schedCommit (old s : State) : State :=
  let base := 0x11 * 2 ^ 20
  let keys := ((old.tabsCur ++ s.tabsCur).filter fun e => base ≤ e.1 && e.1 < base + 148545).map fun e => e.1 - base
  let keys := ((keys ++ old.sched.transit).mergeSort).eraseDups
  let s := (keys.filter fun i => tierOf i == 2).foldl (commitNode old) s
  settleAll ((keys.filter fun i => tierOf i == 1).foldl (commitNode old) s)

/-! ### The commands -/

/-- SHAPER_REFILL: a refill instant of a tier, once steady time has reached it (R207). -/
def execShaperRefill (tier : Fin 4) (s : State) : Res :=
  done (if coreRuns s ∧ (nth s.sched.refills tier + 1) * tierInterval tier ≤ now s then refillTier s tier else s)

/-- TRANSIT_END: the subtree of a node in transit has emptied (R214). -/
def execTransitEnd (node : Nat) (s : State) : Res :=
  done (if node ∈ s.sched.transit ∧ !subtreeHeld s node then raise (settleAll (leaveTransit s node)) .sched 0 else s)

/-- The eligibility of a queue or node as NODE_QUERY shows it, given the eligible queues (R199, R200). -/
def eligibleIdx (s : State) (eligibleQueue : Nat → Bool) (i : Nat) : Bool :=
  match tierOf i with
  | 0 => eligibleQueue i
  | 1 => subState s (i - subIdx 0) ≠ 0 && (busyQueues s).any fun q => subIdx (q / 8) == i && eligibleQueue q
  | 2 => permitsA s i && (busyQueues s).any fun q =>
      groupIdx (subParent (schedEntry s (subIdx (q / 8)))) == i && eligibleQueue q && subState s (q / 8) ≠ 0
  | _ => permitsA s i && (i = portIdx 64 || portUp s (i - portIdx 0)) &&
      (busyQueues s).any fun q => queuePort s q == some (i - portIdx 0) && eligibleQueue q && subState s (q / 8) ≠ 0 &&
        permitsA s (groupIdx (subParent (schedEntry s (subIdx (q / 8)))))

/-- Copies queued on chip in a queue. -/
def queueCopies (v : Queue) : Nat :=
  let copies := fun (l : List QItem) => (l.filter fun x => match x with | .copy _ => true | .skip _ _ => false).length
  copies v.head + copies v.tail +
    (match v.spill with | some c => (match c.waiting with | some l => copies l | none => 0) | none => 0)

/-- The result registers of NODE_QUERY (R216). -/
def nodeQuery (s : State) (eligibleQueue : Nat → Bool) (i : Nat) : State :=
  let frames := s.queues.foldl (fun n e =>
    let inside := match tierOf i with
      | 0 => e.1 == i
      | 1 => subIdx (e.1 / 8) == i
      | 2 => groupIdx (subParent (schedEntry s (subIdx (e.1 / 8)))) == i
      | _ => queuePort s e.1 == some (i - portIdx 0)
    if inside then n + queueCopies e.2 else n) 0
  let e := tabCur s 0x11 i
  let attachedNow := match tierOf i with
    | 1 => (List.range 65).any fun p => attachedIn s (tabCur s 0x11) (i - subIdx 0) p
    | 2 => nodeValid e && i ∉ s.sched.transit && groupParent e ≤ 64
    | _ => false
  let isSub := tierOf i == 1
  let word := bit (eligibleIdx s eligibleQueue i) * 2 ^ 31 + bit (i ∈ s.sched.transit) * 2 ^ 30 +
    bit (isSub && subState s (i - subIdx 0) == 2) * 2 ^ 29 + bit (isSub && subState s (i - subIdx 0) == 1) * 2 ^ 28 +
    bit attachedNow * 2 ^ 27 + frames % 2 ^ 19
  let s' := wr s 0x500044 word
  let s' := wr s' 0x500048 (unsigned (deficitOf s.sched i) 20)
  let s' := wr s' 0x50004C (unsigned (bucketA s i / 2 ^ 20) 32)
  wr s' 0x500050 (unsigned (bucketB s i / 2 ^ 20) 32)

end Sys2Proof.Machine
end

