-- ==== Sys2Proof/Machine/Buffer.lean ====
section
/-! DEFINITION. The counts of the shared buffer (R130 to R144): charging and releasing leaves, reference counts, and the flow
control that follows the leaves of an ingress port (R54). -/

namespace Sys2Proof.Machine

/-! ### Flow-control generation (R54) -/

/-- The PFC priority under which leaves of ingress class `c` of port `p` are counted. -/
def fcPrioOf (s : State) (p c : Nat) : Nat := bits (rd s (portReg p 1 0x4C)) (3 * c + 2) (3 * c)

/-- The leaves counted for priority `k` of a port; in PAUSE mode one count covers all. -/
def fcLevel (s : State) (p k : Nat) : Nat :=
  if fcMode s p = 1 then (List.range 8).foldl (fun n i => n + sget zeroNat s.buffer.fcCount (p * 8 + i)) 0
  else sget zeroNat s.buffer.fcCount (p * 8 + k)

/-- The XON level: FC_XON, or one below FC_XOFF where it is not below it. -/
def fcXon (s : State) (p : Nat) : Nat :=
  let on := fld s (portReg p 1 0x54) 18 0
  let off := fld s (portReg p 1 0x50) 18 0
  if on < off then on else off - 1

/-- The port generates flow control for priority `k`. -/
def fcGenerates (s : State) (p k : Nat) : Bool :=
  p < 64 && flag s (portReg p 1 0x40) 28 &&
  (match fcMode s p with | 1 => k == 0 | 2 => flag s (portReg p 1 0x40) (8 + k) | _ => false)

/-- XOFF is in force for priority `k` of the port (FC_STATUS.TX_XOFF). -/
def fcInForce (s : State) (p k : Nat) : Bool := p < 64 && flag s (portReg p 1 0x5C) (8 + k)

/-- The MAC control parameters of a flow-control frame for priority `k`: opcode, and for PFC the enable vector and eight
quanta, with the quanta in place `k`. -/
def fcPayload (mode k quanta : Nat) : List Byte :=
  if mode = 1 then beBytes 2 0x0001 ++ beBytes 2 quanta
  else beBytes 2 0x0101 ++ beBytes 2 (2 ^ k) ++
    (List.range 8).flatMap fun i => beBytes 2 (if i = k then quanta else 0)

/-- A flow-control frame of a priority leaves. -/
def fcEmit (p : Nat) (s : State) (d : Nat × Nat) : State :=
  let v := portAt s p
  let s := setPort s p { v with fcSent := setNth v.fcSent d.1 (now s + 1) }
  emit (count s (portCounter p 3) 1) (.control p (fcPayload (fcMode s p) d.1 d.2))

/-- The flow-control frames that wait leave at a frame boundary, ahead of queued data; they wait for no gate (R54, R226). -/
def fcFlush (s : State) (p : Nat) : State :=
  if !portUp s p ∨ !egressOpen s ∨ wireBusy s p then s
  else
    let v := portAt s p
    v.fcDue.foldl (fcEmit p) (setPort s p { v with fcDue := [] })

/-- The ports send the flow-control frames that waited for front egress. -/
def fcFlushAll (s : State) : State := (List.range 64).foldl fcFlush s

/-- The port is to send a flow-control frame: it replaces one of its priority that waits. -/
def fcSend (s : State) (p k quanta : Nat) : State :=
  let v := portAt s p
  fcFlush (setPort s p { v with fcDue := (v.fcDue.filter fun d => d.1 != k) ++ [(k, quanta)] }) p

/-- Flow control follows the count of priority `k` of an UP port. -/
def fcFollow (s : State) (p k : Nat) : State :=
  let k := if p < 64 ∧ fcMode s p = 1 then 0 else k
  if !fcGenerates s p k ∨ !portUp s p then s
  else if fcInForce s p k then
    if fcLevel s p k ≤ fcXon s p then fcSend (setFlag s (portReg p 1 0x5C) (8 + k) false) p k 0 else s
  else if fld s (portReg p 1 0x50) 18 0 < fcLevel s p k then
    fcSend (setFlag s (portReg p 1 0x5C) (8 + k) true) p k (fld s (portReg p 1 0x58) 15 0)
  else s

/-- Every priority of a port follows its count. -/
def fcFollowAll (s : State) (p : Nat) : State := (List.range 8).foldl (fun s k => fcFollow s p k) s

/-- No XOFF is in force and no flow-control frame waits any more. -/
def fcClear (s : State) (p : Nat) : State :=
  setPort (setFld s (portReg p 1 0x5C) 15 8 0) p { portAt s p with fcDue := [] }

/-- The flow-control registers of a port have been written: a priority that is no longer generated has no XOFF in force, and the others
follow their counts under the new values (R54; log 33). -/
def fcReconfigure (s : State) (p : Nat) : State :=
  let s := (List.range 8).foldl (fun s k =>
    if fcGenerates s p k then s
    else
      let v := portAt s p
      setPort (setFlag s (portReg p 1 0x5C) (8 + k) false) p { v with fcDue := v.fcDue.filter fun d => d.1 != k }) s
  fcFollowAll s p

/-! ### Leaves (R130, R139, R142) -/

/-- Set the buffer counts. -/
def setBuffer (s : State) (b : Buffer) : State := { s with buffer := b }

/-- PEAK holds the highest SHARED_USED. -/
def followPeak (s : State) : State :=
  if fld s 0x400058 18 0 < s.buffer.sharedUsed then setFld s 0x400058 18 0 s.buffer.sharedUsed else s

/-- The lowest free row of bank `k` from row `r` on, as a leaf number: leaf i lies in bank i[4:0] (R130). DESIGN CHOICE (log 32): which free
leaf of a bank is taken. -/
def freeRow (held : List Nat) (k : Nat) : Nat → Nat → Option Nat
  | 0, _ => none
  | fuel + 1, r => if r * 32 + k ∈ held then freeRow held k fuel (r + 1) else some (r * 32 + k)

/-- A free leaf of bank `k`, or of the next bank that has one. -/
def freeLeaf (held : List Nat) : Nat → Nat → Option Nat
  | 0, _ => none
  | fuel + 1, k => (freeRow held k 12288 0).or (freeLeaf held fuel ((k + 1) % 32))

/-- The allocator gives `n` leaves of consecutive banks, starting at the bank after the last one it served (R130). -/
def takeLeaves : Nat → Buffer → List Nat × Buffer
  | 0, b => ([], b)
  | n + 1, b =>
    match freeLeaf b.leaves 32 (b.bank % 32) with
    | none => ([], b)
    | some l =>
      let (ls, b) := takeLeaves n { b with leaves := l :: b.leaves, bank := (l + 1) % 32 }
      (l :: ls, b)

/-- The link memory names the leaf after each leaf of a chain but the last (R130). -/
def linkLeaves (b : Buffer) (chain : List Nat) : Buffer :=
  (chain.zip (chain.drop 1)).foldl (fun b e => { b with links := sset zeroNat b.links e.1 e.2 }) b

/-- Bring physical copy `phys` of frame `i` to `n` leaves: its chain grows at its end, or loses its last leaves. -/
def sizeChain (s : State) (i phys n : Nat) : State :=
  let f := frameAt s i
  let old := f.chains.getD phys []
  let (more, b) := takeLeaves (n - old.length) s.buffer
  let chain := (old ++ more).take n
  let b := linkLeaves { b with leaves := b.leaves.filter fun l => !(old.drop n).contains l } chain
  let chains := (List.range (max f.chains.length (phys + 1))).map fun k => if k = phys then chain else f.chains.getD k []
  setFrame (setBuffer s b) i { f with chains }

/-- Every physical copy of frame `i` that is still shared comes to `n` leaves. -/
def sizeChains (s : State) (i n : Nat) : State :=
  let f := frameAt s i
  (List.range f.refs.length).foldl (fun s k => if nth f.refs k = 0 then s else sizeChain s i k n) s

/-- The first leaf of a copy's physical copy, which its descriptor records (R131). -/
def firstLeaf (s : State) (c : Copy) : Option Nat := ((frameAt s c.frame).chains.getD c.phys []).head?

/-- Charge `n` leaves of a frame: to its port's PFC headroom, or to the shared region and the port; a frame back from a
sheet is in no ingress count (R139, R142). -/
def chargeLeaves (s : State) (f : Frame) (n : Nat) : State :=
  let b := s.buffer
  if f.spilled then followPeak (setBuffer s { b with sharedUsed := b.sharedUsed + n })
  else
    let b := if f.headroom then { b with headUsed := sadd b.headUsed f.inPort n }
      else { b with sharedUsed := b.sharedUsed + n, ingress := sadd b.ingress f.inPort n }
    let b := if f.inPort < 64 then { b with fcCount := sadd b.fcCount (f.inPort * 8 + f.fcPrio) n } else b
    fcFollow (followPeak (setBuffer s b)) f.inPort f.fcPrio

/-- Return `n` leaves of a frame. -/
def returnLeaves (s : State) (f : Frame) (n : Nat) : State :=
  let b := s.buffer
  if f.spilled then setBuffer s { b with sharedUsed := b.sharedUsed - n }
  else
    let b := if f.headroom then { b with headUsed := ssub b.headUsed f.inPort n }
      else { b with sharedUsed := b.sharedUsed - n, ingress := ssub b.ingress f.inPort n }
    let b := if f.inPort < 64 then { b with fcCount := ssub b.fcCount (f.inPort * 8 + f.fcPrio) n } else b
    fcFollow (setBuffer s b) f.inPort f.fcPrio

/-- Add a copy's leaves to the counts of its egress port, node and queue. -/
def chargeCopy (s : State) (c : Copy) (n : Nat) : State :=
  let b := s.buffer
  let s := setBuffer s { b with egress := sadd b.egress c.port n, node := sadd b.node (c.queue / 8) n }
  let q := queueAt s c.queue
  setQueue s c.queue { q with leaves := q.leaves + n }

/-- Take a copy's leaves out of those counts. -/
def returnCopy (s : State) (c : Copy) (n : Nat) : State :=
  let b := s.buffer
  let s := setBuffer s { b with egress := ssub b.egress c.port n, node := ssub b.node (c.queue / 8) n }
  let q := queueAt s c.queue
  setQueue s c.queue { q with leaves := q.leaves - n }

/-- The lowest descriptor number from `k` on that is not in use (DESIGN CHOICE, log 32). -/
def freeDescriptor (held : List Nat) : Nat → Nat → Nat
  | 0, k => k
  | fuel + 1, k => if k ∈ held then freeDescriptor held fuel (k + 1) else k

/-- A copy that is to be linked takes a descriptor (R131). -/
def takeDescriptor (s : State) (c : Copy) : Copy × State :=
  let d := freeDescriptor s.buffer.descriptors 262144 0
  ({ c with desc := some d }, setBuffer s { s.buffer with descriptors := d :: s.buffer.descriptors })

/-- A copy's descriptor returns to the free pool. -/
def returnDescriptor (s : State) (c : Copy) : State :=
  match c.desc with
  | none => s
  | some d => setBuffer s { s.buffer with descriptors := s.buffer.descriptors.erase d }

/-! ### Reference counts (R143, R144) -/

/-- A frame with no copy left leaves the device once it has ended. -/
def reapFrame (s : State) (i : Nat) : State :=
  let f := frameAt s i
  if f.ended && f.refs.all (· == 0) && f.copies.isEmpty then setFrame s i {} else s

/-- A sharer of physical copy `phys` lets go; the count that reaches zero frees the leaves. -/
def releaseSharer (s : State) (i phys : Nat) : State :=
  let f := frameAt s i
  let r := nth f.refs phys
  if r = 0 then s
  else
    let s := setFrame s i { f with refs := setNth f.refs phys (r - 1) }
    reapFrame (if r = 1 then sizeChain (returnLeaves s f f.charge) i phys 0 else s) i

/-- The leaves that a copy counts for in its egress port, node and queue: its frame's charge, as last trued up. -/
def copyLeaves (s : State) (c : Copy) : Nat := (frameAt s c.frame).charge

/-- A queued copy lets go of its counts, its descriptor and its leaves. -/
def releaseCopy (s : State) (c : Copy) : State :=
  releaseSharer (returnDescriptor (returnCopy s c (copyLeaves s c)) c) c.frame c.phys

/-! ### Residence (R149, R150, R171) -/

/-- A limit in ms, 0 acting as 1. -/
def limitMs (n : Nat) : Nat := max 1 n

/-- The frame is stale (R149, R171). -/
def staleFrame (s : State) (f : Frame) : Bool :=
  flag s 0x400060 31 &&
  (let limit := if f.spilled then limitMs (fld s 0x404048 15 0) else limitMs (fld s 0x400060 15 0)
   f.arrival + limit * 1000 ≤ nowUs s)

/-! ### The commands -/

/-- BUF_PEAK starts again from the present use. -/
def clearPeak (s : State) : State := setFld s 0x400058 18 0 s.buffer.sharedUsed

/-- BUF_PEAK_CLEAR: a write of 1 to BUF_PEAK.CLEAR. -/
def execBufPeakClear (src : Source) (s : State) : Res :=
  done (guarded s src 0x400058 clearPeak)

/-- FC_REFRESH: the flow-control frame of a priority in force is repeated, REFRESH quanta after the last one (R54). -/
def execFcRefresh (port : Fin 64) (prio : Fin 8) (s : State) : Res :=
  let p := port.val
  let wait := ceilDiv (fld s (portReg p 1 0x58) 31 16 * 512) (max 1 (portGbps s p))
  done (if portUp s p ∧ fcInForce s p prio ∧ fcGenerates s p prio ∧ fcXon s p < fcLevel s p prio ∧
      nth (portAt s p).fcSent prio + wait ≤ now s + 1 then
    fcSend s p prio (fld s (portReg p 1 0x58) 15 0) else s)

end Sys2Proof.Machine
end

