-- ==== Sys2Proof/Machine/Parse.lean ====
section
/-! DEFINITION. The parser (R64 to R66) over the bytes of a frame's head: tags, PPPoE, IP, layer 4 and PTP. -/

namespace Sys2Proof.Machine

/-- What the parser reads of a slice's configuration and of the ingress port's masks (R64). -/
structure ParseConfig where
  tpids : List Nat
  outer : Nat
  inner : Nat
  ptpUdp : Bool
  ptpEth : Bool
  deriving DecidableEq, Repr

/-- The window the parser sees, and whether the frame ends within it. -/
structure ParseWindow where
  bytes : List Byte
  ends : Bool
  deriving DecidableEq, Repr

/-- The window over a frame's bytes: the first 256, and the frame's end when it has ended within them. -/
def windowOf (bytes : List Byte) (ended : Bool) : ParseWindow := ⟨bytes.take 256, ended && bytes.length ≤ 256⟩

/-- The field of `k` bytes at `off` of the window. -/
def ParseWindow.at_ (w : ParseWindow) (off k : Nat) : Nat := beAt w.bytes off k

/-- The window holds `k` bytes at `off`. -/
def ParseWindow.has (w : ParseWindow) (off k : Nat) : Bool := off + k ≤ w.bytes.length

/-- A malformed frame is layer 2 only (R65). -/
def malform (p : Parsed) : Parsed :=
  { p with malformed := true, l3 := 0, l4 := 0, dscp := 0, ecn := 0, proto := 0, ttl := 0, flow := 0, sa := 0, da := 0,
           sport := 0, dport := 0, tcpFlags := 0, fragment := false, ptpEvent := false, ptpGeneral := false,
           ptpType := 0, ptpDomain := 0 }

/-- A header that has begun runs past the window: malformed when the frame ends there (R65), not parsed otherwise (R66). -/
def cutShort (w : ParseWindow) (p : Parsed) : Parsed := if w.ends then malform p else p

/-- The same behind an IP header: layer 4 is not parsed. -/
def cutLayer4 (w : ParseWindow) (p : Parsed) : Parsed := if w.ends then malform p else { p with l4 := 3 }

/-- The type field is TPID `t` for a port whose mask has bit `t`. -/
def tpidIn (c : ParseConfig) (mask t : Nat) : Bool := (List.range 4).any fun k => bitAt mask k && nth4 c.tpids k == t
where
  /-- TPID `k` of the slice. -/
  nth4 (l : List Nat) (k : Nat) : Nat := l.getD k 0

/-- The tags, at most three, from type field offset 12 on (R64, orders 2 to 4). `open_` holds until a tag is skipped. -/
def parseTags (c : ParseConfig) (w : ParseWindow) : Nat → Bool → Parsed → Parsed
  | 0, _, p => p
  | n + 1, open_, p =>
    let off := 12 + 4 * p.tags
    let t := w.at_ off 2
    if !w.has off 6 then p
    else if open_ ∧ p.tags = 0 ∧ tpidIn c c.outer t then
      parseTags c w n true { p with tags := 1, outer := some (w.at_ (off + 2) 2) }
    else if open_ ∧ p.inner = none ∧ tpidIn c c.inner t then
      parseTags c w n true { p with tags := p.tags + 1, inner := some (w.at_ (off + 2) 2) }
    else if tpidIn c 15 t then parseTags c w n false { p with tags := p.tags + 1 }
    else p

/-- PTP at `off` (order 8): version 2 only; `event` says it for UDP, and messageType for Ethernet, whose event messages
have types 0 to 7 (IEEE 1588). -/
def parsePtp (w : ParseWindow) (off : Nat) (event : Option Bool) (p : Parsed) : Parsed :=
  if !w.has off 2 ∨ w.at_ (off + 1) 1 % 16 ≠ 2 then p
  else if !w.has off 34 then cutShort w p
  else
    let ty := w.at_ off 1 % 16
    let ev := event.getD (ty < 8)
    { p with ptpEvent := ev, ptpGeneral := !ev, ptpOff := off, ptpType := ty, ptpDomain := w.at_ (off + 4) 1 }

/-- UDP, TCP and PTP over UDP behind an IP header (orders 7 and 8). -/
def parseLayer4 (c : ParseConfig) (w : ParseWindow) (off : Nat) (p : Parsed) : Parsed :=
  if p.fragment then { p with l4 := 3 }
  else if p.proto = 17 then
    if !w.has off 8 then cutLayer4 w p
    else
      let p := { p with l4 := 1, sport := w.at_ off 2, dport := w.at_ (off + 2) 2 }
      if c.ptpUdp ∧ !p.pppoeSess ∧ (p.dport = 319 ∨ p.dport = 320) then parsePtp w (off + 8) (some (p.dport = 319)) p else p
  else if p.proto = 6 then
    if !w.has off 20 then cutLayer4 w p
    else { p with l4 := 2, sport := w.at_ off 2, dport := w.at_ (off + 2) 2, tcpFlags := w.at_ (off + 13) 1 }
  else { p with l4 := 3 }

/-- IPv4 at `off`. -/
def parseIpv4 (c : ParseConfig) (w : ParseWindow) (off : Nat) (p : Parsed) : Parsed :=
  let v := w.at_ off 1
  if !w.has off 1 then cutShort w p
  else if v / 16 ≠ 4 ∨ v % 16 < 5 then malform p
  else if !w.has off (v % 16 * 4) then cutShort w p
  else parseLayer4 c w (off + v % 16 * 4)
    { p with l3 := 1, l3Off := off, dscp := w.at_ (off + 1) 1 / 4, ecn := w.at_ (off + 1) 1 % 4,
             ipLen := w.at_ (off + 2) 2, fragment := w.at_ (off + 6) 2 % 2 ^ 13 ≠ 0, ttl := w.at_ (off + 8) 1,
             proto := w.at_ (off + 9) 1, sa := w.at_ (off + 12) 4, da := w.at_ (off + 16) 4 }

/-- The IPv6 extension headers that the parser follows. -/
def isExtension (t : Nat) : Bool := t == 0 || t == 43 || t == 44 || t == 60

/-- At most `n` extension headers, and then layer 4; behind a third one layer 4 is not parsed (R66). -/
def parseExtensions (c : ParseConfig) (w : ParseWindow) : Nat → Nat → Parsed → Parsed
  | 0, off, p => if isExtension p.proto then { p with l4 := 3 } else parseLayer4 c w off p
  | n + 1, off, p =>
    if !isExtension p.proto then parseLayer4 c w off p
    else if !w.has off 8 then cutLayer4 w p
    else
      let size := if p.proto = 44 then 8 else (w.at_ (off + 1) 1 + 1) * 8
      if !w.has off size then cutLayer4 w p
      else parseExtensions c w n (off + size)
        { p with fragment := p.fragment || (p.proto == 44 && w.at_ (off + 2) 2 / 8 != 0), proto := w.at_ off 1 }

/-- IPv6 at `off`. -/
def parseIpv6 (c : ParseConfig) (w : ParseWindow) (off : Nat) (p : Parsed) : Parsed :=
  if !w.has off 40 then cutShort w p
  else
    let v := w.at_ off 4
    parseExtensions c w 2 (off + 40)
      { p with l3 := 2, l3Off := off, dscp := bits v 27 22, ecn := bits v 21 20, flow := bits v 19 0,
               ipLen := w.at_ (off + 4) 2 + 40, proto := w.at_ (off + 6) 1, ttl := w.at_ (off + 7) 1,
               sa := w.at_ (off + 8) 16, da := w.at_ (off + 24) 16 }

/-- PPPoE at `off` (order 5); it is recognised with version 1 and type 1, and malformed otherwise. -/
def parsePppoe (c : ParseConfig) (w : ParseWindow) (off : Nat) (session : Bool) (p : Parsed) : Parsed :=
  if !w.has off 6 then cutShort w p
  else if w.at_ off 1 ≠ 0x11 then malform p
  else
    let p := { p with session := w.at_ (off + 2) 2, pppoeDisc := !session, pppoeSess := session }
    if !session then p
    else if !w.has off 8 then cutShort w p
    else if w.at_ (off + 6) 2 = 0x0021 then parseIpv4 c w (off + 8) p
    else if w.at_ (off + 6) 2 = 0x0057 then parseIpv6 c w (off + 8) p
    else p

/-- The headers behind the tags, by the EtherType found there (R64). -/
def parseBody (c : ParseConfig) (w : ParseWindow) (p : Parsed) : Parsed :=
  let off := 14 + 4 * p.tags
  match p.etype with
  | 0x0800 => parseIpv4 c w off p
  | 0x86DD => parseIpv6 c w off p
  | 0x8863 => parsePppoe c w off false p
  | 0x8864 => parsePppoe c w off true p
  | 0x88F7 => if c.ptpEth then parsePtp w off none p else p
  | _ => p

/-- The parse of a frame's head. -/
def parse (c : ParseConfig) (w : ParseWindow) : Parsed :=
  if !w.has 0 14 then cutShort w {}
  else if w.at_ 12 2 < 0x600 then { etype := w.at_ 12 2 }
  else
    let p := parseTags c w 3 true {}
    let t := w.at_ (12 + 4 * p.tags) 2
    let p := { p with etype := t }
    if p.tags = 3 ∧ tpidIn c 15 t then p else parseBody c w p

/-- The outermost tag's TCI of a frame as bytes, when the parser counted one. -/
def outermostTci (bytes : List Byte) (tags : Nat) : Option Nat := if tags = 0 then none else some (beAt bytes 14 2)

end Sys2Proof.Machine
end

