-- ==== Sys2Proof/Machine/Classify.lean ====
section
/-! DEFINITION. Subscriber mapping and classification: ingress stages 3 and 4 (R67 to R79). -/

namespace Sys2Proof.Machine

/-- The address of offset `off` of page `k` of slice `i`. -/
def sliceReg (i k off : Nat) : Nat := 0x100000 + i * 0x20000 + k * 0x1000 + off

/-- What the ingress stages decide beside the frame itself. -/
structure Ingress where
  frame : Frame
  /-- Drop code of R309, 0 while the frame goes on. -/
  reason : Nat := 0
  /-- Diverted by TRAP of R67 or R68: stages 4 to 7 are cut down as R67 says. -/
  mapTrap : Bool := false
  /-- The subscriber's NODE. -/
  node : Option Nat := none
  noLearn : Bool := false
  policer : Option Nat := none
  filter : Option Nat := none
  /-- DEST of a classifier override (16 bits). -/
  override : Option Nat := none
  deriving DecidableEq, Repr

/-- The port's index in slice pages: 8 for the host port. -/
def slicePort (p : Nat) : Nat := if p = 64 then 8 else p % 8

/-- A slice register as the epoch `e` applies it. -/
def sliceWord (s : State) (e i k off : Nat) : Nat := rdEpoch s e (sliceReg i k off)

/-- INGRESS_CONFIG of the frame's ingress port, as its epoch applies it. -/
def ingressConfig (s : State) (f : Frame) : Nat := sliceWord s f.epoch f.slice 1 (0x40 + slicePort f.inPort * 8)

/-- PORT_DEFAULTS of port `p` in slice `i`. -/
def portDefaults (s : State) (e i p : Nat) : Nat := sliceWord s e i 1 (0x44 + slicePort p * 8)

/-- The four TPIDs of slice `i` under epoch `e`. -/
def tpidsOf (s : State) (e i : Nat) : List Nat :=
  let a := sliceWord s e i 0 0x40
  let b := sliceWord s e i 0 0x44
  [bits a 15 0, bits a 31 16, bits b 15 0, bits b 31 16]

/-- What the parser reads for a frame (R64). -/
def parseConfig (s : State) (f : Frame) : ParseConfig :=
  let c := ingressConfig s f
  let k := sliceWord s f.epoch f.slice 0 0x48
  { tpids := tpidsOf s f.epoch f.slice, outer := bits c 25 22, inner := bits c 21 18,
    ptpUdp := bitAt k 30, ptpEth := bitAt k 29 }

/-! ### Stage 3: the subscriber (R67 to R69) -/

/-- The VID of a TCI. -/
def vidOf (tci : Nat) : Nat := tci % 4096

/-- Bits [62:30] of the subscriber map entry that a frame's key matches (R67). -/
def mapKey (s : State) (f : Frame) : Nat :=
  let inner := if bitAt (ingressConfig s f) 14 then f.parsed.inner else none
  let tag := fun (t : Option Nat) => match t with | none => 0 | some x => 4096 + vidOf x
  f.inPort * 2 ^ 26 + tag f.parsed.outer * 2 ^ 13 + tag inner

/-- The eight candidate slots of a subscriber map key, in slot order (R71). -/
def mapSlots (key : Nat) : List Nat :=
  (List.range 8).map fun k => k / 4 * 32768 + Config.mapHash (k / 4) key % 8192 * 4 + k % 4

/-- The candidate slot in which key `key` is valid, if it is: a lookup reads the key's two buckets (R71). -/
def mapSlot (s : State) (key : Nat) : Option Nat :=
  (mapSlots key).find? fun i => bitAt (tabN s 6 i) 63 && bits (tabN s 6 i) 62 30 == key

/-- The SUB_ID that the map gives a key, on a hit. -/
def mapLookup (s : State) (key : Nat) : Option Nat := (mapSlot s key).map fun i => bits (tabN s 6 i) 29 16

/-- The forwarding VID of a frame under subscriber entry `e` (0 when it has none) (R69). -/
def forwardingVid (s : State) (f : Frame) (e : Nat) : Nat :=
  let tagged := fun (t : Option Nat) => match t with | none => 0 | some x => vidOf x
  if bitAt e 127 ∧ bitAt e 95 then bits e 94 83
  else if tagged f.parsed.outer ≠ 0 then tagged f.parsed.outer
  else if tagged f.parsed.inner ≠ 0 then tagged f.parsed.inner
  else bits (portDefaults s f.epoch f.slice f.inPort) 11 0

/-- A valid subscriber entry supplies its fields (R68, R70). -/
def takeSubscriber (s : State) (g : Ingress) (id : Nat) : Ingress :=
  let e := tabN s 7 id
  if bitAt e 81 then { g with reason := 0x0B }
  else
    let f := g.frame
    { g with
      frame := { f with sub := id, vid := forwardingVid s f e, subCounted := bitAt e 80 },
      node := some (bits e 126 113),
      noLearn := bitAt e 82,
      policer := if bitAt e 96 then some (bits e 112 97) else none }

/-- A frame that MISS_ACTION refuses: dropped, or diverted to the host with trap code 1, under one reason (R67, R68). -/
def missAction (s : State) (g : Ingress) (action reason : Nat) : Ingress :=
  if action = 2 then
    { g with mapTrap := true, noLearn := true,
             frame := { g.frame with trap := some 1, vid := forwardingVid s g.frame 0, reason := reason } }
  else { g with reason }

/-- Stage 3. A trapped frame keeps the counted reason in `frame.reason` until it is counted. -/
def stage3 (s : State) (g : Ingress) : Ingress :=
  let c := ingressConfig s g.frame
  let action := bits c 31 30
  let byDefault := fun (g : Ingress) =>
    let id := bits c 13 0
    let g := { g with frame := { g.frame with sub := id } }
    if bitAt (tabN s 7 id) 127 then takeSubscriber s g id else { g with reason := 0x0A }
  match mapLookup s (mapKey s g.frame) with
  | none => if action = 0 then byDefault g else missAction s { g with frame := { g.frame with sub := bits c 13 0 } } action 0x09
  | some id =>
    let g := { g with frame := { g.frame with sub := id, mapHit := true } }
    if bitAt (tabN s 7 id) 127 then takeSubscriber s g id
    else if action = 0 then byDefault g else missAction s g action 0x0A

/-! ### Stage 4: class, colour and the classifier (R73 to R79) -/

/-- Byte `i` of the map that starts at page 2 offset `off` of a slice: class and colour (0b11 acts as red). -/
def mapByte (s : State) (f : Frame) (off i : Nat) : Nat × Nat :=
  let w := sliceWord s f.epoch f.slice 2 (off + i / 4 * 4)
  let b := bits w (i % 4 * 8 + 7) (i % 4 * 8)
  (bits b 2 0, min 2 (bits b 4 3))

/-- Steps 1 to 3 of R73; a frame from the host port keeps its descriptor's class and colour (R74). -/
def classSteps (s : State) (f : Frame) : Nat × Nat :=
  if f.inPort = 64 then (f.cls, f.colour)
  else
    let c := ingressConfig s f
    let set := bits c 27 26
    let tag := f.parsed.outer.or f.parsed.inner
    let r := (bits c 17 15, 0)
    let r := match tag with
      | some t => if bitAt c 29 then mapByte s f (0x40 + set * 0x50) (bits t 15 13 * 2 + bits t 12 12) else r
      | none => r
    if bitAt c 28 ∧ f.parsed.l3 ≠ 0 ∧ !f.parsed.malformed then mapByte s f (0x50 + set * 0x50) f.parsed.dscp else r

/-- META, key word 0x00. -/
def metaWord (f : Frame) : Nat :=
  let p := f.parsed
  f.inPort * 2 ^ 25 + f.sub * 2 ^ 11 + p.l3 * 2 ^ 9 + p.l4 * 2 ^ 7 + bit p.ptpEvent * 2 ^ 6 + bit p.ptpGeneral * 2 ^ 5 +
    bit p.pppoeDisc * 2 ^ 4 + bit p.pppoeSess * 2 ^ 3 + bit p.fragment * 2 ^ 2 + bit p.malformed * 2 + bit f.mapHit

/-- The key word that a selector code names (R77). -/
def keyWord (f : Frame) (code : Nat) : Nat :=
  let p := f.parsed
  let da := beAt f.bytes 0 6
  let sa := beAt f.bytes 6 6
  match code with
  | 0x00 => metaWord f
  | 0x01 => da / 2 ^ 16
  | 0x02 => da % 2 ^ 16 * 2 ^ 16 + sa / 2 ^ 32
  | 0x03 => sa % 2 ^ 32
  | 0x04 => p.etype * 2 ^ 16 + p.tags * 2 ^ 14 + f.vid
  | 0x05 => p.outer.getD 0 * 2 ^ 16 + p.inner.getD 0
  | 0x06 => if p.l3 = 1 then p.sa else 0
  | 0x07 => if p.l3 = 1 then p.da else 0
  | 0x10 => p.sport * 2 ^ 16 + p.dport
  | 0x11 => p.dscp * 2 ^ 26 + p.ecn * 2 ^ 24 + p.proto * 2 ^ 16 + p.ttl * 2 ^ 8 + p.tcpFlags
  | 0x12 => p.session * 2 ^ 16 + p.ptpType * 2 ^ 12 + p.ptpDomain * 2 ^ 4
  | 0x13 => if p.l3 = 2 then p.flow else 0
  | c =>
    if p.l3 = 2 ∧ 0x08 ≤ c ∧ c ≤ 0x0B then bits p.sa (127 - 32 * (c - 0x08)) (96 - 32 * (c - 0x08))
    else if p.l3 = 2 ∧ 0x0C ≤ c ∧ c ≤ 0x0F then bits p.da (127 - 32 * (c - 0x0C)) (96 - 32 * (c - 0x0C))
    else 0

/-- The 320-bit key of a frame under the layout of its epoch (R77, R78). -/
def classKey (s : State) (f : Frame) : Nat :=
  let lo := sliceWord s f.epoch f.slice 3 0x40
  let hi := sliceWord s f.epoch f.slice 3 0x44
  (List.range 10).foldl (fun k n =>
    let sel := if n < 5 then bits lo (6 * n + 5) (6 * n) else bits hi (6 * (n - 5) + 5) (6 * (n - 5))
    k + keyWord f sel * 2 ^ (32 * n)) 0

/-- The lowest valid rule of the frame's slice that its key matches, as its index in tables 0x08 to 0x0A (R75). -/
def matchRule (s : State) (f : Frame) : Option Nat :=
  if !bitAt (sliceWord s f.epoch f.slice 3 0x40) 31 then none
  else
    let key := classKey s f
    let base := 0x0A * 2 ^ 20
    (s.tabs.find? fun e =>
      e.1 / 2 ^ 20 == 0x0A && (e.1 - base) / 2048 == f.slice && bitAt e.2.toNat 127 &&
        (let m := tabN s 0x09 (e.1 - base) % 2 ^ 320
         key &&& m == tabN s 0x08 (e.1 - base) &&& m)).map fun e => e.1 - base

/-- The action of rule `i` on a frame (R79). -/
def applyRule (s : State) (g : Ingress) (i : Nat) : Ingress :=
  let a := tabN s 0x0A i
  let f := g.frame
  let f := if bitAt a 123 then { f with cls := bits a 122 120 } else f
  let f := if bitAt a 119 then { f with colour := min 2 (bits a 118 117) } else f
  let f := if bitAt a 69 then { f with edit := some (bits a 68 61) } else f
  let f := { f with ruleMark := if bitAt a 98 then some (bits a 97 94) else none }
  let g := { g with frame := f, noLearn := g.noLearn || bitAt a 60 }
  let g := if !bitAt a 116 then g
    else if bitAt a 115 then { g with filter := some (bits a 111 99), policer := none }
    else { g with policer := some (bits a 114 99) }
  match bits a 126 124 with
  | 1 => { g with reason := 0x0C }
  | 2 => { g with noLearn := true, frame := { f with trap := some (bits a 77 70), reason := 0x0D } }
  | 3 => { g with frame := { f with copyTrap := some (bits a 77 70) } }
  | 4 => if bits a 93 92 = 3 then g else { g with override := some (bits a 93 78) }
  | _ => g

/-- Stage 4. The subscriber's policer is POLICER_BASE + class unless the rule names another one (R70); the rule counts its match at the frame's
end (R306). -/
def stage4 (s : State) (g : Ingress) : Ingress :=
  let (c, k) := classSteps s g.frame
  let g := { g with frame := { g.frame with cls := c, colour := k } }
  if g.mapTrap then g
  else
    let base := g.policer
    let g := match matchRule s g.frame with
      | none => g
      | some i => applyRule s { g with policer := none, frame := { g.frame with tallies := g.frame.tallies ++ [262144 + i] } } i
    let ruled := g.policer.isSome || g.filter.isSome
    { g with policer := if ruled then g.policer else base.map fun b => (b + g.frame.cls) % 65536 }

end Sys2Proof.Machine
end

