-- ==== Sys2Proof/Machine/Crc.lean ====
section
/-! DEFINITION. The two 32-bit CRCs: the FCS of an Ethernet frame (IEEE 802.3) and CRC-32C (R89, R95, R159, R271). -/

namespace Sys2Proof.Machine

/-- One bit of a reflected CRC with polynomial `poly`. -/
def crcBit (poly c : Nat) : Nat := if c % 2 = 1 then c / 2 ^^^ poly else c / 2

/-- One byte of a reflected CRC. -/
def crcByte (poly c : Nat) (b : Byte) : Nat :=
  let c := c ^^^ b.toNat
  let c := crcBit poly (crcBit poly (crcBit poly (crcBit poly c)))
  crcBit poly (crcBit poly (crcBit poly (crcBit poly c)))

/-- A reflected CRC of 32 bits, preset to ones and inverted at its end. -/
def crc32 (poly : Nat) (bs : List Byte) : Nat := bs.foldl (crcByte poly) 0xFFFFFFFF ^^^ 0xFFFFFFFF

/-- CRC-32C (Castagnoli). -/
def crc32c (bs : List Byte) : Nat := crc32 0x82F63B78 bs

/-- The FCS of a frame's bytes as it stands on the wire: IEEE CRC-32, least significant byte first. PRESUMED (log 9): the
spec names the FCS of IEEE 802.3 and gives no polynomial. -/
def fcsOf (bs : List Byte) : List Byte := leBytes 4 (crc32 0xEDB88320 bs)

/-- The bytes of a frame without its FCS. -/
def dropFcs (bs : List Byte) : List Byte := bs.take (bs.length - 4)

/-- The frame's last four bytes are its FCS. -/
def fcsGood (bs : List Byte) : Bool := 4 ≤ bs.length && bs.drop (bs.length - 4) == fcsOf (dropFcs bs)

/-- A stomped frame: its FCS inverted, so that the next receiver finds it bad (R147). -/
def stomp (bs : List Byte) : List Byte := bs ++ (fcsOf bs).map fun b => ~~~b

end Sys2Proof.Machine
end

