-- ==== Sys2Proof/Machine/Forward.lean ====
section
/-! DEFINITION. VLAN and spanning-tree checks, the FDB lookup, link aggregation and destination sets: ingress stages 5 and 6
and egress stage 2 (R84 to R98). -/

namespace Sys2Proof.Machine

/-! ### VLANs and spanning tree -/

/-- The VLAN entry of `vid` as epoch `e` applies it (R84). -/
def vlanEntry (s : State) (e vid : Nat) : Nat := tabEpoch s e 0x00 vid

def vlanMsti (v : Nat) : Nat := bits v 239 234
def vlanFid (v : Nat) : Nat := bits v 251 240
def vlanMember (v p : Nat) : Bool := bitAt v (153 + p)
def vlanUntagged (v p : Nat) : Bool := bitAt v (88 + p)

/-- The live MSTP state of a port in an instance: 0 DISCARDING, 1 LEARNING, 2 FORWARDING; 3 acts as 0, and the host port
is FORWARDING (R86). -/
def mstpState (s : State) (msti p : Nat) : Nat :=
  if p = 64 then 2
  else
    let v := bits (tabN s 0x01 msti) (2 * p + 1) (2 * p)
    if v = 3 then 0 else v

/-- FWD_PORT_CONFIG of port `p` as epoch `e` applies it. -/
def fwdConfig (s : State) (e p : Nat) : Nat := rdEpoch s e (0x601040 + p * 4)

/-- The link aggregation group of a port, if it belongs to one (R94). -/
def lagOf (s : State) (e p : Nat) : Option Nat :=
  if p < 64 ∧ bitAt (fwdConfig s e p) 29 then some (bits (fwdConfig s e p) 28 24) else none

/-- Stage 5 (R87): the drop reason, 0 when the frame passes. -/
def stage5 (s : State) (f : Frame) : Nat :=
  let v := vlanEntry s f.epoch f.vid
  if beAt f.bytes 0 6 / 16 = 0x0180C200000 then 0x0E
  else if !bitAt v 255 then 0x0F
  else if bitAt (fwdConfig s f.epoch f.inPort) 30 ∧ !vlanMember v f.inPort then 0x10
  else match mstpState s (vlanMsti v) f.inPort with
    | 0 => 0x11 | 1 => 0x12 | _ => 0

/-- Egress stage 2 (R88): the drop reason of a frame's copy for port `p`, 0 when it passes. -/
def egressCheck (s : State) (f : Frame) (p : Nat) (trapped : Bool) : Nat :=
  let v := vlanEntry s f.epoch f.vid
  if trapped ∧ p = 64 then 0
  else if !vlanMember v p then 0x2B
  else if p ≠ 64 ∧ mstpState s (vlanMsti v) p ≠ 2 then 0x2C
  else 0

/-- The edit profile number of a frame's copy for port `p` (R80, R85). -/
def editProfile (s : State) (f : Frame) (p : Nat) : Nat :=
  let v := vlanEntry s f.epoch f.vid
  match f.edit with
  | some k => k
  | none =>
    if bitAt v 87 then (if vlanUntagged v p then bits v 225 218 else bits v 233 226)
    else bits (portDefaults s f.epoch (if p = 64 then 0 else sliceOf p) p) 23 16

/-! ### The FDB -/

/-- The 8 key bytes of (FID, MAC) (R89). -/
def fdbKey (fid mac : Nat) : List Byte := beBytes 8 (fid % 4096 * 2 ^ 48 + mac)

/-- The eight candidate slots of a key, in slot order (R89). -/
def fdbSlots (s : State) (fid mac : Nat) : List Nat :=
  let b0 := crc32c (fdbKey fid mac) % 65536
  let b1 := crc32c (beBytes 4 (rd s 0x600048) ++ fdbKey fid mac) / 65536
  (List.range 4).map (b0 * 4 + ·) ++ (List.range 4).map (262144 + b1 * 4 + ·)

/-- The FDB entry in a slot, as a number. -/
def fdbEntry (s : State) (slot : Nat) : Nat := tabN s 0x02 slot

def fdbValid (e : Nat) : Bool := bitAt e 127
def fdbStatic (e : Nat) : Bool := bitAt e 126
def fdbLocked (e : Nat) : Bool := bitAt e 125
def fdbAge (e : Nat) : Nat := bits e 47 40
/-- DEST_TYPE and DEST of an entry, as 16 bits. -/
def fdbDest (e : Nat) : Nat := bits e 63 48
def fdbFid (e : Nat) : Nat := bits e 123 112
def fdbMac (e : Nat) : Nat := bits e 111 64

/-- The slot in which a key is valid, if it is (R89). -/
def fdbFind (s : State) (fid mac : Nat) : Option Nat :=
  (fdbSlots s fid mac).find? fun i =>
    fdbValid (fdbEntry s i) && fdbFid (fdbEntry s i) == fid % 4096 && fdbMac (fdbEntry s i) == mac

/-! ### Link aggregation (R94 to R96) -/

/-- Member index `i` of a link aggregation entry names a front port: the port. -/
def lagMember (e i : Nat) : Option Nat :=
  let p := bits e (7 * i + 6) (7 * i)
  if i ≤ bits e 124 121 ∧ p < 64 then some p else none

/-- The distribution set of group `g`: its member indexes whose ports are UP (R96). -/
def lagSet (s : State) (g : Nat) : List Nat :=
  let e := tabN s 0x04 g
  if !bitAt e 127 then []
  else (List.range 16).filter fun i => match lagMember e i with | some p => portUp s p | none => false

/-- The slots of group `g` in order, each with its member when that is in the distribution set, and otherwise the next
replacement (R96). -/
def lagFill (e : Nat) (members : List Nat) : Nat → List Nat → List Nat
  | _, [] => []
  | k, i :: l =>
    if i ∈ members then (lagMember e i).getD 127 :: lagFill e members k l
    else
      ((members[k % members.length]?).bind (lagMember e)).getD 127 :: lagFill e members (k + 1) l

/-- The effective distribution of group `g`: the port of each of its 256 slots, none when the set is empty (R96). -/
def lagEffective (s : State) (g : Nat) : List Nat :=
  let members := lagSet s g
  if members.isEmpty then []
  else
    let slots := (List.range 256).map fun i =>
      let e := tabN s 0x05 (4 * g + i / 64)
      bits e (i % 64 * 4 + 3) (i % 64 * 4)
    lagFill (tabN s 0x04 g) members 0 slots

/-- The bytes of the fields that LAG_HASH_SEL selects, in the order of R95. -/
def lagFields (f : Frame) (sel : Nat) : List Byte :=
  let p := f.parsed
  let ip := fun (v : Nat) => if p.l3 = 0 then beBytes 16 0 else beBytes 16 v
  let part := fun (k : Nat) (b : List Byte) => if bitAt sel k then b else []
  part 0 (beBytes 1 f.inPort) ++ part 1 (slice f.bytes 0 6) ++ part 2 (slice f.bytes 6 6) ++ part 3 (beBytes 2 f.vid) ++
  part 4 (beBytes 2 p.etype) ++ part 5 (ip p.sa) ++ part 6 (ip p.da) ++ part 7 (beBytes 1 p.proto) ++
  part 8 (beBytes 2 p.sport) ++ part 9 (beBytes 2 p.dport) ++ part 10 (beBytes 4 p.flow) ++ part 11 (beBytes 2 p.session)

/-- The slot of group `g` that a frame's hash chooses (R95). -/
def lagSlot (s : State) (f : Frame) (g : Nat) : Nat :=
  let sel := fld s (0x602040 + bits (tabN s 0x04 g) 126 125 * 4) 11 0
  let h := crc32c (beBytes 4 (rd s 0x602050) ++ lagFields f sel)
  bits h 7 0 ^^^ bits h 15 8 ^^^ bits h 23 16 ^^^ bits h 31 24

/-- The port to which group `g` sends a frame; 127 when its distribution set is empty (R96). -/
def lagPort (s : State) (f : Frame) (g : Nat) : Nat :=
  match sget (fun _ => []) s.fdb.lag g with
  | [] => 127
  | l => l.getD (lagSlot s f g) 127

/-! ### Destination sets (R90 to R93) -/

/-- Port `p` may receive a flooded copy: it does not share the ingress port's place, forwards, and is UP or HOLD (R91). -/
def floodable (s : State) (f : Frame) (p : Nat) : Bool :=
  p ≠ f.inPort &&
  !((lagOf s f.epoch p).isSome && lagOf s f.epoch p == lagOf s f.epoch f.inPort) &&
  mstpState s (vlanMsti (vlanEntry s f.epoch f.vid)) p == 2 &&
  (p = 64 || portState s p == 2 || portState s p == 3)

/-- Each group among the ports is reduced to one member, at the place of its first port (R91, R95). -/
def reduceLags (s : State) (f : Frame) (ports : List Nat) : List Nat :=
  (ports.foldl (fun (acc : List Nat × List Nat) p =>
    match lagOf s f.epoch p with
    | none => (acc.1 ++ [p], acc.2)
    | some g => if g ∈ acc.2 then acc else (acc.1 ++ [lagPort s f g], g :: acc.2)) ([], [])).1

/-- The flood set (R91). -/
def floodSet (s : State) (f : Frame) : List Nat :=
  let v := vlanEntry s f.epoch f.vid
  reduceLags s f ((List.range 65).filter fun p => vlanMember v p && floodable s f p)

/-- The copies of a multicast group's entry (R93). A group whose set is empty keeps its refused copy. -/
def groupSet (s : State) (f : Frame) (e : Nat) : List Nat :=
  let ports := (List.range 65).filter fun p => bitAt e (62 + p) && floodable s f p
  let lags := (List.range 32).filter fun g => bitAt e (30 + g) && lagOf s f.epoch f.inPort != some g
  ports ++ ((lags.map fun g => lagPort s f g).filter fun p => p == 127 || floodable s f p)

/-- The destination set with its reason when it is empty: a lookup that misses (R90). -/
def missSet (s : State) (f : Frame) : List Nat × Nat :=
  let v := vlanEntry s f.epoch f.vid
  let flood := fun (_ : Unit) => (floodSet s f, 0x1D)
  if isBroadcast f.bytes then flood ()
  else if isGroup f.bytes then (if bitAt v 252 then flood () else ([], 0x1B))
  else if bitAt v 253 then flood () else ([], 0x1A)

/-- The destination set of DEST_TYPE and DEST, with its reason when it is empty (R90 to R93). -/
def destSet (s : State) (f : Frame) (dest : Nat) (override : Bool) : List Nat × Nat :=
  let n := bits dest 13 0
  match bits dest 15 14 with
  | 0 =>
    if 64 < n then ([], 0x19)
    else if n = f.inPort ∧ !override then ([], 0x1C) else ([n], 0)
  | 1 =>
    if 31 < n then ([], 0x19)
    else if lagOf s f.epoch f.inPort = some n ∧ !override then ([], 0x1C) else ([lagPort s f n], 0)
  | 2 =>
    let e := tabN s 0x03 n
    if bitAt e 127 then (groupSet s f e, 0x1D) else missSet s f
  | _ => ([], 0x19)

/-- The destination set of a frame (R90). -/
def destinations (s : State) (f : Frame) (override : Option Nat) : List Nat × Nat :=
  match override with
  | some d => destSet s f d true
  | none =>
    match fdbFind s (vlanFid (vlanEntry s f.epoch f.vid)) (beAt f.bytes 0 6) with
    | some i => destSet s f (fdbDest (fdbEntry s i)) false
    | none => missSet s f

/-! ### Learn requests (R98, R99) -/

/-- D of R98: the ingress port's group, or the ingress port. -/
def learnDest (s : State) (f : Frame) : Nat :=
  match lagOf s f.epoch f.inPort with
  | some g => 2 ^ 14 + g
  | none => f.inPort

/-- A forwarding page is in its fault-safe action: learning stops (R35). -/
def learningStopped (s : State) : Bool := (List.range 4).any fun k => flag s (0x600008 + k * 0x1000) 31

/-- The frame issues a learn request (R98). -/
def learns (s : State) (f : Frame) (noLearn : Bool) : Bool :=
  let v := vlanEntry s f.epoch f.vid
  let sa := beAt f.bytes 6 6
  flag s 0x60004C 31 && bitAt v 254 && bitAt (fwdConfig s f.epoch f.inPort) 31 && !noLearn &&
  !(bitAt (sa / 2 ^ 40) 0) && sa ≠ 0 &&
  (match fdbFind s (vlanFid v) sa with
   | none => true
   | some i =>
     let e := fdbEntry s i
     !(fdbDest e == learnDest s f && (fdbAge e == 0 || fdbStatic e || fdbLocked e)))

/-- A learn request joins the serialiser's queue, or is discarded when the queue is full (R99). -/
def requestLearn (s : State) (f : Frame) (noLearn : Bool) : State :=
  if role s ≠ 3 ∨ learningStopped s ∨ !learns s f noLearn then s
  else if 1024 ≤ s.fdb.learnQ.length then raise (count s 3956 1) (.fwd 0) 2
  else
    { s with fdb := { s.fdb with learnQ := s.fdb.learnQ ++
      [⟨vlanFid (vlanEntry s f.epoch f.vid), beAt f.bytes 6 6, learnDest s f, f.slice, f.inPort⟩] } }

end Sys2Proof.Machine
end

