-- ==== Sys2Proof/Machine/Capture.lean ====
section
/-! DEFINITION. What observes the traffic without touching it (R318 to R328): mirror marks and sampling, capture records and
their ring, traces and theirs. -/

namespace Sys2Proof.Machine

/-! ### Sampling and marks (R318, R319) -/

/-- One draw of a slice's sampling generator: true with probability one in `n` (R319). A value of 0 or 1 takes every frame
and draws nothing. -/
def drawOneIn (s : State) (slice n : Nat) : Bool × State :=
  if n ≤ 1 then (true, s)
  else
    let v := sliceAt s slice
    let w := (Config.sample v.sampler).toNat
    (w % n == 0, setSlice s slice { v with sampler := w })

/-- Port `p` is in the port mask whose first word is at `a`. -/
def portInMask (s : State) (a p : Nat) : Bool := flag s (a + p / 32 * 4) (p % 32)

/-- TX_PORTS of a session as one number. -/
def txMask (s : State) (n : Nat) : Nat :=
  rd s (0xE060 + n * 0x40) + rd s (0xE064 + n * 0x40) * 2 ^ 32 + rd s (0xE068 + n * 0x40) * 2 ^ 64

/-- Session `n` decides about a frame at stage 8. -/
def markFor (f : Frame) (r : List Mark × State) (n : Nat) : List Mark × State :=
  let s := r.2
  let b := 0xE040 + n * 0x40
  if !flag s b 31 then r
  else
    let (taken, s) := drawOneIn s f.slice (fld s (b + 8) 23 0)
    if !taken then (r.1, s)
    else (r.1 ++ [{ session := n, config := rd s b, carrier := rd s (b + 4),
                    rx := portInMask s (b + 0x10) f.inPort || f.ruleMark == some n, tx := txMask s n }], s)

/-- The marks that a frame takes at stage 8, once; a rule's mark stays with a frame that is dropped before (R79, R318). -/
def decideMarks (s : State) (f : Frame) : List Mark × State :=
  if f.marked then (f.marks, s) else (List.range 16).foldl (markFor f) ([], s)

def markIngress (m : Mark) : Bool := bitAt m.config 30 && m.rx
def markEgress (m : Mark) (p : Nat) : Bool := bitAt m.config 29 && bitAt m.tx p
def markDrop (m : Mark) : Bool := bitAt m.config 28 && m.rx

/-- A session's copies go to the capture ring. -/
def toCapture (config : Nat) : Bool := bitAt config 27 || 64 ≤ bits config 26 20

/-- DEST_PORT of a session. -/
def mirrorPort (config : Nat) : Nat := bits config 26 20

/-- The mirror queue of a session's front-port destination (R321). -/
def mirrorQueue (s : State) (e config : Nat) : Nat :=
  8 * bits (tabEpoch s e 0x11 (portIdx (mirrorPort config))) 127 114 + bits config 19 17

/-- A mirror copy of a session is refused or released (R320, R322). -/
def refuseMirror (s : State) (session : Nat) : State := raise (count s (545 + 2 * session) 1) .mirror 1

/-! ### Capture records (R323, R324) -/

/-- The snap length in bytes. -/
def snapBytes (s : State) : Nat := [64, 128, 256, 256].getD (fld s 0xE440 29 28) 256

/-- What a capture record says beside the frame. -/
structure CaptureInfo where
  /-- 0 ingress, 1 egress, 2 drop. -/
  direction : Nat
  session : Nat
  reason : Nat := 0
  spill : Nat := 0
  length : Nat
  outPort : Nat := 127
  queue : Option Nat := none
  edit : Nat := 0
  /-- Device time in ns of the record's instant. -/
  time : Nat
  deriving DecidableEq, Repr

/-- The eight metadata words. -/
def captureWords (f : Frame) (i : CaptureInfo) (capLen seq : Nat) : List Nat :=
  [ i.direction * 2 ^ 30 + i.session * 2 ^ 26 + i.reason * 2 ^ 18 + i.spill * 2 ^ 16 + bit (capLen < i.length) * 2 ^ 15 +
      f.epoch % 2 * 2 ^ 14 + i.length % 2 ^ 14,
    f.inPort * 2 ^ 25 + i.outPort * 2 ^ 18 + f.cls * 2 ^ 15 + f.colour * 2 ^ 13 + capLen,
    bit i.queue.isSome * 2 ^ 31 + f.sub * 2 ^ 17 + i.queue.getD 0,
    i.edit * 2 ^ 24 + f.vid * 2 ^ 12,
    i.time % 1000000000, i.time / 1000000000 % 2 ^ 32, i.time / 125000 % 2 ^ 32, seq ]

/-- A record that the capture engine cannot hold or write. -/
def captureLost (s : State) : State := raise (count s 577 1) .mirror 0

/-- The capture engine makes a record of the first bytes of a frame; it counts as a copy of the session when it is taken. -/
def makeCapture (s : State) (f : Frame) (i : CaptureInfo) (bytes : List Byte) : State :=
  let snap := snapBytes s
  let cap := min snap bytes.length
  let ws := captureWords f i cap s.captureSeq
  let s := { s with captureSeq := (s.captureSeq + 1) % 2 ^ 32 }
  if 1024 ≤ s.captures.length then captureLost s
  else
    let rec_ := (ws.flatMap (leBytes 4)) ++ bytes.take cap ++ List.replicate (snap - cap) 0
    count { s with captures := s.captures ++ [rec_] } (544 + 2 * i.session) 1

/-- Little-endian words of a byte string. -/
def wordsOf (bs : List Byte) : List Nat := (List.range ((bs.length + 3) / 4)).map fun k => leNat (slice bs (4 * k) 4)

/-- CXL_PORT_STATUS.STATE: 0 OFF, 1 TRAINING, 2 ENUMERATING, 3 READY, 4 FAILED, 5 SANITIZING. -/
def cxlState (s : State) (c : Nat) : Nat := fld s (0x408048 + c * 0x1000) 31 28

/-- Write bytes at offset `at_` of a ring of `size` bytes that the table `t` shows in 64-byte entries, wrapping. -/
def ringBytes (s : State) (t size : Nat) : Nat → List Byte → State
  | _, [] => s
  | at_, b :: bs =>
    let i := at_ / 64
    let off := at_ % 64
    let v := putBits (tabN s t i) (8 * off + 7) (8 * off) b.toNat
    ringBytes (setTab s t i (BitVec.ofNat 512 v)) t size (if at_ + 1 < size then at_ + 1 else 0) bs

/-- The spill address of a 4 KiB unit of port `c` (R186). -/
def spillAddress (c unit : Nat) : Nat := c * 2 ^ 38 + unit * 4096

/-- A request to port `c` at byte `off` of the unit `unit`: the spill address in two words, and what goes with it. -/
def cxlRequest (c unit off : Nat) (ws : List Nat) : Out :=
  .cxl c ((spillAddress c unit % 2 ^ 32 + off) :: spillAddress c unit / 2 ^ 32 :: ws)

/-- A 64-byte line of a 4 KiB unit as it is written, encrypted under R173 with the unit's spill address as the tweak (R325). -/
def sealedLine (s : State) (c unit off line : Nat) : List Nat :=
  (List.range 4).flatMap fun j =>
    let v := (Config.spillCipher (rd s 0x404054) (c * 2 ^ 40 + spillAddress c unit) (off / 16 + j)
      (BitVec.ofNat 128 (bits line (128 * j + 127) (128 * j)))).toNat
    (List.range 4).map fun k => bits v (32 * k + 31) (32 * k)

/-- A record of the ring that table `t` shows, from unit `base` of port `c` on, is written at offset `at_`: its bytes, and a write of every
line that it touches (R325). -/
def ringStore (s : State) (t c base size at_ : Nat) (bs : List Byte) : State :=
  let n := ceilDiv (at_ % 64 + bs.length) 64
  let s := count (ringBytes s t size at_ bs) (3932 + 5 * c) n
  (List.range n).foldl (fun s k =>
    let a := (at_ / 64 + k) * 64 % size
    emit s (cxlRequest c (base + a / 4096) (a % 4096) (sealedLine s c (base + a / 4096) (a % 4096) (tabN s t (a / 64))))) s

/-- A spill-memory ring can be written: not frozen, of some size, on a READY port, under a spill key (R325). -/
def spillRingOpen (s : State) (frozen : Bool) (port size : Nat) : Bool :=
  !frozen && size ≠ 0 && cxlState s port == 3 && s.colophon.spillKey

/-- The oldest pending capture record is written to its ring, or discarded. -/
def captureWrite (s : State) : State :=
  match s.captures with
  | [] => s
  | r :: rest =>
    let s := { s with captures := rest }
    if !flag s 0xE440 31 then
      if eventRoom s 1 r.length then eventWrite (count s 576 1) 1 (wordsOf r) else captureLost s
    else
      let size := fld s 0xE444 25 0 * 4096
      if spillRingOpen s (flag s 0xE440 30) (fld s 0xE440 27 26) size then
        let head := rd s 0xE448
        wr (ringStore (count s 576 1) 0x18 (fld s 0xE440 27 26) (fld s 0xE440 25 0) size (head % size) r) 0xE448 ((head + r.length) % size)
      else captureLost s

/-! ### Traces (R326 to R328) -/

/-- One draw of a slice's tracer, which is independent of mirror sampling: true with probability 2^-`k` (R326). -/
def drawTrace (s : State) (slice k : Nat) : Bool × State :=
  if k = 0 then (true, s)
  else
    let v := sliceAt s slice
    let w := (Config.sample v.tracer).toNat
    (w % 2 ^ k == 0, setSlice s slice { v with tracer := w })

/-- A frame's SFD reaches its wake FIFO: whether it is tagged (R326). -/
def traceDraw (s : State) (slice : Nat) : Bool × State :=
  if !flag s 0xF040 31 then (false, s)
  else
    let (hit, s) := drawTrace s slice (fld s 0xF040 28 24)
    if !hit then (false, s)
    else
      let v := sliceAt s slice
      if 4 ≤ v.tracing then (false, count s 580 1)
      else (true, setSlice s slice { v with tracing := v.tracing + 1 })

/-- A trace that begins at the SFD. -/
def newTrace (s : State) (woke : Bool) : Trace :=
  { points := List.replicate 6 none, woke, runClock := fld s 0x3050 31 30 }

/-- Stage point `k` of a frame's trace is reached now: 0 PARSE, 1 LOOKUP, 2 ADMIT, 3 ENQUEUE, 4 DEQUEUE, 5 EGRESS. -/
def tracePoint (s : State) (f : Frame) (k : Nat) : Frame :=
  match f.trace with
  | none => f
  | some t => { f with trace := some { t with points := t.points.set k (some (now s - f.sfd)) } }

/-- The copy is the one that the frame's trace follows. -/
def traceFollows (f : Frame) (c : Copy) : Bool :=
  match f.trace, c.kind with
  | some t, .forward => t.port == c.port
  | some t, .trap _ => t.port == c.port
  | _, _ => false

/-- The sixteen words of a trace record. -/
def traceWords (f : Frame) (t : Trace) (reason : Nat) (c : Option Copy) (seq : Nat) : List Nat :=
  let pt := fun k => match t.points.getD k none with | none => 0xFFFFFFFF | some n => n % 2 ^ 32
  let q := match c with | none => 0 | some c => c.queue
  [ 2 ^ 28 + reason * 2 ^ 20 + bit f.spilled * 2 ^ 19 + bit ((c.map (·.cut)).getD false) * 2 ^ 18 + q,
    f.inPort * 2 ^ 25 + t.port * 2 ^ 18 + f.cls * 2 ^ 15 + f.colour * 2 ^ 13,
    ((c.map (·.catchword)).getD 0) * 2 ^ 16 + (if f.ended then f.bytes.length else f.metered) % 2 ^ 14,
    f.sfdDev % 1000000000, f.sfdDev / 1000000000 % 2 ^ 32, pt 0, pt 1, pt 2, pt 3, pt 4, pt 5,
    bit t.inSpill * 2 ^ 31 + t.depth % 2 ^ 19, t.held % 2 ^ 26, f.sfdDev / 125000 % 2 ^ 32,
    bit t.woke * 4 + t.runClock, seq ]

/-- A trace ends: its record waits for the trace ring. Before the enqueue it also leaves its slice's count. -/
def traceEnd (s : State) (f : Frame) (reason : Nat) (c : Option Copy) : Frame × State :=
  match f.trace with
  | none => (f, s)
  | some t =>
    let s := { s with traces := s.traces ++ [traceWords f t reason c s.traceSeq], traceSeq := (s.traceSeq + 1) % 2 ^ 32 }
    let v := sliceAt s f.slice
    let s := if t.enqueued then s else setSlice s f.slice { v with tracing := v.tracing - 1 }
    ({ f with trace := none }, s)

/-- The trace of frame `i` ends with a drop of its followed copy. -/
def traceDrop (s : State) (i reason : Nat) (c : Copy) : State :=
  let f := frameAt s i
  if traceFollows f c then
    let (f, s) := traceEnd s f reason (some c)
    setFrame s i f
  else s

/-- The record's frame waits with a trace in the device-wide table. -/
def recordTraced : SheetRecord → Bool
  | .frame _ f => f.trace.isSome
  | .skip _ _ => false

/-- Traces that wait between enqueue and egress start or drop, on chip and in sheets (R326). -/
def tracesWaiting (s : State) : Nat :=
  let onChip := (s.frames.filter fun e => match e.2.trace with | some t => t.enqueued | none => false).length
  let inSheets := s.queues.foldl (fun n e => match e.2.spill with
    | none => n
    | some c => n + (c.index.flatMap fun sh => sh.records.filter recordTraced).length) 0
  onChip + inSheets

/-- The followed copy is linked: the trace moves from its slice to the device-wide table, or is abandoned when that holds
1,024 traces. -/
def traceEnqueue (s : State) (i : Nat) (c : Copy) (inSpill : Bool) (depth held : Nat) : State :=
  let f := frameAt s i
  match f.trace with
  | none => s
  | some t =>
    if !traceFollows f c then s
    else
      let v := sliceAt s f.slice
      let s := setSlice s f.slice { v with tracing := v.tracing - 1 }
      if 1024 ≤ tracesWaiting s then tally (setFrame s i { f with trace := none }) 0xF098
      else setFrame s i (tracePoint s { f with trace := some { t with inSpill, depth, held, enqueued := true } } 3)

/-- The oldest trace record is written to its ring, or discarded. -/
def traceWrite (s : State) : State :=
  match s.traces with
  | [] => s
  | r :: rest =>
    let s := { s with traces := rest }
    let lost := fun (s : State) => raise (count s 579 1) .tracer 0
    if !flag s 0xF040 30 then
      if eventRoom s 2 64 then eventWrite (count s 578 1) 2 r else lost s
    else
      let size := fld s 0xF048 25 0 * 4096
      if spillRingOpen s (flag s 0xF040 29) (fld s 0xF040 21 20) size then
        let head := rd s 0xF04C
        wr (ringStore (count s 578 1) 0x19 (fld s 0xF040 21 20) (fld s 0xF044 25 0) size (head % size) (r.flatMap (leBytes 4))) 0xF04C
          ((head + 64) % size)
      else lost s

/-! ### The commands -/

/-- CAPTURE_RECORD: a pending capture record meets its ring (R324). -/
def execCaptureRecord (s : State) : Res := done (captureWrite s)

/-- TRACE_RECORD: a trace record meets its ring (R327, R328). -/
def execTraceRecord (s : State) : Res := done (traceWrite s)

end Sys2Proof.Machine
end

