-- ==== Sys2Proof/Machine/Queueing.lean ====
section
/-! DEFINITION. Queues (R131, R152, R157): linking a copy, entry to and exit from spill state, the egress order check (R170), and
the drop of a copy after its admission. -/

namespace Sys2Proof.Machine

/-! ### Spill fields of a queue's profile -/

/-- The queue profile of a queue as the current epoch applies it (R138). -/
def queueProfile (s : State) (q : Nat) : Nat := bits (tabCur s 0x11 q) 127 122

def spillOn (s : State) (q : Nat) : Nat := fld s (0x405044 + queueProfile s q * 16) 18 0
def spillQuota (s : State) (q : Nat) : Nat := fld s (0x405040 + queueProfile s q * 16) 25 0
/-- The effective PREFETCH_LOW and SPILL_OFF (R155). -/
def prefetchLow (s : State) (q : Nat) : Nat := min (fld s (0x40504C + queueProfile s q * 16) 18 0) (spillOn s q)
def spillOff (s : State) (q : Nat) : Nat := min (fld s (0x405048 + queueProfile s q * 16) 18 0) (prefetchLow s q)

/-- The device spill knob (R19). -/
def spillKnob (s : State) : Bool := bitAt (rdCur s 0x3040) 24

/-- The ports on which sheets may be placed: SPILL_CONTROL.PLACE. -/
def placePorts (s : State) : List Nat := (List.range 4).filter fun c => flag s 0x404040 (28 + c)

/-- Spill contexts in use. -/
def contextsUsed (s : State) : Nat := (s.queues.filter fun e => e.2.spill.isSome).length

/-- The size of a sheet of a pool in 4 KiB units. -/
def poolUnits (k : Nat) : Nat := 4 ^ k

/-- The 64-byte blocks of a record: its 32-byte header and its bytes (R158, R160). -/
def recordBlocks : SheetRecord → Nat
  | .frame _ f => ceilDiv (32 + f.bytes.length) 64
  | .skip _ _ => 1

/-- The content size of a batch in 64-byte blocks: header, directory and records. -/
def contentBlocks (rs : List SheetRecord) : Nat :=
  1 + ceilDiv (2 * rs.length) 64 + rs.foldl (fun n r => n + recordBlocks r) 0

/-- SPILL_BYTES of R156: the sheets the queue holds, and the content of its batches in flight. -/
def spillBytes (c : SpillCtx) : Nat :=
  c.index.foldl (fun n sh => n + if sh.abandoned then 0 else if sh.writing then sh.blocks * 64 else poolUnits sh.pool * 4096) 0

/-- SPILL_BYTES of a queue in 4 KiB units, rounded up. -/
def spillHeld (s : State) (q : Nat) : Nat :=
  match (queueAt s q).spill with | none => 0 | some c => ceilDiv (spillBytes c) 4096

/-- Leaves of the copies in a segment. -/
def segmentLeaves (s : State) (l : List QItem) : Nat :=
  l.foldl (fun n x => match x with | .copy c => n + copyLeaves s c | .skip _ _ => n) 0

/-- The leaves of a queue's tail: with them those of a closed batch that waits for a sheet. -/
def tailLeaves (s : State) (v : Queue) : Nat :=
  segmentLeaves s v.tail + segmentLeaves s ((v.spill.bind (·.waiting)).getD [])

/-- The on-chip leaves that the spill thresholds count: head segment, tail segment and prefetch reservations (R152). -/
def linkedLeaves (s : State) (q : Nat) : Nat :=
  let v := queueAt s q
  segmentLeaves s v.head + tailLeaves s v +
    (match v.spill with | none => 0 | some c => c.index.foldl (fun n sh => n + sh.reserved) 0)

/-! ### The egress order check (R170) -/

/-- A value is compared with the queue's expected catchword, which then becomes `next`. -/
def orderCheck (s : State) (q value next : Nat) : State :=
  let v := queueAt s q
  let s' := setQueue s q { v with expected := next % 65536 }
  if v.expected = value then s'
  else
    let s' := report (raise (count s' 3927 1) (.spill 0) 2) 0x0407 (.spill 0) [q, v.expected, value]
    if flag s' 0x404070 31 then s'
    else wr (wr s' 0x404070 (2 ^ 31 + q)) 0x404074 (v.expected * 65536 + value)

/-- Skip notices at the front of a queue's head segment meet the order check. -/
def settleSkips (s : State) (q : Nat) : List QItem → State
  | .skip first last :: rest =>
    settleSkips (orderCheck (setQueue s q { queueAt s q with head := rest }) q first last) q rest
  | _ => s

/-- The head of a queue is brought to its first copy; a cut-through copy that the port holds comes before it (R145). -/
def settleHead (s : State) (q : Nat) : State :=
  if (queueAt s q).cutHeld = 0 then settleSkips s q (queueAt s q).head else s

/-! ### Spill state (R152, R153, R155) -/

/-- The queue hangs under the host port's node. -/
def underHost (s : State) (q : Nat) : Bool := queuePort s q == some 64

/-- The queue could spill but for a free context. -/
def spillWanted (s : State) (q : Nat) : Bool :=
  spillKnob s && spillQuota s q ≠ 0 && !underHost s q && !(placePorts s).isEmpty && spillOn s q < linkedLeaves s q

/-- A queue meets the entry test after a link (R152). -/
def spillEntry (s : State) (q : Nat) : State :=
  let v := queueAt s q
  if v.spill.isSome then s
  else if !spillWanted s q then (if v.contextFull then setQueue s q { v with contextFull := false } else s)
  else if contextsUsed s < 16384 then setQueue s q { v with spill := some {}, contextFull := false }
  else if v.contextFull then s
  else raise (tally (setQueue s q { v with contextFull := true }) 0x404148) (.spill 0) 6

/-- A queue that found no context and has fallen to SPILL_ON may cross it anew (R152). -/
def crossDown (s : State) (q : Nat) : State :=
  if (queueAt s q).contextFull && linkedLeaves s q ≤ spillOn s q then setQueue s q { queueAt s q with contextFull := false } else s

/-- A queue leaves spill state when nothing of it is outstanding (R155): its tail joins its head. -/
def spillExit (s : State) (q : Nat) : State :=
  let v := queueAt s q
  match v.spill with
  | none => crossDown s q
  | some c =>
    if c.index.isEmpty && c.waiting.isNone && !c.flushing && (c.sub == .draining || linkedLeaves s q < spillOff s q) then
      settleHead (setQueue s q { v with head := v.head ++ v.tail, tail := [], spill := none }) q
    else s

/-! ### Taking a copy -/

/-- The copy at the head of a queue. -/
def headCopy (s : State) (q : Nat) : Option Copy :=
  match (queueAt s q).head with
  | .copy c :: _ => some c
  | _ => none

/-- A copy leaves the queue: from its head after the order check, or past it under cut-through. -/
def takeCopy (s : State) (c : Copy) : State :=
  let s := { s with startup := { s.startup with lastDequeue := now s } }
  let v := queueAt s c.queue
  let s := if c.cut then setQueue s c.queue { v with cutHeld := v.cutHeld - 1 }
    else setQueue s c.queue { v with head := v.head.erase (.copy c) }
  crossDown (settleDeficits (settleHead (orderCheck s c.queue c.catchword (c.catchword + 1)) c.queue) c.queue) c.queue

/-! ### Counts of a copy (R306) -/

/-- The length under which a frame is counted: its true length once it has ended. -/
def frameLen (f : Frame) : Nat := if f.ended then f.bytes.length else f.metered

/-- The group node under which a queue is scheduled. -/
def queueGroup (s : State) (q : Nat) : Nat := subParent (schedEntry s (subIdx (q / 8)))

/-- A copy of `len` bytes is dropped for queue `q`. -/
def countQueueDrop (s : State) (q len : Nat) : State :=
  countBoth (countQueue s q 4 len) (groupCounters (queueGroup s q)) 2 len

/-! ### Egress mirror copies (R320) -/

/-- A sharer held for a mirror copy lets go. -/
def releaseMirror (s : State) (c : Copy) (config : Nat) : State :=
  if toCapture config then releaseSharer s c.frame c.phys else releaseCopy s c

/-- The frame that holds the egress mirror copies of a copy: the original one for a frame back from a sheet. -/
def mirrorHome (f : Frame) (i : Nat) : Nat := if f.origin = 0 then i else f.origin - 1

/-- The egress mirror copies that wait for the source copy of port `p`. -/
def mirrorsOf (s : State) (home p : Nat) : List Copy := (frameAt s home).copies.filter fun m => m.source == p

/-- The source copy for port `p` is gone: its egress mirror copies are released and counted REFUSED. -/
def releaseMirrorsOf (s : State) (home p : Nat) : State :=
  let ms := mirrorsOf s home p
  let f := frameAt s home
  let s := if ms.isEmpty then s else setFrame s home { f with copies := f.copies.filter fun m => m.source != p }
  ms.foldl (fun s m => match m.kind with
    | .mirrorTx n config _ => refuseMirror (releaseMirror s m config) n
    | _ => s) s

/-! ### Drops after admission (R309, R322) -/

/-- SPILL of capture metadata: 1 back from a sheet, 2 on chip in a queue in spill state, 3 lost or released in spill memory. -/
def spillCode (s : State) (f : Frame) (q : Nat) : Nat :=
  if f.spilled then 1 else if (queueAt s q).spill.isSome then 2 else 0

/-- Drop captures of a copy: records for the capture ring alone (R322). `bytes` is none where the bytes are no longer held. -/
def dropCaptures (s : State) (f : Frame) (c : Copy) (reason spill len : Nat) (bytes : List Byte) : State :=
  f.marks.foldl (fun s m =>
    if markDrop m && toCapture m.config then
      makeCapture s f { direction := 2, session := m.session, reason, spill, length := len, outPort := c.port,
                        queue := some c.queue, time := devNs s } bytes
    else s) s

/-- A forwarding copy is dropped after its admission: its counts, its trace, its mirror copies and its captures. -/
def countCopyDrop (s : State) (f : Frame) (c : Copy) (reason : Nat) : State :=
  countQueueDrop (countDrop s reason 1) c.queue (frameLen f)

/-- A linked mirror copy is discarded: it is counted for its queue, REFUSED in its session, and under no reason of R309 (R306, R320). -/
def dropMirror (s : State) (c : Copy) (session len : Nat) : State :=
  refuseMirror (releaseCopy (countQueueDrop s c.queue len) c) session

/-- A copy held on chip is dropped: it lets go of everything it holds. -/
def dropCopy (s : State) (c : Copy) (reason : Nat) : State :=
  let f := frameAt s c.frame
  match c.kind with
  | .mirrorRx n _ _ => dropMirror s c n (frameLen f)
  | .mirrorTx n _ _ => dropMirror s c n (frameLen f)
  | .mirrorDrop n _ _ => dropMirror s c n (frameLen f)
  | _ =>
    let s := countCopyDrop s f c reason
    let s := dropCaptures s f c reason (spillCode s f c.queue) (frameLen f) f.bytes
    let s := releaseMirrorsOf s (mirrorHome f c.frame) c.port
    releaseCopy (traceDrop s c.frame reason c) c

/-- A stale copy is discarded (R150, R151). -/
def dropStale (s : State) (c : Copy) : State := raise (count (dropCopy s c 0x29) 3916 1) (.buffer 0) 2

/-- A flushed copy is counted against its port as well (R62). -/
def dropFlushed (s : State) (c : Copy) : State :=
  let len := frameLen (frameAt s c.frame)
  let s := dropCopy s c 0x2A
  if c.port < 64 then count (count s (portCounter c.port 0) 1) (portCounter c.port 1) len else s

/-! ### Linking (R131, R157, R320) -/

/-- A copy takes the queue's next catchword. -/
def takeCatchword (s : State) (c : Copy) : Copy × State :=
  let v := queueAt s c.queue
  ({ c with catchword := v.next }, setQueue s c.queue { v with next := (v.next + 1) % 65536 })

/-- The copy joins its queue: the tail segment of a queue in spill state, and its only list otherwise. -/
def joinQueue (s : State) (c : Copy) : State :=
  let v := queueAt s c.queue
  match v.spill with
  | none => setQueue s c.queue { v with head := v.head ++ [.copy c] }
  | some x => setQueue s c.queue { v with tail := v.tail ++ [.copy c], spill := some { x with opened := x.opened.or (some (now s)) } }

/-- A copy becomes queued for a port: a sleeping slice of that port starts to wake (R290). -/
def wakeForQueue (s : State) (q : Nat) : State :=
  match queuePort s q with
  | some p => if p < 64 then wakeSlice s (sliceOf p) else s
  | none => s

/-- The enqueue counts of a copy: at once, or at its frame's end where that has not come (R306). -/
def countEnqueue (s : State) (c : Copy) : State :=
  let f := frameAt s c.frame
  if f.ended then countQueue s c.queue 0 f.bytes.length
  else setFrame s c.frame { f with lateEnq := f.lateEnq ++ [c.queue] }

/-- A copy is linked: its catchword, its counts, and the test of spill entry. -/
def linkCopy (s : State) (c : Copy) : State :=
  let inSpill := (queueAt s c.queue).spill.isSome
  let depth := (queueAt s c.queue).leaves - copyLeaves s c
  let held := spillHeld s c.queue
  let (c, s) := takeCatchword s c
  let s := joinQueue s c
  let s := traceEnqueue (countEnqueue s c) c.frame c inSpill depth held
  wakeForQueue (spillEntry s c.queue) c.queue

/-- The front port is being flushed (PORT_STATUS.STATE FLUSHING). -/
def portFlushing (s : State) (p : Nat) : Bool := p < 64 && portState s p == 4

/-- A stored copy whose frame has ended well is linked, or freed as FLUSHED where its port is being flushed (R62). -/
def enqueueCopy (s : State) (c : Copy) : State :=
  if portFlushing s c.port then dropFlushed s c else linkCopy s c

end Sys2Proof.Machine
end

