-- ==== Sys2Proof/Machine/Spill.lean ====
section
/-! DEFINITION. The spill path (R154 to R177): batches, sheets and their index, the pool manager, prefetch and the collator, age
limits, flushes, and the spill commands. -/

namespace Sys2Proof.Machine

/-! ### Small accessors -/

def partAt (s : State) (c k : Nat) : Partition := sget (fun _ => {}) s.spill.partitions (4 * c + k)
def setPart (s : State) (c k : Nat) (v : Partition) : State :=
  { s with spill := { s.spill with partitions := sset (fun _ => {}) s.spill.partitions (4 * c + k) v } }

/-- Set the spill context of a queue. -/
def setCtx (s : State) (q : Nat) (c : SpillCtx) : State := setQueue s q { queueAt s q with spill := some c }

/-- A partition that has a free sheet in its cache (R161). -/
def available (s : State) (c k : Nat) : Bool := (partAt s c k).started && !(partAt s c k).cache.isEmpty

def cxlLinkAt (s : State) (c : Nat) : CxlLink := sget (fun _ => {}) s.spill.links c
def setCxlLink (s : State) (c : Nat) (v : CxlLink) : State :=
  { s with spill := { s.spill with links := sset (fun _ => {}) s.spill.links c v } }

/-- Sheets and index blocks held on port `c`: SHEETS_HELD_c. -/
def sheetsHeld (s : State) (c : Nat) : Nat :=
  let inQueues := s.queues.foldl (fun n e => match e.2.spill with
    | none => n
    | some x => n + (x.index.filter fun sh => sh.port == c && !sh.abandoned).length +
        (x.indexBlocks.flatMap fun b => b.copies.filter fun a => a.1 == c).length) 0
  inQueues + (s.spill.releasing.filter fun e => e.2.port == c).length

/-- PORT_DRAINED when a port without PLACE holds nothing any more (R176). -/
def drainedCheck (s : State) (c : Nat) : State :=
  if !flag s 0x404040 (28 + c) ∧ sheetsHeld s c = 0 then raise s (.spill 0) 5 else s

/-! ### Records -/

/-- The first catchword of a record, and the one after it. -/
def recordRange : SheetRecord → Nat × Nat
  | .frame c _ => (c.catchword, (c.catchword + 1) % 65536)
  | .skip first last => (first, last)

/-- A queue item as a record of a batch. -/
def itemRecord (s : State) : QItem → SheetRecord
  | .copy c => .frame c (frameAt s c.frame)
  | .skip first last => .skip first last

/-- The item's frame has ended: a mirror copy linked at admission waits for that (R320). -/
def itemEnded (s : State) : QItem → Bool
  | .copy c => (frameAt s c.frame).ended
  | .skip _ _ => true

/-- The longest run of items, from the front, whose content stays within 262,144 bytes and 2,016 records (R154, R158). -/
def batchPrefix (s : State) : List SheetRecord → List QItem → List QItem
  | _, [] => []
  | rs, x :: l =>
    let rs := rs ++ [itemRecord s x]
    if 4096 < contentBlocks rs ∨ 2016 < rs.length ∨ !itemEnded s x then [] else x :: batchPrefix s rs l

/-- Frame records among records. -/
def frameRecords (rs : List SheetRecord) : Nat := (rs.filter fun r => match r with | .frame _ _ => true | .skip _ _ => false).length

/-! ### Batches (R154) -/

/-- The open batch of a queue closes now: because the next item, whose length is known, would make it too large, by BATCH_WAIT, or because
nothing stands before it. -/
def batchDue (s : State) (v : Queue) (c : SpillCtx) (batch : List QItem) : Bool :=
  (v.tail[batch.length]?).any (itemEnded s) ||
  (match c.opened with
   | some t => t + max 500 (min 32000 (fld s 0x404044 15 0)) ≤ now s
   | none => false) ||
  (v.head.isEmpty && c.index.isEmpty && v.cutHeld == 0)

/-- A batch closes: it waits for a sheet, or its frames join the head segment. -/
def closeBatch (s : State) (q : Nat) : State :=
  let v := queueAt s q
  match v.spill with
  | none => s
  | some c =>
    if c.sub ≠ .spilling ∨ c.waiting.isSome ∨ v.tail = [] then s
    else
      let batch := batchPrefix s [] v.tail
      if batch = [] ∨ !batchDue s v c batch then s
      else
        let rest := v.tail.drop batch.length
        let c := { c with opened := if rest.isEmpty then none else some (now s) }
        if !c.index.isEmpty ∨ spillOn s q < linkedLeaves s q then
          setQueue s q { v with tail := rest, spill := some { c with waiting := some batch, refused := none } }
        else settleHead (setQueue s q { v with head := v.head ++ batch, tail := rest, spill := some c }) q

/-! ### Choosing a sheet (R162 to R165) -/

/-- Ports with PLACE that may take new sheets: neither their page nor a spill page is in its fault-safe action (R35). -/
def soundPorts (s : State) : List Nat :=
  if (List.range 3).any fun k => flag s (0x404008 + k * 0x1000) 31 then []
  else (placePorts s).filter fun c => !flag s (0x408008 + c * 0x1000) 31

/-- Those of them whose partition of pool `k` is available. -/
def portsFor (s : State) (k : Nat) : List Nat := (soundPorts s).filter fun c => available s c k

/-- The balancer: the port with the fewest bytes of writes outstanding, the lowest number among equals. -/
def balance (s : State) (ports : List Nat) : Option Nat :=
  ports.foldl (fun acc c => match acc with
    | none => some c
    | some b => if sget zeroNat s.spill.writing c < sget zeroNat s.spill.writing b then some c else some b) none

/-- The pool and port of a sheet that holds `blocks` blocks, on a port other than those in `not_`. -/
def chooseSheet (s : State) (blocks : Nat) (not_ : List Nat) : Option (Nat × Nat) :=
  ((List.range 4).filter fun k => blocks ≤ poolUnits k * 64).findSome? fun k =>
    (balance s ((portsFor s k).filter fun c => c ∉ not_)).map fun c => (k, c)

/-- A sheet address is taken from a partition's cache. -/
def takeSheet (s : State) (c k : Nat) : Nat × State :=
  let p := partAt s c k
  (p.cache.headD 0, setPart s c k { p with cache := p.cache.drop 1 })

/-- A sheet address returns to its partition's cache. -/
def giveSheet (s : State) (c k address : Nat) : State :=
  let p := partAt s c k
  count (setPart s c k { p with cache := p.cache ++ [address] }) 3921 1

/-- The spill key and KEY_EPOCH are drawn before the first sheet is placed after a device reset (R173). -/
def drawSpillKey (s : State) : State :=
  if s.spill.keyDrawn then s
  else
    let s := wr s 0x404054 (Config.keyEpoch s.freeCount).toNat
    drawn { s with spill := { s.spill with keyDrawn := true }, colophon := { s.colophon with spillKey := true } }

/-- Entries of the oldest index block that have been read and passed. -/
def indexPassed (c : SpillCtx) : Nat := c.indexBlocks.foldl (fun n b => n + b.entries) 0 - c.index.length

/-- The index needs a new block before another entry is written: it has none, the last one is full, or no copy of it is left. -/
def indexFull (c : SpillCtx) : Bool :=
  match c.indexBlocks.getLast? with
  | none => true
  | some b => 252 ≤ b.entries || b.copies.isEmpty

/-- The places of a new index block: two ports where two have PLACE (R164); none when no sheet remains for it. -/
def chooseIndex (s : State) : Option (List (Nat × Nat)) :=
  match chooseSheet s 64 [] with
  | none => none
  | some (k, c) =>
    if (soundPorts s).length < 2 then some [(k, c)]
    else (chooseSheet s 64 [c]).map fun b => [(k, c), b]

/-- LINK_A or LINK_B of a header: the next block's copy as two words (R159). -/
def linkWords : Option (Nat × Nat) → List Nat
  | none => [0, 0]
  | some (port, address) => [port * 2 ^ 26 + address, 2 ^ 31]

/-- The sheet header as it is written, CRC included (R159). -/
def sheetHeader (sh : Sheet) (free : Bool) : List Nat :=
  let ws := [ 2 ^ 24 + bit sh.isIndex * 2 ^ 23 + bit free * 2 ^ 22 + sh.pool * 2 ^ 20 + sh.port * 2 ^ 18 + sh.owner, sh.serial % 2 ^ 32,
    sh.first * 2 ^ 16 + sh.records.length, frameRecords sh.records, sh.blocks * 64, sh.keyEpoch, sh.oldest % 2 ^ 32 ] ++
    linkWords sh.links[0]? ++ linkWords sh.links[1]? ++ [0, 0, 0, 0]
  ws ++ [crc32c (ws.flatMap (leBytes 4))]

/-- One copy of an index block of queue `q` as the sheet that holds it: a header and 252 entries, 64 lines (R164). -/
def indexSheet (q : Nat) (b : IndexBlock) (a : Nat × Nat × Nat) : Sheet :=
  { port := a.1, pool := a.2.2, address := a.2.1, owner := q, serial := b.serial, first := 0, last := 0, blocks := 64, oldest := 0,
    keyEpoch := b.keyEpoch, records := [], isIndex := true, links := b.links }

/-- The headers of the copies of an index block are written. -/
def writeIndexHeaders (s : State) (q : Nat) (b : IndexBlock) : State :=
  b.copies.foldl (fun s a => emit s (cxlRequest a.1 a.2.1 0 (sheetHeader (indexSheet q b a) false))) s

/-- An index block is allocated and its header written; the block before it is linked to it first (R164). -/
def addIndexBlock (s : State) (q : Nat) (places : List (Nat × Nat)) : State :=
  let s := drawSpillKey s
  let v := queueAt s q
  let r := places.foldl (fun (r : List (Nat × Nat × Nat) × State) p =>
    let t := takeSheet r.2 p.2 p.1
    (r.1 ++ [(p.2, t.1, p.1)], t.2)) ([], s)
  match v.spill with
  | none => s
  | some c =>
    let b : IndexBlock := { copies := r.1, entries := 0, serial := v.serial, keyEpoch := rd s 0x404054 }
    let old := c.indexBlocks.getLast?.toList.map fun o => { o with links := r.1.map fun a => (a.1, a.2.1) }
    let s := old.foldl (fun s o => writeIndexHeaders s q o) r.2
    let s := writeIndexHeaders s q b
    setQueue s q { v with
      serial := v.serial + 1,
      spill := some { c with indexBlocks := c.indexBlocks.dropLast ++ old ++ [b] } }

/-- The index entry of a sheet as four words, the first at bits 31:0 (R165). -/
def indexEntry (sh : Sheet) : List Nat :=
  let e := sh.port * 2 ^ 126 + sh.pool * 2 ^ 124 + sh.address * 2 ^ 98 + sh.blocks % 4096 * 2 ^ 86 + frameRecords sh.records * 2 ^ 74 +
    sh.first * 2 ^ 58 + sh.serial % 65536 * 2 ^ 42 + sh.oldest % 2 ^ 32 * 2 ^ 10
  [e % 2 ^ 32, e / 2 ^ 32 % 2 ^ 32, e / 2 ^ 64 % 2 ^ 32, e / 2 ^ 96]

/-- An entry is appended to an index block: a line of four entries is written to each copy once it is full; the entries before that are
read from the context. -/
def appendEntry (s : State) (b : IndexBlock) (sh : Sheet) : IndexBlock × State :=
  let line := b.line ++ indexEntry sh
  let n := b.entries + 1
  if n % 4 = 0 then
    ({ b with entries := n, line := [] },
      b.copies.foldl (fun s a => emit s (cxlRequest a.1 a.2.1 (n / 4 * 64) line)) s)
  else ({ b with entries := n, line }, s)

/-- A copy that goes into a sheet takes its trace along. -/
def moveTraces (s : State) (rs : List SheetRecord) : State :=
  rs.foldl (fun s r => match r with
    | .frame c f => if traceFollows f c then setFrame s c.frame { frameAt s c.frame with trace := none } else s
    | .skip _ _ => s) s

/-- The record keeps its frame's trace only where the trace follows this copy. -/
def keepTrace : SheetRecord → SheetRecord
  | .frame c f => if traceFollows f c then .frame c f else .frame c { f with trace := none }
  | r => r

/-- The blocks of a sheet whose bytes come from leaves with an uncorrectable error, for records from block `start` on (R181). -/
def poisonBlocks : Nat → List SheetRecord → List Nat
  | _, [] => []
  | start, r :: l =>
    (match r with
     | .frame _ f => f.badLeaves.flatMap fun j =>
         ((List.range 5).map fun k => start + (32 + 256 * j) / 64 + k).filter fun b =>
           b * 64 < start * 64 + 32 + min (256 * j + 256) f.bytes.length
     | .skip _ _ => []) ++ poisonBlocks (start + recordBlocks r) l

/-- The waiting batch of a queue is given the sheet of pool `k` on port `p`, and its write is issued. -/
def placeBatch (s : State) (q p k : Nat) (batch : List QItem) : State :=
  let s := drawSpillKey s
  let rs := (batch.map (itemRecord s)).map keepTrace
  let (address, s) := takeSheet s p k
  let v := queueAt s q
  match v.spill with
  | none => s
  | some c =>
    let blocks := contentBlocks rs
    let oldest := rs.foldl (fun n r => match r with
      | .frame _ f => (match n with | none => some f.arrival | some m => some (min m f.arrival))
      | .skip _ _ => n) none
    let sh : Sheet := {
      port := p, pool := k, address, owner := q, serial := v.serial,
      first := ((rs.head?).map fun r => (recordRange r).1).getD 0,
      last := ((rs.getLast?).map fun r => (recordRange r).2).getD 0,
      blocks, oldest := oldest.getD (nowUs s) % 2 ^ 32, keyEpoch := rd s 0x404054, records := rs, writing := true,
      poison := poisonBlocks (1 + ceilDiv (2 * rs.length) 64) rs }
    let (ib, s) := match c.indexBlocks.getLast? with
      | none => (c.indexBlocks, s)
      | some b =>
        let r := appendEntry s b sh
        (c.indexBlocks.dropLast ++ [r.1], r.2)
    let s := setQueue s q { v with
      serial := v.serial + 1,
      spill := some { c with sub := .spilling, waiting := none, refused := none, index := c.index ++ [sh], indexBlocks := ib } }
    let s := moveTraces s (batch.map (itemRecord s))
    let s := { s with spill := { s.spill with writing := sadd s.spill.writing p (blocks * 64) } }
    emit s (cxlRequest p address 0 (sheetHeader sh false))

/-- SHEET_WAIT of a batch has passed since its first refusal. -/
def waitOver (s : State) (refused : Option Nat) : Bool :=
  refused.any fun t => t + max 1 (fld s 0x404044 23 16) * 1000 ≤ now s

/-- The spill key has been zeroised since the reset: no sheet is placed any more (R174). -/
def keyGone (s : State) : Bool := s.spill.keyDrawn && !s.colophon.spillKey

/-- The requester of a queue's slice chooses a sheet for its waiting batch, or the queue becomes BLOCKED (R163); once SHEET_WAIT has passed
the batch obtains none. A batch whose index block finds no place stays on chip as well (DEDUCED, log 20). -/
def sheetChoice (s : State) (q : Nat) : State :=
  match (queueAt s q).spill with
  | none => s
  | some c =>
    match c.waiting with
    | none => s
    | some batch =>
      let blocked := fun (_ : Unit) => setCtx s q { c with sub := .blocked, refused := c.refused.or (some (now s)) }
      let s1 := if indexFull c then (chooseIndex s).map (addIndexBlock s q) else some s
      if waitOver s c.refused then s
      else if keyGone s then blocked ()
      else match s1 with
      | none => blocked ()
      | some s1 =>
        match chooseSheet s1 (contentBlocks (batch.map (itemRecord s1))) [] with
        | none => blocked ()
        | some (k, p) => placeBatch s1 q p k batch

/-- A skip descriptor at the front of the tail; it merges with one directly behind it (R163). -/
def pushSkip (first last : Nat) : List QItem → List QItem
  | .skip f l :: rest => if f = last then .skip first l :: rest else .skip first last :: .skip f l :: rest
  | l => .skip first last :: l

/-- SHEET_WAIT runs out: the batch's frames are dropped and its range is skipped (R163). -/
def sheetWaitOver (s : State) (q : Nat) : State :=
  let v := queueAt s q
  match v.spill with
  | none => s
  | some c =>
    match c.waiting, c.refused with
    | some batch, some t =>
      if !waitOver s (some t) then s
      else
        let rs := batch.map (itemRecord s)
        let first := ((rs.head?).map fun r => (recordRange r).1).getD 0
        let last := ((rs.getLast?).map fun r => (recordRange r).2).getD 0
        let s := setQueue s q { v with
          tail := pushSkip first last v.tail,
          spill := some { c with sub := .spilling, waiting := none, refused := none, opened := c.opened.or (some (now s)) } }
        batch.foldl (fun s x => match x with
          | .copy c => raise (count (dropCopy s c 0x27) 3925 1) (.spill 0) 0
          | .skip _ _ => s) s
    | _, _ => s

/-! ### Writes that complete -/

/-- The copies of a written sheet let go of everything on chip; flow control follows (R139). -/
def releaseWritten (s : State) (rs : List SheetRecord) : State :=
  rs.foldl (fun s r => match r with | .frame c _ => releaseCopy s c | .skip _ _ => s) s

/-- Outstanding write bytes of a port fall. -/
def writeDone (s : State) (sh : Sheet) : State :=
  let s := { s with spill := { s.spill with writing := ssub s.spill.writing sh.port (sh.blocks * 64) } }
  count (count (count s 3920 1) 3922 (sh.blocks * 64)) (3932 + 5 * sh.port) sh.blocks

/-- The write of a sheet completes: of a queue's index, or of a queue that was flushed meanwhile (R172). -/
def sheetWritten (s : State) (q serial : Nat) : State :=
  let hit := fun (sh : Sheet) => sh.owner == q && sh.serial == serial && sh.writing
  match (queueAt s q).spill with
  | some c =>
    match c.index.find? hit with
    | some sh =>
      releaseWritten (writeDone
        (setCtx s q { c with index := c.index.map fun x => if hit x then { x with writing := false } else x }) sh) sh.records
    | none => flushed s hit
  | none => flushed s hit
where
  /-- A sheet that a flush waits for. -/
  flushed (s : State) (hit : Sheet → Bool) : State :=
    match s.spill.releasing.find? fun e => hit e.2 with
    | none => s
    | some e =>
      let s := { s with spill := { s.spill with
        releasing := s.spill.releasing.map fun x => if hit x.2 then (x.1, { x.2 with writing := false }) else x } }
      releaseWritten (writeDone s e.2) e.2.records

/-! ### Losses (R169) -/

/-- A frame record is lost or discarded for `reason`: it is counted, its mirror copies go, and its captures say so. -/
def dropRecord (s : State) (q reason len : Nat) (c : Copy) (f : Frame) : State :=
  let mirror := fun (n : Nat) => refuseMirror (countQueueDrop s q f.bytes.length) n
  match c.kind with
  | .mirrorRx n _ _ => mirror n
  | .mirrorTx n _ _ => mirror n
  | .mirrorDrop n _ _ => mirror n
  | _ =>
    let s := countQueueDrop (countDrop s reason 1) q f.bytes.length
    let s := dropCaptures s f c reason 3 len []
    let s := releaseMirrorsOf s (mirrorHome f c.frame) c.port
    if traceFollows f c then (traceEnd s f reason (some c)).2 else s

/-- One lost frame record: SPILL_LOST, its interrupt and its error. -/
def loseRecord (s : State) (sh : Sheet) (cause len : Nat) (r : SheetRecord) : State :=
  match r with
  | .skip _ _ => s
  | .frame c f =>
    let s := raise (count (dropRecord s sh.owner 0x28 len c f) 3926 1) (.spill 0) 1
    if cause = 6 then s
    else report s (if cause = 7 then 0x0406 else 0x0400 + cause) (.spill 0) [sh.port, sh.address, sh.owner, c.catchword]

/-- SPILL_LAST_LOSS shows the last loss. -/
def latchLoss (s : State) (sh : Sheet) (cause first n : Nat) : State :=
  wr (wr s 0x404068 (cause * 2 ^ 28 + sh.port * 2 ^ 26 + sh.owner)) 0x40406C (first * 65536 + min n 65535)

/-- A record still waits for its blocks or for its turn. -/
def recordOpen : RecordState → Bool
  | .waiting _ => true | .complete => true | .lost _ => false | .released => false

/-- The records of a sheet whose state satisfies `p` are lost for `cause`. -/
def loseRecords (s : State) (sh : Sheet) (cause : Nat) (p : RecordState → Bool) (headerRead : Bool) : Sheet × State :=
  let st := sh.reading.getD (sh.records.map fun _ => .waiting [])
  let lost := (sh.records.zip st).filter fun e => recordOpen e.2 && p e.2
  let sh' := { sh with reading := some (st.map fun x => if recordOpen x && p x then .lost cause else x) }
  match lost with
  | [] => (sh', s)
  | (r, _) :: _ =>
    let s := lost.foldl (fun s e =>
      let len := match e.1 with | .frame _ f => if headerRead then f.bytes.length else 0 | .skip _ _ => 0
      loseRecord s sh cause len e.1) s
    let n := lost.foldl (fun n e => n + ((recordRange e.1).2 + 65536 - (recordRange e.1).1) % 65536) 0
    (sh', latchLoss s sh cause (recordRange r).1 n)

/-! ### The pool manager (R166) -/

/-- A sheet whose header cannot be read goes to no pool. -/
def quarantine (s : State) (sh : Sheet) : State :=
  let s := { s with spill := { s.spill with quarantined := s.spill.quarantined ++ [(sh.port, sh.address)] } }
  drainedCheck (report (raise (tally s 0x404144) (.spill 0) 4) 0x0409 (.spill 0) [sh.port, sh.address, sh.owner]) sh.port

/-- A sheet is handed to the pool manager; `port` is the egress port that is being flushed, 127 when none is. -/
def requestRelease (s : State) (port : Nat) (sh : Sheet) : State :=
  { s with spill := { s.spill with releasing := s.spill.releasing ++ [(port, sh)] } }

/-- Index blocks are handed to the pool manager, each copy as a sheet of its own. -/
def requestIndexRelease (s : State) (q port : Nat) (bs : List IndexBlock) : State :=
  bs.foldl (fun s b => b.copies.foldl (fun s a => requestRelease s port (indexSheet q b a)) s) s

/-- Index blocks whose entries have all been passed are released; all of them when the index is empty (R164, R172). -/
def releaseIndexBlocks (s : State) (q port : Nat) (all : Bool) : State :=
  match (queueAt s q).spill with
  | none => s
  | some c =>
    let gone := match c.indexBlocks with
      | [] => []
      | b :: _ => if all then c.indexBlocks else if b.entries = 252 ∧ 252 ≤ indexPassed c then [b] else []
    requestIndexRelease (setCtx s q { c with indexBlocks := c.indexBlocks.drop gone.length }) q port gone

/-- A sheet of serial `serial` that is held, in a queue's index or on its way to release: its port, its address and its owner. -/
def heldSheet (s : State) (serial : Nat) : Option (Nat × Nat × Nat) :=
  let all := (s.spill.releasing.map (·.2)) ++ s.queues.flatMap fun e => match e.2.spill with
    | none => []
    | some c => c.index.filter fun sh => !sh.abandoned
  (all.find? fun sh => sh.serial == serial).map fun sh => (sh.port, sh.address, sh.owner)

/-- A release that fails its check is refused: counted, and reported with the address and both queue numbers. -/
def refuseRelease (s : State) (q port address owner : Nat) : State :=
  report (raise (tally s 0x404140) (.spill 0) 3) 0x0408 (.spill 0) [port, address, q, owner]

/-- The owner's request meets the sheet's header: released, quarantined, or refused. A release that no queue has asked for is one of
firmware's maintenance path: a wrong queue, a second release, or a sheet that is in use, all refused (log 20). -/
def poolRelease (s : State) (q serial : Nat) (headerOk ownerOk poisoned : Bool) : State :=
  let hit := fun (e : Nat × Sheet) => e.2.owner == q && e.2.serial == serial && !e.2.writing && e.2.outstanding.isEmpty
  match s.spill.releasing.find? hit with
  | none =>
    if poisoned then s
    else match heldSheet s serial with
      | some (port, address, owner) => refuseRelease s q port address owner
      | none => refuseRelease s q 0 0 q
  | some e =>
    let s := { s with spill := { s.spill with releasing := s.spill.releasing.erase e } }
    if poisoned then quarantine s e.2
    else
      let s := if headerOk && ownerOk && !keyGone s && e.2.keyEpoch == rd s 0x404054 then
          emit (giveSheet s e.2.port e.2.pool e.2.address) (cxlRequest e.2.port e.2.address 0 (sheetHeader e.2 true))
        else refuseRelease s q e.2.port e.2.address e.2.owner
      drainedCheck s e.2.port

/-! ### The collator (R168) -/

/-- A record is older than SHEET_MAX_AGE. -/
def recordStale (s : State) (f : Frame) : Bool := staleFrame s { f with spilled := true }

/-- Append an item to a queue's head segment. -/
def toHead (s : State) (q : Nat) (x : QItem) : State :=
  let v := queueAt s q
  settleHead (wakeForQueue (setQueue s q { v with head := v.head ++ [x] }) q) q

/-- A frame comes back on chip, in leaves of the sheet's reservation. -/
def returnFrame (s : State) (q : Nat) (c : Copy) (f : Frame) : State :=
  let i := s.nextFrame
  let n := ceilDiv f.bytes.length 256
  let home := mirrorHome f c.frame
  let s := setFrame { s with nextFrame := i + 1 } i { f with
    spilled := true, charge := n, refs := [1], chains := [], copies := [], followers := [], refused := [], origin := home + 1, ended := true }
  let (c, s) := takeDescriptor (sizeChain s i 0 n) { c with frame := i, phys := 0, cut := false }
  toHead s q (.copy c)

/-- What one record of a sheet passes to the head: none while it still waits. -/
def collateRecord (s : State) (q : Nat) (r : SheetRecord) : RecordState → Option (Nat × State)
  | .released => some (0, s)
  | .waiting _ => none
  | .lost _ => some (0, toHead s q (.skip (recordRange r).1 (recordRange r).2))
  | .complete =>
    match r with
    | .skip first last => some (0, toHead s q (.skip first last))
    | .frame c f =>
      if recordStale s f then
        let s := raise (count (dropRecord s q 0x29 f.bytes.length c f) 3916 1) (.buffer 0) 2
        some (0, toHead s q (.skip (recordRange r).1 (recordRange r).2))
      else some (ceilDiv f.bytes.length 256, returnFrame s q c f)

/-- The records of a sheet in order, up to the first that still waits: their new states, the leaves used, and the state. -/
def collateSheet (s : State) (q : Nat) : List (SheetRecord × RecordState) → List RecordState × Nat × State
  | [] => ([], 0, s)
  | (r, st) :: l =>
    match collateRecord s q r st with
    | none => ((r, st) :: l |>.map (·.2), 0, s)
    | some (n, s) =>
      let (sts, m, s) := collateSheet s q l
      (.released :: sts, n + m, s)

/-- Leaves of a reservation are given back (R139, R167). -/
def returnReserved (s : State) (q n : Nat) : State :=
  let s := setBuffer s { s.buffer with sharedUsed := s.buffer.sharedUsed - n }
  let p := (queuePort s q).getD 127
  returnCopy s { frame := 0, port := p, queue := q } n

/-- The collator works on the oldest sheet of a queue, then on the next one once every record has gone on. -/
def collate : Nat → State → Nat → State
  | 0, s, _ => s
  | fuel + 1, s, q =>
    match (queueAt s q).spill with
    | none => s
    | some c =>
      match c.index with
      | [] => s
      | sh :: rest =>
        match sh.reading with
        | none => s
        | some sts =>
          let (sts', used, s) := collateSheet s q (sh.records.zip sts)
          let sh' := { sh with reading := some sts', reserved := sh.reserved - used }
          let c := ((queueAt s q).spill).getD c
          if sts'.all (· == .released) then
            let s := returnReserved s q sh'.reserved
            let s := setCtx s q { c with index := rest }
            let s := if sh.abandoned then s
              else if sh.headerOk then requestRelease s 127 { sh' with reserved := 0, toIssue := [] } else quarantine s sh
            let s := releaseIndexBlocks s q 127 rest.isEmpty
            collate fuel (spillExit s q) q
          else setCtx s q { c with index := sh' :: rest }

/-- Sheets a queue's collator may have to pass in one go. -/
def collateAll (s : State) (q : Nat) : State :=
  match (queueAt s q).spill with
  | none => s
  | some c => collate (c.index.length + 1) s q

/-! ### Prefetch (R167) -/

/-- The blocks that record `i` needs: the header, its directory block, and its own, which begin at block `start`. -/
def recordNeeds : Nat → Nat → List SheetRecord → List (List Nat)
  | _, _, [] => []
  | i, start, r :: l =>
    (0 :: (1 + i / 32) :: (List.range (recordBlocks r)).map (start + ·)) :: recordNeeds (i + 1) (start + recordBlocks r) l

/-- The blocks of every record of a sheet. -/
def sheetNeeds (rs : List SheetRecord) : List (List Nat) := recordNeeds 0 (1 + ceilDiv (2 * rs.length) 64) rs

/-- A sheet is in prefetch: its reads have been issued and its records have not all gone on. -/
def inPrefetch (sh : Sheet) : Bool := sh.reading.isSome && !sh.abandoned

/-- Sheets in prefetch in the device. -/
def prefetchSheets (s : State) : Nat :=
  s.queues.foldl (fun n e => match e.2.spill with | none => n | some c => n + (c.index.filter inPrefetch).length) 0

/-- Reads outstanding in the device, those whose records are lost among them. -/
def readsOutstanding (s : State) : Nat :=
  s.queues.foldl (fun n e => match e.2.spill with
    | none => n | some c => c.index.foldl (fun n sh => n + sh.outstanding.length) n)
    (s.spill.releasing.foldl (fun n e => n + e.2.outstanding.length) 0)

/-- SP_PREFETCH.DEPTH of a queue. -/
def prefetchDepth (s : State) (q : Nat) : Nat := max 1 (min 8 (fld s (0x40504C + queueProfile s q * 16) 31 28))

/-- The leaves reserved for a sheet. -/
def prefetchReserve (sh : Sheet) : Nat := ceilDiv sh.blocks 4 + frameRecords sh.records

/-- Reads of a sheet are issued in address order while the collator has room for `room` of them: the sheet, and the room left. -/
def issueSheet (t room : Nat) (sh : Sheet) : Sheet × Nat :=
  let l := sh.toIssue.take room
  ({ sh with outstanding := sh.outstanding ++ l.map fun b => (b, t), toIssue := sh.toIssue.drop room }, room - l.length)

/-- The reads of the sheets of a list. -/
def issueSheets (t : Nat) : Nat → List Sheet → List Sheet × Nat
  | room, [] => ([], room)
  | room, sh :: l =>
    let r := issueSheet t room sh
    let m := issueSheets t r.2 l
    (r.1 :: m.1, m.2)

/-- One queue's waiting reads are issued as room comes: at most 8,192 reads are outstanding across the device (R167). -/
def issueQueue (s : State) (q : Nat) : State :=
  match (queueAt s q).spill with
  | none => s
  | some c => setCtx s q { c with index := (issueSheets (now s) (8192 - readsOutstanding s) c.index).1 }

/-- The queues that have reads waiting for room. -/
def readsWait (s : State) : List Nat :=
  (s.queues.filter fun e => (e.2.spill).any fun c => c.index.any fun sh => !sh.toIssue.isEmpty).map (·.1)

/-- Reads that waited are issued into the room that there is. -/
def issueReads (s : State) : State := (readsWait s).foldl issueQueue s

/-- The queue waits for prefetch: its head is low, it has an unread sheet that is written, and its DEPTH is not reached. -/
def wantsPrefetch (s : State) (q : Nat) : Bool :=
  let v := queueAt s q
  match v.spill with
  | none => false
  | some c =>
    ((c.index.find? fun sh => sh.reading.isNone).any fun sh => !sh.writing) && !c.flushing &&
    segmentLeaves s v.head < prefetchLow s q && (c.index.filter inPrefetch).length < prefetchDepth s q

/-- Another queue that waits for prefetch has an older need (R167). -/
def olderNeed (s : State) (q since : Nat) : Bool :=
  s.queues.any fun e => e.1 != q && ((e.2.spill.bind (·.needSince)).any fun t => t < since) && wantsPrefetch s e.1

/-- The index block that lists the `k`-th entry of an index, and the line it lies in, when that line has been written. -/
def entryLine (c : SpillCtx) (k : Nat) : Option (IndexBlock × Nat) :=
  let n := indexPassed c + k
  let b? := (c.indexBlocks.foldl (fun (r : Option (IndexBlock × Nat) × Nat) b =>
    (if r.1.isNone && n < r.2 + b.entries then some (b, n - r.2) else r.1, r.2 + b.entries)) (none, 0)).1
  b?.bind fun e => if e.2 / 4 * 4 + 4 ≤ e.1.entries then some (e.1, 1 + e.2 / 4) else none

/-- The prefetch engine reads an index entry that is no longer in the context, from the first copy of its block. DESIGN CHOICE (log 20): the
entry is used at once, and the return of the read only says whether the copy is sound. -/
def readEntry (s : State) (q k : Nat) : State :=
  match (queueAt s q).spill with
  | none => s
  | some c =>
    match entryLine c k with
    | none => s
    | some (b, line) =>
      match b.copies with
      | [] => s
      | a :: _ =>
        let s := setCtx s q { c with indexBlocks := c.indexBlocks.map fun x =>
          if x.serial == b.serial then { x with reads := x.reads ++ [(a.1, line, now s)] } else x }
        emit s (cxlRequest a.1 a.2.1 (line * 64) [1])

/-- The prefetch engine takes the oldest unread entry of a queue's index; a queue that the device has no room for now keeps its place. -/
def prefetch (s : State) (q : Nat) : State :=
  let v := queueAt s q
  match v.spill with
  | none => s
  | some c =>
    match c.index.find? fun sh => sh.reading.isNone with
    | none => s
    | some sh =>
      let R := prefetchReserve sh
      if !wantsPrefetch s q then s
      else if 64 ≤ prefetchSheets s ∨ globalLimit s 0 < s.buffer.sharedUsed + R ∨ olderNeed s q (c.needSince.getD (now s)) then
        setCtx s q { c with needSince := c.needSince.or (some (now s)) }
      else
        let s := readEntry s q (c.index.findIdx fun sh => sh.reading.isNone)
        let c := ((queueAt s q).spill).getD c
        let sh' := { sh with reading := some ((sheetNeeds sh.records).map .waiting), reserved := R, toIssue := List.range sh.blocks }
        let s := setCtx s q { c with needSince := none, index := c.index.map fun x => if x == sh then sh' else x }
        let s := followPeak (setBuffer s { s.buffer with sharedUsed := s.buffer.sharedUsed + R })
        let s := chargeCopy s { frame := 0, port := (queuePort s q).getD 127, queue := q } R
        issueReads (emit s (cxlRequest sh.port sh.address 0 [sh.blocks]))

/-! ### Reads that return or do not (R168, R169) -/

/-- Change one sheet of a queue's index. -/
def changeSheet (s : State) (q serial : Nat) (f : Sheet → State → Sheet × State) : State :=
  match (queueAt s q).spill with
  | none => s
  | some c =>
    match c.index.find? fun sh => sh.serial == serial && inPrefetch sh with
    | none => s
    | some sh =>
      let (sh', s) := f sh s
      let c := ((queueAt s q).spill).getD c
      collateAll (setCtx s q { c with index := c.index.map fun x => if x.serial == serial && !x.abandoned then sh' else x }) q

/-- Record state `st` needs block `b`. -/
def needs (b : Nat) : RecordState → Bool
  | .waiting bs => b ∈ bs | _ => false

/-- The outstanding read of block `b`. -/
def awaits (sh : Sheet) (b : Nat) : Bool := sh.outstanding.any fun e => e.1 == b

/-- Block `b` is no longer outstanding. -/
def unawait (sh : Sheet) (b : Nat) : Sheet := { sh with outstanding := sh.outstanding.filter fun e => e.1 != b }

/-- A block of a sheet in prefetch returns. A good header under a key that is gone or another epoch fails its check (R174). -/
def blockReturn (block : Nat) (status : ReadStatus) (sh : Sheet) (s : State) : Sheet × State :=
  if !awaits sh block then (sh, s)
  else
    let sh := unawait sh block
    let status := if block ∈ sh.poison then .poison
      else if status = .good ∧ block = 0 ∧ (keyGone s ∨ sh.keyEpoch ≠ rd s 0x404054) then .header else status
    let s := count (count s (3931 + 5 * sh.port) 1) 3923 64
    let s := { s with spill := { s.spill with timeouts := sset zeroNat s.spill.timeouts sh.port 0 } }
    let lose := fun (cause : Nat) (s : State) => loseRecords s sh cause (needs block) (block ≠ 0)
    match status with
    | .good =>
      let sts := (sh.reading.getD []).map fun st => match st with
        | .waiting bs => (match bs.erase block with | [] => .complete | l => .waiting l)
        | x => x
      ({ sh with reading := some sts, headerOk := sh.headerOk || block == 0 }, s)
    | .poison => lose 1 (count s (3929 + 5 * sh.port) 1)
    | .header => if block = 0 then loseRecords s sh 3 (fun _ => true) false else lose 4 s
    | .record => lose 4 s
    | .fcs => lose 5 s

/-- READ_TIMEOUT in ns. -/
def readLimit (s : State) : Nat := max 10 (min 60 (fld s 0x404044 31 24)) * 1000

/-- Reads of a record that are outstanding past READ_TIMEOUT are lost. -/
def recordTimeout (i : Nat) (sh : Sheet) (s : State) : Sheet × State :=
  match (sh.reading.getD [])[i]? with
  | some (.waiting bs) =>
    let late := bs.filter fun b => sh.outstanding.any fun e => e.1 == b && e.2 + readLimit s ≤ now s
    if late = [] then (sh, s)
    else
      let sh := { sh with outstanding := sh.outstanding.filter fun e => e.1 ∉ late }
      let s := { s with spill := { s.spill with timeouts := sadd s.spill.timeouts sh.port late.length } }
      loseRecords (count s (3930 + 5 * sh.port) late.length) sh 2 (fun st => late.any fun b => needs b st) (0 ∉ late)
  | _ => (sh, s)

/-- Reads that come back, or not, for a sheet whose records have all gone on or been lost: what is left of them is discarded. -/
def lateReturn (s : State) (q serial : Nat) (gone : Nat × Nat → Bool) : State :=
  { s with spill := { s.spill with releasing := s.spill.releasing.map fun e =>
      if e.2.owner == q && e.2.serial == serial && !e.2.isIndex then
        (e.1, { e.2 with outstanding := e.2.outstanding.filter fun r => !gone r }) else e } }

/-! ### Sheets that leave unread (R171, R172, R177) -/

/-- An index entry that only announces the range of a sheet that is not read. -/
def ghost (sh : Sheet) : Sheet :=
  { sh with abandoned := true, records := [.skip sh.first sh.last], reading := some [.complete], outstanding := [], toIssue := [],
            writing := false }

/-- A sheet whose frames are discarded unread as STALE. -/
def dropSheetStale (s : State) (sh : Sheet) : State :=
  sh.records.foldl (fun s r => match r with
    | .frame c f => raise (count (dropRecord s sh.owner 0x29 0 c f) 3916 1) (.buffer 0) 2
    | .skip _ _ => s) s

/-- The residence in µs of a sheet's oldest frame, whose arrival stamp has 32 bits. -/
def sheetAge (s : State) (sh : Sheet) : Nat := (nowUs s + 2 ^ 32 - sh.oldest % 2 ^ 32) % 2 ^ 32

/-- The age scan meets the oldest unread entry of a queue, and goes on while entries are stale. -/
def ageScan : Nat → State → Nat → State
  | 0, s, _ => s
  | fuel + 1, s, q =>
    match (queueAt s q).spill with
    | none => s
    | some c =>
      match c.index.find? fun sh => sh.reading.isNone with
      | none => s
      | some sh =>
        if sh.writing ∨ !flag s 0x400060 31 ∨ sheetAge s sh < limitMs (fld s 0x404048 15 0) * 1000 then s
        else
          let s := setCtx s q { c with index := c.index.map fun x => if x == sh then ghost sh else x }
          let s := requestRelease (dropSheetStale s sh) 127 sh
          ageScan fuel (collateAll s q) q

/-- The records of a sheet that have not gone on yet. -/
def openRecords (sh : Sheet) : List SheetRecord :=
  match sh.reading with
  | none => sh.records
  | some sts => ((sh.records.zip sts).filter fun e => recordOpen e.2).map (·.1)

/-- A flushed record is counted FLUSHED (R62). -/
def flushRecord (s : State) (q : Nat) : SheetRecord → State
  | .skip _ _ => s
  | .frame c f =>
    let s := dropRecord s q 0x2A (if f.spilled then f.bytes.length else 0) c f
    if c.port < 64 then count (count s (portCounter c.port 0) 1) (portCounter c.port 1) f.bytes.length else s

/-- The spill state of a queue is emptied by a flush of egress port `port` (R172): the waiting batch and the tail are freed, sheets are
released unread, oldest first, and the index blocks after them. The context stays until FLUSH_DONE. -/
def flushSpill (s : State) (q port : Nat) : State :=
  let v := queueAt s q
  match v.spill with
  | none => s
  | some c =>
    let s := setQueue s q { v with
      spill := some { flushing := true }, tail := [], head := v.head ++ (c.waiting.getD []) ++ v.tail }
    let s := c.index.foldl (fun s sh =>
      let s := (openRecords sh).foldl (fun s r => flushRecord s q r) s
      let s := returnReserved s q sh.reserved
      if sh.abandoned then s
      else if sh.reading.isSome ∧ !sh.headerOk ∧ (sh.reading.getD []).all (fun st => !recordOpen st) then quarantine s sh
      else requestRelease s port { sh with outstanding := [], toIssue := [], reading := none, reserved := 0 }) s
    requestIndexRelease s q port c.indexBlocks

/-- A flushed queue's context is freed (R172). -/
def freeContext (s : State) (q : Nat) : State :=
  match (queueAt s q).spill with
  | some c => if c.flushing then setQueue s q { queueAt s q with spill := none } else s
  | none => s

/-- Queues turn DRAINING under R175: the waiting batch goes back to the front of the tail. -/
def drainQueue (s : State) (q : Nat) : State :=
  let v := queueAt s q
  match v.spill with
  | none => s
  | some c =>
    if c.sub ≠ .draining ∧ !c.flushing ∧ (!spillKnob s ∨ spillQuota s q = 0 ∨ (placePorts s).isEmpty) then
      spillExit (setQueue s q { v with
        tail := (c.waiting.getD []) ++ v.tail, spill := some { c with sub := .draining, waiting := none, refused := none } }) q
    else s

/-- Every queue in spill state meets the test of R175. -/
def drainCheck (s : State) : State := ((s.queues.filter fun e => e.2.spill.isSome).map (·.1)).foldl drainQueue s

/-- Write PLACE. -/
def setPlace (s : State) (mask : Nat) : State :=
  let old := fld s 0x404040 31 28
  let s := drainCheck (setFld s 0x404040 31 28 mask)
  (List.range 4).foldl (fun s c => if bitAt old c && !bitAt mask c then drainedCheck s c else s) s

/-- A bit of PLACE that a write of 1 may set: the port is READY and its partitions are initialised (R189). -/
def placeable (s : State) (c : Nat) : Bool := cxlState s c == 3 && (List.range 4).all fun k => (partAt s c k).started

/-- SPILL_CONTROL.PLACE is written with a mask. -/
def writePlace (s : State) (mask : Nat) : State :=
  setPlace s ((List.range 4).foldl (fun m c =>
    if bitAt mask c && (flag s 0x404040 (28 + c) || placeable s c) then m + 2 ^ c else m) 0)

/-- A sheet of a queue is abandoned: its frames are lost for `cause`, and its range will be skipped. -/
def abandonSheet (s : State) (q cause : Nat) (sh : Sheet) : State :=
  let s := (loseRecords s sh cause (fun _ => true) false).2
  let s := if sh.writing then releaseWritten s sh.records else s
  let s := returnReserved s q sh.reserved
  match (queueAt s q).spill with
  | none => s
  | some c =>
    let open_ := match sh.reading with
      | none => sh.records
      | some sts => ((List.zip sh.records sts).filter fun (e : SheetRecord × RecordState) => e.2 != RecordState.released).map
          fun (e : SheetRecord × RecordState) => e.1
    let first := ((open_.head?).map fun r => (recordRange r).1).getD sh.last
    let g := { ghost sh with
      reserved := 0, records := if open_.isEmpty then [] else [.skip first sh.last],
      reading := some (if open_.isEmpty then [] else [.complete]) }
    setCtx s q { c with index := c.index.map fun x => if x == sh then g else x }

/-- The sheets that index block `n` of a context still lists. -/
def blockSheets (c : SpillCtx) (n : Nat) : List Sheet :=
  let before := ((c.indexBlocks.take n).foldl (fun m b => m + b.entries) 0) - indexPassed c
  let from_ := indexPassed c - ((c.indexBlocks.take n).foldl (fun m b => m + b.entries) 0)
  (c.index.drop before).take (((c.indexBlocks[n]?).map (·.entries)).getD 0 - from_)

/-- Index blocks lose the copies that `lost` names, and a block with no copy left loses every sheet it lists (R169). -/
def loseCopies (s : State) (q : Nat) (lost : IndexBlock → Nat → Bool) : State :=
  match (queueAt s q).spill with
  | none => s
  | some c =>
    let blocks := c.indexBlocks.map fun b => { b with
      copies := b.copies.filter fun a => !lost b a.1, reads := b.reads.filter fun r => !lost b r.1 }
    let c := { c with indexBlocks := blocks }
    let dead := (List.range blocks.length).filter fun n => (((blocks[n]?).map fun b => b.copies.isEmpty).getD false)
    let listed := (dead.flatMap fun n => blockSheets c n).filter fun sh => !sh.abandoned
    let s := listed.foldl (fun s sh => abandonSheet s q 7 sh) (setCtx s q c)
    collateAll s q

/-- One queue meets the discard of port `p`: its sheets there are abandoned, and index blocks go on from their other copy. -/
def discardQueue (s : State) (p q : Nat) : State :=
  match (queueAt s q).spill with
  | none => s
  | some c =>
    let here := c.index.filter fun sh => sh.port == p && !sh.abandoned
    loseCopies (here.foldl (fun s sh => abandonSheet s q 6 sh) s) q fun _ port => port == p

/-- A read of an index block returns or is given up: a copy that is not sound is lost, and the other one is read (R164, R169). -/
def indexReturn (s : State) (q serial port : Nat) (sound : Bool) : State :=
  match (queueAt s q).spill with
  | none => s
  | some c =>
    let s := setCtx s q { c with indexBlocks := c.indexBlocks.map fun b =>
      if b.serial == serial then { b with reads := b.reads.filter fun r => r.1 != port } else b }
    if sound then s
    else
      let again := (c.indexBlocks.find? fun b => b.serial == serial).toList.flatMap fun b =>
        (b.copies.filter fun a => a.1 != port).flatMap fun a =>
          (b.reads.filter fun r => r.1 == port).map fun r => (a.1, r.2.1, now s, a.2.1)
      let s := loseCopies s q fun b p => b.serial == serial && p == port
      match (queueAt s q).spill with
      | none => s
      | some c =>
        let s := setCtx s q { c with indexBlocks := c.indexBlocks.map fun b =>
          if b.serial == serial then { b with reads := b.reads ++ again.map fun r => (r.1, r.2.1, r.2.2.1) } else b }
        again.foldl (fun s r => emit s (cxlRequest r.1 r.2.2.2 (r.2.1 * 64) [1])) s

/-- The oldest read of an index block of a queue that waits for line `line`: the port of its copy and its issue. -/
def indexRead (s : State) (q serial line : Nat) : Option (Nat × Nat) :=
  ((queueAt s q).spill).bind fun c => (c.indexBlocks.find? fun b => b.serial == serial).bind fun b =>
    (b.reads.find? fun r => r.2.1 == line).map fun r => (r.1, r.2.2)

/-- A 64-byte read returns: of a sheet in prefetch, of a sheet whose records have gone on, or of an index block. -/
def readReturn (s : State) (q serial block : Nat) (status : ReadStatus) : State :=
  match indexRead s q serial block with
  | some (port, _) => indexReturn (count (count s (3931 + 5 * port) 1) 3923 64) q serial port (status = .good)
  | none =>
    let s := lateReturn s q serial fun r => r.1 == block
    issueReads (changeSheet s q serial (blockReturn block status))

/-- READ_TIMEOUT runs out for a record: the blocks it still waits for are lost. For an index block `i` is the line. -/
def readTimeout (s : State) (q serial i : Nat) : State :=
  match indexRead s q serial i with
  | some (port, t) =>
    if now s < t + readLimit s then s
    else
      let s := { s with spill := { s.spill with timeouts := sadd s.spill.timeouts port 1 } }
      indexReturn (count s (3930 + 5 * port) 1) q serial port false
  | none =>
    let s := lateReturn s q serial fun r => r.2 + readLimit s ≤ now s
    issueReads (changeSheet s q serial (recordTimeout i))

/-- FORCE_DISCARD of port `p`, and the same effect of a port failure (R177). -/
def forceDiscard (s : State) (p : Nat) : State :=
  let s := setPlace s (fld s 0x404040 31 28 &&& (15 ^^^ 2 ^ p))
  let mine := s.spill.releasing.filter fun e => e.2.port == p
  let s := { s with spill := { s.spill with
    releasing := s.spill.releasing.filter fun e => e.2.port != p,
    quarantined := s.spill.quarantined.filter fun e => e.1 != p,
    writing := sset zeroNat s.spill.writing p 0 } }
  let s := mine.foldl (fun s e => if e.2.writing then releaseWritten s e.2.records else s) s
  let s := ((s.queues.filter fun e => e.2.spill.isSome).map (·.1)).foldl (fun s q => discardQueue s p q) s
  drainedCheck ((List.range 4).foldl (fun s k => setPart s p k {}) s) p

/-! ### Port failure (R193) -/

/-- CXL_PERST_N_c follows PERST of CXL_PORT_STATUS. A device that it resets has no decoder any more. -/
def setPerst (s : State) (c : Nat) (asserted : Bool) : State :=
  let s := if asserted then setCxlLink s c {} else s
  if flag s (0x408048 + c * 0x1000) 23 = asserted then s
  else emit (setFlag s (0x408048 + c * 0x1000) 23 asserted) (.pin "CXL_PERST_N" c !asserted)

/-- A port fails with a cause: FAILED, PERST asserted, no link, and the discard of R177. A sanitisation that ran has failed (R191). -/
def cxlFail (s : State) (c cause : Nat) : State :=
  let a := 0x408048 + c * 0x1000
  let s := if cxlState s c = 5 then
      { s with firmware := { s.firmware with sanitized := sset zeroNat s.firmware.sanitized c 2 } } else s
  let s := setPerst (setFld (setFld (setFld s a 31 28 4) a 27 24 cause) a 22 16 0) c true
  let s := raise (tally s (0x4080AC + c * 0x1000)) (.cxl c) 1
  let s := { s with spill := { s.spill with timeouts := sset zeroNat s.spill.timeouts c 0 } }
  forceDiscard (report s 0x040B (.cxl c) [cause]) c

/-- 64 consecutive read timeouts fail a port with cause TIMEOUTS (R192). -/
def failTimedOut (s : State) : State :=
  (List.range 4).foldl (fun s c => if 64 ≤ sget zeroNat s.spill.timeouts c ∧ cxlState s c = 3 then cxlFail s c 0xA else s) s

/-! ### Partitions (R161) -/

/-- SPILL_CONTROL.FORCE_DISCARD is written with a mask. -/
def forceDiscards (s : State) (mask : Nat) : State :=
  (List.range 4).foldl (fun s c => if bitAt mask c then forceDiscard s c else s) s

/-- Entry 0 of partition (c, k)'s registers. -/
def poolReg (c k : Nat) : Nat := 0x406040 + (4 * c + k) * 0x20

/-- POOL_INIT.INIT: refused while the port is used. What the ring lists only its reads show. -/
def poolInit (s : State) (c k filled : Nat) : State :=
  let a := poolReg c k + 8
  let s := setFld s a 26 0 filled
  if flag s 0x404040 (28 + c) ∨ sheetsHeld s c ≠ 0 then raise s (.spill 2) 0
  else setPart s c k { started := true, ring := fld s a 26 0, cache := [], runs := [(none, fld s a 26 0)], writeAt := fld s a 26 0 }

/-- The first entry of a ring, where it is known, and the ring after it. -/
def popRun : List (Option (Nat × Nat) × Nat) → Option (Option Nat × List (Option (Nat × Nat) × Nat))
  | [] => none
  | (_, 0) :: l => popRun l
  | (r, n + 1) :: l => some (r.map (·.1), (r.map fun x => (x.1 + x.2, x.2), n) :: l)

/-- The first `n` entries of a ring, and the ring after them. -/
def takeRuns : Nat → List (Option (Nat × Nat) × Nat) → List (Option Nat) × List (Option (Nat × Nat) × Nat)
  | 0, l => ([], l)
  | n + 1, l =>
    match popRun l with
    | none => ([], [])
    | some (a, l) => (a :: (takeRuns n l).1, (takeRuns n l).2)

/-- The capacity of a partition's ring in entries. -/
def freeRingSize (s : State) (c k : Nat) : Nat := max 1 (fld s (poolReg c k + 4) 26 0)

/-- The request that moves ring entries from entry `at_` on. -/
def ringRequest (s : State) (c k at_ : Nat) (ws : List Nat) : Out :=
  cxlRequest c (fld s (poolReg c k) 25 0 + at_ * 4 / 4096) (at_ * 4 % 4096) ws

/-- A block of 64 free-ring entries moves between a partition's ring and its cache. A read returns what the ring lists. -/
def ringTransfer (s : State) (c k : Nat) (addresses : Option (List Nat)) : State :=
  let p := partAt s c k
  match addresses with
  | some l =>
    let r := takeRuns l.length p.runs
    if p.started ∧ p.cache.length < 256 ∧ l ≠ [] ∧ l.length = min 64 p.ring ∧ (r.1.zip l).all (fun e => e.1.all (· == e.2)) then
      emit (setPart s c k { p with
        ring := p.ring - l.length, cache := p.cache ++ l, runs := r.2, readAt := (p.readAt + l.length) % freeRingSize s c k })
        (ringRequest s c k p.readAt [l.length])
    else s
  | none =>
    if p.started ∧ 768 < p.cache.length then
      emit (setPart s c k { p with
        ring := p.ring + 64, cache := p.cache.drop 64, runs := p.runs ++ (p.cache.take 64).map (fun a => (some (a, 0), 1)),
        writeAt := (p.writeAt + 64) % freeRingSize s c k })
        (ringRequest s c k p.writeAt (p.cache.take 64))
    else s

/-! ### SPILL_QUERY -/

/-- The result registers of SPILL_QUERY. -/
def spillQuery (s : State) (q : Nat) : State :=
  let s := setFld s 0x404078 16 0 q
  match (queueAt s q).spill with
  | none => wr (wr s 0x40407C 0) 0x404080 0
  | some c =>
    let code := match c.sub with | .spilling => 1 | .blocked => 2 | .draining => 3
    let s := wr s 0x40407C (code * 2 ^ 30 + (c.index.filter inPrefetch).length * 2 ^ 26 +
      (c.index.filter fun sh => !sh.abandoned).length)
    wr s 0x404080 (spillHeld s q)

/-! ### The commands -/

/-- BATCH_CLOSE: the open batch of a queue closes (R154), and the queue may leave spill state (R155). -/
def execBatchClose (queue : Fin 131072) (s : State) : Res := done (spillExit (closeBatch s queue) queue)

/-- SHEET_CHOICE: a requester that holds a queue's batch chooses a sheet (R163). -/
def execSheetChoice (queue : Fin 131072) (s : State) : Res := done (sheetChoice s queue)

/-- SHEET_WAIT_EXPIRY: a batch has waited for SHEET_WAIT (R163). -/
def execSheetWaitExpiry (queue : Fin 131072) (s : State) : Res := done (sheetWaitOver s queue)

/-- SHEET_WRITE_DONE: the write of a sheet completes (R139, R165). -/
def execSheetWriteDone (queue : Fin 131072) (serial : Nat) (s : State) : Res := done (sheetWritten s queue serial)

/-- PREFETCH_START: the prefetch engine takes a sheet (R167). -/
def execPrefetchStart (queue : Fin 131072) (s : State) : Res := done (prefetch s queue)

/-- SPILL_READ_RETURN: a 64-byte read returns (R168). -/
def execSpillReadReturn (queue : Fin 131072) (serial block : Nat) (status : ReadStatus) (s : State) : Res :=
  done (readReturn s queue serial block status)

/-- SPILL_READ_TIMEOUT: a record's reads are not completed in time (R169). -/
def execSpillReadTimeout (queue : Fin 131072) (serial record : Nat) (s : State) : Res :=
  done (failTimedOut (readTimeout s queue serial record))

/-- SHEET_RELEASE: the pool manager checks a released sheet (R166). -/
def execSheetRelease (queue : Fin 131072) (serial : Nat) (headerOk ownerOk poisoned : Bool) (s : State) : Res :=
  done (poolRelease s queue serial headerOk ownerOk poisoned)

/-- SHEET_AGE_SCAN: the spill engine examines the oldest unread entry of a queue (R171). -/
def execSheetAgeScan (queue : Fin 131072) (s : State) : Res :=
  done (ageScan ((((queueAt s queue).spill).map fun c => c.index.length).getD 0) s queue)

/-- SPILL_PLACE_WRITE: a write of SPILL_CONTROL.PLACE (R176, R189). -/
def execSpillPlaceWrite (src : Source) (mask : Fin 16) (s : State) : Res :=
  done (guarded s src 0x404040 fun s => writePlace s mask)

/-- FORCE_DISCARD: a write of 1s to SPILL_CONTROL.FORCE_DISCARD (R177). -/
def execForceDiscard (src : Source) (mask : Fin 16) (s : State) : Res :=
  done (guarded s src 0x404040 fun s => forceDiscards s mask)

/-- POOL_INIT: a write of 1 to INIT of a partition (R161). -/
def execPoolInit (src : Source) (port pool : Fin 4) (filled : Nat) (s : State) : Res :=
  done (guarded s src (0x406048 + (4 * port.val + pool.val) * 0x20) fun s => poolInit s port pool filled)

/-- SPILL_QUERY: a write of 1 to SPILL_QUERY.GO (R156). -/
def execSpillQuery (src : Source) (queue : Fin 131072) (s : State) : Res :=
  done (guarded s src 0x404078 fun s => spillQuery s queue)

/-- FREE_RING_TRANSFER: 64 free-ring entries are taken (with their addresses) or given back (R161). -/
def execFreeRingTransfer (port pool : Fin 4) (addresses : Option (List Nat)) (s : State) : Res :=
  done (ringTransfer s port pool addresses)

end Sys2Proof.Machine
end

