-- ==== Sys2Proof/Machine/Admission.lean ====
section
/-! DEFINITION. Ingress stage 9 (R130 to R148, R156, R212, R318 to R322): the admission steps, the charge and its sharers, cut-through,
mirror copies, and mirror-only frames of drops. -/

namespace Sys2Proof.Machine

/-! ### Preemption of a port (R228 to R230) -/

def preemptEnabled (s : State) (p : Nat) : Bool := p < 64 && flag s (portReg p 1 0xD0) 31 && flag s (portReg p 1 0xD4) 30
/-- PREEMPT_STATUS.ACTIVE. -/
def preemptActive (s : State) (p : Nat) : Bool := p < 64 && flag s (portReg p 1 0xD4) 31
/-- Frames of class `c` leave port `p` through the express MAC. -/
def expressClass (s : State) (p c : Nat) : Bool := !preemptActive s p || flag s (portReg p 1 0xD0) c

/-! ### The steps (R136 to R138, R142, R156) -/

/-- Steps 1 to 3 for a frame that charges `leaves` and links `copies`: the refusal reason, 0 when they pass, and whether the
frame goes to its port's PFC headroom. -/
def frameSteps (s : State) (f : Frame) (copies leaves : Nat) (mayHeadroom : Bool) : Nat × Bool :=
  if 262144 < s.buffer.descriptors.length + copies then (0x20, false)
  else
    let full := globalLimit s f.colour < s.buffer.sharedUsed + leaves
    let portFull := colourLimit (rd s (0x401040 + f.inPort * 8)) f.colour < sget zeroNat s.buffer.ingress f.inPort + leaves
    if !full ∧ !portFull then (0, false)
    else
      let p := f.inPort
      let room : Bool := mayHeadroom && p < 64 && flag s (portReg p 1 0x40) 28 &&
        fcInForce s p (if fcMode s p = 1 then 0 else f.fcPrio) &&
        sget zeroNat s.buffer.headUsed p + leaves ≤ fld s (0x401044 + p * 8) 11 0
      if room then (0, true) else (if full then 0x21 else 0x22, false)

/-- The spill admission check of a SPILLING queue (R156). -/
def spillAdmits (s : State) (f : Frame) (q C : Nat) (x : SpillCtx) : Bool :=
  let w := rd s (0x405040 + bits (tabEpoch s f.epoch 0x11 q) 127 122 * 16)
  let green := bits w 25 0 * 4096
  let eighths := fun (n : Nat) => if n = 0 then 8 else n
  let limit := match f.colour with
    | 0 => green | 1 => green * eighths (bits w 31 29) / 8 | _ => green * eighths (bits w 28 26) / 8
  spillBytes x + 256 * (tailLeaves s (queueAt s q) + C) ≤ limit

/-- Steps 4 to 6 for one copy of charge `C`: the refusal reason, 0 when they pass. -/
def copySteps (s : State) (f : Frame) (p q C : Nat) : Nat :=
  let node := q / 8
  if colourLimit (rd s (0x402040 + p * 8)) f.colour < sget zeroNat s.buffer.egress p + C then 0x23
  else if colourLimit (rd s (0x403040 + bits (tabEpoch s f.epoch 0x11 (subIdx node)) 97 92 * 4)) f.colour <
      sget zeroNat s.buffer.node node + C then 0x24
  else
    let v := queueAt s q
    let onChip := if queueLimit s (bits (tabEpoch s f.epoch 0x11 q) 127 122) f.colour < v.leaves + C then 0x25 else 0
    match v.spill with
    | some x => if x.sub == .spilling then (if spillAdmits s f q C x then 0 else 0x26) else onChip
    | none => onChip

/-- Counters and interrupts of an admission refusal beside DROP_r (R151, R178). -/
def countRefusal (s : State) (reason : Nat) : State :=
  match reason with
  | 0x1F => raise (count s 3948 1) .sched 1
  | 0x20 => raise (count s 3910 1) (.buffer 0) 1
  | 0x21 => raise (count s 3909 1) (.buffer 0) 0
  | 0x22 => count s 3911 1
  | 0x23 => count s 3912 1
  | 0x24 => count s 3913 1
  | 0x25 => count s 3914 1
  | 0x26 => count s 3924 1
  | _ => s

/-! ### Mirror-only frames (R322) -/

/-- A front-port session takes a dropped frame: a mirror-only frame of its own passes steps 1 to 6, and follows the bytes of
the dropped one until its end. -/
def mirrorOnlyFrame (s : State) (i : Nat) (m : Mark) : State :=
  let f := frameAt s i
  let p := mirrorPort m.config
  let q := mirrorQueue s f.epoch m.config
  let C := max 1 (ceilDiv (frameLen f) 256)
  let up := portState s p == 2 || portState s p == 3
  if !up ∨ !attached s f.epoch (q / 8) p ∨ (frameSteps s f 1 C false).1 ≠ 0 ∨ copySteps s f p q C ≠ 0 then
    refuseMirror s m.session
  else
    let j := s.nextFrame
    let c : Copy := { frame := j, kind := .mirrorDrop m.session m.config m.carrier, port := p, queue := q }
    let g : Frame := { f with refs := [1], chains := [], charge := C, copies := [], trace := none,
                              marks := [], followers := [], refused := [], lateEnq := [], launch := none, ring := none,
                              debits := [], coloured := [], filter := none, vlanCounted := false, subCounted := false, tallies := [] }
    let (c, s) := takeDescriptor { s with nextFrame := j + 1 } c
    let s := setFrame s j { g with copies := if f.ended then [] else [c] }
    let s := sizeChain (chargeCopy (chargeLeaves s g C) c C) j 0 C
    if f.ended then count (enqueueCopy s c) (544 + 2 * m.session) 1
    else setFrame s i { f with followers := f.followers ++ [j] }

/-- Drop mirroring of a frame, or of a copy for port `out` and queue `q`, at stages 2 to 9 (R322). A capture passes steps 1 to 3
and releases its sharer at once. -/
def mirrorDrops (s : State) (i reason out : Nat) (q : Option Nat) : State :=
  if reason < 0x08 ∨ 0x26 < reason ∨ reason = 0x0D then s
  else
    let (marks, s) := decideMarks s (frameAt s i)
    let s := setFrame s i { frameAt s i with marks, marked := true }
    marks.foldl (fun s m =>
      if !markDrop m then s
      else if toCapture m.config then
        let f := frameAt s i
        if (frameSteps s f 0 (max 1 (ceilDiv (frameLen f) 256)) false).1 ≠ 0 then refuseMirror s m.session
        else makeCapture s f { direction := 2, session := m.session, reason, length := frameLen f, outPort := out, queue := q,
                               time := f.rx / 2 ^ 16 } f.bytes
      else mirrorOnlyFrame s i m) s

/-- Frame `i` is dropped whole at an ingress stage under `reason`. A frame that an earlier stage diverted has been counted under its one
reason (R83). -/
def dropFrame (s : State) (i reason : Nat) : State :=
  let s := countRefusal (if (frameAt s i).accounted then s else countDrop s reason 1) reason
  let s := setFrame s i { frameAt s i with reason }
  let s := mirrorDrops s i reason 127 none
  let (f, s) := traceEnd s (frameAt s i) reason none
  setFrame s i f

/-- A copy of frame `i` is refused at admission: its drop, and its queue's count at the frame's end. -/
def refuseCopy (s : State) (i reason port : Nat) (q : Option Nat) : State :=
  let s := countRefusal (countDrop s reason 1) reason
  let f := frameAt s i
  let s := setFrame s i { f with
    refused := f.refused ++ q.toList,
    refusal := if f.refusal = 0 then reason else f.refusal }
  mirrorDrops s i reason port q

/-! ### Candidates and step 0 -/

/-- No copy of frame `i` was admitted: it is dropped, with the reason of its lowest copy, which has been counted. -/
def noneAdmitted (s : State) (i : Nat) : State :=
  let f := frameAt s i
  let f := { f with reason := if f.reason = 0 then f.refusal else f.reason }
  let (f, s) := traceEnd s f f.reason none
  setFrame s i f

/-- A copy that admission is to decide. -/
structure Candidate where
  port : Nat
  kind : CopyKind
  queue : Nat := 0
  deriving DecidableEq, Repr

/-- The reason for which step 0 refuses a copy, and its queue. -/
def stepZero (s : State) (f : Frame) (node : Option Nat) (port : Nat) : Nat × Option Nat :=
  if port = 127 then (0x1E, none)
  else
    let q := queueFor s f.epoch port node f.cls
    if port ≠ 64 ∧ portState s port ≠ 2 ∧ portState s port ≠ 3 then (0x1E, q)
    else if q.isNone then (0x1F, none) else (0, q)

/-- Candidates that pass step 0; the others are refused. -/
def passZero (i : Nat) (node : Option Nat) (r : List Candidate × State) (c : Candidate) : List Candidate × State :=
  match stepZero r.2 (frameAt r.2 i) node c.port with
  | (0, some q) => (r.1 ++ [{ c with queue := q }], r.2)
  | (reason, q) => (r.1, refuseCopy r.2 i reason c.port q)

/-! ### Cut-through (R145, R146, R212) -/

/-- Copy `c` of a frame is forwarded by cut-through. -/
def cutThrough (s : State) (f : Frame) (c : Copy) : Bool :=
  let p := c.port
  let v := portAt s p
  c.kind == .forward && bitAt (rdEpoch s f.epoch 0x3040) 25 &&
  f.inPort < 64 && p < 64 && bitAt (rdEpoch s f.epoch (portReg f.inPort 0 0x40)) 29 &&
  !queueBusy (queueAt s c.queue) && (queueAt s c.queue).spill.isNone && pathPermits s c.queue p &&
  portUp s p && v.txExpress.isNone && v.txPreempt.isNone && v.selected.isNone && v.selectedPreempt.isNone &&
  pausedClasses s p == 0 && !flag s (portReg p 0 0x4C) 25 && egressOpen s && pipelineRuns s (sliceOf p) &&
  portGbps s p ≤ portGbps s f.inPort && !f.preemptable &&
  (f.ended || !gateEnabled s p)

/-- The copy passes its queue: catchword, counts, debit, and its place as the port's selected frame. -/
def passQueue (s : State) (c : Copy) : State :=
  let (c, s) := takeCatchword s { c with cut := true }
  let s := countEnqueue (count s 3917 1) c
  let f := frameAt s c.frame
  let s := debitPath s c.queue c.port (shapedLength s c.port f.metered)
  let v := queueAt s c.queue
  let s := setQueue s c.queue { v with cutHeld := v.cutHeld + 1 }
  let p := portAt s c.port
  let s := setPort s c.port (if expressClass s c.port f.cls then { p with selected := some c } else { p with selectedPreempt := some c })
  if traceFollows f c then
    let s := traceEnqueue s c.frame c false (queueAt s c.queue).leaves 0
    setFrame s c.frame (tracePoint s (frameAt s c.frame) 4)
  else s

/-! ### Admission -/

/-- The mirror sharers of a frame: ingress copies, and one egress copy per marked forwarding copy (R318, R320). -/
def mirrorSharers (f : Frame) (cs : List Candidate) : List (CopyKind × Nat) :=
  (f.marks.filter markIngress).map (fun m => (.mirrorRx m.session m.config m.carrier, 127)) ++
  cs.flatMap fun c => if c.kind = .forward then
    (f.marks.filter fun m => markEgress m c.port).map fun m => (.mirrorTx m.session m.config m.carrier, c.port) else []

/-- The receive ring of a copy for the host port: by its trap code when that is not 0, else by its class (R339). -/
def hostRing (s : State) (kind : CopyKind) (cls : Nat) : Nat :=
  let byte := fun (base k : Nat) => bits (rd s (base + k / 4 * 4)) (k % 4 * 8 + 5) (k % 4 * 8)
  match kind with
  | .trap code => if code = 0 then byte 0x9200 cls else byte 0x9100 code
  | _ => byte 0x9200 cls

/-- A forwarding or trap copy meets steps 4 to 6 as sharer number `n`; it is charged when it passes. -/
def admitCopy (i C : Nat) (r : List Copy × Nat × State) (c : Candidate) : List Copy × Nat × State :=
  let (acc, n, s) := r
  match copySteps s (frameAt s i) c.port c.queue C with
  | 0 =>
    let ring := if c.port = 64 then hostRing s c.kind (frameAt s i).cls else 0
    let copy : Copy := { frame := i, kind := c.kind, port := c.port, queue := c.queue, phys := n / 255, ring }
    (acc ++ [copy], n + 1, chargeCopy s copy C)
  | reason => (acc, n + 1, refuseCopy s i reason c.port (some c.queue))

/-- The session and configuration of an ingress or egress mirror copy. -/
def mirrorSession : CopyKind → Nat × Nat
  | .mirrorRx n config _ => (n, config)
  | .mirrorTx n config _ => (n, config)
  | _ => (0, 0)

/-- Step 0 of R136 for a mirror sharer: a capture has no queue and always passes; a front-port destination is UP or HOLD, and its mirror
queue hangs under it (R320, R321). -/
def mirrorPasses (s : State) (f : Frame) (m : CopyKind × Nat) : Bool :=
  let config := (mirrorSession m.1).2
  let p := mirrorPort config
  toCapture config || ((portState s p == 2 || portState s p == 3) && attached s f.epoch (mirrorQueue s f.epoch config / 8) p)

/-- A mirror copy is refused: counted in its session, and for its queue where it has one, at the frame's end (R306, R320). -/
def refuseSharer (s : State) (i : Nat) (m : CopyKind × Nat) (q : Option Nat) : State :=
  let f := frameAt s i
  refuseMirror (setFrame s i { f with refused := f.refused ++ q.toList }) (mirrorSession m.1).1

/-- A mirror sharer that passed step 0 meets steps 4 to 6 for a front-port destination. -/
def admitMirror (i C : Nat) (kept : List Nat) (r : List Copy × Nat × State) (m : CopyKind × Nat) : List Copy × Nat × State :=
  let (acc, n, s) := r
  let f := frameAt s i
  let config := (mirrorSession m.1).2
  if m.2 ≠ 127 ∧ m.2 ∉ kept then (acc, n + 1, refuseSharer s i m none)
  else if toCapture config then
    (acc ++ [{ frame := i, kind := m.1, port := 127, phys := n / 255, source := m.2 }], n + 1, s)
  else
    let p := mirrorPort config
    let q := mirrorQueue s f.epoch config
    if copySteps s f p q C = 0 then
      let copy : Copy := { frame := i, kind := m.1, port := p, queue := q, phys := n / 255, source := m.2 }
      (acc ++ [copy], n + 1, chargeCopy s copy C)
    else (acc, n + 1, refuseSharer s i m (some q))

/-- A copy has a queue. -/
def hasQueue (c : Copy) : Bool := c.port != 127

/-- A copy stays with its frame, with a descriptor where it has a queue. -/
def keepCopy (s : State) (i : Nat) (c : Copy) : State :=
  let (c, s) := if hasQueue c then takeDescriptor s c else (c, s)
  let f := frameAt s i
  setFrame s i { f with copies := f.copies ++ [c] }

/-- The port that a trace follows: the lowest egress port (R327). -/
def tracePortOf (cs : List Copy) : Nat := cs.foldl (fun m c => min m c.port) 127

/-- The accepted sharers take their leaves, descriptors and reference counts, and the copies go on: cut-through copies at once,
ingress mirror copies to their queues, the others with the frame until it ends or their source copy leaves. -/
def settleAdmission (s : State) (i C : Nat) (headroom : Bool) (fwd mirrors : List Copy) : State :=
  let all := fwd ++ mirrors
  let n := all.foldl (fun n c => max n (c.phys + 1)) 0
  let refs := (List.range n).map fun k => (all.filter fun c => c.phys == k).length
  let f := frameAt s i
  let f := { f with
    headroom, charge := C, refs,
    trace := f.trace.map fun t => { t with port := tracePortOf fwd } }
  let f := tracePoint s f 2
  let s := setFrame s i f
  let s := sizeChains (chargeLeaves s f (C * (refs.filter (· ≠ 0)).length)) i C
  let s := if headroom ∧ !fwd.isEmpty then count s 3915 1 else s
  let s := fwd.foldl (fun s c => if cutThrough s (frameAt s i) c then passQueue s c else keepCopy s i c) s
  mirrors.foldl (fun s c => match c.kind with
    | .mirrorRx n config _ =>
      if toCapture config then keepCopy s i c
      else
        let (c, s) := takeDescriptor s c
        count (linkCopy s c) (544 + 2 * n) 1
    | _ => keepCopy s i c) s

/-- Stage 9 for frame `i`: forwarding copies for `ports`, and the copies for the host that a trap or a copy-to-host adds. `empty`
is the reason of an empty destination set (R92). -/
def admission (s : State) (i : Nat) (node : Option Nat) (ports : List Nat) (empty : Nat) : State :=
  let f := frameAt s i
  if (List.range 4).any fun k => flag s (sliceReg f.slice k 8) 31 then dropFrame s i 0x06
  else
    let fwd : List Candidate := (ports.mergeSort).map fun p => { port := p, kind := .forward }
    let host : List Candidate := (f.trap.or f.copyTrap).toList.map fun t => { port := 64, kind := .trap t }
    let s := if f.trap.isNone ∧ ports.isEmpty then
        (if host.isEmpty then dropFrame s i empty
         else mirrorDrops (countDrop (setFrame s i { f with accounted := true }) empty 1) i empty 127 none)
      else s
    let (cs, s) := (fwd ++ host).foldl (passZero i node) ([], s)
    if cs.isEmpty then noneAdmitted s i
    else
      let f := frameAt s i
      let (mirrors, out) := (mirrorSharers f cs).partition (mirrorPasses s f)
      let C := ceilDiv f.metered 256
      let P := ceilDiv (cs.length + mirrors.length + f.trace.toList.length) 255
      let linked := cs.length + (mirrors.filter fun m => !toCapture (mirrorSession m.1).2).length
      let (reason, headroom) := frameSteps s f linked (C * P) true
      if reason ≠ 0 then dropFrame s i reason
      else
        let s := out.foldl (fun s m => refuseSharer s i m (some (mirrorQueue s f.epoch (mirrorSession m.1).2))) s
        let (kept, n, s) := cs.foldl (admitCopy i C) ([], 0, s)
        let (ms, _, s) := mirrors.foldl (admitMirror i C (kept.map (·.port))) ([], n, s)
        let s := settleAdmission s i C headroom kept ms
        if kept.isEmpty then noneAdmitted s i else s

end Sys2Proof.Machine
end

