-- ==== Sys2Proof/Machine/Edit.lean ====
section
/-! DEFINITION. What an egress edit does to the bytes of a frame (R81, R82), and the one-step correction of PTP event messages
with the checksums that follow it (R246, R248). -/

namespace Sys2Proof.Machine

/-- What the edit reads beside the frame: the profile entry of R82, the four TPIDs, and what stage 4 adds. -/
structure EditPlan where
  profile : Nat
  tpids : List Nat
  /-- The addition to correctionField in 2^-16 ns, none when the frame is not corrected. -/
  add : Option Int
  deriving DecidableEq, Repr

/-- POP and PUSH of a profile: 3 acts as 2. -/
def editPop (e : Nat) : Nat := min 2 (bits e 63 62)
def editPush (e : Nat) : Nat := min 2 (bits e 61 60)

/-- PCP and DEI as bits [15:12] of a TCI, under PCP_MODE. -/
def editPcp (f : Frame) (e : Nat) : Nat :=
  let ofClass := f.cls * 2 + bit (f.colour == 1)
  match bits e 30 29 with
  | 1 => ofClass
  | 2 => bits e 28 26 * 2 + bits e 25 25
  | _ => if f.parsed.tags = 0 then ofClass else beAt f.bytes 14 2 / 4096

/-- A tag header of four bytes. -/
def tagBytes (tpid tci : Nat) : List Byte := beBytes 2 tpid ++ beBytes 2 tci

/-- The tags that a profile pushes, outermost first. -/
def pushedTags (f : Frame) (p : EditPlan) : List Byte :=
  let e := p.profile
  let pcp := editPcp f e * 4096
  let outer := tagBytes (p.tpids.getD (bits e 59 58) 0) (pcp + (if bitAt e 31 then f.vid else bits e 55 44))
  match editPush e with
  | 0 => []
  | 1 => outer
  | _ => outer ++ tagBytes (p.tpids.getD (bits e 57 56) 0) (pcp + bits e 43 32)

/-- Tags removed. -/
def poppedTags (f : Frame) (e : Nat) : Nat := min (editPop e) f.parsed.tags

/-- Steps 1 to 3 of R81 on the bytes from the destination address on. -/
def editTags (f : Frame) (p : EditPlan) (b : List Byte) : List Byte :=
  let n := poppedTags f p.profile
  let b := b.take 12 ++ pushedTags f p ++ b.drop (12 + 4 * n)
  if bitAt p.profile 24 ∧ f.parsed.tags - n + editPush p.profile ≠ 0 then
    patch b 14 (beBytes 2 (editPcp f p.profile * 4096 + beAt b 14 2 % 4096))
  else b

/-- How far the headers behind the tags move. -/
def editShift (f : Frame) (e : Nat) (off : Nat) : Nat := off + 4 * editPush e - 4 * poppedTags f e

/-- One's-complement sum of two words. -/
def onesAdd (a b : Nat) : Nat := let t := a + b; t % 65536 + t / 65536

/-- Step 4 of R81: the DSCP, with the incremental update of the IPv4 header checksum. -/
def editDscp (f : Frame) (e : Nat) (b : List Byte) : List Byte :=
  let off := editShift f e f.parsed.l3Off
  if !bitAt e 23 then b
  else match f.parsed.l3 with
    | 1 =>
      let old := beAt b off 2
      let new := putBits old 7 2 (bits e 22 17)
      let sum := 65535 - onesAdd (onesAdd (65535 - beAt b (off + 10) 2) (65535 - old)) new
      patch (patch b off (beBytes 2 new)) (off + 10) (beBytes 2 sum)
    | 2 => patch b off (beBytes 2 (putBits (beAt b off 2) 11 6 (bits e 22 17)))
    | _ => b

/-- correctionField after an addition (R246). -/
def correctionSum (old : Nat) (add : Int) : Nat :=
  let sum := signed old 64 + add
  if old = 0x7FFFFFFFFFFFFFFF ∨ sum < -(2 ^ 63) ∨ 2 ^ 63 ≤ sum then 0x7FFFFFFFFFFFFFFF else unsigned sum 64

/-- The correction saturates. -/
def saturates (old : Nat) (add : Int) : Bool :=
  old = 0x7FFFFFFFFFFFFFFF || signed old 64 + add < -(2 ^ 63) || 2 ^ 63 ≤ signed old 64 + add

/-- The event message came over UDP. -/
def ptpOverUdp (f : Frame) : Bool := f.parsed.l4 == 1

/-- The trailer of UDP over IPv6 exists (R248); `off` is where the message begins. -/
def hasTrailer (b : List Byte) (off : Nat) : Bool := 8 + beAt b (off + 2) 2 + 2 ≤ beAt b (off - 4) 2

/-- A frame that lacks the trailer it needs is sent uncorrected. -/
def correctable (f : Frame) (b : List Byte) (off : Nat) : Bool :=
  !(ptpOverUdp f && f.parsed.l3 == 2) || hasTrailer b off

/-- The sum of the four words of an eight-byte field. -/
def fieldSum (n : Nat) : Nat :=
  onesAdd (onesAdd (n / 2 ^ 48 % 65536) (n / 2 ^ 32 % 65536)) (onesAdd (n / 2 ^ 16 % 65536) (n % 65536))

/-- A word with its bytes exchanged. -/
def swapWord (n : Nat) : Nat := n % 256 * 256 + n / 256 % 256

/-- The trailer that keeps the one's-complement sum of the payload when the field changes from `old` to `new`; a trailer at
an odd offset stands across two words of the sum. -/
def newTrailer (t old new : Nat) (odd : Bool) : Nat :=
  let t := if odd then swapWord t else t
  let t := onesAdd (onesAdd t (fieldSum old)) (65535 - fieldSum new)
  if odd then swapWord t else t

/-- Step 5 of R81: correctionField and the checksum behind it. -/
def editPtp (f : Frame) (p : EditPlan) (b : List Byte) : List Byte :=
  match p.add with
  | none => b
  | some add =>
    let off := editShift f p.profile f.parsed.ptpOff
    if !correctable f b off then b
    else
      let old := beAt b (off + 8) 8
      let new := correctionSum old add
      let b := patch b (off + 8) (beBytes 8 new)
      if !ptpOverUdp f then b
      else if f.parsed.l3 = 1 then patch b (off - 2) (beBytes 2 0)
      else
        let t := off + (beAt b (off - 4) 2 - 8) - 2
        if t + 2 ≤ b.length then
          patch b t (beBytes 2 (newTrailer (beAt b t 2) old new ((beAt b (off - 4) 2) % 2 == 1)))
        else b

/-- The bytes of a frame (without its FCS) after the edit. -/
def edited (f : Frame) (p : EditPlan) (body : List Byte) : List Byte :=
  editPtp f p (editDscp f p.profile (editTags f p body))

/-- A mirror copy leaves with its own bytes, under a carrier tag if it has one (R321). -/
def carried (carrier : Option Nat) (b : List Byte) : List Byte :=
  match carrier with
  | none => b
  | some t => b.take 12 ++ beBytes 4 t ++ b.drop 12

end Sys2Proof.Machine
end

