-- ==== Sys2Proof/Machine/Egress.lean ====
section
/-! DEFINITION. Egress (R16, R17, R145, R148, R150, R199, R204, R224 to R232, R244 to R249, R320): eligibility and selection, the
egress stages of a selected copy, transmission, preemption, and the end of a transmission. -/

namespace Sys2Proof.Machine

/-! ### The gate check (R224, R225, R232) -/

/-- GATE_MARGIN.NS of a front port. -/
def gateMargin (s : State) (p : Nat) : Nat := fld s (portReg p 1 0x98) 15 0

/-- L_c of a stored length: 8 bytes for the largest edit (R224). -/
def gateLength (len : Nat) : Nat := len + 8

/-- D of R224 for a length L_c. -/
def gateSpan (s : State) (p L : Nat) : Nat := wireNs s p (8 + L) + gateMargin s p

/-- The smallest non-final fragment, mCRC included (R230). -/
def minFragment (s : State) (p : Nat) : Nat := 64 * (1 + fld s (portReg p 1 0xD0) 9 8)

/-- A frame or remainder of length L_c may start in class `c` at device time `t` (R224, R232). -/
def gatePasses (s : State) (p c t L : Nat) : Bool :=
  gateOpenUntil s p c t (t + gateSpan s p L) ||
  (!expressClass s p c && minFragment s p + 64 ≤ L &&
    gateOpenUntil s p c t (t + wireNs s p (8 + minFragment s p) + gateMargin s p))

/-- The frame can never pass (R225): its D exceeds the longest span of its class, and it is not a preemptable frame that R232 lets start
in a shorter span. -/
def neverPasses (s : State) (p c L : Nat) : Bool :=
  gateTooLong s p c (gateSpan s p L) &&
  (expressClass s p c || L < minFragment s p + 64 ||
    gateTooLong s p c (wireNs s p (8 + minFragment s p) + gateMargin s p))

/-! ### When a MAC is free (R204, R230) -/

/-- A mirror copy's session registers. -/
def mirrorOf : CopyKind → Option (Nat × Nat × Bool)
  | .forward => none
  | .trap _ => none
  | .mirrorRx _ config carrier => some (config, carrier, false)
  | .mirrorTx _ config carrier => some (config, carrier, false)
  | .mirrorDrop _ config carrier => some (config, carrier, true)

/-- The bytes that a transmission sends, without an FCS; `whole` is false for a frame cut short. -/
def txBody (s : State) (t : Tx) (whole : Bool) : List Byte :=
  let f := frameAt s t.copy.frame
  let body := if whole then dropFcs f.bytes else f.bytes
  match mirrorOf t.copy.kind with
  | some _ => carried t.carrier body
  | none => edited f ⟨t.profile, t.tpids, t.add⟩ body

/-- Bytes of a frame still to be sent from its present fragment's start: of the frame as it leaves, FCS included. -/
def txLeft (s : State) (t : Tx) : Nat := (txBody s t true).length + 4 - t.sent

/-- Steady ns at which a transmission ends on the wire; none while its frame has not ended. -/
def txEnds (s : State) (p : Nat) (t : Tx) : Option Nat :=
  if (frameAt s t.copy.frame).ended then some (t.start + wireNs s p (8 + txLeft s t)) else none

/-- The ns until a transmission ends, when that is within the last 100 ns. -/
def lastNs (s : State) (p : Nat) (t : Tx) : Option Nat :=
  match txEnds s p t with
  | none => none
  | some e => if e ≤ now s + 100 then some (e - now s) else none

/-- Bytes of a suspended or running preemptable frame sent by now in its present fragment, mCRC not included. -/
def sentByNow (s : State) (p at_ : Nat) (t : Tx) : Nat := (at_ - t.start) * portGbps s p / 8 - 12

/-- The fragment that ends at or after `at_`: its bytes without the mCRC; none where Clause 99 leaves no place to cut, since the
last fragment holds at least 64 bytes. -/
def fragmentAt (s : State) (p at_ : Nat) (t : Tx) : Option Nat :=
  let n := max (minFragment s p - 4) (sentByNow s p at_ t)
  if (frameAt s t.copy.frame).ended ∧ n + 64 ≤ txLeft s t then some n else none

/-- The ns after which a MAC of port `p` can start a frame; none when it cannot yet. -/
def macFreeIn (s : State) (p : Nat) (express : Bool) : Option Nat :=
  let v := portAt s p
  if !express ∧ (v.txPreempt.any (·.suspended)) then none
  else match onWire v.txExpress, onWire v.txPreempt with
  | some t, _ => lastNs s p t
  | none, some t =>
    if express ∧ preemptActive s p then
      match fragmentAt s p (now s) t with
      | some n => some (t.start + wireNs s p (12 + n) - now s)
      | none => lastNs s p t
    else lastNs s p t
  | none, none => some 0

/-- The port's MAC has a selected copy. -/
def selectedOf (s : State) (p : Nat) (express : Bool) : Option Copy :=
  if express then (portAt s p).selected else (portAt s p).selectedPreempt

def setSelected (s : State) (p : Nat) (express : Bool) (c : Option Copy) : State :=
  let v := portAt s p
  setPort s p (if express then { v with selected := c } else { v with selectedPreempt := c })

def txOf (s : State) (p : Nat) (express : Bool) : Option Tx :=
  if express then (portAt s p).txExpress else (portAt s p).txPreempt

/-- While preemption is not active every frame leaves through the express MAC: a copy that the preemptable MAC has selected and not begun
goes over to it (R229). -/
def unifySelected (s : State) (p : Nat) : State :=
  let v := portAt s p
  if preemptActive s p ∨ v.selected.isSome then s
  else setPort s p { v with selected := v.selectedPreempt, selectedPreempt := none }

def setTx (s : State) (p : Nat) (express : Bool) (t : Option Tx) : State :=
  let v := portAt s p
  setPort s p (if express then { v with txExpress := t } else { v with txPreempt := t })

/-- No page of the port, of its lanes, of the scheduler or of the queue manager stands in its fault-safe action (R35). -/
def egressSound (s : State) (p : Nat) : Bool :=
  !flag s 0x500008 31 && !((List.range 4).any fun k => flag s (0x400008 + k * 0x1000) 31) &&
  (p = 64 || !(((List.range 4).any fun k => flag s (portReg p k 8) 31) ||
    (List.range (portAt s p).width).any fun k => flag s (0x300008 + (p + k) * 0x1000) 31))

/-! ### Eligibility (R199) and selection (R204) -/

/-- The head copy of a queue that could leave now: its frame has ended and no cut-through copy stands before it. -/
def readyHead (s : State) (q : Nat) : Option Copy :=
  match headCopy s q with
  | none => none
  | some c => if (queueAt s q).cutHeld = 0 ∧ (frameAt s c.frame).ended then some c else none

/-- Queue `q` is eligible at port `p` for a frame that starts at device time `t` (R199). -/
def eligibleAt (s : State) (p t q : Nat) : Bool :=
  match readyHead s q with
  | none => false
  | some c =>
    queuePort s q == some p && permitsA s q && !classPaused s p (q % 8) &&
    (p = 64 || gatePasses s p (q % 8) t (gateLength (frameLen (frameAt s c.frame))))

/-- A MAC of port `p` has selected the copy already. -/
def isSelected (s : State) (p : Nat) (c : Copy) : Bool :=
  (portAt s p).selected == some c || (portAt s p).selectedPreempt == some c

/-- The queues of a MAC of port `p` that a selection looks at, in ascending number: eligible ones, and with them those whose
head frame the selection is to discard. A head that is selected already takes no part (R61). -/
def contenders (s : State) (p : Nat) (express : Bool) (t : Nat) : List Nat :=
  (busyQueues s).filter fun q =>
    (p = 64 || expressClass s p (q % 8) == express) &&
    match readyHead s q with
    | none => false
    | some c => !isSelected s p c && (eligibleAt s p t q ||
        (queuePort s q == some p && p != 64 && permitsA s q && !classPaused s p (q % 8) &&
          neverPasses s p (q % 8) (gateLength (frameLen (frameAt s c.frame)))))

/-- A head frame that no span of its gate can pass is discarded (R225). -/
def dropTooLong (s : State) (p : Nat) (c : Copy) : State :=
  raise (count (dropCopy (takeCopy s c) c 0x2D) (portCounter p 11) 1) (.port p 1) 2

/-- A preemptable frame on the wire gives way to an express frame at the first place Clause 99 allows (R230). -/
def cutFragment (s : State) (p n : Nat) (t : Tx) : State :=
  let body := txBody s t true
  let part := slice body t.sent n
  let crc := crc32 0xEDB88320 (body.take (t.sent + n)) ^^^ 0x0000FFFF
  let s := emit s (.wire p (part ++ leBytes 4 crc))
  setTx s p false (some { t with sent := t.sent + n, fragments := t.fragments + 1, suspended := true })

/-- An express frame was selected: a preemptable frame in transmission ends its fragment. -/
def preempt (s : State) (p : Nat) : State :=
  if !preemptActive s p then s
  else
    match onWire (portAt s p).txPreempt with
    | none => s
    | some t => match fragmentAt s p (now s) t with
      | none => s
      | some n => cutFragment s p n t

/-- The port leaves transmit LPI (R56). -/
def wakeTransmit (s : State) (p : Nat) : State :=
  let s := setFlag s (portReg p 0 0x4C) 25 false
  let s := (List.range (portAt s p).width).foldl (fun s k => setFlag s (0x300044 + (p + k) * 0x1000) 24 false) s
  setPort s p { portAt s p with idleSince := now s }

/-- The copy becomes the selected one of its MAC; host port 64 keeps it for host egress. -/
def settleSelection (s : State) (p : Nat) (express : Bool) (c : Copy) : State :=
  let f := frameAt s c.frame
  let s := if traceFollows f c then setFrame s c.frame (tracePoint s f 4) else s
  if p = 64 then { s with host := { s.host with waiting := some c } }
  else
    let s := setSelected (wakeTransmit s p) p express (some c)
    if express then preempt s p else s

/-- Selection: stale heads and frames that no span can pass are discarded without a debit, and the scheduler selects again. -/
def selectFrame : Nat → State → Nat → Bool → Nat → State
  | 0, s, _, _, _ => s
  | fuel + 1, s, p, express, t =>
    match pickQueue s p (contenders s p express t) with
    | none => s
    | some (q, sc) =>
      match readyHead s q with
      | none => s
      | some c =>
        let f := frameAt s c.frame
        if staleFrame s f then selectFrame fuel (spillExit (dropStale (takeCopy s c) c) q) p express t
        else if p ≠ 64 && neverPasses s p (q % 8) (gateLength (frameLen f)) then
          selectFrame fuel (spillExit (dropTooLong s p c) q) p express t
        else
          let s := debitPath { s with sched := sc } q p (shapedLength s p (frameLen f))
          settleSelection (spillExit s q) p express c

/-- Items in the head segments of the queues: no selection discards more. -/
def headItems (s : State) : Nat := s.queues.foldl (fun n e => n + e.2.head.length) 1

/-- The egress pipelines of port `p` run: its slice is awake and no core clock change stalls it (R14, R15); the host port's run with
the core. -/
def egressRuns (s : State) (p : Nat) : Bool :=
  if p = 64 then coreRuns s && s.power.stallUntil.isNone else pipelineRuns s (sliceOf p)

/-- A port node selects when its port can start a frame (R204). -/
def portSelect (s : State) (p : Nat) (express : Bool) : State :=
  if !egressRuns s p ∨ !egressSound s p then s
  else if p = 64 then
    if s.host.waiting.isSome then s else selectFrame (headItems s) s 64 true (devNs s)
  else
    let s := unifySelected s p
    if !portUp s p ∨ !egressOpen s ∨ (selectedOf s p express).isSome ∨ (!express ∧ !preemptActive s p) then s
    else
      match macFreeIn s p express with
      | none => s
      | some wait => selectFrame (headItems s) s p express (devNs s + wait)

/-! ### PTP correction (R244 to R249) -/

/-- The transmit timestamp of a frame that starts now at port `p`, in units of 2^-16 ns: the first symbol after the SFD passes eight bytes
after the start (R242). -/
def txStamp (s : State) (p : Nat) : Nat :=
  ((s.clock.dev / 2 ^ 24 + 64 * 65536 / max 1 (portGbps s p) : Nat) + psUnitsTx (signed (rd s (portReg p 3 0x48)) 32)).toNat
where
  /-- ps in units of 2^-16 ns. -/
  psUnitsTx (ps : Int) : Int := ps * 65536 / 1000

/-- A port register of picoseconds in units of 2^-16 ns: ASYM is signed, LINK_DELAY is not. -/
def asymUnits (s : State) (p : Nat) : Int := signed (rd s (portReg p 3 0x4C)) 32 * 65536 / 1000
def linkDelayUnits (s : State) (p : Nat) : Int := (rd s (portReg p 3 0x50) : Int) * 65536 / 1000

/-- PTP_CONFIG.TC_ENABLE of a front port. -/
def tcEnabled (s : State) (p : Nat) : Bool := p < 64 && flag s (portReg p 3 0x40) 31

/-- The launch reference of a host frame with its high seconds, nearest to `t` (R249); both in 2^-16 ns. -/
def launchTime (launch t : Nat) : Int :=
  let wrap : Int := 2 ^ 32 * 1000000000 * 65536
  let d := ((t : Int) - launch) % wrap
  (t : Int) - (if 2 * d ≤ wrap then d else d - wrap)

/-- What egress stage 4 adds to correctionField of a frame leaving port `p` at stamp `t` (R244, R245, R249). -/
def correction (s : State) (f : Frame) (p t profile : Nat) : Option Int :=
  if !f.parsed.ptpEvent ∨ f.parsed.pppoeSess ∨ !bitAt profile 16 then none
  else if f.inPort = 64 then f.launch.map fun l => (t : Int) - launchTime l t
  else
    let mode := fld s 0x408C 31 30
    if mode = 0 ∨ mode = 3 ∨ !tcEnabled s f.inPort ∨ !tcEnabled s p then none
    else
      let r : Int := (t : Int) - f.rx
      match f.parsed.ptpType with
      | 0 => some (r + asymUnits s f.inPort + (if mode = 2 then linkDelayUnits s f.inPort else 0))
      | 1 => some (r - asymUnits s p)
      | 2 => if mode = 1 then some r else none
      | 3 => if mode = 1 then some r else none
      | _ => none

/-- The counts of a correction: PTP_NO_TRAILER, PTP_SATURATED, PTP_CORRECTED. -/
def countCorrection (s : State) (p : Nat) (f : Frame) (add : Int) : State :=
  let off := f.parsed.ptpOff
  if !correctable f f.bytes off then count s (portCounter p 50) 1
  else
    let s := if saturates (beAt f.bytes (off + 8) 8) add then tally s (portReg p 3 0x90) else s
    count s (portCounter p 49) 1

/-! ### Egress stages (R16) -/

/-- The carrier tag of a mirror copy for port `p` as TPID and TCI; none without CARRIER_TAG (R321). -/
def carrierTag (s : State) (e p config carrier : Nat) (dropped : Bool) : Option Nat :=
  if !bitAt config 16 then none
  else
    let tpid := (tpidsOf s e (sliceOf p)).getD (bits config 15 14) 0
    some (tpid * 2 ^ 16 + (if bitAt carrier 16 && dropped then putBits (bits carrier 15 0) 12 12 1 else bits carrier 15 0))

/-- The egress mirror copies of a source copy go on as it enters egress stage 6 (R320, R323). -/
def sendMirrors (s : State) (home : Nat) (f : Frame) (c : Copy) (profile stamp : Nat) : State :=
  let ms := mirrorsOf s home c.port
  let h := frameAt s home
  let s := if ms.isEmpty then s else setFrame s home { h with copies := h.copies.filter fun m => m.source != c.port }
  ms.foldl (fun s m => match m.kind with
    | .mirrorTx n config _ =>
      if toCapture config then
        let s := makeCapture s f { direction := 1, session := n, spill := spillCode s f c.queue, length := frameLen f, outPort := c.port,
                                   queue := some c.queue, edit := profile, time := stamp / 2 ^ 16 } f.bytes
        releaseSharer s m.frame m.phys
      else count (enqueueCopy s m) (544 + 2 * n) 1
    | _ => s) s

/-- The device time at which the gate of a copy that starts now closes. -/
def gateCloses (s : State) (p : Nat) (c : Copy) : Option Nat := nextClose (portAt s p).gate (c.queue % 8) (devNs s)

/-- The reason for which egress stages 2 to 4 drop a selected copy of port `p`, 0 when they pass it; a mirror copy meets none (R16,
R321). -/
def stagesDrop (s : State) (p : Nat) (c : Copy) : Nat :=
  match mirrorOf c.kind with
  | some _ => 0
  | none => egressCheck s (frameAt s c.frame) p false

/-- The copy meets egress stages 1 to 4 at port `p`, and its first byte leaves. -/
def startCopy (s : State) (p : Nat) (express : Bool) (c : Copy) : State :=
  let s := takeCopy (setSelected s p express none) c
  let f := frameAt s c.frame
  let stamp := txStamp s p
  match mirrorOf c.kind with
  | some (config, carrier, dropped) =>
    setTx s p express (some { copy := c, start := now s, closeAt := gateCloses s p c, carrier := carrierTag s f.epoch p config carrier dropped })
  | none =>
    match egressCheck s f p false with
    | 0 =>
      let k := editProfile s f p
      let profile := tabEpoch s f.epoch 0x0B (sliceOf p * 256 + k)
      let add := correction s f p stamp profile
      let s := match add with | none => s | some a => countCorrection s p f a
      let s := sendMirrors s (mirrorHome f c.frame) f c k stamp
      let f := frameAt s c.frame
      let s := if traceFollows f c then
          let (f, s) := traceEnd s (tracePoint s f 5) 0 (some c)
          setFrame s c.frame f
        else s
      setTx s p express (some { copy := c, start := now s, closeAt := gateCloses s p c, profile, tpids := tpidsOf s f.epoch (sliceOf p), add })
    | reason => spillExit (dropCopy s c reason) c.queue

/-- A selected copy may go through the egress stages at port `p` now (R16, R53, R61): its class is not paused, and stages 2 to 4 drop it
or the gate check of stage 5 passes it. -/
def mayStart (s : State) (p : Nat) (c : Copy) : Bool :=
  let f := frameAt s c.frame
  !classPaused s p (c.queue % 8) &&
  (stagesDrop s p c ≠ 0 || (!f.ended && !gateEnabled s p) || gatePasses s p (c.queue % 8) (devNs s) (gateLength (frameLen f)))

/-- A suspended preemptable frame goes on with its next fragment: the check takes its remaining bytes in place of L_c (R230, R232). -/
def resumeFrame (s : State) (p : Nat) (t : Tx) : State :=
  if gatePasses s p (t.copy.queue % 8) (devNs s) (txLeft s t) then
    count (setTx s p false (some { t with suspended := false, start := now s, closeAt := gateCloses s p t.copy })) (portCounter p 17) 1
  else s

/-- A MAC of port `p` starts its selected copy, or goes on with its suspended frame; a flow-control frame that waits goes first. -/
def transmitStart (s : State) (p : Nat) (express : Bool) : State :=
  if !portUp s p ∨ !egressOpen s ∨ !egressRuns s p ∨ !egressSound s p ∨ wireBusy s p then s
  else
    let s := unifySelected (fcFlush s p) p
    let v := portAt s p
    match (if express then none else v.txPreempt) with
    | some t => if v.selected.isSome then s else resumeFrame s p t
    | none =>
      match selectedOf s p express with
      | none => s
      | some c => if mayStart s p c then startCopy s p express c else s

/-! ### The end of a transmission -/

/-- The counts of a copy sent: its port's, its queue's, its nodes', and its VLAN's unless it is a mirror copy (R306, R308, R320). -/
def countTransmitted (s : State) (p : Nat) (c : Copy) (f : Frame) (bytes : List Byte) (good : Bool) : State :=
  let len := frameLen f
  let s := if p < 64 then countSent s p bytes good else s
  let s := countBoth (countQueue s c.queue 2 len) (groupCounters (queueGroup s c.queue)) 0 len
  match mirrorOf c.kind with
  | some _ => s
  | none => countBoth (countBoth s (subCounters (c.queue / 8)) 2 len) (vlanCounters f.vid) 2 len

/-- The copy has left: it lets go of everything, and its queue may leave spill state. -/
def leaveCopy (s : State) (c : Copy) : State :=
  let s := releaseCopy s c
  spillExit s c.queue

/-- A copy sent with a stomped FCS is counted STOMPED (R147). -/
def countStomped (s : State) : State := raise (count s 3918 1) (.buffer 0) 3

/-- A transmission ends: whole with its FCS, or stomped where its frame was found bad or a leaf of it could not be read (R147, R416). -/
def endTransmit (s : State) (p : Nat) (express : Bool) (t : Tx) : State :=
  let f := frameAt s t.copy.frame
  let body := txBody s t true
  let bad := f.bad || !f.badLeaves.isEmpty
  let bytes := if bad then stomp body else body ++ fcsOf body
  let s := emit s (.wire p (bytes.drop t.sent))
  let s := if bad then countStomped s else s
  let s := if gateEnabled s p ∧ (t.closeAt.any (· < devNs s) ∨ !gateOpen s p (t.copy.queue % 8) (devNs s - 1)) then
      raise (count s (portCounter p 12) 1) (.port p 1) 3 else s
  let s := countTransmitted s p t.copy f bytes (!bad)
  let s := setTx s p express none
  fcFlush (leaveCopy (setPort s p { portAt s p with idleSince := now s }) t.copy) p

/-- TRANSMIT_END on a MAC of port `p`: its frame is on the wire, and all its bytes are there. -/
def transmitEnd (s : State) (p : Nat) (express : Bool) : State :=
  match onWire (txOf s p express) with
  | none => s
  | some t => if (frameAt s t.copy.frame).ended then endTransmit s p express t else s

/-- A cut-through copy runs out of bytes (R148). -/
def underrun (s : State) (p : Nat) (express : Bool) : State :=
  match onWire (txOf s p express) with
  | none => s
  | some t =>
    let f := frameAt s t.copy.frame
    if !t.copy.cut ∨ f.ended then s
    else
      let bytes := stomp (txBody s t false)
      let s := countStomped (emit s (.wire p (bytes.drop t.sent)))
      let s := raise (count s 3919 1) (.buffer 0) 4
      let s := countTransmitted s p t.copy f bytes false
      fcFlush (leaveCopy (setPort (setTx s p express none) p { portAt (setTx s p express none) p with idleSince := now s }) t.copy) p

/-- The bytes of a frame in transmission that have left by now. -/
def cutBytes (s : State) (p : Nat) (t : Tx) : List Byte :=
  (txBody s t false).take (if t.suspended then t.sent else t.sent + ((now s - t.start) * portGbps s p / 8 - 8))

/-- A transmission ends early, with the bytes that it sent: TX_TRUNCATED. It is counted among the frames sent (R308). -/
def truncateAs (s : State) (p : Nat) (express : Bool) (t : Tx) (bytes : List Byte) : State :=
  let s := countSent (count (setTx s p express none) (portCounter p 7) 1) p bytes false
  spillExit (dropCopy s t.copy 0x2E) t.copy.queue

/-- A transmission is cut off as its port leaves UP (R61). -/
def truncate (s : State) (p : Nat) (express : Bool) : State :=
  match txOf s p express with
  | none => s
  | some t => truncateAs s p express t (cutBytes s p t)

/-! ### Residence (R150) -/

/-- The residence scan discards every stale frame at the head of a queue, a selected copy among them. -/
def residenceScan : Nat → State → Nat → State
  | 0, s, _ => s
  | fuel + 1, s, q =>
    match headCopy s q with
    | none => s
    | some c =>
      let f := frameAt s c.frame
      if (queueAt s q).cutHeld = 0 ∧ f.ended ∧ staleFrame s f then
        let s := if selectedOf s c.port true = some c then setSelected s c.port true none
          else if selectedOf s c.port false = some c then setSelected s c.port false none
          else if s.host.waiting = some c then { s with host := { s.host with waiting := none } } else s
        residenceScan fuel (spillExit (dropStale (takeCopy s c) c) q) q
      else s

/-- A cut-through copy that a gate holds at its port is stale: it is discarded as well. -/
def dropHeldCut (s : State) (q : Nat) : State :=
  (List.range 64).foldl (fun s p => [true, false].foldl (fun s x =>
    match selectedOf s p x with
    | none => s
    | some c =>
      if c.cut ∧ c.queue = q ∧ (frameAt s c.frame).ended ∧ staleFrame s (frameAt s c.frame) then
        dropStale (takeCopy (setSelected s p x none) c) c
      else s) s) s

/-! ### Fragments at a gate's close (R232) -/

/-- The fragment that ends at a gate's close (R232): the most bytes, mCRC apart, that Clause 99 allows and that have left the wire
GATE_MARGIN before device time `close`; none where the fragment or the rest would be too short. -/
def fragmentBefore (s : State) (p close : Nat) (t : Tx) : Option Nat :=
  let n := min (sentByNow s p (now s - (devNs s - close) - gateMargin s p) t) (txLeft s t - 64)
  if (frameAt s t.copy.frame).ended ∧ minFragment s p - 4 ≤ n ∧ n + 64 ≤ txLeft s t then some n else none

/-- Class gates of a port changed: while preemption is active, a preemptable frame on the wire whose gate has closed holds, its fragment
cut to leave before the close. -/
def holdAtClose (s : State) (p : Nat) : State :=
  match onWire (portAt s p).txPreempt with
  | none => s
  | some t =>
    let close := min (t.closeAt.getD (devNs s)) (devNs s)
    if !preemptActive s p ∨ gateOpen s p (t.copy.queue % 8) (devNs s) then s
    else
      match fragmentBefore s p close t, txEnds s p t with
      | some n, some e => if e ≤ now s - (devNs s - close) then s else count (cutFragment s p n t) (portCounter p 18) 1
      | _, _ => s

/-! ### The commands -/

/-- PORT_SELECT: a port node selects a frame for a MAC (R204). -/
def execPortSelect (port : Fin 65) (express : Bool) (s : State) : Res := done (portSelect s port express)

/-- TRANSMIT_START: a selected copy runs the egress stages and its first byte leaves (R16). -/
def execTransmitStart (port : Fin 64) (express : Bool) (s : State) : Res := done (transmitStart s port express)

/-- TRANSMIT_END: a copy finishes transmission (R131). -/
def execTransmitEnd (port : Fin 64) (express : Bool) (s : State) : Res := done (transmitEnd s port express)

/-- CT_UNDERRUN: a cut-through copy needs a byte that has not been written (R148). -/
def execCtUnderrun (port : Fin 64) (express : Bool) (s : State) : Res := done (underrun s port express)

/-- RESIDENCE_SCAN: the scan visits the head of a queue (R150). -/
def execResidenceScan (queue : Fin 131072) (s : State) : Res :=
  done (residenceScan ((queueAt s queue).head.length) (dropHeldCut s queue) queue)

/-- NODE_QUERY.GO with its index. -/
def queryNode (s : State) (index : Nat) : State :=
  let s := setFld s 0x500040 17 0 index
  nodeQuery s (fun q => match queuePort s q with
    | some p => eligibleAt s p (devNs s) q
    | none => false) index

/-- NODE_QUERY: NODE_QUERY.GO shows a queue or node (R216). -/
def execNodeQuery (src : Source) (index : Nat) (s : State) : Res :=
  done (guarded s src 0x500040 fun s => queryNode s index)

end Sys2Proof.Machine
end

