-- ==== Sys2Proof/Machine/KettleLink.lean ====
section
/-! DEFINITION. Sending over Kettle (R271, R272): the window of unacknowledged records and the order of priority. -/

namespace Sys2Proof.Machine

/-- KETTLE_STATUS.STATE: 0 DOWN, 1 TRAINING, 2 HELLO, 3 UP, 4 FAILED. -/
def kettleState (s : State) : Nat := fld s 0x6050 31 29

/-- Kettle is UP. -/
def kettleUp (s : State) : Bool := kettleState s == 3

/-- The header word of a record without its SEQ. -/
def kettleHead (type sub : Nat) (cp : Bool) : Nat := type * 2 ^ 28 + sub % 16 * 2 ^ 24 + bit cp * 2 ^ 23

/-- The rank in which record types take a free slot (R272). -/
def kettleRank (head : Nat) : Nat :=
  match head / 2 ^ 28 with
  | 2 => 0 | 3 => 1 | 5 => 2 | 6 => 2 | _ => 3

/-- The waiting record that takes the next free slot: the first one of the lowest rank. -/
def kettlePick : List (Nat × List Nat) → Option (Nat × List Nat)
  | [] => none
  | r :: l =>
    match kettlePick l with
    | none => some r
    | some q => if kettleRank q.1 < kettleRank r.1 then some q else some r

/-- A record of 64 bytes behind its header word (R271): the payload, shown as it is before encryption, the two words of TAG, and the CRC-32C
of bytes 0 to 59 as they are sent. The bytes of a word enter the CRC least significant first (log 15). -/
def sealed (header : Nat) (payload cipher : List Nat) (tag : Nat) : List Nat :=
  let tags := [tag % 2 ^ 32, tag / 2 ^ 32]
  payload ++ tags ++ [crc32c ((header :: cipher ++ tags).flatMap (leBytes 4))]

/-- A record before the session: plaintext, with TAG 0. -/
def openRecord (header : Nat) (payload : List Nat) : List Nat := sealed header payload payload 0

/-- The GCM nonce of record `n` of a space in the session: the salt with the space bit and the count (R273). -/
def kettleNonce (s : State) (ack : Bool) (n : Nat) : BitVec 96 :=
  Config.kettleSalt s.kettle.key ^^^ BitVec.ofNat 96 (bit ack * 2 ^ 63 + n % 2 ^ 63)

/-- A record of the session. -/
def sessionRecord (s : State) (ack : Bool) (n header : Nat) (payload : List Nat) : List Nat :=
  let iv := kettleNonce s ack n
  sealed header payload ((Config.kettleCipher s.kettle.key iv header payload).map (·.toNat))
    (Config.kettleTag s.kettle.key iv header payload).toNat

/-- Put a record on the link under the next SEQ, and keep it until it is acknowledged. -/
def kettlePut (s : State) (head : Nat) (words : List Nat) : State :=
  let k := s.kettle
  let record := sessionRecord s false k.sent (head + k.nextSeq) words
  let s := { s with kettle := { k with
    nextSeq := (k.nextSeq + 1) % 2 ^ 23, sent := k.sent + 1,
    unacked := k.unacked ++ [⟨k.nextSeq, head, record, 0, now s⟩] } }
  emit s (.kettle (head + k.nextSeq) record)

/-- Waiting records take the free slots of the window, in the order of R272. -/
def kettleFill : Nat → State → State
  | 0, s => s
  | n + 1, s =>
    if s.kettle.unacked.length < 1024 then
      match kettlePick s.kettle.waiting with
      | none => s
      | some r => kettleFill n (kettlePut { s with kettle := { s.kettle with waiting := s.kettle.waiting.erase r } } r.1 r.2)
    else s

/-- Send a sequenced record while Kettle is UP; it waits when 1,024 are unacknowledged. -/
def kettleSend (s : State) (type sub : Nat) (cp : Bool) (words : List Nat) : State :=
  if !kettleUp s then s
  else if s.kettle.unacked.length < 1024 ∧ s.kettle.waiting = [] then kettlePut s (kettleHead type sub cp) words
  else
    let s := { s with kettle := { s.kettle with waiting := s.kettle.waiting ++ [(kettleHead type sub cp, words)] } }
    kettleFill s.kettle.waiting.length s

end Sys2Proof.Machine
end

