-- ==== Sys2Proof/Machine/Fdb.lean ====
section
/-! DEFINITION. Changes of the FDB: the learn serialiser (R99 to R102), the plough (R103 to R105), flushes (R107), learn events
(R108), and the stream of every change to the mate (R276, R277). -/

namespace Sys2Proof.Machine

/-! ### The stream to the mate -/

/-- A DELTA record of the cycle in progress, from a device that is ACTIVE or HANDING_OVER (R276). -/
def sendDelta (s : State) (sub : Nat) (words : List Nat) : State :=
  if standsBy s ∨ !kettleUp s then s
  else
    let s := { s with twin := { s.twin with sentRecords := s.twin.sentRecords + 1 } }
    kettleSend s 3 sub (s.clock.cycleNumber % 2 == 1) (words ++ List.replicate (12 - words.length) 0)

/-- The item of FDB_WRITE for a slot (R277). -/
def fdbItem (s : State) (slot : Nat) : List Nat :=
  let e := fdbEntry s slot
  [slot * 2 ^ 13, bits e 127 96, bits e 95 64, bits e 63 32, bits e 31 0, 0]

/-- Write an FDB slot, in both replicas, and tell the mate. A record holds two items: the second one repeats the change. -/
def fdbWrite (s : State) (slot entry : Nat) : State :=
  let s := setTab s 0x02 slot (BitVec.ofNat 512 entry)
  sendDelta s 1 (fdbItem s slot ++ fdbItem s slot)

/-- Remove the entry of a slot and tell the mate. -/
def fdbRemove (s : State) (slot : Nat) : State :=
  sendDelta (setTab s 0x02 slot 0) 2 [2 ^ 31 + slot]

/-! ### Learn events (R108) -/

/-- A learn event: its record, or its loss when ring 0 is full. -/
def learnEvent (s : State) (type source slot fid mac new old port : Nat) : State :=
  if !flag s 0x60004C (type - 1) then s
  else
    let ws := [type * 2 ^ 28 + source * 2 ^ 24 + slot, fid * 2 ^ 16 + mac / 2 ^ 32, mac % 2 ^ 32, new * 2 ^ 16 + old,
      port * 2 ^ 25, cycleNo s, devSub s, s.fdb.eventSeq]
    let s := { s with fdb := { s.fdb with eventSeq := (s.fdb.eventSeq + 1) % 2 ^ 32 } }
    if eventRoom s 0 32 then eventWrite s 0 ws else raise (count s 3957 1) (.fwd 0) 5

/-! ### The serialiser (R100, R101) -/

/-- MOVE_STAMP of an entry written now: device time in µs. -/
def moveStamp (s : State) : Nat := devNs s / 1000 % 2 ^ 24

/-- Time in µs since an entry's MOVE_STAMP. -/
def moveElapsed (s : State) (e : Nat) : Nat := (moveStamp s + 2 ^ 24 - bits e 39 16) % 2 ^ 24

/-- The entry is within MOVE_HOLD of its installation or last move. -/
def moveHeld (s : State) (e : Nat) : Bool := bitAt e 124 && moveElapsed s e < fld s 0x600044 15 0

/-- A freshly installed or moved entry: AGE 0, HELD 1, MOVE_STAMP now. `flags` holds VALID, STATIC and LOCK. -/
def freshEntry (s : State) (flags fid mac dest : Nat) : Nat :=
  flags + 2 ^ 124 + fid % 4096 * 2 ^ 112 + mac * 2 ^ 64 + dest * 2 ^ 48 + moveStamp s * 2 ^ 16

/-- The victim among candidate slots: the evictable one of largest AGE, and among equals of lowest slot (R101). -/
def fdbVictim (s : State) (slots : List Nat) : Option Nat :=
  slots.foldl (fun acc i =>
    let e := fdbEntry s i
    if fdbStatic e || fdbLocked e then acc
    else match acc with
      | none => some i
      | some j => if fdbAge (fdbEntry s j) < fdbAge e then some i else some j) none

/-- The slot that an absent key takes, and whether it evicts (R100, R101). -/
def fdbPlace (s : State) (fid mac : Nat) : Option (Nat × Bool) :=
  let slots := fdbSlots s fid mac
  match slots.find? fun i => !fdbValid (fdbEntry s i) with
  | some i => some (i, false)
  | none => (fdbVictim s slots).map fun i => (i, true)

/-- An EVICTED event of the entry now in a slot, with its counter and interrupt. -/
def evictEvent (s : State) (source slot new port : Nat) : State :=
  let e := fdbEntry s slot
  learnEvent (raise (count s 3953 1) (.fwd 0) 3) 5 source slot (fdbFid e) (fdbMac e) new (fdbDest e) port

/-- The serialiser decides a request against the table as it stands (R100). -/
def learnDecide (s : State) (r : LearnReq) : State :=
  let event := fun (s : State) (type slot old : Nat) => learnEvent s type r.slice slot r.fid r.mac r.dest old r.port
  match fdbFind s r.fid r.mac with
  | none =>
    match fdbPlace s r.fid r.mac with
    | none =>
      event (raise (count s 3955 1) (.fwd 0) 1) 7 ((fdbSlots s r.fid r.mac).headD 0) 0
    | some (slot, evicts) =>
      let s := if evicts then evictEvent s r.slice slot r.dest r.port else s
      let s := fdbWrite s slot (freshEntry s (2 ^ 127) r.fid r.mac r.dest)
      event (count s 3949 1) 1 slot 0
  | some slot =>
    let e := fdbEntry s slot
    let fixed := fdbStatic e || fdbLocked e
    if fdbDest e = r.dest then
      if fixed then s else fdbWrite s slot (putBits e 47 40 0)
    else if fixed then event (count s 3952 1) 4 slot (fdbDest e)
    else if moveHeld s e then event (raise (count s 3951 1) (.fwd 0) 0) 3 slot (fdbDest e)
    else
      let s := fdbWrite s slot (freshEntry s (2 ^ 127) r.fid r.mac r.dest)
      event (count s 3950 1) 2 slot (fdbDest e)

/-- The serialiser takes the oldest request of its queue while the core runs. A device that is neither ACTIVE nor HANDING_OVER changes its FDB
only through Kettle, and drops the request (R267). -/
def learnTake (s : State) : State :=
  match s.fdb.learnQ with
  | [] => s
  | r :: rest =>
    if !coreRuns s then s
    else
      let s := { s with fdb := { s.fdb with learnQ := rest } }
      if standsBy s then s else learnDecide s r

/-! ### The plough (R102 to R105, R267) -/

/-- FDB_AGE.TICK_MS, held to its range. -/
def ageTick (s : State) : Nat := max 10 (min 1000 (fld s 0x600040 9 0))

/-- The length of the pass under way in ns: P ticks (R103). -/
def passLength (s : State) : Nat := s.fdb.period * s.fdb.tickMs * 1000000

/-- A new pass after the present one: PERIOD, THRESHOLD, tick and ENABLE from FDB_AGE (R103). -/
def ploughPass (s : State) : State :=
  let limit := max 1 (min 1020 (fld s 0x600040 25 16))
  let p := ceilDiv limit 255
  { s with fdb := { s.fdb with
    slot := 0, passes := (s.fdb.passes + 1) % 256, passAt := s.fdb.passAt + passLength s,
    period := p, threshold := ceilDiv limit p, tickMs := ageTick s
    ageing := flag s 0x600040 31 } }

/-- The swap that the plough makes for the entry it has read in a slot (R103, R104): HELD cleared once MOVE_HOLD is over, and AGE one more,
or the entry gone at the threshold; on a device that stands by it stays. -/
def ploughRead (s : State) (slot : Nat) : Option PloughSwap :=
  let e := fdbEntry s slot
  if !fdbValid e then none
  else
    let h := if bitAt e 124 ∧ fld s 0x600044 15 0 ≤ moveElapsed s e then putBits e 124 124 0 else e
    let new : Option Nat :=
      if fdbStatic e || fdbLocked e || !s.fdb.ageing then some h
      else if fdbAge e + 1 < s.fdb.threshold then some (putBits h 47 40 (fdbAge e + 1))
      else if standsBy s then some (putBits h 47 40 (max (fdbAge e) (min 255 s.fdb.threshold)))
      else none
    some ⟨slot, e, new⟩

/-- The plough's compare-and-swap, after the serialiser's writes of the clock: it fails where the entry is not what the plough read (R102,
R105). -/
def ploughSwap (s : State) : State :=
  match s.fdb.swap with
  | none => s
  | some w =>
    let s := { s with fdb := { s.fdb with swap := none } }
    if fdbEntry s w.slot ≠ w.read then s
    else match w.entry with
      | some e => setTab s 0x02 w.slot (BitVec.ofNat 512 e)
      | none =>
        let s := fdbRemove s w.slot
        learnEvent (count s 3954 1) 6 8 w.slot (fdbFid w.read) (fdbMac w.read) 0 (fdbDest w.read) 0x7F

/-- The steady time at which the plough visits its next slot: the visits of a pass are evenly spaced (R103). -/
def ploughDue (s : State) : Nat := s.fdb.passAt + s.fdb.slot * passLength s / 524288

/-- The plough visits its next slot once its instant has come; a flush suspends the pass (R107). The swap follows in the next clock. -/
def ploughVisit (s : State) : State :=
  if !coreRuns s ∨ s.fdb.flushes ≠ [] ∨ now s < ploughDue s then s
  else
    let s := ploughSwap s
    let i := s.fdb.slot
    let s := { s with fdb := { s.fdb with swap := ploughRead s i } }
    if i + 1 < 524288 then { s with fdb := { s.fdb with slot := i + 1 } } else ploughPass s

/-! ### Flushes (R106, R107) -/

/-- An entry that a flush removes: valid, not locked, static only with INCLUDE_STATIC, and matching the filter. -/
def flushMatches (filter value : Nat) (static : Bool) (e : Nat) : Bool :=
  fdbValid e && !fdbLocked e && (static || !fdbStatic e) &&
  (match filter with
   | 0 => fdbDest e == value
   | 1 => fdbFid e == value % 4096
   | _ => true)

/-- The walker removes the matching entries of the slots from `a` up to `b`; how many they were. -/
def flushSlots (s : State) (filter value : Nat) (static : Bool) (a b : Nat) : Nat × State :=
  let goes := fun (e : Nat × Image) =>
    e.1 / 2 ^ 20 == 2 && a ≤ e.1 % 2 ^ 20 && e.1 % 2 ^ 20 < b && flushMatches filter value static e.2.toNat
  ((s.tabs.filter goes).length, { s with tabs := s.tabs.filter fun e => !goes e })

/-- A flush that the mate streams is applied whole (R276). -/
def flushCopied (s : State) (filter value : Nat) (static : Bool) : State := (flushSlots s filter value static 0 524288).2

/-- The walk of flush `j` goes on up to slot `b`. -/
def flushWalk (s : State) (j : FlushJob) (b : Nat) : FlushJob × State :=
  let (n, s) := flushSlots s j.filter j.value j.static j.slot b
  ({ j with slot := max j.slot b, removed := j.removed + n }, s)

/-- The oldest flush walks one slot in each core clock (R107). -/
def flushStep (s : State) : State :=
  match s.fdb.flushes with
  | [] => s
  | j :: rest =>
    let t := j.began.getD s.clock.coreTenths
    let (j, s) := flushWalk s { j with began := some t } (min 524288 ((s.clock.coreTenths - t) / 10))
    { s with fdb := { s.fdb with flushes := j :: rest } }

/-- A flush begins: its job waits for its walk, the plough's pass is suspended, and the mate is told (R107, R276). -/
def flushBegin (s : State) (filter value : Nat) (static : Bool) (tag channel : Option Nat) : State :=
  let s := sendDelta s 3 [filter * 2 ^ 30 + bit static * 2 ^ 29 + value]
  { s with fdb := { s.fdb with
    stopped := s.fdb.stopped.or (some (now s)),
    flushes := s.fdb.flushes ++ [{ filter, value, static, tag, channel }] } }

/-- The oldest flush leaves the walker; with the last one the plough's pass goes on, later by the time it was suspended. -/
def flushEnds (s : State) : State :=
  let rest := s.fdb.flushes.drop 1
  let f := { s.fdb with flushes := rest }
  { s with fdb := if rest.isEmpty then { f with stopped := none, passAt := f.passAt + (now s - f.stopped.getD (now s)) } else f }

/-- The filter of FDB_FLUSH_PORT: the port, or its group when no member of the group is left in its set (R107). -/
def flushPortValue (s : State) (p : Nat) : Nat :=
  match lagOf s (currentEpoch s) p with
  | some g => if (lagSet s g).isEmpty then 2 ^ 14 + g else p
  | none => p

/-! ### The commands -/

/-- LEARN_REQUEST: the learn serialiser takes a request (R100). -/
def execLearnRequest (s : State) : Res := done (learnTake s)

/-- PLOUGH_VISIT: the plough visits a slot (R103, R104). -/
def execPloughVisit (s : State) : Res := done (ploughVisit s)

/-- LAG_REDISTRIBUTE: the effective distribution of a group is recomputed (R96). -/
def execLagRedistribute (group : Fin 32) (s : State) : Res :=
  done (if coreRuns s then { s with fdb := { s.fdb with lag := sset (fun _ => []) s.fdb.lag group (lagEffective s group) } } else s)

end Sys2Proof.Machine
end

