-- ==== Sys2Proof/Machine/Police.lean ====
section
/-! DEFINITION. Policers, their refills and true-ups (R117 to R123), the stream filter (R124) and storm control (R127):
what stage 7 does to a frame. -/

namespace Sys2Proof.Machine

/-! ### Policer entries (128 bits) -/

/-- The policer meters: VALID, and TYPE not 0b11 (R117). -/
def policerOn (e : Nat) : Bool := bitAt e 127 && bits e 126 125 ≠ 3

/-- A rate as it acts, in kb/s, which is also credit units per refill (R118). -/
def policerRate (r : Nat) : Int := if r = 0 then 0 else (max 64 (min 1600000000 r) : Nat)

/-- A bucket size in credit units (R118). -/
def policerSize (n : Nat) : Int := (min 16777216 n * 31250 : Nat)

def policerSizeA (e : Nat) : Int := policerSize (bits e 59 35)
def policerSizeB (e : Nat) : Int := policerSize (bits e 34 10)
def policerRateA (e : Nat) : Int := policerRate (bits e 121 91)
def policerRateB (e : Nat) : Int := policerRate (bits e 90 60)

def policerA (s : State) (k : Nat) : Int := sget (fun _ => 0) s.policing.bucketA k
def policerB (s : State) (k : Nat) : Int := sget (fun _ => 0) s.policing.bucketB k

/-- Set both buckets of policer `k`. -/
def setPolicer (s : State) (k : Nat) (a b : Int) : State :=
  { s with policing := { s.policing with
    bucketA := sset (fun _ => 0) s.policing.bucketA k a, bucketB := sset (fun _ => 0) s.policing.bucketB k b } }

/-- The entry that policer `k` uses (R122). -/
def policerActive (s : State) (k : Nat) : Nat := (sget (fun _ => 0) s.policing.active k).toNat

/-! ### Refills (R117, R120 to R122) -/

/-- The buckets after one refill under entry `e`. -/
def refillBuckets (e : Nat) (a b : Int) : Int × Int :=
  let sa := policerSizeA e
  let sb := policerSizeB e
  let full := a + policerRateA e
  let spare := max 0 (full - sa)
  let a' := min sa full
  match bits e 126 125 with
  | 0 => (a', min sb (b + spare))
  | 1 => (a', min sb (b + max (policerRateA e) (policerRateB e)))
  | _ => (a', min sb (b + policerRateB e + (if bitAt e 123 then spare else 0)))

/-- The buckets as a change from entry `old` to `new` leaves them, before the refill (R122). -/
def changeBuckets (old new : Nat) (a b : Int) : Int × Int :=
  if !bitAt old 127 ∨ bits old 126 125 ≠ bits new 126 125 then (policerSizeA new, policerSizeB new)
  else (min a (policerSizeA new), min b (policerSizeB new))

/-- Policer `k` at a refill instant: its written entry is taken, then it refills. On a device that is neither ACTIVE nor
HANDING_OVER the refill adds nothing, since policer state changes only through Kettle there (R267). -/
def refillPolicer (s : State) (k : Nat) : State :=
  let old := policerActive s k
  let new := tabN s 0x0C k
  if !bitAt new 127 then { s with policing := { s.policing with active := sset (fun _ => 0) s.policing.active k 0 } }
  else
    let (a, b) := if old = new then (policerA s k, policerB s k) else changeBuckets old new (policerA s k) (policerB s k)
    let (a, b) := if bits new 126 125 = 3 ∨ standsBy s then (a, b) else refillBuckets new a b
    let s := setPolicer s k a b
    { s with policing := { s.policing with active := sset (fun _ => 0) s.policing.active k (BitVec.ofNat 512 new) } }

/-- A true-up: the difference goes to each bucket that was debited, up to its size (R120). -/
def trueUp (s : State) (d : Debit × Int) : State :=
  let k := d.1.policer
  let e := policerActive s k
  if !bitAt e 127 then s
  else setPolicer s k
    (if d.1.bucketA then min (policerSizeA e) (policerA s k + d.2) else policerA s k)
    (if d.1.bucketB then min (policerSizeB e) (policerB s k + d.2) else policerB s k)

/-- One refill instant of every policer. -/
def refillPolicers (s : State) : State :=
  let base := 0x0C * 2 ^ 20
  let listed := (s.tabs.filter fun e => base ≤ e.1 && e.1 < base + 65536).map fun e => e.1 - base
  let keys := ((listed ++ s.policing.active.map (·.1)).mergeSort).eraseDups
  let s := keys.foldl refillPolicer s
  let s := s.policing.trueUps.foldl trueUp s
  { s with policing := { s.policing with trueUps := [], refills := s.policing.refills + 1 } }

/-! ### Metering -/

/-- The result of a metered length of `L` credit units on a frame of colour `c`: the colour, and the buckets debited
(R117). -/
def meterColour (e : Nat) (a b L : Int) (c : Nat) : Nat × Bool × Bool :=
  let c := if bitAt e 124 then c else 0
  if c = 2 then (2, false, false)
  else match bits e 126 125 with
    | 1 =>
      if b < L then (2, false, false)
      else if c = 1 ∨ a < L then (1, false, true) else (0, true, true)
    | _ =>
      if c = 0 ∧ L ≤ a then (0, true, false)
      else if L ≤ b then (1, false, true) else (2, false, false)

/-- A policing page holds its fault-safe action: every frame is red (R35). -/
def policingFaulted (s : State) : Bool := flag s 0x604008 31 || flag s 0x605008 31

/-- Meter a frame of metered length `len` and colour `c` with policer `k`: the colour, whether it was metered, the debit
made, and the state after it. -/
def meter (s : State) (k len c : Nat) : Nat × Bool × Option Debit × State :=
  let e := policerActive s k
  if policingFaulted s then (2, false, none, s)
  else if !policerOn e ∨ !bitAt (tabN s 0x0C k) 127 then (c, false, none, s)
  else
    let L : Int := len * 31250
    let (r, da, db) := meterColour e (policerA s k) (policerB s k) L c
    let s := setPolicer s k (if da then policerA s k - L else policerA s k) (if db then policerB s k - L else policerB s k)
    let s := { s with policing := { s.policing with
      metered := if k ∈ s.policing.metered then s.policing.metered else k :: s.policing.metered } }
    (r, true, if da || db then some ⟨k, da, db⟩ else none, s)

/-- The worse of two colours. -/
def worse (a b : Nat) : Nat := max a b

/-- What a meter leaves on a frame: its debits and its counted colour. -/
def applyMeter (f : Frame) (k r : Nat) (metered : Bool) (d : Option Debit) : Frame :=
  { f with debits := f.debits ++ d.toList, coloured := if metered then f.coloured ++ [(k, r)] else f.coloured }

/-! ### The stream filter (R124) -/

/-- Set a latch bit of an entry and raise its interrupt, once. -/
def setLatch (s : State) (t i bitNo cause : Nat) : State :=
  if bitAt (tabN s t i) bitNo then s
  else raise (setTab s t i (BitVec.ofNat 512 (putBits (tabN s t i) bitNo bitNo 1))) (.police 0) cause

/-- Stream filter `k` is to count a frame under its counter `i` (R128); as every object counter it counts at the frame's end (R306). -/
def tallyFilter (f : Frame) (k i : Nat) : Frame := { f with tallies := f.tallies ++ [212992 + 6 * k + i] }

/-- A frame passes stream filter `k`: the drop reason of R129 (0 when it passes), the frame and the state. -/
def streamFilter (s : State) (f : Frame) (k : Nat) : Nat × Frame × State :=
  let e := tabN s 0x0E k
  if !bitAt e 63 then (0, f, s)
  else
    let f := tallyFilter { f with filter := some k } k 0
    if bitAt e 19 then (0x14, f, s)
    else if bits e 34 21 ≠ 0 ∧ bits e 34 21 < f.metered then
      (0x15, tallyFilter f k 4, if bitAt e 20 then setLatch s 0x0E k 19 0 else s)
    else
      let f := tallyFilter f k 3
      let g := bits e 61 52
      if bitAt e 62 ∧ !streamOpen s g (f.rx / 2 ^ 16) then
        (0x16, tallyFilter f k 2, if bitAt (tabN s 0x0F g) 253 then setLatch s 0x0F g 252 2 else s)
      else
        let f := tallyFilter f k 1
        if !bitAt e 51 then (0, f, s)
        else
          let p := bits e 50 35
          let marked := bitAt e 17 && bitAt e 16
          let (r, metered, d, s) := if marked then (2, false, none, s) else meter s p f.metered f.colour
          let f := applyMeter f p r metered d
          if r = 2 ∧ (metered ∨ marked ∨ policingFaulted s) then
            (0x17, tallyFilter f k 5, if bitAt e 17 then setLatch s 0x0E k 16 1 else s)
          else
            let f := { f with colour := worse f.colour r }
            (if r = 1 ∧ metered ∧ bitAt e 18 then (0x18, f, s) else (0, f, s))

/-- The storm policer of a port and destination kind, when enabled (R127). -/
def stormPolicer (s : State) (port kind : Nat) : Option Nat :=
  let w := rd s (0x605040 + (3 * port + kind) * 4)
  if bitAt w 31 then some (bits w 15 0) else none

/-- Count a drop of stage 7 in policing page 0 (R129). -/
def countPolicing (s : State) (reason : Nat) : State :=
  match reason with
  | 0x17 => count s 3959 1 | 0x13 => count s 3960 1 | 0x14 => count s 3961 1
  | 0x15 => count s 3962 1 | 0x16 => count s 3963 1 | 0x18 => count s 3964 1
  | _ => s

/-- Stage 7 (R115): the storm policer if one applies, then the stream filter or the ordinary policer. The drop reason (0
when the frame passes), the frame and the state; a frame dropped here is debited nothing (R120). -/
def stage7 (s0 : State) (f0 : Frame) (storm filter policer : Option Nat) : Nat × Frame × State :=
  let (stormRed, f, s) := match storm with
    | none => (false, f0, s0)
    | some k =>
      let (r, metered, d, s) := meter s0 k f0.metered f0.colour
      (metered && r == 2 || policingFaulted s0, applyMeter f0 k r metered d, s)
  let (reason, f, s) :=
    if stormRed then (0x13, f, s)
    else match filter, policer with
      | some k, _ => streamFilter s f k
      | none, some k =>
        let (r, metered, d, s) := meter s k f.metered f.colour
        let f := { applyMeter f k r metered d with colour := worse f.colour r }
        (if r = 2 ∧ (metered ∨ policingFaulted s) ∧ bitAt (policerActive s k) 122 then (0x17, f, s) else (0, f, s))
      | none, none => (0, f, s)
  if reason = 0 then (0, f, s)
  else (reason, { f with debits := [] }, countPolicing { s with policing := { s.policing with
    bucketA := s0.policing.bucketA, bucketB := s0.policing.bucketB } } reason)

/-- The meters' part of a frame's end at true length `len`: true-ups, and the colours counted in bytes (R120, R128). -/
def meterEnd (s : State) (f : Frame) (len : Nat) : State :=
  let diff : Int := ((f.metered : Int) - len) * 31250
  let ups := if diff = 0 then [] else f.debits.map fun d => (d, diff)
  let s := { s with policing := { s.policing with trueUps := s.policing.trueUps ++ ups } }
  f.coloured.foldl (fun s e => countPolicer s e.1 e.2 len) s

/-! ### The commands -/

/-- POLICER_REFILL: a refill instant, once steady time has reached it (R121). -/
def execPolicerRefill (s : State) : Res :=
  done (if coreRuns s ∧ (s.policing.refills + 1) * 256 ≤ now s then refillPolicers s else s)

end Sys2Proof.Machine
end

