-- ==== Sys2Proof/Machine/Ingress.lean ====
section
/-! DEFINITION. The reception of frames: stage 1 in the port domain (R50 to R53, R147, R231, R292, R403), ingress stages 2 to 8
(R16, R17, R64 to R128), and what a frame's end brings (R120, R133, R306, R323). -/

namespace Sys2Proof.Machine

/-! ### Port registers -/

/-- PORT_MTU.MTU as epoch `e` applies it (R50); the host port has none. -/
def portMtu (s : State) (e p : Nat) : Nat :=
  if p = 64 then 10240 else max 64 (min 10240 (bits (rdEpoch s e (portReg p 0 0x44)) 13 0))

/-- A page of port `p` or of one of its lanes is in its fault-safe action (R35). -/
def portFaulted (s : State) (p : Nat) : Bool :=
  ((List.range 4).any fun k => flag s (portReg p k 8) 31) ||
  (List.range (portAt s p).width).any fun k => flag s (0x300008 + (p + k) * 0x1000) 31

/-- ps in units of 2^-16 ns. -/
def psUnits (ps : Int) : Int := ps * 65536 / 1000

/-- The receive timestamp of an SFD at port `p` now, in units of 2^-16 ns (R242). DEDUCED (log 21): the board delay is taken off
a receive timestamp and added to a transmit timestamp. -/
def rxStamp (s : State) (p : Nat) : Nat :=
  ((s.clock.dev / 2 ^ 24 : Nat) - psUnits (signed (rd s (portReg p 3 0x44)) 32)).toNat

/-- The epoch that slice `i` applies: the previous one until it has switched (R17, R39). -/
def sliceEpoch (s : State) (i : Nat) : Nat :=
  match s.commit with
  | some c => if i ∈ c.waiting then (currentEpoch s + 65535) % 65536 else currentEpoch s
  | none => currentEpoch s

/-! ### Stages 2 to 8 -/

/-- The metered length B (R119). -/
def meteredLen (s : State) (f : Frame) : Nat :=
  if f.ended then f.bytes.length
  else if f.parsed.l3 ≠ 0 ∧ !f.parsed.malformed then f.parsed.ipLen + f.parsed.l3Off + 4
  else portMtu s f.epoch f.inPort

/-- The destination kind for storm control (R127); none when the frame meets no storm policer. A hit on a multicast group whose
entry is not valid acts as a miss (R93). -/
def stormKind (s : State) (f : Frame) (override : Option Nat) : Option Nat :=
  let missed := some (if isGroup f.bytes then 1 else 2)
  if override.isSome ∨ f.trap.isSome then none
  else if isBroadcast f.bytes then some 0
  else match fdbFind s (vlanFid (vlanEntry s f.epoch f.vid)) (beAt f.bytes 0 6) with
    | none => missed
    | some i =>
      let d := fdbDest (fdbEntry s i)
      if bits d 15 14 = 2 ∧ !bitAt (tabN s 0x03 (bits d 13 0)) 127 then missed else none

/-- Stages 7 to 9. -/
def lateStages (s : State) (i : Nat) (g : Ingress) (ports : List Nat) (empty : Nat) : State :=
  let f := g.frame
  let f := { f with metered := meteredLen s f, fcPrio := if f.inPort < 64 then fcPrioOf s f.inPort f.cls else 0 }
  let storm := (stormKind s f g.override).bind (stormPolicer s f.inPort)
  let (reason, f, s) := stage7 s f storm g.filter (if g.mapTrap then none else g.policer)
  let s := setFrame s i f
  if reason ≠ 0 then dropFrame s i reason
  else
    let (marks, s) := decideMarks s f
    let s := setFrame s i { f with marks, marked := true }
    admission s i g.node ports empty

/-- Stages 5 and 6, and those after them. -/
def forwardStages (s : State) (i : Nat) (g : Ingress) : State :=
  let f := g.frame
  let r := stage5 s f
  if r ≠ 0 then
    let s := if r = 0x12 then requestLearn s f g.noLearn else s
    dropFrame (setFrame s i { f with metered := meteredLen s f }) i r
  else
    let f := tracePoint s { f with vlanCounted := true } 1
    let s := setFrame s i f
    let (ports, empty) := destinations s f g.override
    let s := requestLearn s f g.noLearn
    lateStages s i { g with frame := f } ports empty

/-- A frame that stage 3 or 4 diverts is counted under its reason, and goes on toward the host port (R67, R79). -/
def divert (s : State) (i : Nat) (g : Ingress) : State :=
  let s := countDrop s g.frame.reason 1
  let f := { g.frame with reason := 0, accounted := true }
  lateStages (setFrame s i f) i { g with frame := f } [] 0

/-- Stages 3 and 4, and those after them. -/
def classifyStages (s : State) (i : Nat) (f : Frame) : State :=
  let g := stage3 s { frame := f, override := f.dest }
  let drop := fun (s : State) (g : Ingress) =>
    dropFrame (setFrame s i { g.frame with metered := meteredLen s g.frame, reason := 0 }) i g.reason
  if g.reason ≠ 0 then drop s g
  else
    let g := stage4 s g
    if g.reason ≠ 0 then drop s g
    else if g.frame.trap.isSome then divert s i g
    else forwardStages (setFrame s i g.frame) i g

/-- Frame `i` enters stage 2 of its slice. -/
def ingress (s : State) (i : Nat) : State :=
  let f := frameAt s i
  let f := tracePoint s { f with epoch := sliceEpoch s f.slice } 0
  if role s ≠ 3 then
    let f := { f with metered := f.bytes.length }
    dropFrame (setFrame (count s 22 1) i f) i 0x07
  else
    let f := { f with parsed := parse (parseConfig s f) (windowOf f.bytes f.ended) }
    if f.parsed.malformed ∧ bitAt (sliceWord s f.epoch f.slice 0 0x48) 31 then
      dropFrame (setFrame s i { f with metered := meteredLen s f }) i 0x08
    else classifyStages s i f

/-! ### The end of a frame -/

/-- The fault of a frame that has ended, by the precedence of R147: 4 RX_ERROR, 3 OVERSIZE, 2 UNDERSIZE, 1 FCS_ERROR, 0 none. -/
def frameFault (bytes : List Byte) (mtu : Nat) (fault : FrameFault) : Nat :=
  if fault = .symbol then 4
  else if mtu < bytes.length ∨ fault = .oversize ∨ fault = .jabber then 3
  else if bytes.length < 64 ∨ fault = .undersize ∨ fault = .fragment then 2
  else if !fcsGood bytes ∨ fault = .fcs ∨ fault = .assembly ∨ fault = .smd then 1 else 0

/-- Port statistics of a received frame with its fault (R308, R446, R231). -/
def countPortEnd (s : State) (p : Nat) (bytes : List Byte) (bad : Nat) (fault : FrameFault) (fragments : Nat) : State :=
  let s := countReceived s p bytes (bad = 0)
  let s := match bad with
    | 4 => count s (portCounter p 24) 1
    | 3 => count s (portCounter p 5) 1
    | 2 => count s (portCounter p 6) 1
    | 1 => count s (portCounter p 21) 1
    | _ => s
  let s := match fault with
    | .assembly => count s (portCounter p 13) 1
    | .smd => count s (portCounter p 14) 1
    | _ => s
  if fragments = 0 then s
  else
    let s := count s (portCounter p 16) fragments
    if bad = 0 then count s (portCounter p 15) 1 else s

/-- The copies of frame `i` in queues. -/
def linkedCopies (s : State) (i : Nat) : List Copy :=
  let items := fun (l : List QItem) => l.filterMap fun x => match x with
    | .copy c => if c.frame == i then some c else none
    | .skip _ _ => none
  s.queues.flatMap fun e => items e.2.head ++ items e.2.tail ++
    (match e.2.spill with | some x => items (x.waiting.getD []) | none => [])

/-- The cut-through copies of frame `i` that wait at their ports. -/
def heldCopies (s : State) (i : Nat) : List Copy :=
  s.ports.flatMap fun e => (e.2.selected.toList ++ e.2.selectedPreempt.toList).filter fun c => c.frame == i && c.cut

/-- The copies of frame `i` whose heads have left. -/
def startedCopies (s : State) (i : Nat) : List Copy :=
  s.ports.flatMap fun e => ((e.2.txExpress.toList ++ e.2.txPreempt.toList).map (·.copy)).filter fun c => c.frame == i

/-- The copies of frame `i` that hold leaves now, outside its own list: those linked, and those passed to a port. -/
def placedCopies (s : State) (i : Nat) : List Copy := linkedCopies s i ++ heldCopies s i ++ startedCopies s i

/-- True-up of a count: by `n - c`, at each place that holds the charge (R133). -/
def trueUpLeaves (s : State) (i n : Nat) : State :=
  let f := frameAt s i
  let k := (f.refs.filter (· ≠ 0)).length
  let cs := (f.copies ++ placedCopies s i).filter hasQueue
  if n = f.charge ∨ k = 0 then s
  else if f.charge < n then
    let d := n - f.charge
    let s := cs.foldl (fun s c => chargeCopy s c d) (chargeLeaves s f (d * k))
    sizeChains (setFrame s i { frameAt s i with charge := n }) i n
  else
    let d := f.charge - n
    let s := cs.foldl (fun s c => returnCopy s c d) (returnLeaves s f (d * k))
    sizeChains (setFrame s i { frameAt s i with charge := n }) i n

/-- The counts that a frame's end brings (R120, R128, R306). -/
def countEnd (s : State) (i : Nat) : State :=
  let f := frameAt s i
  let len := f.bytes.length
  let s := if f.vlanCounted then countBoth s (vlanCounters f.vid) 0 len else s
  let s := if f.subCounted then countBoth s (subCounters f.sub) 0 len else s
  let s := f.lateEnq.foldl (fun s q => countQueue s q 0 len) s
  let s := f.refused.foldl (fun s q => countQueueDrop s q len) s
  let s := f.tallies.foldl (fun s k => count s k 1) s
  setFrame (meterEnd s f len) i { f with lateEnq := [], refused := [], tallies := [] }

/-- A port's selection of copy `c` is dropped. -/
def deselect (s : State) (c : Copy) : State :=
  let v := portAt s c.port
  if v.selected = some c then setPort s c.port { v with selected := none }
  else if v.selectedPreempt = some c then setPort s c.port { v with selectedPreempt := none }
  else s

/-- A mirror copy linked before its frame turned out bad leaves its queue, discarded after linking; its catchword is skipped (R147,
R306, R320). -/
def unlinkMirror (s : State) (len : Nat) (c : Copy) : State :=
  let s := deselect s c
  let v := queueAt s c.queue
  let gone := fun (x : QItem) => if x == .copy c then QItem.skip c.catchword ((c.catchword + 1) % 65536) else x
  let s := setQueue s c.queue { v with head := v.head.map gone, tail := v.tail.map gone }
  match mirrorSession c.kind with
  | (n, _) => settleHead (dropMirror s c n len) c.queue

/-- A cut-through copy that its port holds and has not begun is freed: its catchword has passed the queue (R145 to R147). -/
def freeHeld (s : State) (len : Nat) (c : Copy) : State :=
  releaseCopy (countQueueDrop (takeCopy (deselect s c) c) c.queue len) c

/-- The copies of a bad frame that are not begun at egress are freed: those stored with it, those that a port holds, and its mirror copies in
queues (R147). -/
def freeStored (s : State) (i : Nat) : State :=
  let f := frameAt s i
  let s := setFrame s i { f with copies := [], bad := true }
  let s := f.copies.foldl (fun s c => match c.kind with
    | .forward => releaseCopy s c
    | .trap _ => releaseCopy s c
    | .mirrorTx n config _ => refuseMirror (releaseMirror s c config) n
    | .mirrorRx _ config _ => releaseMirror s c config
    | .mirrorDrop n _ _ => refuseMirror (releaseCopy s c) n) s
  let s := (heldCopies s i).foldl (fun s c => freeHeld s f.bytes.length c) s
  (linkedCopies s i).foldl (fun s c => unlinkMirror s f.bytes.length c) s

/-- The capture of an ingress session is made at the frame's end, whatever becomes of the frame (R323). -/
def ingressCaptures (s : State) (i reason : Nat) : State :=
  let f := frameAt s i
  f.copies.foldl (fun s c => match c.kind with
    | .mirrorRx n _ _ =>
      makeCapture s f { direction := 0, session := n, reason, length := f.bytes.length, time := f.rx / 2 ^ 16 } f.bytes
    | _ => s) s

/-- The stored copies of a good frame are linked in ascending port order; egress mirror copies stay with the frame. -/
def linkStored (s : State) (i : Nat) : State :=
  let f := frameAt s i
  let stays := fun (c : Copy) => match c.kind with | .mirrorTx _ _ _ => true | _ => false
  let s := setFrame s i { f with copies := f.copies.filter stays }
  f.copies.foldl (fun s c => match c.kind with
    | .mirrorTx _ _ _ => s
    | .mirrorRx _ config _ => releaseMirror s c config
    | _ => enqueueCopy s c) s

/-- A mirror-only frame takes the bytes of the frame it follows (R322). -/
def followEnd (bytes : List Byte) (bad : Bool) (s : State) (j : Nat) : State :=
  let s := trueUpLeaves s j (ceilDiv bytes.length 256)
  let g := frameAt s j
  let s := setFrame s j { g with bytes, ended := true, copies := [] }
  g.copies.foldl (fun s c => match c.kind with
    | .mirrorDrop n _ _ =>
      if bad then refuseMirror (releaseCopy s c) n else count (enqueueCopy s c) (544 + 2 * n) 1
    | _ => s) s

/-- A frame whose true length turns out above its filter's MAX_SDU (R124). -/
def oversizeAtEnd (s : State) (f : Frame) : Bool :=
  match f.filter with
  | none => false
  | some k =>
    let e := tabN s 0x0E k
    f.reason = 0 && bitAt e 63 && bits e 34 21 ≠ 0 && bits e 34 21 < f.bytes.length && f.metered ≤ bits e 34 21

/-- Counter `i` of stream filter `k` (R306). -/
def filterCounter (k i : Nat) : Nat := 212992 + 6 * k + i

/-- A frame that turns out oversize at its end has passed no step of R124 after the second: of the filter's counters MATCHING and
NOT_PASSING_SDU count it. -/
def recount (f : Frame) : Frame :=
  let k := f.filter.getD 0
  { f with tallies := (f.tallies.filter fun c => c < filterCounter k 0 ∨ filterCounter k 5 < c) ++ [filterCounter k 0, filterCounter k 4] }

/-- Step 2 of R124 at the frame's end. -/
def streamOversize (s : State) (i : Nat) : State :=
  let f := frameAt s i
  let k := f.filter.getD 0
  let s := countPolicing s 0x15
  let s := if bitAt (tabN s 0x0E k) 20 then setLatch s 0x0E k 19 0 else s
  dropFrame s i 0x15

/-- Frame `i` has ended with all its bytes and fault `bad` of R147: its counts, its copies and its followers. -/
def finishFrame (s : State) (i bad : Nat) : State :=
  let f := { frameAt s i with ended := true }
  let long := bad = 0 && oversizeAtEnd s f
  let f := if long then recount f else f
  let s := countEnd (setFrame s i f) i
  let s := if bad ≠ 0 ∧ f.reason = 0 ∧ !f.accounted then countDrop (setFrame s i { frameAt s i with reason := bad }) bad 1 else s
  let s := if long then streamOversize s i else s
  let s := ingressCaptures s i (if bad ≠ 0 then bad else f.reason)
  let s := if bad ≠ 0 ∨ long then
      (let (f, s) := if (frameAt s i).refs.all (· == 0) ∨ (startedCopies s i).isEmpty
          then traceEnd s (frameAt s i) (if bad ≠ 0 then bad else 0x15) none
          else (frameAt s i, s)
       trueUpLeaves (freeStored (setFrame s i f) i) i (ceilDiv f.bytes.length 256))
    else linkStored (trueUpLeaves s i (ceilDiv f.bytes.length 256)) i
  let g := frameAt s i
  let s := setFrame s i { g with followers := [] }
  reapFrame (g.followers.foldl (followEnd f.bytes (bad ≠ 0)) s) i

/-! ### MAC control frames (R52, R53) -/

/-- Load the pause timer of priority `k`: `quanta` of 512 bit times at the port rate; 0 releases it. -/
def loadPause (s : State) (p k quanta : Nat) : State :=
  let v := portAt s p
  setPort s p { v with pauseEnd := setNth v.pauseEnd k (if quanta = 0 then 0 else now s + ceilDiv (quanta * 512) (max 1 (portGbps s p))) }

/-- The MAC consumes a control frame: counted, and acted on where R53 allows. -/
def macControl (s : State) (p : Nat) (b : List Byte) : State :=
  let honour := flag s (portReg p 1 0x40) 29
  match beAt b 14 2 with
  | 0x0001 =>
    let s := count s (portCounter p 2) 1
    if honour ∧ fcMode s p = 1 then showPause (loadPause s p 0 (beAt b 16 2)) p else s
  | 0x0101 =>
    let s := count s (portCounter p 2) 1
    if honour ∧ fcMode s p = 2 then
      showPause ((List.range 8).foldl (fun s k =>
        if bitAt (beAt b 16 2) k && flag s (portReg p 1 0x40) k then loadPause s p k (beAt b (18 + 2 * k) 2) else s) s) p
    else s
  | _ => count s (portCounter p 4) 1

/-! ### Rescue frames (R403) -/

/-- An untagged frame of EtherType 0x88B5 with the rescue MAGIC. -/
def isRescue (b : List Byte) : Bool := beAt b 12 2 == 0x88B5 && beAt b 14 4 == 0x4B545253

/-- A rescue frame meets its checks at its end. -/
def rescueEnd (s : State) (p bad : Nat) (b : List Byte) : State :=
  let op := beAt b 18 1
  let v := portAt s p
  let ok : Bool := bad == 0 && flag s (portReg p 0 0x40) 28 &&
    (beAt b 22 8 == 0 || beAt b 22 8 == s.colophon.serial.toNat) && 1 ≤ op && op ≤ 4 &&
    (op ≠ 4 || beAt b 19 1 ≤ 1) && (v.rescueAt == 0 || v.rescueAt - 1 + 1000000 ≤ now s)
  if ok then
    let s := tally (setPort s p { v with rescueAt := now s + 1 }) 0x2088
    { s with rescues := s.rescues ++ [⟨p, op, beAt b 19 1, beAt b 20 2, slice b 6 6⟩] }
  else tally s 0x208C

/-! ### Stage 1 -/

/-- A frame enters its slice from the port domain. -/
def enterSlice (s : State) (w : WakeEntry) : State :=
  let i := s.nextFrame
  let sl := sliceOf w.port
  let f : Frame := {
    inPort := w.port, slice := sl, bytes := w.bytes, ended := w.ended.isSome, rx := w.rx,
    arrival := w.sfd / 1000, sfd := w.sfd, sfdDev := w.sfdDev, preemptable := w.preemptable,
    epoch := sliceEpoch s sl, metered := w.bytes.length,
    trace := if w.traced then some (newTrace s w.woke) else none }
  let s := setFrame { s with nextFrame := i + 1 } i f
  match w.ended with
  | none =>
    let s := if portFaulted s w.port then dropFrame s i 0x06 else ingress s i
    let v := portAt s w.port
    setPort s w.port (if w.preemptable then { v with rxPreempt := some i } else { v with rxExpress := some i })
  | some (fault, fragments) =>
    let mtu := portMtu s f.epoch w.port
    let bad := frameFault w.bytes mtu fault
    let bytes := w.bytes.take (mtu + 1)
    let s := setFrame s i { f with bytes }
    let s := if portFaulted s w.port then dropFrame s i 0x06 else if bad ≠ 0 then s else ingress s i
    finishFrame (countPortEnd s w.port bytes bad fault fragments) i bad

/-- Bytes held in a slice's wake FIFO. -/
def wakeBytes (s : State) (sl : Nat) : Nat := ((sliceAt s sl).wakeFifo.map fun w => w.bytes.length).foldl (· + ·) 0

/-- A frame whose bytes do not fit in the wake FIFO (R292). -/
def wakeOverflow (s : State) (p : Nat) : State := count (countDrop s 0x05 1) (portCounter p 10) 1

/-- A wake-FIFO entry ends its trace before the slice has seen the frame. -/
def untrace (s : State) (sl : Nat) (traced : Bool) : State :=
  let v := sliceAt s sl
  if traced then setSlice s sl { v with tracing := v.tracing - 1 } else s

/-- A frame collects in the wake FIFO of a slice that does not run, or that a core clock change stalls (R15, R290). -/
def enterFifo (s : State) (sl : Nat) (w : WakeEntry) : State :=
  let s := wakeSlice s sl
  if 262144 < wakeBytes s sl + w.bytes.length then untrace (wakeOverflow s w.port) sl w.traced
  else
    let v := sliceAt s sl
    setSlice s sl { v with wakeFifo := v.wakeFifo ++ [w] }

/-- A control or rescue frame stays in the port domain: a frame record of its own holds its bytes until its end. -/
def holdInMac (s : State) (w : WakeEntry) (rescue control : Bool) : State :=
  let i := s.nextFrame
  let s := touchSlice s (sliceOf w.port)
  let s := setFrame { s with nextFrame := i + 1 } i { inPort := w.port, bytes := w.bytes, rescue, control, preemptable := w.preemptable }
  let v := portAt s w.port
  setPort s w.port (if w.preemptable then { v with rxPreempt := some i } else { v with rxExpress := some i })

/-- The end of a frame that stays in the port domain. -/
def endInMac (s : State) (p : Nat) (bytes : List Byte) (rescue : Bool) (fault : FrameFault) (fragments : Nat) : State :=
  let mtu := portMtu s (currentEpoch s) p
  let bad := frameFault bytes mtu fault
  let bytes := bytes.take (mtu + 1)
  let s := touchSlice (countPortEnd s p bytes bad fault fragments) (sliceOf p)
  if rescue then rescueEnd s p bad bytes
  else if bad ≠ 0 then countDrop s bad 1 else macControl s p bytes

/-- A wake-FIFO entry of this port and MAC whose frame has not ended. -/
def openEntry (p : Nat) (pre : Bool) (w : WakeEntry) : Bool := w.port == p && w.preemptable == pre && w.ended.isNone

/-- The MAC of port `p` has a frame that has not ended. -/
def macBusy (s : State) (p : Nat) (pre : Bool) : Bool :=
  (if pre then (portAt s p).rxPreempt.isSome else (portAt s p).rxExpress.isSome) ||
  (sliceAt s (sliceOf p)).wakeFifo.any (openEntry p pre)

/-- A frame's SFD passes the receive timestamp point of port `p`, with the bytes that have arrived. -/
def receive (s : State) (p : Nat) (bytes : List Byte) (ended pre : Bool) : State :=
  if !portUp s p ∨ macBusy s p pre then s
  else
    let sl := sliceOf p
    let w : WakeEntry := { port := p, bytes, preemptable := pre, rx := rxStamp s p, sfd := now s, sfdDev := devNs s,
                           ended := if ended then some (.none, 0) else none }
    let rescue := isRescue bytes
    let control := beAt bytes 12 2 == 0x8808
    if rescue || control then
      if ended then endInMac s p bytes rescue .none 0 else holdInMac s w rescue control
    else
      let (traced, s) := traceDraw s sl
      let w := { w with traced, woke := !awake s sl }
      if pipelineRuns s sl then enterSlice (wakeSlice s sl) w else enterFifo s sl w

/-- The frame that port `p` receives ends. -/
def receiveEnd (s : State) (p : Nat) (pre : Bool) (rest : List Byte) (fault : FrameFault) (fragments : Nat) : State :=
  let v := portAt s p
  match (if pre then v.rxPreempt else v.rxExpress) with
  | some i =>
    let s := setPort s p (if pre then { v with rxPreempt := none } else { v with rxExpress := none })
    let f := frameAt s i
    let bytes := f.bytes ++ rest
    if f.rescue ∨ f.control then endInMac (setFrame s i {}) p bytes f.rescue fault fragments
    else
      let mtu := portMtu s f.epoch p
      let bad := frameFault bytes mtu fault
      let bytes := bytes.take (mtu + 1)
      let s := setFrame s i { f with bytes }
      finishFrame (countPortEnd (wakeSlice s f.slice) p bytes bad fault fragments) i bad
  | none =>
    let sl := sliceOf p
    let q := sliceAt s sl
    match q.wakeFifo.find? (openEntry p pre) with
    | none => s
    | some w =>
      if 262144 < wakeBytes s sl + rest.length then
        untrace (wakeOverflow (setSlice s sl { q with wakeFifo := q.wakeFifo.erase w }) p) sl w.traced
      else
        let w' := { w with bytes := w.bytes ++ rest, ended := some (fault, fragments) }
        setSlice s sl { q with wakeFifo := q.wakeFifo.map fun x => if x == w then w' else x }

/-- The frames of a wake FIFO enter their slice in order. -/
def drainFifo (s : State) (sl : Nat) : State :=
  let v := sliceAt s sl
  v.wakeFifo.foldl enterSlice (setSlice s sl { v with wakeFifo := [] })

/-- Both MACs of a port lose the frames they receive: RX_ERROR (R147, R148). -/
def cutReception (s : State) (p : Nat) : State :=
  receiveEnd (receiveEnd s p false [] .symbol 0) p true [] .symbol 0

/-! ### The commands -/

/-- FRAME_RECEIVE: a frame's SFD passes the receive timestamp point of an UP port (R16). -/
def execFrameReceive (port : Fin 64) (bytes : List Byte) (ended preemptable : Bool) (s : State) : Res :=
  done (receive s port bytes ended preemptable)

/-- MAC_CONTROL_FRAME: a whole frame of EtherType 0x8808 is consumed by the MAC (R52). -/
def execMacControlFrame (port : Fin 64) (bytes : List Byte) (s : State) : Res :=
  done (if portUp s port ∧ beAt bytes 12 2 = 0x8808 ∧ !macBusy s port false then endInMac s port bytes false .none 0 else s)

/-- FRAME_END: the frame being received ends (R133, R147). -/
def execFrameEnd (port : Fin 64) (preemptable : Bool) (rest : List Byte) (fault : FrameFault) (fragments : Nat) (s : State) : Res :=
  done (receiveEnd s port preemptable rest fault fragments)

/-- PAUSE_TIMER_EXPIRY: the pause timer of a priority runs out (R53). -/
def execPauseTimerExpiry (port : Fin 64) (prio : Fin 8) (s : State) : Res :=
  let v := portAt s port
  done (if nth v.pauseEnd prio ≠ 0 ∧ nth v.pauseEnd prio ≤ now s then
    showPause (setPort s port { v with pauseEnd := setNth v.pauseEnd prio 0 }) port else s)

end Sys2Proof.Machine
end

