-- ==== Sys2Proof/Machine/Ports.lean ====
section
/-! DEFINITION. Ports and links (R5, R45 to R63): enabling, training, link loss and return, hold-off, flushes; preemption's verify
process (R228, R229), gate instants (R218, R227), Low Power Idle (R56) and the recovered clock outputs (R251). -/

namespace Sys2Proof.Machine

/-! ### Lanes -/

/-- The address of offset `off` of lane `l`'s page. -/
def laneReg (l off : Nat) : Nat := 0x300000 + l * 0x1000 + off

/-- The lanes of front port `p` at the width in force. -/
def portLanes (s : State) (p : Nat) : List Nat := (List.range (portAt s p).width).map (p + ·)

/-- Set field [hi:lo] of LANE_STATUS on every lane of a port. -/
def setLanes (s : State) (p hi lo v : Nat) : State :=
  (portLanes s p).foldl (fun s l => setFld s (laneReg l 0x44) hi lo v) s

/-- The lanes of a port go off: no swing, no terminations, and nothing received (R49). -/
def lanesOff (s : State) (p : Nat) : State := (portLanes s p).foldl (fun s l => wr s (laneReg l 0x44) 0) s

/-! ### Preemption follows the port (R228, R229) -/

/-- The mode in force supports preemption (R228). -/
def preemptSupported (s : State) (p : Nat) : Bool := portGbps s p ∈ [10, 25, 50, 100]

/-- PREEMPT_STATUS.ACTIVE follows its conditions; each change raises PREEMPT_ACTIVE. -/
def followPreempt (s : State) (p : Nat) : State :=
  let now_ : Bool := preemptEnabled s p && portUp s p && (flag s (portReg p 1 0xD0) 30 || fld s (portReg p 1 0xD4) 29 27 == 3)
  if now_ == preemptActive s p then s
  else raise (setFlag s (portReg p 1 0xD4) 31 now_) (.port p 1) 5

/-- The verify process stands at its start, or is disabled. -/
def startVerify (s : State) (p : Nat) : State :=
  let runs : Bool := preemptEnabled s p && portUp s p && !flag s (portReg p 1 0xD0) 30
  let s := setPort s p { portAt s p with verifySent := 0, verifyAt := 0 }
  followPreempt (setFld s (portReg p 1 0xD4) 29 27 (bit runs)) p

/-- PREEMPT_CONFIG has been written. -/
def preemptWritten (s : State) (p : Nat) (wasEnabled : Bool) : State :=
  if preemptEnabled s p ≠ wasEnabled then startVerify s p else followPreempt s p

/-! ### Entering the states (R59) -/

/-- PORT_STATUS.STATE. -/
def setPortState (s : State) (p v : Nat) : State := setFld s (portReg p 0 0x4C) 31 29 v

/-- Another port in force overlaps lanes `p` to `p + w - 1`. -/
def laneConflict (s : State) (p w : Nat) : Bool :=
  (List.range 64).any fun q => q ≠ p && portState s q ≠ 0 && q < p + w && p < q + (portAt s q).width

/-- The mode in force shown in PORT_STATUS and PREEMPT_STATUS, or none. -/
def showMode (s : State) (p : Nat) (rate : Option Nat) : State :=
  let s := setFld s (portReg p 0 0x4C) 23 21 (rate.getD 0)
  let s := setFld s (portReg p 0 0x4C) 20 19 ((rate.map modeFec).getD 0)
  setFlag s (portReg p 1 0xD4) 30 (rate.isSome && preemptSupported s p)

/-- What the lanes of a port that trains show: with AN_ENABLE 1 the lowest lane negotiates, and with AN_ENABLE 0 the lanes train where the
mode's PMD clause requires it (R48). DESIGN CHOICE (log 33): which clauses require it is `Config.pmdTrains`. -/
def showTraining (s : State) (p : Nat) : State :=
  if flag s (portReg p 0 0x40) 30 then setFld (setLanes s p 27 25 0) (laneReg p 0x44) 27 25 1
  else setLanes s p 27 25 (if Config.pmdTrains (portAt s p).width (portAt s p).enabledRate then 2 else 0)

/-- The enable of a port under its current configuration: TRAINING, or DISABLED with CONFLICT (R47). In BLANK and SCRAPPED every
port stays DISABLED (R398). -/
def enablePort (s : State) (p : Nat) : State :=
  let w := widthOf (fld s (portReg p 0 0x40) 26 25)
  let r := fld s (laneReg p 0x40) 2 0
  if s.colophon.lifecycle = 0 ∨ s.colophon.lifecycle = 4 then setPortState s p 0
  else if p % w ≠ 0 ∨ laneConflict s p w ∨ !modeSupported w r then
    setFlag (showMode (setPortState s p 0) p none) (portReg p 0 0x4C) 26 true
  else
    let s := setFlag (setPortState s p 1) (portReg p 0 0x4C) 26 false
    let s := setPort s p { portAt s p with width := w, enabledRate := r, reconfigure := false, idleSince := now s }
    let an := flag s (portReg p 0 0x40) 30
    let s := showMode s p (if an then none else some r)
    showTraining (setLanes s p 31 31 1) p

/-- TRAINING again under the configuration in force, after a flush that a link loss began. -/
def retrainPort (s : State) (p : Nat) : State := showTraining (setPortState s p 1) p

/-- The port leaves UP: transmissions are cut off, receptions end, pauses and generated flow control clear, and preemption ends (R53,
R61, R229). -/
def leaveUp (s : State) (p : Nat) : State :=
  let s := truncate (truncate s p true) p false
  let s := cutReception s p
  let s := fcClear (showPause (setPort s p { portAt s p with pauseEnd := List.replicate 8 0 }) p) p
  let s := setFlag (setFlag s (portReg p 0 0x4C) 25 false) (portReg p 0 0x4C) 24 false
  setLanes (setLanes s p 24 23 0) p 28 28 0

/-! ### Flush (R62) -/

/-- The queues under a port's node. -/
def portQueues (s : State) (p : Nat) : List Nat := (s.queues.map (·.1)).filter fun q => queuePort s q == some p

/-- Every on-chip frame of a queue is freed and counted FLUSHED; skip notices go with them. -/
def flushQueue (s : State) (p q : Nat) : State :=
  let s := flushSpill s q p
  let items := (queueAt s q).head
  let s := setQueue s q { queueAt s q with head := [] }
  let s := items.foldl (fun s x => match x with | .copy c => dropFlushed s c | .skip _ _ => s) s
  settleDeficits s q

/-- A cut-through copy that waits at its port is freed with the queue it passed. -/
def flushSelected (s : State) (p : Nat) (express : Bool) : State :=
  match selectedOf s p express with
  | none => s
  | some c =>
    let s := setSelected s p express none
    if c.cut then
      let v := queueAt s c.queue
      dropFlushed (setQueue s c.queue { v with cutHeld := v.cutHeld - 1 }) c
    else s

/-- Entry to FLUSHING. `down` says that the port was UP or HOLD, which raises LINK_DOWN; firmware then flushes the FDB where
AUTO_FDB_FLUSH asks for it (R63). DESIGN CHOICE (log 33): the flush that a RESET begins turns the lanes off as one after a disable does,
which the table of R58 does not say. -/
def startFlush (s : State) (p : Nat) (down reconfigure : Bool) : State :=
  let s := setFlag (setPortState s p 4) (portReg p 0 0x54) 31 true
  let s := setPort s p { portAt s p with reconfigure }
  let s := if down then tally (raise s (.port p 0) 2) (portReg p 2 0x90) else s
  let s := flushSelected (flushSelected s p true) p false
  let s := (portQueues s p).foldl (fun s q => flushQueue s p q) s
  let s := if reconfigure then lanesOff s p else s
  let s := followPreempt s p
  if flag s (portReg p 0 0x40) 27 ∧ s.firmware.running ∧ !standsBy s then flushBegin s 0 (flushPortValue s p) false none none else s

/-- A port in UP, HOLD or TRAINING is taken down by software or by the governor (R59). A port that is being flushed goes on, with
its lanes off, and takes its current configuration at FLUSH_DONE (R47, R49, R60). -/
def takeDown (s : State) (p : Nat) : State :=
  match portState s p with
  | 1 => startFlush s p false true
  | 2 => startFlush (setFlag (leaveUp s p) (portReg p 0 0x4C) 28 false) p true true
  | 3 => startFlush s p true true
  | 4 => lanesOff (setPort s p { portAt s p with reconfigure := true }) p
  | _ => s

/-- A link loss on an UP port: HOLD, or straight to FLUSHING without a hold-off. -/
def loseLink (s : State) (p : Nat) : State :=
  if portState s p ≠ 2 then s
  else
    let s := setFlag (leaveUp s p) (portReg p 0 0x4C) 28 false
    let ms := min 1000 (fld s (portReg p 0 0x48) 9 0)
    if ms = 0 then startFlush s p true false
    else
      let s := setPort (setPortState s p 3) p { portAt s p with holdEnd := now s + ms * 1000000 }
      followPreempt (raise s (.port p 0) 1) p

/-- Copies admitted for a port that are not linked yet: a flush is not complete before they have been freed. -/
def unlinkedFor (s : State) (p : Nat) : Bool :=
  s.frames.any fun e => e.2.copies.any fun c => c.port == p && hasQueue c

/-- Every frame is freed and every sheet released. -/
def flushComplete (s : State) (p : Nat) : Bool :=
  portState s p == 4 && !(s.spill.releasing.any fun e => e.1 == p) && !unlinkedFor s p &&
  (portQueues s p).all fun q => !queueBusy (queueAt s q)

/-- FLUSH_DONE: catchwords are aligned, and the port trains again or stays disabled. -/
def finishFlush (s : State) (p : Nat) : State :=
  let s := (portQueues s p).foldl (fun s q =>
    let s := freeContext s q
    setQueue s q { queueAt s q with expected := (queueAt s q).next }) s
  let s := raise (setFlag s (portReg p 0 0x54) 31 false) (.port p 0) 4
  if flag s (portReg p 0 0x40) 31 ∧ !flag s (portReg p 0 0x4C) 27 then
    (if (portAt s p).reconfigure then enablePort (setPortState s p 0) p else retrainPort s p)
  else showMode (setPortState (lanesOff s p) p 0) p none

/-! ### A link that comes up -/

/-- A lane of a port whose link comes up: its CDR lock is timed from now, unless it held lock before (R251). -/
def lockLane (s : State) (l : Nat) : State :=
  if flag s (laneReg l 0x44) 29 then s
  else { s with pins := { s.pins with laneLock := sset zeroNat s.pins.laneLock l (now s + 1) } }

/-- The link of a port in TRAINING or HOLD is established in a mode of its width: UP, with the mode in force, its latencies,
and the verify process at its start (R48, R59, R229, R242). -/
def linkUp (s : State) (p rate rxLat txLat : Nat) (lpi : Bool) : State :=
  let v := portAt s p
  let an := flag s (portReg p 0 0x40) 30
  let st := portState s p
  if (st ≠ 1 ∧ st ≠ 3) ∨ !modeSupported v.width rate ∨ v.enabledRate < rate ∨ (!an ∧ rate ≠ v.enabledRate) ∨
      (st = 3 ∧ v.holdEnd ≤ now s) then s
  else
    let s := setFlag (setPortState s p 2) (portReg p 0 0x4C) 28 true
    let s := showMode s p (some rate)
    let s := wr (wr s (portReg p 3 0x54) rxLat) (portReg p 3 0x58) txLat
    let s := (portLanes s p).foldl lockLane s
    let s := setLanes (setLanes s p 30 28 7) p 27 25 3
    let s := setPort s p { portAt s p with lpiAgreed := lpi && an, idleSince := now s }
    let s := if st = 1 then raise s (.port p 0) 0 else tally (raise s (.port p 0) 3) (portReg p 2 0x94)
    fcFollowAll (startVerify s p) p

/-! ### Low Power Idle (R56) -/

/-- The mode in force is one of the table of port modes with Low Power Idle. -/
def lpiMode (s : State) (p : Nat) : Bool :=
  let r := fld s (portReg p 0 0x4C) 23 21
  match (portAt s p).width with
  | 1 => r ≤ 1 | 4 => r == 1 | _ => false

/-- The conditions of R56 under which the port uses Low Power Idle. -/
def lpiUsable (s : State) (p : Nat) : Bool :=
  portUp s p && lpiMode s p && (portAt s p).lpiAgreed && flag s (portReg p 1 0x60) 31 && !gateEnabled s p && !preemptEnabled s p

/-- LPI_CONFIG, the gate list or preemption of a port has been written: transmit leaves LPI where R56 no longer allows it. -/
def lpiFollow (s : State) (p : Nat) : State :=
  if flag s (portReg p 0 0x4C) 25 ∧ !lpiUsable s p then wakeTransmit s p else s

/-- The port has nothing to send. -/
def nothingToSend (s : State) (p : Nat) : Bool :=
  let v := portAt s p
  v.txExpress.isNone && v.txPreempt.isNone && v.selected.isNone && v.selectedPreempt.isNone &&
  (busyQueues s).all fun q => queuePort s q != some p

/-- Transmit enters LPI after its idle time. -/
def enterLpi (s : State) (p : Nat) : State :=
  let v := portAt s p
  if lpiUsable s p ∧ nothingToSend s p ∧ v.idleSince + fld s (portReg p 1 0x60) 15 0 * 1000 ≤ now s then
    setLanes (setFlag s (portReg p 0 0x4C) 25 true) p 24 24 1
  else s

/-! ### Verify (R229) -/

/-- SMD-V, the first byte of a verify mPacket. PRESUMED (log 9): IEEE 802.3br. -/
def smdVerify : Byte := 0x07

/-- The verify process sends a verify mPacket, or fails once its third has gone unanswered. While front egress is not open the port sends
nothing (R262), and the process waits. -/
def verifySend (s : State) (p : Nat) : State :=
  let v := portAt s p
  let a := portReg p 1 0xD4
  let send := fun (s : State) =>
    emit (setPort (setFld s a 29 27 2) p { v with verifySent := v.verifySent + 1, verifyAt := now s }) (.control p [smdVerify])
  if !preemptEnabled s p ∨ !portUp s p ∨ !egressOpen s ∨ flag s (portReg p 1 0xD0) 30 then s
  else match fld s a 29 27 with
    | 1 => send s
    | 2 =>
      if now s < v.verifyAt + (fld s (portReg p 1 0xD0) 29 23 + 1) * 1000000 then s
      else if v.verifySent < 3 then send s
      else raise (setFld s a 29 27 4) (.port p 1) 4
    | _ => s

/-- A valid respond mPacket: the process has succeeded, and preemption is active. -/
def verifySucceeds (s : State) (p : Nat) : State :=
  if fld s (portReg p 1 0xD4) 29 27 = 2 then followPreempt (setFld s (portReg p 1 0xD4) 29 27 3) p else s

/-! ### Gates and sleeping slices (R227) -/

/-- The schedule of port `p` opens gate `c` at an instant within the next `w` ns (R227). -/
def opensWithin (s : State) (p c w : Nat) : Bool :=
  let t := devNs s
  let g := (portAt s p).gate
  let admin := fld s (portReg p 1 0x80) 7 0
  (timeline g t).any fun e => bitAt e.2 c && e.1 ≤ t + w && !bitAt (gateNow g admin (e.1 - 1)).2 c

/-- The gate engine wakes a sleeping slice before a window opens for a frame that waits. -/
def gateWakes (s : State) (sl : Nat) : State :=
  let w := match (sliceAt s sl).sleep with | .deep => 20000 | _ => 1000
  if (List.range 8).any fun k =>
      let p := 8 * sl + k
      gateEnabled s p && (busyQueues s).any fun q => queuePort s q == some p && opensWithin s p (q % 8) w then
    wakeSlice s sl
  else s

/-! ### Recovered clocks (R251) -/

/-- The address of RCLK_CONFIG_k. -/
def rclkReg (k : Nat) : Nat := 0x4090 + k * 4

/-- RCLK_CONFIG_k.LANE. -/
def rclkLane (s : State) (k : Nat) : Nat := fld s (rclkReg k) 27 22

/-- The source lane of output `k` has signal and CDR lock, and runs. -/
def rclkSound (s : State) (k : Nat) : Bool := fld s (laneReg (rclkLane s k) 0x44) 31 29 == 7

/-- The time page is in its fault-safe action: RCLK_OUT is held as it is (R35). -/
def rclkHeld (s : State) : Bool := flag s 0x4008 31

/-- The output carries the recovered clock of its lane, divided by DIV, at least 4. -/
def driveRclk (s : State) (k : Nat) : State :=
  emit s (.low "RCLK_OUT" [k, rclkLane s k, max 4 (fld s (rclkReg k) 11 0)])

/-- The output is squelched: held low, and RCLK_SQUELCH raised. -/
def squelch (s : State) (k : Nat) : State :=
  let a := rclkReg k
  if flag s a 30 ∧ !flag s a 29 ∧ (!rclkSound s k ∨ !flag s a 31) ∧ !rclkHeld s then
    let s := emit (setFlag s a 29 true) (.pin "RCLK_OUT" k false)
    raise { s with pins := { s.pins with rclkOn := s.pins.rclkOn.set k false } } .time 4
  else s

/-- Output `k` has waited for its lane: 1 ms of CDR lock without a break (R251). -/
def rclkLocked (s : State) (k : Nat) : Bool :=
  let since := sget zeroNat s.pins.laneLock (rclkLane s k)
  rclkSound s k && since ≠ 0 && since - 1 + 1000000 ≤ now s

/-- The output of an enabled, sound source runs again once its lane has held lock for 1 ms. -/
def unsquelch (s : State) (k : Nat) : State :=
  let a := rclkReg k
  if flag s a 31 ∧ flag s a 29 ∧ rclkLocked s k ∧ !rclkHeld s then
    let s := setFlag s a 29 false
    driveRclk { s with pins := { s.pins with rclkOn := s.pins.rclkOn.set k true } } k
  else s

/-- RCLK_CONFIG_k has been written: the output is squelched where R251 says so, and one that runs follows LANE and DIV. -/
def rclkWritten (s : State) (k : Nat) : State :=
  let s := squelch s k
  if flag s (rclkReg k) 29 ∨ rclkHeld s then s else driveRclk s k

/-! ### Port reset (R47, R59, R410) -/

/-- What a port reset wipes beside the queues: gate lists, the verify state, and the port's frames in its wake FIFO. -/
def wipePort (s : State) (p : Nat) : State :=
  let v := sliceAt s (sliceOf p)
  let s := setSlice s (sliceOf p) { v with wakeFifo := v.wakeFifo.filter fun w => w.port != p }
  let s := setPort s p { portAt s p with verifySent := 0, verifyAt := 0 }
  followPreempt (setFld (dropGates s p) (portReg p 1 0xD4) 29 27 0) p

/-- A port reset: a retry of the enable on a DISABLED port, and a flush without hold-off on the others. On a DISABLED port with ENABLE 0
nothing happens (R47, R59). DESIGN CHOICE (log 33): a port that is SHED stays DISABLED until the governor gives it back. -/
def resetPort (s : State) (p : Nat) : State :=
  if portState s p = 0 then
    (if !flag s (portReg p 0 0x40) 31 then s
     else if flag s (portReg p 0 0x4C) 27 then wipePort s p else enablePort (wipePort s p) p)
  else wipePort (takeDown s p) p

/-! ### The commands -/

/-- PORT_CONFIG.ENABLE of port `p` is written. DESIGN CHOICE (log 33): a 1 written over a 1 does nothing, so a refused port whose conflict
has gone needs a RESET or a new 0 to 1, which R47 names; and a DISABLED port that is SHED stays so until the governor gives it
back, when its enable is taken. -/
def writeEnable (s : State) (p : Nat) (on : Bool) : State :=
  let was := flag s (portReg p 0 0x40) 31
  let s := setFlag s (portReg p 0 0x40) 31 on
  if !on then takeDown s p
  else if !was ∧ portState s p = 0 ∧ !flag s (portReg p 0 0x4C) 27 then enablePort s p else s

/-- PORT_ENABLE: PORT_CONFIG.ENABLE written 1 (R47, R59, R60). -/
def execPortEnable (src : Source) (port : Fin 64) (s : State) : Res :=
  done (guarded s src (portReg port 0 0x40) fun s => writeEnable s port true)

/-- PORT_DISABLE: PORT_CONFIG.ENABLE written 0 (R59). -/
def execPortDisable (src : Source) (port : Fin 64) (s : State) : Res :=
  done (guarded s src (portReg port 0 0x40) fun s => writeEnable s port false)

/-- PORT_RESET: PORT_CONTROL.RESET (R47, R59, R410). -/
def execPortReset (src : Source) (port : Fin 64) (s : State) : Res :=
  done (guarded s src (portReg port 0 0x50) fun s => resetPort s port)

/-- RETRAIN: PORT_CONTROL.RETRAIN, a link loss (R59). -/
def execRetrain (src : Source) (port : Fin 64) (s : State) : Res :=
  done (guarded s src (portReg port 0 0x50) fun s => loseLink s port)

/-- LINK_ESTABLISHED: PCS alignment on every lane and no fault (R59). -/
def execLinkEstablished (port : Fin 64) (mode rxLatency txLatency : Nat) (lpi : Bool) (s : State) : Res :=
  done (linkUp s port mode rxLatency txLatency lpi)

/-- The lanes of a port, by their bits of a mask, lose their signal: a lane that had it raises its cause. -/
def loseSignals (s : State) (p lanes : Nat) : State :=
  ((portLanes s p).filter fun l => bitAt lanes (l - p)).foldl (fun s l =>
    if flag s (laneReg l 0x44) 30 then raise (setFld s (laneReg l 0x44) 30 28 0) (.lane l) 0 else s) s

/-- LINK_LOSS: the link of a port is lost; `lanes` are its lanes that have lost their signal (R59). -/
def execLinkLoss (port : Fin 64) (lanes : BitVec 8) (s : State) : Res :=
  let s := loseSignals s port lanes.toNat
  done (loseLink (if portState s port = 4 then setFlag s (portReg port 0 0x4C) 28 false else s) port)

/-- HOLDOFF_EXPIRY: the hold-off of a port runs out (R59). -/
def execHoldoffExpiry (port : Fin 64) (s : State) : Res :=
  done (if portState s port = 3 ∧ (portAt s port).holdEnd ≤ now s then startFlush s port true false else s)

/-- FLUSH_DONE: the flush of a port is complete (R62). -/
def execFlushDone (port : Fin 64) (s : State) : Res := done (if flushComplete s port then finishFlush s port else s)

/-- TRAINING_FAILED: a negotiation or training fails, and the port retries (R48). -/
def execTrainingFailed (port : Fin 64) (cause : Fin 8) (s : State) : Res :=
  done (if portState s port = 1 ∨ portState s port = 3 then
    let l := port.val + cause.val % (portAt s port).width
    raise (raise (setFld s (laneReg l 0x44) 27 25 4) (.lane l) 1) (.port port 0) 5
  else s)

/-- LPI_ENTRY: transmit enters Low Power Idle (R56). -/
def execLpiEntry (port : Fin 64) (s : State) : Res := done (enterLpi s port)

/-- GATE_ENTRY_CHANGE: an entry of an oper list takes effect (R218), and a preemptable frame may hold at a close (R232). -/
def execGateEntryChange (port : Fin 64) (s : State) : Res := done (holdAtClose (showGate s port) port)

/-- GATE_WAKE: the gate engine wakes a slice before a window opens (R227). -/
def execGateWake (slice : Fin 8) (s : State) : Res := done (gateWakes s slice)

/-- VERIFY_SEND: the verify process sends, or fails (R229). -/
def execVerifySend (port : Fin 64) (s : State) : Res := done (verifySend s port)

/-- VERIFY_RESPONSE: a valid respond mPacket arrives (R229). -/
def execVerifyResponse (port : Fin 64) (s : State) : Res := done (verifySucceeds s port)

/-- RCLK_SQUELCH: a recovered clock output is held low (R251). -/
def execRclkSquelch (output : Fin 2) (s : State) : Res := done (squelch s output)

/-- RCLK_RESTART: a recovered clock output runs again (R251). -/
def execRclkRestart (output : Fin 2) (s : State) : Res := done (unsquelch s output)

end Sys2Proof.Machine
end

