-- ==== Sys2Proof/Machine/Cxl.lean ====
section
/-! DEFINITION. The CXL root ports (R179 to R194): enumeration as firmware runs it, the layout of a port's range, health and event
records, sanitisation, failure and reset; and the timestamps that firmware gives the memory devices, also after a step. -/

namespace Sys2Proof.Machine

/-- The address of offset `off` of CXL port `c`'s page. -/
def cxlReg (c off : Nat) : Nat := 0x408000 + c * 0x1000 + off

/-- Set CXL_PORT_STATUS.STATE. -/
def setCxlState (s : State) (c v : Nat) : State := setFld s (cxlReg c 0x48) 31 28 v

/-- CXL_PORT_CONFIG.ENABLE. -/
def cxlEnabled (s : State) (c : Nat) : Bool := flag s (cxlReg c 0x40) 31

/-! ### Timestamps (R187) -/

/-- Device time in ns, as UTC where TIME_UTC_OFFSET is valid. -/
def deviceUtc (s : State) : Nat :=
  if flag s 0x4088 31 then ((devNs s : Int) - signed (fld s 0x4088 15 0) 16 * 1000000000).toNat else devNs s

/-- Firmware issues Set Timestamp to the device on port `c`. -/
def setTimestamp (s : State) (c : Nat) : State :=
  emit s (.cxl c [0x0301, deviceUtc s % 2 ^ 32, deviceUtc s / 2 ^ 32 % 2 ^ 32])

/-- A Set Timestamp round: every READY port. -/
def timestampRound (s : State) : State :=
  if !s.firmware.running then s
  else
    let s := (List.range 4).foldl (fun s c => if cxlState s c = 3 then setTimestamp s c else s) s
    { s with startup := { s.startup with lastTimestamp := now s } }

/-! ### Enumeration (R184, R185) -/

/-- Firmware sees ENABLE on a port that is OFF: TRAINING from t0. -/
def cxlTrain (s : State) (c : Nat) : State :=
  if cxlEnabled s c ∧ cxlState s c = 0 ∧ s.firmware.running then setCxlLink (setCxlState s c 1) c { t0 := now s } else s

/-- Step 2: CXL_PERST_N_c is released 100 µs after t0, and not before 100 ms after the supplies came into range, where steady time starts
(R182, R183). -/
def cxlPerstRelease (s : State) (c : Nat) : State :=
  let l := cxlLinkAt s c
  if cxlState s c = 1 ∧ flag s (cxlReg c 0x48) 23 ∧ l.t0 + 100000 ≤ now s ∧ 100000000 ≤ now s then
    setCxlLink (setPerst s c false) c { l with released := now s }
  else s

/-- Time passes for a port that trains: its reset is released, and with no link 100 ms after t0 it fails with LINK_DOWN. -/
def cxlTick (s : State) (c : Nat) : State :=
  let s := cxlPerstRelease s c
  if cxlState s c = 1 ∧ (cxlLinkAt s c).t0 + 100000000 ≤ now s then cxlFail s c 1 else s

/-- Steps 4 and 5: the DVSECs are read, Identify Memory Device is issued, and Get Partition Info where partitioning is reported. -/
def identify (s : State) (c : Nat) : State :=
  let s := [0x0000, 0x0007, 0x0008, 0x4000].foldl (fun s op => emit s (.cxl c [op])) s
  drawn (if Config.partitions s.freeCount then emit s (.cxl c [0x4100]) else s)

/-- Step 7: HDM decoder 0 of the device for the first 256 GiB at most, committed and locked, and Mem_Enable; step 8: the root port's own
decoder for the same range (R185). `n` is the size in 256 MiB. -/
def programDecoder (s : State) (c n : Nat) : State :=
  let d : HdmDecoder := { base := c * 2 ^ 38, size := n * 2 ^ 28 }
  let s := emit s (.cxl c [d.base % 2 ^ 32, d.base / 2 ^ 32, d.size % 2 ^ 32, d.size / 2 ^ 32, d.ways, d.granularity,
    bit d.hostOnly, bit d.locked])
  setCxlLink s c { cxlLinkAt s c with decoder := some d, root := some d, memEnable := true, polledAt := now s }

/-- ENABLE of a port is written. 0 takes the port to OFF; its sheets, if it holds any, are lost as with a failure (DEDUCED,
log 22), and PLACE clears. -/
def cxlEnable (s : State) (c : Nat) (on : Bool) : State :=
  let s := setFlag s (cxlReg c 0x40) 31 on
  if on then cxlTrain s c
  else if cxlState s c = 0 then s
  else
    let s := forceDiscard s c
    setPerst (setFld (setCxlState s c 0) (cxlReg c 0x48) 22 16 0) c true

/-- The link of a port in TRAINING whose reset is released is up: ENUMERATING, or FAILED with NARROW or NOT_MEM (R180). -/
def cxlLinked (s : State) (c : Nat) (x8 : Bool) (rate : Nat) (cxl2 wide mem : Bool) : State :=
  if cxlState s c ≠ 1 ∨ flag s (cxlReg c 0x48) 23 then s
  else
    if !wide then cxlFail s c 2
    else if !mem then cxlFail s c 3
    else
      let cap := fld s (cxlReg c 0x40) 26 24
      let width := if x8 ∧ !flag s (cxlReg c 0x40) 27 then 2 else 1
      let s := setFld (setFld (setFld s (cxlReg c 0x48) 22 21 (if cxl2 then 2 else 1)) (cxlReg c 0x48) 20 19 width)
        (cxlReg c 0x48) 18 16 (max rate (if cap ≤ 3 then cap else 0))
      setCxlState s c 2

/-- A step of the enumeration fails with one of the causes that the table of R184 gives its state. LINK_DOWN comes 100 ms after t0, and
NO_RESPONSE 1 s after step 2; the others come with an answer of the device, or within its own bound. -/
def cxlStepFails (s : State) (c cause : Nat) : State :=
  let l := cxlLinkAt s c
  match cxlState s c with
  | 1 => if (cause = 1 ∧ l.t0 + 100000000 ≤ now s) ∨ ((cause = 2 ∨ cause = 3) ∧ !flag s (cxlReg c 0x48) 23) then cxlFail s c cause
         else s
  | 2 =>
    if cause = 3 ∨ cause = 5 ∨ (cause = 4 ∧ l.released + 1000000000 ≤ now s) then cxlFail s c cause
    else if 6 ≤ cause ∧ cause ≤ 8 then cxlFail (identify s c) c cause else s
  | _ => s

/-! ### Layout (R188) -/

/-- 4 KiB units of a size in GiB. -/
def gibUnits (n : Nat) : Nat := n * 2 ^ 18

/-- A port's layout in 4 KiB units: where the sheet region ends, and for each pool its ring base, its first sheet and its sheets.
`l` gives the regions of pools 0 to 2 and the sizes of the capture and trace ring in GiB. DESIGN CHOICE (log 22): the ring region
is a whole number of 64 MiB, as in the spec's example. -/
def spillLayout (decoded : Nat) (l : List Nat) : Nat × List (Nat × Nat × Nat) :=
  let stop := decoded * 2 ^ 16 - gibUnits (nth l 3) - gibUnits (nth l 4)
  let counts := (List.range 3).map fun k => gibUnits (nth l k) / 4 ^ k
  let ring := fun (n : Nat) => ceilDiv (n * 4) 4096
  let bases := [0, ring (nth counts 0), ring (nth counts 0) + ring (nth counts 1),
    ring (nth counts 0) + ring (nth counts 1) + ring (nth counts 2)]
  let start := roundUp (nth bases 3 + ring (decoded * 2 ^ 10)) (2 ^ 14)
  let s0 := start
  let s1 := roundUp (s0 + nth counts 0) 4
  let s2 := roundUp (s1 + nth counts 1 * 4) 16
  let s3 := roundUp (s2 + nth counts 2 * 16) 64
  (stop, [(nth bases 0, s0, nth counts 0), (nth bases 1, s1, nth counts 1), (nth bases 2, s2, nth counts 2),
    (nth bases 3, s3, (stop - s3) / 64)])

/-- The layout leaves pool 3 a sheet, and pool 0 the one that the self-test reserves. -/
def layoutFits (decoded : Nat) (l : List Nat) : Bool :=
  let r := (spillLayout decoded l).2
  match r with
  | [(_, _, n0), _, _, (_, _, n3)] => 0 < n0 && 0 < n3
  | _ => false

/-- Firmware lays out a READY port: it writes every sheet address into its ring, starts the partitions, which INIT refuses while the port
places or holds sheets, and sets PLACE (R161, R188). -/
def layoutPort (s : State) (c : Nat) : State :=
  let l := sget (fun _ => []) s.firmware.layouts c
  let (stop, pools) := spillLayout (fld s (cxlReg c 0x4C) 10 0) l
  if l = [] ∨ !layoutFits (fld s (cxlReg c 0x4C) 10 0) l then s
  else if flag s 0x404040 (28 + c) ∨ sheetsHeld s c ≠ 0 then raise s (.spill 2) 0
  else
    let s := (List.range 4).foldl (fun s k =>
      match pools[k]? with
      | none => s
      | some (base, first, n) =>
        let b := poolReg c k
        let filled := if k = 0 then n - 1 else n
        let s := wr (wr (wr s b base) (b + 4) n) (b + 8) filled
        let s := emit s (ringRequest s c k 0 [first, 4 ^ k, filled])
        setPart s c k { started := true, ring := filled, cache := [], runs := [(some (first, 4 ^ k), filled)], writeAt := filled }) s
    let first := match pools with | (_, s0, n0) :: _ => s0 + n0 - 1 | [] => 0
    let s := { s with firmware := { s.firmware with reserved := (s.firmware.reserved.filter fun e => e.1 != c) ++ [(c, first)] } }
    let s := if nth l 3 = 0 then s
      else wr (setFld (setFld s 0xE440 27 26 c) 0xE440 25 0 stop) 0xE444 (gibUnits (nth l 3))
    let s := if nth l 4 = 0 then s
      else wr (wr (setFld s 0xF040 21 20 c) 0xF044 (stop + gibUnits (nth l 3))) 0xF048 (gibUnits (nth l 4))
    setPlace s (fld s 0x404040 31 28 ||| 2 ^ c)

/-- Enumeration is complete with a volatile capacity in 256 MiB units: READY, and laid out where SPILL_ENABLE has said how. -/
def cxlComplete (s : State) (c capacity : Nat) : State :=
  if cxlState s c ≠ 2 then s
  else if capacity = 0 then cxlFail (identify s c) c 7
  else
    let s := programDecoder (setTimestamp (identify s c) c) c (min capacity 1024)
    let s := wr s (cxlReg c 0x4C) (min capacity 0xFFFF * 2 ^ 16 + min capacity 1024)
    layoutPort (raise (setCxlState s c 3) (.cxl c) 0) c

/-! ### Health and events (R190) -/

/-- PLACE[c] clears, and the port drains. -/
def clearPlace (s : State) (c : Nat) : State :=
  if flag s 0x404040 (28 + c) then setPlace s (fld s 0x404040 31 28 - 2 ^ c) else s

/-- The class under which an event record of a memory device is reported: R416 says 'By record severity' and gives no table, so it is a
free value by severity among the classes below device-fatal (log 14). -/
def eventClass (severity : Nat) : Nat := Config.eventClass severity % 4

/-- One event record (severity, words) is read, logged with its port and cleared in the device. -/
def cxlEvent (c : Nat) (s : State) (e : Nat × List Nat) : State :=
  let s := raise (tally s (cxlReg c 0xB0)) (.cxl c) 3
  let s := reportAs s (eventClass e.1) 0x040C (.cxl c) (e.2.take 10)
  if 2 ≤ e.1 then raise (clearPlace s c) (.cxl c) 2 else s

/-- CXL_POLL.HEALTH_MS in ns, at least 100 ms. -/
def pollPeriod (s : State) (c : Nat) : Nat := max 100 (fld s (cxlReg c 0x54) 15 0) * 1000000

/-- Firmware polls a READY port every HEALTH_MS, and when its device has signalled a record (R190). -/
def pollDue (s : State) (c : Nat) : Bool :=
  cxlState s c == 3 && s.firmware.running &&
  ((cxlLinkAt s c).signalled || (cxlLinkAt s c).polledAt + pollPeriod s c ≤ now s)

/-- Get Event Records and, for what was read, Clear Event Records. -/
def readEvents (s : State) (c : Nat) (events : List (Nat × List Nat)) : State :=
  let s := events.foldl (cxlEvent c) (emit s (.cxl c [0x0100]))
  if events.isEmpty then s else emit s (.cxl c [0x0101, events.length])

/-- The answer to a health poll: Get Health Info, and the event records. -/
def cxlPoll (s : State) (c : Nat) (h : Health) (events : List (Nat × List Nat)) : State :=
  if !pollDue s c then s
  else
  let s := emit (setCxlLink s c { cxlLinkAt s c with polledAt := now s, signalled := false }) (.cxl c [0x4200])
  if h.mailboxFailed then
    let n := sget zeroNat s.firmware.mailboxFails c + 1
    let s := { s with firmware := { s.firmware with mailboxFails := sset zeroNat s.firmware.mailboxFails c n } }
    if 3 ≤ n then cxlFail { s with firmware := { s.firmware with mailboxFails := sset zeroNat s.firmware.mailboxFails c 0 } } c 6 else s
  else
    let life := h.lifeUsed.toNat
    let worn : Bool := 90 < life && life ≠ 0xFF
    let first : Bool := worn && !(c ∈ s.firmware.lifeRaised)
    let s := { s with firmware := { s.firmware with
      mailboxFails := sset zeroNat s.firmware.mailboxFails c 0,
      lifeRaised := if first then c :: s.firmware.lifeRaised else s.firmware.lifeRaised } }
    let s := wr s (cxlReg c 0x50) (bit h.replace * 2 ^ 31 + bit h.degraded * 2 ^ 30 + bit h.maintenance * 2 ^ 29 +
      fld s (cxlReg c 0x50) 28 28 * 2 ^ 28 + h.temperature.toNat * 2 ^ 16 + life)
    let s := if h.replace || h.critical then clearPlace s c else s
    let s := if h.replace || h.degraded || h.maintenance || h.critical || first then raise s (.cxl c) 2 else s
    readEvents s c events

/-- The device signals event records: firmware reads them, and the next health poll is due at once. -/
def cxlSignal (s : State) (c : Nat) (events : List (Nat × List Nat)) : State :=
  if cxlState s c = 3 ∧ s.firmware.running then
    readEvents (setCxlLink s c { cxlLinkAt s c with signalled := true }) c events
  else s

/-! ### Reset and sanitisation (R191, R194) -/

/-- CXL_PORT_CONTROL.RESET: sheets are discarded, PERST is asserted, and enumeration starts again where ENABLE is 1. -/
def cxlReset (s : State) (c : Nat) : State :=
  let s := setPerst (forceDiscard s c) c true
  let s := setFld (setCxlState s c 0) (cxlReg c 0x48) 22 16 0
  cxlTrain s c

/-- What firmware issues to sanitise a device (R191): Sanitize; where the device does not support it Secure Erase; and where it supports
neither, zeros over the decoded range. Which it supports is a free value. -/
def sanitizeRequests (s : State) (c : Nat) : State :=
  let k := Config.sanitizes s.freeCount % 3
  let s := emit (drawn s) (.cxl c [0x4400])
  let s := if 1 ≤ k then emit s (.cxl c [0x4401]) else s
  match (cxlLinkAt s c).decoder with
  | some d => if k = 2 then emit s (cxlRequest c 0 0 [d.size % 2 ^ 32, d.size / 2 ^ 32]) else s
  | none => s

/-- Firmware starts to sanitise the device of a port: one whose link is up is present. A port without a link is recorded as not sanitised:
failed where it is FAILED, absent otherwise (R191, R363). -/
def startSanitize (s : State) (c : Nat) : State :=
  if cxlState s c = 3 ∨ cxlState s c = 2 then sanitizeRequests (setCxlState (forceDiscard s c) c 5) c
  else { s with firmware := { s.firmware with
    sanitized := sset zeroNat s.firmware.sanitized c (if cxlState s c = 4 then 2 else 3) } }

/-- A sanitisation ends. DESIGN CHOICE (log 22): the port is READY again, with no partition started. -/
def sanitizeEnd (s : State) (c : Nat) (ok : Bool) : State :=
  if cxlState s c ≠ 5 then s
  else
    let s := setFlag (setCxlState s c 3) (cxlReg c 0x50) 28 ok
    raise { s with firmware := { s.firmware with sanitized := sset zeroNat s.firmware.sanitized c (if ok then 1 else 2) } } (.cxl c) 4

/-! ### A step of device time (R223, R236, R239, R254) -/

/-- The step that waits applies at a tick, before the tick's increment (R237): the cycle is re-phased, output schedules and gate lists
meet the new time, and firmware sets the memory devices' timestamps again. -/
def stepTime (s : State) (step : Int) : State :=
  let s := (List.range 8).foldl tevStep (rephase (applyStep s step))
  timestampRound (raise (gatesStep s) .time 1)

/-! ### The commands -/

/-- TIME_STEP: TIME_CONTROL.STEP; the step waits for the next tick (R236). -/
def execTimeStep (src : Source) (s : State) : Res := done (guarded s src 0x4040 holdStep)

/-- CXL_PORT_ENABLE: CXL_PORT_CONFIG.ENABLE written 1 (R184). -/
def execCxlPortEnable (src : Source) (port : Fin 4) (s : State) : Res :=
  done (guarded s src (cxlReg port 0x40) fun s => cxlEnable s port true)

/-- CXL_PORT_DISABLE: CXL_PORT_CONFIG.ENABLE written 0 (R182, R193). -/
def execCxlPortDisable (src : Source) (port : Fin 4) (s : State) : Res :=
  done (guarded s src (cxlReg port 0x40) fun s => cxlEnable s port false)

/-- CXL_LINK_UP: link training and alternate-protocol negotiation of a port end (R180, R184). -/
def execCxlLinkUp (port : Fin 4) (x8 : Bool) (rate : Fin 4) (cxl2 wide mem : Bool) (s : State) : Res :=
  done (cxlLinked s port x8 rate cxl2 wide mem)

/-- CXL_ENUMERATION_TIMEOUT: a step of the enumeration fails (R184). -/
def execCxlEnumerationTimeout (port : Fin 4) (cause : Fin 16) (s : State) : Res := done (cxlStepFails s port cause)

/-- CXL_READY: the enumeration of a port completes (R184, R185, R188). -/
def execCxlReady (port : Fin 4) (capacity : Nat) (s : State) : Res := done (cxlComplete s port capacity)

/-- CXL_HEALTH_POLL: firmware polls a memory device (R190). -/
def execCxlHealthPoll (port : Fin 4) (health : Health) (events : List (Nat × List Nat)) (s : State) : Res :=
  done (cxlPoll s port health events)

/-- CXL_EVENT_SIGNAL: a memory device signals event records, which firmware reads (R190). -/
def execCxlEventSignal (port : Fin 4) (events : List (Nat × List Nat)) (s : State) : Res :=
  done (cxlSignal s port events)

/-- An error of R192 on a port in use. LINK_DOWN, UNCORRECTABLE and TIMEOUTS fail the port. DESIGN CHOICE (log 22): the correctable errors,
which have no row, are causes 11 (a link or CXL.io error) and 12 (a retrain without loss of link) of this command. -/
def cxlError (s : State) (c cause : Nat) : State :=
  let st := cxlState s c
  if st ≠ 1 ∧ st ≠ 2 ∧ st ≠ 3 ∧ st ≠ 5 then s
  else match cause with
    | 1 => cxlFail s c 1
    | 9 => cxlFail s c 9
    | 10 => cxlFail s c 10
    | 11 => report (count s (3928 + 5 * c) 1) 0x040A (.cxl c) []
    | 12 => report (tally s (cxlReg c 0xA8)) 0x040A (.cxl c) []
    | _ => s

/-- CXL_PORT_FAILURE: an error on a port in use (R192, R193). -/
def execCxlPortFailure (port : Fin 4) (cause : Fin 16) (s : State) : Res := done (cxlError s port cause)

/-- CXL_PORT_RESET: CXL_PORT_CONTROL.RESET (R194). -/
def execCxlPortReset (src : Source) (port : Fin 4) (s : State) : Res :=
  done (guarded s src (cxlReg port 0x44) fun s => cxlReset s port)

/-- SANITIZE_DONE: the sanitisation of a port's device ends (R191). -/
def execSanitizeDone (port : Fin 4) (ok : Bool) (s : State) : Res := done (sanitizeEnd s port ok)

/-- SET_TIMESTAMP: the round of every 1,024 s (R187). -/
def execSetTimestamp (s : State) : Res :=
  done (if s.startup.lastTimestamp + 1024000000000 ≤ now s then timestampRound s else s)

end Sys2Proof.Machine
end

