-- ==== Sys2Proof/Machine/Mailbox.lean ====
section
/-! DEFINITION. The mailbox channels (R350 to R359): posting, taking, withdrawing, timeouts and resets of either side.
Channels 0 to 5 are inbound 0 to 5, and 6 to 11 outbound 0 to 5. -/

namespace Sys2Proof.Machine

/-- The address of STATUS of a channel. -/
def channelStatus (c : Nat) : Nat := channelBase c + 0x44

/-- The channel holds a posted message (STATUS.FULL). -/
def channelFull (s : State) (c : Nat) : Bool := flag s (channelStatus c) 31

/-- The current sender epoch of a channel. -/
def channelEpoch (s : State) (c : Nat) : Nat := fld s (channelStatus c) 7 0

/-- The interrupt of an inbound channel's sender status. -/
def channelRaise (s : State) (c : Nat) : State := if c < 6 then raise s .mailbox c else s

/-- Set a cause of STATUS and raise the channel's interrupt. -/
def channelMark (s : State) (c k : Nat) : State := channelRaise (setFlag s (channelStatus c) k true) c

/-- The sequencer is in reset (SEQ_STATUS.STATE). -/
def seqInReset (s : State) : Bool := fld s 0x8040 31 30 == 3

/-- PF0's endpoint can serve host software: out of reset, link up, D0, Bus Master Enable (R355). -/
def hostServes (s : State) : Bool := !s.host.inReset && s.host.linkUp && s.host.d0 && s.host.busMaster

/-- The receiver of a channel is down (R355). -/
def receiverIsDown (s : State) (c : Nat) : Bool :=
  if c < 6 then seqInReset s || flag s 0x204C 31
  else if c < 10 then !hostServes s
  else if c = 10 then false
  else !kettleUp s

/-- The receiver of a channel is held in reset (R356). -/
def receiverInReset (s : State) (c : Nat) : Bool :=
  if c < 6 then seqInReset s else if c < 10 then s.host.inReset else false

/-- Set RECEIVER_DOWN, which replaces the timeout of the posted message (R355). -/
def setReceiverDown (s : State) (c : Nat) : State :=
  let s := setChannel s c { channelAt s c with timed := true, down := true }
  channelMark s c 29

/-- The words of a channel's composing registers. -/
def composed (s : State) (c : Nat) : List Nat := (List.range 16).map fun i => rd s (channelBase c + i * 4)

/-- Post a message: it is copied with the sender epoch in its header, and FULL is set (R351, R355, R359). -/
def postMessage (s : State) (c : Nat) (words : List Nat) : State :=
  let head := putBits (nth words 0) 7 0 (channelEpoch s c)
  let words := head :: words.drop 1
  let s := setChannel s c
    { posted := words, postedAt := now s, timed := false, sent := false, inReceiverReset := receiverInReset s c }
  let s := setFlag s (channelStatus c) 31 true
  let s := if 6 ≤ c then raise s .mailbox (c + 2) else s
  if c = 11 ∧ kettleUp s then
    let s := kettleSend s 6 0 false (words.take 12)
    let s := kettleSend s 6 1 false ((words.drop 12).take 4 ++ List.replicate 8 0)
    setChannel s c { channelAt s c with sent := true }
  else if receiverIsDown s c then setReceiverDown s c else s

/-- The posted message leaves the slot. -/
def emptySlot (s : State) (c : Nat) : State :=
  setFlag (setChannel s c {}) (channelStatus c) 31 false

/-- A posted message is discarded with a REASON: 1 RECEIVER_RESET, 2 LINK_DOWN, 3 WITHDRAWN. -/
def discardMessage (s : State) (c reason : Nat) : State :=
  let s := emptySlot s c
  channelMark (setFld s (channelStatus c) 27 25 reason) c 28

/-- CONTROL.GO (R351). -/
def channelGo (s : State) (c : Nat) : State :=
  if channelFull s c then channelMark s c 24 else postMessage s c (composed s c)

/-- A read of TAKE by the receiver: the header it returns and the state after it (R352, R359). -/
def channelTake (s : State) (c : Nat) : Nat × State :=
  if !channelFull s c then (0, s)
  else
    let words := (channelAt s c).posted
    let s := (List.range 15).foldl (fun s i => wr s (channelBase c + 0x4C + i * 4) (nth words (i + 1))) s
    let s := emptySlot s c
    let s := if c = 5 then kettleSend s 6 2 false (nth words 0 :: List.replicate 11 0) else s
    (nth words 0, s)

/-- CONTROL.WITHDRAW (R354, R359). -/
def channelWithdraw (s : State) (c : Nat) : State :=
  if !channelFull s c then channelMark s c 23
  else if c = 11 ∧ (channelAt s c).sent then
    let s := setChannel s c { channelAt s c with withdrawing := true }
    kettleSend s 6 3 false (nth (channelAt s c).posted 0 :: List.replicate 11 0)
  else discardMessage s c 3

/-- A sender reset: composing words clear and the epoch advances; a posted message survives (R356). -/
def senderReset (s : State) (c : Nat) : State :=
  let s := (List.range 16).foldl (fun s i => wr s (channelBase c + i * 4) 0) s
  setFld s (channelStatus c) 7 0 (channelEpoch s c + 1)

/-- A receiver reset: a posted message not yet taken is discarded (R356). -/
def receiverReset (s : State) (c : Nat) : State :=
  if channelFull s c then discardMessage s c 1 else s

/-- A firmware restart meets every channel but M_0 (R356). -/
def firmwareRestartChannels (s : State) : State :=
  let s := (List.range 5).foldl (fun s k => receiverReset s k) s
  (List.range 5).foldl (fun s k => senderReset s (k + 6)) s

/-- PERST_N, a hot reset or an FLR of PF0 meets the H channels (R356). -/
def hostResetChannels (s : State) : State :=
  let s := (List.range 4).foldl (fun s k => senderReset s k) s
  (List.range 4).foldl (fun s k => receiverReset s (k + 6)) s

/-- The receiver of some channels goes down: RECEIVER_DOWN for each posted message (R355). -/
def receiversDown (s : State) (cs : List Nat) : State :=
  cs.foldl (fun s c => if channelFull s c && receiverIsDown s c && !(channelAt s c).down then setReceiverDown s c else s) s

/-- Kettle reaches UP: a held M_0 message is sent (R359). -/
def mailboxKettleUp (s : State) : State :=
  if channelFull s 11 ∧ !(channelAt s 11).sent then
    let words := (channelAt s 11).posted
    let s := kettleSend s 6 0 false (words.take 12)
    let s := kettleSend s 6 1 false ((words.drop 12).take 4 ++ List.replicate 8 0)
    setChannel s 11 { channelAt s 11 with sent := true }
  else s

/-- Kettle leaves UP: M_0 messages already sent are discarded on both devices (R359). -/
def mailboxKettleDown (s : State) : State :=
  let s := if channelFull s 11 ∧ (channelAt s 11).sent then discardMessage s 11 2 else s
  let s := if channelFull s 5 then discardMessage s 5 2 else setChannel s 5 {}
  receiversDown s [11]

/-! ### The commands -/

/-- What the sender of a channel asks of its CONTROL; another source that may write the word at all, the BMC at outbound B_0, has no
authority for it (R350). -/
def bySender (s : State) (src : Source) (c : Nat) (act : State → State) : State :=
  if channelSender c = acts src then act s else accessFault s src (channelBase c + 0x40) 5

/-- MAILBOX_GO: a write of 1 to CONTROL.GO of a channel. -/
def execMailboxGo (src : Source) (channel : Fin 12) (s : State) : Res :=
  done (guarded s src (channelBase channel + 0x40) fun s => bySender s src channel fun s => channelGo s channel)

/-- TAKE: a read of TAKE. The receiver takes the message; any other source is refused (R350, R352). -/
def execTake (src : Source) (channel : Fin 12) (s : State) : Res :=
  let a := channelBase channel + 0x48
  let s := dropWindow s src
  if heldInReset s .mailbox then done (emit s (.value src a 0))
  else if !mayRead s src a then done (emit (accessFault s src a 5) (.value src a 0))
  else
    let r := channelTake s channel
    done (emit r.2 (.value src a r.1))

/-- WITHDRAW: a write of 1 to CONTROL.WITHDRAW. -/
def execWithdraw (src : Source) (channel : Fin 12) (s : State) : Res :=
  done (guarded s src (channelBase channel + 0x40) fun s => bySender s src channel fun s => channelWithdraw s channel)

/-- MAILBOX_TIMEOUT: the timeout of a posted message, once it is due (R353). -/
def execMailboxTimeout (channel : Fin 12) (s : State) : Res :=
  let k := channelAt s channel
  let limit := max 1 (fld s 0x7040 15 0) * 125000
  done (if channelFull s channel ∧ !k.timed ∧ k.postedAt + limit ≤ now s then
    channelMark (setChannel s channel { k with timed := true }) channel 30 else s)

/-- RECEIVER_DOWN: the receiver of a channel is found down while a message is posted, or firmware has not woken within
50 µs of a GO (R355). -/
def execReceiverDown (channel : Fin 12) (s : State) : Res :=
  let late : Bool := channel.val < 6 && fld s 0x8040 31 30 == 0 && (channelAt s channel).postedAt + 50000 ≤ now s
  done (if channelFull s channel ∧ (receiverIsDown s channel ∨ late) ∧ !(channelAt s channel).down then
    setReceiverDown s channel else s)

/-- CONTROL.SENDER_RESET of channel `c`. -/
def channelReset (s : State) (src : Source) (c : Nat) : State :=
  if src = .i2c ∧ c = 4 then senderReset s 4 else if src = .i2c ∧ c = 10 then receiverReset s 10 else s

/-- SENDER_RESET: written over I²C, a sender reset of inbound B_0 or a receiver reset of outbound B_0; ignored on other
channels (R356, R358). -/
def execSenderReset (src : Source) (channel : Fin 12) (s : State) : Res :=
  done (guarded s src (channelBase channel + 0x40) fun s => channelReset s src channel)

/-- Both halves of an M_0 message have come over Kettle: it is posted in the inbound channel (R359). -/
def deliverMate (s : State) (words : List Nat) : State :=
  let s := setFld s (channelStatus 5) 7 0 (nth words 0)
  postMessage s 5 words

end Sys2Proof.Machine
end

