-- ==== Sys2Proof/Machine/TableOps.lean ====
section
/-! DEFINITION. Table entries as software sees them (R345): the image that a read returns, and the effect of a write, with what
a write of a policer, a stream gate, a bucket or a counter brings with it. -/

namespace Sys2Proof.Machine

/-- The image of entry `i` of a gate list (tables 0x14 and 0x15). -/
def gateImage (l : Option GateList) (i : Nat) : Nat :=
  match l with
  | none => 0
  | some L => match L.entries[i]? with | none => 0 | some e => e.1 * 2 ^ 32 + e.2

/-- The image that a read of an entry returns: the applied copy with `applied`, and otherwise the pending or only copy. -/
def entryImage (s : State) (applied : Bool) (t i : Nat) : Nat :=
  match t with
  | 0x0D => unsigned (policerB s i) 41 * 2 ^ 41 + unsigned (policerA s i) 41
  | 0x12 => unsigned (deficitOf s.sched i) 20 * 2 ^ 92 + unsigned (bucketB s i) 46 * 2 ^ 46 + unsigned (bucketA s i) 46
  | 0x14 => gateImage ((portAt s (i / 1024)).gate.pending.map (·.1)) (i % 1024)
  | 0x15 => gateImage (portAt s (i / 1024)).gate.oper (i % 1024)
  | 0x17 => counter s i
  | _ => if applied then tabCur s t i else tabN s t i

/-- The frames that policer `k` has metered and that have not ended owe it nothing any more (R123). -/
def forgetDebits (s : State) (k : Nat) : State :=
  s.frames.foldl (fun s e =>
    if e.2.debits.any (·.policer == k) then setFrame s e.1 { e.2 with debits := e.2.debits.filter (·.policer != k) } else s) s

/-- A policer's entry is written: VALID = 0 stops it at once and discards the true-ups of the frames that it metered (R123). -/
def writePolicer (s : State) (k : Nat) (v : Image) : State :=
  let s := setTab s 0x0C k v
  if bitAt v.toNat 127 then s
  else
    let s := forgetDebits s k
    { s with policing := { s.policing with
    active := sset (fun _ => 0) s.policing.active k 0,
    trueUps := s.policing.trueUps.filter fun d => d.1.policer != k } }

/-- A shaper state entry is written (R209, R216). -/
def writeShaper (s : State) (i : Nat) (v : Nat) : State :=
  let s := setBucketA s i (signed (bits v 45 0) 46)
  let s := if tierOf i = 1 then setBucketB s i (signed (bits v 91 46) 46) else s
  if tierOf i = 3 then s
  else { s with sched := { s.sched with deficit := sset (fun _ => 0) s.sched.deficit i (signed (bits v 111 92) 20) } }

/-- A write of one table entry. FDB slots go through `fdbWrite`. -/
def writeEntry (s : State) (t i : Nat) (v : Image) : State :=
  match t with
  | 0x02 => fdbWrite s i v.toNat
  | 0x0C => writePolicer s i v
  | 0x0D => if standsBy s then s else setPolicer s i (signed (bits v.toNat 40 0) 41) (signed (bits v.toNat 81 41) 41)
  | 0x0F => let s := setTab s 0x0F i v; if bitAt v.toNat 251 ∧ bitAt v.toNat 255 then acceptStream s i else s
  | 0x12 => writeShaper s i v.toNat
  | 0x17 => setCounter s i (v.toNat % 2 ^ 64)
  | _ => setTab s t i v

end Sys2Proof.Machine
end

