-- ==== Sys2Proof/Machine/Shadow.lean ====
section
/-! DEFINITION. The scrub-compare engine: visits, re-reads, reports and repairs (R110 to R113). -/

namespace Sys2Proof.Machine

/-- The TABLE identifier of shadow table `t`; table 4 starts with the KEY table (R110, R345). -/
def shadowTable (t : Nat) : Nat := [0x00, 0x06, 0x07, 0x0C, 0x08, 0x11, 0x13, 0x02].getD t 0

/-- The table that part `part` of shadow table `t` lies in: KEY, MASK and ACTION are three tables. -/
def shadowPart (t part : Nat) : Nat := if t = 4 then 0x07 + max 1 part else shadowTable t

/-- The number of entries of shadow table `t`. -/
def shadowEntries (t : Nat) : Nat := tableEntries (shadowTable t)

/-- A mask of bits [hi:lo]. -/
def maskOf (hi lo : Nat) : Nat := 2 ^ (hi + 1) - 2 ^ lo

/-- The bits of an entry that are compared: hardware-owned and reserved bits are excluded (R110). -/
def shadowMask (t part i : Nat) : Nat :=
  match t with
  | 0 => maskOf 255 87
  | 1 => maskOf 63 16
  | 2 => maskOf 127 80
  | 3 => maskOf 127 10
  | 4 => if part = 3 then maskOf 127 60 else maskOf 319 0
  | 5 => (match tierOf i with | 0 => maskOf 127 62 | 1 => maskOf 127 2 | 2 => maskOf 127 56 | _ => maskOf 127 58)
  | 6 => maskOf 39 0
  | _ => maskOf 127 125 + maskOf 123 48

/-- The hardware value of a part of an entry, in the pending or the applied copy. -/
def shadowHw (s : State) (t part i : Nat) (applied : Bool) : Nat := entryImage s applied (shadowPart t part) i

/-- Both sides of a static FDB slot count only where one of them is a valid static entry (R110). -/
def shadowCounts (t hw sw : Nat) : Bool := t ≠ 7 || (fdbValid hw && fdbStatic hw) || (fdbValid sw && fdbStatic sw)

/-- The hardware value differs from the shadow in a compared bit. -/
def shadowDiffers (t part i hw sw : Nat) : Bool :=
  shadowCounts t hw sw && (hw &&& shadowMask t part i) != (sw &&& shadowMask t part i)

/-- No staged change to table `t` waits for a commit (R111). -/
def tableSettled (s : State) (t : Nat) : Bool :=
  let mine := fun (m : Sparse Image) => skeep (fun k => k / 2 ^ 20 == shadowTable t) m
  mine s.tabs == mine s.tabsCur

/-- The engine runs: ENABLE, or a ONE_PASS under way. -/
def shadowRuns (s : State) : Bool := flag s 0x603040 31 || flag s 0x603040 29

/-- The first enabled table at or above `t`. -/
def shadowNextTable (s : State) (t : Nat) : Option Nat := (List.range 8).find? fun k => t ≤ k && flag s 0x603040 k

/-- SHADOW_STATUS follows the engine. -/
def showShadow (s : State) : State :=
  wr s 0x603048 (bit (shadowRuns s) * 2 ^ 31 + s.shadow.table * 2 ^ 27 + s.shadow.index % 2 ^ 20)

/-- A pass is complete (R111). -/
def shadowPassDone (s : State) : State :=
  let s := { s with shadow := { s.shadow with table := (shadowNextTable s 0).getD 0, index := 0 } }
  let s := wr s 0x60304C (rd s 0x60304C + 1)
  showShadow (raise (setFlag s 0x603040 29 false) (.fwd 3) 1)

/-- The engine moves to its next entry. -/
def shadowAdvance (s : State) : State :=
  let h := s.shadow
  if h.index + 1 < shadowEntries h.table then showShadow { s with shadow := { h with index := h.index + 1 } }
  else match shadowNextTable s (h.table + 1) with
    | some t => showShadow { s with shadow := { h with table := t, index := 0 } }
    | none => shadowPassDone s

/-- SHADOW_PACE.NS; values below 100 act as 100. -/
def shadowPace (s : State) : Nat := max 100 (fld s 0x603044 19 0)

/-- The bytes of a shadow entry of table `t` (R110). -/
def shadowBytes (t : Nat) : Nat := [32, 8, 16, 16, 128, 16, 8, 16].getD t 0

/-- The engine reads shadow entry `i` of table `t` by DMA: it lies at SHADOW_BASE_t + i × size (R110). -/
def shadowFetch (s : State) (t i : Nat) : State :=
  let base := rdPair s (0x603050 + t * 8)
  emit s (.hostRead (base - base % 4096 + i * shadowBytes t) (shadowBytes t))

/-- The differences of the visited entry in one copy, to be re-read 125 µs later (R112). -/
def shadowFind (s : State) (t i : Nat) (applied : Bool) (sw : List Image) : List ShadowDiff :=
  let parts := if t = 4 then [1, 2, 3] else [0]
  (parts.zip sw).filterMap fun (part, v) =>
    let hw := shadowHw s t part i applied
    if shadowDiffers t part i hw v.toNat then some ⟨t, i, part, applied, hw, now s⟩ else none

/-- A shadow read fails: the engine skips the entry (R113). DESIGN CHOICE (log 43): error records of the engine name the table by its TABLE
identifier of R345. -/
def shadowReadError (s : State) (t i : Nat) : State :=
  report (raise s (.fwd 3) 2) 0x0204 (.fwd 3) [shadowTable t, i]

/-- The engine visits one entry with its shadow as read, SHADOW_PACE.NS after the one before (R111). -/
def shadowVisit (s : State) (shadow : Option (List Image)) : State :=
  if !coreRuns s ∨ !shadowRuns s ∨ now s < s.shadow.due then s
  else match shadowNextTable s s.shadow.table with
    | none => shadowPassDone s
    | some t =>
      let s := if t = s.shadow.table then s else { s with shadow := { s.shadow with table := t, index := 0 } }
      let i := s.shadow.index
      let s := shadowFetch { s with shadow := { s.shadow with due := now s + shadowPace s } } t i
      let s := match shadow with
        | none => shadowReadError s t i
        | some sw =>
          let applied := (t = 0 ∨ t = 5) && tableSettled s t
          let found := shadowFind s t i false sw ++ (if applied then shadowFind s t i true sw else [])
          { s with shadow := { s.shadow with diffs := s.shadow.diffs ++ found } }
      shadowAdvance s

/-- The words of an image from a register base, least significant first. -/
def showImage (s : State) (base v : Nat) : State :=
  (List.range 16).foldl (fun s n => wr s (base + n * 4) (bits v (32 * n + 31) (32 * n))) s

/-- The repair of a reported mismatch (R113): the shadow value, in both copies of a staged table; a static FDB slot whose
shadow is no valid static entry is invalidated. DESIGN CHOICE (log 43): the bits that are excluded from the comparison keep their hardware
value. -/
def shadowRepair (s : State) (d : ShadowDiff) (sw : Nat) : State :=
  let table := shadowPart d.table d.part
  if d.table = 7 ∧ !(fdbValid sw && fdbStatic sw) then fdbRemove s d.index
  else
    let m := shadowMask d.table d.part d.index
    let hw := shadowHw s d.table d.part d.index d.applied
    let v := BitVec.ofNat 512 ((sw &&& m) ||| (hw - (hw &&& m)))
    let s := writeEntry s table d.index v
    if tableStaged table then { s with tabsCur := sset resetImage s.tabsCur (tkey table d.index) v } else s

/-- A mismatch that survived its re-read is counted, logged, latched and repaired (R113). DESIGN CHOICE (log 43): the log record names the table
by its TABLE identifier of R345, which for table 4 is that of the part. -/
def shadowReport (s : State) (d : ShadowDiff) (hw sw : Nat) : State :=
  let s := raise (count s 3958 1) (.fwd 3) 0
  let s := report s 0x0203 (.fwd 3) [shadowPart d.table d.part, d.index]
  let free := !flag s 0x603090 31
  let s := if free then
      showImage (showImage (wr s 0x603090
        (2 ^ 31 + d.table * 2 ^ 27 + bit d.applied * 2 ^ 26 + d.part * 2 ^ 24 + d.index)) 0x6030A0 hw) 0x6030E0 sw
    else s
  if !flag s 0x603040 30 ∨ (d.table = 7 ∧ role s ≠ 3) then s
  else
    let s := shadowRepair s d sw
    if free then setFlag s 0x603090 30 true else s

/-- The oldest difference is read again, 125 µs after its visit (R112). -/
def shadowReread (s : State) (shadow : Option Image) : State :=
  match s.shadow.diffs with
  | [] => s
  | d :: rest =>
    if !coreRuns s ∨ now s < d.at_ + 125000 then s
    else
      let s := shadowFetch s d.table d.index
      let s := { s with shadow := { s.shadow with diffs := rest } }
      match shadow with
      | none => shadowReadError s d.table d.index
      | some v =>
        let hw := shadowHw s d.table d.part d.index d.applied
        if hw = d.hw ∧ shadowDiffers d.table d.part d.index hw v.toNat then shadowReport s d hw v.toNat else s

/-- SHADOW_CONTROL.ONE_PASS: one pass with ENABLE at 0. -/
def shadowStart (s : State) : State :=
  let s := setFlag s 0x603040 29 true
  showShadow { s with shadow := { s.shadow with table := (shadowNextTable s 0).getD 0, index := 0, due := now s } }

/-- SHADOW_CONTROL.ONE_PASS is written 1. -/
def shadowOnce (s : State) : State := if flag s 0x603040 31 then s else shadowStart s

/-! ### The commands -/

/-- SHADOW_VISIT: the engine compares one entry with its shadow (R111). -/
def execShadowVisit (shadow : Option (List Image)) (s : State) : Res :=
  sized (match shadow with | none => true | some l => l.length == 1 || l.length == 3) (shadowVisit s shadow)

/-- SHADOW_REREAD: a difference is read again (R112, R113). -/
def execShadowReread (shadow : Option Image) (s : State) : Res := done (shadowReread s shadow)

/-- SHADOW_ONE_PASS: a write of 1 to SHADOW_CONTROL.ONE_PASS. -/
def execShadowOnePass (src : Source) (s : State) : Res :=
  done (guarded s src 0x603040 shadowOnce)

end Sys2Proof.Machine
end

