-- ==== Sys2Proof/Machine/Standby.lean ====
section
/-! DEFINITION. The state copy between the devices of a pair (R276 to R283): the payloads of DELTA and BULK records, staging and
applying on a standby, digests of the configuration, and resynchronisation. -/

namespace Sys2Proof.Machine

/-- TWIN_STATUS.SYNCED. -/
def synced (s : State) : Bool := flag s 0x604C 23

/-! ### Payloads (R277) -/

/-- A payload of 12 words. -/
def padded (ws : List Nat) : List Nat := ws ++ List.replicate (12 - ws.length) 0

/-- One policer as 52 bits: BUCKET_B above BUCKET_A, signed whole bytes rounded down. -/
def policerItem (s : State) (k : Nat) : Nat := unsigned (policerB s k / 31250) 26 * 2 ^ 26 + unsigned (policerA s k / 31250) 26

/-- Items of `w` bits each, the first in the lowest bits. -/
def packed (w : Nat) : List Nat → Nat
  | [] => 0
  | x :: l => x + packed w l * 2 ^ w

/-- A POLICER payload of the `n` policers from `first`. -/
def policerWords (s : State) (first n : Nat) : List Nat :=
  let v := packed 52 ((List.range n).map fun i => policerItem s (first + i))
  (first * 2 ^ 16 + n * 2 ^ 13 + v % 2 ^ 13) :: (List.range 11).map fun i => bits v (44 + 32 * i) (13 + 32 * i)

/-- A COUNTER payload of the `n` counters from `first`. -/
def counterWords (s : State) (first n : Nat) : List Nat :=
  padded ([n * 2 ^ 20 + first, 0] ++ (List.range n).flatMap fun i =>
    [counter s (first + i) % 2 ^ 32, counter s (first + i) / 2 ^ 32])

/-- A BULK FDB payload: bits [127:16] of three entries from slot `first`. DESIGN CHOICE (log 15): packed as the policers are, the
first entry in the lowest bits and word 1 least significant. -/
def bulkFdbWords (s : State) (first : Nat) : List Nat :=
  let v := packed 112 ((List.range 3).map fun i => if first + i < 524288 then bits (fdbEntry s (first + i)) 127 16 else 0)
  first :: (List.range 11).map fun i => bits v (31 + 32 * i) (32 * i)

/-- Runs of at most seven consecutive numbers of a rising list: (first, count). -/
def runs : List Nat → List (Nat × Nat)
  | [] => []
  | k :: l =>
    match runs l with
    | (f, n) :: r => if f = k + 1 ∧ n < 7 then (k, n + 1) :: r else (k, 1) :: (f, n) :: r
    | [] => [(k, 1)]

/-! ### Sending the delta (R276) -/

/-- The buckets of the policers that metered a frame since they were last sent. -/
def sendPolicers (s : State) (cp : Bool) : State :=
  let s := (runs (s.policing.metered.mergeSort)).foldl (fun s r =>
    kettleSend { s with twin := { s.twin with sentRecords := s.twin.sentRecords + 1 } } 3 4 cp (policerWords s r.1 r.2)) s
  { s with policing := { s.policing with metered := [] } }

/-- One sixty-fourth of the counter set, in rotation. -/
def sendCounters (s : State) (cp : Bool) : State :=
  let base := s.twin.rotation * 8192
  let s := (List.range 1639).foldl (fun s i =>
    kettleSend { s with twin := { s.twin with sentRecords := s.twin.sentRecords + 1 } } 3 5 cp
      (counterWords s (base + 5 * i) (min 5 (8192 - 5 * i)))) s
  { s with twin := { s.twin with rotation := (s.twin.rotation + 1) % 64 } }

/-- The END record of cycle `k`. -/
def sendEnd (s : State) (k : Nat) (final : Bool) : State :=
  let s := kettleSend s 3 0xF (k % 2 == 1)
    (padded [k, bit final * 2 ^ 31 + currentEpoch s, s.twin.sentRecords])
  { s with twin := { s.twin with sentRecords := 0, lastDelta := k } }

/-! ### Digests (R281) -/

/-- TWIN_CONFIG_DIVERGENT with its epoch. -/
def divergent (s : State) (epoch : Nat) : State := report (raise (setFld s 0x6064 15 0 epoch) .twin 2) 0x0603 .twin [epoch]

/-- The digest words shown in TWIN_DIGEST_n. -/
def ownDigest (s : State) : List Nat := (List.range 12).map fun n => rd s (0x6068 + 4 * n)

/-- Compare the two digests of one epoch. -/
def compareDigests (s : State) : State :=
  match s.twin.mateDigest with
  | some (e, ws) => if ws.length = 12 ∧ s.twin.digestEpoch = e + 1 ∧ ws ≠ ownDigest s then divergent s e else s
  | none => s

/-- A DIGEST_A or DIGEST_B record of the mate. -/
def takeDigest (s : State) (sub : Nat) (ws : List Nat) : State :=
  let e := bits (nth ws 0) 15 0
  if sub = 6 then { s with twin := { s.twin with mateDigest := some (e, (ws.drop 1).take 10) } }
  else match s.twin.mateDigest with
    | some (e', l) =>
      if e' = e then compareDigests { s with twin := { s.twin with mateDigest := some (e, l.take 10 ++ (ws.drop 1).take 2) } } else s
    | none => s

/-- The STG fields of the applied words that differ from reset: what the digest covers of the registers (R281). -/
def stagedValues (m : Sparse Word32) : Sparse Word32 :=
  m.filterMap fun e =>
    let k := BitVec.ofNat 32 (stagedMask e.1)
    if e.2 &&& k = resetWord e.1 &&& k then none else some (e.1, e.2 &&& k)

/-- Firmware computes the digest of the configuration in force, shows it, sends it and compares it. -/
def configDigest (s : State) : State :=
  if !s.twin.digestDue ∨ !s.firmware.running then s
  else
    let d := (Config.configDigest (currentEpoch s) (stagedValues s.regsCur) s.tabsCur).toNat
    let s := (List.range 12).foldl (fun s n => wr s (0x6068 + 4 * n) (bits d (383 - 32 * n) (352 - 32 * n))) s
    let s := { s with twin := { s.twin with digestDue := false, digestEpoch := currentEpoch s + 1 } }
    let send := fun (s : State) (sub : Nat) (ws : List Nat) =>
      if standsBy s then kettleSend s 3 sub (s.clock.cycleNumber % 2 == 1) (padded ws) else sendDelta s sub ws
    let s := send s 6 (currentEpoch s :: (ownDigest s).take 10)
    let s := send s 7 (currentEpoch s :: (ownDigest s).drop 10)
    compareDigests s

/-! ### Applying items on the standby (R279) -/

/-- Write an FDB slot as the copy gives it. -/
def copySlot (s : State) (slot entry : Nat) : State :=
  if slot < 524288 then setTab s 0x02 slot (BitVec.ofNat 512 entry) else s

/-- The two items of FDB_WRITE. -/
def applyWrites (s : State) (ws : List Nat) : State :=
  [0, 6].foldl (fun s o => copySlot s (bits (nth ws o) 31 13)
    (nth ws (o + 1) * 2 ^ 96 + nth ws (o + 2) * 2 ^ 64 + nth ws (o + 3) * 2 ^ 32 + nth ws (o + 4))) s

/-- The items of a POLICER payload. -/
def applyPolicers (s : State) (ws : List Nat) : State :=
  let w0 := nth ws 0
  let v := bits w0 12 0 + packed 32 (ws.drop 1) * 2 ^ 13
  (List.range (bits w0 15 13)).foldl (fun s i =>
    let x := bits v (52 * i + 51) (52 * i)
    setPolicer s (bits w0 31 16 + i) (signed (bits x 25 0) 26 * 31250) (signed (bits x 51 26) 26 * 31250)) s

/-- The items of a COUNTER payload; only covered counters change (R280). -/
def applyCounters (s : State) (ws : List Nat) : State :=
  let first := bits (nth ws 0) 19 0
  (List.range (min 5 (bits (nth ws 0) 23 20))).foldl (fun s i =>
    if counterExists (first + i) && copied (first + i) then
      loadCounter s (first + i) (nth ws (2 + 2 * i) + nth ws (3 + 2 * i) * 2 ^ 32)
    else s) s

/-- Apply one record of a delta. -/
def applyRecord (s : State) (r : StagedRecord) : State :=
  match r.sub with
  | 1 => applyWrites s r.words
  | 2 => r.words.foldl (fun s w => if bitAt w 31 then copySlot s (bits w 18 0) 0 else s) s
  | 3 => flushCopied s (bits (nth r.words 0) 31 30) (bits (nth r.words 0) 15 0) (bitAt (nth r.words 0) 29)
  | 4 => applyPolicers s r.words
  | 5 => applyCounters s r.words
  | 6 => takeDigest s 6 r.words
  | 7 => takeDigest s 7 r.words
  | _ => s

/-- Apply one complete delta. -/
def applyDelta (s : State) (d : StagedDelta) : State :=
  match d.ended with
  | none => s
  | some (k, final, _) =>
    let s := d.records.foldl applyRecord s
    let s := wr s 0x605C k
    { s with twin := { s.twin with lastDelta := k, finalApplied := s.twin.finalApplied || final } }

/-- Apply the complete deltas that lead the staged ones. -/
def applyStaged : Nat → State → State
  | 0, s => s
  | n + 1, s =>
    match s.twin.staged with
    | [] => s
    | d :: l => if d.ended.isSome then applyStaged n (applyDelta { s with twin := { s.twin with staged := l } } d) else s

/-! ### Resynchronisation (R283) -/

/-- The standby asks for a bulk: SYNCED clears, its FDB is invalid, and nothing is staged until START. -/
def startResync (s : State) : State :=
  let s := tally (setFlag s 0x604C 23 false) 0x6128
  let s := { s with
    twin := { s.twin with bulk := .requested, staged := [] },
    tabs := s.tabs.filter fun e => e.1 / 2 ^ 20 != 2 }
  kettleSend s 4 0 false (padded [])

/-- The copy is lost: SYNCED clears, and a standby whose Kettle is UP resynchronises. -/
def loseSync (s : State) : State :=
  let s := setFlag s 0x604C 23 false
  if role s = 0 ∧ kettleUp s then startResync s else s

/-- A delta is discarded for a missing END or a wrong count. -/
def discardDelta (s : State) (i : Nat) : State :=
  loseSync (tally { s with twin := { s.twin with staged := s.twin.staged.eraseIdx i } } 0x612C)

/-- The staged delta of parity `cp` that is still open. -/
def openDelta (s : State) (cp : Bool) : Option Nat := s.twin.staged.findIdx? fun d => d.cp == cp && d.ended.isNone

/-- Records of the cycle after next arrive while a delta's END is missing: a later delta has ended already, or the mate has begun two cycles
since the delta's own (R279). -/
def endMissing (s : State) (i : Nat) : Bool :=
  ((s.twin.staged.drop (i + 1)).any fun d => d.ended.isSome) || (s.twin.staged[i]?.map fun d => decide (2 ≤ d.age)).getD false

/-- An open delta whose END is missing as records of a later cycle arrive is discarded. Between BULK REQUEST and START it goes without a
count: the bulk covers it. -/
def dropMissing (s : State) : State :=
  match (List.range s.twin.staged.length).find? fun i =>
    (s.twin.staged[i]?.map fun d => d.ended.isNone).getD false && endMissing s i with
  | none => s
  | some i =>
    if s.twin.bulk = .requested then { s with twin := { s.twin with staged := s.twin.staged.eraseIdx i } } else discardDelta s i

/-- The standby stages a record: it joins its cycle's delta. Records that overtake BULK START are staged too: those of k0 are among them
(R272, R283). -/
def stageRecord (s : State) (cp : Bool) (r : StagedRecord) : State :=
  let s := dropMissing s
  match openDelta s cp with
    | some i => { s with twin := { s.twin with staged := s.twin.staged.modify i fun d => { d with records := d.records ++ [r] } } }
    | none =>
      let s := { s with twin := { s.twin with staged := s.twin.staged ++ [{ cp, records := [r] }] } }
      if s.twin.bulk ≠ .none ∧ 64 < s.twin.staged.length then startResync s else s

/-- The first cycle of a bulk under way; deltas before it are not staged. -/
def bulkFrom (s : State) : Nat := match s.twin.bulk with | .loading k _ => k | .applying k => k | _ => 0

/-- More than two complete deltas wait to be applied (R279). -/
def backlog (s : State) : Bool := s.twin.bulk == .none && 2 < (s.twin.staged.filter fun d => d.ended.isSome).length

/-- END of cycle `k` arrives: the delta is complete and applied, or discarded. Before BULK START a delta that misses records is one that began
before the request, and goes without a count. -/
def stageEnd (s : State) (cp : Bool) (k : Nat) (final : Bool) (n : Nat) : State :=
    let s := dropMissing s
    let s := if (openDelta s cp).isSome then s else { s with twin := { s.twin with staged := s.twin.staged ++ [{ cp, records := [] }] } }
    match openDelta s cp with
    | none => s
    | some i =>
      if k < bulkFrom s then { s with twin := { s.twin with staged := s.twin.staged.eraseIdx i } }
      else if (s.twin.staged[i]?.map fun d => d.records.length) ≠ some n then
        (if s.twin.bulk = .requested then { s with twin := { s.twin with staged := s.twin.staged.eraseIdx i } } else discardDelta s i)
      else
        let s := { s with twin := { s.twin with staged := s.twin.staged.modify i fun d => { d with ended := some (k, final, n) } } }
        if backlog s then loseSync s
        else if s.twin.bulk = .none then applyStaged s.twin.staged.length s else s

/-- A BULK record reaches the standby. DESIGN CHOICE (log 15): START carries the cycle in word 0 and FDB_HASH_SEED in word 1; an
END whose total differs from the records received restarts the bulk. -/
def bulkReceive (s : State) (sub : Nat) (ws : List Nat) : State :=
  match s.twin.bulk with
  | .requested =>
    if sub ≠ 0xE then s
    else if nth ws 1 ≠ rd s 0x600048 then divergent { s with twin := { s.twin with bulk := .none } } (currentEpoch s)
    else
      let k0 := nth ws 0
      let keep := fun (d : StagedDelta) => match d.ended with
        | some (k, _, _) => k0 ≤ k
        | none => d.cp == (k0 % 2 == 1) && d.age ≤ 1
      { s with twin := { s.twin with bulk := .loading k0 0, staged := s.twin.staged.filter keep } }
  | .loading k n =>
    if sub = 0xF then
      if nth ws 0 = n then { s with twin := { s.twin with bulk := .applying k } } else startResync s
    else
      let s := { s with twin := { s.twin with bulk := .loading k (n + 1) } }
      match sub with
      | 1 =>
        let v := packed 32 (ws.drop 1)
        (List.range 3).foldl (fun s i => copySlot s (bits (nth ws 0) 18 0 + i) (bits v (112 * i + 111) (112 * i) * 2 ^ 16)) s
      | 4 => applyPolicers s ws
      | 5 => applyCounters s ws
      | _ => s
  | _ => s

/-- The staged deltas are applied up to the latest complete one: SYNCED. -/
def syncDone (s : State) : State :=
  match s.twin.bulk with
  | .applying _ =>
    let s := applyStaged s.twin.staged.length s
    raise (setFlag { s with twin := { s.twin with bulk := .none } } 0x604C 23 true) .twin 5
  | _ => s

/-- The boundary of cycle `k0` starts the bulk that the mate asked for: START, every table item, and END with its total. -/
def sendBulk (s : State) (k0 : Nat) : State :=
  if !s.twin.serve ∨ standsBy s then s
  else
    let s := { s with twin := { s.twin with serve := false } }
    let s := kettleSend s 4 0xE false (padded [k0, rd s 0x600048])
    let s := (List.range 174763).foldl (fun s i => kettleSend s 4 1 false (bulkFdbWords s (3 * i))) s
    let s := (List.range 9363).foldl (fun s i => kettleSend s 4 4 false (policerWords s (7 * i) (min 7 (65536 - 7 * i)))) s
    let s := (List.range 104858).foldl (fun s i => kettleSend s 4 5 false (counterWords s (5 * i) (min 5 (524288 - 5 * i)))) s
    kettleSend s 4 0xF false (padded [288984])

end Sys2Proof.Machine
end

