-- ==== Sys2Proof/Machine/Interlock.lean ====
section
/-! DEFINITION. The interlock (R257 to R269): arming, claiming, conflicts, release, roles and takeover. The samples that a claim
command carries stand for the time in which they were taken; true is a sample that reads the mate's claim asserted. -/

namespace Sys2Proof.Machine

/-- TWIN_CONTROL.ARM. -/
def armed (s : State) : Bool := flag s 0x6048 31

/-- TWIN_STATUS.CLAIM_OUT. -/
def claims (s : State) : Bool := flag s 0x604C 28

/-- A change of ROLE raises ROLE_CHANGE. -/
def setRole (s : State) (r : Nat) : State := if role s = r then s else raise (setFld s 0x604C 31 29 r) .twin 0

/-- CLAIM_IN shows the last sample. -/
def showClaimIn (s : State) (samples : List Bool) : State :=
  match samples.getLast? with
  | some b => setFlag s 0x604C 27 b
  | none => s

/-- Drive TWIN_CLAIM_OUT: low while claimed. -/
def driveClaim (s : State) (on : Bool) : State := emit (setFlag s 0x604C 28 on) (.pin "TWIN_CLAIM_OUT" 0 (!on))

/-! ### Front egress stops (R262) -/

/-- A frame in transmission ends with a stomped FCS: what has left of it by now, and the inverted FCS over that. -/
def cutStomped (s : State) (p : Nat) (express : Bool) : State :=
  match txOf s p express with
  | none => s
  | some t =>
    let bytes := stomp (cutBytes s p t)
    truncateAs (emit s (.wire p (bytes.drop t.sent))) p express t bytes

/-- Every front transmitter goes idle: frames in transmission end. -/
def idleFronts (s : State) : State := (List.range 64).foldl (fun s p => cutStomped (cutStomped s p true) p false) s

/-- EGRESS_ALLOWED falls: every front port sends idle. -/
def stopEgress (s : State) : State := idleFronts (setFlag s 0x604C 25 false)

/-! ### Release (R261, R264, R265) -/

/-- The handover in progress is over, and TWIN_CONTROL.HANDOVER clears. -/
def endHandover (s : State) : State := setFlag { s with twin := { s.twin with handover := .none } } 0x6048 28 false

/-- The claim of a handover in step 6 is released: HANDOVER_DONE. -/
def handoverDone (s : State) : State := if s.twin.handover = .releasing then raise s .twin 7 else s

/-- The claim line is released, and the device is STANDBY. A standby that is not SYNCED resynchronises while Kettle is UP. -/
def dropClaim (s : State) : State :=
  let s := driveClaim (handoverDone s) false
  let s := { s with twin := { s.twin with confirmed := false, conflicted := false, releaseAt := none } }
  let s := setRole (endHandover s) 0
  if kettleUp s ∧ !synced s ∧ s.twin.bulk = .none then startResync s else s

/-- A release cause: ARM clears, the front transmitters go idle, and the claim line follows 200 ns later. -/
def startRelease (s : State) : State :=
  let s := setFlag s 0x6048 31 false
  if !claims s then s
  else if s.twin.releaseAt.isSome then stopEgress s
  else
    let u := stopEgress s
    { u with twin := { u.twin with releaseAt := some (now s + 200) } }

/-- A sample reads the mate's claim asserted while the own claim is. A mate that claims is present: its always-on controller drives both lines
(R257; DEDUCED, log 38). -/
def claimConflict (s : State) : State :=
  if !claims s then s
  else
    let u := stopEgress (raise (tally (setFlag (setFlag s 0x604C 27 true) 0x604C 26 true) 0x6120) .twin 8)
    if flag s 0x604C 24 then dropClaim u
    else if s.twin.confirmed then u
    else { u with twin := { u.twin with conflicted := true } }

/-! ### Takeover (R268, R269) -/

/-- The device becomes ACTIVE: every complete staged delta is applied, and the transition counts as a takeover where R269 says so. -/
def becomeActive (s : State) : State :=
  let s := applyStaged s.twin.staged.length s
  let takeover := s.twin.takeover
  let s := { s with twin := { s.twin with staged := [], bulk := .none, takeover := false } }
  let s := if takeover then tally s 0x611C else s
  let s := if takeover ∧ !synced s then raise s .twin 9 else s
  setRole (setFlag s 0x604C 23 false) 3

/-- A TAKING_OVER device becomes ACTIVE at once with a final delta applied, and otherwise at the first cycle boundary at least
10 µs after its confirmation. -/
def takeoverDue (s : State) : Bool :=
  role s = 2 && (s.twin.finalApplied || s.twin.confirmedAt + 10000 ≤ s.clock.cycleStart)

/-- Incomplete staged deltas are discarded and counted. -/
def discardOpen (s : State) : State :=
  let n := (s.twin.staged.filter fun d => d.ended.isNone).length
  let s := { s with twin := { s.twin with staged := s.twin.staged.filter fun d => d.ended.isSome } }
  if n = 0 then s else narrowAdd s 0x612C n

/-- The claim is confirmed. -/
def confirmClaim (s : State) : State :=
  let s := setFlag s 0x604C 25 true
  let s := { s with twin := { s.twin with
    confirmed := true, conflicted := false, confirmedAt := now s, takeover := flag s 0x604C 26 || flag s 0x6044 31 } }
  let s := discardOpen (setRole s 2)
  let s := applyStaged s.twin.staged.length s
  if s.twin.finalApplied then becomeActive s else s

/-! ### The commands -/

/-- TWIN_ARM: TWIN_CONTROL.ARM is set (R260). -/
def execTwinArm (src : Source) (s : State) : Res := done (guarded s src 0x6048 fun s => setFlag s 0x6048 31 true)

/-- TWIN_CONTROL.DISARM. -/
def disarm (s : State) : State :=
  let s := setFlag s 0x6048 31 false
  if role s = 1 then dropClaim s else s

/-- TWIN_DISARM: ARM clears; a claim not yet confirmed is released, a confirmed one kept (R260, R265). -/
def execTwinDisarm (src : Source) (s : State) : Res :=
  done (guarded s src 0x6048 disarm)

/-- CLAIM_ASSERT: 50 samples of an armed device that does not claim (R260). -/
def execClaimAssert (samples : List Bool) (s : State) : Res :=
  let s' := showClaimIn s samples
  sized (samples.length = 50)
    (if s.startup.railsUp ∧ armed s ∧ role s = 0 ∧ !claims s ∧ !samples.any id then
      let s' := driveClaim s' true
      setRole { s' with twin := { s'.twin with confirmed := false, conflicted := false } } 1
    else s')

/-- CLAIM_CONFIRM: the 25 samples of the 1 µs check, and whether the mate is present (R260, R261, R268). -/
def execClaimConfirm (samples : List Bool) (matePresent : Bool) (s : State) : Res :=
  let s' := setFlag (showClaimIn s samples) 0x604C 26 matePresent
  sized (samples.length = 25)
    (if role s ≠ 1 ∨ !claims s ∨ s.twin.releaseAt.isSome then s'
    else if samples.any id then claimConflict s'
    else if s.twin.conflicted then s'
    else confirmClaim s')

/-- CLAIM_CONFLICT: a sample reads the mate's claim asserted (R261). -/
def execClaimConflict (s : State) : Res := done (claimConflict s)

/-- EGRESS_ALLOWED: the samples of the last 2 µs of a device that claims (R261, R262). -/
def execEgressAllowed (samples : List Bool) (s : State) : Res :=
  let s' := showClaimIn s samples
  sized (samples.length = 50)
    (if !claims s ∨ s.twin.releaseAt.isSome then s'
    else if samples.any id then claimConflict s'
    else if s.twin.conflicted then confirmClaim s'
    else if s.twin.confirmed then fcFlushAll (setFlag s' 0x604C 25 true)
    else s')

/-- CLAIM_RELEASE: 200 ns after the transmitters went idle the claim line is released (R264). -/
def execClaimRelease (s : State) : Res :=
  match s.twin.releaseAt with
  | some t => done (if t ≤ now s then dropClaim s else s)
  | none => done s

/-- TWIN_RELEASE: TWIN_CONTROL.RELEASE (R264). -/
def execTwinRelease (src : Source) (s : State) : Res := done (guarded s src 0x6048 startRelease)

/-- TAKEOVER_ACTIVE: a TAKING_OVER device becomes ACTIVE (R268). -/
def execTakeoverActive (s : State) : Res := done (if takeoverDue s then becomeActive s else s)

end Sys2Proof.Machine
end

