-- ==== Sys2Proof/Machine/Kettle.lean ====
section
/-! DEFINITION. The Kettle link (R270 to R275): bring-up, acknowledgement and retransmission, the records a device receives, the
graceful handover (R282), health records (R285) and the self-tests (R286). -/

namespace Sys2Proof.Machine

/-- Enter a state of KETTLE_STATUS. -/
def kettleEnter (s : State) (state : Nat) : State :=
  let s := setFld s 0x6050 31 29 state
  { s with kettle := { s.kettle with since := now s } }

/-- Kettle leaves its state with a cause (0 keeps the last one). Leaving UP raises KETTLE_DOWN, ends the session, empties the
windows and discards M_0 messages; a bulk under way ends with it. -/
def kettleLeave (s : State) (state cause : Nat) : State :=
  let wasUp := kettleUp s
  let s := if cause = 0 then s else setFld s 0x6050 28 25 cause
  let s := kettleEnter { (setFld s 0x6050 7 0 0) with kettle := {} } state
  let s := { s with twin := { s.twin with
    bulk := .none, serve := false, staged := if s.twin.bulk = .none then s.twin.staged else []
    finalApplied := false, mateArm := false, mateSynced := false } }
  if wasUp then mailboxKettleDown (report (raise s .twin 4) 0x0601 .twin [fld s 0x6050 28 25]) else s

/-- Kettle may train: KETTLE_CONFIG.ENABLE is 1, and the colophon is not in its error state (R273, R390). -/
def kettleOn (s : State) : Bool := flag s 0x6044 31 && !flag s 0x1040 27

/-- Kettle goes DOWN, and trains again while it is enabled. -/
def kettleRestart (s : State) (cause : Nat) : State :=
  let s := kettleLeave s 0 cause
  if kettleOn s then kettleEnter s 1 else s

/-- A bring-up step fails: FAILED with its cause. -/
def kettleFail (s : State) (cause : Nat) : State := kettleLeave s 4 cause

/-- KETTLE_CONFIG.ENABLE is written. -/
def kettleSwitch (s : State) (on : Bool) : State :=
  let s := setFlag s 0x6044 31 on
  if on then (if kettleState s = 0 ∧ kettleOn s then kettleEnter s 1 else s)
  else if kettleState s = 0 then s else kettleLeave s 0 0

/-- A HELLO record goes out. DESIGN CHOICE (log 15): word 0 the seat, word 1 the mask, in which bit v stands for version v, then words of an
SPDM message. -/
def sendHello (s : State) (spdm : List Nat) : State :=
  emit s (.kettle (2 ^ 28) (openRecord (2 ^ 28) (padded ([fld s 0x604C 24 24, 2] ++ spdm))))

/-- The next message of the SPDM exchange goes out in HELLO records of ten words each (R273, log 15); what it says is SPDM's own. -/
def sendSpdm (s : State) : State :=
  let m := Config.spdm 0 (fld s 0x604C 24 24) s.freeCount
  drawn ((List.range (max 1 (ceilDiv m.length 10))).foldl (fun s i => sendHello s ((m.drop (10 * i)).take 10)) s)

/-- A HELLO record in state HELLO: the versions, then the seats. Seat A, the requester, then opens the SPDM exchange, and each side answers
the messages of the other until the session stands (R273). -/
def takeHello (s : State) (seatB : Bool) (versions : Nat) (spdm : List Nat) : State :=
  if kettleState s ≠ 2 then s
  else if !bitAt versions 1 then kettleFail s 2
  else if flag s 0x604C 24 == seatB then kettleFail s 4
  else
    let first := !s.kettle.helloDone
    let s := setFld s 0x6050 7 0 1
    let s := { s with kettle := { s.kettle with helloDone := true } }
    if (first ∧ !flag s 0x604C 24) ∨ spdm ≠ [] then sendSpdm s else s

/-- Steps 2 to 4 of R273 are not complete within 50 ms: FAILED. The rule names no cause; the model shows AUTH (log 15). -/
def kettleBound (s : State) : State :=
  if kettleState s = 2 ∧ s.kettle.since + 50000000 ≤ now s then kettleFail s 3 else s

/-- The session is set up: UP with empty windows. -/
def kettleReachUp (s : State) (sameImages : Bool) : State :=
  let s := kettleEnter { s with
    kettle := { s.kettle with
      nextSeq := 0, expected := 0, unacked := [], waiting := [], session := true, key := s.freeCount, sent := 0, acks := 0,
      mailHalf := [] }
    freeCount := s.freeCount + 1 } 3
  let s := mailboxKettleUp (raise s .twin 3)
  let s := if sameImages then s else divergent s (currentEpoch s)
  if role s = 0 ∧ !synced s then startResync s else s

/-! ### Acknowledgement (R272) -/

/-- An ACK record. DESIGN CHOICE (log 15): word 0 carries NAK in bit 31 and the highest SEQ received in order. -/
def sendAck (s : State) (nak : Bool) : State :=
  let s := { s with kettle := { s.kettle with acks := s.kettle.acks + 1 } }
  let header := 7 * 2 ^ 28 + s.kettle.acks % 2 ^ 23
  emit s (.kettle header (sessionRecord s true (s.kettle.acks - 1) header
    (padded [bit nak * 2 ^ 31 + (s.kettle.expected + 2 ^ 23 - 1) % 2 ^ 23])))

/-- A sequenced record arrives: in order it is acknowledged and acted upon, after a gap it is answered with NAK, and a repeated
one is acknowledged again. -/
def kettleAccept (s : State) (seq : Nat) (act : State → State) : State :=
  if !kettleUp s then s
  else if seq = s.kettle.expected then
    act (sendAck { s with kettle := { s.kettle with expected := (seq + 1) % 2 ^ 23 } } false)
  else sendAck s ((seq + 2 ^ 23 - s.kettle.expected) % 2 ^ 23 < 2 ^ 22)

/-- Retransmit every unacknowledged record. Sixteen retransmissions of one record take the link to DOWN. -/
def retransmit (s : State) : State :=
  let k := s.kettle
  let again := k.unacked.map fun r => { r with sends := r.sends + 1, sentAt := now s }
  let s := count { s with
    kettle := { k with unacked := again },
    out := s.out ++ again.map fun r => .kettle (r.head + r.seq) r.words } 23 again.length
  if again.any fun r => 16 ≤ r.sends then kettleRestart s 5 else s

/-- Records up to `upTo` are acknowledged. On an active the END among them gives TWIN_SYNC_CYCLE. -/
def acknowledge (s : State) (upTo : Nat) (nak : Bool) : State :=
  if !kettleUp s then s
  else
    let n := match s.kettle.unacked.findIdx? fun r => r.seq == upTo with | some i => i + 1 | none => 0
    let gone := s.kettle.unacked.take n
    let s := { s with kettle := { s.kettle with unacked := s.kettle.unacked.drop n } }
    let s := gone.foldl (fun s r => if r.head / 2 ^ 24 = 0x3F then wr s 0x605C (nth r.words 0) else s) s
    let s := if nak then retransmit s else s
    kettleFill s.kettle.waiting.length s

/-! ### Heartbeats (R274) -/

/-- The clock difference of two instants (seconds, ns) in ns. -/
def timeDiff (a b : Nat × Nat) : Int := ((a.1 : Int) - b.1) * 1000000000 + a.2 - b.2

/-- The transmit time of the own heartbeat that the mate had received when it sent one that arrives now: the last one, or the one before where
the last one is not acknowledged yet (DEDUCED, log 15: an acknowledgement follows its record within 1 µs). -/
def pairedSent (s : State) : Nat × Nat :=
  if s.kettle.unacked.any fun r => r.head / 2 ^ 28 == 2 then s.twin.sentBefore else s.twin.sentAt

/-- A HEARTBEAT of the mate, received at (rxSec, rxNs): the mate begins its next cycle, and the open deltas grow older. -/
def takeHeartbeat (s : State) (ws : List Nat) (rx : Nat × Nat) : State :=
  let t := s.twin
  let sent := (nth ws 1, nth ws 2)
  let got := (nth ws 3, nth ws 4)
  let own := pairedSent s
  let off := (timeDiff sent t.heardAt + timeDiff got own) / 2
  let s := if t.heardAt ≠ (0, 0) ∧ own ≠ (0, 0) ∧ got ≠ (0, 0) then
    wr s 0x6060 (unsigned (clampInt (-(2 ^ 31)) (2 ^ 31 - 1) off) 32) else s
  let s := setFld (setFld s 0x604C 19 18 0) 0x6064 31 16 (bits (nth ws 5) 15 0)
  { s with twin := { s.twin with
    heard := true, heardAt := rx, mateArm := bitAt (nth ws 5) 28, mateSynced := bitAt (nth ws 5) 27
    staged := s.twin.staged.map fun d => { d with age := d.age + 1 } } }

/-! ### Records of the mate -/

/-- A DELTA record: staged on a standby; a DIGEST record reaches an active device too. -/
def takeDelta (s : State) (cp : Bool) (sub : Nat) (ws : List Nat) : State :=
  if standsBy s then stageRecord s cp { sub, words := ws }
  else if sub = 6 ∨ sub = 7 then takeDigest s sub ws else s

/-- A BULK record: a request for the active, or content for the standby. -/
def takeBulk (s : State) (sub : Nat) (ws : List Nat) : State :=
  if sub = 0 then { s with twin := { s.twin with serve := true } } else if standsBy s then bulkReceive s sub ws else s

/-- Both halves of a message: the second one completes it (R359). -/
def takeMailHalf (s : State) (sub : Nat) (ws : List Nat) : State :=
  if sub = 0 then { s with kettle := { s.kettle with mailHalf := ws } }
  else if s.kettle.mailHalf = [] then s
  else
    let words := s.kettle.mailHalf ++ ws.take 4
    deliverMate { s with kettle := { s.kettle with mailHalf := [] } } words

/-- A MAILBOX record of channel M_0 (R359). -/
def takeMail (s : State) (sub : Nat) (ws : List Nat) : State :=
  match sub with
  | 0 => takeMailHalf s 0 ws
  | 1 => takeMailHalf s 1 ws
  | 2 =>
    if channelFull s 11 then
      let lost := (channelAt s 11).withdrawing
      let s := emptySlot s 11
      if lost then channelMark s 11 23 else s
    else s
  | 3 =>
    if channelFull s 5 then
      kettleSend (emptySlot s 5) 6 4 false (padded [nth ws 0])
    else s
  | 4 => if channelFull s 11 then discardMessage s 11 3 else s
  | _ => s

/-- A health record goes to the host's ring 4; SOURCE is 1 for the mate's (R285). A record that the ring does not take leaves a gap in SEQUENCE
(R342). -/
def healthToHost (s : State) (mate : Bool) (body : List Nat) : State :=
  if !flag s 0x6040 28 then s
  else
    let ws := (2 ^ 28 + bit mate * 2 ^ 27) :: body ++ [devSub s, devSec s, s.twin.healthSeq]
    let s := { s with twin := { s.twin with healthSeq := (s.twin.healthSeq + 1) % 2 ^ 32 } }
    if eventRoom s 4 64 then eventWrite s 4 ws else s

/-- A HEALTH record of the mate. -/
def takeHealth (s : State) (ws : List Nat) : State :=
  let s := { s with twin := { s.twin with mateFailed := bits (nth ws 6) 23 16 ≠ 0 || bits (nth ws 6) 15 13 ≠ 0 } }
  healthToHost s true ws

/-! ### Graceful handover (R282) -/

/-- Why a handover is refused, as LAST_HANDOVER gives it; 0 when it is accepted. -/
def handoverRefused (s : State) : Nat :=
  if role s ≠ 3 then 2 else if !kettleUp s then 3
  else if !(s.twin.mateArm && s.twin.mateSynced) then 4 else if s.twin.mateFailed then 5 else 0

/-- TWIN_CONTROL.HANDOVER is written 1. An ACTIVE device that has accepted one already goes on with it; in HANDING_OVER the request is
refused as in every role but ACTIVE. -/
def handoverStart (s : State) : State :=
  match handoverRefused s with
  | 0 => if s.twin.handover = .none then setFlag { s with twin := { s.twin with handover := .accepted } } 0x6048 28 true else s
  | c => raise (setFld s 0x604C 22 20 c) .twin 7

/-- The boundary b1 after the acceptance: HANDING_OVER. A device that is no longer ACTIVE ends its handover. -/
def handoverBoundary (s : State) : State :=
  match s.twin.handover with
  | .accepted =>
    if role s = 3 then setRole { s with twin := { s.twin with handover := .draining (now s) } } 4 else endHandover s
  | _ => s

/-- DRAIN_US held to 1 to 100, in ns. -/
def drainNs (s : State) : Nat := max 1 (min 100 (fld s 0x6040 7 0)) * 1000

/-- Frames still queued or spilled are flushed, and the final delta is sent. -/
def handoverDrainEnd (s : State) : State :=
  match s.twin.handover with
  | .draining b1 =>
    if now s < b1 + drainNs s ∧ busyQueues s ≠ [] then s
    else
      let s := (List.range 64).foldl (fun s p => flushSelected (flushSelected s p true) p false) s
      let s := (busyQueues s).foldl (fun s q => flushQueue s ((queuePort s q).getD 64) q) s
      let s := sendPolicers s (s.clock.cycleNumber % 2 == 1)
      let s := sendEnd s (s.clock.cycleNumber % 2 ^ 32) true
      { s with twin := { s.twin with handover := .final b1 } }
  | _ => s

/-- Every END record sent has been acknowledged in the session that runs. -/
def endsAcked (s : State) : Bool :=
  kettleUp s && !(s.kettle.unacked.any fun r => r.head / 2 ^ 24 == 0x3F) && !(s.kettle.waiting.any fun r => r.1 / 2 ^ 24 == 0x3F)

/-- Step 6: the transmitters go idle and ARM clears; the claim line follows 200 ns later under R264, and the role with it (CLAIM_RELEASE). -/
def handoverRelease (s : State) : State :=
  match s.twin.handover with
  | .final b1 =>
    if !endsAcked s ∧ now s < b1 + 110000 then s
    else
      let s := setFld s 0x604C 22 20 (if endsAcked s then 1 else 6)
      startRelease { s with twin := { s.twin with handover := .releasing } }
  | _ => s

/-! ### Self-tests (R286) -/

/-- A standby with SELFTEST_ENABLE runs the self-tests. -/
def selftests (s : State) : Bool := coreRuns s && role s = 0 && flag s 0x6040 30

/-- A self-test fails: its bit, its count, its interrupt and its error record. -/
def selftestFail (s : State) (k : Nat) : State :=
  report (raise (tally (setFlag s 0x6058 k true) 0x6124) .twin 6) 0x0605 .twin [k]

/-- A synthetic frame of slice `i` comes to its check: content, sequence, and a latency under 10 µs. -/
def selftestFrame (s : State) (i : Nat) (ok : Bool) : State :=
  let s := { s with twin := { s.twin with passed := putBits s.twin.passed i i (bit ok) } }
  if ok then s else selftestFail s (24 + i)

/-- The eye heights of the lanes: LANE_EYE and EYE_HEIGHT follow; a standby also checks the running lanes. -/
def eyeLanes (s : State) : List Nat :=
  ((List.range 64).filter fun l => fld s (laneReg l 0x44) 31 29 = 7) ++ (if kettleUp s then [64, 65] else [])

/-- Of the lanes of a list, the one of least height, the lower number among equals. -/
def worstLane (heights : List Nat) (ls : List Nat) : Option Nat :=
  ls.foldl (fun w l => match w with
    | none => some l
    | some k => if nth heights l < nth heights k then some l else some k) none

/-- New eye heights are measured. -/
def showEyes (s : State) (heights : List Nat) : State :=
  let ls := eyeLanes s
  let s := ls.foldl (fun s l => if l < 64 then setFld s (laneReg l 0x50) 15 8 (nth heights l) else s) s
  let s := if 64 ∈ ls then setFld s 0x6050 15 8 (min (nth heights 64) (nth heights 65)) else s
  match worstLane heights ls with
  | none => s
  | some l => setFld { s with twin := { s.twin with worstEye := nth heights l, worstLane := l } } 0x6058 6 0 l

/-- The worst running lane is below EYE_MIN. -/
def eyeFails (s : State) : Bool := eyeLanes s ≠ [] && s.twin.worstEye < fld s 0x6054 23 16

/-- A pass of the memory scrub, with the corrections it made: each is an SRAM_CORRECTED error (R24, R416). The page of the memory is not
named, and the record carries the root page (log 14). -/
def scrubPass (s : State) (corrected : Nat) (uncorrectable : Bool) : State :=
  let s := { s with twin := { s.twin with scrubCorrections := s.twin.scrubCorrections + corrected } }
  let s := (List.range corrected).foldl (fun s _ => report s 0x0101 .root []) s
  if uncorrectable then selftestFail s 22 else s

/-! ### The commands -/

/-- KETTLE_ENABLE: KETTLE_CONFIG.ENABLE written 1 (R273). -/
def execKettleEnable (src : Source) (s : State) : Res := done (guarded s src 0x6044 fun s => kettleSwitch s true)

/-- KETTLE_TRAINED: training completes, and HELLO begins (R273). -/
def execKettleTrained (s : State) : Res := done (if kettleState s = 1 then sendHello (kettleEnter s 2) [] else s)

/-- KETTLE_TRAINING_TIMEOUT: training is not complete within 500 ms (R273). -/
def execKettleTrainingTimeout (s : State) : Res :=
  done (if kettleState s = 1 ∧ s.kettle.since + 500000000 ≤ now s then kettleFail s 1 else s)

/-- HELLO: a HELLO record arrives (R273). KETTLE_UP gives the outcome of the SPDM exchange. -/
def execHello (seatB : Bool) (versions : Word32) (spdm : List Nat) (s : State) : Res := done (takeHello s seatB versions.toNat spdm)

/-- KETTLE_UP: the session is established, or its authentication fails (R273, R397). -/
def execKettleUp (chainOk sameOwner sameImages : Bool) (s : State) : Res :=
  done (if kettleState s ≠ 2 ∨ !s.kettle.helloDone then s
    else if !chainOk ∨ !sameOwner then kettleFail s 3
    else kettleReachUp s sameImages)

/-- KETTLE_DOWN: the link is lost (R273). -/
def execKettleDown (s : State) : Res :=
  done (if kettleState s = 0 ∨ kettleState s = 4 then s else kettleRestart s 0)

/-- KETTLE_FAILED_RETRY: one second after FAILED (R273). -/
def execKettleFailedRetry (s : State) : Res :=
  done (if kettleState s = 4 ∧ kettleOn s ∧ s.kettle.since + 1000000000 ≤ now s then kettleEnter s 1 else s)

/-- HEARTBEAT (R274). -/
def execHeartbeat (seq : Nat) (words : List Nat) (rxSec rxNs : Nat) (s : State) : Res :=
  sized (words.length = 12) (kettleAccept s seq fun s => takeHeartbeat s words (rxSec, rxNs))

/-- MATE_RESET_PULSE_END: the mate reset output is released after 10 ms (R275). -/
def execMateResetPulseEnd (s : State) : Res :=
  match s.twin.mateResetUntil with
  | some t => done (if t ≤ now s then
      emit { s with twin := { s.twin with mateResetUntil := none }, pins := { s.pins with mateReset := false } }
        (.pin "TWIN_MATE_RESET_OUT_N" 0 true) else s)
  | none => done s

/-- MATE_RESET_DISARM: MATE_RESET_ARM clears (R275). -/
def execMateResetDisarm (src : Source) (s : State) : Res := done (guarded s src 0x6048 fun s => setFlag s 0x6040 29 false)

/-- DELTA (R279). -/
def execDelta (seq : Nat) (cp : Bool) (sub : Nat) (words : List Nat) (s : State) : Res :=
  sized (words.length = 12) (kettleAccept s seq fun s => takeDelta s cp sub words)

/-- END (R279). -/
def execEndRecord (seq : Nat) (cp : Bool) (words : List Nat) (s : State) : Res :=
  sized (words.length = 12) (kettleAccept s seq fun s =>
    if standsBy s then stageEnd s cp (nth words 0) (bitAt (nth words 1) 31) (nth words 2) else s)

/-- MAILBOX_RECORD (R359). -/
def execMailboxRecord (seq sub : Nat) (words : List Nat) (s : State) : Res :=
  sized (words.length = 12) (kettleAccept s seq fun s => takeMail s sub words)

/-- HEALTH (R285). -/
def execHealth (seq : Nat) (words : List Nat) (s : State) : Res :=
  sized (words.length = 12) (kettleAccept s seq fun s => takeHealth s words)

/-- ACK (R272). -/
def execAck (upTo : Nat) (nak : Bool) (s : State) : Res := done (acknowledge s upTo nak)

/-- KETTLE_RETRANSMIT_TIMER: 10 µs after the first unacknowledged record was last sent (R272). -/
def execKettleRetransmitTimer (s : State) : Res :=
  match s.kettle.unacked with
  | [] => done s
  | r :: _ => done (if kettleUp s ∧ r.sentAt + 10000 ≤ now s then retransmit s else s)

/-- KETTLE_RECORD_BAD: a record with a bad CRC, a bad tag or an unknown TYPE is discarded (R271). -/
def execKettleRecordBad (s : State) : Res :=
  done (if kettleState s = 2 ∨ kettleState s = 3 then report (count s 24 1) 0x0602 .twin [] else s)

/-- CONFIG_DIGEST (R281). -/
def execConfigDigest (s : State) : Res := done (configDigest s)

/-- HANDOVER: TWIN_CONTROL.HANDOVER (R282). -/
def execHandover (src : Source) (s : State) : Res := done (guarded s src 0x6048 handoverStart)

/-- HANDOVER_DRAIN_END (R282). -/
def execHandoverDrainEnd (s : State) : Res := done (handoverDrainEnd s)

/-- HANDOVER_RELEASE (R282). -/
def execHandoverRelease (s : State) : Res := done (handoverRelease s)

/-- TWIN_CONTROL.RESYNC, which only a standby obeys. -/
def requestResync (s : State) : State := if role s = 0 then loseSync s else s

/-- RESYNC: TWIN_CONTROL.RESYNC (R283). -/
def execResync (src : Source) (s : State) : Res :=
  done (guarded s src 0x6048 requestResync)

/-- BULK (R283). -/
def execBulk (seq sub : Nat) (words : List Nat) (s : State) : Res :=
  sized (words.length = 12) (kettleAccept s seq fun s => takeBulk s sub words)

/-- SYNC_DONE (R283). -/
def execSyncDone (s : State) : Res := done (syncDone s)

/-- SELFTEST_FRAME (R286). -/
def execSelftestFrame (slice : Fin 8) (contentOk sequenceOk : Bool) (latency : Nat) (s : State) : Res :=
  done (if selftests s ∧ nth s.twin.frameDue slice ≤ s.twin.boundaries then
    let s := { s with twin := { s.twin with
      frameDue := setNth s.twin.frameDue slice (s.twin.boundaries + max 1 (fld s 0x6054 31 24)) } }
    selftestFrame (wakeSlice s slice) slice (contentOk && sequenceOk && latency < 10000)
    else s)

/-- The write and the read of the reserved sheet of port `c`: two requests of 4 KiB at its address (R286). -/
def spillTest (s : State) (c : Nat) : State :=
  match s.firmware.reserved.find? fun e => e.1 == c with
  | none => s
  | some (_, a) =>
    let s := { s with twin := { s.twin with spillDue := setNth s.twin.spillDue c (s.twin.boundaries + 64) } }
    emit (emit s (.cxl c [1, c * 2 ^ 38 + a * 4096, 4096])) (.cxl c [0, c * 2 ^ 38 + a * 4096, 4096])

/-- SELFTEST_SPILL: every 64 cycles the reserved sheet of a READY port is written and read (R286). -/
def execSelftestSpill (port : Fin 4) (same : Bool) (s : State) : Res :=
  done (if selftests s ∧ cxlState s port = 3 ∧ nth s.twin.spillDue port ≤ s.twin.boundaries then
    (if same then spillTest s port else selftestFail (spillTest s port) 23) else s)

/-- SELFTEST_EYE (R286). -/
def execSelftestEye (heights : List Nat) (s : State) : Res :=
  let s' := showEyes s heights
  sized (heights.length = 66) (if !coreRuns s then s else if selftests s ∧ eyeFails s' then selftestFail s' 21 else s')

/-- SELFTEST_SCRUB (R286). -/
def execSelftestScrub (corrected : Nat) (uncorrectable : Bool) (s : State) : Res :=
  done (if selftests s then scrubPass s corrected uncorrectable else s)

end Sys2Proof.Machine
end

