-- ==== Sys2Proof/Machine/Wipe.lean ====
section
/-! DEFINITION. Device-fatal errors (R419, R420), the watchdog (R288, R445), failed boots (R395), and what a device warm reset or deep
standby wipes and keeps (R410, R413). -/

namespace Sys2Proof.Machine

/-! ### Device-fatal errors -/

/-- Step 3 of R420 and of R288: hold every front transmitter quiet, or a device warm reset 1 ms after the release. -/
def fatalAction (s : State) (hold : Bool) (cause : Nat) : State :=
  if hold then { s with power := { s.power with hold := true } }
  else
    let release := s.twin.releaseAt.getD (now s)
    { s with errors := { s.errors with resetAt := some (release + 1000000, cause) } }

/-- A device-fatal error: FAULT_STATUS and ERR_LAST, the release of the claim, and FATAL_CONFIG.ACTION. -/
def deviceFatal (s : State) (code faultBit : Nat) (p : Page) (detail : List Nat) : State :=
  let s := setFault (report s code p detail) faultBit
  fatalAction (startRelease s) (flag s 0x2098 31) 6

/-! ### Failed boots (R395) -/

/-- BOOT_CONTROL.BOOT_STATE. -/
def bootState (s : State) : Nat := fld s 0x2080 28 27

/-- A boot fails: BOOT_FALLBACKS counts, and the other slot boots at the next device warm reset; a second failure is recovery. -/
def bootFails (s : State) : State :=
  let s := report (tally s 0x2084) 0x0803 .alwaysOn [fld s 0x2080 30 30]
  if s.firmware.fellBack then
    let s := setFault (setFld (report s 0x0804 .alwaysOn []) 0x2080 28 27 3) 27
    { s with firmware := { s.firmware with running := false, bootFailed := false }, startup := { s.startup with recovery := true } }
  else { s with firmware := { s.firmware with fellBack := true, bootFailed := true } }

/-! ### The watchdog -/

/-- WD_CONFIG.PERIOD_MS in ms; 0 acts as 1. -/
def watchdogMs (s : State) : Nat := max 1 (fld s 0x2044 15 0)

/-- The count restarts from PERIOD_MS. After an expiry it does not run again. -/
def watchdogRestart (s : State) : State :=
  if s.power.expired then s
  else if flag s 0x2044 31 then { s with power := { s.power with watchdog := some (now s + watchdogMs s * 1000000) } }
  else { s with power := { s.power with watchdogLeft := watchdogMs s } }

/-- Milliseconds left, rounded up. -/
def watchdogRemaining (s : State) : Nat :=
  match s.power.watchdog with
  | some t => ceilDiv (t - now s) 1000000
  | none => s.power.watchdogLeft

/-- WD_CONFIG has been written over `old` (R445). -/
def watchdogConfigured (s : State) (old : Nat) : State :=
  let s := if flag s 0x2044 31 then s
    else { s with power := { s.power with watchdogLeft := watchdogRemaining s, watchdog := none } }
  if (flag s 0x2044 31 ∧ !bitAt old 31) ∨ fld s 0x2044 15 0 ≠ bits old 15 0 then watchdogRestart s else s

/-- A write to WD_KICK. -/
def watchdogKick (s : State) (v : Nat) : State := if v = 0xC0DE then watchdogRestart s else s

/-- The watchdog expires (R288). An unconfirmed boot has failed with it (R395). -/
def watchdogExpires (s : State) : State :=
  let s := { s with power := { s.power with watchdog := none, watchdogLeft := 0, expired := true } }
  let s := raise (setFlag s 0x204C 31 true) .alwaysOn 0
  let s := setFault (report s 0x0901 .alwaysOn []) 30
  let s := receiversDown (startRelease s) (List.range 6)
  let s := if bootState s = 1 then bootFails s else s
  fatalAction s (flag s 0x2044 30) 5

/-! ### What a device reset wipes (R410) -/

/-- Registers that a device warm reset keeps: the time, time-event and mailbox pages, the reset cause, the fault and error latches and
the always-on counters. -/
def keptAddr (a : Nat) : Bool :=
  (match pageAt a with | some .time => true | some .timeEvents => true | some .mailbox => true | _ => false) ||
  a ∈ [0x2084, 0x2088, 0x208C, 0x2090, 0x2094, 0x209C, 0x20A0, 0x20A4, 0x20A8]

/-- The registers after a reset: those of `keep`, NEXT_SLOT, BOOT_STATE in recovery, and of TWIN_STATUS the role and the claim until the claim line is
released, the mate's lines and the seat. -/
def keptRegs (s : State) (keep : Nat → Bool) : Sparse Word32 :=
  let m := skeep keep s.regs
  let m := sset resetWord m 0x2080 (BitVec.ofNat 32 (rd s 0x2080 &&& (if s.startup.recovery then 0x58000000 else 0x40000000)))
  sset resetWord m 0x604C (BitVec.ofNat 32 (rd s 0x604C &&& 0xFD000000))

/-- OTP outlives every reset; keys, tokens and sessions do not. -/
def keptColophon (c : Colophon) : Colophon :=
  { c with debugByToken := false, spillKey := false, seeded := false, negotiated := false }

/-- The state with everything core at its reset value; of the registers those of `keep` stay. -/
def coreWiped (s : State) (keep : Nat → Bool) : State :=
  { s with
    regs := keptRegs s keep, regsCur := [], regsOld := [], tabs := [], tabsCur := [], tabsOld := []
    counters := {}, errors := { first := s.errors.first, sequence := 0 }, access := { own := s.access.own }
    commit := none, fence := none, frames := [], nextFrame := 0, queues := [], ports := [], slices := [], buffer := {}
    policing := { refills := s.policing.refills }, streamGates := [], sched := { refills := s.sched.refills }
    clock := { s.clock with coreTenths := 0 }
    fdb := { passAt := now s }, shadow := {}, spill := {}
    twin := { releaseAt := s.twin.releaseAt }, kettle := {}
    pins := { s.pins with rclkOn := [false, false], laneLock := [], mateReset := false }
    host := { inReset := s.host.inReset, linkUp := s.host.linkUp, d0 := s.host.d0, busMaster := s.host.busMaster }
    firmware := { fellBack := s.firmware.bootFailed }
    seq := {}, colophon := keptColophon s.colophon
    startup := { aonUp := s.startup.aonUp, railsUp := s.startup.railsUp, island := s.startup.island, resetting := true,
                 recovery := s.startup.recovery,
                 lastDequeue := now s, lastTimestamp := now s }
    rescues := [], captures := [], traces := [], captureSeq := 0, traceSeq := 0 }

/-- The pins of R413 in a device reset and in deep standby: CXL_PERST_N low, the recovered clocks low, the mate's reset released. -/
def resetPins (s : State) : State :=
  let s := (List.range 4).foldl (fun s c => setPerst s c true) s
  let s := if s.pins.mateReset then emit s (.pin "TWIN_MATE_RESET_OUT_N" 0 true) else s
  (List.range 2).foldl (fun s k => if s.pins.rclkOn.getD k false then emit s (.pin "RCLK_OUT" k false) else s) s

/-- The core goes away: the claim is released, Kettle goes down, and everything but the registers of `keep` is wiped. -/
def leaveService (s : State) (keep : Nat → Bool) : State :=
  let s := startRelease s
  let s := if kettleState s = 0 then s else kettleLeave s 0 0
  let s := coreWiped (resetPins s) keep
  receiversDown s (List.range 6)

/-- What a device warm reset leaves of the always-on controller's own state: the alert input and the aging uplift. -/
def wipedPower (p : Power) : Power := { alert := p.alert, uplift := p.uplift }

/-- The device enters a warm reset: everything that R410 does not keep is wiped. -/
def wipeDevice (s : State) : State :=
  let s := leaveService s keptAddr
  { s with power := wipedPower s.power }

/-- The device leaves deep standby, which is a device warm reset (R299, R410): the always-on page is wiped too, CORE_PWR_EN goes high, and
the power-up sequence follows once the rails are in range. -/
def leaveStandby (s : State) (cause : Nat) : State :=
  if !s.power.inStandby then s
  else
    let s := { tally (wr s 0x2090 cause) 0x20A8 with power := wipedPower s.power }
    let s := { s with regs := keptRegs s keptAddr, errors := { s.errors with resetAt := none } }
    emit { s with pins := { s.pins with corePower := true } } (.pin "CORE_PWR_EN" 0 true)

end Sys2Proof.Machine
end

