-- ==== Sys2Proof/Machine/Power.lean ====
section
/-! DEFINITION. Clocks, sleep and the power governor (R287 to R302, R444, R445), deep standby, the thermal trips, and the health body
of R285. Clock codes are those of CLOCK_CAP: 0 for 1.6 GHz, 1 for 1.2, 2 for 0.8, 3 for 0.4. -/

namespace Sys2Proof.Machine

/-- POWER_KNOBS as committed. -/
def knobs (s : State) : Nat := rdCur s 0x3040

/-- SLEEP_DEPTH: 0 off, 1 light, 2 deep; 3 acts as off. -/
def sleepDepth (s : State) : Nat := if bits (knobs s) 27 26 = 3 then 0 else bits (knobs s) 27 26

/-- ENVELOPE held to 40 to 340, in 0.1 W. -/
def envelope (s : State) : Nat := max 40 (min 340 (bits (knobs s) 8 0)) * 5

/-- HARD_CAP held to 40 to 360, in 0.1 W. -/
def hardCap (s : State) : Nat := max 40 (min 360 (fld s 0x3048 8 0)) * 5

def thermalWarn (s : State) : Bool := flag s 0x2054 30
def emergency (s : State) : Bool := flag s 0x3050 29
def clockCap (s : State) : Nat := bits (knobs s) 29 28
def runClock (s : State) : Nat := fld s 0x3050 31 30
def setPower (s : State) (p : Power) : State := { s with power := p }

/-! ### The core clock and VDD_CORE (R14, R294, R298) -/

/-- The governor's cap. -/
def govCap (s : State) : Nat :=
  if s.power.steps.any fun g => g.step == 3 then 2 else if s.power.steps.any fun g => g.step == 2 then 1 else 0

/-- The lowest of the four caps. -/
def wantedClock (s : State) : Nat :=
  max (max (clockCap s) (govCap s)) (max (if emergency s then 2 else 0) (if flag s 0x3050 18 then 1 else 0))

/-- The VDD_CORE setpoint for a clock, in mV. -/
def coreMv (s : State) (code : Nat) : Nat := max 680 (min 820 (Config.setpoint code + s.power.uplift * 5 / 2))

/-- Write VOUT_COMMAND to the core regulator. -/
def writeVoltage (s : State) (code : Nat) : State :=
  emit (setFld s 0x3050 15 0 (coreMv s code)) (.low "PMBUS" [0x21, coreMv s code])

/-- The core clock becomes that of `code`: a change stalls every awake pipeline for at most 200 ns (R14). -/
def setClock (s : State) (code : Nat) : State :=
  if runClock s = code then s
  else
    let s := setFld s 0x3050 31 30 code
    drawn (setPower s { s.power with stallUntil := some (now s + Config.clockStall s.freeCount % 201) })

/-- The clock steps down, and the voltage follows. -/
def lowerClock (s : State) (code : Nat) : State :=
  let s := writeVoltage (setClock s code) code
  setPower s { s.power with supported := code, voltageAt := none, failed := false }

/-- A higher clock than the confirmed voltage supports is wanted: the higher voltage is written first. -/
def raiseVoltage (s : State) : State :=
  let w := wantedClock s
  let p := s.power
  if p.supported ≤ w ∨ (p.target = w ∧ (p.failed ∨ p.voltageAt.isSome)) then s
  else setPower (writeVoltage s w) { p with target := w, voltageAt := some (now s), failed := false }

/-- The clock at a cycle boundary: the wanted one, as far as the confirmed voltage supports it. -/
def clockBoundary (s : State) : State :=
  let w := wantedClock s
  if runClock s < w then lowerClock s w
  else raiseVoltage (setClock s (max w s.power.supported))

/-! ### The emergency cap (R297) -/

/-- 0.8 GHz at once, whether or not at a boundary. -/
def emergencyCap (s : State) : State :=
  let s := setPower s { s.power with calm := 0 }
  if emergency s then s
  else
    let s := tally (raise (setFlag s 0x3050 29 true) .power 1) 0x3080
    let s := report s 0x0703 .alwaysOn []
    if runClock s < 2 then lowerClock s 2 else s

/-- The boundary after eight calm cycles lifts the cap. -/
def emergencyLift (s : State) (est : Nat) : State :=
  if !emergency s then s
  else if est * 10 < hardCap s * 9 ∧ !s.power.alert then
    let n := s.power.calm + 1
    if n < 8 then setPower s { s.power with calm := n } else setFlag (setPower s { s.power with calm := 0 }) 0x3050 29 false
  else setPower s { s.power with calm := 0 }

/-- An estimate from activity counters with the last calibration, in 0.1 W. -/
def calibrated (s : State) (raw : Nat) : Nat := min 0xFFFF (raw * s.power.correction / 1024)

/-! ### The governor (R294 to R296) -/

/-- The highest ladder step in force. -/
def topStep (s : State) : Nat := s.power.steps.foldl (fun m g => max m g.step) 0

/-- POWER_STATUS follows the steps in force. -/
def showSteps (s : State) : State :=
  setFld (setFld s 0x3050 28 26 (topStep s)) 0x3050 25 19 (s.power.steps.filter fun g => g.step == 4).length

/-- Clock steps are allowed: by the knob, or by a thermal warning. -/
def stepsAllowed (s : State) : Bool := bitAt (knobs s) 30 || thermalWarn s

/-- The port that step 4 sheds: the highest-numbered one that is UP with a sheddable lowest lane. -/
def shedPort (s : State) : Option Nat :=
  ((List.range 64).filter fun p => portUp s p && flag s (laneReg p 0x40) 15).getLast?

/-- The condition of a ladder step. -/
def stepHolds (s : State) (k : Nat) : Bool :=
  match k with
  | 1 => sleepDepth s ≠ 0
  | 2 => stepsAllowed s && clockCap s < 1
  | 3 => stepsAllowed s && clockCap s < 2
  | _ => flag s 0x3044 31 && (shedPort s).isSome

/-- The next step that is not skipped: above the highest in force, or step 4 once more. -/
def nextStep (s : State) : Option Nat :=
  [1, 2, 3, 4].find? fun k => (topStep s < k || k = 4) && stepHolds s k

/-- A port is shed: SHED, FLUSHING, lanes off. -/
def shed (s : State) (p : Nat) : State := raise (takeDown (setFlag s (portReg p 0 0x4C) 27 true) p) .power 3

/-- A shed port comes back: it trains again if its ENABLE is 1. -/
def unshed (s : State) (p : Nat) : State :=
  let s := raise (setFlag s (portReg p 0 0x4C) 27 false) .power 3
  if portState s p = 0 ∧ flag s (portReg p 0 0x40) 31 then enablePort s p else s

/-- The governor escalates by one step. -/
def takeStep (s : State) : State :=
  match nextStep s with
  | none => s
  | some k =>
    let p := (shedPort s).getD 0
    let s := setPower s { s.power with steps := ⟨k, if k = 4 then p else 0⟩ :: s.power.steps }
    let s := tally (raise (showSteps s) .power 0) 0x3084
    if k = 4 then shed s p else s

/-- The governor undoes its most recent step; a higher voltage is asked for at once. -/
def undoStep (s : State) : State :=
  match s.power.steps with
  | [] => s
  | g :: l =>
    let s := setPower s { s.power with steps := l }
    let s := tally (raise (showSteps s) .power 0) 0x3084
    raiseVoltage (if g.step = 4 then unshed s g.port else s)

/-- Every step is undone. -/
def undoAll (s : State) : State := s.power.steps.foldl (fun s _ => undoStep s) s

/-- The governor at a boundary, on the estimate of the cycle just ended. A thermal warning acts as an estimate above the envelope. Steps
undone by ENVELOPE_ON written 0 go first (R296); with ENVELOPE_ON 0 the steps of a warning that is over go at once (log 18). -/
def governor (s : State) (est : Nat) : State :=
  let warn := thermalWarn s
  let s := if s.power.undo then undoAll (setPower s { s.power with undo := false }) else s
  if !bitAt (knobs s) 31 ∧ !warn then undoAll (setPower s { s.power with overCycles := 0, relaxSince := now s })
  else
    let s := if warn ∨ envelope s < est + fld s 0x3044 15 8 * 5 then setPower s { s.power with relaxSince := now s } else s
    if warn ∨ envelope s < est then
      if s.power.overCycles + 1 < max 1 (fld s 0x3044 23 16) then setPower s { s.power with overCycles := s.power.overCycles + 1 }
      else takeStep (setPower s { s.power with overCycles := 0 })
    else setPower s { s.power with overCycles := 0 }

/-- A commit changed ENVELOPE_ON from 1 to 0: the next boundary undoes every governor step (R296). -/
def govOff (s : State) : State := setPower s { s.power with undo := true }

/-- A commit changed CLOCK_CAP or STEPS_ALLOWED: clock steps that are no longer meaningful drop (R296). -/
def govCommit (s : State) : State :=
  let keep := fun (g : GovStep) => (g.step ≠ 2 && g.step ≠ 3) || stepHolds s g.step
  raiseVoltage (showSteps (setPower s { s.power with steps := s.power.steps.filter keep }))

/-! ### Slice sleep (R289 to R292) -/

/-- The effective SLEEP_IDLE in ns. -/
def sleepIdleNs (s : State) : Nat :=
  let us := max 5 (fld s 0x304C 15 0)
  (if s.power.steps.any fun g => g.step == 1 then max 5 (us / 4) else us) * 1000

/-- The ports of a slice. -/
def slicePorts (sl : Nat) : List Nat := (List.range 8).map (sl * 8 + ·)

/-- Steady ns since which no frame has been received or sent on a slice's ports. -/
def sliceIdleSince (s : State) (sl : Nat) : Nat :=
  (slicePorts sl).foldl (fun m p => max m (portAt s p).idleSince) (sliceAt s sl).idleSince

/-- A transmit ring bound to the slice holds a descriptor not yet fetched. -/
def ringWork (s : State) (sl : Nat) : Bool :=
  (List.range 64).any fun r =>
    flag s (0xA048 + r * 0x20) 31 && fld s (0xA048 + r * 0x20) 24 22 == sl && rd s (0xA04C + r * 0x20) != rd s (0xA050 + r * 0x20)

/-- Nothing is queued, spilled, received or sent for the slice; for slice 0 nothing waits for the host either. -/
def sliceQuiet (s : State) (sl : Nat) : Bool :=
  (slicePorts sl).all (fun p =>
    let v := portAt s p
    v.rxExpress.isNone && v.rxPreempt.isNone && v.txExpress.isNone && v.txPreempt.isNone && v.selected.isNone && v.selectedPreempt.isNone) &&
  (sliceAt s sl).wakeFifo.isEmpty && !(s.frames.any fun e => e.2.slice == sl && !e.2.ended) && !ringWork s sl &&
  (busyQueues s).all fun q =>
    match queuePort s q with
    | some 64 => sl != 0
    | some p => sliceOf p != sl
    | none => true

/-- The slice goes to light sleep when it has been idle long enough. -/
def sleepEntry (s : State) (sl : Nat) : State :=
  if sleepDepth s ≠ 0 ∧ awake s sl ∧ sliceIdleSince s sl + sleepIdleNs s ≤ now s ∧ sliceQuiet s sl then
    showSleep (setSlice s sl { sliceAt s sl with sleep := .light, asleepSince := now s }) sl
  else s

/-- Light sleep becomes deep sleep. -/
def deepSleep (s : State) (sl : Nat) : State :=
  let v := sliceAt s sl
  if sleepDepth s = 2 ∧ v.sleep = .light ∧ v.asleepSince + fld s 0x304C 31 16 * 1000 ≤ now s then
    showSleep (setSlice s sl { v with sleep := .deep }) sl
  else s

/-- A waking slice runs: its time asleep is counted, and its wake FIFO drains. -/
def sliceRuns (s : State) (sl : Nat) : State :=
  let v := sliceAt s sl
  match v.sleep with
  | .waking _ =>
    let s := count s (14 + sl) ((now s - v.asleepSince) / 1000)
    let s := showSleep (setSlice s sl { sliceAt s sl with sleep := .awake, idleSince := now s }) sl
    if s.power.stallUntil.isSome then s else drainFifo s sl
  | _ => s

/-! ### Deep standby (R299) and temperature (R300) -/

/-- Registers that live through deep standby: those of a warm reset, the always-on page and the estimate. -/
def standbyAddr (a : Nat) : Bool := keptAddr a || a / 0x1000 == 2 || a == 0x3054

/-- Deep standby: the claim is released, every lane off, the PCIe link down, CORE_PWR_EN low. DESIGN CHOICE (log 18): the steps of R299
are one command, and the core's state is gone at once. -/
def enterStandby (s : State) : State :=
  let s := leaveService s standbyAddr
  emit { s with
    host := { inReset := s.host.inReset }
    power := { s.power with inStandby := true, steps := [], undo := false, overCycles := 0, voltageAt := none, failed := false,
                            target := 0, supported := 0, stallUntil := none }
    pins := { s.pins with corePower := false }
    startup := { s.startup with railsUp := false } } (.pin "CORE_PWR_EN" 0 false)

/-- STANDBY is refused while the device is ACTIVE in a twin pair whose mate is not SYNCED. -/
def standbyRefused (s : State) : Bool := role s == 3 && (flag s 0x604C 26 || flag s 0x6044 31) && !s.twin.mateSynced

/-- AO_CONTROL.STANDBY. -/
def requestStandby (s : State) : State := if s.power.inStandby ∨ standbyRefused s then s else enterStandby s


/-- Signed °C of a sensor byte. -/
def celsius (b : Byte) : Int := signed b.toNat 8

/-- The sensor with the highest reading, the lowest number among equals. -/
def hottest (ts : List Byte) : Nat :=
  (List.range ts.length).foldl (fun w k => if celsius (ts.getD w 0) < celsius (ts.getD k 0) then k else w) 0

/-- Bit k: sensor k reads `limit` °C or more. -/
def hotMask (ts : List Byte) (limit : Int) : Nat :=
  (List.range ts.length).foldl (fun m k => if limit ≤ celsius (ts.getD k 0) then m + 2 ^ k else m) 0

/-- THERMAL_n, MAX_TEMP and HOTTEST. -/
def showTemps (s : State) (ts : List Byte) : State :=
  let s := (List.range 4).foldl (fun s n => wr s (0x2058 + 4 * n) (leNat (slice ts (4 * n) 4))) s
  setFld (setFld s 0x2054 11 8 (hottest ts)) 0x2054 7 0 (ts.getD (hottest ts) 0).toNat

/-- THERMAL_WARN from 110 °C on any sensor until every one reads below 105 °C. -/
def followWarn (s : State) (ts : List Byte) : State :=
  if hotMask ts 110 ≠ 0 then
    (if thermalWarn s then s else report (raise (setFlag s 0x2054 30 true) .alwaysOn 1) 0x0701 .alwaysOn [hottest ts])
  else if hotMask ts 105 = 0 then setFlag s 0x2054 30 false else s

/-- The junction trip. -/
def thermalTrip (s : State) (ts : List Byte) : State :=
  let s := raise (setFlag s 0x2054 31 true) .alwaysOn 2
  let s := enterStandby (setFault (report s 0x0702 .alwaysOn [hottest ts]) 29)
  setPower s { s.power with tripped := true }

/-- A sample of the 16 junction sensors. DEDUCED (log 18): one sensor reads 120 °C or more in two consecutive samples. -/
def thermalSample (s : State) (ts : List Byte) : State :=
  let s := followWarn (showTemps s ts) ts
  let hot := hotMask ts 120
  let trip : Bool := hot &&& s.power.hot ≠ 0
  let cool := if hotMask ts 95 ≠ 0 then 0 else if s.power.coolSince = 0 then now s + 1 else s.power.coolSince
  let s := setPower s { s.power with hot, coolSince := cool }
  if trip ∧ !s.power.inStandby then thermalTrip s ts else s

/-- AO_CONTROL.QUIET is written: 1 sends every front transmitter idle. -/
def quiet (s : State) (on : Bool) : State :=
  let s := setFlag s 0x2040 30 on
  if on then idleFronts s else fcFlushAll s

/-! ### The health body (R285) -/

/-- The twelve words of the own health body. -/
def healthBody (s : State) : List Nat :=
  let t := s.twin
  let st := rd s 0x6058
  let ups := (List.range 64).foldl (fun m p => if portUp s p then m + 2 ^ p else m) 0
  let ready := (List.range 4).foldl (fun m c => if cxlState s c = 3 then m + 2 ^ (4 + c) else m) 0
  [role s * 2 ^ 29 + bit (armed s) * 2 ^ 28 + bit (claims s) * 2 ^ 27 + fld s 0x604C 27 27 * 2 ^ 26 + bit (synced s) * 2 ^ 25 +
     fld s 0x604C 24 24 * 2 ^ 24 + fld s 0x3058 7 0 * 2 ^ 16 + currentEpoch s,
   cycleNo s, t.lastDelta % 2 ^ 32, fld s 0x3054 31 16 * 2 ^ 16 + fld s 0x2054 7 0 * 2 ^ 8,
   ups % 2 ^ 32, ups / 2 ^ 32,
   t.passed * 2 ^ 24 + bits st 31 24 * 2 ^ 16 + bits st 23 21 * 2 ^ 13 + ready,
   t.worstLane * 2 ^ 24 + t.worstEye * 2 ^ 16 + min 0xFFFF t.scrubCorrections,
   min 0xFFFF s.counters.ownCorrected * 2 ^ 16 + min 0xFFFF s.counters.ownBlockFatal,
   min 0xFFFF (counter s 23 - t.base) * 2 ^ 16 + fld s 0x604C 19 18, min 0xFFFFFFFF s.counters.ownDrops, 0]

/-! ### The commands -/

/-- WD_KICK: a write to WD_KICK, which reads as 0 (R288). -/
def execWdKick (src : Source) (value : Word32) (s : State) : Res :=
  done (guarded s src 0x2048 fun s => watchdogKick s value.toNat)

/-- WD_CONFIG_WRITE: a write to WD_CONFIG (R445). -/
def execWdConfigWrite (src : Source) (value : Word32) (s : State) : Res :=
  done (guarded s src 0x2044 fun s => watchdogConfigured (fieldWrite s src 0x2044 value.toNat) (rd s 0x2044))

/-- WATCHDOG_EXPIRED: the count reaches 0 (R288). -/
def execWatchdogExpired (s : State) : Res :=
  match s.power.watchdog with
  | some t => done (if t ≤ now s then watchdogExpires s else s)
  | none => done s

/-- SLICE_SLEEP_ENTRY (R289). -/
def execSliceSleepEntry (slice : Fin 8) (s : State) : Res := done (sleepEntry s slice)

/-- SLICE_DEEP_SLEEP (R292). -/
def execSliceDeepSleep (slice : Fin 8) (s : State) : Res := done (deepSleep s slice)

/-- SLICE_WAKE_TRIGGER: a trigger of R290 that no other command carries. -/
def execSliceWakeTrigger (slice : Fin 8) (s : State) : Res := done (wakeSlice s slice)

/-- SLICE_AWAKE: a waking slice runs again (R291). -/
def execSliceAwake (slice : Fin 8) (s : State) : Res := done (sliceRuns s slice)

/-- GOV_RELAX: RELAX_MS have passed at or below the margin (R295). -/
def execGovRelax (s : State) : Res :=
  done (if s.power.steps ≠ [] ∧ !thermalWarn s ∧ s.power.relaxSince + max 1 (fld s 0x3044 7 0) * 1000000 ≤ now s then
    undoStep (setPower s { s.power with relaxSince := now s }) else s)

/-- FAST_ESTIMATE: the activity of the last 2 µs in 0.1 W, before calibration (R297). -/
def execFastEstimate (tenths : Nat) (s : State) : Res :=
  let est := calibrated s tenths
  done (if !s.startup.aonUp then s
    else
      let s := setFld s 0x3054 15 0 est
      if coreRuns s ∧ (hardCap s < est ∨ s.power.alert) then emergencyCap s else s)

/-- PMBUS_ALERT: PMBUS_ALERT_N changes (R297). -/
def execPmbusAlert (asserted : Bool) (s : State) : Res :=
  done (if !s.startup.aonUp then s
    else
      let s := setPower s { s.power with alert := asserted }
      if asserted ∧ coreRuns s then emergencyCap s else s)

/-- VOLTAGE_CONFIRMED: the regulator's telemetry confirms the higher voltage (R298). -/
def execVoltageConfirmed (s : State) : Res :=
  done (if s.power.voltageAt.isSome then setPower s { s.power with supported := s.power.target, voltageAt := none } else s)

/-- PMBUS_ERROR: no confirmation within 2 ms (R298). -/
def execPmbusError (s : State) : Res :=
  match s.power.voltageAt with
  | some t => done (if t + 2000000 ≤ now s then
      report (raise (setPower s { s.power with voltageAt := none, failed := true }) .power 2) 0x0704 .alwaysOn [] else s)
  | none => done s

/-- AGING_MONITOR_READ: the monitors call for an uplift in steps of 2.5 mV (R444). -/
def execAgingMonitorRead (steps : Nat) (s : State) : Res :=
  let p := s.power
  if !s.startup.aonUp then done s else
  let s' := setPower s { p with uplift := max p.uplift (min 8 steps), agingWanted := p.agingWanted || 8 < steps }
  done (if p.uplift < min 8 steps ∧ p.voltageAt.isNone then writeVoltage s' p.supported else s')

/-- STANDBY: AO_CONTROL.STANDBY (R299). -/
def execStandby (src : Source) (s : State) : Res :=
  done (guarded s src 0x2040 requestStandby)

/-- WAKE: AO_CONTROL.WAKE (R299). -/
def execWake (src : Source) (s : State) : Res := done (guarded s src 0x2040 fun s => leaveStandby s 9)

/-- THERMAL_SAMPLE (R300). -/
def execThermalSample (temps : List (BitVec 8)) (s : State) : Res :=
  sized (temps.length = 16) (if s.startup.aonUp then thermalSample s temps else s)

/-- THERMAL_AUTO_RESTART: a tripped device has been below 95 °C for 1 s (R300). -/
def execThermalAutoRestart (s : State) : Res :=
  let p := s.power
  done (if p.tripped ∧ p.inStandby ∧ flag s 0x2050 31 ∧ p.coolSince ≠ 0 ∧ p.coolSince + 1000000000 ≤ now s + 1 then
    leaveStandby s 0xA else s)

/-- QUIET: AO_CONTROL.QUIET is written (R302). -/
def execQuiet (src : Source) (on : Bool) (s : State) : Res :=
  done (guarded s src 0x2040 fun s => quiet s on)

/-- ESTIMATE_CALIBRATION: firmware reads READ_VIN and READ_IIN and derives the correction (R293). -/
def execEstimateCalibration (vin iin : Nat) (s : State) : Res :=
  done (if s.firmware.running then
    setPower s { s.power with correction := Config.calibration vin iin s.power.lastRaw } else s)

end Sys2Proof.Machine
end

