-- ==== Sys2Proof/Machine/Cycle.lean ====
section
/-! DEFINITION. The boundary of a control cycle (R6) and what it drives: the parity re-read (R35), the clock and the governor (R293 to
R297, R444), the heartbeat (R274, R275), the delta and the bulk (R276, R283), the handover and the takeover (R268, R282), health (R285),
dumps and alarms (R312, R316). -/

namespace Sys2Proof.Machine

/-! ### Configuration parity (R35) -/

/-- The register holds configuration: a field of type RW, STG, RWL or WO1. -/
def isConfig (a : Nat) : Bool :=
  match fieldsAt a with
  | none => false
  | some fs => fieldMask (fun t => t == .rw || t == .stg || t == .rwl || t == .wo1) fs ≠ 0

/-- A configuration register is found in mismatch: PARITY_STATUS keeps the first one, and the page takes its fault-safe action. -/
def parityMismatch (s : State) (a : Nat) : State :=
  match pageAt a with
  | none => s
  | some p =>
    if !isConfig a ∨ heldInReset s p then s
    else
      let b := p.base
      let s := if flag s (b + 0x20) 31 then s else wr s (b + 0x20) (2 ^ 31 + a % 0x1000 / 4)
      let s := report (raise s p 30) 0x0201 p [b, a % 0x1000]
      setFlag s (b + 8) 31 true

/-! ### Power at a boundary -/

/-- The estimate of the cycle just ended, from the activity counters in 0.1 W. The clock follows what was decided before, and the governor
decides again. -/
def powerBoundary (s : State) (raw : Nat) : State :=
  let est := calibrated s raw
  let s := setFld (setPower s { s.power with lastRaw := raw }) 0x3054 31 16 est
  let s := emergencyLift s est
  let s := if s.power.agingWanted then setFlag s 0x3050 18 true else s
  governor (clockBoundary s) est

/-! ### The twin at a boundary -/

/-- The delta of the cycle just ended; a device that has sent its final END sends no other. -/
def deltaBoundary (s : State) : State :=
  let final : Bool := match s.twin.handover with | .final _ => true | _ => false
  if standsBy s || !kettleUp s || final then
    { s with policing := { s.policing with metered := [] }, twin := { s.twin with rotation := (s.twin.rotation + 1) % 64 } }
  else
    let cp := s.clock.cycleNumber % 2 == 1
    sendEnd (sendCounters (sendPolicers s cp) cp) (s.clock.cycleNumber % 2 ^ 32) false

/-- The own HEALTH record goes to the mate and to the host. -/
def healthBoundary (s : State) : State :=
  let body := healthBody s
  let s := healthToHost (kettleSend s 5 0 false body) false body
  { s with
    twin := { s.twin with base := counter s 23, scrubCorrections := 0 }
    counters := { s.counters with ownCorrected := 0, ownBlockFatal := 0, ownDrops := 0 } }

/-- MISSED has reached 3 while the mate claims: the host is told, and an armed mate reset is driven once. -/
def mateUnreachable (s : State) : State :=
  if !flag s 0x604C 27 ∨ role s = 3 then s
  else
    let s := report (raise s .twin 1) 0x0604 .twin []
    if flag s 0x6040 29 ∧ armed s then
      let s := emit { s with twin := { s.twin with mateResetUntil := some (now s + 10000000) }, pins := { s.pins with mateReset := true } }
        (.pin "TWIN_MATE_RESET_OUT_N" 0 false)
      raise (setFlag s 0x6040 29 false) .twin 10
    else s

/-- MISSED counts the cycles without a heartbeat (R275). -/
def missedBoundary (s : State) : State :=
  let heard := s.twin.heard
  let s := { s with twin := { s.twin with heard := false } }
  let n := fld s 0x604C 19 18
  if heard ∨ !flag s 0x6044 31 ∨ n = 3 then s
  else
    let s := tally (setFld s 0x604C 19 18 (n + 1)) 0x6118
    if n = 2 then mateUnreachable s else s

/-- The heartbeat of a boundary (R274). -/
def sendHeartbeat (s : State) : State :=
  if !kettleUp s then s
  else
    let t := s.twin
    let w5 := role s * 2 ^ 29 + bit (armed s) * 2 ^ 28 + bit (synced s) * 2 ^ 27 + fld s 0x604C 24 24 * 2 ^ 26 + currentEpoch s
    let s := kettleSend s 2 0 false (padded [cycleNo s, t.sentAt.1, t.sentAt.2, t.heardAt.1, t.heardAt.2, w5, t.lastDelta % 2 ^ 32])
    { s with twin := { s.twin with sentBefore := s.twin.sentAt, sentAt := (devSec s, devSub s) } }

/-- Epochs of a pair that differ for more than 1 s (R281). -/
def epochBoundary (s : State) : State :=
  let t := s.twin
  if !kettleUp s ∨ t.heardAt = (0, 0) ∨ fld s 0x6064 31 16 = currentEpoch s then
    { s with twin := { t with divergentSince := 0, divergentRaised := false } }
  else if t.divergentSince = 0 then { s with twin := { t with divergentSince := now s + 1 } }
  else if t.divergentSince + 1000000000 < now s + 1 ∧ !t.divergentRaised then
    divergent { s with twin := { t with divergentRaised := true } } (currentEpoch s)
  else s

/-! ### The boundary -/

/-- A cycle-mode pin has an edge at the boundary (R253). -/
def tevBoundary (t : Nat) (s : State) (n : Nat) : State :=
  if (tevAt s n).armed ∧ tevMode s n = 4 then setTev s n { tevAt s n with nextEdge := t } else s

/-- The next cycle begins at device time `clock.cycleEnd`. -/
def beginCycle (s : State) : State :=
  let stop := s.clock.cycleEnd
  let s := { s with
    clock := { s.clock with cycleStart := now s, cycleNumber := cycleOf stop, cycleEnd := stop + 125000 }
    twin := { s.twin with boundaries := s.twin.boundaries + 1 }
    errors := { s.errors with logged := [] } }
  (List.range 8).foldl (tevBoundary stop) s

/-- What the device does at a boundary, with the raw estimate of the cycle just ended and the addresses that the re-read of the
configuration found in mismatch. -/
def boundary (s : State) (raw : Nat) (parityBad : List Nat) : State :=
  let s := powerBoundary s raw
  let s := healthBoundary (missedBoundary (deltaBoundary s))
  let s := beginCycle s
  let s := parityBad.foldl parityMismatch s
  let s := sendBulk (sendHeartbeat s) (s.clock.cycleNumber % 2 ^ 32)
  let s := handoverBoundary s
  let s := if takeoverDue s then becomeActive s else s
  alarmsBoundary (dumpBoundary (epochBoundary s))

/-- CYCLE_BOUNDARY: device time reaches the end of the cycle in progress (R6, R239, R240). While the core is down or in reset, only the
timing island meets it. -/
def execCycleBoundary (estimate : Nat) (parityBad : List Nat) (s : State) : Res :=
  done (if devNs s < s.clock.cycleEnd then s
    else if coreRuns s then boundary s estimate parityBad else if s.startup.island then beginCycle s else s)

end Sys2Proof.Machine
end

