-- ==== Sys2Proof/Machine/LowSpeed.lean ====
section
/-! DEFINITION. The boot flash behind QSPI_ACCESS (R349) and the GPIO pins (R348). -/

namespace Sys2Proof.Machine

/-! ### QSPI -/

/-- The flash address lies in the slot from which the device booted: slot A starts at 0, slot B at 64 MiB (R394). -/
def inBootedSlot (s : State) (addr : Nat) : Bool :=
  s.firmware.running && (2 ^ 26 ≤ addr) == flag s 0x2080 29

/-- A QSPI_ACCESS request with its OP and ADDR; a request under way is not disturbed. -/
def qspiStart (s : State) (op addr : Nat) : State :=
  if flag s 0x9040 31 then s
  else
    let op := if op = 3 then 0 else op
    let s := setFld s 0x9040 28 27 0
    if op ≠ 0 ∧ inBootedSlot s addr then raise (setFld s 0x9040 28 27 1) .hostIf 4
    else
      let at_ := if op = 2 then addr / 65536 * 65536 else addr / 64 * 64
      let s := setFlag s 0x9040 31 true
      let s := { s with host := { s.host with flash := some (op, at_) } }
      emit s (.low "QSPI" (op :: at_ :: (if op = 1 then (List.range 16).map fun n => rd s (0x9080 + n * 4) else [])))

/-- A write of QSPI_ACCESS that starts request `op` at `addr`: OP and the 27 bits of ADDR are written with GO. -/
def qspiRequest (s : State) (op addr : Nat) : State :=
  let addr := addr % 2 ^ 27
  if flag s 0x9040 31 then s else qspiStart (setFld (setFld s 0x9040 30 29 op) 0x9040 26 0 addr) op addr

/-- The flash request in progress ends. -/
def qspiDone (s : State) (ok : Bool) (data : List Byte) : State :=
  match s.host.flash with
  | none => s
  | some (op, _) =>
    let s := { s with host := { s.host with flash := none } }
    let s := setFld (setFlag s 0x9040 31 false) 0x9040 28 27 (if ok then 0 else 2)
    let s := if ok ∧ op = 0 then
        (List.range 16).foldl (fun s n => wr s (0x9080 + n * 4) (leNat (slice data (n * 4) 4))) s
      else s
    raise s .hostIf 4

/-! ### GPIO -/

/-- The outputs follow GPIO_DIR and GPIO_OUT. -/
def driveGpio (s : State) : State :=
  (List.range 16).foldl (fun s k => if flag s 0x9050 k then emit s (.pin "GPIO" k (flag s 0x9054 k)) else s) s

/-- A pin takes a level from outside: an input records it, and an enabled edge sets its event. -/
def gpioLevel (s : State) (k : Nat) (level : Bool) : State :=
  if !pagePowered s .hostIf ∨ flag s 0x9050 k ∨ flag s 0x9058 k = level then s
  else
    let s := setFlag s 0x9058 k level
    if (if level then flag s 0x905C k else flag s 0x9060 (16 + k)) then raise (setFlag s 0x9064 k true) .hostIf 5 else s

/-! ### The commands -/

/-- QSPI_READ: 64 bytes of flash are read (R349). -/
def execQspiRead (src : Source) (addr : Nat) (s : State) : Res :=
  done (guarded s src 0x9040 fun s => qspiRequest s 0 addr)

/-- QSPI_PROGRAM: 64 bytes of flash are programmed (R349). -/
def execQspiProgram (src : Source) (addr : Nat) (s : State) : Res :=
  done (guarded s src 0x9040 fun s => qspiRequest s 1 addr)

/-- QSPI_ERASE: 64 KiB of flash are erased (R349). -/
def execQspiErase (src : Source) (addr : Nat) (s : State) : Res :=
  done (guarded s src 0x9040 fun s => qspiRequest s 2 addr)

/-- QSPI_DONE: the flash request ends; a read brings 64 bytes (R349). -/
def execQspiDone (ok : Bool) (data : List Byte) (s : State) : Res := sized (data.length == 64) (qspiDone s ok data)

/-- GPIO_EVENT: an edge on a pin (R348). -/
def execGpioEvent (pin : Fin 16) (level : Bool) (s : State) : Res := done (gpioLevel s pin level)

end Sys2Proof.Machine
end

