-- ==== Sys2Proof/Machine/SeqBase.lean ====
section
/-! DEFINITION. The sequencer's data RAM and its window (R365, R381), the start and the end of a customer task (R381, R383), and the delivery of
micro faults (R380). -/

namespace Sys2Proof.Machine

/-! ### Data RAM -/

/-- The byte of data RAM at an address of 20 bits. -/
def ramByte (s : State) (a : Nat) : Byte := sget (fun _ => 0) s.seq.ram (a % 2 ^ 20)

/-- `n` bytes of data RAM as a number, least significant first (DEDUCED, log 26). -/
def ramRead (s : State) (a n : Nat) : Nat := leNat ((List.range n).map fun i => ramByte s (a + i))

/-- Store `n` bytes of data RAM. -/
def ramWrite (s : State) (a n v : Nat) : State :=
  { s with seq := { s.seq with
    ram := (List.range n).foldl (fun m i => sset (fun _ => 0) m ((a + i) % 2 ^ 20) (BitVec.ofNat 8 (v / 256 ^ i))) s.seq.ram } }

/-- The address lies in the customer data region. -/
def inCustomerRam (a : Nat) : Bool := 0xC0000 ≤ a && a < 0x100000

/-- ADDR of SEQ_DRAM_ADDR as a byte address. -/
def dramAddr (s : State) : Nat := fld s 0x8074 19 2 * 4

/-- ADDR advances by one word. -/
def dramNext (s : State) : State := setFld s 0x8074 19 2 (fld s 0x8074 19 2 + 1)

/-- A read of SEQ_DRAM_DATA. -/
def dramRead (s : State) (src : Source) : Nat × State :=
  if inCustomerRam (dramAddr s) then (ramRead s (dramAddr s) 4, dramNext s) else (0, dramNext (accessFault s src 0x8078 5))

/-- A write of SEQ_DRAM_DATA. -/
def dramWrite (s : State) (src : Source) (v : Nat) : State :=
  if inCustomerRam (dramAddr s) then dramNext (ramWrite s (dramAddr s) 4 v) else dramNext (accessFault s src 0x8078 5)

/-! ### Registers and flags -/

/-- G_k; G_00 reads as 0. -/
def gReg (s : State) (k : Nat) : BitVec 64 := if k = 0 then 0 else sget (fun _ => 0) s.seq.g k

/-- Write G_k; writes to G_00 are discarded. -/
def setG (s : State) (k : Nat) (v : BitVec 64) : State :=
  if k = 0 then s else { s with seq := { s.seq with g := sset (fun _ => 0) s.seq.g k v } }

/-- The macro flags as MFLAGS: Z, N, C and V in bits 3 to 0 (DEDUCED, log 26). -/
def macroFlags (s : State) : Nat := bit s.seq.z * 8 + bit s.seq.n * 4 + bit s.seq.c * 2 + bit s.seq.v

/-- Set the macro flags from MFLAGS. -/
def setMacroFlags (s : State) (f : Nat) : State :=
  { s with seq := { s.seq with z := bitAt f 3, n := bitAt f 2, c := bitAt f 1, v := bitAt f 0 } }

/-! ### Tasks (R381, R383) -/

/-- The sequencer runs: firmware is up and the sequencer is not in reset. -/
def seqRuns (s : State) : Bool := s.firmware.running && !seqInReset s

/-- The task ends with a STATE and a CAUSE: 2 DONE, 3 FAULTED, 4 ABORTED. TASK_DONE or TASK_FAULT is raised. -/
def endTask (s : State) (state cause : Nat) : State :=
  let s := wr s 0x805C (state * 2 ^ 29 + cause % 32 * 2 ^ 24 + s.seq.pc)
  let s := { s with seq := { s.seq with task := false, abort := false, routine := none, abandoned := 0, waits := 0 } }
  raise (setFld s 0x8040 31 30 1) .sequencer (if state = 2 then 0 else 1)

/-- TASK_CONTROL.GO with ENTRY. DEDUCED (log 26): the PC is a multiple of 4, so the low two bits of ENTRY count for nothing. -/
def taskGo (s : State) (entry : Nat) : State :=
  if !seqRuns s then s
  else if s.seq.task then raise (setFld s 0x805C 28 24 0xE) .sequencer 1
  else
    let s := setFld s 0x8058 19 0 entry
    if !inCustomerRam entry then raise (wr s 0x805C (3 * 2 ^ 29 + 8 * 2 ^ 24 + entry)) .sequencer 1
    else
      let args := (List.range 4).foldl (fun m k => sset (fun _ => 0) m (k + 1) (BitVec.ofNat 64 (rd s (0x8060 + k * 4)))) []
      let s := { s with seq := { s.seq with
        g := args, z := false, n := false, c := false, v := false, pc := entry / 4 * 4, routine := none
        task := true, abort := false, abandoned := 0, waits := 0 } }
      setFld (wr s 0x805C (2 ^ 29)) 0x8040 31 30 2

/-- TASK_CONTROL.ABORT: at a macro boundary at once, otherwise at the next one. -/
def taskAbort (s : State) : State :=
  if !s.seq.task then s
  else if s.seq.routine.isNone then endTask s 4 0
  else { s with seq := { s.seq with abort := true } }

/-! ### Micro faults (R380) -/

/-- A micro fault is delivered with its cause and the address of its word: it ends the routine, and in a task the task. -/
def deliverFault (s : State) (cause : Nat) : State :=
  let at_ := match s.seq.routine with | some r => r.upc | none => 0
  let s := wr s 0x8044 (cause % 16 * 2 ^ 28 + bit s.seq.task * 2 ^ 27 + at_)
  let s := tally (wr s 0x8048 s.seq.pc) 0x80C8
  let s := { s with seq := { s.seq with routine := none, abandoned := 0, waits := 0, interrupt := false } }
  if s.seq.task then endTask s 3 cause else report (raise s .sequencer 3) 0x0903 .sequencer [cause]

/-! ### Commands -/

/-- TASK_GO: TASK_CONTROL.GO with ENTRY (R381, R383). -/
def execTaskGo (src : Source) (entry : BitVec 20) (s : State) : Res :=
  done (guarded s src 0x8058 fun s => taskGo s entry.toNat)

/-- TASK_ABORT: TASK_CONTROL.ABORT (R383). -/
def execTaskAbort (src : Source) (s : State) : Res := done (guarded s src 0x8058 taskAbort)

/-- SEQ_DRAM_ACCESS: a read of SEQ_DRAM_DATA, or a write with the word to store (R381). -/
def execSeqDramAccess (src : Source) (store : Option Word32) (s : State) : Res :=
  match store with
  | some v => done (guarded s src 0x8078 fun s => dramWrite s src v.toNat)
  | none =>
    let s := dropWindow s src
    if heldInReset s .sequencer then done (emit s (.value src 0x8078 0))
    else if !mayRead s src 0x8078 then done (emit (accessFault s src 0x8078 5) (.value src 0x8078 0))
    else
      let r := dramRead s src
      done (emit r.2 (.value src 0x8078 r.1))

end Sys2Proof.Machine
end

