-- ==== Sys2Proof/Machine/Epoch.lean ====
section
/-! DEFINITION. Epoch commits and presets (R20 to R23, R37 to R41) and fences (R42 to R44). -/

namespace Sys2Proof.Machine

/-! ### Frames inside the device -/

/-- The frame has not left: it holds leaves, or no stage has dropped it yet. Frames that stay in a MAC do not count. -/
def insideFrame (f : Frame) : Bool :=
  !f.rescue && !f.control && (f.reason = 0 || f.refs.any (· != 0) || !f.copies.isEmpty)

/-- The frames of a queue that lie in sheets, with the numbers under which they were first stored. -/
def sheetFrames (v : Queue) : List (Nat × Frame) :=
  match v.spill with
  | none => []
  | some c => c.index.flatMap fun sh => (openRecords sh).filterMap fun r => match r with
    | .frame k f => some (mirrorHome f k.frame, f)
    | .skip _ _ => none

/-- Every frame inside the device, on chip or in a sheet, with the number under which it entered. -/
def framesInside (s : State) : List (Nat × Frame) :=
  ((s.frames.filter fun e => insideFrame e.2).map fun e => (mirrorHome e.2 e.1, e.2)) ++
  s.queues.flatMap fun e => sheetFrames e.2

/-- COMMIT_STATUS.OLD_FRAMES: a frame of the previous epoch remains. -/
def oldFrames (s : State) : Bool := (framesInside s).any fun e => e.2.epoch % 2 != currentEpoch s % 2

/-! ### Presets (R20, R23) -/

/-- The knob bits of POWER_KNOBS. -/
def knobMask : Nat := 0xFF0001FF

/-- The knob bits that a preset sets, and the values it gives them. -/
def presetMask (k : Nat) : Nat :=
  match k with | 1 => 0xFF000000 | 2 => 0x01000000 | 3 => 0xCC000000 | _ => 0
def presetValue (k : Nat) : Nat :=
  match k with | 1 => 0x02000000 | 2 => 0x01000000 | 3 => 0xC4000000 | _ => 0

/-- Firmware stages the values of a preset. -/
def stagePreset (s : State) (k : Nat) : State :=
  wr s 0x3040 ((rd s 0x3040 &&& (0xFFFFFFFF ^^^ presetMask k)) ||| presetValue k)

/-- PROFILE_STATUS shows the committed knobs; PRESET follows what commit `c` changed. -/
def showProfile (s : State) (c : Commit) : State :=
  let k := knobs s
  let changed := (c.knobsBefore ^^^ k) &&& knobMask
  let preset :=
    if c.preset ≠ 0 then (if changed &&& (knobMask ^^^ presetMask c.preset) = 0 then c.preset else 7)
    else if changed = 0 then fld s 0x48 11 9 else 7
  wr s 0x48 (preset * 2 ^ 9 + bits k 31 31 * 2 ^ 8 + bits k 29 28 * 2 ^ 6 + sleepDepth s * 2 ^ 4 + bits k 24 24 * 2 ^ 3 +
    bits k 25 25 * 2 ^ 2 + bits k 30 30 * 2)

/-! ### Commits (R37 to R41) -/

/-- STAGED_PENDING of every page clears: what was staged is applied. -/
def clearStaged (s : State) : State :=
  (s.regs.filter fun e => e.1 % 0x1000 == 8).foldl (fun s e => setFlag s e.1 29 false) s

/-- The pending copies of staged fields and tables become the applied ones, and the applied ones the previous epoch's. -/
def applyPending (s : State) : State :=
  clearStaged { s with
    regsOld := s.regsCur
    regsCur := skeep (fun a => stagedMask a != 0) s.regs
    tabsOld := s.tabsCur
    tabsCur := skeep (fun k => tableStaged (k / 2 ^ 20)) s.tabs }

/-- The slices that have still to switch: those that run. -/
def runningSlices (s : State) : List Nat := (List.range 8).filter fun i => awake s i

/-- Every slice has switched: PROFILE_STATUS follows. -/
def slicesSwitched (s : State) : State :=
  match s.commit with
  | some c => if c.waiting = [] then showProfile s c else s
  | none => s

/-- Slices whose sleep a commit to SLEEP_DEPTH off ends (R290). -/
def wakeIfOff (s : State) : State :=
  if sleepDepth s = 0 then (List.range 8).foldl (fun s i => if awake s i then s else wakeSlice s i) s else s

/-- A commit is accepted. -/
def acceptCommit (s : State) (preset : Nat) : State :=
  let before := knobs s
  let old := s
  let s := setFld (applyPending s) 0x44 15 0 (currentEpoch s + 1)
  let s := { s with commit := some { waiting := runningSlices s, knobsBefore := before, preset },
                    twin := { s.twin with digestDue := true } }
  let s := schedCommit old s
  let s := if bits (before ^^^ knobs s) 30 28 = 0 then s else govCommit s
  let s := if bitAt before 31 ∧ !bitAt (knobs s) 31 then govOff s else s
  let s := drainCheck s
  let s := if (before ^^^ knobs s) &&& 0x0C000000 = 0 then s else wakeIfOff s
  slicesSwitched s

/-- A write of SYS_COMMIT with GO and EPOCH: refused and recorded, or accepted. -/
def sysCommit (s : State) (src : Source) (epoch : Nat) : State :=
  if s.commit.isSome then accessFault s src 0x40 6
  else if epoch ≠ (currentEpoch s + 1) % 65536 then accessFault s src 0x40 7
  else acceptCommit (setFld s 0x40 15 0 epoch) 0

/-- Firmware stages knob values with `stage` and commits them (R21): the epoch committed, none while a commit is pending. -/
def commitKnobs (s : State) (preset : Nat) (stage : State → State) : Option (Nat × State) :=
  if s.commit.isSome then none
  else
    let e := (currentEpoch s + 1) % 65536
    some (e, acceptCommit (setFld (stage s) 0x40 15 0 e) preset)

/-- Slice `i` switches to the current epoch. -/
def switchSlice (s : State) (i : Nat) : State :=
  match s.commit with
  | none => s
  | some c =>
    if i ∈ c.waiting then slicesSwitched { s with commit := some { c with waiting := c.waiting.filter (· != i) } } else s

/-- A commit completes once every slice has switched and no old frame remains. -/
def commitEnd (s : State) : State :=
  match s.commit with
  | none => s
  | some c => if c.waiting = [] ∧ !oldFrames s then raise { s with commit := none } .root 0 else s

/-! ### Fences (R42 to R44) -/

/-- A write of FENCE_CONTROL with GO and SCOPE. -/
def fenceStart (s : State) (src : Source) (full : Bool) : State :=
  if s.fence.isSome then accessFault s src 0x4C 8
  else
    let s := wr s 0x4C (2 ^ 31 + bit full)
    let s := wr s 0x50 (2 ^ 31 + bit full * 2 ^ 29 + fld s 0x50 23 0)
    { s with fence := some { first := s.nextFrame, full, start := now s } }

/-- Every frame that the fence waits for has gone. A PIPE fence waits for none: a frame that has passed stage 6 has passed stage 9
in the same step of the model. -/
def fencePassed (s : State) (f : Fence) : Bool := !f.full || !(framesInside s).any fun e => e.1 < f.first

/-- A fence completes. -/
def fenceEnd (s : State) : State :=
  match s.fence with
  | none => s
  | some f =>
    if fencePassed s f then
      let s := setFlag { s with fence := none } 0x4C 31 false
      raise (wr s 0x50 (2 ^ 30 + bit f.full * 2 ^ 29 + min 0xFFFFFF (ceilDiv (now s - f.start) 1000))) .root 1
    else s

/-! ### The commands -/

/-- SYS_COMMIT_GO: SYS_COMMIT.GO with EPOCH (R37, R38). -/
def execSysCommitGo (src : Source) (epoch : BitVec 16) (s : State) : Res :=
  done (guarded s src 0x40 fun s => sysCommit s src epoch.toNat)

/-- SLICE_EPOCH_SWITCH: an awake slice switches between two frames (R39). -/
def execSliceEpochSwitch (slice : Fin 8) (s : State) : Res := done (switchSlice s slice)

/-- COMMIT_DONE: the commit in progress completes (R41). -/
def execCommitDone (s : State) : Res := done (commitEnd s)

/-- FENCE_GO: FENCE_CONTROL.GO with SCOPE (R42 to R44). -/
def execFenceGo (src : Source) (full : Bool) (s : State) : Res :=
  done (guarded s src 0x4C fun s => fenceStart s src full)

/-- FENCE_DONE: the fence in progress completes (R44). -/
def execFenceDone (s : State) : Res := done (fenceEnd s)

end Sys2Proof.Machine
end

