-- ==== Sys2Proof/Machine/Colophon.lean ====
section
/-! DEFINITION. The colophon (R387 to R401): keys, owner enrolment, debug, the entropy source, the secure boot (R393 to R396) and
attestation over DOE (R397). -/

namespace Sys2Proof.Machine

/-- COLOPHON_STATUS.ERROR_STATE. -/
def colophonError (s : State) : Bool := flag s 0x1040 27

/-- COLOPHON_STATUS as it reads: SELFTEST_PASSED and ERROR_STATE beside what OTP and the debug state give. -/
def colophonStatus (s : State) : Nat :=
  let c := s.colophon
  c.lifecycle * 2 ^ 29 + fld s 0x1040 28 27 * 2 ^ 27 + bit c.ownerDigest.isSome * 2 ^ 26 + bit c.ownerRevoked * 2 ^ 25 +
    bit (debugOpen s) * 2 ^ 24 + min 128 c.antiRollback

/-- A new debug nonce is drawn (R400). -/
def drawNonce (s : State) : State :=
  let v := (Config.nonce s.freeCount).toNat
  (List.range 3).foldl (fun s n => wr s (0x1060 + n * 4) (bits v (32 * n + 31) (32 * n))) (drawn s)

/-! ### Zeroisation (R391) -/

/-- Every CXL port is force-discarded. -/
def discardAll (s : State) : State := (List.range 4).foldl forceDiscard s

/-- The spill key and the Kettle session keys are zeroised; Kettle brings its link up again. -/
def zeroiseKeys (s : State) : State :=
  let s := { s with colophon := { s.colophon with spillKey := false }, spill := { s.spill with keyDrawn := false } }
  if s.kettle.session then kettleRestart s 0 else s

/-- The sequence of R391. -/
def zeroise (s : State) : State :=
  if colophonError s then s
  else
    let s := zeroiseKeys (discardAll s)
    raise (drawSpillKey { s with colophon := { s.colophon with seeded := true } }) .colophon 1

/-! ### Owner enrolment (R392) -/

/-- OWNER_ENROL.GO, with what the check of the key and the OTP write give. -/
def enrol (s : State) (onCurve otpOk : Bool) (digest : List Word32) : State :=
  let c := s.colophon
  let status := fun (v : Nat) (s : State) => setFld s 0x104C 30 28 v
  if colophonError s then s
  else if (c.lifecycle ≠ 1 ∧ c.lifecycle ≠ 2) ∨ c.ownerDigest.isSome ∨ c.ownerSpent then status 1 s
  else if !onCurve then status 2 s
  else if !otpOk then status 3 { s with colophon := { c with ownerSpent := true } }
  else raise (status 0 { s with colophon := { c with ownerDigest := some digest } }) .colophon 0

/-! ### Images and debug tokens (R393, R400, R401) -/

/-- The signer of an image is one that R393 accepts: a Kertuhal key not revoked, or the owner's key not revoked. -/
def signerGood (s : State) (signer : Nat) : Bool :=
  if signer ≤ 3 then signer ∉ s.colophon.revokedSigners
  else signer = 0xF && s.colophon.ownerDigest.isSome && !s.colophon.ownerRevoked

/-- DEBUG_CONTROL.GO with the token as it is read and checked: a header of 256 bytes and a payload of 20. DESIGN CHOICE (log 27): while
debug is open no token is read, and none is accepted or refused, so that the nonce stands. -/
def debugToken (s : State) (image : ImageCheck) (serial : BitVec 64) (nonce : List Word32) : State :=
  let status := fun (v : Nat) (s : State) => setFld s 0x1078 29 28 v
  if colophonError s then s
  else if debugOpen s then status 3 s
  else
    let s := emit s (.hostRead (rd s 0x1074 * 2 ^ 32 + rd s 0x1070) 276)
    let own := (List.range 3).map fun n => rd s (0x1060 + n * 4)
    let s :=
      if !(image.readOk && image.authentic && signerGood s image.signer) then status 1 s
      else if serial ≠ s.colophon.serial ∨ nonce.map (·.toNat) ≠ own then status 2 s
      else
        let s := zeroise s
        raise (status 0 { s with colophon := { s.colophon with debugByToken := true } }) .colophon 3
    drawNonce s

/-! ### The error state (R390) -/

/-- A continuous entropy test fails. -/
def entropyFailure (s : State) : State :=
  if colophonError s ∨ !s.startup.railsUp ∨ s.startup.resetting then s
  else
    let s := discardAll (raise (setFlag s 0x1040 27 true) .colophon 2)
    let s := if kettleState s = 0 then s else kettleLeave s 0 0
    deviceFatal s 0x0801 28 .colophon []

/-! ### The secure boot (R394 to R396) -/

/-- The sequencer stands at the boot of its firmware. -/
def bootDue (s : State) : Bool :=
  seqInReset s && s.startup.railsUp && !s.startup.resetting && !s.startup.bootStopped && !s.startup.bistFailed &&
    !s.startup.recovery && !s.firmware.running && !s.firmware.bootFailed

/-- Words written into a store from an index on. -/
def loadWords (m : Sparse Word32) (first : Nat) (ws : List Word32) : Sparse Word32 :=
  (ws.zip (List.range ws.length)).foldl (fun m e => sset (fun _ => 0) m (first + e.2) e.1) m

/-- Step 4 of the secure boot table: RESCUE_TRUSTED of every port, then LOCK of each port page 0 and of the colophon page. -/
def trustPorts (s : State) (trusted : Nat) : State :=
  let s := (List.range 64).foldl (fun s p =>
    setFlag (setFlag s (portReg p 0 0x40) 28 (bitAt trusted p)) (portReg p 0 0x28) 0 true) s
  setFlag s 0x1028 0 true

/-- Firmware starts: the patch RAM and the dispatch entries 0x00 to 0xDF are written, and the sequencer runs. -/
def firmwareStart (s : State) (slot : Bool) (image : ImageCheck) (version patchVersion : Nat) (patch entries : List Word32)
    (trusted : Nat) : State :=
  let s := { s with seq := { s.seq with store := loadWords [] 8192 (patch.take 4096), dispatch := loadWords [] 0 entries } }
  let s := { s with firmware := { s.firmware with running := true, version, patchVersion, svn := image.svn, commands := [] } }
  let s := firmwareRestartChannels (setFld (setFlag s 0x8040 28 false) 0x8040 31 30 1)
  trustPorts (setFlag (setFld s 0x2080 28 27 1) 0x2080 29 slot) trusted

/-- The sequencer boots from NEXT_SLOT, or from the other slot where the last boot failed. -/
def bootFrom (s : State) (image : ImageCheck) (version patchVersion : Nat) (patch entries : List Word32) (trusted : Nat) : State :=
  let slot := flag s 0x2080 30 != s.firmware.fellBack
  if image.readOk ∧ image.authentic ∧ image.signer ≤ 3 ∧ signerGood s image.signer ∧ s.colophon.antiRollback ≤ image.svn then
    firmwareStart s slot image version patchVersion patch entries trusted
  else bootFails s

/-- BOOT_CONTROL.CONFIRM: step 5 of the secure boot table. Over I²C only NEXT_SLOT may be written (R402). -/
def confirmBoot (s : State) (src : Source) : State :=
  if src = .i2c then accessFault s src 0x2080 5
  else if bootState s ≠ 1 then s
  else
    let s := setFlag (setFld s 0x2080 28 27 2) 0x2080 30 (flag s 0x2080 29)
    { s with firmware := { s.firmware with fellBack := false },
             colophon := { s.colophon with antiRollback := max s.colophon.antiRollback (min 128 s.firmware.svn) } }

/-- BOOT_FAILURE: step 2 of the secure boot table fails. -/
def bootFailure (s : State) : State := if bootDue s then bootFails s else s

/-! ### Attestation (R397) -/

/-- PF0's DOE mailbox is served. -/
def doeServes (s : State) : Bool :=
  !s.host.inReset && s.host.linkUp && s.startup.railsUp && !s.startup.resetting && !s.startup.bistFailed

/-- A response over DOE: its code and payload. Its fixed bytes are those of DSP0274 (PRESUMED, log 23). -/
def doeAnswer (s : State) (code : Nat) (words : List Nat) : State := emit s (.response 100 (code :: words))

/-- ERROR with a DSP0274 error code: 1 InvalidRequest, 4 UnexpectedRequest, 5 Unspecified, 7 UnsupportedRequest. -/
def doeError (s : State) (e : Nat) : State := doeAnswer s 0x7F [e]

/-- A payload that the spec leaves to DSP0274, or that holds digests and signatures. -/
def spdmPayload (s : State) (request arg : Nat) : List Nat := Config.spdm request arg s.freeCount

/-- A request that needs the algorithms to be negotiated first. -/
def negotiatedAnswer (s : State) (needsKey : Bool) (good : Bool) (code : Nat) (words : State → List Nat) : State :=
  if !doeServes s then s
  else if !s.colophon.negotiated then doeError s 4
  else if colophonError s ∨ (needsKey ∧ !s.colophon.identity) then doeError s 5
  else if !good then doeError s 1
  else doeAnswer (drawn s) code (words s)

/-- The words of measurement block `i`. Blocks 1 to 3 are digests; block 4 is one where customer microcode is loaded; blocks 5 and 6
hold state. -/
def measurement (s : State) (i : Nat) : List Nat :=
  match i with
  | 4 => if flag s 0x8040 28 then spdmPayload s 0xE0 4 else List.replicate 12 0
  | 5 => [s.colophon.lifecycle, s.colophon.antiRollback, fld s 0x2080 29 29] ++
      (match s.colophon.ownerDigest with | some d => d.map (·.toNat) | none => List.replicate 12 0) ++ [bit (debugOpen s)]
  | 6 => (List.range 12).map fun n => rd s (0x6068 + n * 4)
  | _ => spdmPayload s 0xE0 i

/-! ### The commands -/

/-- ZEROISE: ZEROISE.GO (R391). -/
def execZeroise (src : Source) (s : State) : Res := done (guarded s src 0x1050 zeroise)

/-- OWNER_ENROL: OWNER_ENROL.GO (R392). -/
def execOwnerEnrol (src : Source) (onCurve otpOk : Bool) (digest : List Word32) (s : State) : Res :=
  sized (digest.length == 12) (guarded s src 0x104C fun s => enrol s onCurve otpOk digest)

/-- DEBUG_TOKEN: DEBUG_CONTROL.GO (R400, R401). -/
def execDebugToken (src : Source) (image : ImageCheck) (serial : BitVec 64) (nonce : List Word32) (s : State) : Res :=
  sized (nonce.length == 3) (guarded s src 0x1078 fun s => debugToken s image serial nonce)

/-- DEBUG_CONTROL.CLOSE. -/
def closeDebug (s : State) : State := { s with colophon := { s.colophon with debugByToken := false } }

/-- DEBUG_CLOSE: DEBUG_CONTROL.CLOSE ends debug opened by token (R400). -/
def execDebugClose (src : Source) (s : State) : Res :=
  done (guarded s src 0x1078 closeDebug)

/-- ENTROPY_FAILURE: a continuous test of the entropy source fails (R390). -/
def execEntropyFailure (s : State) : Res := done (entropyFailure s)

/-- FIRMWARE_BOOT: the sequencer boots (R394). -/
def execFirmwareBoot (image : ImageCheck) (version patchVersion : Word32) (patch entries : List Word32) (trusted : BitVec 64)
    (s : State) : Res :=
  sized (entries.length == 224) (if bootDue s then bootFrom s image version.toNat patchVersion.toNat patch entries trusted.toNat else s)

/-- CONFIRM: BOOT_CONTROL.CONFIRM (R394, R396). -/
def execConfirm (src : Source) (s : State) : Res := done (guarded s src 0x2080 fun s => confirmBoot s src)

/-- BOOT_FAILURE: a boot fails at step 2 (R395). -/
def execBootFailure (s : State) : Res := done (bootFailure s)

/-- GET_VERSION over DOE. -/
def execGetVersion (s : State) : Res :=
  done (if doeServes s then
    doeAnswer { (drawn s) with colophon := { s.colophon with negotiated := false } } 0x04 (spdmPayload s 0x84 0) else s)

/-- GET_CAPABILITIES over DOE. -/
def execGetCapabilities (s : State) : Res :=
  done (if doeServes s then doeAnswer (drawn s) 0x61 (spdmPayload s 0xE1 0) else s)

/-- NEGOTIATE_ALGORITHMS over DOE. -/
def execNegotiateAlgorithms (s : State) : Res :=
  done (if doeServes s then
    doeAnswer { (drawn s) with colophon := { s.colophon with negotiated := true } } 0x63 (spdmPayload s 0xE3 0) else s)

/-- GET_DIGESTS over DOE: slot 0 only. -/
def execGetDigests (slot : Nat) (s : State) : Res :=
  done (negotiatedAnswer s false (slot = 0) 0x01 fun s => spdmPayload s 0x81 slot)

/-- GET_CERTIFICATE over DOE: slot 0 only. -/
def execGetCertificate (slot offset length : Nat) (s : State) : Res :=
  done (negotiatedAnswer s false (slot = 0) 0x02 fun s => offset :: length :: spdmPayload s 0x82 offset)

/-- CHALLENGE over DOE, signed by the identity key. -/
def execChallenge (slot : Nat) (nonce : List Nat) (s : State) : Res :=
  done (negotiatedAnswer s true (slot = 0) 0x03 fun s => nonce ++ spdmPayload s 0x83 slot)

/-- GET_MEASUREMENTS over DOE: index 0 asks for their number, 0xFF for all. -/
def execGetMeasurements (index : Nat) (signed : Bool) (nonce : List Nat) (s : State) : Res :=
  done (negotiatedAnswer s signed (index ≤ 6 || index == 0xFF) 0x60 fun s =>
    (if index = 0 then [6]
     else if index = 0xFF then (List.range 6).flatMap fun i => measurement s (i + 1)
     else measurement s index) ++ (if signed then nonce ++ spdmPayload s 0xE0 0x100 else []))

/-- UNSUPPORTED_REQUEST over DOE: ERROR UnsupportedRequest. -/
def execUnsupportedRequest (code : Nat) (s : State) : Res :=
  done (if doeServes s then doeAnswer s 0x7F [7, code] else s)

end Sys2Proof.Machine
end

