-- ==== Sys2Proof/Machine/Host.lean ====
section
/-! DEFINITION. The PCI Express endpoint and its rings (R332 to R344): doorbells, enabling and disabling, transmit fetches,
deliveries to the host, and the resets of the endpoint. Rings 0 to 63 transmit, 64 to 127 receive, 128 to 135 are the event rings. -/

namespace Sys2Proof.Machine

/-! ### Ring registers -/

/-- The register block of ring `r`. -/
def ringBase (r : Nat) : Nat :=
  if r < 64 then 0xA040 + r * 0x20 else if r < 128 then 0xB040 + (r - 64) * 0x20 else 0xC040 + (r - 128) * 0x20

def ringOn (s : State) (r : Nat) : Bool := flag s (ringBase r + 8) 31
def ringIsIdle (s : State) (r : Nat) : Bool := flag s (ringBase r + 8) 30

/-- The places of a ring: descriptors of a frame ring, bytes of an event ring. -/
def ringSize (s : State) (r : Nat) : Nat :=
  if r < 128 then 2 ^ max 6 (min 16 (fld s (ringBase r + 8) 29 25)) else eventRingSize s (r - 128)

def ringHead (s : State) (r : Nat) : Nat := rd s (ringBase r + 0xC)
def ringTail (s : State) (r : Nat) : Nat := rd s (ringBase r + 0x10)

/-- Places from HEAD up to TAIL. -/
def ringPosted (s : State) (r : Nat) : Nat := (ringTail s r + ringSize s r - ringHead s r % ringSize s r) % ringSize s r

/-- The host address of the ring. -/
def ringAddr (s : State) (r : Nat) : Nat := rd s (ringBase r + 4) * 2 ^ 32 + rd s (ringBase r)

/-- The host address of the descriptor `k` places behind HEAD. -/
def descriptorAddr (s : State) (r k : Nat) : Nat := ringAddr s r + (ringHead s r + k) % ringSize s r * 32

/-- HEAD moves to `h`; its write-back and the ring's vector follow (R335, R336). -/
def moveHead (s : State) (r h : Nat) : State :=
  let s := wr s (ringBase r + 0xC) h
  let wb := rd s (ringBase r + 0x18) * 2 ^ 32 + rd s (ringBase r + 0x14)
  let s := if wb = 0 then s else emit s (.hostWrite wb (leBytes 4 h))
  signal s r (fld s (ringBase r + 8) 15 0)

/-- HEAD moves on by `n` places. -/
def advanceHead (s : State) (r n : Nat) : State := moveHead s r ((ringHead s r + n) % ringSize s r)

/-- A host read or write fails (R338, R346). -/
def hostDmaFails (s : State) (detail : List Nat) : State :=
  report (raise (tally s 0x9330) .hostIf 2) 0x0503 .hostIf detail

/-- The page of a ring, or the host interface page, is in its fault-safe action: the ring fetches no descriptor (R35). -/
def ringHeld (s : State) (r : Nat) : Bool := flag s 0x9008 31 || flag s (ringBase r / 0x1000 * 0x1000 + 8) 31

/-! ### Doorbells (R336, R342, R344) -/

/-- A doorbell write, over a link that is up: TAIL of a transmit or receive ring and of ring 7, HEAD of event rings 0 to 6. -/
def doorbell (s : State) (page value : Nat) : State :=
  if !s.host.linkUp ∨ heldInReset s (.dma 0) ∨ 136 ≤ page then s
  else
    let s := { s with host := { s.host with doorbells := sset zeroNat s.host.doorbells page value } }
    if ringSize s page ≤ value then raise (tally s 0x932C) .hostIf 1
    else if page < 128 ∨ page = 135 then
      let s := wr s (ringBase page + 0x10) value
      if page < 64 then wakeSlice s (fld s (ringBase page + 8) 24 22) else s
    else wr s (ringBase page + 0xC) value

/-! ### Enabling and disabling (R336, R343, R344) -/

/-- ENABLE is written 1: ignored while IDLE is 0 or the ring runs. DESIGN CHOICE (log 19): no command of the table writes the
configuration space, and software that enables a ring has set Bus Master Enable before. -/
def ringEnable (s : State) (r : Nat) : State :=
  if ringOn s r ∨ !ringIsIdle s r then s
  else
    let s := { s with host := { s.host with busMaster := s.host.linkUp } }
    let s := wr (wr s (ringBase r + 0xC) 0) (ringBase r + 0x10) 0
    setFlag (setFlag s (ringBase r + 8) 31 true) (ringBase r + 8) 30 false

/-- ENABLE is written 0. -/
def ringDisable (s : State) (r : Nat) : State := setFlag s (ringBase r + 8) 31 false

/-- A write of RING_CONFIG leaves ENABLE to the two operations above. -/
def ringConfigure (s : State) (r v : Nat) : State :=
  if bitAt v 31 then ringEnable s r else ringDisable s r

/-- The completion record of a command (R346), its time still open. -/
def completionWords (s : State) (c : Completion) : List Nat :=
  [c.opcode * 2 ^ 24 + c.status * 2 ^ 16 + c.tag, c.result, c.done, 0, devSub s, devSec s, 0, s.host.completionSeq]

/-- Write a completion to ring 6. -/
def writeCompletion (s : State) (c : Completion) : State :=
  let s := eventWrite s 6 (completionWords s c)
  { s with host := { s.host with completionSeq := (s.host.completionSeq + 1) % 2 ^ 32 } }

/-- A command completes: its record is written, or waits for room in ring 6 (R347). -/
def complete (s : State) (opcode status tag result done : Nat) : State :=
  let c : Completion := { opcode, status, tag, result, done }
  if s.host.completions.isEmpty && eventRoom s 6 32 then writeCompletion s c
  else { s with host := { s.host with completions := s.host.completions ++ [c] } }

/-- A table command issued earlier still runs: a flush walks for it. -/
def commandRuns (s : State) : Bool := s.fdb.flushes.any fun j => j.tag.isSome

/-- The descriptors of a disabled frame ring are returned ABORTED. -/
def abortDescriptors (s : State) (r : Nat) : State :=
  (List.range (ringPosted s r)).foldl (fun s k =>
    if r < 64 then emit s (.hostWrite (descriptorAddr s r k + 28) (leBytes 4 (2 ^ 31 + 2 ^ 28)))
    else emit s (.hostWrite (descriptorAddr s r k) (leBytes 4 (2 ^ 31 + 2 ^ 26) ++ List.replicate 28 0))) s

/-- A disabled ring comes to rest: what was posted and not begun is returned ABORTED, HEAD equals TAIL, and RING_IDLE is raised.
`commands` gives opcode and tag of the commands left in ring 7. -/
def ringIdle (s : State) (r : Nat) (commands : List (Nat × Nat)) : State :=
  if ringOn s r ∨ ringIsIdle s r then s
  else if r = 135 ∧ (commandRuns s ∨ commands.length ≠ ringPosted s r / 32) then s
  else
    let n := ringPosted s r
    let s := if r < 128 then abortDescriptors s r
      else if r = 135 then commands.foldl (fun s c => complete s c.1 0x0A c.2 0 0) s else s
    let s := if n = 0 then s else moveHead s r (ringTail s r)
    let s := if n ≠ 0 ∧ r < 64 then touchSlice s (fld s (ringBase r + 8) 24 22) else s
    raise (setFlag s (ringBase r + 8) 30 true) .hostIf 3

/-- The moderation time of a ring has run out (R335). -/
def itrExpiry (s : State) (r : Nat) : State :=
  let u := (ringAt s r).unsignalled
  if u = 0 ∨ now s < u - 1 + fld s (ringBase r + 8) 15 0 * 1000 then s
  else emit (setRing s r { (ringAt s r) with unsignalled := 0 }) (.vector 0 r)

/-! ### Transmit (R337, R338, R149) -/

/-- STATUS of a frame's descriptors before any data are read. -/
def descriptorStatus (ds : List (List Nat)) : Nat :=
  let first := ds.headD []
  let len := bits (nth first 3) 31 18
  let segs := ds.map fun d => bits (nth d 2) 30 16
  if len < 64 ∨ 10240 < len ∨ segs.foldl (· + ·) 0 ≠ len - 4 then 2
  else if segs.any (· == 0) || (ds.drop 1).any (fun d => bits (nth d 2) 15 13 != 0) then 3
  else 0

/-- The descriptors of a frame are written DONE with its STATUS, and HEAD moves past them. -/
def finishDescriptors (s : State) (r n status : Nat) : State :=
  let s := (List.range n).foldl (fun s k =>
    emit s (.hostWrite (descriptorAddr s r k + 28) (leBytes 4 (2 ^ 31 + status * 2 ^ 28)))) s
  advanceHead s r n

/-- The frame that a first descriptor and its data make, with the FCS that the T968 appends. -/
def hostTxFrame (s : State) (r : Nat) (d : List Nat) (data : List Byte) (traced : Bool) : Frame :=
  let w := nth d 3
  let bytes := data ++ fcsOf data
  let sl := fld s (ringBase r + 8) 24 22
  { inPort := 64, slice := sl, bytes, ended := true, hasRx := false, arrival := nowUs s, sfd := now s,
    sfdDev := devNs s, epoch := sliceEpoch s sl, metered := bytes.length, cls := bits w 17 15, colour := min 2 (bits w 14 13),
    launch := if bitAt w 12 then some ((nth d 4 * 1000000000 + nth d 5) * 65536) else none,
    dest := if bitAt w 11 then some (bits w 10 4) else none, ring := some r,
    trace := if traced then some (newTrace s false) else none }

/-- An accepted host frame is counted and enters its slice. -/
def acceptHostFrame (s : State) (r : Nat) (d : List Nat) (data : List Byte) : State :=
  let len := data.length + 4
  let s := count (count (count (count s 26 1) 27 len) (31 + 2 * r) 1) (32 + 2 * r) len
  let sl := fld s (ringBase r + 8) 24 22
  let (traced, s) := traceDraw (wakeSlice s sl) sl
  let i := s.nextFrame
  let s := setFrame { s with nextFrame := i + 1 } i (hostTxFrame s r d data traced)
  finishFrame (ingress s i) i 0

/-- The reads of host memory that fetch a frame's descriptors. -/
def readDescriptors (s : State) (r n : Nat) : State :=
  (List.range n).foldl (fun s k => emit s (.hostRead (descriptorAddr s r k) 32)) s

/-- The reads of host memory that fetch the segments of a frame, once its descriptors have been checked (R338). -/
def readSegments (s : State) (ds : List (List Nat)) : State :=
  ds.foldl (fun s d => emit s (.hostRead (nth d 0 + nth d 1 * 2 ^ 32) (bits (nth d 2) 30 16))) s

/-- Ring `r` fetches its next frame: the descriptors from HEAD on, and the data they name. -/
def txFetch (s : State) (r : Nat) (ds : List (List Nat)) (data : List Byte) (dmaOk : Bool) : State :=
  let n := bits (nth (ds.headD []) 2) 15 13 + 1
  if !ringOn s r ∨ ringHeld s r ∨ !hostServes s ∨ !pipelineRuns s (fld s (ringBase r + 8) 24 22) ∨ ds.length ≠ n ∨ ringPosted s r < n
  then s
  else
    let status := descriptorStatus ds
    let s := readDescriptors s r n
    if status ≠ 0 then finishDescriptors (raise (tally s 0x9328) .hostIf 0) r n status
    else if !dmaOk then finishDescriptors (hostDmaFails (readSegments s ds) [r]) r n 4
    else if data.length + 4 ≠ bits (nth (ds.headD []) 3) 31 18 then s
    else acceptHostFrame (finishDescriptors (readSegments s ds) r n 0) r (ds.headD []) data

/-! ### Receive (R12, R339, R340) -/

/-- The bytes that each buffer takes, in order. -/
def fillBuffers : List (Nat × Nat) → List Byte → List (Nat × List Byte)
  | [], _ => []
  | (a, n) :: l, b => (a, b.take n) :: fillBuffers l (b.drop n)

/-- The buffers are those that a body of `len` bytes takes: enough for it or eight, and none more than it needs. -/
def buffersFit (buffers : List (Nat × Nat)) (len : Nat) : Bool :=
  let total := fun (l : List (Nat × Nat)) => l.foldl (fun n b => n + b.2) 0
  buffers.length ≤ 8 && (len ≤ total buffers || buffers.length == 8) && (buffers.isEmpty || total buffers.dropLast < len)

/-- The words written back for buffer `k` of `n` (R340). -/
def receiveWords (f : Frame) (trap len k n used status : Nat) : List Nat :=
  let w0 := 2 ^ 31 + bit (k = 0) * 2 ^ 30 + bit (k + 1 = n) * 2 ^ 29 + status * 2 ^ 26 + used
  if k ≠ 0 then w0 :: List.replicate 7 0
  else
    let ns := f.rx / 65536
    [w0, len * 2 ^ 18 + f.inPort * 2 ^ 11 + f.cls * 2 ^ 8 + f.colour * 2 ^ 6 + bit f.hasRx * 2 ^ 5,
      trap * 2 ^ 24 + f.vid % 4096 * 2 ^ 12, bit f.mapHit * 2 ^ 31 + f.sub * 2 ^ 16 + f.rx % 65536,
      ns / 1000000000 % 2 ^ 32, ns % 1000000000, 0, 0]

/-- The body that leaves through the host egress stage, edited under a profile of slice 0 (R12). -/
def hostBody (s : State) (f : Frame) (profile : Nat) : List Byte :=
  edited f ⟨profile, tpidsOf s f.epoch 0, none⟩ (dropFcs f.bytes)

/-- The frame is written to its buffers and their descriptors, and HEAD moves past them. -/
def writeReceived (s : State) (r : Nat) (f : Frame) (trap : Nat) (buffers : List (Nat × Nat)) (body : List Byte) : State :=
  let parts := fillBuffers buffers body
  let cut : Bool := (parts.foldl (fun n x => n + x.2.length) 0) < body.length
  let s := parts.foldl (fun s x => emit s (.hostWrite x.1 x.2)) s
  let s := (List.range parts.length).foldl (fun s k =>
    let used := ((parts[k]?).map fun x => x.2.length).getD 0
    let ws := receiveWords f trap (body.length + 4) k parts.length used (if cut then 2 else 0)
    emit s (.hostWrite (descriptorAddr s r k) (ws.flatMap (leBytes 4)))) s
  let s := if cut then count s 30 1 else s
  advanceHead s r parts.length

/-- The waiting copy is delivered into the buffers at the head of its ring. -/
def deliver (s : State) (c : Copy) (buffers : List (Nat × Nat)) (dmaOk : Bool) : State :=
  let r := 64 + c.ring
  let f := frameAt s c.frame
  let trapped := match c.kind with | .trap _ => true | _ => false
  let trap := match c.kind with | .trap k => k | _ => 0
  let reason := egressCheck s f 64 trapped
  let k := editProfile s f 64
  let body := hostBody s f (tabEpoch s f.epoch 0x0B k)
  if reason = 0 ∧ (!ringOn s r ∨ ringHeld s r ∨ !hostServes s ∨ ringPosted s r < buffers.length ∨ !buffersFit buffers body.length)
  then s
  else
    let s := takeCopy { s with host := { s.host with waiting := none } } c
    if reason ≠ 0 then spillExit (dropCopy s c reason) c.queue
    else
      let s := sendMirrors s (mirrorHome f c.frame) f c k (s.clock.dev / 2 ^ 24)
      let s := if traceFollows (frameAt s c.frame) c then
          let (g, s) := traceEnd s (tracePoint s (frameAt s c.frame) 5) 0 (some c)
          setFrame s c.frame g
        else s
      if !dmaOk then leaveCopy (hostDmaFails s [r]) c
      else
        let len := body.length + 4
        let s := writeReceived s r f trap buffers body
        let s := count (count (count (count s 28 1) 29 len) (159 + 2 * c.ring) 1) (160 + 2 * c.ring) len
        leaveCopy (countTransmitted s 64 c f body true) c

/-! ### Resets of the endpoint (R332, R356) -/

/-- The address lies among the ring registers of a DMA page. -/
def ringRegister (a : Nat) : Bool :=
  (0xA040 ≤ a && a < 0xA840) || (0xB040 ≤ a && a < 0xB840) || (0xC040 ≤ a && a < 0xC140)

/-- Every ring and the table engine are reset; a table command already issued completes without its record. -/
def resetEndpoint (s : State) : State :=
  let s := { s with
    regs := skeep (fun a => !ringRegister a) s.regs
    host := { s.host with rings := [], doorbells := [], completions := [], completionSeq := 0 }
    fdb := { s.fdb with flushes := s.fdb.flushes.map fun j => { j with tag := none } } }
  hostResetChannels s

/-- PERST_N is asserted. -/
def perstAssert (s : State) : State :=
  if s.host.inReset then s
  else
    let s := { s with host := { s.host with inReset := true, linkUp := false, d0 := false, busMaster := false } }
    receiversDown (resetEndpoint s) [6, 7, 8, 9]

/-- The endpoint answers configuration requests: the core runs and the colophon's tests have passed (R331, R389, R407, R408). -/
def endpointAnswers (s : State) : Bool := s.startup.railsUp && !s.startup.bootStopped

/-- PERST_N is released: once the endpoint answers, the link trains and PF0 is in D0. -/
def perstRelease (s : State) : State :=
  if !s.host.inReset then s
  else
    let s := { s with host := { s.host with inReset := false, linkUp := endpointAnswers s, d0 := endpointAnswers s } }
    [6, 7, 8, 9].foldl (fun s c => if channelFull s c && (channelAt s c).inReceiverReset then discardMessage s c 1 else s) s

/-- A reset of the endpoint over a link that stays: a hot reset or an FLR of PF0. Bus Master Enable returns to 0. -/
def endpointReset (s : State) : State :=
  if s.host.inReset then s
  else receiversDown (resetEndpoint { s with host := { s.host with busMaster := false } }) [6, 7, 8, 9]

/-! ### The commands -/

/-- PERST_N: the pin is asserted or released (R331, R332). -/
def execPerstN (asserted : Bool) (s : State) : Res := done (if asserted then perstAssert s else perstRelease s)

/-- HOT_RESET: a hot reset of the endpoint (R332). -/
def execHotReset (s : State) : Res := done (endpointReset s)

/-- FLR_PF0: a function-level reset of PF0 (R332). -/
def execFlrPf0 (s : State) : Res := done (endpointReset s)

/-- FLR_PF1: PF1's configuration space and vectors are reset; the state holds neither (R332). -/
def execFlrPf1 (s : State) : Res := done s

/-- DOORBELL: a write to a doorbell page (R336). -/
def execDoorbell (page : Fin 256) (value : Word32) (s : State) : Res := done (doorbell s page value.toNat)

/-- TX_FRAME_FETCH: a ring fetches a posted frame (R338). -/
def execTxFrameFetch (ring : Fin 64) (descriptors : List (List Nat)) (data : List Byte) (dmaOk : Bool) (s : State) : Res :=
  done (txFetch s ring descriptors data dmaOk)

/-- RX_DELIVER: the waiting copy is delivered (R339, R340). -/
def execRxDeliver (buffers : List (Nat × Nat)) (dmaOk : Bool) (s : State) : Res :=
  done (match s.host.waiting with | none => s | some c => deliver s c buffers dmaOk)

/-- ITR_EXPIRY: a ring's vector is raised after its moderation time (R335). -/
def execItrExpiry (ring : Fin 136) (s : State) : Res := done (itrExpiry s ring)

/-- RING_ENABLE: RING_CONFIG.ENABLE is written 1 (R336, R344). -/
def execRingEnable (src : Source) (ring : Fin 136) (s : State) : Res :=
  done (guarded s src (ringBase ring + 8) fun s => ringEnable s ring)

/-- RING_DISABLE: RING_CONFIG.ENABLE is written 0 (R343). -/
def execRingDisable (src : Source) (ring : Fin 136) (s : State) : Res :=
  done (guarded s src (ringBase ring + 8) fun s => ringDisable s ring)

/-- RING_IDLE: the work of a disabled ring ends (R343). -/
def execRingIdle (ring : Fin 136) (commands : List (Nat × Nat)) (s : State) : Res := done (ringIdle s ring commands)

end Sys2Proof.Machine
end

