-- ==== Sys2Proof/Machine/TableDma.lean ====
section
/-! DEFINITION. The table DMA engine (R106, R107, R345 to R347): its commands and their completions. -/

namespace Sys2Proof.Machine

/-! ### The engine -/

/-- The engine can begin a command: ring 7 runs and holds one, the host serves, and every earlier command is complete. -/
def commandReady (s : State) : Bool :=
  ringOn s 135 && !ringHeld s 135 && 32 ≤ ringPosted s 135 && hostServes s && s.host.completions.isEmpty && !commandRuns s

/-- A command is taken from ring 7, and `act` gives its status, RESULT, DONE_COUNT and effect. -/
def tableCommand (s : State) (opcode tag : Nat) (act : State → (Nat × Nat × Nat) × State) : State :=
  if !commandReady s then s
  else
    let r := act (advanceHead s 135 32)
    complete r.2 opcode r.1.1 tag r.1.2.1 r.1.2.2

/-- A command that does nothing but complete with a status. -/
def refuses (status : Nat) (s : State) : (Nat × Nat × Nat) × State := ((status, 0, 0), s)

/-- COUNT, 0 acting as 1. -/
def countOf (n : Nat) : Nat := max 1 n

/-- The entries of a table, the rings in spill memory by their SIZE in 4 KiB units. -/
def entriesOf (s : State) (t : Nat) : Nat :=
  if t = 0x18 then rd s 0xE444 * 64 else if t = 0x19 then rd s 0xF048 * 64 else tableEntries t

/-- The slice whose tables hold an entry, if the table is a slice's. -/
def tableSlice (t i : Nat) : Option Nat :=
  if t = 0x08 ∨ t = 0x09 ∨ t = 0x0A then some (i / 2048) else if t = 0x0B then some (i / 256) else none

/-- A table access wakes the slices whose tables it reaches (R290). -/
def wakeTable (s : State) (t first n : Nat) : State :=
  (List.range 8).foldl (fun s k =>
    if (match tableSlice t first, tableSlice t (first + n - 1) with
        | some a, some b => a ≤ k && k ≤ b
        | _, _ => false) then wakeSlice s k else s) s

/-- The serialiser writes every request that it took before the command (R99, R106). -/
def settleLearning (s : State) : State := (List.range s.fdb.learnQ.length).foldl (fun s _ => learnTake s) s

/-- A failed host access of the engine: the error is counted and reported, and the command ends with DMA_ERROR. -/
def dmaRefuses (s : State) : (Nat × Nat × Nat) × State := ((9, 0, 0), hostDmaFails s [135])

/-- Only an ACTIVE device changes its FDB by command (R267). -/
def fdbStandby (s : State) (t : Nat) : Bool := t == 2 && role s ≠ 3

/-! ### READ and WRITE -/

/-- READ of `n` entries into host memory. -/
def readEntries (s : State) (t : Nat) (applied : Bool) (first n addr : Nat) (dmaOk : Bool) : (Nat × Nat × Nat) × State :=
  if 0x19 < t then refuses 7 s
  else if entriesOf s t < first + n then refuses 8 s
  else
    let s := wakeTable (if t = 2 then settleLearning s else s) t first n
    if !dmaOk then dmaRefuses s
    else
      let w := tableBytes t
      ((0, 0, n), (List.range n).foldl (fun s k =>
        emit s (.hostWrite (addr + k * w) (leBytes w (entryImage s applied t (first + k))))) s)

/-- WRITE of one FDB slot (R106): its status, 0 when it is done. -/
def fdbSlotWrite (s : State) (slot : Nat) (v : Nat) : Nat × State :=
  if !fdbValid v then (0, fdbRemove s slot)
  else if slot ∉ fdbSlots s (fdbFid v) (fdbMac v) then (2, s)
  else match fdbFind s (fdbFid v) (fdbMac v) with
    | some k => if k = slot then (0, fdbWrite s slot (kept v)) else (3, s)
    | none => (0, fdbWrite s slot (kept v))
where
  /-- HELD, AGE and MOVE_STAMP are 0 whatever is written. -/
  kept (v : Nat) : Nat := putBits (putBits (putBits v 124 124 0) 47 40 0) 39 16 0

/-- WRITE of entries from index `i` on; a refused FDB slot ends the command. `done` counts the entries written. -/
def writeEntries (s : State) (t : Nat) : Nat → Nat → List Image → (Nat × Nat × Nat) × State
  | _, n, [] => ((0, 0, n), s)
  | i, n, v :: l =>
    if t = 2 then
      match fdbSlotWrite s i v.toNat with
      | (0, s) => writeEntries s t (i + 1) (n + 1) l
      | (status, s) => ((status, 0, n), s)
    else writeEntries (writeEntry s t i v) t (i + 1) (n + 1) l

/-- WRITE of entries from host memory. -/
def tableWrite (s : State) (t first : Nat) (images : List Image) (dmaOk : Bool) : (Nat × Nat × Nat) × State :=
  if 0x19 < t ∨ tableReadOnly t then refuses 7 s
  else if entriesOf s t < first + images.length then refuses 8 s
  else if fdbStandby s t then refuses 6 s
  else
    let s := wakeTable (if t = 2 then settleLearning s else s) t first images.length
    if !dmaOk then dmaRefuses s else writeEntries s t first 0 images

/-! ### Commands by key (R71, R106) -/

/-- INSERT of an FDB entry. -/
def fdbInsert (s : State) (v : Nat) : (Nat × Nat × Nat) × State :=
  let fid := fdbFid v
  let mac := fdbMac v
  let dest := fdbDest v
  let e := freshEntry s (2 ^ 127 + bit (fdbStatic v) * 2 ^ 126 + bit (fdbLocked v) * 2 ^ 125) fid mac dest
  match fdbFind s fid mac with
  | some slot => ((0, slot, 1), fdbWrite s slot e)
  | none =>
    match fdbPlace s fid mac with
    | none => refuses 4 s
    | some (slot, false) => ((0, slot, 1), fdbWrite s slot e)
    | some (slot, true) => ((1, slot, 1), fdbWrite (evictEvent s 9 slot dest 0x7F) slot e)

/-- INSERT of a subscriber map entry: always valid, its reserved bits 0. -/
def mapInsert (s : State) (v : Nat) : (Nat × Nat × Nat) × State :=
  let e := BitVec.ofNat 512 (2 ^ 63 + bits v 62 16 * 2 ^ 16)
  match mapSlot s (bits v 62 30) with
  | some slot => ((0, slot, 1), setTab s 6 slot e)
  | none =>
    match (mapSlots (bits v 62 30)).find? fun i => !bitAt (tabN s 6 i) 63 with
    | none => refuses 4 s
    | some slot => ((0, slot, 1), setTab s 6 slot e)

/-- A command by key on the FDB, or on the subscriber map where `map` gives its effect. -/
def keyed (s : State) (t : Nat) (dmaOk : Bool) (fdb : State → (Nat × Nat × Nat) × State)
    (map : Option (State → (Nat × Nat × Nat) × State)) : (Nat × Nat × Nat) × State :=
  if t = 2 then
    if fdbStandby s t then refuses 6 s
    else
      let s := settleLearning s
      if dmaOk then fdb s else dmaRefuses s
  else match map with
    | some f => if t ≠ 6 then refuses 7 s else if dmaOk then f s else dmaRefuses s
    | none => refuses 7 s

/-- DELETE of an FDB entry. -/
def fdbDelete (s : State) (v : Nat) : (Nat × Nat × Nat) × State :=
  match fdbFind s (fdbFid v) (fdbMac v) with
  | none => refuses 5 s
  | some slot => ((0, 0, 1), fdbRemove s slot)

/-- DELETE of a subscriber map entry. -/
def mapDelete (s : State) (v : Nat) : (Nat × Nat × Nat) × State :=
  match mapSlot s (bits v 62 30) with
  | none => refuses 5 s
  | some slot => ((0, 0, 1), setTab s 6 slot 0)

/-- LOCK and UNLOCK set or clear LOCK alone. -/
def fdbLock (s : State) (v : Nat) (lock : Bool) : (Nat × Nat × Nat) × State :=
  match fdbFind s (fdbFid v) (fdbMac v) with
  | none => refuses 5 s
  | some slot => ((0, 0, 1), fdbWrite s slot (putBits (fdbEntry s slot) 125 125 (bit lock)))

/-! ### FLUSH -/

/-- FLUSH starts a walk; its completion follows the walk. DESIGN CHOICE (log 19): FILTER 0b11, which R345 does not list, is a
BAD_COMMAND. -/
def flushCommand (s : State) (t tag : Nat) (static : Bool) (filter value : Nat) : State :=
  if !commandReady s then s
  else
    let s := advanceHead s 135 32
    if t ≠ 2 ∨ filter = 3 then complete s 7 7 tag 0 0
    else if fdbStandby s t then complete s 7 6 tag 0 0
    else flushBegin (settleLearning s) filter value static (some tag) none

/-! ### The commands -/

/-- READ: table entries to host memory (R345). -/
def execRead (table tag : Nat) (applied : Bool) (index count hostAddr : Nat) (dmaOk : Bool) (s : State) : Res :=
  done (tableCommand s 1 tag fun s => readEntries s table applied index (countOf count) hostAddr dmaOk)

/-- WRITE: table entries from host memory (R345). -/
def execWrite (table tag index count : Nat) (images : List Image) (dmaOk : Bool) (s : State) : Res :=
  sized (images.length == countOf count) (tableCommand s 2 tag fun s => tableWrite s table index images dmaOk)

/-- INSERT: an entry by key (R71, R106). -/
def execInsert (table tag : Nat) (image : Image) (dmaOk : Bool) (s : State) : Res :=
  done (tableCommand s 3 tag fun s =>
    keyed s table dmaOk (fun s => fdbInsert s image.toNat) (some fun s => mapInsert s image.toNat))

/-- DELETE: an entry by key (R71, R106). -/
def execDelete (table tag : Nat) (image : Image) (dmaOk : Bool) (s : State) : Res :=
  done (tableCommand s 4 tag fun s =>
    keyed s table dmaOk (fun s => fdbDelete s image.toNat) (some fun s => mapDelete s image.toNat))

/-- LOCK_ENTRY: an FDB entry's LOCK is set (R106). -/
def execLockEntry (table tag : Nat) (image : Image) (dmaOk : Bool) (s : State) : Res :=
  done (tableCommand s 5 tag fun s => keyed s table dmaOk (fun s => fdbLock s image.toNat true) none)

/-- UNLOCK: an FDB entry's LOCK is cleared (R106). -/
def execUnlock (table tag : Nat) (image : Image) (dmaOk : Bool) (s : State) : Res :=
  done (tableCommand s 6 tag fun s => keyed s table dmaOk (fun s => fdbLock s image.toNat false) none)

/-- FLUSH: a walk of the FDB removes matching entries (R106, R107). -/
def execFlush (table tag : Nat) (includeStatic : Bool) (filter : Fin 4) (value : BitVec 16) (s : State) : Res :=
  done (flushCommand s table tag includeStatic filter value.toNat)

/-- NOP: completes in order (R345). -/
def execNop (tag : Nat) (s : State) : Res := done (tableCommand s 0x0A tag fun s => ((0, 0, 0), s))

/-- TABLE_COMPLETION: a waiting completion record is written once ring 6 has room (R347). -/
def execTableCompletion (s : State) : Res :=
  done (match s.host.completions with
    | [] => s
    | c :: rest =>
      if eventRoom s 6 32 then writeCompletion { s with host := { s.host with completions := rest } } c else s)

end Sys2Proof.Machine
end

