-- ==== Sys2Proof/Machine/FwCmd.lean ====
section
/-! DEFINITION. Firmware's handling of mailbox commands (R360 to R364): taking and checking them, and what each command does and
answers. A command row acts for the taken command of one inbound channel. -/

namespace Sys2Proof.Machine

/-! ### Responses -/

/-- The command that firmware has taken from inbound channel `k` and not answered. -/
def commandOf (s : State) (k : Nat) : Option FwCommand := s.firmware.commands.find? fun c => c.channel == k

/-- OPCODE of a command. -/
def opcodeOf (c : FwCommand) : Nat := bits (nth c.words 0) 23 16

/-- Firmware composes a message on outbound channel `k` and posts it (R351). -/
def postOutbound (s : State) (k : Nat) (words : List Nat) : State :=
  let s := (List.range 16).foldl (fun s i => wr s (channelBase (k + 6) + i * 4) (nth words i)) s
  channelGo s (k + 6)

/-- The response to a command with its header, result, detail and result words (R361). -/
def answer (s : State) (k head result detail : Nat) (results : List Nat) : State :=
  let n := 1 + results.length
  postOutbound s k ((2 ^ 28 + n * 2 ^ 24 + (bits head 23 16 ||| 0x80) * 2 ^ 16 + bits head 15 8 * 2 ^ 8) ::
    (result * 2 ^ 24 + detail) :: results)

/-- Firmware answers the command of channel `k` and is done with it. -/
def respond (s : State) (c : FwCommand) (result detail : Nat) (results : List Nat) : State :=
  let s := { s with firmware := { s.firmware with commands := s.firmware.commands.filter fun d => d.channel != c.channel } }
  answer s c.channel (nth c.words 0) result detail results

/-- A long command is under way. -/
def markStarted (s : State) (c : FwCommand) : State :=
  { s with firmware := { s.firmware with
    commands := s.firmware.commands.map fun d => if d.channel = c.channel then { d with started := true } else d } }

/-- A command of opcode `op` of another channel is under way (R362). -/
def opRuns (s : State) (c : FwCommand) (op : Nat) : Bool :=
  s.firmware.commands.any fun d => d.channel != c.channel && d.started && opcodeOf d == op

/-! ### Taking and checking (R360, R361) -/

/-- The operand words of an opcode; none for an unknown one. -/
def operandWords (op : Nat) : Option Nat :=
  match op with
  | 0x01 => some 0 | 0x02 => some 1 | 0x03 => some 1 | 0x04 => some 6 | 0x05 => some 1 | 0x06 => some 1 | 0x07 => some 1
  | 0x08 => some 0 | 0x09 => some 0 | 0x0A => some 0 | 0x0B => some 1 | 0x0C => some 2 | _ => none

/-- The channel may carry the opcode: H channels every one, B_0 and M_0 those that the command table names. -/
def channelAllows (k op : Nat) : Bool :=
  k < 4 || op ∈ [0x01, 0x05, 0x08, 0x0A] || (k = 4 && (op = 0x09 || op = 0x0B))

/-- The first failure of the checks of R361, as RESULT and DETAIL. -/
def checkCommand (s : State) (k : Nat) (words : List Nat) : Option (Nat × Nat) :=
  let h := nth words 0
  if bits h 31 28 ≠ 1 then some (1, 1)
  else if bits h 7 0 ≠ channelEpoch s k then some (0xB, bits h 7 0)
  else match operandWords (bits h 23 16) with
    | none => some (2, 0)
    | some n =>
      if !channelAllows k (bits h 23 16) then some (5, 0)
      else if bits h 27 24 < n then some (3, 0) else none

/-- Firmware may take a command from inbound channel `k`. -/
def takeable (s : State) (k : Nat) : Bool := channelFull s k && !channelFull s (k + 6) && (commandOf s k).isNone

/-- Firmware takes a command from channel `k`: it is refused, or waits to be carried out. -/
def takeCommand (s : State) (k : Nat) : State :=
  let words := (channelAt s k).posted
  let s := (channelTake s k).2
  let s := { s with firmware := { s.firmware with nextChannel := (k + 1) % 6 } }
  match checkCommand s k words with
  | some (result, detail) => answer s k (nth words 0) result detail []
  | none => { s with firmware := { s.firmware with commands := s.firmware.commands ++ [{ channel := k, words }] } }

/-- Firmware serves the inbound channels in rotation. -/
def serveChannels (s : State) : State :=
  if !s.firmware.running then s
  else
    match ((List.range 6).map fun i => (s.firmware.nextChannel + i) % 6).find? (takeable s) with
    | none => s
    | some k => takeCommand s k

/-- The command of channel `k`, if it has opcode `op`, is carried out by `act`. -/
def commandStep (s : State) (k op : Nat) (act : FwCommand → State) : State :=
  match commandOf s k with
  | none => s
  | some c => if s.firmware.running ∧ opcodeOf c = op then act c else s

/-! ### Knobs -/

/-- A knob command commits what `stage` stages, or answers COMMIT_BUSY (R21, R364). -/
def knobCommand (s : State) (c : FwCommand) (preset : Nat) (stage : State → State) : State :=
  match commitKnobs s preset stage with
  | none => respond s c 7 0 []
  | some (e, s) => respond s c 0 0 [e]

/-! ### SPILL_ENABLE (R176, R184, R188, R364) -/

/-- The layout that the operands give port `p`: regions of pools 0 to 2, capture ring, trace ring, in GiB. -/
def layoutOperand (c : FwCommand) (p : Nat) : List Nat :=
  let ringGib := fun (w : Nat) => if bits w 17 16 = p then bits w 15 0 else 0
  [nth c.words 4, nth c.words 5, nth c.words 6, ringGib (nth c.words 2), ringGib (nth c.words 3)]

/-- The ports of a four-bit mask. -/
def maskPorts (m : Nat) : List Nat := (List.range 4).filter fun p => bitAt m p

/-- Ports to enable and to drain. -/
def enableMask (c : FwCommand) : Nat := bits (nth c.words 1) 3 0
def drainMask (c : FwCommand) : Nat := bits (nth c.words 1) 7 4

/-- The layout of a port in force, if it has been laid out. -/
def layoutAt (s : State) (p : Nat) : List Nat := sget (fun _ => []) s.firmware.layouts p

/-- Ports whose layout would change while they hold sheets. -/
def layoutBlocked (s : State) (c : FwCommand) : Nat :=
  (maskPorts (enableMask c)).foldl (fun m p =>
    if layoutAt s p ≠ [] ∧ layoutAt s p ≠ layoutOperand c p ∧ sheetsHeld s p ≠ 0 then m + 2 ^ p else m) 0

/-- The port places sheets, and its layout is the wanted one. -/
def placesAs (s : State) (c : FwCommand) (p : Nat) : Bool :=
  flag s 0x404040 (28 + p) && layoutAt s p == layoutOperand c p

/-- A READY port of the mask whose layout leaves no sheet. -/
def layoutMisfits (s : State) (c : FwCommand) : Bool :=
  (maskPorts (enableMask c)).any fun p => cxlState s p == 3 && !placesAs s c p &&
    !layoutFits (fld s (cxlReg p 0x4C) 10 0) (layoutOperand c p)

/-- One port is brought to READY and laid out; a READY one at once. A layout that stays keeps the partitions it has. -/
def bringPort (c : FwCommand) (s : State) (p : Nat) : State :=
  let s0 := s
  if placesAs s c p then s
  else
    let s := clearPlace s p
    let s := { s with firmware := { s.firmware with layouts := sset (fun _ => []) s.firmware.layouts p (layoutOperand c p) } }
    if cxlState s p ≠ 3 then cxlEnable s p true
    else if layoutAt s0 p = layoutOperand c p ∧ placeable s p then setPlace s (fld s 0x404040 31 28 ||| 2 ^ p)
    else layoutPort s p

/-- The ports of a mask that satisfy `f`. -/
def portsWhere (f : Nat → Bool) : Nat := (List.range 4).foldl (fun m p => if f p then m + 2 ^ p else m) 0

/-- Every named port is placing or FAILED: the response. A port that became READY with a capacity its layout does not fit is
BAD_OPERAND. -/
def spillSettled (s : State) (c : FwCommand) : State :=
  if layoutMisfits s c then respond s c 4 0 []
  else if (maskPorts (enableMask c)).all fun p => flag s 0x404040 (28 + p) || cxlState s p == 4 then
    let failed := portsWhere fun p => cxlState s p == 4
    respond s c (if failed &&& enableMask c = 0 then 0 else 9) 0
      ((portsWhere (fun p => flag s 0x404040 (28 + p)) + failed * 16) :: (List.range 4).map fun p => rd s (cxlReg p 0x48))
  else s

/-- SPILL_ENABLE: begun on its first occurrence, answered when the ports have settled. -/
def spillEnable (s : State) (c : FwCommand) : State :=
  if c.started then spillSettled s c
  else if opRuns s c 4 then respond s c 6 0 []
  else if enableMask c &&& drainMask c ≠ 0 then respond s c 4 0 []
  else if layoutBlocked s c ≠ 0 then respond s c 8 (layoutBlocked s c) []
  else if layoutMisfits s c then respond s c 4 0 []
  else
    let s := (maskPorts (drainMask c)).foldl clearPlace (markStarted s c)
    spillSettled ((maskPorts (enableMask c)).foldl (bringPort c) s) c

/-! ### TABLE_FLUSH and FDB_FLUSH_PORT -/

/-- Every entry of an unstaged or staged table is written to its reset value. -/
def clearTable (s : State) (t : Nat) : State := { s with tabs := skeep (fun k => k / 2 ^ 20 != t) s.tabs }

/-- The counters that hold something, or that an alarm watches: writing 0 to any other one changes nothing. -/
def heldCounters (s : State) : List Nat :=
  let keys := fun (m : Sparse Nat) => m.map (·.1)
  keys s.counters.wide ++ keys s.counters.delta ++ keys s.counters.written ++
    (List.range 32).map fun n => fld s (0xD100 + n * 16) 18 0

/-- The effect of writing every entry of table `t` to its reset value, with what such a write brings with it. -/
def flushTable (s : State) (t : Nat) : State :=
  let s := wakeTable s t 0 (tableEntries t)
  match t with
  | 0x0C => { (clearTable s t) with
      policing := { s.policing with active := [], trueUps := [] }
      frames := s.frames.map fun e => (e.1, { e.2 with debits := [] }) }
  | 0x0D => if standsBy s then s else { s with policing := { s.policing with bucketA := [], bucketB := [] } }
  | 0x12 => { s with sched := { s.sched with bucketA := [], bucketB := [], deficit := [] } }
  | 0x17 => (heldCounters s).foldl (fun s i => setCounter s i 0) s
  | _ => clearTable s t

/-- TABLE_FLUSH. That of the FDB is answered when its walk completes. -/
def tableFlush (s : State) (c : FwCommand) : State :=
  let t := bits (nth c.words 1) 7 0
  if 0x17 < t ∨ tableReadOnly t then respond s c 4 0 []
  else if t ≠ 2 then respond (flushTable s t) c 0 0 [tableEntries t]
  else if c.started then s
  else if role s ≠ 3 then respond s c 0xA 0 []
  else flushBegin (settleLearning (markStarted s c)) 2 0 (bitAt (nth c.words 1) 8) none (some c.channel)

/-- FDB_FLUSH_PORT. -/
def flushPort (s : State) (c : FwCommand) : State :=
  let p := bits (nth c.words 1) 6 0
  if c.started then s
  else if 63 < p then respond s c 4 0 []
  else if role s ≠ 3 then respond s c 0xA 0 []
  else flushBegin (settleLearning (markStarted s c)) 0 (flushPortValue s p) false none (some c.channel)

/-- The oldest flush walk completes, its last slots with it: its completion record, or the response of its command. -/
def flushWalkDone (s : State) : State :=
  match s.fdb.flushes with
  | [] => s
  | j :: _ =>
    let (j, s) := flushWalk s j 524288
    let s := flushEnds s
    match j.tag, j.channel with
    | some tag, _ => complete s 7 0 tag j.removed j.removed
    | none, some k => (match commandOf s k with | some c => respond s c 0 0 [j.removed] | none => s)
    | none, none => s

/-! ### Twin, health, self-test -/

/-- TWIN_HANDOVER: refused, or answered when the handover ends. -/
def twinHandover (s : State) (c : FwCommand) : State :=
  if c.started then
    (if s.twin.handover = .none then respond s c 0 0 [fld s 0x604C 22 20] else s)
  else if opRuns s c 9 then respond s c 6 0 []
  else
    match handoverRefused s with
    | 0 => markStarted (handoverStart s) c
    | cause => respond (handoverStart s) c 8 cause []

/-- The status bits that a selection of self-tests can set: slices, scrub, spill, eye. -/
def selftestBits (selected : Nat) : List Nat :=
  (if bitAt selected 0 then (List.range 8).map (24 + ·) else []) ++ (if bitAt selected 1 then [22] else []) ++
    (if bitAt selected 2 then [23] else []) ++ (if bitAt selected 3 then [21] else [])

/-- SELFTEST_RUN with the outcome of each test, laid out as TWIN_SELFTEST_STATUS. DESIGN CHOICE (log 24): the run and its end are one
command, so that no two runs meet. -/
def selftestRun (s : State) (c : FwCommand) (results : Nat) : State :=
  let w := bits (nth c.words 1) 3 0
  if w = 0 then respond s c 4 0 []
  else if (bitAt w 0 || bitAt w 2) && !standsBy s then respond s c 8 (role s) []
  else
    let failed := (selftestBits w).filter fun k => bitAt results k
    let s := if bitAt w 0 then
        { s with twin := { s.twin with passed := (255 ^^^ bits results 31 24) } } else s
    let s := failed.foldl selftestFail s
    respond s c (if failed.isEmpty then 0 else 9) 0 [rd s 0x6058]

/-! ### LIFECYCLE_ADVANCE (R191, R398, R399) -/

/-- The ports recorded as sanitised, and those that are not. -/
def sanitizedWord (s : State) : Nat :=
  portsWhere (fun p => sget zeroNat s.firmware.sanitized p == 1) +
    portsWhere (fun p => 2 ≤ sget zeroNat s.firmware.sanitized p) * 16

/-- OTP takes the new state: keys go as the transition says, and the warm reset follows 1 ms after the response. -/
def lifecycleWrite (s : State) (c : FwCommand) (target : Nat) : State :=
  let s := zeroiseKeys s
  let s := { s with colophon := { s.colophon with
    lifecycle := target
    ownerRevoked := s.colophon.ownerRevoked || (3 ≤ target && s.colophon.ownerDigest.isSome)
    identity := s.colophon.identity && target ≠ 4 } }
  let s := respond s c 0 0 [target, sanitizedWord s]
  { s with errors := { s.errors with resetAt := some (now s + 1000000, 8) } }

/-- The sanitisation has ended on every port: the state is written to OTP. -/
def lifecycleFinish (s : State) (c : FwCommand) (target : Nat) (otpOk : Bool) : State :=
  if (List.range 4).any fun p => cxlState s p == 5 then s
  else if otpOk ∧ s.colophon.lifecycle < target then lifecycleWrite s c target
  else respond s c 9 0 [s.colophon.lifecycle, sanitizedWord s]

/-- LIFECYCLE_ADVANCE: checked and begun on its first occurrence, completed when every present port has finished. -/
def lifecycleAdvance (s : State) (c : FwCommand) (otpOk : Bool) : State :=
  let target := bits (nth c.words 1) 2 0
  if c.started then lifecycleFinish s c target otpOk
  else if s.firmware.commands.any fun d => d.channel != c.channel && d.started && opcodeOf d ∈ [4, 9, 0xB, 0xC] then respond s c 6 0 []
  else if nth c.words 1 ^^^ nth c.words 2 ≠ 0xFFFFFFFF ∨ target < 2 ∨ 4 < target ∨ target ≤ s.colophon.lifecycle then
    respond s c 4 0 []
  else if !standsBy s then respond s c 8 1 []
  else if s.colophon.debugByToken then respond s c 8 2 []
  else
    let s := markStarted s c
    let s := if 3 ≤ target then (List.range 4).foldl startSanitize s else s
    lifecycleFinish s c target otpOk

/-! ### The commands -/

/-- FIRMWARE_TAKE_COMMAND: firmware takes a command from its inbound channels (R360, R361). -/
def execFirmwareTakeCommand (s : State) : Res := done (serveChannels s)

/-- FW_VERSION (R363). -/
def execFwVersion (channel : Fin 6) (s : State) : Res :=
  done (commandStep s channel 1 fun c => respond s c 0 0 [s.firmware.version, s.firmware.patchVersion,
    fld s 0x2080 29 29 * 2 ^ 31 + min 128 s.colophon.antiRollback, 1])

/-- PROFILE_SET (R20, R21, R363). -/
def execProfileSet (channel : Fin 6) (s : State) : Res :=
  done (commandStep s channel 2 fun c =>
    let k := bits (nth c.words 1) 1 0
    if k = 0 then respond s c 4 0 [] else knobCommand s c k fun s => stagePreset s k)

/-- POWER_ENVELOPE_SET (R21, R363, R364). -/
def execPowerEnvelopeSet (channel : Fin 6) (s : State) : Res :=
  done (commandStep s channel 3 fun c =>
    let v := bits (nth c.words 1) 8 0
    if v < 40 ∨ 340 < v then respond s c 4 0 [] else knobCommand s c 0 fun s => setFld s 0x3040 8 0 v)

/-- SPILL_ENABLE (R364). -/
def execSpillEnable (channel : Fin 6) (s : State) : Res := done (commandStep s channel 4 fun c => spillEnable s c)

/-- CXL_STATUS (R363). -/
def execCxlStatus (channel : Fin 6) (s : State) : Res :=
  done (commandStep s channel 5 fun c =>
    let p := bits (nth c.words 1) 1 0
    respond s c 0 0 [rd s (cxlReg p 0x48), rd s (cxlReg p 0x4C), rd s (cxlReg p 0x50), sheetsHeld s p,
      sget zeroNat s.firmware.sanitized p, rd s (cxlReg p 0xB0)])

/-- TABLE_FLUSH (R364). -/
def execTableFlush (channel : Fin 6) (s : State) : Res := done (commandStep s channel 6 fun c => tableFlush s c)

/-- FDB_FLUSH_PORT (R107, R364). -/
def execFdbFlushPort (channel : Fin 6) (s : State) : Res := done (commandStep s channel 7 fun c => flushPort s c)

/-- FDB_FLUSH_COMPLETE: an FDB flush walk completes (R107). -/
def execFdbFlushComplete (s : State) : Res := done (flushWalkDone s)

/-- TWIN_STATUS (R363). -/
def execTwinStatus (channel : Fin 6) (s : State) : Res :=
  done (commandStep s channel 8 fun c =>
    respond s c 0 0 [rd s 0x604C, rd s 0x6050, rd s 0x605C, rd s 0x6060, rd s 0x6064])

/-- TWIN_HANDOVER (R282, R364). -/
def execTwinHandover (channel : Fin 6) (s : State) : Res := done (commandStep s channel 9 fun c => twinHandover s c)

/-- HEALTH_GET (R285, R363). -/
def execHealthGet (channel : Fin 6) (s : State) : Res :=
  done (commandStep s channel 0xA fun c => respond s c 0 0 (healthBody s))

/-- SELFTEST_RUN (R286, R364). -/
def execSelftestRun (channel : Fin 6) (results : BitVec 32) (s : State) : Res :=
  done (commandStep s channel 0xB fun c => selftestRun s c results.toNat)

/-- LIFECYCLE_ADVANCE (R191, R364, R399). -/
def execLifecycleAdvance (channel : Fin 6) (otpOk : Bool) (s : State) : Res :=
  done (commandStep s channel 0xC fun c => lifecycleAdvance s c otpOk)

end Sys2Proof.Machine
end

