-- ==== Sys2Proof/Machine/Startup.lean ====
section
/-! DEFINITION. Power-up, resets and supply loss (R405 to R413, R438, R447), device-fatal errors and the sentinel (R420, R421), the error
log (R417, R418), and the rescue operations (R404). -/

namespace Sys2Proof.Machine

/-! ### Steps 5 to 8 of power-up (R407, R411) -/

/-- The device is in service: step 8 of power-up has been reached. -/
def inService (s : State) : Bool :=
  s.startup.railsUp && !s.startup.resetting && !s.startup.bootStopped && !s.startup.bistFailed

/-- The generators of a slice are seeded: that of mirror sampling and that of the tracer (R319, R326). -/
def seedSlice (s : State) (i : Nat) : State :=
  drawn (drawn (setSlice s i { sliceAt s i with
    sampler := (Config.sampleSeed s.freeCount).toNat, tracer := (Config.sampleSeed (s.freeCount + 1)).toNat }))

/-- Step 9: with PERST_N high the endpoint answers configuration requests (R407, R331). A device warm reset keeps the link it finds. -/
def endpointReady (s : State) : State :=
  if s.host.inReset ∨ s.host.linkUp then s else { s with host := { s.host with linkUp := true, d0 := true } }

/-- Step 8: the watchdog counts, and every page is READY. The first debug nonce is drawn (R400). A power alert that is still asserted
caps the clock again (R297). -/
def startService (s : State) : State :=
  let s := endpointReady (drawNonce ((List.range 8).foldl seedSlice (watchdogRestart s)))
  if s.power.alert then emergencyCap s else s

/-- Step 5 fails (R389): ERROR_STATE, FAULT_N, and the boot stops. -/
def colophonFails (s : State) : State :=
  let s := { s with startup := { s.startup with bootStopped := true } }
  setFault (report (raise (setFlag s 0x1040 27 true) .colophon 2) 0x0801 .colophon []) 28

/-- Step 7 fails (R408): BIST_FAIL, and only the always-on page answers, over I²C and over PF0 once the endpoint is ready. -/
def bistFails (s : State) : State :=
  endpointReady (setFault (report { s with startup := { s.startup with bistFailed := true } } 0x0802 .alwaysOn []) 26)

/-- Steps 5 to 8, with step 7 where `bist` gives its outcome. -/
def startSteps (s : State) (colophonOk : Bool) (bist : Option Bool) : State :=
  let s := { s with startup := { s.startup with resetting := false } }
  if !colophonOk then colophonFails s
  else
    let s := setFlag s 0x1040 28 true
    if bist = some false then bistFails s else startService s

/-! ### Power-up (R407) -/

/-- What outlives the loss of every supply: OTP, the level at PERST_N, the queue of commands, and the model's own fields. -/
def unpowered (s : State) : State :=
  { State.reset with pending := s.pending, out := s.out, freeCount := s.freeCount, colophon := keptColophon s.colophon,
                     host := { inReset := s.host.inReset } }

/-- TWIN_SEAT is sampled. -/
def sampleSeat (s : State) (seatB : Bool) : State := setFlag { s with pins := { s.pins with seatB } } 0x604C 24 seatB

/-- TWIN_PRESENT_OUT_N is driven low, or is high impedance (R257, R407). -/
def drivePresent (s : State) (on : Bool) : State :=
  if s.pins.present = on then s else emit { s with pins := { s.pins with present := on } } (.pin "TWIN_PRESENT_OUT_N" 0 (!on))

/-- Steps 1 and 2. -/
def powerUp (s : State) (seatB : Bool) (addr : Nat) : State :=
  if s.startup.aonUp then s
  else
    let s := sampleSeat { (unpowered s) with
      startup := { aonUp := true }
      pins := { present := true, corePower := true, i2cAddress := 0x58 + addr } } seatB
    emit (emit s (.pin "TWIN_PRESENT_OUT_N" 0 false)) (.pin "CORE_PWR_EN" 0 true)

/-- Step 4: the time PLL locks, the timing island runs, and device time and steady time start at 0; what counts instants of steady
time starts again with it. -/
def startTime (s : State) : State :=
  let s := if s.twin.releaseAt.isSome then dropClaim s else s
  setFlag { s with
    clock := {}, fdb := {}
    policing := { s.policing with refills := 0 }
    sched := { s.sched with refills := [0, 0, 0, 0] }
    power := { s.power with coolSince := 0, relaxSince := 0 }
    startup := { s.startup with island := true, lastDequeue := 0, lastTimestamp := 0 } } 0x4078 31 true

/-- Steps 3 to 8; where the timing island has run on, as in deep standby, device time runs on too (R299). -/
def railsInRange (s : State) (colophonOk bistOk : Bool) : State :=
  if !s.startup.aonUp ∨ s.startup.railsUp ∨ s.power.inStandby then s
  else
    let s := drivePresent { s with startup := { s.startup with railsUp := true } } true
    startSteps (if s.startup.island then s else startTime s) colophonOk (some bistOk)

/-! ### Device resets (R406, R410 to R412) -/

/-- A device warm reset starts, with its cause: absorbed while one runs. In deep standby it is a wake (log 18). Only RESET_REQ and cold
reset leave recovery (DEDUCED, log 25). -/
def beginReset (s : State) (cause : Nat) : State :=
  if s.power.inStandby then leaveStandby s cause
  else if s.startup.resetting ∨ !s.startup.railsUp then s
  else
    let s := if cause = 4 then { s with startup := { s.startup with recovery := false } } else s
    wipeDevice (tally (wr s 0x2090 cause) 0x20A8)

/-- BIST runs in a warm reset only for the causes WATCHDOG and DEVICE_FATAL. -/
def bistRuns (s : State) : Bool := rd s 0x2090 == 5 || rd s 0x2090 == 6

/-- A device warm reset: it starts unless it runs already, and its steps 5 to 8 follow. -/
def warmReset (s : State) (cause : Nat) (colophonOk bistOk : Bool) : State :=
  let s := if 3 ≤ cause ∧ cause ≤ 8 then beginReset s cause else s
  if coreRuns s ∨ !s.startup.railsUp then s else startSteps s colophonOk (if bistRuns s then some bistOk else none)

/-- What a cold reset leaves: OTP, the always-on supplies, and a claim on its way to release. -/
def coldWiped (s : State) : State :=
  let s' := leaveService s fun _ => false
  { (unpowered s') with
    regs := sset resetWord s'.regs 0x2080 0
    twin := { releaseAt := s'.twin.releaseAt.map fun _ => 200 }
    pins := { present := s'.pins.present, seatB := s'.pins.seatB, corePower := true, i2cAddress := s'.pins.i2cAddress }
    startup := { aonUp := true } }

/-- A cold reset: everything except OTP is wiped, and power-up follows from step 3. -/
def coldReset (s : State) (cause : Nat) (seatB : Bool) : State :=
  if !s.startup.aonUp then s
  else
    let s := if bits (rd s 0x2094) 31 25 = 0 then s else emit s (.pin "FAULT_N" 0 true)
    let s := if s.pins.corePower then s else emit s (.pin "CORE_PWR_EN" 0 true)
    sampleSeat (wr (coldWiped s) 0x2090 cause) seatB

/-- A low pulse of SYS_RESET_N of `ns`, at its end. -/
def sysReset (s : State) (ns : Nat) : State :=
  if ns < 1000 ∨ !s.startup.aonUp then s
  else if 200000000 ≤ ns then coldReset s 2 s.pins.seatB
  else if s.power.inStandby then leaveStandby s 9
  else beginReset s 3

/-! ### Slice reset (R410) -/

/-- SLICE_CONTROL.RESET of slice `i`. -/
def resetSlice (s : State) (i : Nat) : State :=
  let s := (slicePorts i).foldl resetPort s
  let s := showSleep (setSlice s i { idleSince := now s }) i
  switchSlice (seedSlice s i) i

/-! ### Supplies (R264, R438) -/

/-- A rail leaves range: 0 VDD_AON, 5 VDD_IO, the others in the order of R405. With either of those two the twin pins are high impedance at
once, so the claim is released without an idle step (R257, R264); with another rail it is released as in a device reset. -/
def supplyLost (s : State) (rail : Nat) : State :=
  if !s.startup.aonUp then s
  else
    let pinsLost : Bool := rail = 0 || rail = 5
    let s := if pinsLost && claims s then dropClaim (setFlag (setFlag s 0x604C 25 false) 0x6048 31 false) else s
    let s := if pinsLost then drivePresent s false else s
    if rail = 0 then unpowered s
    else if s.startup.railsUp then
      let s := wr (leaveService s standbyAddr) 0x2090 1
      { s with startup := { s.startup with railsUp := false, resetting := false, island := false }, host := { inReset := s.host.inReset } }
    else { s with startup := { s.startup with island := false } }

/-! ### Device-fatal errors (R420, R421) -/

/-- A device-fatal error of the catalogue that R420, R288, R300 or R390 contains. -/
def fatalError (s : State) (code : Nat) : State :=
  match code with
  | 0x0107 => deviceFatal s code 31 .sequencer []
  | 0x0902 => deviceFatal s code 31 .alwaysOn []
  | 0x0901 => if s.power.expired then s else watchdogExpires s
  | 0x0702 => if s.power.inStandby then s
              else thermalTrip s ((List.range 16).map fun k => BitVec.ofNat 8 (rd s (0x2058 + k / 4 * 4) / 256 ^ (k % 4)))
  | 0x0801 => entropyFailure s
  | _ => s

/-- A queue under an UP front port holds an eligible frame. -/
def eligibleWaits (s : State) : Bool :=
  (busyQueues s).any fun q =>
    match queuePort s q with
    | some p => p < 64 && portUp s p && eligibleAt s p (devNs s) q
    | none => false

/-- The progress sentinel's condition. The command stands for its 10 ms; what the state shows of them is checked. -/
def wedged (s : State) : Bool :=
  flag s 0x604C 25 && !flag s 0x2040 30 && s.startup.lastDequeue + 10000000 ≤ now s && eligibleWaits s

/-! ### The error log (R417, R418) -/

/-- The words of an error log record. -/
def errorWords (r : ErrRec) (sequence : Nat) : List Nat :=
  [2 ^ 28 + r.cls * 2 ^ 25 + r.level * 2 ^ 22 + r.code, r.type * 2 ^ 16 + r.number * 2 ^ 8, r.cycle, r.ns, r.sec] ++
    (r.detail ++ List.replicate 10 0).take 10 ++ [sequence]

/-- One record goes to ring 5, or is lost. -/
def logError (s : State) (r : ErrRec) : State :=
  let e := s.errors
  let s := { s with errors := { e with
    sequence := (e.sequence + 1) % 2 ^ 32, first := if e.first = some r then none else e.first } }
  if eventRoom s 5 64 then eventWrite s 5 (errorWords r e.sequence) else count s 5 1

/-- The latched error of a device-fatal reset goes first, once firmware runs and ring 5 is enabled; then the waiting records. -/
def logNext (s : State) : State :=
  let e := s.errors
  let waiting := fun (_ : Unit) => match e.waiting with
    | [] => s
    | r :: l => logError { s with errors := { e with waiting := l } } r
  match e.first with
  | some r =>
    if r ∈ e.waiting then waiting ()
    else if s.firmware.running ∧ flag s (0xC048 + 5 * 0x20) 31 then logError s r
    else waiting ()
  | none => waiting ()

/-! ### Rescue operations (R404) -/

/-- The eight status words of a rescue response. -/
def rescueStatus (s : State) : List Nat :=
  [colophonStatus s, rd s 0x2080, rd s 0x604C, putBits (rd s 0x204C) 15 0 (watchdogRemaining s), rd s 0x2054, rd s 0x3054,
    rd s 0x3050, cycleNo s]

/-- The frame of a rescue response, without its FCS. -/
def rescueFrame (s : State) (r : Rescue) : List Byte :=
  let serial := s.colophon.serial.toNat
  r.source ++ beBytes 1 2 ++ beBytes 5 serial ++ beBytes 2 0x88B5 ++ beBytes 4 0x4B545253 ++ beBytes 1 (r.op + 0x80) ++ beBytes 1 0 ++
    beBytes 2 r.sequence ++ beBytes 8 serial ++ (rescueStatus s).flatMap (beBytes 4)

/-- The response leaves ahead of queued data, where the port may send. -/
def rescueAnswer (s : State) (r : Rescue) : State :=
  let b := rescueFrame s r
  if portUp s r.port ∧ egressOpen s then emit s (.control r.port (b ++ fcsOf b)) else s

/-- The accepted frame at the front acts, if it came on port `p` with operation `op`. -/
def rescueStep (s : State) (p op : Nat) (act : State → Rescue → State) : State :=
  match s.rescues with
  | [] => s
  | r :: l => if r.port = p ∧ r.op = op then act { s with rescues := l } r else s

/-! ### The commands -/

/-- POWER_UP: VDD_AON enters range (R407). -/
def execPowerUp (seatB : Bool) (addr : Fin 4) (s : State) : Res := done (powerUp s seatB addr)

/-- CORE_RAILS_IN_RANGE: the last other rail enters range with SYS_RESET_N high (R407, R408). -/
def execCoreRailsInRange (colophonOk bistOk : Bool) (s : State) : Res := done (railsInRange s colophonOk bistOk)

/-- SYS_RESET_N: the pin was low for a time (R406). -/
def execSysResetN (lowNs : Nat) (s : State) : Res := done (sysReset s lowNs)

/-- WARM_RESET: a device warm reset runs (R410 to R412). -/
def execWarmReset (cause : Fin 256) (colophonOk bistOk : Bool) (s : State) : Res := done (warmReset s cause colophonOk bistOk)

/-- COLD_RESET (R410). -/
def execColdReset (cause : Fin 256) (seatB : Bool) (s : State) : Res :=
  done (if cause.val = 1 ∨ cause.val = 2 then coldReset s cause seatB else s)

/-- SLICE_RESET: SLICE_CONTROL.RESET (R410). -/
def execSliceReset (src : Source) (slice : Fin 8) (s : State) : Res :=
  done (guarded s src (0x10004C + slice * 0x20000) fun s => resetSlice s slice)

/-- SUPPLY_LOSS: a rail leaves range (R438). -/
def execSupplyLoss (rail : Fin 7) (s : State) : Res := done (supplyLost s rail)

/-- SENTINEL_WEDGE (R421). -/
def execSentinelWedge (s : State) : Res := done (if wedged s then fatalError s 0x0902 else s)

/-- DEVICE_FATAL: a device-fatal error is raised (R420). -/
def execDeviceFatal (code : BitVec 16) (s : State) : Res := done (fatalError s code.toNat)

/-- ERROR_LOG_RECORD: an error is written to the log (R417). -/
def execErrorLogRecord (s : State) : Res := done (logNext s)

/-- DELAYED_WARM_RESET: a warm reset 1 ms after a fatal release (R420) or after a life-cycle change (R398). -/
def execDelayedWarmReset (s : State) : Res :=
  match s.errors.resetAt with
  | some (t, cause) => done (if t ≤ now s then beginReset { s with errors := { s.errors with resetAt := none } } cause else s)
  | none => done s

/-- RESET_REQ: AO_CONTROL.RESET_REQ (R410). -/
def execResetReq (src : Source) (s : State) : Res := done (guarded s src 0x2040 fun s => beginReset s 4)

/-- STATUS_READ (R404). -/
def execStatusRead (port : Fin 64) (s : State) : Res := done (rescueStep s port 1 fun s r => rescueAnswer s r)

/-- DEVICE_RESET (R404). -/
def execDeviceReset (port : Fin 64) (s : State) : Res := done (rescueStep s port 2 fun s _ => beginReset s 7)

/-- RESCUE_TWIN_HANDOVER (R404). -/
def execRescueTwinHandover (port : Fin 64) (s : State) : Res :=
  done (rescueStep s port 3 fun s r => rescueAnswer (startRelease s) r)

/-- SLOT_SELECT (R404). -/
def execSlotSelect (port : Fin 64) (s : State) : Res :=
  done (rescueStep s port 4 fun s r => rescueAnswer (setFlag s 0x2080 30 (bitAt r.operand 0)) r)

end Sys2Proof.Machine
end

