-- ==== Sys2Proof/Machine/Shown.lean ====
section
/-! DEFINITION. What a read returns: registers whose word follows from other state, snapshots and applied copies (R311), the latches of
pairs and table windows (R30, R428), and the reads of PF1 (R317, R429, R430). -/

namespace Sys2Proof.Machine

/-! ### The header (R31, R425, R447) -/

/-- The page is in reset: the device is not in service, or a slice page's slice is not. -/
def pageInReset (s : State) (p : Page) : Bool :=
  match p with
  | .alwaysOn => !s.startup.aonUp
  | _ => heldInReset s p || !(s.startup.railsUp && !s.startup.bootStopped && !s.startup.bistFailed)

/-- PAGE_STATUS: READY and IN_RESET follow the page's level. -/
def pageStatus (s : State) (p : Page) : Nat :=
  putBits (putBits (rd s (p.base + 8)) 30 30 (bit (!pageInReset s p))) 28 28 (bit (pageInReset s p))

/-- The epoch that a page applies to newly arriving frames. -/
def pageEpoch (s : State) (p : Page) : Nat :=
  match p with
  | .slice i _ => sliceEpoch s i
  | _ => currentEpoch s

/-- A header word. -/
def shownHeader (s : State) (p : Page) (off : Nat) : Nat :=
  match off with
  | 0x08 => pageStatus s p
  | 0x18 => 0
  | 0x24 => pageEpoch s p
  | _ => rd s (p.base + off)

/-! ### Block registers -/

/-- A bit for each slice that satisfies `f`. -/
def sliceBits (f : Nat → Bool) : Nat := (List.range 8).foldl (fun m i => if f i then m + 2 ^ i else m) 0

/-- COMMIT_STATUS. -/
def commitStatus (s : State) : Nat :=
  let waits : Nat → Bool := fun i => match s.commit with | some c => c.waiting.contains i | none => false
  bit s.commit.isSome * 2 ^ 31 + bit (oldFrames s) * 2 ^ 30 + sliceBits (fun i => !waits i) * 2 ^ 16 + currentEpoch s

/-- A value that the spec leaves open and no command brings: a trained tap, an eye width, the partner's idle (log 12). -/
def openWord (s : State) : Nat := (Config.unstated s.freeCount).toNat % 2 ^ 32

/-- BUF_STATUS.ROT and SPILL_STATUS.POOL_ROT: 0 at core reset, and one further modulo 8 with each core clock (R140, R163). -/
def rotation (s : State) : Nat := s.clock.coreTenths / 10 % 8

/-- The front port that lane `l` serves now. -/
def lanePort (s : State) (l : Nat) : Option Nat :=
  (List.range 64).find? fun p => portState s p ≠ 0 && p ≤ l && l < p + (portAt s p).width

/-- The receivers of port `p` follow a partner that may be in Low Power Idle, which no command tells (R56). -/
def lpiReceives (s : State) (p : Nat) : Bool := lpiUsable s p

/-- Port `p` negotiates, or trains in the mode it has resolved, which no command tells (R48). -/
def negotiates (s : State) (p : Nat) : Bool :=
  portState s p == 1 && flag s (portReg p 0 0x40) 30 && fld s (laneReg p 0x44) 27 25 == 1

/-- The port status or the lane status at `a` shows a value that no command brings. -/
def linkOpen (s : State) (a : Nat) : Bool :=
  match pageAt a with
  | some (.port p 0) => a % 0x1000 == 0x4C && lpiReceives s p
  | some (.lane l) => a % 0x1000 == 0x44 && ((lanePort s l).any fun p => lpiReceives s p || negotiates s p)
  | _ => false

/-- Addresses at which a read draws a free value. -/
def drawsAt (s : State) (a : Nat) : Bool :=
  (a / 0x40000 = 0xC && (a % 0x1000 = 0x4C || a % 0x1000 = 0x50)) || linkOpen s a

/-- Sheets and index blocks of a flushed port's queues that are not yet released (FLUSH_STATUS.SHEETS_LEFT). -/
def sheetsLeft (s : State) (p : Nat) : Nat := (s.spill.releasing.filter fun e => e.1 == p).length

/-- Valid entries of the FDB. -/
def validEntries (s : State) : Nat := (s.tabs.filter fun e => e.1 / 2 ^ 20 == 2 && fdbValid e.2.toNat).length

/-- LANE_STATUS of lane `l`: LPI_RX of a port in Low Power Idle follows its partner, and a negotiation may have resolved, its lanes then in
training. -/
def shownLaneStatus (s : State) (l : Nat) : Nat :=
  let w := rd s (laneReg l 0x44)
  match lanePort s l with
  | none => w
  | some p =>
    if lpiReceives s p then putBits w 23 23 (openWord s)
    else if negotiates s p ∧ openWord s % 2 = 1 then putBits w 27 25 2 else w

/-- A lane register: its status, the taps in use, and the eye width of a running lane. -/
def shownLane (s : State) (l a : Nat) : Nat :=
  let b := a / 0x1000 * 0x1000
  let on := flag s (b + 0x44) 31
  if a % 0x1000 = 0x44 then shownLaneStatus s l
  else if a % 0x1000 = 0x4C then
    (if !on then 0 else if flag s (b + 0x40) 10 then rd s (b + 0x48) &&& 0x00FFFFFF else openWord s % 2 ^ 24)
  else if a % 0x1000 ≠ 0x50 then rd s a
  else if fld s (b + 0x44) 31 29 = 7 then putBits (rd s a) 7 0 (openWord s) else rd s a

/-- Leaves that the unfinished frames of an ingress port hold beyond their charge, as far as their bytes have come: they stand in
its overrun reserve until the frames end (R133). -/
def overrunUsed (s : State) (j : Nat) : Nat :=
  s.frames.foldl (fun n e =>
    if e.2.inPort == j && !e.2.ended then
      n + (ceilDiv e.2.bytes.length 256 - e.2.charge) * (e.2.refs.filter (· ≠ 0)).length
    else n) 0

/-- Registers of the buffer and spill pages that follow from counts. -/
def shownBuffer (s : State) (a : Nat) : Nat :=
  if a = 0x40004C then rotation s * 2 ^ 29 + sharedFree s
  else if a = 0x400050 then s.buffer.sharedUsed
  else if a = 0x400054 then sharedCapacity s
  else if a = 0x40005C then s.buffer.descriptors.length
  else if 0x401400 ≤ a ∧ a < 0x401608 then
    let j := (a - 0x401400) / 8
    (sget zeroNat s.buffer.headUsed j + overrunUsed s j) * 2 ^ 19 + sget zeroNat s.buffer.ingress j
  else if 0x402044 ≤ a ∧ a < 0x40224C ∧ a % 8 = 4 then sget zeroNat s.buffer.egress ((a - 0x402044) / 8)
  else if a = 0x40404C then
    rotation s * 2 ^ 29 + prefetchSheets s * 2 ^ 22 + (s.queues.filter fun e => e.2.spill.isSome).length
  else if a = 0x404050 then readsOutstanding s
  else if 0x404058 ≤ a ∧ a < 0x404068 then sheetsHeld s ((a - 0x404058) / 4)
  else if 0x406040 ≤ a ∧ a < 0x406240 ∧ (a - 0x406040) % 0x20 = 0xC then
    let v := partAt s ((a - 0x406040) / 0x80) ((a - 0x406040) / 0x20 % 4)
    v.ring + v.cache.length
  else if 0x406040 ≤ a ∧ a < 0x406240 ∧ (a - 0x406040) % 0x20 = 0x10 then
    (partAt s ((a - 0x406040) / 0x80) ((a - 0x406040) / 0x20 % 4)).cache.length
  else rd s a

/-- Registers of the device pages that follow from other state, with each source's own captures. -/
def shownDevice (s : State) (src : Source) (a : Nat) : Nat :=
  if a = 0x44 then commitStatus s
  else if a = 0x1040 then colophonStatus s
  else if a = 0x1044 then s.colophon.serial.toNat % 2 ^ 32
  else if a = 0x1048 then s.colophon.serial.toNat / 2 ^ 32
  else if 0x1180 ≤ a ∧ a < 0x11B0 then
    match s.colophon.ownerDigest with
    | some d => ((d[(a - 0x1180) / 4]?).getD 0).toNat
    | none => 0
  else if a = 0x2048 then 0
  else if a = 0x204C then putBits (rd s a) 15 0 (watchdogRemaining s)
  else if a = 0x4060 then s.clock.slewLeft % 2 ^ 32
  else if a = 0x4064 then s.clock.slewLeft / 2 ^ 32
  else if 0x4068 ≤ a ∧ a < 0x4078 then ownWord s src a
  else if a = 0x407C then cycleNo s
  else if 0x5040 ≤ a ∧ a < 0x5140 ∧ a % 0x20 = 0x1C then ownWord s src a
  else if a = 0x600050 then bit s.fdb.learnQ.isEmpty * 2 ^ 31 + s.fdb.learnQ.length
  else if a = 0x600054 then s.fdb.period * 2 ^ 16 + s.fdb.threshold * 2 ^ 8 + s.fdb.passes % 256
  else if a = 0x6000CC then validEntries s
  else rd s a

/-- A port register. A port page that is not in service reads as a disabled port's (R5). -/
def shownPort (s : State) (p k a : Nat) : Nat :=
  let off := a % 0x1000
  if k = 0 ∧ off = 0x54 then putBits (rd s a) 23 0 (sheetsLeft s p)
  else if k = 0 ∧ notInService s p then (if off = 0x4C then 0 else if off = 0x40 then putBits (rd s a) 31 31 0 else rd s a)
  else if k = 0 ∧ off = 0x4C ∧ lpiReceives s p then putBits (rd s a) 24 24 (openWord s)
  else rd s a

/-- The live word of a register, its counters aside. -/
def shownLive (s : State) (src : Source) (p : Page) (a : Nat) : Nat :=
  if a % 0x1000 < 0x40 then shownHeader s p (a % 0x1000)
  else match p with
    | .port n k => shownPort s n k a
    | .lane l => shownLane s l a
    | .buffer _ => shownBuffer s a
    | .spill _ => shownBuffer s a
    | _ => shownDevice s src a

/-! ### Applied copies and snapshots -/

/-- The source's bit of SNAPSHOT_VIEW is 1; that of table DMA has no effect (R311). -/
def viewsSnapshot (s : State) (src : Source) : Bool := src.code ≠ 3 && flag s 0xD044 src.code

/-- The word that a read of register `a` returns. -/
def shown (s : State) (src : Source) (p : Page) (a : Nat) : Nat :=
  match wideAt a with
  | some (i, hi) =>
    let v := if viewsSnapshot s src then sget zeroNat s.counters.holdWide i else counter s i
    if hi then v / 2 ^ 32 else v % 2 ^ 32
  | none =>
    let w := shownLive s src p a
    match fieldsAt a with
    | none => 0
    | some fs =>
      let stg := fieldMask (· == .stg) fs
      let cnt := fieldMask (· == .cnt) fs
      if stg ≠ 0 ∧ flag s (p.base + 0xC) 31 then rdCur s a
      else if cnt ≠ 0 ∧ viewsSnapshot s src then
        (w &&& (0xFFFFFFFF ^^^ cnt)) ||| ((sget resetWord s.counters.holdWord a).toNat &&& cnt)
      else w

/-! ### A read of a register -/

/-- The word's part in a pair. -/
def pairRole (p : Page) (a : Nat) : PairRole := match rowAt p (a % 0x1000) with | some r => r.pair | none => .single

/-- Set or empty a source's latch of the _HI word at `a`: 0 empties it. -/
def setLatched (s : State) (src : Source) (a v : Nat) : State :=
  { s with access := { s.access with latch := sset zeroNat s.access.latch (sourceKey src a) v } }

/-- A source's latch of the _HI word at `a`, plus one; 0 while it is empty. -/
def latched (s : State) (src : Source) (a : Nat) : Nat := sget zeroNat s.access.latch (sourceKey src a)

/-- A read of a _LO word latches its _HI word. -/
def readLo (s : State) (src : Source) (p : Page) (a : Nat) : Nat × State :=
  (shown s src p a, setLatched s src (a + 4) (shown s src p (a + 4) + 1))

/-- A read of a _HI word returns the latch and empties it, or the live word. -/
def readHi (s : State) (src : Source) (p : Page) (a : Nat) : Nat × State :=
  let l := latched s src a
  if l = 0 then (shown s src p a, s) else (l - 1, setLatched s src a 0)

/-- A register read without an effect of its own, its pair apart. -/
def readPlain (s : State) (src : Source) (p : Page) (a : Nat) : Nat × State :=
  match pairRole p a with
  | .lo => readLo s src p a
  | .hi => readHi s src p a
  | .single => (shown s src p a, if drawsAt s a then drawn s else s)

/-- A register read that has passed its checks, with what the read itself does. -/
def readRegister (s : State) (src : Source) (p : Page) (a : Nat) : Nat × State :=
  match p with
  | .mailbox =>
    match channelOf (a % 0x1000) with
    | some c => if a % 0x100 = 0x48 then channelTake s c else readPlain s src p a
    | none => readPlain s src p a
  | .sequencer => if a = 0x8078 then dramRead s src else readPlain s src p a
  | .timeEvents =>
    if 0x5040 ≤ a ∧ a < 0x5140 ∧ a % 0x20 = 0x18 then tevPop s src ((a - 0x5040) / 0x20) else readPlain s src p a
  | _ => readPlain s src p a

/-- A read of a page held in reset (R447). -/
def readHeld (s : State) (p : Page) (a : Nat) : Nat :=
  if a % 0x1000 = 0 then rd s a else if a % 0x1000 = 8 then pageStatus s p else 0

/-- A read of an aligned register address, with its checks (R27, R402, R424). -/
def readMapped (s : State) (src : Source) (a : Nat) : Nat × State :=
  match pageAt a, fieldsAt a with
  | some p, some _ =>
    if heldInReset s p then (readHeld s p a, s)
    else if !mayRead s src a then (0, accessFault s src a 5)
    else readRegister (wakeForPage s a) src p a
  | _, _ => (0, accessFault s src a 2)

/-! ### Table windows (R428) -/

/-- Word `off / 4` of an image. -/
def imageWord (v : Nat) (off : Nat) : Nat := bits v (off / 4 * 32 + 31) (off / 4 * 32)

/-- A read in a table window: the first word of an entry latches the entry for the source, and its other words come from that latch. -/
def readWindow (s : State) (src : Source) (a : Nat) (w : Window) (e off : Nat) : Nat × State :=
  if !mayRead s src a then (0, accessFault s src a 5)
  else
    let s' := wakeTable (dropWindow s src) w.table e 1
    let live := entryImage s (flag s 0xC 31) w.table e
    if off < 4 then
      (imageWord live 0, { s' with access := { s'.access with window := (src.code, w.table, e, BitVec.ofNat 512 live) :: s'.access.window } })
    else match s.access.window.find? fun x => x.1 == src.code && x.2.1 == w.table && x.2.2.1 == e with
      | some x => (imageWord x.2.2.2.toNat off, s)
      | none => (imageWord live off, s')

/-- A read of BAR_0 at any address: the word it returns and the state after it. -/
def readAt (s : State) (src : Source) (a : Nat) : Nat × State :=
  if a % 4 ≠ 0 then (0, accessFault (dropWindow s src) src a 1)
  else match windowAt a with
    | some (w, e, off) => readWindow s src a w e off
    | none => readMapped (dropWindow s src) src a

/-- A read whose word goes back to its source. -/
def readOut (s : State) (src : Source) (a : Nat) : State :=
  let r := readAt s src a
  emit r.2 (.value src a r.1)

/-! ### PF1 (R317, R429, R430) -/

/-- A read that R317 does not allow. -/
def pf1Denied (s : State) (offset : Nat) : State :=
  report (raise (tally s 0xD38C) .counters 5) 0x0A03 .counters [offset / 4096, offset % 4096]

/-- A read in the counter aperture. -/
def readAperture (s : State) (offset : Nat) : Nat × State :=
  let v := counter s (65536 * fld s 0xD064 2 0 + (offset - 0x80000) / 8)
  if offset % 8 = 0 then (v % 2 ^ 32, setLatched s .pf1 (offset + 4) (v / 2 ^ 32 + 1))
  else
    let l := latched s .pf1 offset
    if l = 0 then (v / 2 ^ 32, s) else (l - 1, setLatched s .pf1 offset 0)

/-- A read at an offset of PF1's window. -/
def pf1Read (s : State) (offset : Nat) : Nat × State :=
  if 2 ^ 20 ≤ offset ∨ !pf1Allowed s (offset / 4096) then (0, pf1Denied s offset)
  else if offset % 4 ≠ 0 then
    (0, accessFault s .pf1 (match pf1Page (offset / 4096) with | some p => p.base + offset % 4096 | none => offset % 4096) 1)
  else if 0x80000 ≤ offset then readAperture s offset
  else match pf1Page (offset / 4096) with
    | some p => readAt s .pf1 (p.base + offset % 4096)
    | none => (0, s)

/-! ### The commands -/

/-- PAIR_LO_READ: a read of a register, which for a _LO word latches its _HI word (R30). -/
def execPairLoRead (src : Source) (addr : Nat) (s : State) : Res := done (readOut s src addr)

/-- PAIR_HI_READ: a read of a register, which for a _HI word returns the latch (R30). -/
def execPairHiRead (src : Source) (addr : Nat) (s : State) : Res := done (readOut s src addr)

/-- TABLE_WINDOW_READ (R428). -/
def execTableWindowRead (src : Source) (addr : Nat) (s : State) : Res := done (readOut s src addr)

/-- PF1_READ (R317). -/
def execPf1Read (offset : Nat) (s : State) : Res :=
  let r := pf1Read s offset
  done (emit r.2 (.value .pf1 offset r.1))

/-- Words of registers for REG_READ, in ascending address. -/
def readWords (s : State) (first : Nat) : Nat → List Nat × State
  | 0 => ([], s)
  | n + 1 =>
    let r := readWords s first n
    let w := readAt r.2 .dma (first + 4 * n)
    (r.1 ++ [w.1], w.2)

/-- REG_READ: register words to host memory (R345). -/
def execRegRead (tag index count hostAddr : Nat) (dmaOk : Bool) (s : State) : Res :=
  done (tableCommand s 8 tag fun s =>
    if 2 ^ 26 < index + 4 * countOf count then refuses 8 s
    else
      let r := readWords s index (countOf count)
      if !dmaOk then dmaRefuses r.2
      else ((0, 0, countOf count), emit r.2 (.hostWrite hostAddr (r.1.flatMap (leBytes 4)))))

end Sys2Proof.Machine
end

