-- ==== Sys2Proof/Machine/BusWrite.lean ====
section
/-! DEFINITION. What a write of a register does beside its fields' types: the page header (R31, R36), the request bits and the
enables of each page, pairs (R30), and the checks of a write on the bus (R27, R34, R35). The requests whose rows bring an answer from
outside the block (OWNER_ENROL.GO, DEBUG_CONTROL.GO, UCODE_LOAD.GO and PAGE_CONTROL.RESUME) act through those rows alone (log 27). -/

namespace Sys2Proof.Machine

/-! ### The header -/

/-- DISCARD_STAGED: every staged field of the page takes its applied value again (R38). -/
def discardStaged (s : State) (p : Page) : State :=
  let mine := fun (m : Sparse Word32) => (m.map (·.1)).filter fun a => a / 0x1000 == p.base / 0x1000 && stagedMask a != 0
  let s := (mine s.regs ++ mine s.regsCur).foldl (fun s a => wr s a (rdCur s a)) s
  setFlag s (p.base + 8) 29 false

/-- INT_FORCE: each cause written 1 is raised as its event would raise it. -/
def forceCauses (s : State) (p : Page) (v : Nat) : State :=
  (List.range 32).foldl (fun s k => if bitAt v k && ((k < 16 && bitAt p.causes k) || k = 30 || k = 31) then raise s p k else s) s

/-- A capture cause persists while its FIFO holds a stamp (R252). -/
def keepCaptures (s : State) (p : Page) : State :=
  if p = .timeEvents then
    (List.range 8).foldl (fun s n => if (tevAt s n).fifo = [] then s else setFlag s 0x5010 n true) s
  else s

/-- RESUME: the block leaves its fault-safe action once software has cleared MISMATCH and the re-read that follows finds no other
mismatch (R36). DESIGN CHOICE (log 7): a RESUME written while MISMATCH is still 1 is dropped; it does not wait, and RESUME always reads
0. -/
def resumePage (s : State) (p : Page) (bad : Option Nat) : State :=
  match bad with
  | some a => parityMismatch s a
  | none => if flag s (p.base + 0x20) 31 then s else setFlag s (p.base + 8) 31 false

/-- A write in the header of page `p`. -/
def writeHeader (s : State) (src : Source) (p : Page) (a v : Nat) : State :=
  match a % 0x1000 with
  | 0x0C => let s := fieldWrite s src a v
            if bitAt v 29 then discardStaged s p else s
  | 0x10 => keepCaptures (fieldWrite s src a v) p
  | 0x18 => forceCauses s p v
  | _ => fieldWrite s src a v

/-! ### Pages of the device -/

/-- Root page. -/
def writeRoot (s : State) (src : Source) (a v : Nat) : State :=
  if a = 0x40 ∧ bitAt v 31 then sysCommit s src (bits v 15 0)
  else if a = 0x4C ∧ bitAt v 31 then fenceStart s src (bitAt v 0)
  else fieldWrite s src a v

/-- Colophon page. -/
def writeColophon (s : State) (src : Source) (a v : Nat) : State :=
  let s := fieldWrite s src a v
  if a = 0x1050 ∧ bitAt v 31 then zeroise s else if a = 0x1078 ∧ bitAt v 30 then closeDebug s else s

/-- The bits of FAULT_STATUS whose cause persists (R419). -/
def lastingFaults (s : State) : Nat :=
  bit s.power.expired * 2 ^ 30 + bit s.power.tripped * 2 ^ 29 + bit (flag s 0x1040 27) * 2 ^ 28 +
  bit s.startup.recovery * 2 ^ 27 + bit s.startup.bistFailed * 2 ^ 26

/-- A write of FAULT_STATUS: FAULT_N is released once no bit is left. -/
def writeFaults (s : State) (src : Source) (v : Nat) : State :=
  let s' := fieldWrite s src 0x2094 v
  let s' := wr s' 0x2094 (rd s' 0x2094 ||| lastingFaults s)
  if rd s 0x2094 ≠ 0 ∧ rd s' 0x2094 = 0 then emit s' (.pin "FAULT_N" 0 true) else s'

/-- A write of AO_CONTROL. -/
def writeControl (s : State) (v : Nat) : State :=
  let s := quiet s (bitAt v 30)
  let s := if bitAt v 29 then startRelease s else s
  let s := if bitAt v 27 then leaveStandby s 9 else s
  let s := if bitAt v 28 then requestStandby s else s
  if bitAt v 31 then beginReset s 4 else s

/-- Always-on page. -/
def writeAlwaysOn (s : State) (src : Source) (a v : Nat) : State :=
  match a with
  | 0x2040 => writeControl s v
  | 0x2044 => watchdogConfigured (fieldWrite s src a v) (rd s a)
  | 0x2048 => watchdogKick s v
  | 0x2080 => let s := fieldWrite s src a v
              if bitAt v 31 then confirmBoot s src else s
  | 0x2094 => writeFaults s src v
  | _ => fieldWrite s src a v

/-- Time page. The corrections of one write act in the order of R237, and a capture sees the time after them. -/
def writeTime (s : State) (src : Source) (a v : Nat) : State :=
  if a = 0x4040 then
    let s := if bitAt v 28 then abortSlew s else s
    let s := if bitAt v 29 then startSlew s else s
    let s := if bitAt v 30 then holdStep s else s
    if bitAt v 31 then capture s src else s
  else
    let s := fieldWrite s src a v
    if a = 0x4090 then rclkWritten s 0 else if a = 0x4094 then rclkWritten s 1 else s

/-- Time-event page: a change of MODE disarms the pin, and ARM arms it (R253). -/
def writeTimeEvents (s : State) (src : Source) (a v : Nat) : State :=
  let s' := fieldWrite s src a v
  if 0x5040 ≤ a ∧ a < 0x5140 ∧ a % 0x20 = 0 then
    let n := (a - 0x5040) / 0x20
    let s' := if bits v 31 29 = tevMode s n then s' else setTev s' n { tevAt s' n with armed := false }
    if bitAt v 25 then armPin s' n else s'
  else s'

/-- A write of TWIN_CONTROL: a write of 1 to ARM stands against what clears it (R265). -/
def writeTwinControl (s : State) (v : Nat) : State :=
  let s := if bitAt v 30 then disarm s else s
  let s := if bitAt v 29 then startRelease s else s
  let s := if bitAt v 28 then handoverStart s else s
  let s := if bitAt v 27 then requestResync s else s
  let s := if bitAt v 26 then setFlag s 0x6040 29 false else s
  if bitAt v 31 then setFlag s 0x6048 31 true else s

/-- Twin page. -/
def writeTwin (s : State) (src : Source) (a v : Nat) : State :=
  match a with
  | 0x6044 => kettleSwitch s (bitAt v 31)
  | 0x6048 => writeTwinControl s v
  | 0x6058 => if bitAt v 20 then setFld s a 31 21 0 else s
  | _ => fieldWrite s src a v

/-- Mailbox page: in one write of CONTROL, WITHDRAW acts before GO (DESIGN CHOICE, log 40), and GO before a sender reset (R357). -/
def writeMailbox (s : State) (src : Source) (a v : Nat) : State :=
  match channelOf (a % 0x1000) with
  | none => fieldWrite s src a v
  | some c =>
    if a % 0x100 = 0x40 then
      let s := if bitAt v 30 then bySender s src c fun s => channelWithdraw s c else s
      let s := if bitAt v 31 then bySender s src c fun s => channelGo s c else s
      if bitAt v 29 then channelReset s src c else s
    else fieldWrite s src a v

/-- Sequencer page. -/
def writeSequencer (s : State) (src : Source) (a v : Nat) : State :=
  match a with
  | 0x8058 => let s := if bitAt v 31 then s else fieldWrite s src a v
              let s := if bitAt v 30 then taskAbort s else s
              if bitAt v 31 then taskGo s (bits v 19 0) else s
  | 0x8078 => dramWrite s src v
  | _ => fieldWrite s src a v

/-- Host interface page. -/
def writeHostIf (s : State) (src : Source) (a v : Nat) : State :=
  if a = 0x9040 ∧ bitAt v 31 then qspiRequest s (bits v 30 29) (bits v 26 0)
  else
    let s := fieldWrite s src a v
    if a = 0x9050 ∨ a = 0x9054 then driveGpio s else s

/-- The number of ring `i` of DMA page `k`. -/
def ringOf (k i : Nat) : Nat := k * 64 + i

/-- DMA pages: ENABLE of RING_CONFIG is left to the ring's own operations (R343). -/
def writeDma (s : State) (src : Source) (k a v : Nat) : State :=
  let o := a % 0x1000
  if 0x40 ≤ o ∧ o < 0x40 + (if k < 2 then 64 else 8) * 0x20 ∧ o % 0x20 = 8 then
    ringConfigure (fieldWrite s src a (putBits v 31 31 (fld s a 31 31))) (ringOf k ((o - 0x40) / 0x20)) v
  else fieldWrite s src a v

/-- Counters page: a dump and an alarm start anew when their ENABLE is written 1 (R312, R316). DESIGN CHOICE (log 7): a write of 1 over
1 leaves a run under way as it is. -/
def writeCounters (s : State) (src : Source) (a v : Nat) : State :=
  if a = 0xD040 then (if bitAt v 31 then snapshot s else s)
  else
    let starts : Bool := bitAt v 31 && !flag s a 31
    let s := fieldWrite s src a v
    if a = 0xD054 ∧ starts then { s with counters := { s.counters with dumpWait := 0 } }
    else if 0xD100 ≤ a ∧ a < 0xD300 ∧ a % 16 = 0 ∧ starts then
      { s with counters := { s.counters with alarms := sset (fun _ => {}) s.counters.alarms ((a - 0xD100) / 16) {} } }
    else s

/-! ### Pages of slices and ports -/

/-- Port page 0. -/
def writePort (s : State) (src : Source) (p a v : Nat) : State :=
  match a % 0x1000 with
  | 0x40 => writeEnable (fieldWrite s src a (putBits v 31 31 (fld s a 31 31))) p (bitAt v 31)
  | 0x50 => let s := if bitAt v 30 then loseLink s p else s
            if bitAt v 31 then resetPort s p else s
  | _ => fieldWrite s src a v

/-- Port page 1: flow control, gates and preemption follow their registers (R53, R219, R220, R228). -/
def writePortLink (s : State) (src : Source) (p a v : Nat) : State :=
  let was := preemptEnabled s p
  let s := fieldWrite s src a v
  match a % 0x1000 with
  | 0x40 => fcReconfigure (showPause s p) p
  | 0x44 => showPause s p
  | 0x48 => showPause s p
  | 0x4C => fcReconfigure s p
  | 0x50 => fcReconfigure s p
  | 0x54 => fcReconfigure s p
  | 0x58 => fcReconfigure s p
  | 0x60 => lpiFollow s p
  | 0x80 => lpiFollow (if !bitAt v 31 then dropGates s p else if bitAt v 30 then acceptGate s p else showGate s p) p
  | 0xD0 => lpiFollow (preemptWritten s p was) p
  | _ => s

/-! ### Buffer, spill, CXL, scheduler and forwarding pages -/

/-- Spill page 0. -/
def writeSpill (s : State) (src : Source) (a v : Nat) : State :=
  match a with
  | 0x404040 => forceDiscards (writePlace s (bits v 31 28)) (bits v 27 24)
  | 0x404078 => if bitAt v 31 then spillQuery s (bits v 16 0) else fieldWrite s src a v
  | _ => fieldWrite s src a v

/-- Spill page 2. -/
def writePools (s : State) (src : Source) (a v : Nat) : State :=
  let k := (a - 0x406040) / 0x20
  if a % 0x20 = 8 ∧ bitAt v 31 then poolInit s (k / 4) (k % 4) (bits v 26 0) else fieldWrite s src a v

/-- CXL port pages. -/
def writeCxl (s : State) (src : Source) (c a v : Nat) : State :=
  match a % 0x1000 with
  | 0x40 =>
    let was := flag s a 31
    let s := fieldWrite s src a (putBits v 31 31 (bit was))
    if bitAt v 31 == was then s else cxlEnable s c (bitAt v 31)
  | 0x44 => if bitAt v 31 then cxlReset s c else s
  | _ => fieldWrite s src a v

/-- SHADOW_CONTROL: the engine starts with ENABLE, or for one pass. DESIGN CHOICE (log 43): ENABLE from 0 to 1 starts at the first enabled
table, entry 0, and ENABLE written 0 ends a pass under way, whose BUSY drops. -/
def writeShadow (s : State) (src : Source) (a v : Nat) : State :=
  let was := flag s a 31
  let s := fieldWrite s src a v
  if bitAt v 31 ∧ !was then showShadow { s with shadow := { s.shadow with table := (shadowNextTable s 0).getD 0, index := 0, due := now s } }
  else if bitAt v 29 then shadowOnce s else showShadow s

/-! ### A write that has passed its checks -/

/-- The write of one word, with what the register's page does on it. -/
def writeWord (s : State) (src : Source) (p : Page) (a v : Nat) : State :=
  if a % 0x1000 < 0x40 then writeHeader s src p a v
  else match p with
    | .root => writeRoot s src a v
    | .colophon => writeColophon s src a v
    | .alwaysOn => writeAlwaysOn s src a v
    | .time => writeTime s src a v
    | .timeEvents => writeTimeEvents s src a v
    | .twin => writeTwin s src a v
    | .mailbox => writeMailbox s src a v
    | .sequencer => writeSequencer s src a v
    | .hostIf => writeHostIf s src a v
    | .dma k => writeDma s src k a v
    | .counters => writeCounters s src a v
    | .slice i 0 => if a % 0x1000 = 0x4C then (if bitAt v 31 then resetSlice s i else s) else fieldWrite s src a v
    | .port n 0 => writePort s src n a v
    | .port n 1 => writePortLink s src n a v
    | .buffer 0 => if a = 0x400058 then (if bitAt v 31 then clearPeak s else s) else fieldWrite s src a v
    | .spill 0 => writeSpill s src a v
    | .spill 1 => let s := fieldWrite s src a v
                  if a % 0x10 = 0 then drainCheck s else s
    | .spill 2 => writePools s src a v
    | .cxl c => writeCxl s src c a v
    | .sched => if a = 0x500040 ∧ bitAt v 31 then queryNode s (bits v 17 0) else fieldWrite s src a v
    | .fwd 3 => if a = 0x603040 then writeShadow s src a v else fieldWrite s src a v
    | _ => fieldWrite s src a v

/-- The _LO word that a source holds for the pair whose _HI word is at `a`, plus one; 0 while it holds none. -/
def heldLo (s : State) (src : Source) (a : Nat) : Nat := sget zeroNat s.access.held (sourceKey src (a - 4))

/-- A write of a word by its part in a pair (R30): a _LO word is held, unless it is a counter's; a _HI word brings the held word with
it. `lo` is what the source held when the write arrived. -/
def pairWrite (s : State) (src : Source) (lo : Nat) (p : Page) (a v : Nat) : State :=
  match pairRole p a, wideAt a with
  | .lo, none => { s with access := { s.access with held := sset zeroNat s.access.held (sourceKey src a) (v + 1) } }
  | .hi, none => writeWord (if lo = 0 then s else writeWord s src p (a - 4) (lo - 1)) src p a v
  | _, _ => writeWord s src p a v

/-- A write that fails its parity on arrival is dropped (R35). DESIGN CHOICE (log 7): PARITY_STATUS is left as it was, so ON_WRITE never
reads 1: the rule gives such a write the access fault alone, and the field's meaning does not say when it is set. -/
def badParity (s : State) (src : Source) (p : Page) (a : Nat) : State :=
  report (accessFault s src a 9) 0x0202 p [p.base, a % 0x1000]

/-- A write on the bus: address, size, value and whether its parity holds. -/
def busWrite (s : State) (src : Source) (a size v : Nat) (parityOk : Bool) : State :=
  if size ≠ 4 then accessFault s src a 1
  else
    let lo := heldLo s src a
    guarded s src a fun s =>
      match pageAt a with
      | none => s
      | some p => if parityOk then pairWrite s src lo p a v else badParity s src p a

/-! ### The commands -/

/-- The address of offset `off` in the page that holds `a`. -/
def inPage (a off : Nat) : Nat := a / 0x1000 * 0x1000 + off

/-- REGISTER_WRITE: a write of a register, with its checks and by its field types (R27, R33, R34, R35). -/
def execRegisterWrite (src : Source) (addr size : Nat) (value : Word32) (parityOk : Bool) (s : State) : Res :=
  done (busWrite s src addr size value.toNat parityOk)

/-- PAIR_LO_WRITE: a write of a _LO word is held (R30). -/
def execPairLoWrite (src : Source) (addr : Nat) (value : Word32) (s : State) : Res :=
  done (busWrite s src addr 4 value.toNat true)

/-- PAIR_HI_WRITE: a write of a _HI word applies the whole value (R30). -/
def execPairHiWrite (src : Source) (addr : Nat) (value : Word32) (s : State) : Res :=
  done (busWrite s src addr 4 value.toNat true)

/-- INT_FORCE: a write of INT_FORCE in the page of `addr` (R33). -/
def execIntForce (src : Source) (addr : Nat) (value : Word32) (s : State) : Res :=
  done (busWrite s src (inPage addr 0x18) 4 value.toNat true)

/-- LOCK: a write of 1 to LOCK of the page of `addr` (R34). -/
def execLock (src : Source) (addr : Nat) (s : State) : Res := done (busWrite s src (inPage addr 0x28) 4 1 true)

/-- RESUME: a write of 1 to PAGE_CONTROL.RESUME of the page of `addr`; with `mismatch` the re-read finds the register at `addr` in
mismatch (R36). -/
def execResume (src : Source) (addr : Nat) (mismatch : Bool) (s : State) : Res :=
  done (guarded s src (inPage addr 0xC) fun s =>
    match pageAt addr with
    | none => s
    | some p => resumePage s p (if mismatch then some addr else none))

/-- DISCARD_STAGED: a write of 1 to PAGE_CONTROL.DISCARD_STAGED of the page of `addr` (R38). -/
def execDiscardStaged (src : Source) (addr : Nat) (s : State) : Res :=
  done (guarded s src (inPage addr 0xC) fun s =>
    match pageAt addr with
    | none => s
    | some p => discardStaged s p)

/-- REG_WRITE: VALUE to INDEX, with the authority of PF0 (R345). -/
def execRegWrite (tag index : Nat) (value : Word32) (s : State) : Res :=
  done (tableCommand s 9 tag fun s =>
    if 2 ^ 26 ≤ index then refuses 8 s else ((0, 0, 1), busWrite s .dma index 4 value.toNat true))

end Sys2Proof.Machine
end

