-- ==== Sys2Proof/Machine/Ecc.lean ====
section
/-! DEFINITION. ECC errors of the SRAMs that the SECDED code of R24 finds: table entries (R109), the packet buffer (R181), descriptors,
scheduler state, counters, and corrected errors (R415, R416). -/

namespace Sys2Proof.Machine

/-! ### Table entries (R109) -/

/-- The bit VALID of an entry; none where an entry has no such bit. -/
def validBit (t : Nat) : Option Nat :=
  match t with
  | 0x00 => some 255 | 0x02 => some 127 | 0x03 => some 127 | 0x04 => some 127 | 0x06 => some 63 | 0x07 => some 127
  | 0x0A => some 127 | 0x0C => some 127 | 0x0E => some 63 | 0x0F => some 255 | _ => none

/-- The table whose entry is invalidated: a classifier rule's KEY and MASK have no VALID of their own, and its ACTION entry has it
(DEDUCED, log 19). -/
def eccTable (t : Nat) : Nat := if t = 0x08 ∨ t = 0x09 then 0x0A else t

/-- The entry with VALID cleared; every port of an MSTP entry DISCARDING. An entry without VALID takes its reset value (R415: the entry is
invalidated or reset). -/
def invalidated (t i v : Nat) : Nat :=
  match validBit t with
  | some k => putBits v k k 0
  | none => (resetImage (tkey t i)).toNat

/-- The entry is invalidated, in every copy that a staged table has. -/
def invalidateEntry (s : State) (t i : Nat) : State :=
  let fix := fun (m : Sparse Image) =>
    sset resetImage m (tkey t i) (BitVec.ofNat 512 (invalidated t i (sget resetImage m (tkey t i)).toNat))
  let s := { s with tabs := fix s.tabs }
  if tableStaged t then { s with tabsCur := fix s.tabsCur, tabsOld := fix s.tabsOld } else s

/-- An uncorrectable error in a table entry is counted, raised and logged with the table and index. -/
def reportEntry (s : State) (t i : Nat) : State := report (raise (tally s 0x6000C8) (.fwd 0) 4) 0x0104 (.fwd 0) [t, i]

/-- An uncorrectable error in an entry of a table of the forwarding and classification chapters, 0x00 to 0x0B, or of another table
that holds configuration (R109, R416). -/
def entryEcc (s : State) (t i : Nat) : State :=
  if tableEntries t ≤ i then s
  else if t = 0x02 then
    let s := reportEntry s t i
    let old := fdbDest (fdbEntry s i)
    let s := learnEvent (fdbRemove s i) 8 0xA i 0 0 0 old 0x7F
    if standsBy s then loseSync s else s
  else if t = 0x0C then writePolicer (reportEntry s t i) i (BitVec.ofNat 512 (invalidated t i (tabN s t i)))
  else invalidateEntry (reportEntry s t i) (eccTable t) i

/-! ### The other SRAMs (R24, R416) -/

/-- An error that the code corrects: it is counted and logged, and nothing is lost (R109, R415). -/
def correctedEcc (s : State) (p : Page) (detail : List Nat) : State := report s 0x0101 p detail

/-- The frames, with their place in their chain, that hold leaf `l`. -/
def holdsLeaf (l : Nat) (f : Frame) : List Nat :=
  f.chains.flatMap fun c => (c.zip (List.range c.length)).filterMap fun e => if e.1 = l then some e.2 else none

/-- An uncorrectable error in leaf `l` of the packet buffer: the frame that it holds part of leaves stomped, or poisoned in its sheet
(R181). -/
def leafEcc (s : State) (l : Nat) : State :=
  let s := report s 0x0102 (.buffer 0) [l]
  s.frames.foldl (fun s e =>
    match holdsLeaf l e.2 with
    | [] => s
    | js => setFrame s e.1 { e.2 with badLeaves := e.2.badLeaves ++ js }) s

/-- An uncorrectable error in the descriptors of queue `q`: the queue is flushed, and its expected catchword follows (R416). -/
def descriptorEcc (s : State) (q : Nat) : State :=
  let s := report s 0x0103 (.buffer 0) [q]
  let p := (queuePort s q).getD 127
  let s := flushQueue s p q
  let s := setQueue s q { queueAt s q with expected := (queueAt s q).next }
  if p < 64 then raise s (.port p 0) 4 else s

/-- An uncorrectable error in the scheduler state of a queue or node: its bucket set is full, and its deficit 0 (R416). -/
def schedEcc (s : State) (i : Nat) : State :=
  let s := report s 0x0105 .sched [i]
  let e := shaperEntry s i
  let s := setBucketA s i (burstA i e)
  let s := if tierOf i = 1 then setBucketB s i (burstB e) else s
  { s with sched := { s.sched with deficit := sset (fun _ => 0) s.sched.deficit i 0 } }

/-- An uncorrectable error in the counter memory: the counter is 0 (R416). -/
def counterEcc (s : State) (i : Nat) : State := setCounter (report s 0x0106 .counters [i]) i 0

/-- An ECC error, by what `t` names. DESIGN CHOICE (log 19): the row names a table's uncorrectable error; 0x100 more names a correctable
one of the same table, and 0x200 to 0x207 the other SRAMs of R24 with leaf, queue, node or counter `i`, the first four uncorrectable. -/
def eccError (s : State) (t i : Nat) : State :=
  if !coreRuns s then s
  else if t = 0x12 ∨ t = 0x202 then (if i < 148545 then schedEcc s i else s)
  else if t = 0x17 ∨ t = 0x203 then (if i < 524288 then counterEcc s i else s)
  else if t < 0x100 then entryEcc s t i
  else if t < 0x200 then (if tableEntries (t - 0x100) ≤ i then s else correctedEcc s (.fwd 0) [t - 0x100, i])
  else match t with
    | 0x200 => leafEcc s i
    | 0x201 => if i < 131072 then descriptorEcc s i else s
    | 0x204 => correctedEcc s (.buffer 0) [i]
    | 0x205 => correctedEcc s (.buffer 0) [i]
    | 0x206 => correctedEcc s .sched [i]
    | 0x207 => correctedEcc s .counters [i]
    | _ => s

/-- TABLE_ENTRY_ECC: an uncorrectable error in a table entry (R109). -/
def execTableEntryEcc (table index : Nat) (s : State) : Res := done (eccError s table index)

end Sys2Proof.Machine
end

