-- ==== Sys2Proof/Machine/Seq.lean ====
section
/-! DEFINITION. The sequencer (R365 to R386): macro-instructions, microwords with their operands, flags and faults, the write buffer of
RESTART mode, interrupts and time-outs, the load of customer microcode, and ECC errors. -/

namespace Sys2Proof.Machine

/-! ### Microwords (R368) -/

/-- The 32 bits of a microword. -/
def microBits (uop : Nat) (m : Micro) : Nat :=
  uop * 2 ^ 25 + m.dest.val * 2 ^ 20 + m.src.val * 2 ^ 15 + m.aux.val * 2 ^ 4 + m.dwell.val * 2 ^ 2 + bit m.setcc * 2 + bit m.setmf

/-- The micro-op code and the fields of 32 bits. -/
def microOf (w : Nat) : Nat × Micro :=
  (bits w 31 25,
   { dest := Fin.ofNat 32 (bits w 24 20)
     src := Fin.ofNat 32 (bits w 19 15)
     aux := Fin.ofNat 2048 (bits w 14 4)
     dwell := Fin.ofNat 4 (bits w 3 2)
     setcc := bitAt w 1
     setmf := bitAt w 0 })

/-- AUX as a signed number. -/
def auxInt (m : Micro) : Int := signed m.aux.val 11

/-- A word of the control store's RAM. -/
def storeWord (s : State) (a : Nat) : Nat := (sget (fun _ => 0) s.seq.store a).toNat

/-- The micro-ops of R371. -/
def uopListed (u : Nat) : Bool := u ≤ 0x0A || (0x10 ≤ u && u ≤ 0x16) || (0x20 ≤ u && u ≤ 0x27) || (0x30 ≤ u && u ≤ 0x32)

/-- The word is a branch to a lower address. -/
def backward (u : Nat) (m : Micro) : Bool := ((0x10 ≤ u && u ≤ 0x14) || u == 0x16) && bitAt m.aux.val 10

/-- The fault that a word raises before it acts: ILLEGAL_MICRO_OP, POST_COMMIT_OVERRUN, POST_COMMIT, LONG_ROUTINE. -/
def wordFault (r : Routine) (u : Nat) (m : Micro) : Option Nat :=
  if !uopListed u ∨ 0x1A ≤ m.dest.val ∨ 0x1A ≤ m.src.val ∨ (u = 0x15 ∧ 12288 ≤ r.upc) then some 2
  else if r.committed ∧ u ≠ 0x31 ∧ 64 ≤ r.after then some 6
  else if r.committed ∧ (m.dwell.val = 3 ∨ u = 0x27 ∨ u = 0x30 ∨ backward u m) then some 5
  else if !r.restart ∧ 4096 ≤ r.words then some 0xC
  else none

/-! ### Operands (R369) -/

/-- The G register that RD, RA or RB names. -/
def fieldReg (r : Routine) (k : Nat) : Nat :=
  match k with
  | 0x10 => bits r.word.toNat 23 19
  | 0x11 => bits r.word.toNat 18 14
  | _ => bits r.word.toNat 13 9

/-- A temporary, MAR, MDR or LOOP (numbers 16 to 18) before the routine has written it: a free value. -/
def openTemp (r : Routine) (k : Nat) : BitVec 64 := Config.temporary (32 * r.seed + k)

/-- IMM14 sign-extended. -/
def imm14 (r : Routine) : BitVec 64 := BitVec.ofInt 64 (signed (bits r.word.toNat 13 0) 14)

/-- The value of an operand. DEDUCED (log 26): RD, RA, RB and MFLAGS give the architectural value, not a buffered one. -/
def operand (s : State) (r : Routine) (k : Nat) : BitVec 64 :=
  if k < 16 then (r.temps.getD k none).getD (openTemp r k)
  else if k ≤ 0x12 then gReg s (fieldReg r k)
  else match k with
    | 0x13 => imm14 r
    | 0x14 => BitVec.ofNat 64 s.seq.pc
    | 0x15 => r.mar.getD (openTemp r 16)
    | 0x16 => r.mdr.getD (openTemp r 17)
    | 0x18 => r.loop.getD (openTemp r 18)
    | 0x19 => BitVec.ofNat 64 (macroFlags s)
    | _ => 0

/-! ### Architectural writes (R375, R376) -/

/-- The source under which the sequencer reaches registers. -/
def seqSource (s : State) : Source := if s.seq.task then .task else .seq

/-- An architectural write reaches its target. -/
def applyWrite (s : State) (w : SeqWrite) : State :=
  match w with
  | .general k v => setG s k v
  | .flags f => setMacroFlags s f
  | .ram a v => ramWrite s a 8 v.toNat
  | .device a v => busWrite s (seqSource s) a 4 v.toNat true
  | .table t i v => (tableWrite s t i [v] true).2
  | .dma spill ws => emit s (.low "SEQ_DMA" (bit spill :: ws))

/-- An architectural write of a word: buffered before COMMIT in RESTART mode, and otherwise made at once; none where it would be the
17th in the buffer. -/
def archWrite (s : State) (r : Routine) (w : SeqWrite) : Option (State × Routine) :=
  if r.restart ∧ !r.committed then
    if 16 ≤ r.buffer.length then none else some (s, { r with buffer := r.buffer ++ [w] })
  else some (applyWrite s w, r)

/-- The last buffered value that `pick` finds. -/
def buffered {α : Type} (r : Routine) (pick : SeqWrite → Option α) : Option α := (r.buffer.filterMap pick).getLast?

/-- A value goes to an operand; read-only operands discard it. -/
def assign (s : State) (r : Routine) (k : Nat) (v : BitVec 64) : Option (State × Routine) :=
  if k < 16 then some (s, { r with temps := r.temps.set k (some v) })
  else if k ≤ 0x12 then archWrite s r (.general (fieldReg r k) v)
  else match k with
    | 0x15 => some (s, { r with mar := some v })
    | 0x18 => some (s, { r with loop := some v })
    | 0x19 => archWrite s r (.flags (v.toNat % 16))
    | _ => some (s, r)

/-! ### Results and flags -/

/-- A result with its carry and its signed overflow, none where the spec states neither. -/
structure AluResult where
  value : BitVec 64
  carry : Option Bool := none
  overflow : Option Bool := none
  deriving DecidableEq, Repr

/-- The signed sum or difference does not fit in 64 bits. -/
def outOfRange (i : Int) : Bool := i < -(2 ^ 63) || 2 ^ 63 ≤ i

/-- a + b. -/
def aluAdd (a b : BitVec 64) : AluResult :=
  { value := a + b, carry := some (2 ^ 64 ≤ a.toNat + b.toNat), overflow := some (outOfRange (a.toInt + b.toInt)) }

/-- a − b. The spec does not say whether C is a borrow or its complement. -/
def aluSub (a b : BitVec 64) : AluResult := { value := a - b, overflow := some (outOfRange (a.toInt - b.toInt)) }

/-- The five dyadic micro-ops. -/
def aluOp (u : Nat) (a b : BitVec 64) : AluResult :=
  match u with
  | 2 => aluAdd a b
  | 3 => aluSub a b
  | 4 => { value := a &&& b }
  | 5 => { value := a ||| b }
  | _ => { value := a ^^^ b }

/-- Carry and overflow of a result, free where they are not stated (log 12), and the state after the draw. -/
def openFlags (s : State) (x : AluResult) : Bool × Bool × State :=
  let f := (Config.unstated s.freeCount).toNat
  (x.carry.getD (bitAt f 0), x.overflow.getD (bitAt f 1),
   if x.carry.isSome ∧ x.overflow.isSome then s else drawn s)

/-- MFLAGS of a result. -/
def flagsOf (v : BitVec 64) (c o : Bool) : Nat := bit (v == 0) * 8 + bit v.msb * 4 + bit c * 2 + bit o

/-- How a word leaves: on to an address, at the end of the routine, or with a micro fault. -/
inductive WordEnd
  | next (address : Int)
  | ends
  | fault (cause : Nat)
  deriving DecidableEq, Repr

/-- The address after a word. -/
def following (r : Routine) : Int := r.upc + 1

/-- SETCC and SETMF of a result. -/
def setFlags (s : State) (r : Routine) (m : Micro) (x : AluResult) : State × Routine × WordEnd :=
  if !m.setcc ∧ !m.setmf then (s, r, .next (following r))
  else
    let (c, o, s) := openFlags s x
    let r := if m.setcc then { r with z := x.value == 0, n := x.value.msb, c } else r
    if m.setmf then
      match archWrite s r (.flags (flagsOf x.value c o)) with
      | some (s, r) => (s, r, .next (following r))
      | none => (s, r, .fault 4)
    else (s, r, .next (following r))

/-- A result goes to operand `k`, and to the flags. -/
def yieldTo (s : State) (r : Routine) (m : Micro) (k : Nat) (x : AluResult) : State × Routine × WordEnd :=
  match assign s r k x.value with
  | some (s, r) => setFlags s r m x
  | none => (s, r, .fault 4)

/-- An architectural write that gives no result. -/
def store (s : State) (r : Routine) (w : SeqWrite) : State × Routine × WordEnd :=
  match archWrite s r w with
  | some (s, r) => (s, r, .next (following r))
  | none => (s, r, .fault 4)

/-! ### Memory, registers and tables -/

/-- MAR. -/
def marOf (s : State) (r : Routine) : Nat := (operand s r 0x15).toNat

/-- The doubleword of data RAM that MAR addresses. DEDUCED (log 26): the low three address bits count for nothing. -/
def marRam (s : State) (r : Routine) : Nat := marOf s r % 2 ^ 20 / 8 * 8

/-- A task may reach data RAM at MAR (R382). -/
def ramAllowed (s : State) (r : Routine) : Bool := !s.seq.task || inCustomerRam (marOf s r)

/-- Register reads of a task (R382). -/
def taskReads (a : Nat) : Bool :=
  match pageAt a with
  | some .colophon => false | some .mailbox => false | some .sequencer => false
  | _ => true

/-- Register writes of a task (R382). -/
def taskWrites (a : Nat) : Bool :=
  match pageAt a with
  | some (.slice _ _) => true | some (.port _ _) => true | some (.lane _) => true
  | some (.fwd _) => true | some .sched => true | some .counters => true
  | _ => false

/-- A read of the register changes device state (R379): TAKE, TEV_CAP_NS_n. -/
def readEffect (a : Nat) : Bool :=
  match pageAt a with
  | some .mailbox => (channelOf (a % 0x1000)).isSome && a % 0x100 == 0x48
  | some .timeEvents => 0x5040 ≤ a && a < 0x5140 && a % 0x20 == 0x18
  | _ => false

/-- The entry exists (R345). -/
def entryExists (s : State) (t i : Nat) : Bool := t ≤ 0x19 && i < entriesOf s t

/-- DLD. -/
def dldWord (s : State) (r : Routine) (m : Micro) : State × Routine × WordEnd :=
  if !ramAllowed s r then (s, r, .fault 8)
  else
    let a := marRam s r
    let v := (buffered r fun w => match w with | .ram b v => if b = a then some v else none | _ => none).getD
      (BitVec.ofNat 64 (ramRead s a 8))
    setFlags s { r with mdr := some v } m { value := v }

/-- RRD. -/
def rrdWord (s : State) (r : Routine) (m : Micro) : State × Routine × WordEnd :=
  let a := marOf s r % 2 ^ 26
  if s.seq.task ∧ !taskReads a then (s, r, .fault 8)
  else if r.restart ∧ !r.committed ∧ readEffect a then (s, r, .fault 7)
  else match buffered r fun w => match w with | .device b v => if b = a then some v else none | _ => none with
    | some v => setFlags s { r with mdr := some (v.setWidth 64) } m { value := v.setWidth 64 }
    | none =>
      let x := readAt s (seqSource s) a
      let v := BitVec.ofNat 64 x.1
      setFlags x.2 { r with mdr := some v } m { value := v }

/-- TRD: the doublewords of an entry go to consecutive temporaries; none is written beyond T_15. -/
def trdWord (s : State) (r : Routine) (m : Micro) : State × Routine × WordEnd :=
  let t := m.aux.val % 256
  let i := (operand s r m.src).toNat
  if !entryExists s t i then (s, r, .fault 0xA)
  else
    let v := (buffered r fun w => match w with | .table u j v => if u = t ∧ j = i then some v else none | _ => none).getD
      (BitVec.ofNat 512 (entryImage s false t i))
    let temps := (List.range (tableBytes t / 8)).foldl (fun (l : List (Option (BitVec 64))) k =>
      if m.dest.val + k < 16 then l.set (m.dest.val + k) (some (BitVec.ofNat 64 (bits v.toNat (64 * k + 63) (64 * k)))) else l) r.temps
    (wakeTable s t i 1, { r with temps }, .next (following r))

/-- TWR: the entry is written from consecutive temporaries. -/
def twrWord (s : State) (r : Routine) (m : Micro) : State × Routine × WordEnd :=
  let t := m.aux.val % 256
  let i := (operand s r m.src).toNat
  if !entryExists s t i then (s, r, .fault 0xA)
  else if s.seq.task ∧ (t = 2 ∨ tableReadOnly t) then (s, r, .fault 8)
  else
    let v := (List.range (tableBytes t / 8)).foldl (fun n k =>
      n + (if m.dest.val + k < 16 then (operand s r (m.dest.val + k)).toNat else 0) * 2 ^ (64 * k)) 0
    store s r (.table t i (BitVec.ofNat 512 v))

/-- CUST_HOST_BASE and CUST_HOST_LIMIT. -/
def customerBase (s : State) : Nat := rd s 0x8084 * 2 ^ 32 + rd s 0x8080
def customerLimit (s : State) : Nat := rd s 0x808C * 2 ^ 32 + rd s 0x8088

/-- A task's DMA stays within its host memory (R382). -/
def dmaAllowed (s : State) (ws : List Nat) : Bool :=
  let x := Config.dmaRange ws
  customerBase s ≤ x.1 && x.1 + x.2 ≤ customerLimit s

/-- DMA. -/
def dmaWord (s : State) (r : Routine) (m : Micro) : State × Routine × WordEnd :=
  let spill := bitAt m.aux.val 0
  let ws := (List.range 4).map fun k => (operand s r (12 + k)).toNat
  if s.seq.task ∧ (spill ∨ !dmaAllowed s ws) then (s, r, .fault 8)
  else store s r (.dma spill ws)

/-- COMMIT: the buffer drains in program order. In BOUNDARY mode it has no effect. -/
def commitWord (s : State) (r : Routine) : State × Routine × WordEnd :=
  if r.restart then
    (r.buffer.foldl applyWrite s, { r with buffer := [], committed := true, after := 0 }, .next (following r))
  else (s, r, .next (following r))

/-- The micro condition of a branch. -/
def branchTaken (r : Routine) (u : Nat) : Bool :=
  match u with
  | 0x10 => true | 0x11 => r.z | 0x12 => !r.z | 0x13 => r.n | _ => r.c

/-- What a word does, its own faults apart (R371). `idle` answers POLL. -/
def wordEffect (s : State) (r : Routine) (u : Nat) (m : Micro) (idle : Bool) : State × Routine × WordEnd :=
  let dest := operand s r m.dest
  let src := operand s r m.src
  match u with
  | 0x01 => yieldTo s r m m.dest { value := src }
  | 0x02 => yieldTo s r m m.dest (aluOp u dest src)
  | 0x03 => yieldTo s r m m.dest (aluOp u dest src)
  | 0x04 => yieldTo s r m m.dest (aluOp u dest src)
  | 0x05 => yieldTo s r m m.dest (aluOp u dest src)
  | 0x06 => yieldTo s r m m.dest (aluOp u dest src)
  | 0x07 => yieldTo s r m m.dest { value := dest <<< (m.aux.val % 64) }
  | 0x08 => yieldTo s r m m.dest { value := dest >>> (m.aux.val % 64) }
  | 0x09 => yieldTo s r m m.dest (aluAdd src (BitVec.ofInt 64 (auxInt m)))
  | 0x0A => yieldTo s r m m.dest { value := BitVec.ofNat 64 m.aux.val }
  | 0x10 => (s, r, .next (following r + auxInt m))
  | 0x11 => (s, r, .next (following r + (if branchTaken r u then auxInt m else 0)))
  | 0x12 => (s, r, .next (following r + (if branchTaken r u then auxInt m else 0)))
  | 0x13 => (s, r, .next (following r + (if branchTaken r u then auxInt m else 0)))
  | 0x14 => (s, r, .next (following r + (if branchTaken r u then auxInt m else 0)))
  | 0x15 => (s, r, .next (bits src.toNat 13 0))
  | 0x16 =>
    let v := operand s r 0x18 - 1
    (s, { r with loop := some v }, .next (following r + (if v = 0 then 0 else auxInt m)))
  | 0x20 => dldWord s r m
  | 0x21 => if ramAllowed s r then store s r (.ram (marRam s r) src) else (s, r, .fault 8)
  | 0x22 => rrdWord s r m
  | 0x23 =>
    let a := marOf s r % 2 ^ 26
    if s.seq.task ∧ !taskWrites a then (s, r, .fault 8) else store s r (.device a (src.setWidth 32))
  | 0x24 => trdWord s r m
  | 0x25 => twrWord s r m
  | 0x26 => dmaWord s r m
  | 0x27 => (s, { r with z := idle }, .next (following r))
  | 0x30 => commitWord s r
  | 0x31 => (s, r, .ends)
  | 0x32 => (s, r, .fault (m.aux.val % 256))
  | _ => (s, r, .next (following r))

/-! ### The end of an instruction, and the run of a word -/

/-- The instruction ends with the PC after it: a waiting interrupt is served, and a task whose abort is asked for ends (R383). -/
def endMacro (s : State) (pc : Nat) : State :=
  let s := { s with seq := { s.seq with
    routine := none, pc := pc % 2 ^ 20 / 4 * 4, abandoned := 0, waits := 0, interrupt := false } }
  if s.seq.task ∧ s.seq.abort then endTask s 4 0 else s

/-- The routine goes on at an address. -/
def stepRoutine (s : State) (old r : Routine) (n : Int) : State :=
  if 12288 ≤ old.entry ∧ (n < 12288 ∨ 16384 ≤ n) then deliverFault s 9
  else
    { s with seq := { s.seq with
      routine := some { r with upc := (n % 16384).toNat, words := r.words + 1, after := if old.committed then r.after + 1 else r.after } } }

/-- The word at the routine's address executes. -/
def runWord (s : State) (r : Routine) (u : Nat) (m : Micro) (idle : Bool) : State :=
  match wordFault r u m with
  | some c => deliverFault s c
  | none =>
    let e := wordEffect s r u m idle
    match e.2.2 with
    | .next n => stepRoutine e.1 r e.2.1 n
    | .ends => endMacro e.1 (e.1.seq.pc + 4)
    | .fault c => deliverFault e.1 c

/-- A microword of a row executes, where it is the word at the routine's address: a word of the patch RAM and of the customer region is
the one stored there, and one of the vendor ROM is what the row says. -/
def microRow (u : Nat) (m : Micro) (idle : Bool) (s : State) : State :=
  match s.seq.routine with
  | none => s
  | some r => if 8192 ≤ r.upc ∧ storeWord s r.upc ≠ microBits u m then s else runWord s r u m idle

/-! ### Macro-instructions (R366, R367, R373, R374) -/

/-- The macro-instruction at PC. -/
def fetched (s : State) : Nat := ramRead s s.seq.pc 4

/-- The dispatch entry of an opcode. -/
def dispatchEntry (s : State) (op : Nat) : Nat := (sget (fun _ => 0) s.seq.dispatch op).toNat

/-- The fault that fetch and dispatch raise: ACCESS outside a task's data region, ILLEGAL_OPCODE for a group that is not available
or an invalid entry. -/
def dispatchFault (s : State) (op : Nat) : Option Nat :=
  if s.seq.task ∧ !inCustomerRam s.seq.pc then some 8
  else if s.seq.task ∧ 0x60 ≤ op ∧ op < 0xE0 then some 1
  else if !s.seq.task ∧ 0xE0 ≤ op then some 1
  else if !bitAt (dispatchEntry s op) 31 then some 1
  else none

/-- The routine of a dispatch entry runs in RESTART mode (R373). -/
def restartMode (s : State) (entry : Nat) : Bool :=
  match bits entry 30 29 with
  | 1 => false | 2 => true | _ => flag s 0x8040 29

/-- A routine at its first word. -/
def freshRoutine (s : State) (word op : Nat) : Routine :=
  let e := dispatchEntry s op
  { entry := bits e 13 0, upc := bits e 13 0, word := BitVec.ofNat 32 word, opcode := op, restart := restartMode s e, seed := s.freeCount }

/-- Dispatch: the instruction at PC starts its routine, or faults. -/
def dispatch (s : State) : State :=
  let w := fetched s
  let op := bits w 31 24
  match dispatchFault s op with
  | some c => deliverFault s c
  | none => { drawn s with seq := { s.seq with routine := some (freshRoutine s w op) } }

/-- At a macro-instruction boundary. -/
def atBoundary (s : State) : Bool := seqRuns s && s.seq.routine.isNone

/-- A macro-instruction of a row executes, where it is the word at PC. -/
def macroRow (word : Nat) (s : State) (act : State → State) : State :=
  if !atBoundary s ∨ fetched s ≠ word then s
  else match dispatchFault s (bits word 31 24) with
    | some c => deliverFault s c
    | none => act s

/-- A register-form or immediate-form result: rd takes it and the macro flags follow. -/
def macroResult (s : State) (d : Nat) (x : AluResult) : State :=
  let (c, o, s) := openFlags s x
  let s := setMacroFlags (setG s d x.value) (flagsOf x.value c o)
  endMacro s (s.seq.pc + 4)

/-- HALT: the task ends DONE, even if its abort is asked for. DEDUCED (log 26): the PC stays at HALT, and outside a task the sequencer
sleeps. -/
def haltTask (s : State) : State :=
  if s.seq.task then endTask (wr s 0x8070 ((gReg s 1).toNat % 2 ^ 32)) 2 0
  else endMacro (setFld s 0x8040 31 30 0) (s.seq.pc + 4)

/-- The routine runs from word to word, at most `n` words. -/
def runRoutine : Nat → State → State
  | 0, s => s
  | n + 1, s =>
    match s.seq.routine with
    | none => s
    | some r =>
      if r.upc < 8192 then s
      else
        let w := microOf (storeWord s r.upc)
        runRoutine n (runWord s r w.1 w.2 true)

/-- A customer instruction of a task runs: it starts at a boundary, or goes on where it stands. DESIGN CHOICE (log 26): one command runs
at most 4,096 words, and the next one goes on. -/
def runCustomer (s : State) : State :=
  if !s.seq.task then s
  else if atBoundary s then
    (if 0xE0 ≤ bits (fetched s) 31 24 then runRoutine 4096 (dispatch s) else s)
  else runRoutine 4096 s

/-! ### Interrupts and time-outs (R370, R375 to R378) -/

/-- The routine is abandoned and starts again with the same architectural state. -/
def restartRoutine (s : State) (r : Routine) : State :=
  let s := count s 25 1
  { drawn s with seq := { s.seq with
    routine := some { entry := r.entry, upc := r.entry, word := r.word, opcode := r.opcode, restart := r.restart, seed := s.freeCount } } }

/-- An interrupt arrives: a sleeping sequencer wakes, a RESTART routine before COMMIT is abandoned eight times in a row at most, and
any other routine ends first. -/
def interrupt (s : State) : State :=
  if !seqRuns s then s
  else match s.seq.routine with
    | none => if fld s 0x8040 31 30 = 0 then setFld s 0x8040 31 30 1 else s
    | some r =>
      if r.restart ∧ !r.committed ∧ s.seq.abandoned < 8 then
        let s := restartRoutine s r
        { s with seq := { s.seq with abandoned := s.seq.abandoned + 1 } }
      else { s with seq := { s.seq with interrupt := true } }

/-- The micro-op uses a unit: data RAM, registers, tables or DMA. -/
def usesUnit (u : Nat) : Bool := 0x20 ≤ u && u ≤ 0x26

/-- The word that runs waits for its unit: DWELL is 0b11, and the word uses one. What stands in the vendor ROM is not known. -/
def waitsForUnit (s : State) (r : Routine) : Bool :=
  r.upc < 8192 || (let w := microOf (storeWord s r.upc); w.2.dwell.val == 3 && usesUnit w.1 && (wordFault r w.1 w.2).isNone)

/-- The request that a word has issued completes, and its result is discarded (R370). -/
def issued (s : State) (r : Routine) : State :=
  if r.upc < 8192 then s
  else
    let w := microOf (storeWord s r.upc)
    let e := (wordEffect s r w.1 { w.2 with setcc := false, setmf := false } true).1
    { e with seq := { e.seq with routine := some r } }

/-- A word's unit is not ready by the 256th clock. -/
def timeOut (s : State) : State :=
  match s.seq.routine with
  | none => s
  | some r =>
    if !waitsForUnit s r then s
    else
    let s := issued s r
    if r.restart ∧ !r.committed ∧ s.seq.waits + 1 < 128 then
      let s := restartRoutine s r
      { s with seq := { s.seq with waits := s.seq.waits + 1 } }
    else deliverFault s 3

/-! ### Customer microcode (R384) -/

/-- Every VALID entry has MODE 0b10 and its ENTRY in the customer region. -/
def entryGood (e : Word32) : Bool := !bitAt e.toNat 31 || (bits e.toNat 30 29 == 2 && 12288 ≤ bits e.toNat 13 0)

/-- No customer instruction is valid. -/
def invalidateCustomer (s : State) : State :=
  setFlag { s with seq := { s.seq with dispatch := skeep (fun k => k < 0xE0) s.seq.dispatch } } 0x8040 28 false

/-- Step 5: the region and the entries are replaced. -/
def installMicrocode (s : State) (version : Nat) (entries words : List Word32) : State :=
  let s := invalidateCustomer s
  let s := { s with seq := { s.seq with store := loadWords (skeep (fun k => k < 12288) s.seq.store) 12288 words } }
  let s := { s with seq := { s.seq with dispatch := loadWords s.seq.dispatch 0xE0 entries } }
  raise (setFld (setFlag s 0x8040 28 true) 0x8040 15 0 version) .sequencer 2

/-- UCODE_LOAD.GO with the image as it is read and checked (R384), in a life-cycle state that permits it (R398). -/
def loadMicrocode (s : State) (image : ImageCheck) (version : Nat) (entries words : List Word32) : State :=
  if !s.firmware.running then s
  else if s.seq.task then setFld s 0x8054 30 28 4
  else
  let s := emit s (.hostRead (rd s 0x8050 * 2 ^ 32 + rd s 0x804C) (fld s 0x8054 19 0))
  let status := fun (v : Nat) => setFld s 0x8054 30 28 v
  if !image.readOk then status 5
  else if s.colophon.ownerDigest.isNone then status 1
  else if !image.authentic ∨ image.signer ≠ 0xF ∨ !signerGood s 0xF ∨
      (s.colophon.lifecycle ≠ 1 ∧ s.colophon.lifecycle ≠ 2) then status 2
  else if 4096 < words.length ∨ !entries.all entryGood then status 3
  else installMicrocode (status 0) version entries words

/-! ### ECC (R386) -/

/-- An ECC error of a data RAM byte or of a control store word. -/
def seqEcc (s : State) (dataRam : Bool) (a : Nat) (correctable : Bool) : State :=
  if !coreRuns s then s else if correctable then report (tally s 0x80CC) 0x0101 .sequencer [a]
  else if (if dataRam then !inCustomerRam a else a < 12288) then fatalError s 0x0107
  else
    let s := report s 0x0108 .sequencer [a]
    let s := if dataRam then s else invalidateCustomer s
    if s.seq.task ∧ (dataRam ∨ s.seq.routine.isSome) then deliverFault s 0xB else s

/-! ### The commands -/

/-- ROSTAL_INSTRUCTION: the instruction at PC starts its routine (R374). -/
def execRostalInstruction (s : State) : Res := done (if atBoundary s then dispatch s else s)

/-- MOV rd := ra (R367). -/
def execMov (rd_ ra : Fin 32) (s : State) : Res :=
  done (macroRow (0x01 * 2 ^ 24 + rd_.val * 2 ^ 19 + ra.val * 2 ^ 14) s fun s => macroResult s rd_ { value := gReg s ra })

/-- SUB rd := ra − rb (R367). -/
def execSub (rd_ ra rb : Fin 32) (s : State) : Res :=
  done (macroRow (0x03 * 2 ^ 24 + rd_.val * 2 ^ 19 + ra.val * 2 ^ 14 + rb.val * 2 ^ 9) s fun s =>
    macroResult s rd_ (aluSub (gReg s ra) (gReg s rb)))

/-- LDI rd := zero-extended IMM14 (R367). -/
def execLdi (rd_ : Fin 32) (imm : BitVec 14) (s : State) : Res :=
  done (macroRow (0x09 * 2 ^ 24 + rd_.val * 2 ^ 19 + imm.toNat) s fun s => macroResult s rd_ { value := imm.setWidth 64 })

/-- BNZ: a branch if Z = 0 (R366, R367). -/
def execBnz (offset : BitVec 24) (s : State) : Res :=
  done (macroRow (0x52 * 2 ^ 24 + offset.toNat) s fun s =>
    let step : Int := if s.seq.z then 4 else 4 + 4 * offset.toInt
    endMacro s (((s.seq.pc : Int) + step) % 2 ^ 20).toNat)

/-- HALT (R381). -/
def execHalt (s : State) : Res := done (macroRow (0x5F * 2 ^ 24) s haltTask)

/-- CUSTOMER_INSTRUCTION: opcodes 0xE0 to 0xFF (R385). -/
def execCustomerInstruction (s : State) : Res := done (runCustomer s)

/-- NOP (R371). -/
def execUopNop (m : Micro) (s : State) : Res := done (microRow 0x00 m true s)

/-- MOV (R371). -/
def execUopMov (m : Micro) (s : State) : Res := done (microRow 0x01 m true s)

/-- The code of a dyadic micro-op. -/
def AluOp.code : AluOp → Nat
  | .add => 2 | .sub => 3 | .and => 4 | .or => 5 | .xor => 6

/-- The code of a branch micro-op. -/
def BranchOp.code : BranchOp → Nat
  | .br => 0x10 | .bz => 0x11 | .bnz => 0x12 | .bn => 0x13 | .bc => 0x14

/-- ADD, SUB, AND, OR, XOR (R371). -/
def execUopAlu (op : AluOp) (m : Micro) (s : State) : Res := done (microRow (AluOp.code op) m true s)

/-- SHL, SHR (R371). -/
def execUopShift (right : Bool) (m : Micro) (s : State) : Res := done (microRow (if right then 0x08 else 0x07) m true s)

/-- ADDI (R371). -/
def execUopAddi (m : Micro) (s : State) : Res := done (microRow 0x09 m true s)

/-- LDI (R371). -/
def execUopLdi (m : Micro) (s : State) : Res := done (microRow 0x0A m true s)

/-- BR, BZ, BNZ, BN, BC (R371). -/
def execUopBranch (op : BranchOp) (m : Micro) (s : State) : Res := done (microRow (BranchOp.code op) m true s)

/-- JMPT (R371). -/
def execJmpt (m : Micro) (s : State) : Res := done (microRow 0x15 m true s)

/-- LOOP (R371). -/
def execUopLoop (m : Micro) (s : State) : Res := done (microRow 0x16 m true s)

/-- DLD (R371). -/
def execDld (m : Micro) (s : State) : Res := done (microRow 0x20 m true s)

/-- DST (R371). -/
def execDst (m : Micro) (s : State) : Res := done (microRow 0x21 m true s)

/-- RRD (R371, R379). -/
def execRrd (m : Micro) (s : State) : Res := done (microRow 0x22 m true s)

/-- RWR (R371). -/
def execRwr (m : Micro) (s : State) : Res := done (microRow 0x23 m true s)

/-- TRD (R371). -/
def execTrd (m : Micro) (s : State) : Res := done (microRow 0x24 m true s)

/-- TWR (R371). -/
def execTwr (m : Micro) (s : State) : Res := done (microRow 0x25 m true s)

/-- DMA (R371). -/
def execUopDma (m : Micro) (s : State) : Res := done (microRow 0x26 m true s)

/-- POLL, with whether the unit is idle (R371). -/
def execPoll (m : Micro) (idle : Bool) (s : State) : Res := done (microRow 0x27 m idle s)

/-- COMMIT (R376). -/
def execCommit (m : Micro) (s : State) : Res := done (microRow 0x30 m true s)

/-- END (R371). -/
def execUopEnd (m : Micro) (s : State) : Res := done (microRow 0x31 m true s)

/-- FAULT (R371). -/
def execFault (m : Micro) (s : State) : Res := done (microRow 0x32 m true s)

/-- WAIT_TIMEOUT (R370, R378). -/
def execWaitTimeout (s : State) : Res := done (timeOut s)

/-- SEQ_INTERRUPT (R375 to R378). -/
def execSeqInterrupt (s : State) : Res := done (interrupt s)

/-- MICRO_FAULT: a fault is delivered with a cause of the table (R380). -/
def execMicroFault (cause : Fin 16) (s : State) : Res :=
  done (if seqRuns s ∧ 1 ≤ cause.val ∧ cause.val ≤ 0xD then deliverFault s cause else s)

/-- UCODE_LOAD (R384). -/
def execUcodeLoad (src : Source) (image : ImageCheck) (version : BitVec 16) (entries words : List Word32) (s : State) : Res :=
  sized (entries.length == 32) (guarded s src 0x8054 fun s => loadMicrocode s image version.toNat entries words)

/-- SEQ_ECC_ERROR (R386). -/
def execSeqEccError (dataRam : Bool) (addr : Nat) (correctable : Bool) (s : State) : Res := done (seqEcc s dataRam addr correctable)

end Sys2Proof.Machine
end

