-- ==== Sys2Proof/Machine/Dispatch.lean ====
section
/-! DEFINITION. The dispatch: one arm per command, each a direct call of the command's meaning. -/

namespace Sys2Proof.Machine

def exec (i : Instr) (s : State) : Host.Outcome State Fault Refusal :=
  match i with
  | .registerWrite src addr size value parityOk => Sys2Proof.Machine.execRegisterWrite src addr size value parityOk s
  | .pairLoRead src addr => Sys2Proof.Machine.execPairLoRead src addr s
  | .pairHiRead src addr => Sys2Proof.Machine.execPairHiRead src addr s
  | .pairLoWrite src addr value => Sys2Proof.Machine.execPairLoWrite src addr value s
  | .pairHiWrite src addr value => Sys2Proof.Machine.execPairHiWrite src addr value s
  | .intForce src addr value => Sys2Proof.Machine.execIntForce src addr value s
  | .lock src addr => Sys2Proof.Machine.execLock src addr s
  | .resume src addr mismatch => Sys2Proof.Machine.execResume src addr mismatch s
  | .discardStaged src addr => Sys2Proof.Machine.execDiscardStaged src addr s
  | .sysCommitGo src epoch => Sys2Proof.Machine.execSysCommitGo src epoch s
  | .sliceEpochSwitch slice => Sys2Proof.Machine.execSliceEpochSwitch slice s
  | .commitDone => Sys2Proof.Machine.execCommitDone s
  | .fenceGo src full => Sys2Proof.Machine.execFenceGo src full s
  | .fenceDone => Sys2Proof.Machine.execFenceDone s
  | .cycleBoundary estimate parityBad => Sys2Proof.Machine.execCycleBoundary estimate parityBad s
  | .frameReceive port bytes ended preemptable => Sys2Proof.Machine.execFrameReceive port bytes ended preemptable s
  | .macControlFrame port bytes => Sys2Proof.Machine.execMacControlFrame port bytes s
  | .frameEnd port preemptable rest fault fragments => Sys2Proof.Machine.execFrameEnd port preemptable rest fault fragments s
  | .portSelect port express => Sys2Proof.Machine.execPortSelect port express s
  | .transmitStart port express => Sys2Proof.Machine.execTransmitStart port express s
  | .transmitEnd port express => Sys2Proof.Machine.execTransmitEnd port express s
  | .ctUnderrun port express => Sys2Proof.Machine.execCtUnderrun port express s
  | .residenceScan queue => Sys2Proof.Machine.execResidenceScan queue s
  | .bufPeakClear src => Sys2Proof.Machine.execBufPeakClear src s
  | .portEnable src port => Sys2Proof.Machine.execPortEnable src port s
  | .portDisable src port => Sys2Proof.Machine.execPortDisable src port s
  | .portReset src port => Sys2Proof.Machine.execPortReset src port s
  | .retrain src port => Sys2Proof.Machine.execRetrain src port s
  | .linkEstablished port mode rxLatency txLatency lpi => Sys2Proof.Machine.execLinkEstablished port mode rxLatency txLatency lpi s
  | .linkLoss port lanes => Sys2Proof.Machine.execLinkLoss port lanes s
  | .holdoffExpiry port => Sys2Proof.Machine.execHoldoffExpiry port s
  | .flushDone port => Sys2Proof.Machine.execFlushDone port s
  | .trainingFailed port cause => Sys2Proof.Machine.execTrainingFailed port cause s
  | .pauseTimerExpiry port prio => Sys2Proof.Machine.execPauseTimerExpiry port prio s
  | .fcRefresh port prio => Sys2Proof.Machine.execFcRefresh port prio s
  | .lpiEntry port => Sys2Proof.Machine.execLpiEntry port s
  | .learnRequest => Sys2Proof.Machine.execLearnRequest s
  | .ploughVisit => Sys2Proof.Machine.execPloughVisit s
  | .tableEntryEcc table index => Sys2Proof.Machine.execTableEntryEcc table index s
  | .lagRedistribute group => Sys2Proof.Machine.execLagRedistribute group s
  | .shadowVisit shadow => Sys2Proof.Machine.execShadowVisit shadow s
  | .shadowReread shadow => Sys2Proof.Machine.execShadowReread shadow s
  | .shadowOnePass src => Sys2Proof.Machine.execShadowOnePass src s
  | .policerRefill => Sys2Proof.Machine.execPolicerRefill s
  | .streamGateChange gate => Sys2Proof.Machine.execStreamGateChange gate s
  | .batchClose queue => Sys2Proof.Machine.execBatchClose queue s
  | .sheetChoice queue => Sys2Proof.Machine.execSheetChoice queue s
  | .sheetWaitExpiry queue => Sys2Proof.Machine.execSheetWaitExpiry queue s
  | .sheetWriteDone queue serial => Sys2Proof.Machine.execSheetWriteDone queue serial s
  | .prefetchStart queue => Sys2Proof.Machine.execPrefetchStart queue s
  | .spillReadReturn queue serial block status => Sys2Proof.Machine.execSpillReadReturn queue serial block status s
  | .spillReadTimeout queue serial record => Sys2Proof.Machine.execSpillReadTimeout queue serial record s
  | .sheetRelease queue serial headerOk ownerOk poisoned => Sys2Proof.Machine.execSheetRelease queue serial headerOk ownerOk poisoned s
  | .sheetAgeScan queue => Sys2Proof.Machine.execSheetAgeScan queue s
  | .spillPlaceWrite src mask => Sys2Proof.Machine.execSpillPlaceWrite src mask s
  | .forceDiscard src mask => Sys2Proof.Machine.execForceDiscard src mask s
  | .poolInit src port pool filled => Sys2Proof.Machine.execPoolInit src port pool filled s
  | .spillQuery src queue => Sys2Proof.Machine.execSpillQuery src queue s
  | .cxlPortEnable src port => Sys2Proof.Machine.execCxlPortEnable src port s
  | .cxlLinkUp port x8 rate cxl2 wide mem => Sys2Proof.Machine.execCxlLinkUp port x8 rate cxl2 wide mem s
  | .cxlEnumerationTimeout port cause => Sys2Proof.Machine.execCxlEnumerationTimeout port cause s
  | .cxlReady port capacity => Sys2Proof.Machine.execCxlReady port capacity s
  | .cxlHealthPoll port health events => Sys2Proof.Machine.execCxlHealthPoll port health events s
  | .cxlEventSignal port events => Sys2Proof.Machine.execCxlEventSignal port events s
  | .cxlPortFailure port cause => Sys2Proof.Machine.execCxlPortFailure port cause s
  | .cxlPortReset src port => Sys2Proof.Machine.execCxlPortReset src port s
  | .sanitizeDone port ok => Sys2Proof.Machine.execSanitizeDone port ok s
  | .shaperRefill tier => Sys2Proof.Machine.execShaperRefill tier s
  | .transitEnd node => Sys2Proof.Machine.execTransitEnd node s
  | .nodeQuery src index => Sys2Proof.Machine.execNodeQuery src index s
  | .gateConfigChange src port => Sys2Proof.Machine.execGateConfigChange src port s
  | .gateChangeTime port => Sys2Proof.Machine.execGateChangeTime port s
  | .gateEntryChange port => Sys2Proof.Machine.execGateEntryChange port s
  | .gateDisable src port => Sys2Proof.Machine.execGateDisable src port s
  | .gateWake slice => Sys2Proof.Machine.execGateWake slice s
  | .verifySend port => Sys2Proof.Machine.execVerifySend port s
  | .verifyResponse port => Sys2Proof.Machine.execVerifyResponse port s
  | .timeCapture src => Sys2Proof.Machine.execTimeCapture src s
  | .timeStep src => Sys2Proof.Machine.execTimeStep src s
  | .timeSlew src => Sys2Proof.Machine.execTimeSlew src s
  | .slewAbort src => Sys2Proof.Machine.execSlewAbort src s
  | .slewDone => Sys2Proof.Machine.execSlewDone s
  | .tevEdgeCapture pin falling => Sys2Proof.Machine.execTevEdgeCapture pin falling s
  | .tevCapRead src pin => Sys2Proof.Machine.execTevCapRead src pin s
  | .tevArm src pin => Sys2Proof.Machine.execTevArm src pin s
  | .tevOutputEdge pin => Sys2Proof.Machine.execTevOutputEdge pin s
  | .rclkSquelch output => Sys2Proof.Machine.execRclkSquelch output s
  | .rclkRestart output => Sys2Proof.Machine.execRclkRestart output s
  | .pllUnlock => Sys2Proof.Machine.execPllUnlock s
  | .twinArm src => Sys2Proof.Machine.execTwinArm src s
  | .twinDisarm src => Sys2Proof.Machine.execTwinDisarm src s
  | .claimAssert samples => Sys2Proof.Machine.execClaimAssert samples s
  | .claimConfirm samples matePresent => Sys2Proof.Machine.execClaimConfirm samples matePresent s
  | .claimConflict => Sys2Proof.Machine.execClaimConflict s
  | .egressAllowed samples => Sys2Proof.Machine.execEgressAllowed samples s
  | .claimRelease => Sys2Proof.Machine.execClaimRelease s
  | .twinRelease src => Sys2Proof.Machine.execTwinRelease src s
  | .takeoverActive => Sys2Proof.Machine.execTakeoverActive s
  | .kettleEnable src => Sys2Proof.Machine.execKettleEnable src s
  | .kettleTrained => Sys2Proof.Machine.execKettleTrained s
  | .hello seatB versions spdm => Sys2Proof.Machine.execHello seatB versions spdm s
  | .kettleUp chainOk sameOwner sameImages => Sys2Proof.Machine.execKettleUp chainOk sameOwner sameImages s
  | .kettleDown => Sys2Proof.Machine.execKettleDown s
  | .kettleFailedRetry => Sys2Proof.Machine.execKettleFailedRetry s
  | .heartbeat seq words rxSec rxNs => Sys2Proof.Machine.execHeartbeat seq words rxSec rxNs s
  | .mateResetPulseEnd => Sys2Proof.Machine.execMateResetPulseEnd s
  | .mateResetDisarm src => Sys2Proof.Machine.execMateResetDisarm src s
  | .delta seq cp sub words => Sys2Proof.Machine.execDelta seq cp sub words s
  | .endRecord seq cp words => Sys2Proof.Machine.execEndRecord seq cp words s
  | .mailboxRecord seq sub words => Sys2Proof.Machine.execMailboxRecord seq sub words s
  | .health seq words => Sys2Proof.Machine.execHealth seq words s
  | .ack upTo nak => Sys2Proof.Machine.execAck upTo nak s
  | .kettleRetransmitTimer => Sys2Proof.Machine.execKettleRetransmitTimer s
  | .kettleRecordBad => Sys2Proof.Machine.execKettleRecordBad s
  | .configDigest => Sys2Proof.Machine.execConfigDigest s
  | .handover src => Sys2Proof.Machine.execHandover src s
  | .handoverDrainEnd => Sys2Proof.Machine.execHandoverDrainEnd s
  | .handoverRelease => Sys2Proof.Machine.execHandoverRelease s
  | .resync src => Sys2Proof.Machine.execResync src s
  | .bulk seq sub words => Sys2Proof.Machine.execBulk seq sub words s
  | .syncDone => Sys2Proof.Machine.execSyncDone s
  | .selftestFrame slice contentOk sequenceOk latency => Sys2Proof.Machine.execSelftestFrame slice contentOk sequenceOk latency s
  | .selftestSpill port same => Sys2Proof.Machine.execSelftestSpill port same s
  | .selftestEye heights => Sys2Proof.Machine.execSelftestEye heights s
  | .selftestScrub corrected uncorrectable => Sys2Proof.Machine.execSelftestScrub corrected uncorrectable s
  | .wdKick src value => Sys2Proof.Machine.execWdKick src value s
  | .watchdogExpired => Sys2Proof.Machine.execWatchdogExpired s
  | .delayedWarmReset => Sys2Proof.Machine.execDelayedWarmReset s
  | .sliceSleepEntry slice => Sys2Proof.Machine.execSliceSleepEntry slice s
  | .sliceDeepSleep slice => Sys2Proof.Machine.execSliceDeepSleep slice s
  | .sliceWakeTrigger slice => Sys2Proof.Machine.execSliceWakeTrigger slice s
  | .sliceAwake slice => Sys2Proof.Machine.execSliceAwake slice s
  | .govRelax => Sys2Proof.Machine.execGovRelax s
  | .fastEstimate tenths => Sys2Proof.Machine.execFastEstimate tenths s
  | .pmbusAlert asserted => Sys2Proof.Machine.execPmbusAlert asserted s
  | .voltageConfirmed => Sys2Proof.Machine.execVoltageConfirmed s
  | .pmbusError => Sys2Proof.Machine.execPmbusError s
  | .agingMonitorRead steps => Sys2Proof.Machine.execAgingMonitorRead steps s
  | .standby src => Sys2Proof.Machine.execStandby src s
  | .wake src => Sys2Proof.Machine.execWake src s
  | .thermalSample temps => Sys2Proof.Machine.execThermalSample temps s
  | .thermalAutoRestart => Sys2Proof.Machine.execThermalAutoRestart s
  | .quiet src on => Sys2Proof.Machine.execQuiet src on s
  | .resetReq src => Sys2Proof.Machine.execResetReq src s
  | .snapshot src => Sys2Proof.Machine.execSnapshot src s
  | .dumpCounterRead => Sys2Proof.Machine.execDumpCounterRead s
  | .dumpDone => Sys2Proof.Machine.execDumpDone s
  | .counterSaturated addr => Sys2Proof.Machine.execCounterSaturated addr s
  | .pf1Read offset => Sys2Proof.Machine.execPf1Read offset s
  | .captureRecord => Sys2Proof.Machine.execCaptureRecord s
  | .traceRecord => Sys2Proof.Machine.execTraceRecord s
  | .perstN asserted => Sys2Proof.Machine.execPerstN asserted s
  | .hotReset => Sys2Proof.Machine.execHotReset s
  | .flrPf0 => Sys2Proof.Machine.execFlrPf0 s
  | .flrPf1 => Sys2Proof.Machine.execFlrPf1 s
  | .doorbell page value => Sys2Proof.Machine.execDoorbell page value s
  | .txFrameFetch ring descriptors data dmaOk => Sys2Proof.Machine.execTxFrameFetch ring descriptors data dmaOk s
  | .rxDeliver buffers dmaOk => Sys2Proof.Machine.execRxDeliver buffers dmaOk s
  | .itrExpiry ring => Sys2Proof.Machine.execItrExpiry ring s
  | .ringEnable src ring => Sys2Proof.Machine.execRingEnable src ring s
  | .ringDisable src ring => Sys2Proof.Machine.execRingDisable src ring s
  | .ringIdle ring commands => Sys2Proof.Machine.execRingIdle ring commands s
  | .read table tag applied index count hostAddr dmaOk => Sys2Proof.Machine.execRead table tag applied index count hostAddr dmaOk s
  | .write table tag index count images dmaOk => Sys2Proof.Machine.execWrite table tag index count images dmaOk s
  | .insert table tag image dmaOk => Sys2Proof.Machine.execInsert table tag image dmaOk s
  | .delete table tag image dmaOk => Sys2Proof.Machine.execDelete table tag image dmaOk s
  | .lockEntry table tag image dmaOk => Sys2Proof.Machine.execLockEntry table tag image dmaOk s
  | .unlock table tag image dmaOk => Sys2Proof.Machine.execUnlock table tag image dmaOk s
  | .flush table tag includeStatic filter value => Sys2Proof.Machine.execFlush table tag includeStatic filter value s
  | .fdbFlushComplete => Sys2Proof.Machine.execFdbFlushComplete s
  | .regRead tag index count hostAddr dmaOk => Sys2Proof.Machine.execRegRead tag index count hostAddr dmaOk s
  | .regWrite tag index value => Sys2Proof.Machine.execRegWrite tag index value s
  | .nop tag => Sys2Proof.Machine.execNop tag s
  | .tableCompletion => Sys2Proof.Machine.execTableCompletion s
  | .tableWindowRead src addr => Sys2Proof.Machine.execTableWindowRead src addr s
  | .qspiRead src addr => Sys2Proof.Machine.execQspiRead src addr s
  | .qspiProgram src addr => Sys2Proof.Machine.execQspiProgram src addr s
  | .qspiErase src addr => Sys2Proof.Machine.execQspiErase src addr s
  | .qspiDone ok data => Sys2Proof.Machine.execQspiDone ok data s
  | .gpioEvent pin level => Sys2Proof.Machine.execGpioEvent pin level s
  | .mailboxGo src channel => Sys2Proof.Machine.execMailboxGo src channel s
  | .take src channel => Sys2Proof.Machine.execTake src channel s
  | .withdraw src channel => Sys2Proof.Machine.execWithdraw src channel s
  | .mailboxTimeout channel => Sys2Proof.Machine.execMailboxTimeout channel s
  | .receiverDown channel => Sys2Proof.Machine.execReceiverDown channel s
  | .senderReset src channel => Sys2Proof.Machine.execSenderReset src channel s
  | .firmwareTakeCommand => Sys2Proof.Machine.execFirmwareTakeCommand s
  | .fwVersion channel => Sys2Proof.Machine.execFwVersion channel s
  | .profileSet channel => Sys2Proof.Machine.execProfileSet channel s
  | .powerEnvelopeSet channel => Sys2Proof.Machine.execPowerEnvelopeSet channel s
  | .spillEnable channel => Sys2Proof.Machine.execSpillEnable channel s
  | .cxlStatus channel => Sys2Proof.Machine.execCxlStatus channel s
  | .tableFlush channel => Sys2Proof.Machine.execTableFlush channel s
  | .fdbFlushPort channel => Sys2Proof.Machine.execFdbFlushPort channel s
  | .twinStatus channel => Sys2Proof.Machine.execTwinStatus channel s
  | .twinHandover channel => Sys2Proof.Machine.execTwinHandover channel s
  | .healthGet channel => Sys2Proof.Machine.execHealthGet channel s
  | .selftestRun channel results => Sys2Proof.Machine.execSelftestRun channel results s
  | .lifecycleAdvance channel otpOk => Sys2Proof.Machine.execLifecycleAdvance channel otpOk s
  | .rostalInstruction => Sys2Proof.Machine.execRostalInstruction s
  | .mov rd ra => Sys2Proof.Machine.execMov rd ra s
  | .sub rd ra rb => Sys2Proof.Machine.execSub rd ra rb s
  | .ldi rd imm => Sys2Proof.Machine.execLdi rd imm s
  | .bnz offset => Sys2Proof.Machine.execBnz offset s
  | .halt => Sys2Proof.Machine.execHalt s
  | .customerInstruction => Sys2Proof.Machine.execCustomerInstruction s
  | .uopNop m => Sys2Proof.Machine.execUopNop m s
  | .uopMov m => Sys2Proof.Machine.execUopMov m s
  | .uopAlu op m => Sys2Proof.Machine.execUopAlu op m s
  | .uopShift right m => Sys2Proof.Machine.execUopShift right m s
  | .uopAddi m => Sys2Proof.Machine.execUopAddi m s
  | .uopLdi m => Sys2Proof.Machine.execUopLdi m s
  | .uopBranch op m => Sys2Proof.Machine.execUopBranch op m s
  | .jmpt m => Sys2Proof.Machine.execJmpt m s
  | .uopLoop m => Sys2Proof.Machine.execUopLoop m s
  | .dld m => Sys2Proof.Machine.execDld m s
  | .dst m => Sys2Proof.Machine.execDst m s
  | .rrd m => Sys2Proof.Machine.execRrd m s
  | .rwr m => Sys2Proof.Machine.execRwr m s
  | .trd m => Sys2Proof.Machine.execTrd m s
  | .twr m => Sys2Proof.Machine.execTwr m s
  | .uopDma m => Sys2Proof.Machine.execUopDma m s
  | .poll m idle => Sys2Proof.Machine.execPoll m idle s
  | .commit m => Sys2Proof.Machine.execCommit m s
  | .uopEnd m => Sys2Proof.Machine.execUopEnd m s
  | .fault m => Sys2Proof.Machine.execFault m s
  | .waitTimeout => Sys2Proof.Machine.execWaitTimeout s
  | .seqInterrupt => Sys2Proof.Machine.execSeqInterrupt s
  | .microFault cause => Sys2Proof.Machine.execMicroFault cause s
  | .taskGo src entry => Sys2Proof.Machine.execTaskGo src entry s
  | .taskAbort src => Sys2Proof.Machine.execTaskAbort src s
  | .ucodeLoad src image version entries words => Sys2Proof.Machine.execUcodeLoad src image version entries words s
  | .seqDramAccess src store => Sys2Proof.Machine.execSeqDramAccess src store s
  | .seqEccError dataRam addr correctable => Sys2Proof.Machine.execSeqEccError dataRam addr correctable s
  | .zeroise src => Sys2Proof.Machine.execZeroise src s
  | .ownerEnrol src onCurve otpOk digest => Sys2Proof.Machine.execOwnerEnrol src onCurve otpOk digest s
  | .debugToken src image serial nonce => Sys2Proof.Machine.execDebugToken src image serial nonce s
  | .debugClose src => Sys2Proof.Machine.execDebugClose src s
  | .entropyFailure => Sys2Proof.Machine.execEntropyFailure s
  | .firmwareBoot image version patchVersion patch entries trusted => Sys2Proof.Machine.execFirmwareBoot image version patchVersion patch entries trusted s
  | .confirm src => Sys2Proof.Machine.execConfirm src s
  | .bootFailure => Sys2Proof.Machine.execBootFailure s
  | .getVersion => Sys2Proof.Machine.execGetVersion s
  | .getCapabilities => Sys2Proof.Machine.execGetCapabilities s
  | .negotiateAlgorithms => Sys2Proof.Machine.execNegotiateAlgorithms s
  | .getDigests slot => Sys2Proof.Machine.execGetDigests slot s
  | .getCertificate slot offset length => Sys2Proof.Machine.execGetCertificate slot offset length s
  | .challenge slot nonce => Sys2Proof.Machine.execChallenge slot nonce s
  | .getMeasurements index signed nonce => Sys2Proof.Machine.execGetMeasurements index signed nonce s
  | .unsupportedRequest code => Sys2Proof.Machine.execUnsupportedRequest code s
  | .statusRead port => Sys2Proof.Machine.execStatusRead port s
  | .deviceReset port => Sys2Proof.Machine.execDeviceReset port s
  | .rescueTwinHandover port => Sys2Proof.Machine.execRescueTwinHandover port s
  | .slotSelect port => Sys2Proof.Machine.execSlotSelect port s
  | .powerUp seatB addr => Sys2Proof.Machine.execPowerUp seatB addr s
  | .coreRailsInRange colophonOk bistOk => Sys2Proof.Machine.execCoreRailsInRange colophonOk bistOk s
  | .sysResetN lowNs => Sys2Proof.Machine.execSysResetN lowNs s
  | .warmReset cause colophonOk bistOk => Sys2Proof.Machine.execWarmReset cause colophonOk bistOk s
  | .coldReset cause seatB => Sys2Proof.Machine.execColdReset cause seatB s
  | .sliceReset src slice => Sys2Proof.Machine.execSliceReset src slice s
  | .supplyLoss rail => Sys2Proof.Machine.execSupplyLoss rail s
  | .sentinelWedge => Sys2Proof.Machine.execSentinelWedge s
  | .deviceFatal code => Sys2Proof.Machine.execDeviceFatal code s
  | .errorLogRecord => Sys2Proof.Machine.execErrorLogRecord s
  | .cxlPortDisable src port => Sys2Proof.Machine.execCxlPortDisable src port s
  | .kettleTrainingTimeout => Sys2Proof.Machine.execKettleTrainingTimeout s
  | .pllLock => Sys2Proof.Machine.execPllLock s
  | .setTimestamp => Sys2Proof.Machine.execSetTimestamp s
  | .estimateCalibration vin iin => Sys2Proof.Machine.execEstimateCalibration vin iin s
  | .freeRingTransfer port pool addresses => Sys2Proof.Machine.execFreeRingTransfer port pool addresses s
  | .wdConfigWrite src value => Sys2Proof.Machine.execWdConfigWrite src value s

end Sys2Proof.Machine
end

