-- ==== Sys2Proof/Machine/Tick.lean ====
section
/-! DEFINITION. What 1 ns of time does while no command waits (log 2): the corrections of device time (R235 to R237), the bounds that run out
with steady time alone, the clocks, the output pins (R253), and the end of a core clock change (R15). -/

namespace Sys2Proof.Machine

/-- The corrections of device time that wait act at the tick, before its increment: the slew, then the step (R235 to R237). -/
def correctTime (s : State) : State :=
  if !s.startup.island then s
  else
    let s := slewTick s
    match s.clock.stepWaiting with
    | some n => stepTime s n
    | none => s

/-- The stall of a core clock change ends: the frames that collected in the wake FIFOs of awake slices enter them (R15). -/
def endStall (s : State) : State :=
  match s.power.stallUntil with
  | none => s
  | some t =>
    if now s < t then s
    else
      (List.range 8).foldl (fun s i => if awake s i then drainFifo s i else s) { s with power := { s.power with stallUntil := none } }

/-- The queues that hold frames keep the slices that they concern from counting toward sleep (R289): that of their port, and slice 0 for the
host port. -/
def busyTime (s : State) : State :=
  (busyQueues s).foldl (fun s q =>
    match queuePort s q with
    | some p => touchSlice s (if p = 64 then 0 else sliceOf p)
    | none => s) s

/-- What follows the clocks in a powered device: the plough's swap and the walk of a flush (R102, R107), outputs whose WIDTH has passed, the
end of a stall, the bounds of Kettle's session setup and of the CXL ports' enumeration. -/
def timers (s : State) : State :=
  let s := (List.range 8).foldl tevEnd s
  let s := kettleBound (endStall (flushStep (ploughSwap (busyTime s))))
  (List.range 4).foldl cxlTick s

/-- One tick of 1 ns: nothing happens without VDD_AON. -/
def tick (s : State) : State :=
  if !s.startup.aonUp then s else timers (advance (correctTime s))

end Sys2Proof.Machine
end

