-- ==== Sys2Proof/WellFormed.lean ====
section
/-! DEFINITION. Which commands have the form the spec gives them: operand lists of a fixed size have that size, and
addresses lie in BAR_0. -/

namespace Sys2Proof

/-- A byte address inside the 64 MiB of BAR_0 (R422). -/
def addrOk (a : Nat) : Bool := a < 2 ^ 26

/-- The command has a form the spec gives it. The claim rows carry their 25 MHz samples (R260, R261), the thermal row
16 sensors (R298), the eye row 66 lanes (R286), a Kettle record at most 12 payload words (R274), a customer image 32
entries (R383), a boot image 224 entries (R367), a digest 12 words, a nonce 3, a flash burst 64 bytes (R347). -/
def Instr.wellFormed : Instr → Bool
  | .claimAssert samples => samples.length = 50
  | .claimConfirm samples _ => samples.length = 25
  | .egressAllowed samples => samples.length = 50
  | .thermalSample temps => temps.length = 16
  | .selftestEye heights => heights.length = 66
  | .heartbeat _ words _ _ => words.length = 12
  | .delta _ _ _ words => words.length = 12
  | .endRecord _ _ words => words.length = 12
  | .mailboxRecord _ _ words => words.length = 12
  | .health _ words => words.length = 12
  | .bulk _ _ words => words.length = 12
  | .ucodeLoad _ _ _ entries _ => entries.length = 32
  | .ownerEnrol _ _ _ digest => digest.length = 12
  | .debugToken _ _ _ nonce => nonce.length = 3
  | .firmwareBoot _ _ _ _ entries _ => entries.length = 224
  | .write _ _ _ count images _ => images.length = max 1 count
  | .qspiDone _ data => data.length = 64
  | .shadowVisit shadow => match shadow with | none => true | some l => l.length = 1 || l.length = 3
  | .registerWrite _ addr _ _ _ => addrOk addr
  | .pairLoRead _ addr => addrOk addr
  | .pairHiRead _ addr => addrOk addr
  | .pairLoWrite _ addr _ => addrOk addr
  | .pairHiWrite _ addr _ => addrOk addr
  | .intForce _ addr _ => addrOk addr
  | .lock _ addr => addrOk addr
  | .resume _ addr _ => addrOk addr
  | .discardStaged _ addr => addrOk addr
  | .tableWindowRead _ addr => addrOk addr
  | _ => true

end Sys2Proof
end

