-- ==== Sys2Proof/Safety.lean ====
section
/-! DEFINITION. What a safe run is, in the terms the statements use: a step that answers a next state, the waiting commands, the canonical
form of the sparse memories, and what one-time-programmable memory keeps. -/

namespace Sys2Proof.Machine

/-- The step answers a next state. -/
def Completes (s : State) : Prop := ∃ t, step s = .next t

/-- Every waiting command has a form that the spec gives it. -/
def QueueOk (s : State) : Prop := ∀ c ∈ s.pending, c.wellFormed = true

/-- The canonical form of the sequencer's data RAM (R365): byte addresses strictly rising, and no entry equal to what an unlisted address
reads as. -/
def Memory.wf (m : Sparse Byte) : Bool := swf (fun _ => 0) m

/-- What OTP keeps from one state to another (R392, R398, R410): the life cycle moves only forward, and an owner slot once written or spent
stays as it is. -/
def OtpForward (s t : State) : Prop :=
  s.colophon.lifecycle ≤ t.colophon.lifecycle ∧
  (s.colophon.ownerDigest.isSome → t.colophon.ownerDigest = s.colophon.ownerDigest) ∧
  (s.colophon.ownerSpent = true → t.colophon.ownerSpent = true)

/-- What the traffic of frames, ports, schedulers, spill memory, CXL ports, the twin link and the rings leaves alone: the waiting commands,
the life cycle and its keys, the clocks, the applied configuration of registers and tables, the commit and fence in progress, the gate lists
of streams, the shadow compare, the power state, the time-event pins, the mailbox channels and the sequencer. -/
def settled (s : State) :=
  (s.pending, s.colophon, s.clock, s.regsCur, s.regsOld, s.tabsCur, s.tabsOld, s.commit, s.fence, s.streamGates, s.shadow, s.power, s.tev,
    s.channels, s.seq)

/-- What no command but an enrolment and a life-cycle advance changes: the waiting commands, the life cycle and the owner slot. -/
def lastingOf (x : List Instr × Colophon × α) : List Instr × Nat × Option (List Word32) × Bool :=
  (x.1, x.2.1.lifecycle, x.2.1.ownerDigest, x.2.1.ownerSpent)

/-- Nothing of port `p` is on its way: no queue of it is in use, no copy is selected, neither a transmission nor a reception
runs, and its slice's wake FIFO is empty. -/
abbrev PortEmpty (s : State) (p : Nat) : Prop :=
  portQueues s p = [] ∧ (portAt s p).selected = none ∧ (portAt s p).selectedPreempt = none ∧ (portAt s p).txExpress = none ∧
  (portAt s p).txPreempt = none ∧ (portAt s p).rxExpress = none ∧ (portAt s p).rxPreempt = none ∧ (sliceAt s (p / 8)).wakeFifo = []

/-- No queue spills and no sheet is being released. -/
abbrev NoSpill (s : State) : Prop := (∀ e ∈ s.queues, e.2.spill = none) ∧ s.spill.releasing = []

/-- No port has a transmission under way. -/
abbrev FrontsIdle (s : State) : Prop := ∀ p, (portAt s p).txExpress = none ∧ (portAt s p).txPreempt = none

/-- Transmit ring `r` can fetch the frame of descriptors `ds` (R336, R338): the ring runs and its page is in order, the host serves, the slice's
pipeline runs, and what the first descriptor counts is given and posted. -/
abbrev Fetches (s : State) (r : Nat) (ds : List (List Nat)) : Prop :=
  ringOn s r = true ∧ ringHeld s r = false ∧ hostServes s = true ∧ pipelineRuns s (fld s (ringBase r + 8) 24 22) = true ∧
  ds.length = bits (nth (ds.headD []) 2) 15 13 + 1 ∧ ds.length ≤ ringPosted s r

/-- A command completes: exec answers a next state. -/
def Runs (c : Instr) (s : State) : Prop := ∃ t, exec c s = .next t

/-- A write by `src` reaches the register at `a`: an aligned word of the map outside the table windows (R27, R424), in a page that is not
held in reset (R447), open to the source (R402, R350), and on no port page that is out of service (R5). -/
abbrev Admitted (s : State) (src : Source) (a : Nat) : Prop :=
  a % 4 = 0 ∧ (windowAt a).isNone = true ∧ (pageAt a).map (heldInReset s) = some false ∧ (fieldsAt a).isSome = true ∧
  mayWrite s src a = true ∧ hiddenPort s a = false

/-- A read by `src` reaches the register at `a`. -/
abbrev Readable (s : State) (src : Source) (a : Nat) : Prop :=
  a % 4 = 0 ∧ (windowAt a).isNone = true ∧ (pageAt a).map (heldInReset s) = some false ∧ (fieldsAt a).isSome = true ∧
  mayRead s src a = true

/-- The state that an admitted write meets at its register: what the source held for _LO words of the page is given up (R30), and a
sleeping slice starts to wake (R290). -/
def atRegister (s : State) (src : Source) (a : Nat) : State := wakeForPage (dropHeld s src a) a

/-- A word of micro-op `u` is the one at the address of routine `r`: what the row says in the vendor ROM, the stored word elsewhere (R368). -/
abbrev Stands (s : State) (r : Routine) (u : Nat) (m : Micro) : Prop :=
  s.seq.routine = some r ∧ (r.upc < 8192 ∨ storeWord s r.upc = microBits u m)

/-- A word of micro-op `u` stands at the address of routine `r`, raises no fault of its own before it acts, and is not the last word of the
customer region (R368, R371, R374). -/
abbrev WordStands (s : State) (r : Routine) (u : Nat) (m : Micro) : Prop :=
  s.seq.routine = some r ∧ (r.upc < 8192 ∨ storeWord s r.upc = microBits u m) ∧ wordFault r u m = none ∧
  (r.entry < 12288 ∨ (12288 ≤ r.upc ∧ r.upc + 1 < 16384))

/-- Routine `r` after a word at its address that made of it `r'`, at the address `n`. -/
def afterWord (r r' : Routine) (n : Nat) : Routine :=
  { r' with upc := n % 16384, words := r'.words + 1, after := if r.committed then r'.after + 1 else r'.after }

/-- The state whose sequencer runs routine `r`, everything else being as in `s`. -/
def withRoutine (s : State) (r : Routine) : State := { s with seq := { s.seq with routine := some r } }

/-- The state after a word of routine `r` that gives its destination temporary the value `v` and goes on. -/
def wroteTemp (s : State) (r : Routine) (m : Micro) (v : BitVec 64) : State :=
  withRoutine s (afterWord r { r with temps := r.temps.set m.dest (some v) } (r.upc + 1))

/-- The state after a word of routine `r` whose architectural write `w` waits in the buffer. -/
def buffers (s : State) (r : Routine) (w : SeqWrite) : State :=
  withRoutine s (afterWord r { r with buffer := r.buffer ++ [w] } (r.upc + 1))

/-- The address after a branch of routine `r` that is taken or not: AUX counts from the next word (R371). -/
def goesTo (r : Routine) (m : Micro) (taken : Bool) : Nat := (((r.upc : Int) + 1 + (if taken then auxInt m else 0)) % 16384).toNat

/-- Firmware holds command `c` of inbound channel `k` with opcode `op`, and runs. -/
abbrev CommandWaits (s : State) (k op : Nat) (c : FwCommand) : Prop :=
  commandOf s k = some c ∧ s.firmware.running = true ∧ opcodeOf c = op

/-- Firmware has answered the command of inbound channel `k` (R361): the response is posted on its outbound channel with RESULT `result`, DETAIL 0
and the words `l` after them, and the command is over. -/
abbrev Answers (t : State) (k result : Nat) (l : List Nat) : Prop :=
  channelFull t (k + 6) = true ∧ commandOf t k = none ∧ nth (channelAt t (k + 6)).posted 1 = result * 2 ^ 24 ∧
  ∀ i, i < l.length → i < 14 → nth (channelAt t (k + 6)).posted (i + 2) = nth l i % 2 ^ 32

/-- No timer of the device runs out at the next tick: no correction of device time waits, no output is driven for its WIDTH, no core clock
change stalls the pipelines, neither the plough's swap nor a flush is under way, no queue holds a frame, and neither Kettle's session
setup nor a CXL port's training is timed. -/
abbrev TimersRest (s : State) : Prop :=
  s.clock.stepWaiting = none ∧ s.clock.slewNext = none ∧ s.clock.slewEnds = false ∧ (flag s 0x4078 30 = true → s.clock.slewLeft ≠ 0) ∧
  (∀ n < 8, (tevAt s n).activeUntil = none) ∧ s.power.stallUntil = none ∧ s.fdb.swap = none ∧ s.fdb.flushes = [] ∧ busyQueues s = [] ∧
  kettleState s ≠ 2 ∧ ∀ c < 4, cxlState s c ≠ 1

/-- Every register but those at the addresses of `as` reads the same stored word in both states. -/
def RegsBut (as : List Nat) (s t : State) : Prop := ∀ a, a ∉ as → rd t a = rd s a

end Sys2Proof.Machine
end

