-- ==== Sys2Proof/Certificates/Slice0/Obligations.lean ====
section
/-! DEFINITION. The statements for the provers. Most say of one family of commands that each of its commands completes,
  and with what effect;
others state a rule over all states, or an invariant that every step keeps. -/

open Sys2Proof Sys2Proof.Machine

/-! ### The queue and the step -/

/-- A step takes the command at the front of the queue and runs it on the state with the queue's rest. With no command waiting one tick of 1
ns passes and no command appears. While no timer of the device runs out, the tick moves only the clocks: steady time by 1 ns, device time by
the increment and the slew's adjustment (R234, R235), and without VDD_AON it changes nothing (R13). That an idle step is a tick is the
model's choice (log 2). Every well-formed command completes in every state, whatever it finds there; the one stop is a list of a wrong size
(log 8). -/
def Obligations.StepRunsTheFrontCommand : Prop :=
  (∀ (s : State) (c : Instr) (rest : List Instr), s.pending = c :: rest → step s = exec c { s with pending := rest }) ∧
  (∀ s : State, s.pending = [] → ∃ t, step s = .next t ∧ t.pending = []) ∧
  (∀ s : State, s.pending = [] → s.startup.aonUp = false → step s = .next s) ∧
  (∀ s : State, s.pending = [] → s.startup.aonUp = true → TimersRest s →
    ∃ t, step s = .next t ∧ t = { s with clock := t.clock } ∧ t.clock.steady = s.clock.steady + 1 ∧
      t.clock.dev = (if s.startup.island then (s.clock.dev + tickAdvance s) % devWrap else s.clock.dev) ∧
      t.clock.slewLeft = (if s.startup.island then s.clock.slewLeft - 1 else s.clock.slewLeft)) ∧
  (∀ (c : Instr) (s : State), c.wellFormed = true → ∃ t, exec c s = .next t) ∧
  (∀ s : State, QueueOk s → ∃ t, step s = .next t)

/-- Every step takes the front command from the queue and leaves the others waiting in their order, keeps the waiting commands well formed,
and moves the life cycle and the owner slot of OTP only forward (R392, R398). -/
def Obligations.StepsKeepQueueAndOtp : Prop :=
  ∀ s t : State, QueueOk s → step s = .next t → t.pending = s.pending.tail ∧ QueueOk t ∧ OtpForward s t

/-- After reset no command waits, so every waiting command is well formed, and the data RAM has its canonical form. -/
def Obligations.ResetKeepsTheInvariants : Prop :=
  QueueOk State.reset ∧ Memory.wf State.reset.seq.ram = true ∧ OtpForward State.reset State.reset

/-! ### Register accesses -/

/-- A write of a register without an effect of its own acts on each field by its type (R33, R34), reaches no other register but its page's
STAGED_PENDING and its fault record, and leaves the rest of the device alone. -/
def Obligations.RegisterWriteActsByFieldType : Prop :=
  ∀ (s : State) (src : Source) (a : Nat) (v : Word32) (p : Page) (fs : List Machine.Field),
  Admitted s src a → pageAt a = some p → (p = .power ∨ p = .mirror ∨ p = .tracer ∨ ∃ k, p = .police k) → 0x40 ≤ a % 0x1000 →
  fieldsAt a = some fs → pairRole p a = .single → wideAt a = none →
  ∃ t, exec (.registerWrite src a 4 v true) s = .next t ∧
    t = { s with regs := t.regs, out := t.out, access := t.access } ∧
    RegsBut [a, p.at_ 0x08, p.at_ 0x10, p.at_ 0x1C] s t ∧
    ∀ f ∈ fs, ∀ k, f.lo ≤ k → k ≤ f.hi → k < 32 → (∀ g ∈ fs, g.lo ≤ k → k ≤ g.hi → g = f) →
      flag t a k = match f.ty with
        | .rw | .stg => v.getLsbD k
        | .rwl => if pageLocked s a then flag s a k else v.getLsbD k
        | .wo1 => if a ∈ s.access.once then flag s a k else v.getLsbD k
        | .w1c => flag s a k && !v.getLsbD k
        | .w1s => flag s a k || v.getLsbD k
        | .cnt => false
        | .ro | .req => if fs = [ro 31 31, cntF 15 0] then false else flag s a k

/-- A write that is no aligned 32-bit access, or that names no register, is dropped and recorded in its page's ACCESS_FAULT with offset,
source and cause (R27, R31); one to a page held in reset changes nothing (R447). -/
def Obligations.FaultyWritesAreRecorded : Prop :=
  (∀ (s : State) (src : Source) (a size : Nat) (v : Word32) (ok : Bool) (p : Page), pageAt a = some p → heldInReset s p = false →
  ((size ≠ 4 ∨ a % 4 ≠ 0) → ∃ t, exec (.registerWrite src a size v ok) s = .next t ∧
    t = { s with regs := t.regs, out := s.out ++ vectors s p 31 } ∧ RegsBut [p.at_ 0x10, p.at_ 0x1C] s t ∧
    flag t (p.at_ 0x10) 31 = true ∧ rd t (p.at_ 0x1C) = 1 * 2 ^ 28 + src.code * 2 ^ 25 + a % 0x1000 / 4 * 4) ∧
  (a % 4 = 0 → (windowAt a).isNone → fieldsAt a = none → ∃ t, exec (.registerWrite src a 4 v ok) s = .next t ∧
    t = { s with regs := t.regs, out := s.out ++ vectors s p 31 } ∧ RegsBut [p.at_ 0x10, p.at_ 0x1C] s t ∧
    flag t (p.at_ 0x10) 31 = true ∧ rd t (p.at_ 0x1C) = 2 * 2 ^ 28 + src.code * 2 ^ 25 + a % 0x1000 / 4 * 4)) ∧
  (∀ (s : State) (src : Source) (a : Nat) (v : Word32) (ok : Bool) (p : Page), a % 4 = 0 → (windowAt a).isNone → pageAt a = some p →
    (fieldsAt a).isSome → heldInReset s p = true → exec (.registerWrite src a 4 v ok) s = .next s)

/-- Pairs (R30): a read of _LO latches _HI for its source, and the next read of _HI returns the latch; a write of _LO is held, and a write
of _HI applies both words. A read of a table window latches the entry (R428). -/
def Obligations.PairsAndWindowsAreLatched : Prop :=
  (∀ (s : State) (src : Source) (a : Nat) (p : Page), Readable s src a → pageAt a = some p → pairRole p a = .lo →
    p ≠ .mailbox → p ≠ .sequencer → p ≠ .timeEvents →
    ∃ t, exec (.pairLoRead src a) s = .next t ∧ t.regs = s.regs ∧
      t.out = s.out ++ [.value src a (shown (wakeForPage (dropWindow s src) a) src p a)] ∧
      latched t src (a + 4) = shown (wakeForPage (dropWindow s src) a) src p (a + 4) + 1) ∧
  (∀ (s : State) (src : Source) (a : Nat) (p : Page), Readable s src a → pageAt a = some p → pairRole p a = .hi →
    p ≠ .mailbox → p ≠ .sequencer → p ≠ .timeEvents →
    ∃ t, exec (.pairHiRead src a) s = .next t ∧ t.regs = s.regs ∧ latched t src a = 0 ∧
      t.out = s.out ++ [.value src a (if latched s src a = 0 then shown (wakeForPage (dropWindow s src) a) src p a
        else latched s src a - 1)]) ∧
  (∀ (s : State) (src : Source) (a : Nat) (v : Word32) (p : Page), Admitted s src a → pageAt a = some p → pairRole p a = .lo →
    (wideAt a).isNone → ∃ t, exec (.pairLoWrite src a v) s = .next t ∧ t.regs = s.regs ∧ t.out = s.out ∧
      heldLo t src (a + 4) = v.toNat + 1) ∧
  (∀ (s : State) (src : Source) (a : Nat) (v : Word32) (p : Page), Admitted s src a → pageAt a = some p → pairRole p a = .hi →
    (wideAt a).isNone → 0 < heldLo s src a →
    exec (.pairHiWrite src a v) s =
      .next (writeWord (writeWord (atRegister s src a) src p (a - 4) (heldLo s src a - 1)) src p a v.toNat)) ∧
  (∀ (s : State) (src : Source) (a : Nat) (w : Window) (e : Nat), a % 4 = 0 → windowAt a = some (w, e, 0) → mayRead s src a = true →
    ∃ t, exec (.tableWindowRead src a) s = .next t ∧ t.regs = s.regs ∧ t.tabs = s.tabs ∧
      t.out = s.out ++ [.value src a (imageWord (entryImage s (flag s 0xC 31) w.table e) 0)] ∧
      t.access.window.head? = some (src.code, w.table, e, BitVec.ofNat 512 (entryImage s (flag s 0xC 31) w.table e)))

/-- The requests of a page's header: LOCK sets the lock (R34), INT_FORCE raises the causes written 1 (R33), RESUME ends the fault-safe
action once no mismatch stands (R36), and DISCARD_STAGED brings the applied values back (R38). -/
def Obligations.HeaderRequestsAct : Prop :=
  (∀ (s : State) (src : Source) (a : Nat), Admitted s src (inPage a 0x28) →
    ∃ t, exec (.lock src a) s = .next t ∧ flag t (inPage a 0x28) 0 = true ∧ RegsBut [inPage a 0x28] s t ∧ t.out = s.out) ∧
  (∀ (s : State) (src : Source) (a : Nat) (v : Word32) (p : Page), Admitted s src (inPage a 0x18) → pageAt (inPage a 0x18) = some p →
    ∃ t, exec (.intForce src a v) s = .next t ∧ RegsBut [p.at_ 0x10] s t ∧
      ∀ k, k < 32 → v.getLsbD k = true → (k < 16 ∧ bitAt p.causes k = true ∨ k = 30 ∨ k = 31) → flag t (p.at_ 0x10) k = true) ∧
  (∀ (s : State) (src : Source) (a : Nat) (p : Page), Admitted s src (inPage a 0xC) → pageAt a = some p →
    flag s (p.at_ 0x20) 31 = false →
    ∃ t, exec (.resume src a false) s = .next t ∧ flag t (p.at_ 8) 31 = false ∧ RegsBut [p.at_ 8] s t ∧ t.out = s.out) ∧
  (∀ (s : State) (src : Source) (a : Nat) (p : Page), Admitted s src (inPage a 0xC) → pageAt a = some p →
    exec (.resume src a true) s = .next (parityMismatch (atRegister s src (inPage a 0xC)) a)) ∧
  (∀ (s : State) (src : Source) (a : Nat) (p : Page), Admitted s src (inPage a 0xC) → pageAt a = some p →
    ∃ t, exec (.discardStaged src a) s = .next t ∧ flag t (p.at_ 8) 29 = false ∧ t.out = s.out ∧
      (∀ b, b / 0x1000 ≠ p.base / 0x1000 → rd t b = rd s b) ∧
      (∀ b, b / 0x1000 = p.base / 0x1000 → b ≠ p.at_ 8 → stagedMask b ≠ 0 → rd t b = rdCur s b))

/-! ### Commits, fences and cycles -/

/-- A commit of the next epoch freezes the pending copies, which become the applied ones (R37, R38); a refused one changes nothing but the
fault record; each awake slice switches (R39), and COMMIT_DONE follows once every slice has switched and no old frame remains (R41). -/
def Obligations.CommitsAdvanceTheEpoch : Prop :=
  (∀ (s : State) (src : Source) (e : BitVec 16), Admitted s src 0x40 → s.commit = none →
    e.toNat = (currentEpoch s + 1) % 65536 →
    ∃ t, exec (.sysCommitGo src e) s = .next t ∧ t.commit.isSome = true ∧
      (∀ a, stagedMask a ≠ 0 → sget resetWord t.regsCur a = sget resetWord s.regs a) ∧ t.regsOld = s.regsCur ∧
      (∀ k, tableStaged (k / 2 ^ 20) = true → sget resetImage t.tabsCur k = sget resetImage s.tabs k) ∧ t.tabsOld = s.tabsCur) ∧
  (∀ (s : State) (src : Source) (e : BitVec 16), Admitted s src 0x40 → s.commit.isSome = true →
    exec (.sysCommitGo src e) s = .next (accessFault (atRegister s src 0x40) src 0x40 6)) ∧
  (∀ (s : State) (src : Source) (e : BitVec 16), Admitted s src 0x40 → s.commit = none → e.toNat ≠ (currentEpoch s + 1) % 65536 →
    exec (.sysCommitGo src e) s = .next (accessFault (atRegister s src 0x40) src 0x40 7)) ∧
  (∀ (s : State) (i : Fin 8) (c : Commit), s.commit = some c → i.val ∈ c.waiting →
    ∃ t, exec (.sliceEpochSwitch i) s = .next t ∧ t.commit = some { c with waiting := c.waiting.filter (· != i.val) } ∧
      RegsBut [0x48] s t ∧ t = { s with regs := t.regs, commit := t.commit }) ∧
  (∀ (s : State) (c : Commit), s.commit = some c → c.waiting = [] → oldFrames s = false →
    ∃ t, exec .commitDone s = .next t ∧ t.commit = none ∧ flag t 0x10 0 = true ∧ RegsBut [0x10] s t ∧
      t = { s with regs := t.regs, out := s.out ++ vectors s .root 0, commit := none })

/-- One fence at a time is in progress (R44). It remembers which frames it waits for, and completes when they have gone (R42, R43). A cycle
boundary ends the cycle in progress once device time has reached its end: the next cycle has the number of that instant and lasts
125,000 ns (R6, R240). -/
def Obligations.FencesAndCyclesEndInTheirTime : Prop :=
  (∀ (s : State) (src : Source) (full : Bool), Admitted s src 0x4C → s.fence = none →
    ∃ t, exec (.fenceGo src full) s = .next t ∧ t.fence = some { first := s.nextFrame, full, start := now s } ∧
      flag t 0x4C 31 = true ∧ flag t 0x50 31 = true ∧ flag t 0x50 30 = false ∧ RegsBut [0x4C, 0x50] s t ∧
      t = { s with regs := t.regs, fence := t.fence, access := t.access }) ∧
  (∀ (s : State) (src : Source) (full : Bool), Admitted s src 0x4C → s.fence.isSome = true →
    exec (.fenceGo src full) s = .next (accessFault (atRegister s src 0x4C) src 0x4C 8)) ∧
  (∀ (s : State) (f : Fence), s.fence = some f → fencePassed s f = true →
    ∃ t, exec .fenceDone s = .next t ∧ t.fence = none ∧ flag t 0x4C 31 = false ∧ flag t 0x50 31 = false ∧ flag t 0x50 30 = true ∧
      fld t 0x50 23 0 = min 0xFFFFFF (ceilDiv (now s - f.start) 1000) ∧ flag t 0x10 1 = true ∧
      RegsBut [0x4C, 0x50, 0x10] s t ∧ t = { s with regs := t.regs, out := t.out, fence := none }) ∧
  (∀ (s : State) (raw : Nat) (bad : List Nat), devNs s < s.clock.cycleEnd → exec (.cycleBoundary raw bad) s = .next s) ∧
  (∀ (s : State) (raw : Nat) (bad : List Nat), s.clock.cycleEnd ≤ devNs s → (coreRuns s = true ∨ s.startup.island = true) →
    ∃ t, exec (.cycleBoundary raw bad) s = .next t ∧
      t.clock = { s.clock with cycleStart := now s, cycleNumber := s.clock.cycleEnd / 125000, cycleEnd := s.clock.cycleEnd + 125000 } ∧
      t.regsCur = s.regsCur ∧ t.tabsCur = s.tabsCur ∧ t.commit = s.commit)

/-! ### Ports and links -/

/-- A port comes up (R47, R48, R59): an enable in a legal configuration starts training at the width configured, one that overlaps a port in
force shows CONFLICT, an established link of its width makes the port UP in its mode, and a failed training raises its causes. -/
def Obligations.PortsComeUp : Prop :=
  (∀ (s : State) (src : Source) (port : Fin 64), Admitted s src (portReg port 0 0x40) →
    flag s (portReg port 0 0x40) 31 = false → portState s port = 0 → flag s (portReg port 0 0x4C) 27 = false →
    s.colophon.lifecycle ≠ 0 → s.colophon.lifecycle ≠ 4 → port.val % widthOf (fld s (portReg port 0 0x40) 26 25) = 0 →
    laneConflict s port (widthOf (fld s (portReg port 0 0x40) 26 25)) = false →
    modeSupported (widthOf (fld s (portReg port 0 0x40) 26 25)) (fld s (laneReg port 0x40) 2 0) = true →
    ∃ t, exec (.portEnable src port) s = .next t ∧ portState t port = 1 ∧ flag t (portReg port 0 0x40) 31 = true ∧
      flag t (portReg port 0 0x4C) 26 = false ∧ (portAt t port).width = widthOf (fld s (portReg port 0 0x40) 26 25) ∧
      t = { s with regs := t.regs, ports := t.ports, access := t.access }) ∧
  (∀ (s : State) (src : Source) (port : Fin 64), Admitted s src (portReg port 0 0x40) →
    flag s (portReg port 0 0x40) 31 = false → portState s port = 0 → flag s (portReg port 0 0x4C) 27 = false →
    s.colophon.lifecycle ≠ 0 → s.colophon.lifecycle ≠ 4 →
    laneConflict s port (widthOf (fld s (portReg port 0 0x40) 26 25)) = true →
    ∃ t, exec (.portEnable src port) s = .next t ∧ portState t port = 0 ∧ flag t (portReg port 0 0x4C) 26 = true) ∧
  (∀ (s : State) (port : Fin 64) (mode rx tx : Nat) (lpi : Bool), portState s port = 1 →
    modeSupported (portAt s port).width mode = true → mode ≤ (portAt s port).enabledRate →
    (flag s (portReg port 0 0x40) 30 = false → mode = (portAt s port).enabledRate) →
    ∃ t, exec (.linkEstablished port mode rx tx lpi) s = .next t ∧ portState t port = 2 ∧ flag t (portReg port 0 0x4C) 28 = true ∧
      fld t (portReg port 0 0x4C) 23 21 = mode ∧ flag t ((Page.port port 0).at_ 0x10) 0 = true ∧ t.tabs = s.tabs ∧ t.queues = s.queues) ∧
  (∀ (s : State) (port : Fin 64) (cause : Fin 8), (portState s port = 1 ∨ portState s port = 3) →
    ∃ t, exec (.trainingFailed port cause) s = .next t ∧ flag t ((Page.port port 0).at_ 0x10) 5 = true ∧
      fld t (laneReg (port.val + cause.val % (portAt s port).width) 0x44) 27 25 = 4 ∧ t = { s with regs := t.regs, out := t.out }) ∧
  (∀ (s : State) (port : Fin 64), portUp s port = true → lpiMode s port = true → (portAt s port).lpiAgreed = true →
    flag s (portReg port 1 0x60) 31 = true → gateEnabled s port = false → preemptEnabled s port = false →
    nothingToSend s port = true → (portAt s port).idleSince + fld s (portReg port 1 0x60) 15 0 * 1000 ≤ now s →
    ∃ t, exec (.lpiEntry port) s = .next t ∧ flag t (portReg port 0 0x4C) 25 = true ∧ t = { s with regs := t.regs })

/-- A port goes down (R58, R59, R61, R62). PORT_DISABLE clears ENABLE: a port that trains, is UP or in HOLD starts to flush, and a DISABLED
one stays so. PORT_RESET flushes a port in use. RETRAIN and LINK_LOSS take an UP port to HOLD for its hold-off time, or without a hold-off
time to the flush. HOLDOFF_EXPIRY flushes, and FLUSH_DONE ends a complete flush: the port is DISABLED when ENABLE is 0. While a port goes
down, nothing settled changes. -/
def Obligations.PortsGoDown : Prop :=
  (∀ (s : State) (src : Source) (port : Fin 64), Admitted s src (portReg port 0 0x40) →
    ∃ t, exec (.portDisable src port) s = .next t ∧ settled t = settled s ∧
      t = takeDown (setFlag (atRegister s src (portReg port 0 0x40)) (portReg port 0 0x40) 31 false) port) ∧
  (∀ (s : State) (src : Source) (port : Fin 64), Admitted s src (portReg port 0 0x40) → portState s port = 0 →
    ∃ t, exec (.portDisable src port) s = .next t ∧ flag t (portReg port 0 0x40) 31 = false ∧ portState t port = 0 ∧
      RegsBut [portReg port 0 0x40] s t ∧ t = { s with regs := t.regs, access := t.access }) ∧
  (∀ (s : State) (src : Source) (port : Fin 64), Admitted s src (portReg port 0 0x40) → (portState s port = 1 ∨ portState s port = 3) →
    PortEmpty s port → flag s (portReg port 0 0x40) 27 = false →
    ∃ t, exec (.portDisable src port) s = .next t ∧ flag t (portReg port 0 0x40) 31 = false ∧ portState t port = 4 ∧
      flag t (portReg port 0 0x54) 31 = true ∧ (portAt t port).reconfigure = true ∧ t.frames = s.frames ∧ t.queues = s.queues) ∧
  (∀ (s : State) (src : Source) (port : Fin 64), Admitted s src (portReg port 0 0x50) → portState s port ≠ 0 →
    ∃ t, exec (.portReset src port) s = .next t ∧ settled t = settled s ∧
      t = wipePort (takeDown (atRegister s src (portReg port 0 0x50)) port) port) ∧
  (∀ (s : State) (src : Source) (port : Fin 64), Admitted s src (portReg port 0 0x50) → (portState s port = 1 ∨ portState s port = 3) →
    PortEmpty s port → flag s (portReg port 0 0x40) 27 = false →
    ∃ t, exec (.portReset src port) s = .next t ∧ portState t port = 4 ∧ flag t (portReg port 0 0x54) 31 = true ∧
      (portAt t port).gate = {} ∧ fld t (portReg port 1 0xD4) 29 27 = 0 ∧ t.frames = s.frames ∧ t.queues = s.queues) ∧
  (∀ (s : State) (src : Source) (port : Fin 64), Admitted s src (portReg port 0 0x50) → portState s port = 2 →
    ∃ t, exec (.retrain src port) s = .next t ∧ settled t = settled s ∧ t = loseLink (atRegister s src (portReg port 0 0x50)) port) ∧
  (∀ (s : State) (src : Source) (port : Fin 64), Admitted s src (portReg port 0 0x50) → portState s port = 2 → PortEmpty s port →
    fld s (portReg port 0 0x48) 9 0 ≠ 0 →
    ∃ t, exec (.retrain src port) s = .next t ∧ portState t port = 3 ∧ flag t (portReg port 0 0x4C) 28 = false ∧
      (portAt t port).holdEnd = now s + min 1000 (fld s (portReg port 0 0x48) 9 0) * 1000000 ∧ t.frames = s.frames ∧ t.queues = s.queues) ∧
  (∀ (s : State) (port : Fin 64) (lanes : BitVec 8), portState s port = 2 →
    ∃ t, exec (.linkLoss port lanes) s = .next t ∧ settled t = settled s ∧ t = loseLink (loseSignals s port lanes.toNat) port) ∧
  (∀ (s : State) (port : Fin 64), portState s port = 2 → PortEmpty s port → fld s (portReg port 0 0x48) 9 0 ≠ 0 →
    ∃ t, exec (.linkLoss port 0) s = .next t ∧ portState t port = 3 ∧ flag t (portReg port 0 0x4C) 28 = false ∧
      (portAt t port).holdEnd = now s + min 1000 (fld s (portReg port 0 0x48) 9 0) * 1000000 ∧ t.frames = s.frames ∧ t.queues = s.queues) ∧
  (∀ (s : State) (port : Fin 64), portState s port = 3 → (portAt s port).holdEnd ≤ now s →
    ∃ t, exec (.holdoffExpiry port) s = .next t ∧ settled t = settled s ∧ t = startFlush s port true false) ∧
  (∀ (s : State) (port : Fin 64), portState s port = 3 → (portAt s port).holdEnd ≤ now s → PortEmpty s port →
    flag s (portReg port 0 0x40) 27 = false →
    ∃ t, exec (.holdoffExpiry port) s = .next t ∧ portState t port = 4 ∧ flag t (portReg port 0 0x54) 31 = true ∧
      (portAt t port).reconfigure = false ∧ t.frames = s.frames ∧ t.queues = s.queues) ∧
  (∀ (s : State) (port : Fin 64), flushComplete s port = true → flag s (portReg port 0 0x40) 31 = false →
    ∃ t, exec (.flushDone port) s = .next t ∧ settled t = settled s ∧ portState t port = 0 ∧ flag t (portReg port 0 0x54) 31 = false ∧
      t.frames = s.frames)

/-- Recovered clocks (R251): an output whose source is unsound is held low and RCLK_SQUELCH raised; it runs again after 1 ms of lock. The
time PLL: a lost reference shows in TIME_STATUS and raises PLL_UNLOCK with its error; a regained one shows again (R416). Without its power
the timing island reports nothing (R13). -/
def Obligations.ClocksFollowTheirSource : Prop :=
  (∀ (s : State) (k : Fin 2), flag s (rclkReg k) 30 = true → flag s (rclkReg k) 29 = false → rclkSound s k = false →
    flag s 0x4008 31 = false →
    ∃ t, exec (.rclkSquelch k) s = .next t ∧ settled t = settled s ∧ flag t (rclkReg k) 29 = true ∧ flag t 0x4010 4 = true ∧
      RegsBut [rclkReg k, 0x4010] s t ∧ t.pins.rclkOn = s.pins.rclkOn.set k false ∧
      t.out = s.out ++ [.pin "RCLK_OUT" k false] ++ vectors s .time 4) ∧
  (∀ (s : State) (k : Fin 2), flag s (rclkReg k) 31 = true → flag s (rclkReg k) 29 = true → rclkLocked s k = true →
    flag s 0x4008 31 = false →
    ∃ t, exec (.rclkRestart k) s = .next t ∧ settled t = settled s ∧ flag t (rclkReg k) 29 = false ∧
      t.pins.rclkOn = s.pins.rclkOn.set k true ∧ RegsBut [rclkReg k] s t ∧
      t.out = s.out ++ [.low "RCLK_OUT" [k, rclkLane s k, max 4 (fld s (rclkReg k) 11 0)]]) ∧
  (∀ s : State, pagePowered s .time = true →
    ∃ t, exec .pllUnlock s = .next t ∧ settled t = settled s ∧ flag t 0x4078 31 = false ∧ flag t 0x4010 3 = true ∧
      t = report (raise (setFlag s 0x4078 31 false) .time 3) 0x0705 .time []) ∧
  (∀ s : State, pagePowered s .time = true →
    ∃ t, exec .pllLock s = .next t ∧ flag t 0x4078 31 = true ∧ RegsBut [0x4078] s t ∧ t = { s with regs := t.regs }) ∧
  (∀ s : State, pagePowered s .time = false → exec .pllUnlock s = .next s ∧ exec .pllLock s = .next s)

/-! ### Frames -/

/-- FRAME_RECEIVE: the SFD of a frame makes an entry of its port with the bytes so far and the receive timestamp (R16, R242), which enters
its slice as the next frame, or waits in the wake FIFO of a slice whose pipelines do not run (R290, R15). FRAME_END ends the frame. A MAC
control or rescue frame ends in the port and enters no slice (R50, R52), whether FRAME_RECEIVE or MAC_CONTROL_FRAME brings it. -/
def Obligations.FramesEnter : Prop :=
  (∀ (s : State) (port : Fin 64) (bytes : List Byte) (ended pre : Bool), portUp s port = true → macBusy s port pre = false →
    isRescue bytes = false → beAt bytes 12 2 ≠ 0x8808 →
    ∃ t, exec (.frameReceive port bytes ended pre) s = .next t ∧ settled t = settled s ∧
      t = (let u := traceDraw s (sliceOf port)
        let w : WakeEntry := {
          port, bytes, preemptable := pre, rx := rxStamp s port, sfd := now s, sfdDev := devNs s,
          ended := if ended then some (.none, 0) else none, traced := u.1, woke := !awake u.2 (sliceOf port) }
        if pipelineRuns u.2 (sliceOf port) then enterSlice (wakeSlice u.2 (sliceOf port)) w else enterFifo u.2 (sliceOf port) w)) ∧
  (∀ (s : State) (port : Fin 64) (bytes : List Byte) (pre : Bool), portUp s port = true → macBusy s port pre = false →
    isRescue bytes = false → beAt bytes 12 2 ≠ 0x8808 → pipelineRuns s (sliceOf port) = true → flag s 0xF040 31 = false →
    ∃ t, exec (.frameReceive port bytes false pre) s = .next t ∧ settled t = settled s ∧
      (if pre then (portAt t port).rxPreempt else (portAt t port).rxExpress) = some s.nextFrame) ∧
  (∀ (s : State) (port : Fin 64) (bytes : List Byte) (ended pre : Bool), portUp s port = true → macBusy s port pre = false →
    isRescue bytes = false → beAt bytes 12 2 ≠ 0x8808 → pipelineRuns s (sliceOf port) = false → flag s 0xF040 31 = false →
    wakeBytes s (sliceOf port) + bytes.length ≤ 262144 →
    ∃ t w, exec (.frameReceive port bytes ended pre) s = .next t ∧ settled t = settled s ∧ t.frames = s.frames ∧ t.queues = s.queues ∧
      (sliceAt t (sliceOf port)).wakeFifo = (sliceAt s (sliceOf port)).wakeFifo ++ [w] ∧ w.port = port.val ∧ w.bytes = bytes ∧
      w.preemptable = pre ∧ w.rx = rxStamp s port) ∧
  (∀ (s : State) (port : Fin 64) (bytes : List Byte) (pre : Bool), portUp s port = true → macBusy s port pre = false →
    (isRescue bytes = true ∨ beAt bytes 12 2 = 0x8808) →
    ∃ t, exec (.frameReceive port bytes true pre) s = .next t ∧ settled t = settled s ∧ t.frames = s.frames ∧ t.queues = s.queues ∧
      t = endInMac s port bytes (isRescue bytes) .none 0) ∧
  (∀ (s : State) (port : Fin 64) (bytes : List Byte) (ended pre : Bool), portUp s port = false →
    exec (.frameReceive port bytes ended pre) s = .next s) ∧
  (∀ (s : State) (port : Fin 64) (rest : List Byte) (fault : FrameFault) (n i : Nat), (portAt s port).rxExpress = some i →
    (frameAt s i).rescue = false → (frameAt s i).control = false →
    ∃ t, exec (.frameEnd port false rest fault n) s = .next t ∧ settled t = settled s ∧
      t = (let u := setPort s port { portAt s port with rxExpress := none }
        let f := frameAt s i
        let mtu := portMtu u f.epoch port
        let bad := frameFault (f.bytes ++ rest) mtu fault
        let bytes := (f.bytes ++ rest).take (mtu + 1)
        finishFrame (countPortEnd (wakeSlice (setFrame u i { f with bytes }) f.slice) port bytes bad fault n) i bad)) ∧
  (∀ (s : State) (port : Fin 64) (bytes : List Byte), portUp s port = true → beAt bytes 12 2 = 0x8808 → macBusy s port false = false →
    ∃ t, exec (.macControlFrame port bytes) s = .next t ∧ settled t = settled s ∧ t.frames = s.frames ∧ t.queues = s.queues ∧
      t = endInMac s port bytes false .none 0)

/-- Pauses (R53) and flow control (R54): a pause timer that has run out no longer pauses, and a flow-control frame in force is repeated;
BUF_PEAK starts again from the present use. -/
def Obligations.PausesAndFlowControl : Prop :=
  (∀ (s : State) (port : Fin 64) (prio : Fin 8), nth (portAt s port).pauseEnd prio ≠ 0 → nth (portAt s port).pauseEnd prio ≤ now s →
    ∃ t, exec (.pauseTimerExpiry port prio) s = .next t ∧
      (portAt t port).pauseEnd = setNth (portAt s port).pauseEnd prio 0 ∧
      fld t (portReg port 1 0x5C) 7 0 = pausedClasses (setPort s port { portAt s port with pauseEnd := setNth (portAt s port).pauseEnd prio 0 }) port % 256 ∧
      RegsBut [portReg port 1 0x5C] s t ∧ t = { s with regs := t.regs, ports := t.ports }) ∧
  (∀ (s : State) (port : Fin 64) (prio : Fin 8), fcInForce s port prio = true → fcGenerates s port prio = true →
    fcXon s port < fcLevel s port prio → portUp s port = true → egressOpen s = true → wireBusy s port = false → (portAt s port).fcDue = [] →
    nth (portAt s port).fcSent prio + ceilDiv (fld s (portReg port 1 0x58) 31 16 * 512) (max 1 (portGbps s port)) ≤ now s + 1 →
    ∃ t, exec (.fcRefresh port prio) s = .next t ∧ t.regs = s.regs ∧
      t.out = s.out ++ [.control port (fcPayload (fcMode s port) prio (fld s (portReg port 1 0x58) 15 0))] ∧
      (portAt t port).fcSent = setNth (portAt s port).fcSent prio (now s + 1)) ∧
  (∀ (s : State) (src : Source), Admitted s src 0x400058 →
    ∃ t, exec (.bufPeakClear src) s = .next t ∧ fld t 0x400058 18 0 = s.buffer.sharedUsed % 2 ^ 19 ∧ RegsBut [0x400058] s t ∧
      t = { s with regs := t.regs, access := t.access })

/-- Frames leave (R204, R16, R131, R147, R148, R150). PORT_SELECT takes the copy that the schedulers choose as the selection of its MAC, and
selects none where no queue contends. TRANSMIT_START puts the selected copy on the wire, or resumes the frame whose fragment was sent;
TRANSMIT_END and CT_UNDERRUN take it off. RESIDENCE_SCAN discards the head of a queue that has stayed too long. None of them changes what is
settled. The length of the wait, the choice and the steps on the way are those of the operations named. -/
def Obligations.FramesLeave : Prop :=
  (∀ (s u : State) (port : Fin 65) (express : Bool) (wait : Nat), port.val ≠ 64 → u = unifySelected s port → portUp u port = true →
    egressOpen u = true → egressRuns s port = true → egressSound s port = true → selectedOf u port express = none →
    (express = true ∨ preemptActive u port = true) → macFreeIn u port express = some wait →
    (∃ t, exec (.portSelect port express) s = .next t ∧ settled t = settled s ∧
      t = selectFrame (headItems u) u port express (devNs u + wait)) ∧
    (pickQueue u port (contenders u port express (devNs u + wait)) = none → exec (.portSelect port express) s = .next u) ∧
    (∀ (q : Nat) (sc : Sched) (c : Copy), pickQueue u port (contenders u port express (devNs u + wait)) = some (q, sc) →
      readyHead u q = some c → staleFrame u (frameAt u c.frame) = false →
      neverPasses u port (q % 8) (gateLength (frameLen (frameAt u c.frame))) = false →
      ∃ t, exec (.portSelect port express) s = .next t ∧ selectedOf t port express = some c)) ∧
  (∀ (s : State) (express : Bool), s.host.waiting = none → egressRuns s 64 = true → egressSound s 64 = true →
    (∃ t, exec (.portSelect 64 express) s = .next t ∧ settled t = settled s ∧ t = selectFrame (headItems s) s 64 true (devNs s)) ∧
    (∀ (q : Nat) (sc : Sched) (c : Copy), pickQueue s 64 (contenders s 64 true (devNs s)) = some (q, sc) → readyHead s q = some c →
      staleFrame s (frameAt s c.frame) = false →
      ∃ t, exec (.portSelect 64 express) s = .next t ∧ t.host.waiting = some c)) ∧
  (∀ (s u w : State) (port : Fin 64) (express : Bool) (c : Copy), portUp s port = true → egressOpen s = true → egressRuns s port = true →
    egressSound s port = true → wireBusy s port = false → u = unifySelected (fcFlush s port) port →
    (express = true ∨ (portAt u port).txPreempt = none) → selectedOf u port express = some c → mayStart u port c = true →
    w = takeCopy (setSelected u port express none) c →
    (∃ t, exec (.transmitStart port express) s = .next t ∧ settled t = settled s ∧ t = startCopy u port express c) ∧
    (mirrorOf c.kind ≠ none ∨ egressCheck w (frameAt w c.frame) port false = 0 →
      ∃ t, exec (.transmitStart port express) s = .next t ∧ (txOf t port express).map (·.copy) = some c)) ∧
  (∀ (s u : State) (port : Fin 64) (x : Tx), portUp s port = true → egressOpen s = true → egressRuns s port = true →
    egressSound s port = true → wireBusy s port = false → u = unifySelected (fcFlush s port) port → (portAt u port).txPreempt = some x →
    (portAt u port).selected = none → gatePasses u port (x.copy.queue % 8) (devNs u) (txLeft u x) = true →
    ∃ t, exec (.transmitStart port false) s = .next t ∧ settled t = settled s ∧
      (txOf t port false).map (fun y => (y.copy, y.suspended, y.sent)) = some (x.copy, false, x.sent)) ∧
  (∀ (s : State) (port : Fin 64) (express : Bool), egressOpen s = false → exec (.transmitStart port express) s = .next s) ∧
  (∀ (s : State) (port : Fin 64) (express : Bool) (x : Tx), onWire (txOf s port express) = some x →
    (frameAt s x.copy.frame).ended = true →
    ∃ t, exec (.transmitEnd port express) s = .next t ∧ settled t = settled s ∧ txOf t port express = none ∧
      t = endTransmit s port express x) ∧
  (∀ (s : State) (port : Fin 64) (express : Bool) (x : Tx), onWire (txOf s port express) = some x → x.copy.cut = true →
    (frameAt s x.copy.frame).ended = false →
    ∃ t, exec (.ctUnderrun port express) s = .next t ∧ settled t = settled s ∧ txOf t port express = none) ∧
  (∀ (s : State) (q : Fin 131072), headCopy (dropHeldCut s q) q = none →
    ∃ t, exec (.residenceScan q) s = .next t ∧ settled t = settled s ∧ t = dropHeldCut s q) ∧
  (∀ (s u : State) (q : Fin 131072) (c : Copy) (n : Nat), (queueAt s q).head.length = n + 1 → u = dropHeldCut s q →
    headCopy u q = some c → (queueAt u q).cutHeld = 0 → (frameAt u c.frame).ended = true → staleFrame u (frameAt u c.frame) = true →
    selectedOf u c.port true ≠ some c → selectedOf u c.port false ≠ some c → u.host.waiting ≠ some c →
    ∃ t, exec (.residenceScan q) s = .next t ∧ settled t = settled s ∧
      t = residenceScan n (spillExit (dropStale (takeCopy u c) c) q) q) ∧
  (∀ (s u : State) (q : Fin 131072) (c : Copy), u = dropHeldCut s q → headCopy u q = some c →
    staleFrame u (frameAt u c.frame) = false → exec (.residenceScan q) s = .next u) ∧
  (∀ (s : State) (src : Source) (i : Nat), Admitted s src 0x500040 →
    ∃ t, exec (.nodeQuery src i) s = .next t ∧ RegsBut [0x500040, 0x500044, 0x500048, 0x50004C, 0x500050] s t ∧
      rd t 0x500048 = unsigned (deficitOf s.sched i) 20 ∧ t = { s with regs := t.regs, access := t.access })

/-! ### Learning, policing, the shadow compare and table errors -/

/-- The learner, the plough and link aggregation (R99 to R105, R96). LEARN_REQUEST takes the oldest request from the learn queue: a standby
discards it (R267), an address that no entry holds gets a fresh one in the slot chosen, an entry of the same destination starts to age
again. PLOUGH_VISIT reads the next slot at its instant and ends the pass after the last one; the swap follows in the next clock (R102). A
LAG_REDISTRIBUTE takes the distribution its members give. TABLE_ENTRY_ECC: an uncorrectable entry is made invalid, and the error is raised
and reported with table and index (R109); a lost FDB entry is told to the host. A correctable one is reported and leaves every table as it
was. The codes of the operand are the model's (log 19). -/
def Obligations.LearningPloughAndEntryErrors : Prop :=
  (∀ (s u : State) (r : LearnReq) (rest : List LearnReq), coreRuns s = true → s.fdb.learnQ = r :: rest →
    u = { s with fdb := { s.fdb with learnQ := rest } } →
    (standsBy s = true → exec .learnRequest s = .next u) ∧
    (standsBy s = false → ∃ t, exec .learnRequest s = .next t ∧ settled t = settled s ∧ t = learnDecide u r) ∧
    (∀ (slot : Nat) (evicts : Bool), standsBy s = false → fdbFind s r.fid r.mac = none → fdbPlace s r.fid r.mac = some (slot, evicts) →
      ∃ t, exec .learnRequest s = .next t ∧ t.fdb.learnQ = rest ∧ t.frames = s.frames ∧
        tab t 0x02 slot = BitVec.ofNat 512 (freshEntry u (2 ^ 127) r.fid r.mac r.dest)) ∧
    (∀ slot : Nat, standsBy s = false → fdbFind s r.fid r.mac = some slot → fdbDest (fdbEntry s slot) = r.dest →
      (fdbStatic (fdbEntry s slot) || fdbLocked (fdbEntry s slot)) = false →
      ∃ t, exec .learnRequest s = .next t ∧ t.fdb.learnQ = rest ∧ t.frames = s.frames ∧
        tab t 0x02 slot = BitVec.ofNat 512 (putBits (fdbEntry s slot) 47 40 0))) ∧
  (∀ s : State, coreRuns s = true → s.fdb.flushes = [] → ploughDue s ≤ now s → s.fdb.slot + 1 < 524288 →
    ∃ t, exec .ploughVisit s = .next t ∧ settled t = settled s ∧ t.fdb.slot = s.fdb.slot + 1 ∧
      t.fdb.swap = ploughRead (ploughSwap s) s.fdb.slot ∧ t.fdb.passes = s.fdb.passes) ∧
  (∀ s : State, coreRuns s = true → s.fdb.flushes = [] → ploughDue s ≤ now s → s.fdb.slot + 1 = 524288 →
    ∃ t, exec .ploughVisit s = .next t ∧ settled t = settled s ∧ t.fdb.slot = 0 ∧ t.fdb.passes = (s.fdb.passes + 1) % 256) ∧
  (∀ (s : State) (g : Fin 32), coreRuns s = true → ∃ t, exec (.lagRedistribute g) s = .next t ∧ t = { s with fdb := t.fdb } ∧
    sget (fun _ => []) t.fdb.lag g = lagEffective s g ∧
    ∀ h, h ≠ g.val → sget (fun _ => []) t.fdb.lag h = sget (fun _ => []) s.fdb.lag h) ∧
  (∀ (s : State) (n i : Nat), coreRuns s = true → n ≤ 0x0B → i < tableEntries n → n ≠ 2 →
    ∃ t, exec (.tableEntryEcc n i) s = .next t ∧ t = invalidateEntry (reportEntry s n i) (eccTable n) i ∧
      tab t (eccTable n) i = BitVec.ofNat 512 (invalidated (eccTable n) i (tabN s (eccTable n) i)) ∧ flag t 0x600010 4 = true ∧
      t.frames = s.frames ∧ t.queues = s.queues) ∧
  (∀ (s u : State) (i : Nat), coreRuns s = true → i < tableEntries 2 → u = reportEntry s 2 i →
    ∃ x, x = learnEvent (fdbRemove u i) 8 0xA i 0 0 0 (fdbDest (fdbEntry u i)) 0x7F ∧
      exec (.tableEntryEcc 2 i) s = .next (if standsBy x then loseSync x else x)) ∧
  (∀ (s : State) (n i : Nat), coreRuns s = true → n < 0x100 → i < tableEntries n →
    ∃ t, exec (.tableEntryEcc (0x100 + n) i) s = .next t ∧ settled t = settled s ∧ t = report s 0x0101 (.fwd 0) [n, i] ∧
      t.tabs = s.tabs ∧ t.frames = s.frames ∧ t.queues = s.queues)

/-- The shadow compare (R110 to R113): one pass begins when asked; a visit, at its instant, reads the entry's copy in host memory, notes the
differences it finds and moves on; an entry that the host does not answer for is reported; and a difference counts only when a re-read
125 µs later finds it again: then SHADOW_MISMATCH is raised and, where the record is free, the record is taken. -/
def Obligations.ShadowCompareRereads : Prop :=
  (∀ (s : State) (src : Source), Admitted s src 0x603040 → flag s 0x603040 31 = false →
    ∃ t, exec (.shadowOnePass src) s = .next t ∧ flag t 0x603040 29 = true ∧ t.shadow.index = 0 ∧ RegsBut [0x603040, 0x603048] s t ∧
      t = { s with regs := t.regs, shadow := t.shadow, access := t.access }) ∧
  (∀ (s u : State) (sw : List Image), coreRuns s = true → shadowRuns s = true → s.shadow.due ≤ now s →
    shadowNextTable s s.shadow.table = some s.shadow.table → (sw.length = 1 ∨ sw.length = 3) →
    u = shadowFetch { s with shadow := { s.shadow with due := now s + shadowPace s } } s.shadow.table s.shadow.index →
    ∃ t, exec (.shadowVisit (some sw)) s = .next t ∧ t.tabs = s.tabs ∧ t.frames = s.frames ∧ t.shadow.due = now s + shadowPace s ∧
      t.shadow.diffs = s.shadow.diffs ++ (shadowFind u s.shadow.table s.shadow.index false sw ++
        (if ((s.shadow.table = 0 ∨ s.shadow.table = 5) && tableSettled s s.shadow.table) = true
          then shadowFind u s.shadow.table s.shadow.index true sw else [])) ∧
      (s.shadow.index + 1 < shadowEntries s.shadow.table → t.shadow.index = s.shadow.index + 1 ∧ t.shadow.table = s.shadow.table ∧
        t.out = u.out)) ∧
  (∀ (s u : State), coreRuns s = true → shadowRuns s = true → s.shadow.due ≤ now s →
    shadowNextTable s s.shadow.table = some s.shadow.table →
    u = shadowFetch { s with shadow := { s.shadow with due := now s + shadowPace s } } s.shadow.table s.shadow.index →
    ∃ t, exec (.shadowVisit none) s = .next t ∧ t = shadowAdvance (shadowReadError u s.shadow.table s.shadow.index) ∧
      flag t 0x603010 2 = true ∧ t.shadow.diffs = s.shadow.diffs ∧ t.tabs = s.tabs) ∧
  (∀ (s u : State) (d : ShadowDiff) (rest : List ShadowDiff) (v : Image), coreRuns s = true → s.shadow.diffs = d :: rest →
    d.at_ + 125000 ≤ now s →
    u = { shadowFetch s d.table d.index with shadow := { s.shadow with diffs := rest } } →
    (shadowHw u d.table d.part d.index d.applied ≠ d.hw → exec (.shadowReread (some v)) s = .next u) ∧
    (shadowDiffers d.table d.part d.index d.hw v.toNat = false → exec (.shadowReread (some v)) s = .next u) ∧
    (shadowHw u d.table d.part d.index d.applied = d.hw → shadowDiffers d.table d.part d.index d.hw v.toNat = true →
      flag s 0x603040 30 = false → flag s 0x603090 31 = false →
      ∃ t, exec (.shadowReread (some v)) s = .next t ∧ t = shadowReport u d d.hw v.toNat ∧ t.shadow.diffs = rest ∧ t.tabs = s.tabs ∧
        flag t 0x603010 0 = true ∧ rd t 0x603090 =
          (2 ^ 31 + d.table * 2 ^ 27 + bit d.applied * 2 ^ 26 + d.part * 2 ^ 24 + d.index) % 2 ^ 32))

/-- Policers and stream gates (R117 to R122, R125): at a refill instant, every 256 ns of steady time, the policers refill and the debits
made on assumed lengths are trued up, and a stream gate whose change time has come runs its new list. The token buckets of a policer
(R117, R118): a refill adds the rate, a bucket never rises above its size by it, and in the first mode what bucket A cannot hold goes to
bucket B. A green frame debits bucket A, or both in the second mode; a red one debits none; a frame is never made better than it was
(R117). -/
def Obligations.PolicersAndStreamGates : Prop :=
  (∀ s : State, coreRuns s = true → (s.policing.refills + 1) * 256 ≤ now s →
    ∃ t, exec .policerRefill s = .next t ∧ t.policing.trueUps = [] ∧ t.policing.refills = s.policing.refills + 1 ∧
      t = { s with policing := t.policing } ∧ t = refillPolicers s) ∧
  (∀ s : State, now s < (s.policing.refills + 1) * 256 → exec .policerRefill s = .next s) ∧
  (∀ (s : State) (g : Fin 1024) (L : GateList) (C ta : Nat), (gateAt s g).pending = some (L, C, ta) → C ≤ devNs s →
    ∃ t, exec (.streamGateChange g) s = .next t ∧
      gateAt t g = { pending := none, oper := some L, former := some ((gateAt s g).oper, C, ta) } ∧
      bitAt (tabN t 0x0F g) 251 = false ∧ t = { s with streamGates := t.streamGates, tabs := t.tabs }) ∧
  (∀ (e : Nat) (a b : Int), (refillBuckets e a b).1 = min (policerSizeA e) (a + policerRateA e) ∧
    (refillBuckets e a b).1 ≤ policerSizeA e ∧ (refillBuckets e a b).2 ≤ policerSizeB e ∧
    (bits e 126 125 = 0 → a + policerRateA e ≤ policerSizeA e → (refillBuckets e a b).2 = min (policerSizeB e) b)) ∧
  (∀ (e : Nat) (a b L : Int) (c : Nat), c ≤ 2 → 0 ≤ L →
    (meterColour e a b L c).1 ≤ 2 ∧ (bitAt e 124 = true → c ≤ (meterColour e a b L c).1) ∧
    ((meterColour e a b L c).1 = 2 → (meterColour e a b L c).2 = (false, false)) ∧
    ((meterColour e a b L c).2.1 = true → L ≤ a ∧ (meterColour e a b L c).1 = 0) ∧
    ((meterColour e a b L c).2.2 = true → L ≤ b))

/-! ### Spill memory -/

/-- Batches and sheets on their way out (R154, R160 to R165): BATCH_CLOSE closes a due batch, which waits for a sheet, or goes to the head
where the queue has no sheet and room; SHEET_CHOICE writes it to the sheet chosen, or blocks the queue when there is none; SHEET_WAIT_EXPIRY
drops a batch that found no sheet for SHEET_WAIT; SHEET_WRITE_DONE gives the leaves of a written sheet back. Sheets on their way back (R166
to R171): PREFETCH_START reserves room and asks for the sheet's blocks, SPILL_READ_RETURN takes a block off the list of outstanding ones,
SPILL_READ_TIMEOUT loses the records that wait for it, and SHEET_RELEASE gives a sheet whose header and owner agree back to its pool and
refuses any other. SHEET_AGE_SCAN discards stale sheets. What a batch without an index block does is the model's reading (log 20). -/
def Obligations.SpillWritesAndReadsSheets : Prop :=
  (∀ (s : State) (q : Fin 131072) (c : SpillCtx) (rest : List QItem), (queueAt s q).spill = some c → c.sub = .spilling → c.waiting = none →
    batchPrefix s [] (queueAt s q).tail ≠ [] → batchDue s (queueAt s q) c (batchPrefix s [] (queueAt s q).tail) = true → c.index ≠ [] →
    rest = (queueAt s q).tail.drop (batchPrefix s [] (queueAt s q).tail).length →
    ∃ t, exec (.batchClose q) s = .next t ∧ settled t = settled s ∧
      t = setQueue s q { queueAt s q with
        tail := rest,
        spill := some { c with
          opened := if rest.isEmpty then none else some (now s), waiting := some (batchPrefix s [] (queueAt s q).tail),
            refused := none } }) ∧
  (∀ (s : State) (q : Fin 131072) (c : SpillCtx) (rest : List QItem), (queueAt s q).spill = some c → c.sub = .spilling → c.waiting = none →
    batchPrefix s [] (queueAt s q).tail ≠ [] → batchDue s (queueAt s q) c (batchPrefix s [] (queueAt s q).tail) = true → c.index = [] →
    linkedLeaves s q ≤ spillOn s q → rest = (queueAt s q).tail.drop (batchPrefix s [] (queueAt s q).tail).length →
    ∃ t, exec (.batchClose q) s = .next t ∧ settled t = settled s ∧
      t = spillExit (settleHead (setQueue s q { queueAt s q with
        head := (queueAt s q).head ++ batchPrefix s [] (queueAt s q).tail,
        tail := rest,
        spill := some { c with opened := if rest.isEmpty then none else some (now s) } }) q) q) ∧
  (∀ (s : State) (q : Fin 131072) (c : SpillCtx) (batch : List QItem), (queueAt s q).spill = some c → c.waiting = some batch →
    waitOver s c.refused = false → keyGone s = false → indexFull c = false →
    (chooseSheet s (contentBlocks (batch.map (itemRecord s))) [] = none →
      ∃ t, exec (.sheetChoice q) s = .next t ∧ settled t = settled s ∧
        t = setQueue s q { queueAt s q with spill := some { c with sub := .blocked, refused := c.refused.or (some (now s)) } }) ∧
    (∀ k p : Nat, chooseSheet s (contentBlocks (batch.map (itemRecord s))) [] = some (k, p) →
      ∃ t, exec (.sheetChoice q) s = .next t ∧ t = placeBatch s q p k batch ∧ t.clock = s.clock ∧ t.tabs = s.tabs ∧
        (queueAt t q).spill.map (fun x => (x.sub, x.waiting, x.refused)) = some (.spilling, none, none) ∧
        (queueAt t q).serial = (queueAt s q).serial + 1 ∧ (queueAt t q).head = (queueAt s q).head)) ∧
  (∀ (s : State) (q : Fin 131072) (c : SpillCtx) (batch : List QItem) (w : Nat), (queueAt s q).spill = some c → c.waiting = some batch →
    c.refused = some w → w + max 1 (fld s 0x404044 23 16) * 1000 ≤ now s →
    ∃ t, exec (.sheetWaitExpiry q) s = .next t ∧ settled t = settled s ∧ t = sheetWaitOver s q) ∧
  (∀ (s : State) (q : Fin 131072) (n : Nat) (c : SpillCtx) (sh : Sheet), (queueAt s q).spill = some c →
    c.index.find? (fun x => x.owner == q.val && x.serial == n && x.writing) = some sh →
    ∃ t, exec (.sheetWriteDone q n) s = .next t ∧ settled t = settled s ∧ t = releaseWritten (writeDone (setCtx s q { c with
      index := c.index.map fun x => if x.owner == q.val && x.serial == n &&
        x.writing then { x with writing := false } else x }) sh) sh.records) ∧
  (∀ (s : State) (q : Fin 131072) (c : SpillCtx) (sh : Sheet), (queueAt s q).spill = some c →
    c.index.find? (fun x => x.reading.isNone) = some sh → wantsPrefetch s q = true → prefetchSheets s < 64 →
    s.buffer.sharedUsed + prefetchReserve sh ≤ globalLimit s 0 → olderNeed s q (c.needSince.getD (now s)) = false →
    ∃ t, exec (.prefetchStart q) s = .next t ∧ settled t = settled s ∧ t.tabs = s.tabs ∧ t.frames = s.frames ∧
      t.buffer.sharedUsed = s.buffer.sharedUsed + prefetchReserve sh) ∧
  (∀ (s : State) (q : Fin 131072) (n block : Nat) (st : ReadStatus),
    ∃ t, exec (.spillReadReturn q n block st) s = .next t ∧ settled t = settled s ∧ t = readReturn s q n block st) ∧
  (∀ (block : Nat) (sh : Sheet) (s : State) (sts : List RecordState), awaits sh block = true → block ∉ sh.poison → keyGone s = false →
    sh.keyEpoch = rd s 0x404054 → sh.reading = some sts →
    (blockReturn block .good sh s).1 = { unawait sh block with
      reading := some (sts.map fun st => match st with
        | .waiting bs => (match bs.erase block with | [] => .complete | l => .waiting l)
        | x => x),
      headerOk := sh.headerOk || block == 0 } ∧
    sget zeroNat (blockReturn block .good sh s).2.spill.timeouts sh.port = 0) ∧
  (∀ (s : State) (q : Fin 131072) (n r : Nat),
    ∃ t, exec (.spillReadTimeout q n r) s = .next t ∧ settled t = settled s ∧ t = failTimedOut (readTimeout s q n r)) ∧
  (∀ (s : State) (q : Fin 131072) (n : Nat) (e : Nat × Sheet),
    s.spill.releasing.find? (fun e => e.2.owner == q.val && e.2.serial == n && !e.2.writing && e.2.outstanding.isEmpty) = some e →
    keyGone s = false → e.2.keyEpoch = rd s 0x404054 →
    ∃ t, exec (.sheetRelease q n true true false) s = .next t ∧ settled t = settled s ∧
      (partAt t e.2.port e.2.pool).cache = (partAt s e.2.port e.2.pool).cache ++ [e.2.address] ∧
      t.spill.releasing = s.spill.releasing.erase e ∧ t.frames = s.frames ∧ t.queues = s.queues) ∧
  (∀ (s : State) (q : Fin 131072) (n : Nat) (ownerOk : Bool) (e : Nat × Sheet),
    s.spill.releasing.find? (fun e => e.2.owner == q.val && e.2.serial == n && !e.2.writing && e.2.outstanding.isEmpty) = some e →
    ∃ t, exec (.sheetRelease q n false ownerOk false) s = .next t ∧ settled t = settled s ∧
      t.spill = { s.spill with releasing := s.spill.releasing.erase e } ∧ flag t 0x404010 3 = true ∧ t.frames = s.frames) ∧
  (∀ (s : State) (q : Fin 131072),
    ∃ t, exec (.sheetAgeScan q) s = .next t ∧ settled t = settled s ∧
      t = ageScan ((((queueAt s q).spill).map fun c => c.index.length).getD 0) s q ∧
      (flag s 0x400060 31 = false → t = s))

/-- Software's hold on the spill (R161, R176, R177, R156): SPILL_PLACE_WRITE sets PLACE for the ports of its mask that are placed or may be,
FORCE_DISCARD takes the ports of its mask out of use and empties their partitions, POOL_INIT initialises a partition once nothing is placed
or held there, SPILL_QUERY shows a queue, and FREE_RING_TRANSFER moves 64 entries of a free ring. -/
def Obligations.SpillIsControlled : Prop :=
  (∀ (s : State) (src : Source) (m : Fin 16), Admitted s src 0x404040 →
    ∃ t, exec (.spillPlaceWrite src m) s = .next t ∧ settled t = settled s ∧ t.frames = s.frames ∧ t.spill = s.spill ∧
      ∀ c, c < 4 → flag t 0x404040 (28 + c) = (bitAt m c && (flag s 0x404040 (28 + c) || placeable s c))) ∧
  (∀ (s : State) (src : Source) (m : Fin 16), Admitted s src 0x404040 →
    ∃ t, exec (.forceDiscard src m) s = .next t ∧ settled t = settled s ∧ t = forceDiscards (atRegister s src 0x404040) m) ∧
  (∀ (s : State) (src : Source) (c : Fin 4) (m : Fin 16), Admitted s src 0x404040 → m.val = 2 ^ c.val → s.spill.releasing = [] →
    (∀ e ∈ s.queues, e.2.spill = none) →
    ∃ t, exec (.forceDiscard src m) s = .next t ∧ flag t 0x404040 (28 + c) = false ∧ (∀ k, k < 4 → partAt t c k = {}) ∧
      t.frames = s.frames ∧ t.queues = s.queues) ∧
  (∀ (s : State) (src : Source) (c k : Fin 4) (n : Nat), Admitted s src (0x406048 + (4 * c.val + k.val) * 0x20) →
    flag s 0x404040 (28 + c) = false → sheetsHeld s c = 0 → n < 2 ^ 27 →
    ∃ t, exec (.poolInit src c k n) s = .next t ∧
      partAt t c k = { started := true, ring := n, cache := [], runs := [(none, n)], readAt := 0, writeAt := n } ∧
      RegsBut [0x406048 + (4 * c.val + k.val) * 0x20] s t ∧ t = { s with regs := t.regs, spill := t.spill, access := t.access }) ∧
  (∀ (s : State) (src : Source) (c k : Fin 4) (n : Nat), Admitted s src (0x406048 + (4 * c.val + k.val) * 0x20) →
    (flag s 0x404040 (28 + c) = true ∨ sheetsHeld s c ≠ 0) →
    ∃ t, exec (.poolInit src c k n) s = .next t ∧ t.spill = s.spill ∧ flag t 0x406010 0 = true) ∧
  (∀ (s : State) (src : Source) (q : Fin 131072), Admitted s src 0x404078 → (queueAt s q).spill = none →
    ∃ t, exec (.spillQuery src q) s = .next t ∧ rd t 0x40407C = 0 ∧ rd t 0x404080 = 0 ∧ fld t 0x404078 16 0 = q.val ∧
      RegsBut [0x404078, 0x40407C, 0x404080] s t ∧ t = { s with regs := t.regs, access := t.access }) ∧
  (∀ (s : State) (src : Source) (q : Fin 131072) (c : SpillCtx), Admitted s src 0x404078 → (queueAt s q).spill = some c →
    ∃ t, exec (.spillQuery src q) s = .next t ∧
      fld t 0x40407C 31 30 = (match c.sub with | .spilling => 1 | .blocked => 2 | .draining => 3) ∧
      rd t 0x404080 = spillHeld s q % 2 ^ 32 ∧ RegsBut [0x404078, 0x40407C, 0x404080] s t ∧
      t = { s with regs := t.regs, access := t.access }) ∧
  (∀ (s : State) (c k : Fin 4) (l : List Nat), (partAt s c k).started = true → (partAt s c k).cache.length < 256 → l ≠ [] →
    l.length = min 64 (partAt s c k).ring → ((takeRuns l.length (partAt s c k).runs).1.zip l).all (fun e => e.1.all (· == e.2)) = true →
    ∃ t, exec (.freeRingTransfer c k (some l)) s = .next t ∧ settled t = settled s ∧ t = { s with spill := t.spill, out := t.out } ∧
      (partAt t c k).ring = (partAt s c k).ring - l.length ∧ (partAt t c k).cache = (partAt s c k).cache ++ l ∧
      t.out = s.out ++ [ringRequest s c k (partAt s c k).readAt [l.length]]) ∧
  (∀ (s : State) (c k : Fin 4), (partAt s c k).started = true → 768 < (partAt s c k).cache.length →
    ∃ t, exec (.freeRingTransfer c k none) s = .next t ∧ settled t = settled s ∧ t = { s with spill := t.spill, out := t.out } ∧
      (partAt t c k).ring = (partAt s c k).ring + 64 ∧ (partAt t c k).cache = (partAt s c k).cache.drop 64 ∧
      t.out = s.out ++ [ringRequest s c k (partAt s c k).writeAt ((partAt s c k).cache.take 64)])

/-! ### CXL ports -/

/-- A CXL port's life (R182 to R194). CXL_PORT_ENABLE starts training where the port is OFF; the port's reset is released 100 µs after t0
and not before 100 ms of steady time; CXL_LINK_UP of a wide memory link leads to ENUMERATING and any other link to FAILED; a port without a
link 100 ms after t0 is FAILED. CXL_READY programs the decoders and makes the port READY, CXL_ENUMERATION_TIMEOUT and CXL_PORT_FAILURE take
it to FAILED with their cause, CXL_PORT_RESET discards its sheets and starts it again, CXL_PORT_DISABLE takes it to OFF and SANITIZE_DONE
ends a sanitisation. Firmware's watch over the memory devices (R187, R190): CXL_HEALTH_POLL shows the device's health, events are read at
CXL_EVENT_SIGNAL, and SET_TIMESTAMP sets the timestamps every 1,024 s. That a disabled port is OFF is the model's choice (log 22). -/
def Obligations.CxlPortsFollowTheirStates : Prop :=
  (∀ (s : State) (src : Source) (c : Fin 4), Admitted s src (cxlReg c 0x40) → cxlState s c = 0 → s.firmware.running = true →
    ∃ t, exec (.cxlPortEnable src c) s = .next t ∧ settled t = settled s ∧ flag t (cxlReg c 0x40) 31 = true ∧ cxlState t c = 1 ∧
      cxlLinkAt t c = { t0 := now s } ∧ RegsBut [cxlReg c 0x40, cxlReg c 0x48] s t ∧
      t = { s with regs := t.regs, spill := { s.spill with links := t.spill.links }, access := t.access }) ∧
  (∀ (s : State) (src : Source) (c : Fin 4), Admitted s src (cxlReg c 0x40) → cxlState s c ≠ 0 →
    ∃ t, exec (.cxlPortEnable src c) s = .next t ∧ flag t (cxlReg c 0x40) 31 = true ∧ RegsBut [cxlReg c 0x40] s t ∧
      t = { s with regs := t.regs, access := t.access }) ∧
  (∀ (s : State) (c : Fin 4), cxlState s c = 1 → flag s (cxlReg c 0x48) 23 = true → (cxlLinkAt s c).t0 + 100000 ≤ now s →
    100000000 ≤ now s → now s < (cxlLinkAt s c).t0 + 100000000 →
    flag (cxlTick s c) (cxlReg c 0x48) 23 = false ∧ (cxlTick s c).out = s.out ++ [.pin "CXL_PERST_N" c true] ∧
    (cxlLinkAt (cxlTick s c) c).released = now s ∧ RegsBut [cxlReg c 0x48] s (cxlTick s c)) ∧
  (∀ (s : State) (c : Fin 4), cxlState s c = 1 → flag s (cxlReg c 0x48) 23 = false → (cxlLinkAt s c).t0 + 100000000 ≤ now s →
    cxlTick s c = cxlFail s c 1) ∧
  (∀ (s : State) (src : Source) (c : Fin 4), Admitted s src (cxlReg c 0x40) → cxlState s c = 0 →
    ∃ t, exec (.cxlPortDisable src c) s = .next t ∧ flag t (cxlReg c 0x40) 31 = false ∧ RegsBut [cxlReg c 0x40] s t ∧
      t = { s with regs := t.regs, access := t.access }) ∧
  (∀ (s u : State) (src : Source) (c : Fin 4), Admitted s src (cxlReg c 0x40) → cxlState s c ≠ 0 →
    u = forceDiscard (setFlag (atRegister s src (cxlReg c 0x40)) (cxlReg c 0x40) 31 false) c →
    ∃ t, exec (.cxlPortDisable src c) s = .next t ∧ t = setPerst (setFld (setCxlState u c 0) (cxlReg c 0x48) 22 16 0) c true ∧
      cxlState t c = 0 ∧ flag t (cxlReg c 0x48) 23 = true ∧ fld t (cxlReg c 0x48) 22 16 = 0 ∧ t.clock = s.clock ∧ t.regsCur = s.regsCur ∧
      t.tabsCur = s.tabsCur) ∧
  (∀ (s : State) (c : Fin 4) (x8 : Bool) (rate : Fin 4) (cxl2 : Bool), cxlState s c = 1 → flag s (cxlReg c 0x48) 23 = false →
    ∃ t, exec (.cxlLinkUp c x8 rate cxl2 true true) s = .next t ∧ cxlState t c = 2 ∧
      fld t (cxlReg c 0x48) 22 21 = (if cxl2 then 2 else 1) ∧ RegsBut [cxlReg c 0x48] s t ∧ t = { s with regs := t.regs }) ∧
  (∀ (s : State) (c : Fin 4) (x8 : Bool) (rate : Fin 4) (cxl2 mem : Bool), cxlState s c = 1 → flag s (cxlReg c 0x48) 23 = false →
    (∃ t, exec (.cxlLinkUp c x8 rate cxl2 false mem) s = .next t ∧ settled t = settled s ∧ t = cxlFail s c 2) ∧
    (∃ t, exec (.cxlLinkUp c x8 rate cxl2 true false) s = .next t ∧ settled t = settled s ∧ t = cxlFail s c 3)) ∧
  (∀ (s : State) (c : Fin 4) (cause : Fin 16), cxlState s c = 2 →
    (cause.val = 3 ∨ cause.val = 5 ∨ (cause.val = 4 ∧ (cxlLinkAt s c).released + 1000000000 ≤ now s)) →
    ∃ t, exec (.cxlEnumerationTimeout c cause) s = .next t ∧ settled t = settled s ∧ t = cxlFail s c cause) ∧
  (∀ (s : State) (c : Fin 4) (cause : Fin 16), cxlState s c = 2 → 6 ≤ cause.val → cause.val ≤ 8 →
    ∃ t, exec (.cxlEnumerationTimeout c cause) s = .next t ∧ settled t = settled s ∧ t = cxlFail (identify s c) c cause) ∧
  (∀ (s : State) (c : Fin 4) (n : Nat), cxlState s c = 2 → n ≠ 0 → sget (fun _ => []) s.firmware.layouts c = [] →
    ∃ t, exec (.cxlReady c n) s = .next t ∧ settled t = settled s ∧ cxlState t c = 3 ∧
      fld t (cxlReg c 0x4C) 31 16 = min n 0xFFFF ∧ fld t (cxlReg c 0x4C) 10 0 = min n 1024 ∧
      flag t ((Page.cxl c).at_ 0x10) 0 = true ∧ RegsBut [cxlReg c 0x48, cxlReg c 0x4C, (Page.cxl c).at_ 0x10] s t ∧
      (cxlLinkAt t c).decoder = some { base := c * 2 ^ 38, size := min n 1024 * 2 ^ 28 } ∧
      (cxlLinkAt t c).root = (cxlLinkAt t c).decoder ∧ (cxlLinkAt t c).memEnable = true ∧
      t = { s with regs := t.regs, spill := { s.spill with links := t.spill.links }, out := t.out, freeCount := t.freeCount }) ∧
  (∀ (s : State) (c : Fin 4) (n : Nat), cxlState s c = 2 →
    ∃ t, exec (.cxlReady c n) s = .next t ∧ settled t = settled s ∧ (n = 0 → t = cxlFail (identify s c) c 7)) ∧
  (∀ (s : State) (c : Fin 4) (cause : Fin 16), (cxlState s c = 1 ∨ cxlState s c = 2 ∨ cxlState s c = 3 ∨ cxlState s c = 5) →
    (cause.val = 1 ∨ cause.val = 9 ∨ cause.val = 10) →
    ∃ t, exec (.cxlPortFailure c cause) s = .next t ∧ settled t = settled s ∧ t = cxlFail s c cause ∧
      (NoSpill s → cxlState t c = 4 ∧ fld t (cxlReg c 0x48) 27 24 = cause.val ∧ flag t (cxlReg c 0x48) 23 = true ∧
        flag t 0x404040 (28 + c) = false ∧ (∀ k, k < 4 → partAt t c k = {}) ∧ t.queues = s.queues ∧ t.frames = s.frames)) ∧
  (∀ (s : State) (c : Fin 4), cxlState s c = 3 →
    ∃ t, exec (.cxlPortFailure c 12) s = .next t ∧ settled t = settled s ∧ cxlState t c = 3 ∧ t.spill = s.spill) ∧
  (∀ (s u : State) (src : Source) (c : Fin 4), Admitted s src (cxlReg c 0x44) →
    u = setPerst (forceDiscard (atRegister s src (cxlReg c 0x44)) c) c true →
    ∃ t, exec (.cxlPortReset src c) s = .next t ∧ settled t = settled s ∧
      t = cxlTrain (setFld (setCxlState u c 0) (cxlReg c 0x48) 22 16 0) c ∧
      (NoSpill s → cxlState t c = (if cxlEnabled s c ∧ s.firmware.running then 1 else 0) ∧ flag t (cxlReg c 0x48) 23 = true ∧
        t.queues = s.queues ∧ t.frames = s.frames)) ∧
  (∀ (s : State) (c : Fin 4) (ok : Bool), cxlState s c = 5 →
    ∃ t, exec (.sanitizeDone c ok) s = .next t ∧ cxlState t c = 3 ∧ flag t (cxlReg c 0x50) 28 = ok ∧
      flag t ((Page.cxl c).at_ 0x10) 4 = true ∧ t = { s with regs := t.regs, out := t.out, firmware := t.firmware }) ∧
  (∀ (s : State) (c : Fin 4) (h : Health), pollDue s c = true → h.mailboxFailed = false →
    h.replace = false → h.critical = false → h.degraded = false → h.maintenance = false → h.lifeUsed.toNat ≤ 90 →
    ∃ t, exec (.cxlHealthPoll c h []) s = .next t ∧ fld t (cxlReg c 0x50) 23 16 = h.temperature.toNat ∧
      fld t (cxlReg c 0x50) 7 0 = h.lifeUsed.toNat ∧ RegsBut [cxlReg c 0x50] s t ∧ t.out = s.out ++ [.cxl c [0x4200]] ++ [.cxl c [0x0100]] ∧
      (cxlLinkAt t c).polledAt = now s) ∧
  (∀ (s : State) (c : Fin 4) (h : Health) (ev : List (Nat × List Nat)), pollDue s c = true →
    h.mailboxFailed = true → sget zeroNat s.firmware.mailboxFails c + 1 < 3 →
    ∃ t, exec (.cxlHealthPoll c h ev) s = .next t ∧ t = { s with firmware := t.firmware, spill := t.spill, out := t.out } ∧
      sget zeroNat t.firmware.mailboxFails c = sget zeroNat s.firmware.mailboxFails c + 1) ∧
  (∀ (s : State) (c : Fin 4) (ev : List (Nat × List Nat)), cxlState s c = 3 → s.firmware.running = true →
    ∃ t, exec (.cxlEventSignal c ev) s = .next t ∧ settled t = settled s ∧ t.frames = s.frames ∧ t.tabs = s.tabs ∧
      t = readEvents (setCxlLink s c { cxlLinkAt s c with signalled := true }) c ev ∧
      (ev = [] → t.out = s.out ++ [.cxl c [0x0100]] ∧ t.regs = s.regs ∧ pollDue t c = true)) ∧
  (∀ s : State, s.firmware.running = true → s.startup.lastTimestamp + 1024000000000 ≤ now s →
    ∃ t, exec .setTimestamp s = .next t ∧ t.startup.lastTimestamp = now s ∧ t = { s with startup := t.startup, out := t.out })

/-! ### Schedulers, gates and preemption -/

/-- Shapers refill at their instants (R207), and the subtree of a node in transit that has emptied leaves transit (R213, R214). An idle
bucket keeps being refilled, and a refill never lifts it above its burst; one whose shaper becomes enabled is set full (R211). Gate
lists (R217 to R222): an accepted list waits for its change time, at which it is in force, and one that was due first takes force; ENABLE 0
drops both lists. A change of entry shows the gates that are open now, and a slice wakes 1 µs, or from deep sleep 20 µs, before a gate of
its ports with something to send opens (R227). -/
def Obligations.ShapersAndGatesKeepTheirTimes : Prop :=
  (∀ (s : State) (n : Fin 4), coreRuns s = true → s.sched.refills.length = 4 → (nth s.sched.refills n + 1) * tierInterval n ≤ now s →
    ∃ t, exec (.shaperRefill n) s = .next t ∧ t = refillTier s n ∧ t = { s with sched := t.sched } ∧
      nth t.sched.refills n = nth s.sched.refills n + 1 ∧ t.sched.deficit = s.sched.deficit) ∧
  (∀ (s : State) (n : Fin 4), now s < (nth s.sched.refills n + 1) * tierInterval n → exec (.shaperRefill n) s = .next s) ∧
  (∀ (s : State) (n : Nat), n ∈ s.sched.transit → subtreeHeld s n = false →
    ∃ t, exec (.transitEnd n) s = .next t ∧ n ∉ t.sched.transit ∧ flag t 0x500010 0 = true ∧ RegsBut [0x500010, 0x500054] s t ∧
      t = { s with regs := t.regs, sched := t.sched, out := t.out }) ∧
  (∀ (wasOn isOn : Bool) (rate interval : Nat) (burst v : Int), v ≤ burst →
    (refillOne wasOn isOn rate interval burst v ≤ burst) ∧
    (isOn = true → wasOn = false → refillOne wasOn isOn rate interval burst v = burst) ∧
    (isOn = false → refillOne wasOn isOn rate interval burst v = v)) ∧
  (∀ (s : State) (src : Source) (port : Fin 64), Admitted s src (portReg port 1 0x80) → gateEnabled s port = true →
    ∃ t, exec (.gateConfigChange src port) s = .next t ∧ settled t = settled s ∧ (portAt t port).gate.pending.isSome = true ∧
      (gateDue s port = false → (portAt t port).gate.oper = (portAt s port).gate.oper) ∧
      (∀ (L : GateList) (C ta : Nat), (portAt s port).gate.pending = some (L, C, ta) → C ≤ devNs s →
        (portAt t port).gate.oper = some L) ∧ t.tabs = s.tabs ∧ t.queues = s.queues) ∧
  (∀ (s : State) (port : Fin 64) (L : GateList) (C ta : Nat), (portAt s port).gate.pending = some (L, C, ta) → C ≤ devNs s →
    ∃ t, exec (.gateChangeTime port) s = .next t ∧
      (portAt t port).gate = { pending := none, oper := some L, former := some ((portAt s port).gate.oper, C, ta) } ∧
      flag t ((Page.port port 1).at_ 0x10) 0 = true ∧ t.tabs = s.tabs ∧ t.queues = s.queues) ∧
  (∀ (s : State) (port : Fin 64),
    ∃ t, exec (.gateEntryChange port) s = .next t ∧ settled t = settled s ∧ t = holdAtClose (showGate s port) port ∧
      rd t (portReg port 1 0x9C) = (bit (portAt s port).gate.pending.isSome * 2 ^ 31 + bit (portAt s port).gate.oper.isSome * 2 ^ 30 +
        bits (portGates s port (devNs s)).1 9 0 * 2 ^ 16 + bits (portGates s port (devNs s)).2 7 0) % 2 ^ 32 ∧
      RegsBut [portReg port 1 0x9C] s t) ∧
  (∀ (s : State) (src : Source) (port : Fin 64), Admitted s src (portReg port 1 0x80) →
    ∃ t, exec (.gateDisable src port) s = .next t ∧ (portAt t port).gate = {} ∧ gateEnabled t port = false ∧
      t = { s with regs := t.regs, ports := t.ports, access := t.access }) ∧
  (∀ (s : State) (port : Fin 64) (q : Nat), gateEnabled s port = true → q ∈ busyQueues s → queuePort s q = some port.val →
    (sliceAt s (port.val / 8)).sleep = .light → opensWithin s port (q % 8) 1000 = true →
    ∃ t, exec (.gateWake ⟨port.val / 8, by omega⟩) s = .next t ∧ settled t = settled s ∧ (sliceAt t (port.val / 8)).sleep = .waking false ∧
      t.regs = s.regs ∧ t.queues = s.queues) ∧
  (∀ (s : State) (port : Fin 64) (q : Nat), gateEnabled s port = true → q ∈ busyQueues s → queuePort s q = some port.val →
    (sliceAt s (port.val / 8)).sleep = .deep → opensWithin s port (q % 8) 20000 = true →
    ∃ t, exec (.gateWake ⟨port.val / 8, by omega⟩) s = .next t ∧ settled t = settled s ∧ (sliceAt t (port.val / 8)).sleep = .waking true ∧
      t.regs = s.regs ∧ t.queues = s.queues) ∧
  (∀ (s : State) (i : Fin 8), (∀ p, p / 8 = i.val → gateEnabled s p = false) → exec (.gateWake i) s = .next s)

/-- The change time of a gate list (R221): the base time itself when it lies at least 10 µs ahead, and otherwise the first whole number of
cycles after it that does. Edges of a periodic output lie on its grid: the first at or after an instant is at or after it, less than one
period later, and a whole number of periods after the start (R253, R254). A step re-phases the cycle in progress once (R239): it ends at
the next multiple of 125,000 ns of the new device time, its fraction counted, or one later when it would last less than 62,500 ns of steady
time, and the two cycle numbers are recorded. -/
def Obligations.TimesFallOnTheirGrids : Prop :=
  (∀ base cycle ta : Nat, 0 < cycle →
    (changeTime base cycle ta).1 = base + (changeTime base cycle ta).2 * cycle ∧ ta + 10000 ≤ (changeTime base cycle ta).1 ∧
    ((changeTime base cycle ta).2 ≠ 0 → (changeTime base cycle ta).1 < ta + 10000 + cycle)) ∧
  (∀ start period t : Nat, 0 < period → t ≤ gridFrom start period t ∧ start ≤ gridFrom start period t ∧
    (gridFrom start period t - start) % period = 0 ∧ (start < t → gridFrom start period t < t + period)) ∧
  (∀ s : State, (rephase s).clock.cycleEnd % 125000 = 0 ∧ s.clock.dev ≤ (rephase s).clock.cycleEnd * 2 ^ 40 ∧
    (∀ m : Nat, m % 125000 = 0 → s.clock.dev ≤ m * 2 ^ 40 → m * 2 ^ 40 < s.clock.dev + 125000 * 2 ^ 40 →
      (rephase s).clock.cycleEnd = (if s.clock.steady + ticksUntil s m - s.clock.cycleStart < 62500 then m + 125000 else m)) ∧
    rd (rephase s) 0x4080 = s.clock.cycleNumber % 2 ^ 32 ∧ rd (rephase s) 0x4084 = (rephase s).clock.cycleEnd / 125000 % 2 ^ 32 ∧
    flag (rephase s) 0x4010 0 = true ∧
    (rephase s).clock = { s.clock with cycleEnd := (rephase s).clock.cycleEnd })

/-- The verify process (R229): a verify mPacket is sent first, up to three wait for their answer, the process fails after the third, and a
respond mPacket makes preemption active. A port whose egress is closed sends none (R262). -/
def Obligations.VerifyAsksThreeTimes : Prop :=
  (∀ (s : State) (port : Fin 64), preemptEnabled s port = true → portUp s port = true → egressOpen s = true →
    flag s (portReg port 1 0xD0) 30 = false → (fld s (portReg port 1 0xD4) 29 27 = 1 ∨ (fld s (portReg port 1 0xD4) 29 27 = 2 ∧
      (portAt s port).verifySent < 3 ∧ (portAt s port).verifyAt + (fld s (portReg port 1 0xD0) 29 23 + 1) * 1000000 ≤ now s)) →
    ∃ t, exec (.verifySend port) s = .next t ∧ settled t = settled s ∧ fld t (portReg port 1 0xD4) 29 27 = 2 ∧
      t.out = s.out ++ [.control port [smdVerify]] ∧
      (portAt t port).verifySent = (portAt s port).verifySent + 1 ∧ (portAt t port).verifyAt = now s ∧ RegsBut [portReg port 1 0xD4] s t ∧
      t.queues = s.queues) ∧
  (∀ (s : State) (port : Fin 64), egressOpen s = false → exec (.verifySend port) s = .next s) ∧
  (∀ (s : State) (port : Fin 64), preemptEnabled s port = true → portUp s port = true → egressOpen s = true →
    flag s (portReg port 1 0xD0) 30 = false → fld s (portReg port 1 0xD4) 29 27 = 2 → 3 ≤ (portAt s port).verifySent →
    (portAt s port).verifyAt + (fld s (portReg port 1 0xD0) 29 23 + 1) * 1000000 ≤ now s →
    ∃ t, exec (.verifySend port) s = .next t ∧ fld t (portReg port 1 0xD4) 29 27 = 4 ∧ flag t ((Page.port port 1).at_ 0x10) 4 = true ∧
      t = { s with regs := t.regs, out := t.out }) ∧
  (∀ (s : State) (port : Fin 64), fld s (portReg port 1 0xD4) 29 27 = 2 → preemptEnabled s port = true → portUp s port = true →
    ∃ t, exec (.verifyResponse port) s = .next t ∧ fld t (portReg port 1 0xD4) 29 27 = 3 ∧ flag t (portReg port 1 0xD4) 31 = true ∧
      t = { s with regs := t.regs, out := t.out })

/-! ### Time -/

/-- TIME_CAPTURE copies device time into the source's own capture registers (R238). TIME_STEP waits for the next tick, where it adds
TIME_STEP to device time, keeps the fraction and sets STEP_DONE (R236). TIME_SLEW takes the values of its registers, and from the next tick
the slew runs for TIME_SLEW_TICKS ticks; it ends with SLEW_DONE when its ticks have run out, or at the tick after SLEW_ABORT (R235). -/
def Obligations.DeviceTimeIsReadAndSteered : Prop :=
  (∀ (s : State) (src : Source), Admitted s src 0x4040 →
    ∃ t, exec (.timeCapture src) s = .next t ∧ t = { s with access := t.access } ∧
      ownWord t src 0x4068 = devNs s / 1000000000 % 2 ^ 32 ∧ ownWord t src 0x406C = devNs s / 1000000000 / 2 ^ 32 % 2 ^ 32 ∧
      ownWord t src 0x4070 = devNs s % 1000000000 ∧ ownWord t src 0x4074 = s.clock.dev % 2 ^ 40 / 2 ^ 8 ∧
      ∀ (other : Source) (a : Nat), other.code ≠ src.code → a < 2 ^ 26 → ownWord t other a = ownWord s other a) ∧
  (∀ (s : State) (src : Source), Admitted s src 0x4040 →
    ∃ t, exec (.timeStep src) s = .next t ∧ t.clock = { s.clock with stepWaiting := some (signed (rdPair s 0x404C) 64) } ∧
      flag t 0x4078 29 = true ∧ RegsBut [0x4078] s t ∧ t = { s with regs := t.regs, access := t.access, clock := t.clock }) ∧
  (∀ (s : State) (n : Int), s.startup.island = true → s.clock.stepWaiting = some n →
    (correctTime s).clock.stepWaiting = none ∧ flag (correctTime s) 0x4010 1 = true ∧ now (correctTime s) = now s) ∧
  (∀ (s : State) (n : Int), s.clock.dev < devWrap → 0 ≤ (devNs s : Int) + n → (devNs s : Int) + n < 2 ^ 48 * 1000000000 →
    (devNs (applyStep s n) : Int) = devNs s + n ∧ (applyStep s n).clock.dev % 2 ^ 40 = s.clock.dev % 2 ^ 40 ∧
    flag (applyStep s n) 0x4078 29 = false ∧ RegsBut [0x4078] s (applyStep s n) ∧
    applyStep s n = { s with clock := (applyStep s n).clock, regs := (applyStep s n).regs } ∧ now (applyStep s n) = now s) ∧
  (∀ (s : State) (src : Source), Admitted s src 0x4040 →
    ∃ t, exec (.timeSlew src) s = .next t ∧
      t.clock = { s.clock with slewNext := some (bits (rdPair s 0x4058) 47 0, signed (rd s 0x4054) 32) } ∧
      t = { s with access := t.access, clock := t.clock }) ∧
  (∀ (s : State) (n : Nat) (adj : Int), s.clock.slewNext = some (n, adj) →
    (slewTick s).clock = { s.clock with slewLeft := n, slewAdj := adj, slewNext := none, slewEnds := false } ∧
    flag (slewTick s) 0x4078 30 = true ∧ RegsBut [0x4078, 0x4010] s (slewTick s)) ∧
  (∀ (s : State) (src : Source), Admitted s src 0x4040 →
    ∃ t, exec (.slewAbort src) s = .next t ∧ t = { s with access := t.access, clock := { s.clock with slewEnds := true } }) ∧
  (∀ s : State, flag s 0x4078 30 = true → s.clock.slewEnds = true → s.clock.slewNext = none →
    (slewTick s).clock = { s.clock with slewLeft := 0, slewAdj := 0, slewEnds := false } ∧ flag (slewTick s) 0x4078 30 = false ∧
    flag (slewTick s) 0x4010 2 = true ∧ RegsBut [0x4078, 0x4010] s (slewTick s)) ∧
  (∀ s : State, flag s 0x4078 30 = true → s.clock.slewLeft = 0 →
    ∃ t, exec .slewDone s = .next t ∧ t.clock = { s.clock with slewLeft := 0, slewAdj := 0 } ∧ flag t 0x4078 30 = false ∧
      flag t 0x4010 2 = true ∧ RegsBut [0x4078, 0x4010] s t ∧
      t = { s with regs := t.regs, clock := t.clock, out := s.out ++ vectors s .time 2 }) ∧
  (∀ s : State, 0 < s.clock.slewLeft → 0 ≤ (tickIncrement s : Int) + s.clock.slewAdj →
    ((tickAdvance s : Nat) : Int) = tickIncrement s + s.clock.slewAdj) ∧
  (∀ s : State, s.clock.slewLeft = 0 → tickAdvance s = max (2 ^ 39) (min (2 ^ 41) (rdPair s 0x4044)))

/-- A capture pin keeps its oldest 16 stamps, a read takes the oldest one, an output pin is armed by its mode and drives its level at each
edge for its WIDTH, and a single edge nearer than 1 µs is late (R252, R253); while FAULT_SAFE holds a mismatch of the page's parity, the
output keeps its level (R35). That WIDTH is counted in steady time is the model's choice (log 35). -/
def Obligations.TimeEventPinsStampAndDrive : Prop :=
  (∀ (s : State) (k : Fin 8) (falling : Bool), tevMode s k = 1 → fld s (tevBase k) 28 27 = (if falling then 1 else 0) →
    (tevAt s k).fifo.length < 16 →
    ∃ t, exec (.tevEdgeCapture k falling) s = .next t ∧ (tevAt t k).fifo = (tevAt s k).fifo ++ [(devSec s, devSub s, falling)] ∧
      fld t (tevBase k) 4 0 = (tevAt s k).fifo.length + 1 ∧ flag t 0x5010 k = true ∧ RegsBut [tevBase k, 0x5010] s t ∧
      t = { s with regs := t.regs, out := t.out, tev := t.tev }) ∧
  (∀ (s : State) (k : Fin 8) (falling : Bool), tevMode s k = 1 → fld s (tevBase k) 28 27 = 2 → 16 ≤ (tevAt s k).fifo.length →
    ∃ t, exec (.tevEdgeCapture k falling) s = .next t ∧ t = tally s (0x5140 + k.val * 4) ∧ t.tev = s.tev) ∧
  (∀ (s : State) (src : Source) (k : Fin 8) (sec ns : Nat) (falling : Bool) (rest : List (Nat × Nat × Bool)),
    mayRead s src (tevBase k + 0x18) = true → (tevAt s k).fifo = (sec, ns, falling) :: rest →
    ∃ t, exec (.tevCapRead src k) s = .next t ∧ (tevAt t k).fifo = rest ∧ fld t (tevBase k) 4 0 = rest.length % 32 ∧
      ownWord t src (tevBase k + 0x1C) = sec % 2 ^ 32 ∧
      t.out = s.out ++ [.value src (tevBase k + 0x18) (2 ^ 31 + bit falling * 2 ^ 30 + ns)] ∧ RegsBut [tevBase k] s t) ∧
  (∀ (s : State) (src : Source) (k : Fin 8), mayRead s src (tevBase k + 0x18) = true → (tevAt s k).fifo = [] →
    ∃ t, exec (.tevCapRead src k) s = .next t ∧ t.regs = s.regs ∧ t.tev = s.tev ∧
      t.out = s.out ++ [.value src (tevBase k + 0x18) 0]) ∧
  (∀ (s : State) (src : Source) (k : Fin 8), Admitted s src (tevBase k) → tevMode s k = 2 →
    devNs s + 1000 ≤ (rd s (tevBase k + 8) + fld s (tevBase k + 0xC) 15 0 * 2 ^ 32) * 1000000000 + rd s (tevBase k + 4) →
    ∃ t, exec (.tevArm src k) s = .next t ∧ (tevAt t k).armed = true ∧
      (tevAt t k).nextEdge = (rd s (tevBase k + 8) + fld s (tevBase k + 0xC) 15 0 * 2 ^ 32) * 1000000000 + rd s (tevBase k + 4) ∧
      t = { s with tev := t.tev, access := t.access }) ∧
  (∀ (s : State) (src : Source) (k : Fin 8), Admitted s src (tevBase k) → tevMode s k = 2 →
    (rd s (tevBase k + 8) + fld s (tevBase k + 0xC) 15 0 * 2 ^ 32) * 1000000000 + rd s (tevBase k + 4) < devNs s + 1000 →
    ∃ t, exec (.tevArm src k) s = .next t ∧ (tevAt t k).armed = false ∧ flag t 0x5010 (8 + k) = true ∧ RegsBut [0x5010] s t) ∧
  (∀ (s : State) (k : Fin 8), (tevAt s k).armed = true → tevMode s k = 3 → (tevAt s k).nextEdge ≠ 0 → (tevAt s k).nextEdge ≤ devNs s →
    tevFrozen s = false →
    ∃ t, exec (.tevOutputEdge k) s = .next t ∧
      t.out = s.out ++ [.pin "TEV" k (!flag s (tevBase k) 26)] ∧
      tevAt t k = { tevAt s k with activeUntil := some (now s + (tevAt s k).width), nextEdge := (tevAt s k).nextEdge + (tevAt s k).period } ∧
      t = { s with tev := t.tev, out := t.out }) ∧
  (∀ (s : State) (k : Fin 8) (w : Nat), (tevAt s k).activeUntil = some w → w ≤ now s → tevFrozen s = false →
    (tevEnd s k).out = s.out ++ [.pin "TEV" k (flag s (tevBase k) 26)] ∧ tevAt (tevEnd s k) k = { tevAt s k with activeUntil := none } ∧
    tevEnd s k = { s with tev := (tevEnd s k).tev, out := (tevEnd s k).out }) ∧
  (∀ (s : State) (k : Fin 8), tevFrozen s = true → tevEnd s k = s ∧ exec (.tevOutputEdge k) s = .next s)

/-! ### Twin operation -/

/-- ARM and DISARM (R260, R265): arming sets TWIN_CONTROL.ARM; disarming clears it and withdraws a claim that is not confirmed. A device
claims only when its core is supplied, it is armed, stands by and has read the mate's claim released for 50 samples; 25 more released
samples confirm the claim, and an active sample is a conflict (R260, R261). EGRESS_ALLOWED is set again after 50 released samples. -/
def Obligations.ArmedDevicesClaimOnReleasedSamples : Prop :=
  (∀ (s : State) (src : Source), Admitted s src 0x6048 →
    ∃ t, exec (.twinArm src) s = .next t ∧ armed t = true ∧ RegsBut [0x6048] s t ∧ t = { s with regs := t.regs, access := t.access }) ∧
  (∀ (s : State) (src : Source), Admitted s src 0x6048 → role s ≠ 1 →
    ∃ t, exec (.twinDisarm src) s = .next t ∧ armed t = false ∧ RegsBut [0x6048] s t ∧ t = { s with regs := t.regs, access := t.access }) ∧
  (∀ (s : State) (src : Source), Admitted s src 0x6048 → role s = 1 →
    ∃ t, exec (.twinDisarm src) s = .next t ∧ settled t = settled s ∧ armed t = false ∧ claims t = false ∧ role t = 0) ∧
  (∀ (s : State) (l : List Bool), l.length = 50 → s.startup.railsUp = true → armed s = true → role s = 0 → claims s = false →
    l.any id = false →
    ∃ t, exec (.claimAssert l) s = .next t ∧ claims t = true ∧ role t = 1 ∧ t.twin.confirmed = false ∧ RegsBut [0x604C, 0x6010] s t ∧
      t = { s with regs := t.regs, out := s.out ++ [.pin "TWIN_CLAIM_OUT" 0 false] ++ vectors s .twin 0, twin := t.twin }) ∧
  (∀ (s : State) (l : List Bool), l.length = 50 →
    (s.startup.railsUp = false ∨ armed s = false ∨ role s ≠ 0 ∨ claims s = true ∨ l.any id = true) →
    ∃ t, exec (.claimAssert l) s = .next t ∧ claims t = claims s ∧ role t = role s ∧ RegsBut [0x604C] s t ∧ t = { s with regs := t.regs }) ∧
  (∀ (s : State) (l : List Bool) (mate : Bool), l.length = 25 → role s = 1 → claims s = true → s.twin.releaseAt = none →
    s.twin.conflicted = false → l.any id = false →
    ∃ t, exec (.claimConfirm l mate) s = .next t ∧ settled t = settled s ∧ t = confirmClaim (setFlag (showClaimIn s l) 0x604C 26 mate) ∧
      (s.twin.staged = [] → s.twin.finalApplied = false → role t = 2 ∧ flag t 0x604C 25 = true ∧ flag t 0x604C 26 = mate ∧
        t.twin = { s.twin with confirmed := true, conflicted := false, confirmedAt := now s, takeover := mate || flag s 0x6044 31 } ∧
        RegsBut [0x604C, 0x6010] s t ∧ t = { s with regs := t.regs, out := t.out, twin := t.twin })) ∧
  (∀ (s : State) (l : List Bool) (mate : Bool), l.length = 25 → role s = 1 → claims s = true → s.twin.releaseAt = none → l.any id = true →
    ∃ t, exec (.claimConfirm l mate) s = .next t ∧ settled t = settled s ∧
      t = claimConflict (setFlag (showClaimIn s l) 0x604C 26 mate)) ∧
  (∀ (s : State) (l : List Bool), l.length = 50 → claims s = true → s.twin.releaseAt = none → s.twin.conflicted = false →
    s.twin.confirmed = true → l.any id = false →
    ∃ t, exec (.egressAllowed l) s = .next t ∧ settled t = settled s ∧ t = fcFlushAll (setFlag (showClaimIn s l) 0x604C 25 true) ∧
      t.queues = s.queues ∧ t.frames = s.frames ∧ t.twin = s.twin ∧
      ((∀ p, p < 64 → portUp s p = false) → flag t 0x604C 25 = true ∧ RegsBut [0x604C] s t ∧ t = { s with regs := t.regs })) ∧
  (∀ (s : State) (l : List Bool), l.length = 50 → claims s = false →
    ∃ t, exec (.egressAllowed l) s = .next t ∧ flag t 0x604C 25 = flag s 0x604C 25 ∧ RegsBut [0x604C] s t ∧ t = { s with regs := t.regs })

/-- A conflict is counted, shows the mate present and stops front egress (CLAIM_CONFLICT): seat B withdraws and stays armed, seat A keeps
its claim, and a confirmed claim keeps its role (R261). TWIN_RELEASE stops the front transmitters first; 200 ns later CLAIM_RELEASE releases
the claim line and the device stands by (R264). A device that takes over becomes ACTIVE at once after a final delta, and otherwise at a
boundary 10 µs after its confirmation (TAKEOVER_ACTIVE, R268). -/
def Obligations.ClaimsAreContestedReleasedAndTakenOver : Prop :=
  (∀ s u : State, claims s = true → u = stopEgress (raise (tally (setFlag (setFlag s 0x604C 27 true) 0x604C 26 true) 0x6120) .twin 8) →
    (flag s 0x604C 24 = true → ∃ t, exec .claimConflict s = .next t ∧ settled t = settled s ∧ t = dropClaim u ∧ claims t = false ∧
      role t = 0 ∧
      t.twin.confirmed = false) ∧
    (flag s 0x604C 24 = false → s.twin.confirmed = true →
      ∃ t, exec .claimConflict s = .next t ∧ settled t = settled s ∧ t = u ∧ t.twin = s.twin) ∧
    (flag s 0x604C 24 = false → s.twin.confirmed = false →
      ∃ t, exec .claimConflict s = .next t ∧ settled t = settled s ∧ t = { u with twin := { u.twin with conflicted := true } } ∧
        t.twin = { s.twin with conflicted := true })) ∧
  (∀ s : State, claims s = true → flag s 0x604C 24 = false → s.twin.confirmed = true → FrontsIdle s →
    ∃ t, exec .claimConflict s = .next t ∧ flag t 0x604C 25 = false ∧ flag t 0x604C 26 = true ∧ flag t 0x604C 27 = true ∧ claims t = true ∧
      role t = role s ∧ flag t 0x6010 8 = true ∧ t.queues = s.queues ∧ t.frames = s.frames) ∧
  (∀ s : State, claims s = false → exec .claimConflict s = .next s) ∧
  (∀ (s u : State) (src : Source), Admitted s src 0x6048 → claims s = true → s.twin.releaseAt = none →
    u = stopEgress (setFlag (atRegister s src 0x6048) 0x6048 31 false) →
    ∃ t, exec (.twinRelease src) s = .next t ∧ settled t = settled s ∧
      t = { u with twin := { u.twin with releaseAt := some (now s + 200) } } ∧
      t.twin = { s.twin with releaseAt := some (now s + 200) } ∧
      (FrontsIdle s → armed t = false ∧ flag t 0x604C 25 = false ∧ claims t = true ∧ role t = role s ∧ RegsBut [0x6048, 0x604C] s t)) ∧
  (∀ (s : State) (src : Source), Admitted s src 0x6048 → claims s = false →
    ∃ t, exec (.twinRelease src) s = .next t ∧ armed t = false ∧ RegsBut [0x6048] s t ∧ t = { s with regs := t.regs, access := t.access }) ∧
  (∀ (s : State) (r : Nat), s.twin.releaseAt = some r → r ≤ now s →
    ∃ t, exec .claimRelease s = .next t ∧ settled t = settled s ∧ claims t = false ∧ role t = 0 ∧ t.twin.releaseAt = none ∧
      t.twin.confirmed = false) ∧
  (∀ s : State, s.twin.releaseAt = none → exec .claimRelease s = .next s) ∧
  (∀ s : State, role s = 2 → (s.twin.finalApplied = true ∨ s.twin.confirmedAt + 10000 ≤ s.clock.cycleStart) →
    ∃ t, exec .takeoverActive s = .next t ∧ settled t = settled s ∧ role t = 3 ∧ t.twin.staged = []) ∧
  (∀ s : State, role s = 2 → s.twin.finalApplied = false → s.clock.cycleStart < s.twin.confirmedAt + 10000 →
    exec .takeoverActive s = .next s)

/-- Kettle's bring-up (KETTLE_ENABLE, KETTLE_TRAINED, KETTLE_TRAINING_TIMEOUT, HELLO, KETTLE_UP, KETTLE_FAILED_RETRY) and its end
(KETTLE_DOWN, KETTLE_RECORD_BAD), by R273 and R271: enabled it trains, trained it says HELLO, a HELLO with a common version and the other
seat lets the session be set up, which takes it to UP with empty windows; a step that fails leaves it FAILED with the cause, and one second
later it trains again. HELLO goes out unsealed by any session. The words of HELLO are the model's layout (log 15). -/
def Obligations.KettleComesUp : Prop :=
  (∀ (s : State) (src : Source), Admitted s src 0x6044 → kettleState s = 0 → flag s 0x1040 27 = false →
    ∃ t, exec (.kettleEnable src) s = .next t ∧ flag t 0x6044 31 = true ∧ kettleState t = 1 ∧ t.kettle.since = now s ∧
      RegsBut [0x6044, 0x6050] s t ∧ t = { s with regs := t.regs, access := t.access, kettle := t.kettle }) ∧
  (∀ s : State, kettleState s = 1 →
    ∃ t, exec .kettleTrained s = .next t ∧ kettleState t = 2 ∧ RegsBut [0x6050] s t ∧
      t.out = s.out ++ [.kettle (2 ^ 28) (openRecord (2 ^ 28) (padded [fld s 0x604C 24 24, 2]))]) ∧
  (∀ s : State, kettleState s = 1 → s.kettle.since + 500000000 ≤ now s →
    ∃ t, exec .kettleTrainingTimeout s = .next t ∧ kettleState t = 4 ∧ fld t 0x6050 28 25 = 1 ∧ RegsBut [0x6050] s t ∧ t.out = s.out) ∧
  (∀ (s : State) (seatB : Bool) (v : Word32) (l : List Nat), kettleState s = 2 → v.getLsbD 1 = true → flag s 0x604C 24 = !seatB →
    ∃ t, exec (.hello seatB v l) s = .next t ∧ t.kettle.helloDone = true ∧ fld t 0x6050 7 0 = 1 ∧ kettleState t = 2 ∧
      RegsBut [0x6050] s t) ∧
  (∀ (s : State) (seatB : Bool) (v : Word32) (l : List Nat), kettleState s = 2 → v.getLsbD 1 = false →
    ∃ t, exec (.hello seatB v l) s = .next t ∧ kettleState t = 4 ∧ fld t 0x6050 28 25 = 2 ∧ RegsBut [0x6050] s t) ∧
  (∀ (s : State) (l : List Nat) (v : Word32) (seatB : Bool), kettleState s = 2 → v.getLsbD 1 = true → flag s 0x604C 24 = seatB →
    ∃ t, exec (.hello seatB v l) s = .next t ∧ kettleState t = 4 ∧ fld t 0x6050 28 25 = 4 ∧ RegsBut [0x6050] s t) ∧
  (∀ (s : State) (same : Bool), kettleState s = 2 → s.kettle.helloDone = true →
    ∃ t, exec (.kettleUp true true same) s = .next t ∧ t = kettleReachUp s same ∧ kettleState t = 3 ∧ flag t 0x6010 3 = true ∧
      t.kettle.session = true ∧ t.clock = s.clock ∧ t.queues = s.queues ∧ t.frames = s.frames) ∧
  (∀ s : State, kettleState s = 2 → s.kettle.helloDone = true → role s = 3 → channelFull s 11 = false →
    ∃ t, exec (.kettleUp true true true) s = .next t ∧ t.kettle.unacked = [] ∧ t.kettle.waiting = [] ∧ t.kettle.nextSeq = 0 ∧
      t.kettle.expected = 0 ∧ RegsBut [0x6050, 0x6010] s t ∧
      t = { s with regs := t.regs, kettle := t.kettle, out := t.out, freeCount := t.freeCount }) ∧
  (∀ (s : State) (chain owner same : Bool), kettleState s = 2 → s.kettle.helloDone = true → (chain && owner) = false →
    ∃ t, exec (.kettleUp chain owner same) s = .next t ∧ kettleState t = 4 ∧ fld t 0x6050 28 25 = 3 ∧ RegsBut [0x6050] s t) ∧
  (∀ s : State, kettleState s = 4 → kettleOn s = true → s.kettle.since + 1000000000 ≤ now s →
    ∃ t, exec .kettleFailedRetry s = .next t ∧ settled t = settled s ∧ kettleState t = 1 ∧ RegsBut [0x6050] s t) ∧
  (∀ s : State, (kettleState s = 1 ∨ kettleState s = 2) →
    ∃ t, exec .kettleDown s = .next t ∧ kettleState t = (if kettleOn s then 1 else 0) ∧ fld t 0x6050 7 0 = 0 ∧
      t.kettle = { since := now s } ∧ RegsBut [0x6050] s t ∧ t = { s with regs := t.regs, kettle := t.kettle, twin := t.twin }) ∧
  (∀ s : State, kettleState s = 3 →
    ∃ t, exec .kettleDown s = .next t ∧ t = kettleRestart s 0 ∧ kettleState t = (if kettleOn s then 1 else 0) ∧ flag t 0x6010 4 = true ∧
      t.kettle = { since := now s } ∧ t.twin.mateSynced = false ∧ t.twin.finalApplied = false ∧ t.queues = s.queues ∧ t.frames = s.frames) ∧
  (∀ s : State, (kettleState s = 0 ∨ kettleState s = 4) → exec .kettleDown s = .next s) ∧
  (∀ s : State, (kettleState s = 2 ∨ kettleState s = 3) →
    ∃ t, exec .kettleRecordBad s = .next t ∧ settled t = settled s ∧ t = report (count s 24 1) 0x0602 .twin [] ∧ t.kettle = s.kettle ∧
      t.twin = s.twin ∧ kettleState t = kettleState s)

/-- The windows of Kettle (R272, ACK and KETTLE_RETRANSMIT_TIMER): a record in order is acknowledged and acted upon, one after a gap is
answered with NAK and no more, an ACK frees the records it names, and ten microseconds without one send every unacknowledged record again.
Every record of the mate that arrives in order (HEARTBEAT, DELTA, END, MAILBOX_RECORD, HEALTH, BULK) is acted upon by its kind (R271, R274,
R279, R283, R285, R359). The words of ACK and BULK records, and that a delta is applied at its END, are the model's (logs 15, 38). -/
def Obligations.KettleDeliversRecordsInOrder : Prop :=
  (∀ (s : State) (act : State → State), kettleUp s = true →
    kettleAccept s s.kettle.expected act =
      act (sendAck { s with kettle := { s.kettle with expected := (s.kettle.expected + 1) % 2 ^ 23 } } false)) ∧
  (∀ (s : State) (seq : Nat) (act : State → State), seq ≠ s.kettle.expected →
    ∃ t, kettleAccept s seq act = t ∧ t.kettle.expected = s.kettle.expected ∧ t.regs = s.regs ∧ t.tabs = s.tabs ∧ t.twin = s.twin) ∧
  (∀ (s : State) (n : Nat), kettleUp s = true → s.kettle.waiting = [] →
    s.kettle.unacked.findIdx? (fun r => r.seq == n) = none →
    exec (.ack n false) s = .next s) ∧
  (∀ (s : State) (n k : Nat), kettleUp s = true → s.kettle.waiting = [] → (∀ r ∈ s.kettle.unacked, r.head / 2 ^ 24 ≠ 0x3F) →
    s.kettle.unacked.findIdx? (fun r => r.seq == n) = some k →
    ∃ t, exec (.ack n false) s = .next t ∧ t.kettle.unacked = s.kettle.unacked.drop (k + 1) ∧
      t = { s with kettle := { s.kettle with unacked := t.kettle.unacked } }) ∧
  (∀ (s : State) (r : KettleRecord) (rest : List KettleRecord), s.kettle.unacked = r :: rest → kettleUp s = true →
    r.sentAt + 10000 ≤ now s →
    (∀ x ∈ s.kettle.unacked, x.sends + 1 < 16) →
    ∃ t, exec .kettleRetransmitTimer s = .next t ∧
      t.kettle.unacked = s.kettle.unacked.map (fun x => { x with sends := x.sends + 1, sentAt := now s }) ∧
      t.out = s.out ++ s.kettle.unacked.map (fun x => .kettle (x.head + x.seq) x.words) ∧ t.regs = s.regs) ∧
  (∀ (s u : State) (seq : Nat) (ws : List Nat), ws.length = 12 → kettleUp s = true → seq = s.kettle.expected →
    u = sendAck { s with kettle := { s.kettle with expected := (seq + 1) % 2 ^ 23 } } false →
    (∀ a b, ∃ t, exec (.heartbeat seq ws a b) s = .next t ∧ settled t = settled s ∧ t = takeHeartbeat u ws (a, b) ∧
      t.kettle.expected = (seq + 1) % 2 ^ 23 ∧ t.twin.heard = true ∧ t.twin.heardAt = (a, b) ∧ fld t 0x604C 19 18 = 0 ∧
      RegsBut [0x604C, 0x6060, 0x6064] s t ∧ t = { s with regs := t.regs, kettle := t.kettle, twin := t.twin, out := t.out }) ∧
    (∀ cp sub, ∃ t, exec (.delta seq cp sub ws) s = .next t ∧ settled t = settled s ∧ t = takeDelta u cp sub ws ∧
      (standsBy s = false → sub ≠ 6 → sub ≠ 7 → t = u)) ∧
    (∀ cp, ∃ t, exec (.endRecord seq cp ws) s = .next t ∧ settled t = settled s ∧
      t = (if standsBy s then stageEnd u cp (nth ws 0) (bitAt (nth ws 1) 31) (nth ws 2) else u)) ∧
    (∀ sub, ∃ t, exec (.mailboxRecord seq sub ws) s = .next t ∧ t = takeMail u sub ws ∧ t.twin = s.twin ∧ t.clock = s.clock ∧
      (sub = 0 → t.kettle.mailHalf = ws ∧ t.kettle.expected = (seq + 1) % 2 ^ 23 ∧ t = { s with kettle := t.kettle, out := t.out })) ∧
    (∃ t, exec (.health seq ws) s = .next t ∧ settled t = settled s ∧ t = takeHealth u ws ∧
      t.twin.mateFailed = (bits (nth ws 6) 23 16 ≠ 0 || bits (nth ws 6) 15 13 ≠ 0) ∧ t.kettle.expected = (seq + 1) % 2 ^ 23 ∧
      (flag s 0x6040 28 = false → t = { s with kettle := t.kettle, twin := t.twin, out := t.out })) ∧
    (∀ sub, ∃ t, exec (.bulk seq sub ws) s = .next t ∧ settled t = settled s ∧ t = takeBulk u sub ws ∧
      (sub = 0 → t.twin = { s.twin with serve := true } ∧ t = { s with kettle := t.kettle, twin := t.twin, out := t.out })))

/-- MATE_RESET_PULSE_END, MATE_RESET_DISARM, CONFIG_DIGEST, RESYNC and SYNC_DONE. The mate's reset output goes high again when its 10 ms are
over, and disarming clears MATE_RESET_ARM (R275). Firmware's digest of the
configuration is shown and sent once per epoch (R281), and a resynchronisation asked for on a standby loses the present copy first
(R283); the copy is synced when every delta of the bulk is applied. -/
def Obligations.MateResetsDigestsAndResyncs : Prop :=
  (∀ (s : State) (r : Nat), s.twin.mateResetUntil = some r → r ≤ now s →
    ∃ t, exec .mateResetPulseEnd s = .next t ∧ t.twin.mateResetUntil = none ∧ t.pins.mateReset = false ∧
      t = { s with twin := t.twin, pins := t.pins, out := s.out ++ [.pin "TWIN_MATE_RESET_OUT_N" 0 true] }) ∧
  (∀ (s : State) (src : Source), Admitted s src 0x6048 →
    ∃ t, exec (.mateResetDisarm src) s = .next t ∧ flag t 0x6040 29 = false ∧ RegsBut [0x6040] s t ∧
      t = { s with regs := t.regs, access := t.access }) ∧
  (∀ s : State, s.twin.digestDue = true → s.firmware.running = true →
    ∃ t, exec .configDigest s = .next t ∧ settled t = settled s ∧ t.twin.digestDue = false ∧ t.twin.digestEpoch = currentEpoch s + 1) ∧
  (∀ s : State, (s.twin.digestDue = false ∨ s.firmware.running = false) → exec .configDigest s = .next s) ∧
  (∀ (s : State) (src : Source), Admitted s src 0x6048 → role s = 0 →
    ∃ t, exec (.resync src) s = .next t ∧ settled t = settled s ∧ t = loseSync (atRegister s src 0x6048) ∧ synced t = false ∧
      (kettleUp s = true → t.twin.bulk = .requested ∧ t.twin.staged = []) ∧
      (kettleUp s = false → RegsBut [0x604C] s t ∧ t = { s with regs := t.regs, access := t.access })) ∧
  (∀ (s : State) (src : Source), Admitted s src 0x6048 → role s ≠ 0 →
    ∃ t, exec (.resync src) s = .next t ∧ t.regs = s.regs ∧ t = { s with access := t.access }) ∧
  (∀ (s : State) (k : Nat), s.twin.bulk = .applying k →
    ∃ t, exec .syncDone s = .next t ∧ settled t = settled s ∧ synced t = true ∧ t.twin.bulk = .none ∧ flag t 0x6010 5 = true ∧
      t.queues = s.queues ∧ t.frames = s.frames) ∧
  (∀ s : State, (∀ k, s.twin.bulk ≠ .applying k) → exec .syncDone s = .next s)

/-- A graceful handover (R282: HANDOVER, HANDOVER_DRAIN_END, HANDOVER_RELEASE): refused with its reason unless the device is ACTIVE, Kettle
is UP, and the mate is armed, synced and healthy; accepted it drains, sends the final delta, stops the front transmitters and clears ARM,
and the claim line follows 200 ns later (R264), which ends the handover. -/
def Obligations.HandoversAreGraceful : Prop :=
  (∀ (s : State) (src : Source), Admitted s src 0x6048 → s.twin.handover = .none → role s = 3 → kettleUp s = true →
    s.twin.mateArm = true → s.twin.mateSynced = true → s.twin.mateFailed = false →
    ∃ t, exec (.handover src) s = .next t ∧ t.twin.handover = .accepted ∧ flag t 0x6048 28 = true ∧ RegsBut [0x6048] s t) ∧
  (∀ (s : State) (src : Source), Admitted s src 0x6048 → role s ≠ 3 →
    ∃ t, exec (.handover src) s = .next t ∧ t.twin = s.twin ∧ fld t 0x604C 22 20 = 2 ∧ flag t 0x6010 7 = true ∧
      RegsBut [0x604C, 0x6010] s t) ∧
  (∀ (s : State) (src : Source), Admitted s src 0x6048 → role s = 3 → kettleUp s = false →
    ∃ t, exec (.handover src) s = .next t ∧ t.twin = s.twin ∧ fld t 0x604C 22 20 = 3 ∧ flag t 0x6010 7 = true ∧
      RegsBut [0x604C, 0x6010] s t) ∧
  (∀ (s : State) (b : Nat), s.twin.handover = .draining b → b + drainNs s ≤ now s →
    ∃ t, exec .handoverDrainEnd s = .next t ∧ settled t = settled s ∧ t.twin.handover = .final b) ∧
  (∀ (s : State) (b : Nat), s.twin.handover = .draining b → now s < b + drainNs s → busyQueues s ≠ [] →
    exec .handoverDrainEnd s = .next s) ∧
  (∀ (s : State) (b : Nat), s.twin.handover = .final b → (endsAcked s = true ∨ b + 110000 ≤ now s) →
    ∃ t, exec .handoverRelease s = .next t ∧ settled t = settled s ∧ t.twin.handover = .releasing ∧
      (claims s = true → s.twin.releaseAt = none → t.twin.releaseAt = some (now s + 200)) ∧
      (FrontsIdle s → armed t = false ∧ claims t = claims s ∧ role t = role s ∧ fld t 0x604C 22 20 = (if endsAcked s then 1 else 6) ∧
        (claims s = true → flag t 0x604C 25 = false) ∧ RegsBut [0x6048, 0x604C] s t)) ∧
  (∀ (s : State) (r : Nat), s.twin.handover = .releasing → s.twin.releaseAt = some r → r ≤ now s →
    ∃ t, exec .claimRelease s = .next t ∧ t.twin.handover = .none ∧ flag t 0x6048 28 = false ∧ flag t 0x6010 7 = true ∧ role t = 0) ∧
  (∀ (s : State) (b : Nat), s.twin.handover = .final b → endsAcked s = false → now s < b + 110000 → exec .handoverRelease s = .next s)

/-- The self-tests of a standby (R286: SELFTEST_FRAME, SELFTEST_SPILL, SELFTEST_EYE, SELFTEST_SCRUB): a synthetic frame, one per slice every
INTERVAL, counts as passed only with right content, in sequence and under 10 µs; a reserved sheet is written and read every 64 cycles; what
fails shows its bit. A device that runs none shows nothing. -/
def Obligations.SelfTestsShowWhatFails : Prop :=
  (∀ (s : State) (i : Fin 8) (ns : Nat), selftests s = true → nth s.twin.frameDue i ≤ s.twin.boundaries → ns < 10000 →
    ∃ t, exec (.selftestFrame i true true ns) s = .next t ∧ settled t = settled s ∧ bitAt t.twin.passed i = true ∧ t.regs = s.regs ∧
      (s.twin.frameDue.length = 8 → nth t.twin.frameDue i = s.twin.boundaries + max 1 (fld s 0x6054 31 24))) ∧
  (∀ (s : State) (i : Fin 8) (content sequence : Bool) (ns : Nat), selftests s = true → nth s.twin.frameDue i ≤ s.twin.boundaries →
    (content = false ∨ sequence = false ∨ 10000 ≤ ns) →
    ∃ t, exec (.selftestFrame i content sequence ns) s = .next t ∧ settled t = settled s ∧ bitAt t.twin.passed i = false ∧
      flag t 0x6058 (24 + i) = true) ∧
  (∀ (s : State) (i : Fin 8) (content sequence : Bool) (ns : Nat), (selftests s = false ∨ s.twin.boundaries < nth s.twin.frameDue i) →
    exec (.selftestFrame i content sequence ns) s = .next s) ∧
  (∀ (s : State) (c : Fin 4), selftests s = true → cxlState s c = 3 → nth s.twin.spillDue c ≤ s.twin.boundaries →
    ∃ t, exec (.selftestSpill c false) s = .next t ∧ settled t = settled s ∧ t = selftestFail (spillTest s c) 23 ∧ flag t 0x6058 23 = true ∧
      t.spill = s.spill) ∧
  (∀ (s : State) (c : Fin 4) (a : Nat), selftests s = true → cxlState s c = 3 → nth s.twin.spillDue c ≤ s.twin.boundaries →
    s.firmware.reserved.find? (fun e => e.1 == c.val) = some (c.val, a) →
    ∃ t, exec (.selftestSpill c true) s = .next t ∧ t = { s with twin := t.twin, out := t.out } ∧
      t.out = s.out ++ [.cxl c [1, c * 2 ^ 38 + a * 4096, 4096]] ++ [.cxl c [0, c * 2 ^ 38 + a * 4096, 4096]]) ∧
  (∀ (s : State) (l : List Nat), l.length = 66 → coreRuns s = true → eyeFails (showEyes s l) = false →
    ∃ t, exec (.selftestEye l) s = .next t ∧ settled t = settled s ∧ t = showEyes s l ∧ t = { s with regs := t.regs, twin := t.twin }) ∧
  (∀ (s : State) (l : List Nat), l.length = 66 → selftests s = true → eyeFails (showEyes s l) = true →
    ∃ t, exec (.selftestEye l) s = .next t ∧ settled t = settled s ∧ t = selftestFail (showEyes s l) 21 ∧ flag t 0x6058 21 = true ∧
      t.queues = s.queues) ∧
  (∀ (s : State) (n : Nat), selftests s = true →
    ∃ t, exec (.selftestScrub n false) s = .next t ∧ settled t = settled s ∧
      t.twin = { s.twin with scrubCorrections := s.twin.scrubCorrections + n } ∧ t.queues = s.queues ∧ t.frames = s.frames) ∧
  (∀ s : State, selftests s = true →
    ∃ t, exec (.selftestScrub 0 true) s = .next t ∧ flag t 0x6058 22 = true ∧ flag t 0x6010 6 = true ∧ t.twin = s.twin) ∧
  (∀ s : State, flag (selftestFail s 22) 0x6058 22 = true ∧ flag (selftestFail s 21) 0x6058 21 = true ∧
    flag (selftestFail s 23) 0x6058 23 = true)

/-! ### Clocks, sleep and power -/

/-- The watchdog (R288, R445: WD_KICK, WD_CONFIG_WRITE, WATCHDOG_EXPIRED, DELAYED_WARM_RESET): the kick 0xC0DE restarts the count and
nothing else does; an expired watchdog is not kicked back to life; an expiry acts once, and an unexpired one waits. A warm reset asked for
with a delay, by a fatal error or a change of life cycle, begins at its time and no earlier (R420, R398). -/
def Obligations.WatchdogsAndDelayedResetsWait : Prop :=
  (∀ (s : State) (src : Source), Admitted s src 0x2048 → s.power.expired = false → flag s 0x2044 31 = true →
    ∃ t, exec (.wdKick src 0xC0DE) s = .next t ∧ t.power = { s.power with watchdog := some (now s + max 1 (fld s 0x2044 15 0) * 1000000) } ∧
      t = { s with power := t.power, access := t.access }) ∧
  (∀ (s : State) (src : Source) (v : Word32), Admitted s src 0x2048 → v ≠ 0xC0DE →
    ∃ t, exec (.wdKick src v) s = .next t ∧ t = { s with access := t.access }) ∧
  (∀ (s : State) (src : Source), Admitted s src 0x2048 → s.power.expired = true →
    ∃ t, exec (.wdKick src 0xC0DE) s = .next t ∧ t = { s with access := t.access }) ∧
  (∀ (s : State) (src : Source) (v : Word32), Admitted s src 0x2044 → flag s 0x2028 0 = false → s.power.expired = false →
    flag s 0x2044 31 = false → v.getLsbD 31 = true →
    ∃ t, exec (.wdConfigWrite src v) s = .next t ∧ flag t 0x2044 31 = true ∧ fld t 0x2044 15 0 = v.toNat % 2 ^ 16 ∧
      t.power.watchdog = some (now s + max 1 (v.toNat % 2 ^ 16) * 1000000)) ∧
  (∀ (s : State) (r : Nat), s.power.watchdog = some r → r ≤ now s →
    ∃ t, exec .watchdogExpired s = .next t ∧ t = watchdogExpires s ∧ t.power.expired = true ∧ t.power.watchdog = none ∧
      t.power.watchdogLeft = 0 ∧ flag t 0x204C 31 = true ∧ flag t 0x2094 30 = true ∧ flag t 0x2010 0 = true ∧ t.clock = s.clock ∧
      (flag s 0x2044 30 = true → t.power.hold = true) ∧
      (flag s 0x2044 30 = false → t.errors.resetAt = some (t.twin.releaseAt.getD (now s) + 1000000, 5))) ∧
  (∀ s : State, s.power.watchdog = none → exec .watchdogExpired s = .next s) ∧
  (∀ (s : State) (r : Nat), s.power.watchdog = some r → now s < r → exec .watchdogExpired s = .next s) ∧
  (∀ (s : State) (r c : Nat), s.errors.resetAt = some (r, c) → r ≤ now s →
    ∃ t, exec .delayedWarmReset s = .next t ∧ t = beginReset { s with errors := { s.errors with resetAt := none } } c ∧
      t.errors.resetAt = none ∧
      (s.power.inStandby = false → coreRuns s = true → c < 2 ^ 32 → t.startup.resetting = true ∧ rd t 0x2090 = c ∧ t.queues = [] ∧
        t.frames = [] ∧ t.tabs = [] ∧ t.clock = { s.clock with coreTenths := 0 })) ∧
  (∀ (s : State) (r c : Nat), s.errors.resetAt = some (r, c) → now s < r → exec .delayedWarmReset s = .next s) ∧
  (∀ s : State, s.errors.resetAt = none → exec .delayedWarmReset s = .next s)

/-- SLICE_SLEEP_ENTRY, SLICE_DEEP_SLEEP, SLICE_WAKE_TRIGGER and SLICE_AWAKE. A slice sleeps after its idle time, goes deeper after its time
in light sleep, wakes by its triggers, counts them, and runs with its wake FIFO drained (R289 to R292). -/
def Obligations.SlicesSleepAndWake : Prop :=
  (∀ (s : State) (i : Fin 8), sleepDepth s ≠ 0 → awake s i = true → sliceIdleSince s i + sleepIdleNs s ≤ now s → sliceQuiet s i = true →
    ∃ t, exec (.sliceSleepEntry i) s = .next t ∧ (sliceAt t i).sleep = .light ∧ (sliceAt t i).asleepSince = now s ∧
      flag t 0x3058 i = false ∧ flag t 0x3058 (8 + i) = true ∧ RegsBut [0x3058] s t ∧ t = { s with regs := t.regs, slices := t.slices }) ∧
  (∀ (s : State) (i : Fin 8), sleepDepth s = 2 → (sliceAt s i).sleep = .light →
    (sliceAt s i).asleepSince + fld s 0x304C 31 16 * 1000 ≤ now s →
    ∃ t, exec (.sliceDeepSleep i) s = .next t ∧ (sliceAt t i).sleep = .deep ∧ flag t 0x3058 (16 + i) = true ∧ RegsBut [0x3058] s t ∧
      t = { s with regs := t.regs, slices := t.slices }) ∧
  (∀ (s : State) (i : Fin 8), (sliceAt s i).sleep = .light →
    ∃ t, exec (.sliceWakeTrigger i) s = .next t ∧ (sliceAt t i).sleep = .waking false ∧ t.regs = s.regs ∧
      t = { s with slices := t.slices, counters := t.counters }) ∧
  (∀ (s : State) (i : Fin 8), (sliceAt s i).sleep = .deep →
    ∃ t, exec (.sliceWakeTrigger i) s = .next t ∧ (sliceAt t i).sleep = .waking true ∧ t.regs = s.regs ∧
      t = { s with slices := t.slices, counters := t.counters }) ∧
  (∀ (s : State) (i : Fin 8) (deep : Bool), (sliceAt s i).sleep = .waking deep → (sliceAt s i).wakeFifo = [] →
    ∃ t, exec (.sliceAwake i) s = .next t ∧ (sliceAt t i).sleep = .awake ∧ (sliceAt t i).idleSince = now s ∧ flag t 0x3058 i = true ∧
      flag t 0x3058 (8 + i) = false ∧ flag t 0x3058 (16 + i) = false ∧ RegsBut [0x3058] s t) ∧
  (∀ (s : State) (i : Fin 8) (deep : Bool), (sliceAt s i).sleep = .waking deep → s.power.stallUntil.isSome = true →
    ∃ t, exec (.sliceAwake i) s = .next t ∧ settled t = settled s ∧ (sliceAt t i).sleep = .awake ∧
      (sliceAt t i).wakeFifo = (sliceAt s i).wakeFifo ∧ t.frames = s.frames ∧ RegsBut [0x3058] s t) ∧
  (∀ (s : State) (i : Fin 8), ∃ t, exec (.sliceAwake i) s = .next t ∧ settled t = settled s ∧
    ((sliceAt s i).sleep = .awake → t = s))

/-- GOV_RELAX, FAST_ESTIMATE, PMBUS_ALERT, VOLTAGE_CONFIRMED, PMBUS_ERROR, AGING_MONITOR_READ and ESTIMATE_CALIBRATION. The governor relaxes
one step once the estimate has stayed below the margin for RELAX_MS, and not under a thermal warning (R295). The emergency cap (R297): an
estimate above HARD_CAP or an asserted PMBUS_ALERT_N caps the clock at 0.8 GHz at once. The voltage of a higher clock (R298, R444): a
confirmation makes it the supported one, 2 ms without one raise PMBUS_ERROR, and an uplift called for by the aging monitors is kept. -/
def Obligations.PowerIsGoverned : Prop :=
  (∀ (s : State) (g : GovStep) (l : List GovStep), s.power.steps = g :: l → thermalWarn s = false →
    s.power.relaxSince + max 1 (fld s 0x3044 7 0) * 1000000 ≤ now s →
    ∃ t, exec .govRelax s = .next t ∧ t = undoStep (setPower s { s.power with relaxSince := now s }) ∧ t.clock = s.clock ∧
      (g.step ≠ 4 → t.power.steps = l ∧ t.power.relaxSince = now s ∧ flag t 0x3010 0 = true ∧ fld t 0x3050 28 26 = topStep t % 8 ∧
        t = { s with regs := t.regs, power := t.power, out := t.out, counters := t.counters, errors := t.errors })) ∧
  (∀ s : State, (s.power.steps = [] ∨ thermalWarn s = true) → exec .govRelax s = .next s) ∧
  (∀ (s : State) (n : Nat), s.startup.aonUp = true → s.power.alert = false → calibrated s n ≤ hardCap s →
    ∃ t, exec (.fastEstimate n) s = .next t ∧ fld t 0x3054 15 0 = calibrated s n ∧ RegsBut [0x3054] s t ∧ t = { s with regs := t.regs }) ∧
  (∀ (s : State) (n : Nat), s.startup.aonUp = true → coreRuns s = true → (hardCap s < calibrated s n ∨ s.power.alert = true) →
    emergency s = false →
    ∃ t, exec (.fastEstimate n) s = .next t ∧ fld t 0x3054 15 0 = calibrated s n ∧ emergency t = true ∧ 2 ≤ runClock t ∧ t.power.calm = 0) ∧
  (∀ s : State, s.startup.aonUp = true → coreRuns s = true → emergency s = false →
    ∃ t, exec (.pmbusAlert true) s = .next t ∧ emergency t = true ∧ 2 ≤ runClock t ∧ t.power.alert = true) ∧
  (∀ s : State, s.startup.aonUp = true →
    ∃ t, exec (.pmbusAlert false) s = .next t ∧ t = { s with power := { s.power with alert := false } }) ∧
  (∀ (s : State) (n : Nat) (b : Bool), s.startup.aonUp = false → exec (.fastEstimate n) s = .next s ∧ exec (.pmbusAlert b) s = .next s) ∧
  (∀ s : State, s.power.voltageAt.isSome = true →
    ∃ t, exec .voltageConfirmed s = .next t ∧ t = { s with power := { s.power with supported := s.power.target, voltageAt := none } }) ∧
  (∀ s : State, s.power.voltageAt = none → exec .voltageConfirmed s = .next s) ∧
  (∀ (s : State) (r : Nat), s.power.voltageAt = some r → r + 2000000 ≤ now s →
    ∃ t, exec .pmbusError s = .next t ∧ t.power = { s.power with voltageAt := none, failed := true } ∧ flag t 0x3010 2 = true) ∧
  (∀ (s : State) (r : Nat), s.power.voltageAt = some r → now s < r + 2000000 → exec .pmbusError s = .next s) ∧
  (∀ (s : State) (n : Nat), s.startup.aonUp = true → ∃ t, exec (.agingMonitorRead n) s = .next t ∧
    t.power.uplift = max s.power.uplift (min 8 n) ∧
    t.power.agingWanted = (s.power.agingWanted || decide (8 < n)) ∧ RegsBut [0x3050] s t) ∧
  (∀ (s : State) (a b : Nat), s.firmware.running = true →
    ∃ t, exec (.estimateCalibration a b) s = .next t ∧
      t = { s with power := { s.power with correction := Config.calibration a b s.power.lastRaw } })

/-- AO_CONTROL (STANDBY, WAKE, QUIET, RESET_REQ). Deep standby (R299): it is refused to an ACTIVE device of a pair whose mate holds no copy,
it leaves the watchdog counting (R287), and a WAKE brings the core's power back and names its cause. QUIET holds the front transmitters idle
while it is 1 (R302), and RESET_REQ begins a warm reset of cause 4 (R410). -/
def Obligations.AlwaysOnRequestsAct : Prop :=
  (∀ (s : State) (src : Source), Admitted s src 0x2040 → s.power.inStandby = false → standbyRefused s = true →
    ∃ t, exec (.standby src) s = .next t ∧ t = { s with access := t.access }) ∧
  (∀ (s : State) (src : Source), Admitted s src 0x2040 → s.power.inStandby = false → standbyRefused s = false →
    ∃ t, exec (.standby src) s = .next t ∧ t = enterStandby (atRegister s src 0x2040) ∧ t.power.inStandby = true ∧
      t.pins.corePower = false ∧ t.startup.railsUp = false ∧ t.power.watchdog = s.power.watchdog ∧ t.power.steps = [] ∧ t.frames = [] ∧
      t.queues = [] ∧ t.tabs = [] ∧ t.clock = { s.clock with coreTenths := 0 } ∧ t.colophon.lifecycle = s.colophon.lifecycle) ∧
  (∀ (s : State) (src : Source), Admitted s src 0x2040 → s.power.inStandby = true →
    ∃ t, exec (.wake src) s = .next t ∧ t.power.inStandby = false ∧ t.pins.corePower = true ∧ rd t 0x2090 = 9 ∧
      t.clock = s.clock) ∧
  (∀ (s : State) (src : Source), Admitted s src 0x2040 → s.power.inStandby = false →
    ∃ t, exec (.wake src) s = .next t ∧ t = { s with access := t.access }) ∧
  (∀ (s : State) (src : Source), Admitted s src 0x2040 →
    ∃ t, exec (.quiet src true) s = .next t ∧ settled t = settled s ∧ t = idleFronts (setFlag (atRegister s src 0x2040) 0x2040 30 true) ∧
      (FrontsIdle s → flag t 0x2040 30 = true ∧ RegsBut [0x2040] s t ∧ t = { s with regs := t.regs, access := t.access })) ∧
  (∀ (s : State) (src : Source), Admitted s src 0x2040 →
    ∃ t, exec (.quiet src false) s = .next t ∧ settled t = settled s ∧ t.queues = s.queues ∧ t.frames = s.frames ∧
      ((∀ p, p < 64 → portUp s p = false) →
        flag t 0x2040 30 = false ∧ RegsBut [0x2040] s t ∧ t = { s with regs := t.regs, access := t.access })) ∧
  (∀ (s : State) (src : Source), Admitted s src 0x2040 → s.power.inStandby = false → coreRuns s = true →
    ∃ t, exec (.resetReq src) s = .next t ∧ t.startup.resetting = true ∧ rd t 0x2090 = 4 ∧ t.startup.recovery = false ∧
      t.clock = { s.clock with coreTenths := 0 } ∧ t.tabs = [] ∧ t.queues = [] ∧ t.frames = []) ∧
  (∀ (s : State) (src : Source), Admitted s src 0x2040 → s.power.inStandby = false → coreRuns s = false →
    ∃ t, exec (.resetReq src) s = .next t ∧ t = { s with access := t.access })

/-- Temperatures (R300: THERMAL_SAMPLE, THERMAL_AUTO_RESTART): every sample is shown, 110 °C warns until every sensor is below 105 °C, and
two samples of 120 °C trip; a tripped device restarts after one second below 95 °C if it may. That one and the same sensor reads 120 °C
twice is the model's reading (log 18). -/
def Obligations.TemperaturesWarnAndTrip : Prop :=
  (∀ (s : State) (l : List Byte), l.length = 16 → s.startup.aonUp = true → (∀ b ∈ l, b.toInt < 95) → flag s 0x2054 30 = false →
    ∃ t, exec (.thermalSample l) s = .next t ∧ (∀ n, n < 4 → rd t (0x2058 + 4 * n) = leNat (slice l (4 * n) 4)) ∧
      flag t 0x2054 30 = false ∧ t.power.hot = 0 ∧ RegsBut [0x2054, 0x2058, 0x205C, 0x2060, 0x2064] s t) ∧
  (∀ (s : State) (l : List Byte), l.length = 16 → s.startup.aonUp = true → (∃ b ∈ l, 110 ≤ b.toInt) → (∀ b ∈ l, b.toInt < 120) →
    flag s 0x2054 30 = false →
    ∃ t, exec (.thermalSample l) s = .next t ∧ flag t 0x2054 30 = true ∧ flag t 0x2010 1 = true ∧ t.power.hot = 0) ∧
  (∀ (s : State) (l : List Byte) (k : Nat), l.length = 16 → s.startup.aonUp = true → k < 16 → 120 ≤ (l.getD k 0).toInt →
    bitAt s.power.hot k = true →
    s.power.inStandby = false →
    ∃ t, exec (.thermalSample l) s = .next t ∧ t.power.tripped = true ∧ t.power.inStandby = true) ∧
  (∀ s : State, s.power.tripped = true → s.power.inStandby = true → flag s 0x2050 31 = true → s.power.coolSince ≠ 0 →
    s.power.coolSince + 1000000000 ≤ now s + 1 →
    ∃ t, exec .thermalAutoRestart s = .next t ∧ t.power.inStandby = false ∧ t.power.tripped = false ∧ rd t 0x2090 = 0xA) ∧
  (∀ s : State, flag s 0x2050 31 = false → exec .thermalAutoRestart s = .next s) ∧
  (∀ (s : State) (l : List Byte), l.length = 16 → s.startup.aonUp = false → exec (.thermalSample l) s = .next s)

/-! ### Counters, mirroring and tracing -/

/-- Counters (R303, R304, R311 to R315: SNAPSHOT, DUMP_COUNTER_READ, DUMP_DONE, COUNTER_SATURATED): a snapshot holds every counter and the
time, the dump engine reads one frozen counter every four core clocks and ends with its END record, and a narrow counter that reaches 0xFFFF
shows SATURATED. A second event never takes a narrow counter past 0xFFFF, and an event below that adds one (R303, R304). -/
def Obligations.CountersAreHeldDumpedAndStopped : Prop :=
  (∀ (s : State) (src : Source), Admitted s src 0xD040 →
    ∃ t, exec (.snapshot src) s = .next t ∧ rd t 0xD048 = cycleNo s ∧ rd t 0xD04C = devSub s ∧ rd t 0xD050 = devSec s ∧
      flag t 0xD010 6 = true ∧ RegsBut [0xD048, 0xD04C, 0xD050, 0xD010] s t ∧
      (∀ i, i < 3965 → sget zeroNat t.counters.holdWide i = counter s i)) ∧
  (∀ (s : State) (d : Dump), s.counters.dump = some d → s.clock.coreTenths < d.due → exec .dumpCounterRead s = .next s) ∧
  (∀ (s : State) (d : Dump) (i : Nat), s.counters.dump = some d → d.due ≤ s.clock.coreTenths → nextCovered s d.sets 5000 d.next = some i →
    d.gathered = [] →
    ∃ t, exec .dumpCounterRead s = .next t ∧ sget zeroNat t.counters.delta i = 0 ∧ sget zeroNat t.counters.wide i = counter s i ∧
      t.counters.dump = some { d with next := i + 1, gathered := [(i, sget zeroNat s.counters.wide i)], due := d.due + 40 } ∧
      fld t 0xD058 18 0 = (i + 1) % 2 ^ 19 ∧ flag t 0xD058 31 = true ∧ RegsBut [0xD058] s t) ∧
  (∀ (s : State) (d : Dump) (i j v : Nat), s.counters.dump = some d → d.due ≤ s.clock.coreTenths →
    nextCovered s d.sets 5000 d.next = some i → d.gathered.getLast? = some (j, v) → (sameRecord j i = false ∨ 6 ≤ d.gathered.length) →
    ∃ t, exec .dumpCounterRead s = .next t ∧ settled t = settled s ∧ t.frames = s.frames ∧ t.queues = s.queues ∧
      t.counters.dump = some { d with
        next := i + 1, gathered := [(i, sget zeroNat s.counters.wide i)], records := d.records + 1,
        lost := d.lost + bit (!eventRoom s 3 64), due := d.due + 40 }) ∧
  (∀ (s : State) (d : Dump), s.counters.dump = some d → nextCovered s d.sets 5000 d.next = none →
    ∃ t, exec .dumpDone s = .next t ∧ t.counters.dump = none ∧ flag t 0xD058 31 = false ∧ flag t 0xD010 0 = true ∧
      t.counters.sequence = (s.counters.sequence + 1) % 2 ^ 32) ∧
  (∀ (s : State) (a : Nat), fieldsAt a = some [ro 31 31, cntF 15 0] → flag s a 31 = false →
    ∃ t, exec (.counterSaturated a) s = .next t ∧ settled t = settled s ∧ fld t a 15 0 = 0xFFFF ∧ flag t a 31 = true ∧
      flag t 0xD010 4 = true) ∧
  (∀ (s : State) (a : Nat), fieldsAt a ≠ some [ro 31 31, cntF 15 0] → exec (.counterSaturated a) s = .next s) ∧
  (∀ (s : State) (a n : Nat), a ≠ 0xD010 → fld (narrowAdd s a n) a 15 0 = min 0xFFFF (fld s a 15 0 + n) ∧
    (fld s a 15 0 + n < 0xFFFF → flag (narrowAdd s a n) a 31 = flag s a 31) ∧
    (0xFFFF ≤ fld s a 15 0 + n → flag (narrowAdd s a n) a 31 = true))

/-- PF1_READ reads only what its mask allows (R317, R429): a denied read returns 0 and is reported, an allowed one of the counter aperture
returns the counter's word and latches its other half. Capture and trace records leave in their order (CAPTURE_RECORD, TRACE_RECORD), to
their ring in host memory when it has room, or to their ring in spill memory while it is open, and are counted lost otherwise (R324, R327,
R328). -/
def Obligations.ObserversSeeWhatTheyMay : Prop :=
  (∀ (s : State) (o : Nat), pf1Allowed s (o / 4096) = false →
    ∃ t, exec (.pf1Read o) s = .next t ∧ t.out.getLast? = some (.value .pf1 o 0) ∧ flag t 0xD010 5 = true ∧ t.tabs = s.tabs) ∧
  (∀ (s : State) (o : Nat), o < 2 ^ 20 → 0x80000 ≤ o → o % 8 = 0 → pf1Allowed s (o / 4096) = true →
    ∃ t, exec (.pf1Read o) s = .next t ∧ t.regs = s.regs ∧
      t.out = s.out ++ [.value .pf1 o (counter s (65536 * fld s 0xD064 2 0 + (o - 0x80000) / 8) % 2 ^ 32)] ∧
      latched t .pf1 (o + 4) = counter s (65536 * fld s 0xD064 2 0 + (o - 0x80000) / 8) / 2 ^ 32 + 1) ∧
  (∀ (s : State) (r : List Byte) (rest : List (List Byte)), s.captures = r :: rest → flag s 0xE440 31 = false →
    eventRoom s 1 r.length = true →
    ∃ t, exec .captureRecord s = .next t ∧ settled t = settled s ∧ t = eventWrite (count { s with captures := rest } 576 1) 1 (wordsOf r) ∧
      t.captures = rest ∧ t.out.take (s.out.length + 1) = s.out ++ [.record 1 (wordsOf r)] ∧ t.traces = s.traces ∧ t.tabs = s.tabs) ∧
  (∀ (s : State) (r : List Byte) (rest : List (List Byte)), s.captures = r :: rest → flag s 0xE440 31 = false →
    eventRoom s 1 r.length = false →
    ∃ t, exec .captureRecord s = .next t ∧ settled t = settled s ∧ t.captures = rest ∧ flag t (Page.mirror.at_ 0x10) 0 = true ∧
      RegsBut [Page.mirror.at_ 0x10] s t ∧ t = { s with regs := t.regs, captures := rest, counters := t.counters, out := t.out }) ∧
  (∀ (s : State) (r : List Byte) (rest : List (List Byte)), s.captures = r :: rest → flag s 0xE440 31 = true →
    spillRingOpen s (flag s 0xE440 30) (fld s 0xE440 27 26) (fld s 0xE444 25 0 * 4096) = true →
    ∃ t, exec .captureRecord s = .next t ∧ settled t = settled s ∧ t.captures = rest ∧
      rd t 0xE448 = (rd s 0xE448 + r.length) % (fld s 0xE444 25 0 * 4096) % 2 ^ 32 ∧ RegsBut [0xE448] s t ∧ t.queues = s.queues) ∧
  (∀ (s : State) (r : List Nat) (rest : List (List Nat)), s.traces = r :: rest → flag s 0xF040 30 = false → eventRoom s 2 64 = true →
    ∃ t, exec .traceRecord s = .next t ∧ settled t = settled s ∧ t = eventWrite (count { s with traces := rest } 578 1) 2 r ∧
      t.traces = rest ∧ t.out.take (s.out.length + 1) = s.out ++ [.record 2 r] ∧ t.captures = s.captures ∧ t.tabs = s.tabs) ∧
  (∀ (s : State) (r : List Nat) (rest : List (List Nat)), s.traces = r :: rest → flag s 0xF040 30 = false → eventRoom s 2 64 = false →
    ∃ t, exec .traceRecord s = .next t ∧ settled t = settled s ∧ t.traces = rest ∧ flag t (Page.tracer.at_ 0x10) 0 = true ∧
      RegsBut [Page.tracer.at_ 0x10] s t ∧ t = { s with regs := t.regs, traces := rest, counters := t.counters, out := t.out }) ∧
  (∀ (s : State) (r : List Nat) (rest : List (List Nat)), s.traces = r :: rest → flag s 0xF040 30 = true →
    spillRingOpen s (flag s 0xF040 29) (fld s 0xF040 21 20) (fld s 0xF048 25 0 * 4096) = true →
    ∃ t, exec .traceRecord s = .next t ∧ settled t = settled s ∧ t.traces = rest ∧
      rd t 0xF04C = (rd s 0xF04C + 64) % (fld s 0xF048 25 0 * 4096) % 2 ^ 32 ∧ RegsBut [0xF04C] s t ∧ t.queues = s.queues) ∧
  (∀ s : State, s.captures = [] → exec .captureRecord s = .next s) ∧
  (∀ s : State, s.traces = [] → exec .traceRecord s = .next s)

/-! ### The host interface -/

/-- The endpoint (R331, R332): PERST_N takes the link down and resets the rings, its release brings the link up in D0, and a hot reset or an
FLR of PF0 resets the rings over a link that stays. While the link is down no doorbell acts. An FLR of PF1 changes nothing that the state
holds. A doorbell moves the TAIL of a transmit, receive or command ring and the HEAD of an event ring; a value outside the ring is counted
and changes neither (R336, R342). A ring starts empty, stops when disabled, and comes to rest with its work returned (R336, R343); its
vector follows once its moderation time has passed (R335). A QSPI_ACCESS request starts, or is refused when a program or an erase touches
the booted slot, and QSPI_DONE ends it (R349); an edge on an input pin shows in GPIO_IN and, when enabled, as an event (R348). That an FLR
of PF1 changes nothing is the model's choice (log 19), and that a request under way is not disturbed and a pin at its level changes nothing
are readings (log 6). -/
def Obligations.EndpointAndRings : Prop :=
  (∀ s : State, s.host.inReset = false →
    ∃ t, exec (.perstN true) s = .next t ∧ t.host.inReset = true ∧ t.host.linkUp = false ∧ t.host.busMaster = false ∧
      t.host.rings = [] ∧ t.host.completions = [] ∧ t.clock = s.clock) ∧
  (∀ s : State, s.host.inReset = true → exec (.perstN true) s = .next s) ∧
  (∀ s : State, s.host.inReset = true →
    ∃ t, exec (.perstN false) s = .next t ∧ t.host.inReset = false ∧ t.host.linkUp = endpointAnswers s ∧
      t.host.d0 = endpointAnswers s ∧ t.host.rings = s.host.rings ∧ t.clock = s.clock ∧ t.queues = s.queues) ∧
  (∀ s : State, s.host.inReset = false → exec (.perstN false) s = .next s) ∧
  (∀ s : State, s.host.inReset = false →
    ∃ t, exec .hotReset s = .next t ∧ exec .flrPf0 s = .next t ∧ t.host.busMaster = false ∧ t.host.linkUp = s.host.linkUp ∧
      t.host.rings = [] ∧ t.host.completions = []) ∧
  (∀ s : State, ∃ t, exec .flrPf1 s = .next t ∧ t = s) ∧
  (∀ (s : State) (r : Fin 256) (v : Word32), r.val < 136 → s.host.linkUp = true → heldInReset s (.dma 0) = false →
    ringSize s r ≤ v.toNat →
    ∃ t, exec (.doorbell r v) s = .next t ∧ rd t (ringBase r + 0x10) = rd s (ringBase r + 0x10) ∧
      rd t (ringBase r + 0xC) = rd s (ringBase r + 0xC) ∧ flag t 0x9010 1 = true) ∧
  (∀ (s : State) (r : Fin 256) (v : Word32), r.val < 136 → s.host.linkUp = true → heldInReset s (.dma 0) = false →
    v.toNat < ringSize s r → (r.val < 128 ∨ r.val = 135) →
    ∃ t, exec (.doorbell r v) s = .next t ∧ ringTail t r = v.toNat ∧ RegsBut [ringBase r + 0x10] s t ∧ t.out = s.out) ∧
  (∀ (s : State) (r : Fin 256) (v : Word32), s.host.linkUp = true → heldInReset s (.dma 0) = false →
    v.toNat < ringSize s r → 128 ≤ r.val → r.val < 135 →
    ∃ t, exec (.doorbell r v) s = .next t ∧ ringHead t r = v.toNat ∧ RegsBut [ringBase r + 0xC] s t ∧ t.out = s.out) ∧
  (∀ (s : State) (r : Fin 256) (v : Word32), (136 ≤ r.val ∨ s.host.linkUp = false) → exec (.doorbell r v) s = .next s) ∧
  (∀ (s : State) (src : Source) (r : Fin 136), Admitted s src (ringBase r + 8) → ringOn s r = false → ringIsIdle s r = true →
    ∃ t, exec (.ringEnable src r) s = .next t ∧ ringOn t r = true ∧ ringIsIdle t r = false ∧ ringHead t r = 0 ∧ ringTail t r = 0 ∧
      RegsBut [ringBase r + 8, ringBase r + 0xC, ringBase r + 0x10] s t ∧
      t = { s with regs := t.regs, access := t.access, host := { s.host with busMaster := s.host.linkUp } }) ∧
  (∀ (s : State) (src : Source) (r : Fin 136), Admitted s src (ringBase r + 8) → (ringOn s r = true ∨ ringIsIdle s r = false) →
    ∃ t, exec (.ringEnable src r) s = .next t ∧ t = { s with access := t.access }) ∧
  (∀ (s : State) (src : Source) (r : Fin 136), Admitted s src (ringBase r + 8) →
    ∃ t, exec (.ringDisable src r) s = .next t ∧ ringOn t r = false ∧ RegsBut [ringBase r + 8] s t ∧
      t = { s with regs := t.regs, access := t.access }) ∧
  (∀ (s : State) (r : Fin 136), r.val ≠ 135 → ringOn s r = false → ringIsIdle s r = false → ringPosted s r = 0 →
    ∃ t, exec (.ringIdle r []) s = .next t ∧ settled t = settled s ∧ ringIsIdle t r = true ∧ flag t 0x9010 3 = true ∧
      RegsBut [ringBase r + 8, 0x9010] s t) ∧
  (∀ (s : State) (r : Fin 136), (ringAt s r).unsignalled ≠ 0 → (ringAt s r).unsignalled - 1 + fld s (ringBase r + 8) 15 0 * 1000 ≤ now s →
    ∃ t, exec (.itrExpiry r) s = .next t ∧ (ringAt t r).unsignalled = 0 ∧ t.regs = s.regs ∧ t.out = s.out ++ [.vector 0 r]) ∧
  (∀ (s : State) (r : Fin 136), (ringAt s r).unsignalled = 0 → exec (.itrExpiry r) s = .next s) ∧
  (∀ (s : State) (src : Source) (addr : Nat), Admitted s src 0x9040 → flag s 0x9040 31 = false →
    ∃ t, exec (.qspiRead src addr) s = .next t ∧ flag t 0x9040 31 = true ∧ fld t 0x9040 30 29 = 0 ∧ fld t 0x9040 26 0 = addr % 2 ^ 27 ∧
      t.host = { s.host with flash := some (0, addr % 2 ^ 27 / 64 * 64) } ∧ RegsBut [0x9040] s t ∧
      t = { s with regs := t.regs, host := t.host, out := t.out, access := t.access }) ∧
  (∀ (s : State) (src : Source) (addr : Nat), Admitted s src 0x9040 → flag s 0x9040 31 = false → inBootedSlot s (addr % 2 ^ 27) = false →
    ∃ t, exec (.qspiProgram src addr) s = .next t ∧ flag t 0x9040 31 = true ∧ fld t 0x9040 30 29 = 1 ∧ fld t 0x9040 26 0 = addr % 2 ^ 27 ∧
      t.host = { s.host with flash := some (1, addr % 2 ^ 27 / 64 * 64) } ∧ RegsBut [0x9040] s t ∧
      t = { s with regs := t.regs, host := t.host, out := t.out, access := t.access }) ∧
  (∀ (s : State) (src : Source) (addr : Nat), Admitted s src 0x9040 → flag s 0x9040 31 = false → inBootedSlot s (addr % 2 ^ 27) = false →
    ∃ t, exec (.qspiErase src addr) s = .next t ∧ flag t 0x9040 31 = true ∧ fld t 0x9040 30 29 = 2 ∧ fld t 0x9040 26 0 = addr % 2 ^ 27 ∧
      t.host = { s.host with flash := some (2, addr % 2 ^ 27 / 65536 * 65536) } ∧ RegsBut [0x9040] s t ∧
      t = { s with regs := t.regs, host := t.host, out := t.out, access := t.access }) ∧
  (∀ (s : State) (src : Source) (addr : Nat), Admitted s src 0x9040 → flag s 0x9040 31 = false → inBootedSlot s (addr % 2 ^ 27) = true →
    ∃ t, exec (.qspiProgram src addr) s = .next t ∧ flag t 0x9040 31 = false ∧ fld t 0x9040 28 27 = 1 ∧ flag t 0x9010 4 = true ∧
      t.host = s.host ∧ RegsBut [0x9040, 0x9010] s t) ∧
  (∀ (s : State) (src : Source) (addr : Nat), Admitted s src 0x9040 → flag s 0x9040 31 = false → inBootedSlot s (addr % 2 ^ 27) = true →
    ∃ t, exec (.qspiErase src addr) s = .next t ∧ flag t 0x9040 31 = false ∧ fld t 0x9040 28 27 = 1 ∧ flag t 0x9010 4 = true ∧
      t.host = s.host ∧ RegsBut [0x9040, 0x9010] s t) ∧
  (∀ (s : State) (src : Source) (addr : Nat), Admitted s src 0x9040 → flag s 0x9040 31 = true →
    exec (.qspiRead src addr) s = .next (atRegister s src 0x9040) ∧ exec (.qspiProgram src addr) s = .next (atRegister s src 0x9040) ∧
    exec (.qspiErase src addr) s = .next (atRegister s src 0x9040)) ∧
  (∀ (s : State) (op a : Nat) (ok : Bool) (data : List Byte), data.length = 64 → s.host.flash = some (op, a) →
    ∃ t, exec (.qspiDone ok data) s = .next t ∧ t.host = { s.host with flash := none } ∧ flag t 0x9040 31 = false ∧
      fld t 0x9040 28 27 = (if ok then 0 else 2) ∧ flag t 0x9010 4 = true ∧
      (ok = true → op = 0 → ∀ n, n < 16 → rd t (0x9080 + n * 4) = leNat (slice data (n * 4) 4) % 2 ^ 32) ∧
      (ok = false ∨ op ≠ 0 → RegsBut [0x9040, 0x9010] s t)) ∧
  (∀ (s : State) (ok : Bool) (data : List Byte), data.length = 64 → s.host.flash = none → exec (.qspiDone ok data) s = .next s) ∧
  (∀ (s : State) (k : Fin 16) (level : Bool), (pagePowered s .hostIf = false ∨ flag s 0x9050 k = true ∨ flag s 0x9058 k = level) →
    exec (.gpioEvent k level) s = .next s) ∧
  (∀ (s : State) (k : Fin 16) (level : Bool), pagePowered s .hostIf = true → flag s 0x9050 k = false → flag s 0x9058 k ≠ level →
    ∃ t, exec (.gpioEvent k level) s = .next t ∧ flag t 0x9058 k = level ∧
      ((if level then flag s 0x905C k else flag s 0x9060 (16 + k)) = true →
        flag t 0x9064 k = true ∧ flag t 0x9010 5 = true ∧ RegsBut [0x9058, 0x9064, 0x9010] s t) ∧
      ((if level then flag s 0x905C k else flag s 0x9060 (16 + k)) = false → RegsBut [0x9058] s t ∧ t.out = s.out))

/-- Frames of the host (R337 to R340: TX_FRAME_FETCH, RX_DELIVER): the descriptors are read, a bad one is finished with its status and no
frame, a failed read with DMA_ERROR, a good frame enters its slice; a waiting copy is delivered into the buffers that fit it. A fetch whose
ring is off or whose slice does not run does nothing. -/
def Obligations.HostFramesComeAndGo : Prop :=
  (∀ (s : State) (r : Fin 64) (ds : List (List Nat)) (data : List Byte) (ok : Bool), Fetches s r ds → descriptorStatus ds ≠ 0 →
    ∃ t, exec (.txFrameFetch r ds data ok) s = .next t ∧ settled t = settled s ∧
      t = finishDescriptors (raise (tally (readDescriptors s r ds.length) 0x9328) .hostIf 0) r ds.length (descriptorStatus ds) ∧
      ringHead t r = (ringHead s r + ds.length) % ringSize s r ∧ flag t 0x9010 0 = true ∧ t.frames = s.frames ∧ t.queues = s.queues) ∧
  (∀ (s : State) (r : Fin 64) (ds : List (List Nat)) (data : List Byte), Fetches s r ds → descriptorStatus ds = 0 →
    ∃ t, exec (.txFrameFetch r ds data false) s = .next t ∧ settled t = settled s ∧
      t = finishDescriptors (hostDmaFails (readSegments (readDescriptors s r ds.length) ds) [r.val]) r ds.length 4 ∧
      ringHead t r = (ringHead s r + ds.length) % ringSize s r ∧ flag t 0x9010 2 = true ∧ t.frames = s.frames ∧ t.queues = s.queues) ∧
  (∀ (s : State) (r : Fin 64) (ds : List (List Nat)) (data : List Byte), Fetches s r ds → descriptorStatus ds = 0 →
    data.length + 4 = bits (nth (ds.headD []) 3) 31 18 →
    ∃ t, exec (.txFrameFetch r ds data true) s = .next t ∧ settled t = settled s ∧
      t = acceptHostFrame (finishDescriptors (readSegments (readDescriptors s r ds.length) ds) r ds.length 0) r (ds.headD []) data) ∧
  (∀ (s : State) (r : Fin 64) (ds : List (List Nat)) (data : List Byte) (ok : Bool),
    (ringOn s r = false ∨ hostServes s = false ∨ pipelineRuns s (fld s (ringBase r + 8) 24 22) = false ∨ ringPosted s r = 0) →
    exec (.txFrameFetch r ds data ok) s = .next s) ∧
  (∀ (s : State) (c : Copy) (buffers : List (Nat × Nat)) (ok : Bool), s.host.waiting = some c →
    ∃ t, exec (.rxDeliver buffers ok) s = .next t ∧ settled t = settled s ∧ t = deliver s c buffers ok ∧
      (egressCheck s (frameAt s c.frame) 64 (match c.kind with | .trap _ => true | _ => false) = 0 → ringOn s (64 + c.ring) = false →
        t = s)) ∧
  (∀ (s : State) (buffers : List (Nat × Nat)) (ok : Bool), s.host.waiting = none → exec (.rxDeliver buffers ok) s = .next s)

/-- Table commands (R106, R107, R345 to R347): with a command at the head of ring 7 and the engine free, each of NOP, READ, WRITE, INSERT,
DELETE, LOCK_ENTRY, UNLOCK and FLUSH takes its place of the ring and completes with its status, its result and the count of entries done; a
FLUSH of the FDB begins its walk. The completion's record is written when ring 6 has room, and waits otherwise (R346, R347). FILTER 0b11 as
BAD_COMMAND is the model's choice (log 19). -/
def Obligations.TableCommandsComplete : Prop :=
  (∀ (s : State) (op st tag r d : Nat), s.host.completions = [] → eventRoom s 6 32 = true →
    (complete s op st tag r d).host.completions = [] ∧ (complete s op st tag r d).out.take (s.out.length + 1) = s.out ++
      [.record 6 [op * 2 ^ 24 + st * 2 ^ 16 + tag, r, d, 0, devSub s, devSec s, 0, s.host.completionSeq]]) ∧
  (∀ (s : State) (op st tag r d : Nat), eventRoom s 6 32 = false →
    complete s op st tag r d = { s with host := { s.host with
      completions := s.host.completions ++ [{ opcode := op, status := st, tag := tag, result := r, done := d }] } }) ∧
  ∀ (s h : State) (tag : Nat), commandReady s = true → h = advanceHead s 135 32 →
    (∃ t, exec (.nop tag) s = .next t ∧ t = complete h 0x0A 0 tag 0 0 ∧ settled t = settled s ∧
      ringHead t 135 = (ringHead s 135 + 32) % ringSize s 135 ∧ t = { s with regs := t.regs, host := t.host, out := t.out }) ∧
    (∀ (t i n a : Nat) (applied ok : Bool), t ≤ 0x19 → entriesOf h t < i + countOf n →
      ∃ u, exec (.read t tag applied i n a ok) s = .next u ∧ u = complete h 1 8 tag 0 0 ∧ settled u = settled s ∧ u.tabs = s.tabs) ∧
    (∀ (t i n a : Nat) (applied : Bool), t ≤ 0x19 → t ≠ 2 → tableSlice t i = none → i + countOf n ≤ entriesOf h t →
      ∃ w u, exec (.read t tag applied i n a true) s = .next w ∧ w = complete u 1 0 tag 0 (countOf n) ∧ settled w = settled s ∧
        w.tabs = s.tabs ∧ u.regs = h.regs ∧
        u.out = h.out ++ (List.range (countOf n)).map fun k => .hostWrite (a + k * tableBytes t) (leBytes (tableBytes t) (entryImage h applied t (i + k)))) ∧
    (∀ (t i n : Nat) (l : List Image) (ok : Bool), l.length = countOf n → tableReadOnly t = true →
      ∃ u, exec (.write t tag i n l ok) s = .next u ∧ u = complete h 2 7 tag 0 0 ∧ u.tabs = s.tabs ∧ u.regsCur = s.regsCur) ∧
    (∀ (t i : Nat) (v : Image), t ≤ 0x19 → t ≠ 2 → tableReadOnly t = false → tableSlice t i = none → i < entriesOf h t →
      ∃ u, exec (.write t tag i 1 [v] true) s = .next u ∧ u = complete (writeEntry h t i v) 2 0 tag 0 1 ∧ u.regsCur = s.regsCur ∧
        u.tabsCur = s.tabsCur ∧ u.queues = s.queues ∧ u.colophon = s.colophon) ∧
    (∀ v : Image, role s = 3 →
      ∃ t, exec (.insert 2 tag v true) s = .next t ∧ settled t = settled s ∧ t.frames = s.frames ∧ t.queues = s.queues ∧
        (let r := fdbInsert (settleLearning h) v.toNat; t = complete r.2 3 r.1.1 tag r.1.2.1 r.1.2.2)) ∧
    (∀ v : Image, ∃ t, exec (.insert 6 tag v true) s = .next t ∧ settled t = settled s ∧ t.frames = s.frames ∧ t.queues = s.queues ∧
      (let r := mapInsert h v.toNat; t = complete r.2 3 r.1.1 tag r.1.2.1 r.1.2.2) ∧ t.fdb = s.fdb ∧ t.slices = s.slices) ∧
    (∀ v : Image, role s = 3 →
      ∃ t, exec (.delete 2 tag v true) s = .next t ∧ settled t = settled s ∧ t.frames = s.frames ∧ t.queues = s.queues ∧
        (let r := fdbDelete (settleLearning h) v.toNat; t = complete r.2 4 r.1.1 tag r.1.2.1 r.1.2.2)) ∧
    (∀ v : Image, mapSlot h (bits v.toNat 62 30) = none →
      ∃ t, exec (.delete 6 tag v true) s = .next t ∧ t = complete h 4 5 tag 0 0 ∧ t.tabs = s.tabs) ∧
    (∀ v : Image, role s = 3 →
      ∃ t, exec (.lockEntry 2 tag v true) s = .next t ∧ settled t = settled s ∧ t.frames = s.frames ∧ t.queues = s.queues ∧
        (let r := fdbLock (settleLearning h) v.toNat true; t = complete r.2 5 r.1.1 tag r.1.2.1 r.1.2.2)) ∧
    (∀ v : Image, role s = 3 →
      ∃ t, exec (.unlock 2 tag v true) s = .next t ∧ settled t = settled s ∧ t.frames = s.frames ∧ t.queues = s.queues ∧
        (let r := fdbLock (settleLearning h) v.toNat false; t = complete r.2 6 r.1.1 tag r.1.2.1 r.1.2.2)) ∧
    (∀ (v : Image) (slot : Nat) (on : Bool), role s = 3 → s.fdb.learnQ = [] → fdbFind h (fdbFid v.toNat) (fdbMac v.toNat) = some slot →
      ∃ t, exec (if on then .lockEntry 2 tag v true else .unlock 2 tag v true) s = .next t ∧
        t.tabs = (fdbWrite h slot (putBits (fdbEntry h slot) 125 125 (bit on))).tabs ∧ t.frames = s.frames) ∧
    (∀ (v : Image) (ok : Bool), role s ≠ 3 →
      ∃ t, exec (.insert 2 tag v ok) s = .next t ∧ t = complete h 3 6 tag 0 0 ∧ t.tabs = s.tabs) ∧
    (∀ (static : Bool) (f : Fin 4) (v : BitVec 16), role s = 3 → f.val ≠ 3 →
      ∃ t, exec (.flush 2 tag static f v) s = .next t ∧ settled t = settled s ∧ t.frames = s.frames ∧ t.queues = s.queues ∧
        t = flushBegin (settleLearning h) f v.toNat static (some tag) none ∧ t.fdb.stopped.isSome = true ∧
        t.fdb.flushes = s.fdb.flushes ++ [{ filter := f, value := v.toNat, static := static, tag := some tag, channel := none }])

/-- Register commands and completions (R345, R347): REG_READ copies words to host memory, REG_WRITE writes one word as the table engine, a
finished FDB flush completes (FDB_FLUSH_COMPLETE), and a completion waits until ring 6 has room (TABLE_COMPLETION). -/
def Obligations.RegisterCommandsAndCompletions : Prop :=
  (∀ (s h : State) (tag i n a : Nat), commandReady s = true → h = advanceHead s 135 32 → i + 4 * countOf n ≤ 2 ^ 26 →
    ∃ t, exec (.regRead tag i n a true) s = .next t ∧
      t = complete (emit (readWords h i (countOf n)).2 (.hostWrite a ((readWords h i (countOf n)).1.flatMap (leBytes 4)))) 8 0 tag 0 (countOf n) ∧
      t.tabs = s.tabs ∧ t.queues = s.queues ∧ t.frames = s.frames ∧ t.clock = s.clock ∧ t.regsCur = s.regsCur) ∧
  (∀ (s h : State) (tag i : Nat) (v : Word32), commandReady s = true → h = advanceHead s 135 32 → i < 2 ^ 26 →
    ∃ t, exec (.regWrite tag i v) s = .next t ∧ t = complete (busWrite h .dma i 4 v.toNat true) 9 0 tag 0 1) ∧
  (∀ (s h : State) (tag i : Nat) (v : Word32), commandReady s = true → h = advanceHead s 135 32 → i < 2 ^ 26 → i % 4 ≠ 0 →
    ∃ t, exec (.regWrite tag i v) s = .next t ∧ t = complete (accessFault h .dma i 1) 9 0 tag 0 1 ∧ t.tabs = s.tabs ∧
      t.queues = s.queues ∧ t.clock = s.clock ∧ t.regsCur = s.regsCur) ∧
  (∀ (s h : State) (tag i : Nat) (v : Word32), commandReady s = true → h = advanceHead s 135 32 → 2 ^ 26 ≤ i →
    ∃ t, exec (.regWrite tag i v) s = .next t ∧ t = complete h 9 8 tag 0 0 ∧ t = { s with regs := t.regs, host := t.host, out := t.out }) ∧
  (∀ (s : State) (j : FlushJob) (rest : List FlushJob) (tag : Nat), s.fdb.flushes = j :: rest → j.tag = some tag → j.slot = 524288 →
    ∃ t, exec .fdbFlushComplete s = .next t ∧ t = complete (flushEnds s) 7 0 tag j.removed j.removed ∧ t.fdb.flushes = rest ∧
      t.tabs = s.tabs ∧ t.queues = s.queues) ∧
  (∀ (s : State) (j : FlushJob) (rest : List FlushJob) (k : Nat) (c : FwCommand), s.fdb.flushes = j :: rest → j.tag = none →
    j.channel = some k →
    commandOf s k = some c → j.slot = 524288 →
    ∃ t, exec .fdbFlushComplete s = .next t ∧ t = respond (flushEnds s) c 0 0 [j.removed] ∧ t.fdb.flushes = rest ∧ t.tabs = s.tabs) ∧
  (∀ (s : State) (j : FlushJob) (rest : List FlushJob), s.fdb.flushes = j :: rest →
    ∃ t, exec .fdbFlushComplete s = .next t ∧ t.fdb.flushes = rest ∧ t.clock = s.clock ∧ t.queues = s.queues ∧ t.frames = s.frames ∧
      ∀ e ∈ t.tabs, e ∈ s.tabs) ∧
  (∀ s : State, s.fdb.flushes = [] → exec .fdbFlushComplete s = .next s) ∧
  (∀ (s : State) (c : Completion) (rest : List Completion), s.host.completions = c :: rest → eventRoom s 6 32 = true →
    ∃ t, exec .tableCompletion s = .next t ∧ settled t = settled s ∧ t.host.completions = rest ∧
      t.out.take (s.out.length + 1) = s.out ++ [.record 6 (completionWords s c)] ∧ t.tabs = s.tabs ∧ t.queues = s.queues) ∧
  (∀ (s : State) (c : Completion) (rest : List Completion), s.host.completions = c :: rest → eventRoom s 6 32 = false →
    exec .tableCompletion s = .next s) ∧
  (∀ s : State, s.host.completions = [] → exec .tableCompletion s = .next s)

/-! ### Mailboxes -/

/-- GO posts the composed message with its sender epoch and sets FULL; on a full channel it only marks the overrun (R351). The BMC has
no authority to write GO of outbound B_0, whose sender is firmware (R350). A sender reset
over I²C clears what was composed and advances the epoch (R356, R358). A receiver that is down marks the posted message, which stays
posted (R355). -/
def Obligations.MailboxMessagesArePosted : Prop :=
  (∀ (s : State) (src : Source) (c : Fin 12), Admitted s src (channelBase c + 0x40) → channelSender c = acts src →
    channelFull s c = false → c.val ≠ 11 →
    ∃ t, exec (.mailboxGo src c) s = .next t ∧ channelFull t c = true ∧ (channelAt t c).postedAt = now s ∧
      (channelAt t c).posted = putBits (rd s (channelBase c)) 7 0 (channelEpoch s c) ::
        (List.range 15).map (fun i => rd s (channelBase c + (i + 1) * 4)) ∧
      (∀ d, d ≠ c.val → channelAt t d = channelAt s d)) ∧
  (∀ (s : State) (src : Source) (c : Fin 12), Admitted s src (channelBase c + 0x40) → channelSender c = acts src → channelFull s c = true →
    ∃ t, exec (.mailboxGo src c) s = .next t ∧ flag t (channelStatus c) 24 = true ∧ t.channels = s.channels ∧
      RegsBut [channelStatus c, 0x7010] s t) ∧
  (∀ (s : State) (src : Source) (c : Fin 12), Admitted s src (channelBase c + 0x40) → channelSender c ≠ acts src →
    exec (.mailboxGo src c) s = .next (accessFault (atRegister s src (channelBase c + 0x40)) src (channelBase c + 0x40) 5)) ∧
  (∀ s : State, Admitted s .i2c (channelBase 4 + 0x40) →
    ∃ t, exec (.senderReset .i2c 4) s = .next t ∧ (∀ i, i < 16 → rd t (channelBase 4 + i * 4) = 0) ∧
      channelEpoch t 4 = (channelEpoch s 4 + 1) % 256 ∧ channelFull t 4 = channelFull s 4 ∧ t.channels = s.channels) ∧
  (∀ (s : State) (src : Source) (c : Fin 12), Admitted s src (channelBase c + 0x40) → (src ≠ .i2c ∨ (c.val ≠ 4 ∧ c.val ≠ 10)) →
    ∃ t, exec (.senderReset src c) s = .next t ∧ t = { s with access := t.access }) ∧
  (∀ (s : State) (c : Fin 12), channelFull s c = true → receiverIsDown s c = true → (channelAt s c).down = false →
    ∃ t, exec (.receiverDown c) s = .next t ∧ flag t (channelStatus c) 29 = true ∧ channelFull t c = true ∧
      channelAt t c = { channelAt s c with timed := true, down := true } ∧ RegsBut [channelStatus c, 0x7010] s t) ∧
  (∀ (s : State) (c : Fin 12), channelFull s c = false → exec (.receiverDown c) s = .next s)

/-- A read of TAKE by the receiver while FULL is 1 returns the posted header, copies words 1 to 15 into HELD_01 to HELD_15 and clears FULL;
while FULL is 0 it returns 0 and changes nothing but what the reading source itself had latched (R352). -/
def Obligations.TakesDeliverTheMessageOnce : Prop :=
  (∀ (s : State) (src : Source) (c : Fin 12), heldInReset s .mailbox = false → mayRead s src (channelBase c + 0x48) = true →
    channelFull s c = true →
    ∃ t, exec (.take src c) s = .next t ∧ channelFull t c = false ∧ channelAt t c = {} ∧
      t.out.getLast? = some (.value src (channelBase c + 0x48) (nth (channelAt s c).posted 0)) ∧
      (∀ i, i < 15 → rd t (channelBase c + 0x4C + i * 4) = nth (channelAt s c).posted (i + 1) % 2 ^ 32)) ∧
  (∀ (s : State) (src : Source) (c : Fin 12), heldInReset s .mailbox = false → mayRead s src (channelBase c + 0x48) = true →
    channelFull s c = false →
    ∃ t, exec (.take src c) s = .next t ∧ t.regs = s.regs ∧ t.out = s.out ++ [.value src (channelBase c + 0x48) 0] ∧
      t = { s with out := t.out, access := t.access })

/-- A message that is not taken within TIMEOUT_CYCLES × 125 µs of steady time sets TIMEOUT once, and stays posted (R353). -/
def Obligations.UntakenMessagesTimeOutOnce : Prop :=
  (∀ (s : State) (c : Fin 12), channelFull s c = true → (channelAt s c).timed = false →
    (channelAt s c).postedAt + max 1 (fld s 0x7040 15 0) * 125000 ≤ now s →
    ∃ t, exec (.mailboxTimeout c) s = .next t ∧ flag t (channelStatus c) 30 = true ∧ channelFull t c = true ∧
      channelAt t c = { channelAt s c with timed := true } ∧ RegsBut [channelStatus c, 0x7010] s t) ∧
  (∀ (s : State) (c : Fin 12), (channelAt s c).timed = true → exec (.mailboxTimeout c) s = .next s) ∧
  (∀ (s : State) (c : Fin 12), now s < (channelAt s c).postedAt + max 1 (fld s 0x7040 15 0) * 125000 →
    exec (.mailboxTimeout c) s = .next s) ∧
  fld State.reset 0x7040 15 0 * 125000 = 10000000

/-- WITHDRAW removes the posted message if FULL is still 1, with DISCARDED and REASON WITHDRAWN; if FULL is 0 it removes nothing and sets
WITHDRAW_FAILED (R354). A message already sent over Kettle is withdrawn by the mate's answer (R359). -/
def Obligations.WithdrawsRemoveOrFail : Prop :=
  (∀ (s : State) (src : Source) (c : Fin 12), Admitted s src (channelBase c + 0x40) → channelSender c = acts src → channelFull s c = true →
    (c.val ≠ 11 ∨ (channelAt s c).sent = false) →
    ∃ t, exec (.withdraw src c) s = .next t ∧ channelFull t c = false ∧ channelAt t c = {} ∧ flag t (channelStatus c) 28 = true ∧
      fld t (channelStatus c) 27 25 = 3 ∧ RegsBut [channelStatus c, 0x7010] s t) ∧
  (∀ (s : State) (src : Source) (c : Fin 12), Admitted s src (channelBase c + 0x40) → channelSender c = acts src → channelFull s c = false →
    ∃ t, exec (.withdraw src c) s = .next t ∧ flag t (channelStatus c) 23 = true ∧ t.channels = s.channels ∧
      RegsBut [channelStatus c, 0x7010] s t) ∧
  (∀ (s : State) (src : Source), Admitted s src (channelBase 11 + 0x40) → channelFull s 11 = true → (channelAt s 11).sent = true →
    ∃ t, exec (.withdraw src 11) s = .next t ∧ channelFull t 11 = true ∧ (channelAt t 11).withdrawing = true) ∧
  (∀ (s : State) (src : Source) (c : Fin 12), Admitted s src (channelBase c + 0x40) → channelSender c ≠ acts src →
    exec (.withdraw src c) s = .next (accessFault (atRegister s src (channelBase c + 0x40)) src (channelBase c + 0x40) 5))

/-! ### Firmware commands -/

/-- FIRMWARE_TAKE_COMMAND, FW_VERSION, CXL_STATUS, TWIN_STATUS and HEALTH_GET. Firmware takes commands in rotation and checks them (R360,
R361): a well-formed one waits to be carried out, and one that fails a check is answered at once with the first failure. A response goes to
the outbound channel of its command with RESULT and DETAIL in its second word, and ends the command (R361). The commands that only show
something answer with it (R363). -/
def Obligations.FirmwareTakesAndAnswers : Prop :=
  (∀ (s : State) (k : Nat), s.firmware.running = true →
    ((List.range 6).map fun i => (s.firmware.nextChannel + i) % 6).find? (takeable s) = some k →
    checkCommand s k (channelAt s k).posted = none →
    ∃ t, exec .firmwareTakeCommand s = .next t ∧ channelFull t k = false ∧ t.firmware.nextChannel = (k + 1) % 6 ∧
      t.firmware.commands = s.firmware.commands ++ [{ channel := k, words := (channelAt s k).posted }]) ∧
  (∀ (s : State) (k result detail : Nat), s.firmware.running = true →
    ((List.range 6).map fun i => (s.firmware.nextChannel + i) % 6).find? (takeable s) = some k →
    checkCommand s k (channelAt s k).posted = some (result, detail) →
    ∃ t, exec .firmwareTakeCommand s = .next t ∧ channelFull t k = false ∧ t.firmware.commands = s.firmware.commands ∧
      channelFull t (k + 6) = true ∧ nth (channelAt t (k + 6)).posted 1 = (result * 2 ^ 24 + detail) % 2 ^ 32) ∧
  (∀ s : State, s.firmware.running = false → exec .firmwareTakeCommand s = .next s) ∧
  (∀ (s : State) (c : FwCommand) (result detail : Nat) (l : List Nat), c.channel < 6 → channelFull s (c.channel + 6) = false →
    channelFull (respond s c result detail l) (c.channel + 6) = true ∧ commandOf (respond s c result detail l) c.channel = none ∧
    nth (channelAt (respond s c result detail l) (c.channel + 6)).posted 1 = (result * 2 ^ 24 + detail) % 2 ^ 32 ∧
    (∀ i, i < l.length → i < 14 → nth (channelAt (respond s c result detail l) (c.channel + 6)).posted (i + 2) = nth l i % 2 ^ 32) ∧
    (∀ k, k ≠ c.channel → commandOf (respond s c result detail l) k = commandOf s k)) ∧
  (∀ (s : State) (k : Fin 6) (c : FwCommand), CommandWaits s k 1 c →
    ∃ t, exec (.fwVersion k) s = .next t ∧ t = respond s c 0 0 [s.firmware.version, s.firmware.patchVersion,
      fld s 0x2080 29 29 * 2 ^ 31 + min 128 s.colophon.antiRollback, 1] ∧
      t = { s with regs := t.regs, channels := t.channels, kettle := t.kettle, firmware := t.firmware, out := t.out } ∧
      (channelFull s (k + 6) = false → Answers t k 0 [s.firmware.version, s.firmware.patchVersion,
      fld s 0x2080 29 29 * 2 ^ 31 + min 128 s.colophon.antiRollback, 1])) ∧
  (∀ (s : State) (k : Fin 6) (c : FwCommand) (p : Nat), CommandWaits s k 5 c → p = nth c.words 1 % 4 →
    ∃ t, exec (.cxlStatus k) s = .next t ∧ t = respond s c 0 0 [rd s (cxlReg p 0x48), rd s (cxlReg p 0x4C), rd s (cxlReg p 0x50),
      sheetsHeld s p,
      sget zeroNat s.firmware.sanitized p, rd s (cxlReg p 0xB0)] ∧
      t = { s with regs := t.regs, channels := t.channels, kettle := t.kettle, firmware := t.firmware, out := t.out } ∧
      (channelFull s (k + 6) = false → Answers t k 0 [rd s (cxlReg p 0x48), rd s (cxlReg p 0x4C), rd s (cxlReg p 0x50), sheetsHeld s p,
      sget zeroNat s.firmware.sanitized p, rd s (cxlReg p 0xB0)])) ∧
  (∀ (s : State) (k : Fin 6) (c : FwCommand), CommandWaits s k 8 c →
    ∃ t, exec (.twinStatus k) s = .next t ∧ t = respond s c 0 0 [rd s 0x604C, rd s 0x6050, rd s 0x605C, rd s 0x6060, rd s 0x6064] ∧
      t = { s with regs := t.regs, channels := t.channels, kettle := t.kettle, firmware := t.firmware, out := t.out } ∧
      (channelFull s (k + 6) = false → Answers t k 0 [rd s 0x604C, rd s 0x6050, rd s 0x605C, rd s 0x6060, rd s 0x6064])) ∧
  (∀ (s : State) (k : Fin 6) (c : FwCommand), CommandWaits s k 0xA c →
    ∃ t, exec (.healthGet k) s = .next t ∧ t = respond s c 0 0 (healthBody s) ∧
      t = { s with regs := t.regs, channels := t.channels, kettle := t.kettle, firmware := t.firmware, out := t.out } ∧
      (channelFull s (k + 6) = false → Answers t k 0 (healthBody s))) ∧
  (∀ (s : State) (k : Fin 6), commandOf s k = none → exec (.fwVersion k) s = .next s ∧ exec (.cxlStatus k) s = .next s ∧
    exec (.twinStatus k) s = .next s ∧ exec (.healthGet k) s = .next s)

/-- The commands that act (R20, R21, R107, R191, R282, R364: PROFILE_SET, POWER_ENVELOPE_SET, SPILL_ENABLE, TABLE_FLUSH, FDB_FLUSH_PORT,
TWIN_HANDOVER, SELFTEST_RUN, LIFECYCLE_ADVANCE): knob commands stage and commit, or answer COMMIT_BUSY; table flushes clear their table; the
long ones begin, go on and answer as their operation says, and a bad operand is answered BAD_OPERAND. LIFECYCLE_ADVANCE moves the life cycle
only to the state asked for, only upwards, and never where OTP fails (R398, R399). That SELFTEST_RUN runs and ends in one command is the
model's choice (log 24). -/
def Obligations.ActingCommandsAct : Prop :=
  (∀ (s u : State) (k : Fin 6) (c : FwCommand) (e p : Nat), CommandWaits s k 2 c → p = bits (nth c.words 1) 1 0 → p ≠ 0 → s.commit = none →
    e = (currentEpoch s + 1) % 65536 → u = acceptCommit (setFld (stagePreset s p) 0x40 15 0 e) p →
    ∃ t, exec (.profileSet k) s = .next t ∧ t = respond u c 0 0 [e] ∧ t.commit.isSome = true ∧ currentEpoch t = e ∧ t.clock = s.clock ∧
      t.frames = s.frames ∧ t.ports = s.ports ∧ t.colophon = s.colophon ∧ (channelFull u (k + 6) = false → Answers t k 0 [e])) ∧
  (∀ (s u : State) (k : Fin 6) (c : FwCommand) (e v : Nat), CommandWaits s k 3 c → v = bits (nth c.words 1) 8 0 → 40 ≤ v → v ≤ 340 →
    s.commit = none → e = (currentEpoch s + 1) % 65536 → u = acceptCommit (setFld (setFld s 0x3040 8 0 v) 0x40 15 0 e) 0 →
    ∃ t, exec (.powerEnvelopeSet k) s = .next t ∧ t = respond u c 0 0 [e] ∧ t.commit.isSome = true ∧ currentEpoch t = e ∧
      bits (knobs t) 8 0 = v ∧ t.clock = s.clock ∧ t.frames = s.frames ∧ t.ports = s.ports ∧
      (channelFull u (k + 6) = false → Answers t k 0 [e])) ∧
  (∀ (s : State) (k : Fin 6) (c : FwCommand), CommandWaits s k 2 c → bits (nth c.words 1) 1 0 = 0 →
    ∃ t, exec (.profileSet k) s = .next t ∧ t = respond s c 4 0 [] ∧
      t = { s with regs := t.regs, channels := t.channels, kettle := t.kettle, firmware := t.firmware, out := t.out }) ∧
  (∀ (s : State) (k : Fin 6) (c : FwCommand), CommandWaits s k 3 c → 40 ≤ bits (nth c.words 1) 8 0 → bits (nth c.words 1) 8 0 ≤ 340 →
    s.commit.isSome = true →
    ∃ t, exec (.powerEnvelopeSet k) s = .next t ∧ t = respond s c 7 0 [] ∧
      t = { s with regs := t.regs, channels := t.channels, kettle := t.kettle, firmware := t.firmware, out := t.out }) ∧
  (∀ (s : State) (k : Fin 6) (c : FwCommand), CommandWaits s k 4 c →
    ∃ t, exec (.spillEnable k) s = .next t ∧ t = spillEnable s c ∧ t.clock = s.clock ∧ t.colophon = s.colophon ∧ t.regsCur = s.regsCur) ∧
  (∀ (s : State) (k : Fin 6) (c : FwCommand), CommandWaits s k 4 c → c.started = false → opRuns s c 4 = false → enableMask c = 0 →
    ∃ t, exec (.spillEnable k) s = .next t ∧ commandOf t k = none ∧
      ∀ p, p < 4 → flag t 0x404040 (28 + p) = (flag s 0x404040 (28 + p) && !bitAt (drainMask c) p)) ∧
  (∀ (s : State) (k : Fin 6) (c : FwCommand), CommandWaits s k 4 c → c.started = false → opRuns s c 4 = false →
    enableMask c &&& drainMask c ≠ 0 → ∃ t, exec (.spillEnable k) s = .next t ∧ t = respond s c 4 0 [] ∧
      t = { s with regs := t.regs, channels := t.channels, kettle := t.kettle, firmware := t.firmware, out := t.out }) ∧
  (∀ (s : State) (k : Fin 6) (c : FwCommand) (n : Nat), CommandWaits s k 6 c → n = nth c.words 1 % 256 → n ≤ 0x17 →
    tableReadOnly n = false → n ≠ 2 →
    ∃ t, exec (.tableFlush k) s = .next t ∧ t = respond (flushTable s n) c 0 0 [tableEntries n] ∧ t.queues = s.queues ∧ t.clock = s.clock ∧
      (n ≠ 0x0D → n ≠ 0x12 → n ≠ 0x17 → t.tabs = skeep (fun i => i / 2 ^ 20 != n) s.tabs) ∧
      (channelFull s (k + 6) = false → Answers t k 0 [tableEntries n])) ∧
  (∀ (s : State) (k : Fin 6) (c : FwCommand), CommandWaits s k 6 c → 0x17 < nth c.words 1 % 256 →
    ∃ t, exec (.tableFlush k) s = .next t ∧ t = respond s c 4 0 [] ∧
      t = { s with regs := t.regs, channels := t.channels, kettle := t.kettle, firmware := t.firmware, out := t.out }) ∧
  (∀ (s : State) (k : Fin 6) (c : FwCommand) (p : Nat), CommandWaits s k 7 c → c.started = false → p = nth c.words 1 % 128 → p ≤ 63 →
    role s = 3 →
    ∃ t, exec (.fdbFlushPort k) s = .next t ∧ t =
      flushBegin (settleLearning (markStarted s c)) 0 (flushPortValue s p) false none (some c.channel) ∧
      t.fdb.flushes = s.fdb.flushes ++ [{ filter := 0, value := flushPortValue s p, static := false, tag := none, channel := some c.channel }] ∧
      t.fdb.stopped.isSome = true ∧ t.queues = s.queues ∧ t.frames = s.frames ∧ t.clock = s.clock) ∧
  (∀ (s : State) (k : Fin 6) (c : FwCommand), CommandWaits s k 9 c →
    ∃ t, exec (.twinHandover k) s = .next t ∧ t = twinHandover s c ∧ t.clock = s.clock ∧ t.queues = s.queues ∧ t.tabs = s.tabs) ∧
  (∀ (s : State) (k : Fin 6) (c : FwCommand), CommandWaits s k 9 c → c.started = false → opRuns s c 9 = false → handoverRefused s = 0 →
    s.twin.handover = .none →
    ∃ t, exec (.twinHandover k) s = .next t ∧ t.twin.handover = .accepted ∧ flag t 0x6048 28 = true ∧ RegsBut [0x6048] s t ∧
      t = { s with regs := t.regs, twin := t.twin, firmware := t.firmware }) ∧
  (∀ (s : State) (k : Fin 6) (c : FwCommand), CommandWaits s k 9 c → c.started = true → s.twin.handover = .none →
    ∃ t, exec (.twinHandover k) s = .next t ∧ t = respond s c 0 0 [fld s 0x604C 22 20] ∧
      t = { s with regs := t.regs, channels := t.channels, kettle := t.kettle, firmware := t.firmware, out := t.out }) ∧
  (∀ (s : State) (k : Fin 6) (c : FwCommand) (w : BitVec 32), CommandWaits s k 0xB c →
    ∃ t, exec (.selftestRun k w) s = .next t ∧ t = selftestRun s c w.toNat ∧ t.clock = s.clock ∧ t.queues = s.queues ∧ t.tabs = s.tabs) ∧
  (∀ (s : State) (k : Fin 6) (c : FwCommand), CommandWaits s k 0xB c → bits (nth c.words 1) 3 0 ≠ 0 → standsBy s = true →
    ∃ t, exec (.selftestRun k 0) s = .next t ∧ (channelFull s (k + 6) = false → Answers t k 0 [rd s 0x6058]) ∧
      (bitAt (nth c.words 1) 0 = true → t.twin = { s.twin with passed := 255 }) ∧
      t = { s with regs := t.regs, channels := t.channels, kettle := t.kettle, firmware := t.firmware, out := t.out, twin := t.twin }) ∧
  (∀ (s : State) (k : Fin 6) (c : FwCommand) (ok : Bool), CommandWaits s k 0xC c →
    ∃ t, exec (.lifecycleAdvance k ok) s = .next t ∧ t = lifecycleAdvance s c ok ∧ t.clock = s.clock ∧ t.power = s.power ∧
      t.regsCur = s.regsCur ∧ t.tabsCur = s.tabsCur) ∧
  (∀ (s : State) (k : Fin 6) (c : FwCommand), CommandWaits s k 0xC c → c.started = false →
    (∀ d ∈ s.firmware.commands, d.channel ≠ c.channel → d.started = false) → nth c.words 1 ^^^ nth c.words 2 = 0xFFFFFFFF →
    bits (nth c.words 1) 2 0 = 2 → s.colophon.lifecycle < 2 → standsBy s = true → s.colophon.debugByToken = false →
    (∀ p, p < 4 → cxlState s p ≠ 5) →
    ∃ t, exec (.lifecycleAdvance k true) s = .next t ∧ t.colophon.lifecycle = 2 ∧ t.colophon.spillKey = false ∧
      t.errors.resetAt = some (now s + 1000000, 8) ∧ commandOf t k = none ∧ t.queues = s.queues ∧ t.frames = s.frames) ∧
  (∀ (s : State) (c : FwCommand) (otpOk : Bool), (lifecycleAdvance s c otpOk).colophon.lifecycle = s.colophon.lifecycle ∨
    (otpOk = true ∧ (lifecycleAdvance s c otpOk).colophon.lifecycle = bits (nth c.words 1) 2 0 ∧
      s.colophon.lifecycle < bits (nth c.words 1) 2 0))

/-! ### The sequencer -/

/-- The macro-instructions that the spec uses (MOV, SUB, LDI, BNZ, HALT, ROSTAL_INSTRUCTION, CUSTOMER_INSTRUCTION; R365 to R367, R374, R381,
R385): at a boundary, where its word stands at PC and its dispatch raises no fault, each writes its register and its flags, G_00 stays 0,
and PC moves on; HALT ends the task with TASK_RESULT; any instruction is dispatched to its routine; a task's customer instruction runs its
routine to its end. C of a SUB is a value that the spec does not give. Byte order, PC at HALT and the order of MFLAGS are the model's
readings (log 26). -/
def Obligations.MacroInstructionsCompute : Prop :=
  (∀ (s : State) (d a : Fin 32), atBoundary s = true → fetched s = 0x01 * 2 ^ 24 + d.val * 2 ^ 19 + a.val * 2 ^ 14 →
    dispatchFault s 0x01 = none → (s.seq.task && s.seq.abort) = false →
    ∃ t, exec (.mov d a) s = .next t ∧ gReg t d = (if d.val = 0 then 0 else gReg s a) ∧ (∀ k, k ≠ d.val → gReg t k = gReg s k) ∧
      t.seq.z = (gReg s a == 0) ∧ t.seq.n = (gReg s a).msb ∧ t.seq.pc = (s.seq.pc + 4) % 2 ^ 20 / 4 * 4 ∧ t.seq.ram = s.seq.ram ∧
      t = { s with seq := t.seq, freeCount := t.freeCount }) ∧
  (∀ (s : State) (d a b : Fin 32), atBoundary s = true →
    fetched s = 0x03 * 2 ^ 24 + d.val * 2 ^ 19 + a.val * 2 ^ 14 + b.val * 2 ^ 9 →
    dispatchFault s 0x03 = none → (s.seq.task && s.seq.abort) = false →
    ∃ t, exec (.sub d a b) s = .next t ∧ gReg t d = (if d.val = 0 then 0 else gReg s a - gReg s b) ∧
      (∀ k, k ≠ d.val → gReg t k = gReg s k) ∧ t.seq.z = (gReg s a - gReg s b == 0) ∧ t.seq.n = (gReg s a - gReg s b).msb ∧
      t.seq.v = ((gReg s a).toInt - (gReg s b).toInt != (gReg s a - gReg s b).toInt) ∧
      t.seq.pc = (s.seq.pc + 4) % 2 ^ 20 / 4 * 4 ∧ t.seq.ram = s.seq.ram ∧ t = { s with seq := t.seq, freeCount := t.freeCount }) ∧
  (∀ (s : State) (d : Fin 32) (v : BitVec 14), atBoundary s = true → fetched s = 0x09 * 2 ^ 24 + d.val * 2 ^ 19 + v.toNat →
    dispatchFault s 0x09 = none → (s.seq.task && s.seq.abort) = false →
    ∃ t, exec (.ldi d v) s = .next t ∧ gReg t d = (if d.val = 0 then 0 else v.setWidth 64) ∧ (∀ k, k ≠ d.val → gReg t k = gReg s k) ∧
      t.seq.z = (v == 0) ∧ t.seq.n = false ∧ t.seq.pc = (s.seq.pc + 4) % 2 ^ 20 / 4 * 4 ∧ t.seq.ram = s.seq.ram ∧
      t = { s with seq := t.seq, freeCount := t.freeCount }) ∧
  (∀ (s : State) (o : BitVec 24), atBoundary s = true → fetched s = 0x52 * 2 ^ 24 + o.toNat → dispatchFault s 0x52 = none →
    (s.seq.task && s.seq.abort) = false →
    ∃ t, exec (.bnz o) s = .next t ∧ t.seq.g = s.seq.g ∧ t.seq.ram = s.seq.ram ∧ t = { s with seq := t.seq } ∧
      (t.seq.pc : Int) = (s.seq.pc + (if s.seq.z = true then 4 else 4 + 4 * o.toInt)) % 2 ^ 20 / 4 * 4) ∧
  (∀ s : State, atBoundary s = true → fetched s = 0x5F * 2 ^ 24 → dispatchFault s 0x5F = none → s.seq.task = true → s.seq.pc < 2 ^ 20 →
    ∃ t, exec .halt s = .next t ∧ t.seq.task = false ∧ rd t 0x8070 = (gReg s 1).toNat % 2 ^ 32 ∧ fld t 0x805C 31 29 = 2 ∧
      flag t 0x8010 0 = true ∧ t.seq.g = s.seq.g ∧ t.seq.ram = s.seq.ram ∧ RegsBut [0x8070, 0x805C, 0x8040, 0x8010] s t) ∧
  (∀ s : State, atBoundary s = true → dispatchFault s (bits (fetched s) 31 24) = none →
    ∃ t, exec .rostalInstruction s = .next t ∧ t.seq.routine = some (freshRoutine s (fetched s) (bits (fetched s) 31 24)) ∧
      t.seq.pc = s.seq.pc ∧ t = { s with seq := t.seq, freeCount := s.freeCount + 1 }) ∧
  (∀ (s : State) (c : Nat), atBoundary s = true → dispatchFault s (bits (fetched s) 31 24) = some c →
    ∃ t, exec .rostalInstruction s = .next t ∧ t = deliverFault s c ∧ t.seq.routine = none) ∧
  (∀ s : State, s.seq.task = true → atBoundary s = true → 0xE0 ≤ bits (fetched s) 31 24 →
    ∃ t, exec .customerInstruction s = .next t ∧ t = runRoutine 4096 (dispatch s) ∧
      (∀ c, dispatchFault s (bits (fetched s) 31 24) = some c → t = deliverFault s c ∧ t.seq.routine = none)) ∧
  (∀ (s : State) (m : Micro) (e : Nat), s.seq.task = true → s.seq.abort = false → atBoundary s = true → 0xE0 ≤ bits (fetched s) 31 24 →
    dispatchFault s (bits (fetched s) 31 24) = none → e = bits (dispatchEntry s (bits (fetched s) 31 24)) 13 0 → 12288 ≤ e →
    storeWord s e = microBits 0x31 m → m.dest.val < 0x1A → m.src.val < 0x1A →
    ∃ t, exec .customerInstruction s = .next t ∧ t.seq.pc = (s.seq.pc + 4) % 2 ^ 20 / 4 * 4 ∧ t.seq.routine = none ∧ t.seq.task = true ∧
      t.seq.g = s.seq.g ∧ t.seq.ram = s.seq.ram ∧ t = { s with seq := t.seq, freeCount := s.freeCount + 1 }) ∧
  (∀ (s : State) (r : Routine), s.seq.task = true → s.seq.routine = some r →
    ∃ t, exec .customerInstruction s = .next t ∧ t = runRoutine 4096 s ∧ (r.upc < 8192 → t = s)) ∧
  (∀ s : State, s.seq.task = false → exec .customerInstruction s = .next s) ∧
  (∀ (s : State) (v : BitVec 64), gReg s 0 = 0 ∧ setG s 0 v = s)

/-- A microword executes where it stands at the routine's address (R368, R371, R374): one of the vendor ROM is what the row says, one of the
RAM is the word stored there. A word that is not the one stored there changes nothing, and a word with a fault of its own is faulted before
it acts. -/
def Obligations.MicrowordsRunWhereTheyStand : Prop :=
  (∀ (s : State) (r : Routine) (m : Micro),
    (Stands s r 0x00 m → ∃ t, exec (.uopNop m) s = .next t ∧ t = runWord s r 0x00 m true) ∧
    (Stands s r 0x01 m → ∃ t, exec (.uopMov m) s = .next t ∧ t = runWord s r 0x01 m true) ∧
    (Stands s r 0x02 m → ∃ t, exec (.uopAlu .add m) s = .next t ∧ t = runWord s r 0x02 m true) ∧
    (Stands s r 0x03 m → ∃ t, exec (.uopAlu .sub m) s = .next t ∧ t = runWord s r 0x03 m true) ∧
    (Stands s r 0x04 m → ∃ t, exec (.uopAlu .and m) s = .next t ∧ t = runWord s r 0x04 m true) ∧
    (Stands s r 0x05 m → ∃ t, exec (.uopAlu .or m) s = .next t ∧ t = runWord s r 0x05 m true) ∧
    (Stands s r 0x06 m → ∃ t, exec (.uopAlu .xor m) s = .next t ∧ t = runWord s r 0x06 m true) ∧
    (Stands s r 0x07 m → ∃ t, exec (.uopShift false m) s = .next t ∧ t = runWord s r 0x07 m true) ∧
    (Stands s r 0x08 m → ∃ t, exec (.uopShift true m) s = .next t ∧ t = runWord s r 0x08 m true) ∧
    (Stands s r 0x09 m → ∃ t, exec (.uopAddi m) s = .next t ∧ t = runWord s r 0x09 m true) ∧
    (Stands s r 0x0A m → ∃ t, exec (.uopLdi m) s = .next t ∧ t = runWord s r 0x0A m true) ∧
    (Stands s r 0x10 m → ∃ t, exec (.uopBranch .br m) s = .next t ∧ t = runWord s r 0x10 m true) ∧
    (Stands s r 0x11 m → ∃ t, exec (.uopBranch .bz m) s = .next t ∧ t = runWord s r 0x11 m true) ∧
    (Stands s r 0x12 m → ∃ t, exec (.uopBranch .bnz m) s = .next t ∧ t = runWord s r 0x12 m true) ∧
    (Stands s r 0x13 m → ∃ t, exec (.uopBranch .bn m) s = .next t ∧ t = runWord s r 0x13 m true) ∧
    (Stands s r 0x14 m → ∃ t, exec (.uopBranch .bc m) s = .next t ∧ t = runWord s r 0x14 m true) ∧
    (Stands s r 0x15 m → ∃ t, exec (.jmpt m) s = .next t ∧ t = runWord s r 0x15 m true) ∧
    (Stands s r 0x16 m → ∃ t, exec (.uopLoop m) s = .next t ∧ t = runWord s r 0x16 m true) ∧
    (Stands s r 0x20 m → ∃ t, exec (.dld m) s = .next t ∧ t = runWord s r 0x20 m true) ∧
    (Stands s r 0x21 m → ∃ t, exec (.dst m) s = .next t ∧ t = runWord s r 0x21 m true) ∧
    (Stands s r 0x22 m → ∃ t, exec (.rrd m) s = .next t ∧ t = runWord s r 0x22 m true) ∧
    (Stands s r 0x23 m → ∃ t, exec (.rwr m) s = .next t ∧ t = runWord s r 0x23 m true) ∧
    (Stands s r 0x24 m → ∃ t, exec (.trd m) s = .next t ∧ t = runWord s r 0x24 m true) ∧
    (Stands s r 0x25 m → ∃ t, exec (.twr m) s = .next t ∧ t = runWord s r 0x25 m true) ∧
    (Stands s r 0x26 m → ∃ t, exec (.uopDma m) s = .next t ∧ t = runWord s r 0x26 m true) ∧
    (Stands s r 0x27 m → ∃ t, exec (.poll m true) s = .next t ∧ t = runWord s r 0x27 m true) ∧
    (Stands s r 0x27 m → ∃ t, exec (.poll m false) s = .next t ∧ t = runWord s r 0x27 m false) ∧
    (Stands s r 0x30 m → ∃ t, exec (.commit m) s = .next t ∧ t = runWord s r 0x30 m true) ∧
    (Stands s r 0x31 m → ∃ t, exec (.uopEnd m) s = .next t ∧ t = runWord s r 0x31 m true) ∧
    (Stands s r 0x32 m → ∃ t, exec (.fault m) s = .next t ∧ t = runWord s r 0x32 m true)) ∧
  (∀ (s : State) (r : Routine) (u c : Nat) (m : Micro) (idle : Bool), wordFault r u m = some c →
    runWord s r u m idle = deliverFault s c ∧ (deliverFault s c).seq.routine = none) ∧
  (∀ (s : State) (r : Routine) (m : Micro), s.seq.routine = some r → 8192 ≤ r.upc → storeWord s r.upc ≠ microBits 0x01 m →
    exec (.uopMov m) s = .next s) ∧
  (∀ (s : State) (m : Micro), s.seq.routine = none → exec (.uopMov m) s = .next s ∧ exec (.dst m) s = .next s ∧
    exec (.uopEnd m) s = .next s)

/-- What the micro-ops compute (R369, R371): on temporaries, with the conditions where SETCC asks for them, what they read of data RAM,
registers and tables, and where the routine goes on. C of a result without carry is a value that the spec does not give (log 12). -/
def Obligations.MicroOpsCompute : Prop :=
  ∀ (s : State) (r : Routine) (m : Micro) (d a : BitVec 64), d = operand s r m.dest → a = operand s r m.src → m.setmf = false →
    (WordStands s r 0x00 m → ∃ t, exec (.uopNop m) s = .next t ∧ t = withRoutine s (afterWord r r (r.upc + 1))) ∧
    (m.dest.val < 16 → m.setcc = false →
      (WordStands s r 0x01 m → ∃ t, exec (.uopMov m) s = .next t ∧ t = wroteTemp s r m a) ∧
      (WordStands s r 0x02 m → ∃ t, exec (.uopAlu .add m) s = .next t ∧ t = wroteTemp s r m (d + a)) ∧
      (WordStands s r 0x03 m → ∃ t, exec (.uopAlu .sub m) s = .next t ∧ t = wroteTemp s r m (d - a)) ∧
      (WordStands s r 0x04 m → ∃ t, exec (.uopAlu .and m) s = .next t ∧ t = wroteTemp s r m (d &&& a)) ∧
      (WordStands s r 0x05 m → ∃ t, exec (.uopAlu .or m) s = .next t ∧ t = wroteTemp s r m (d ||| a)) ∧
      (WordStands s r 0x06 m → ∃ t, exec (.uopAlu .xor m) s = .next t ∧ t = wroteTemp s r m (d ^^^ a)) ∧
      (WordStands s r 0x07 m → ∃ t, exec (.uopShift false m) s = .next t ∧ t = wroteTemp s r m (d <<< (m.aux.val % 64))) ∧
      (WordStands s r 0x08 m → ∃ t, exec (.uopShift true m) s = .next t ∧ t = wroteTemp s r m (d >>> (m.aux.val % 64))) ∧
      (WordStands s r 0x09 m → ∃ t, exec (.uopAddi m) s = .next t ∧ t = wroteTemp s r m (a + BitVec.ofInt 64 (auxInt m))) ∧
      (WordStands s r 0x0A m → ∃ t, exec (.uopLdi m) s = .next t ∧ t = wroteTemp s r m (BitVec.ofNat 64 m.aux.val))) ∧
    (m.dest.val < 16 → m.setcc = true → WordStands s r 0x02 m →
      ∃ t, exec (.uopAlu .add m) s = .next t ∧ t = withRoutine s (afterWord r { r with
        temps := r.temps.set m.dest (some (d + a)), z := d + a == 0, n := (d + a).msb,
          c := decide (2 ^ 64 ≤ d.toNat + a.toNat) } (r.upc + 1))) ∧
    (m.dest.val < 16 → m.setcc = true → WordStands s r 0x03 m →
      ∃ t c, exec (.uopAlu .sub m) s = .next t ∧ t = { withRoutine s (afterWord r { r with
        temps := r.temps.set m.dest (some (d - a)), z := d - a == 0, n := (d - a).msb,
          c := c } (r.upc + 1)) with freeCount := s.freeCount + 1 }) ∧
    (0x10 ≤ m.dest.val → m.dest.val ≤ 0x12 → m.setcc = false → r.restart = false → WordStands s r 0x01 m →
      ∃ t, exec (.uopMov m) s = .next t ∧ t = withRoutine (setG s (fieldReg r m.dest) a) (afterWord r r (r.upc + 1))) ∧
    (r.entry < 12288 →
      (WordStands s r 0x10 m → ∃ t, exec (.uopBranch .br m) s = .next t ∧ t = withRoutine s (afterWord r r (goesTo r m true))) ∧
      (WordStands s r 0x11 m → ∃ t, exec (.uopBranch .bz m) s = .next t ∧ t = withRoutine s (afterWord r r (goesTo r m r.z))) ∧
      (WordStands s r 0x12 m → ∃ t, exec (.uopBranch .bnz m) s = .next t ∧ t = withRoutine s (afterWord r r (goesTo r m (!r.z)))) ∧
      (WordStands s r 0x13 m → ∃ t, exec (.uopBranch .bn m) s = .next t ∧ t = withRoutine s (afterWord r r (goesTo r m r.n))) ∧
      (WordStands s r 0x14 m → ∃ t, exec (.uopBranch .bc m) s = .next t ∧ t = withRoutine s (afterWord r r (goesTo r m r.c))) ∧
      (WordStands s r 0x15 m → ∃ t, exec (.jmpt m) s = .next t ∧ t = withRoutine s (afterWord r r (a.toNat % 16384))) ∧
      (∀ v, v = operand s r 0x18 - 1 → WordStands s r 0x16 m →
        ∃ t, exec (.uopLoop m) s = .next t ∧ t = withRoutine s (afterWord r { r with loop := some v } (goesTo r m (v != 0))))) ∧
    (m.setcc = false → r.buffer = [] → ramAllowed s r = true → WordStands s r 0x20 m →
      ∃ t, exec (.dld m) s = .next t ∧
        t = withRoutine s (afterWord r { r with mdr := some (BitVec.ofNat 64 (ramRead s (marRam s r) 8)) } (r.upc + 1))) ∧
    (m.setcc = false → r.buffer = [] → ∀ n, n = marOf s r % 2 ^ 26 → (s.seq.task = false ∨ taskReads n = true) →
      (r.restart = false ∨ r.committed = true ∨ readEffect n = false) → WordStands s r 0x22 m →
      ∃ t, exec (.rrd m) s = .next t ∧ t = withRoutine (readAt s (seqSource s) n).2
          (afterWord r { r with mdr := some (BitVec.ofNat 64 (readAt s (seqSource s) n).1) } (r.upc + 1)) ∧
        t.tabs = s.tabs ∧ t.queues = s.queues ∧ t.seq.g = s.seq.g ∧ t.seq.ram = s.seq.ram) ∧
    (∀ n, n = m.aux.val % 256 → r.buffer = [] → r.temps.length = 16 → entryExists s n a.toNat = true → WordStands s r 0x24 m →
      ∃ t r', exec (.trd m) s = .next t ∧ t = withRoutine (wakeTable s n a.toNat 1) (afterWord r r' (r.upc + 1)) ∧ t.tabs = s.tabs ∧
        t.regs = s.regs ∧ t.seq.g = s.seq.g ∧
        (∀ k, k < tableBytes n / 8 → m.dest.val + k < 16 → r'.temps.getD (m.dest.val + k) none =
          some (BitVec.ofNat 64 (bits (BitVec.ofNat 512 (entryImage s false n a.toNat)).toNat (64 * k + 63) (64 * k)))) ∧
        ∀ j, j < m.dest.val → r'.temps.getD j none = r.temps.getD j none) ∧
    (∀ idle, WordStands s r 0x27 m → ∃ t, exec (.poll m idle) s = .next t ∧
      t = withRoutine s (afterWord r { r with z := idle } (r.upc + 1))) ∧
    (WordStands s r 0x31 m → ∃ t, exec (.uopEnd m) s = .next t ∧ t = endMacro s (s.seq.pc + 4) ∧ t.seq.routine = none ∧ t.seq.g = s.seq.g ∧
      t.seq.ram = s.seq.ram ∧ ((s.seq.task && s.seq.abort) = false → t.seq.pc = (s.seq.pc + 4) % 2 ^ 20 / 4 * 4 ∧
        t = { s with seq := t.seq })) ∧
    (WordStands s r 0x32 m → ∃ t, exec (.fault m) s = .next t ∧ t = deliverFault s (m.aux.val % 256) ∧ t.seq.routine = none ∧
      t.seq.g = s.seq.g ∧ t.seq.ram = s.seq.ram)

/-- RESTART mode (R375 to R378: DST, RWR, TWR, DMA, COMMIT, SEQ_INTERRUPT): before COMMIT an architectural write goes to the buffer and
nothing else changes, the 17th is WB_OVERFLOW, an interrupt abandons the routine with no architectural change, and COMMIT drains the buffer
in program order. In BOUNDARY mode a write takes effect at once, and an interrupt waits. -/
def Obligations.RestartRoutinesChangeNothingBeforeCommit : Prop :=
  (∀ (s : State) (r : Routine) (m : Micro), r.restart = true → r.committed = false → r.buffer.length < 16 → WordStands s r 0x21 m →
    ramAllowed s r = true →
    ∃ t, exec (.dst m) s = .next t ∧ t = buffers s r (.ram (marRam s r) (operand s r m.src))) ∧
  (∀ (s : State) (r : Routine) (m : Micro), r.restart = true → r.committed = false → r.buffer.length < 16 → WordStands s r 0x23 m →
    (s.seq.task = false ∨ taskWrites (marOf s r % 2 ^ 26) = true) →
    ∃ t, exec (.rwr m) s = .next t ∧ t = buffers s r (.device (marOf s r % 2 ^ 26) ((operand s r m.src).setWidth 32))) ∧
  (∀ (s : State) (r : Routine) (m : Micro) (n : Nat), r.restart = true → r.committed = false → r.buffer.length < 16 →
    WordStands s r 0x25 m →
    n = m.aux.val % 256 → entryExists s n (operand s r m.src).toNat = true → (s.seq.task = false ∨ (n ≠ 2 ∧ tableReadOnly n = false)) →
    ∃ t v, exec (.twr m) s = .next t ∧ t = buffers s r (.table n (operand s r m.src).toNat v) ∧
      (m.dest.val < 16 → bits v.toNat 63 0 = (operand s r m.dest).toNat)) ∧
  (∀ (s : State) (r : Routine) (m : Micro) (ws : List Nat), r.restart = true → r.committed = false → r.buffer.length < 16 →
    WordStands s r 0x26 m →
    ws = (List.range 4).map (fun k => (operand s r (12 + k)).toNat) →
    (s.seq.task = false ∨ (bitAt m.aux.val 0 = false ∧ dmaAllowed s ws = true)) →
    ∃ t, exec (.uopDma m) s = .next t ∧ t = buffers s r (.dma (bitAt m.aux.val 0) ws)) ∧
  (∀ (s : State) (r : Routine) (m : Micro), r.restart = true → r.committed = false → 16 ≤ r.buffer.length → WordStands s r 0x21 m →
    ramAllowed s r = true → ∃ t, exec (.dst m) s = .next t ∧ t = deliverFault s 4 ∧ t.seq.ram = s.seq.ram) ∧
  (∀ (s : State) (r : Routine) (m : Micro), r.restart = true → WordStands s r 0x30 m →
    ∃ t, exec (.commit m) s = .next t ∧ t = withRoutine (r.buffer.foldl applyWrite s)
      (afterWord r { r with buffer := [], committed := true, after := 0 } (r.upc + 1))) ∧
  (∀ (s : State) (r : Routine) (m : Micro), r.restart = false → WordStands s r 0x30 m →
    ∃ t, exec (.commit m) s = .next t ∧ t = withRoutine s (afterWord r r (r.upc + 1))) ∧
  (∀ (s : State) (r : Routine) (m : Micro), r.restart = false → WordStands s r 0x21 m → ramAllowed s r = true →
    ∃ t, exec (.dst m) s = .next t ∧
      t = withRoutine (ramWrite s (marRam s r) 8 (operand s r m.src).toNat) (afterWord r r (r.upc + 1)) ∧
        ramRead t (marRam s r) 8 = (operand s r m.src).toNat) ∧
  (∀ (s : State) (r : Routine) (m : Micro), r.restart = false → WordStands s r 0x23 m →
    (s.seq.task = false ∨ taskWrites (marOf s r % 2 ^ 26) = true) →
    ∃ t, exec (.rwr m) s = .next t ∧ t = withRoutine (busWrite s (seqSource s) (marOf s r % 2 ^ 26) 4 ((operand s r m.src).setWidth 32).toNat true)
      (afterWord r r (r.upc + 1))) ∧
  (∀ (s : State) (r : Routine) (m : Micro) (n : Nat), r.restart = false → WordStands s r 0x25 m → n = m.aux.val % 256 →
    entryExists s n (operand s r m.src).toNat = true → (s.seq.task = false ∨ (n ≠ 2 ∧ tableReadOnly n = false)) →
    ∃ t v, exec (.twr m) s = .next t ∧
      t = withRoutine (tableWrite s n (operand s r m.src).toNat [v] true).2 (afterWord r r (r.upc + 1)) ∧
      (m.dest.val < 16 → bits v.toNat 63 0 = (operand s r m.dest).toNat)) ∧
  (∀ (s : State) (r : Routine) (m : Micro) (ws : List Nat), r.restart = false → WordStands s r 0x26 m →
    ws = (List.range 4).map (fun k => (operand s r (12 + k)).toNat) →
    (s.seq.task = false ∨ (bitAt m.aux.val 0 = false ∧ dmaAllowed s ws = true)) →
    ∃ t, exec (.uopDma m) s = .next t ∧ t.out = s.out ++ [.low "SEQ_DMA" (bit (bitAt m.aux.val 0) :: ws)] ∧
      t = { withRoutine s (afterWord r r (r.upc + 1)) with out := t.out }) ∧
  (∀ (s : State) (r : Routine) (m : Micro), s.seq.task = true → bitAt m.aux.val 0 = true → WordStands s r 0x26 m →
    ∃ t, exec (.uopDma m) s = .next t ∧ t = deliverFault s 8 ∧ t.seq.task = false) ∧
  (∀ (s : State) (r : Routine), seqRuns s = true → s.seq.routine = some r → r.restart = true → r.committed = false → s.seq.abandoned < 8 →
    ∃ t, exec .seqInterrupt s = .next t ∧ t.seq.abandoned = s.seq.abandoned + 1 ∧ t.seq.g = s.seq.g ∧ t.seq.ram = s.seq.ram ∧
      t.seq.pc = s.seq.pc ∧ t.regs = s.regs ∧ t.tabs = s.tabs ∧ t.out = s.out ∧
      t.seq.routine = some { entry := r.entry, upc := r.entry, word := r.word, opcode := r.opcode, restart := r.restart, seed := s.freeCount }) ∧
  (∀ (s : State) (r : Routine), seqRuns s = true → s.seq.routine = some r → (r.restart = false ∨ r.committed = true ∨ 8 ≤ s.seq.abandoned) →
    exec .seqInterrupt s = .next { s with seq := { s.seq with interrupt := true } }) ∧
  (∀ (r : Routine) (m : Micro), r.committed = true → r.after < 64 → m.dest.val < 0x1A → m.src.val < 0x1A → wordFault r 0x30 m = some 5)

/-- Customer tasks and what meets them (TASK_GO, TASK_ABORT, MICRO_FAULT, WAIT_TIMEOUT, SEQ_DRAM_ACCESS, UCODE_LOAD, SEQ_ECC_ERROR; R370,
R380, R381, R383, R384, R386): GO starts a task with its arguments, or raises BUSY or ACCESS; ABORT ends it at a boundary; a fault is
recorded with its cause and ends a task; the DRAM window reads and writes the customer region alone; and a load of microcode is refused with
its status or installed. The ENTRY bits that count for nothing are the model's reading (log 26). -/
def Obligations.TasksStartEndAndFault : Prop :=
  (∀ (s : State) (src : Source) (e : BitVec 20), Admitted s src 0x8058 → seqRuns s = true → s.seq.task = false →
    inCustomerRam e.toNat = true →
    ∃ t, exec (.taskGo src e) s = .next t ∧ t.seq.task = true ∧ t.seq.pc = e.toNat / 4 * 4 ∧ fld t 0x805C 31 29 = 1 ∧
      (∀ k, k < 4 → gReg t (k + 1) = BitVec.ofNat 64 (rd s (0x8060 + k * 4))) ∧ (∀ k, 4 < k → gReg t k = 0) ∧
      t.seq.z = false ∧ t.seq.n = false ∧ t.seq.c = false ∧ t.seq.v = false ∧ t.seq.ram = s.seq.ram ∧
      RegsBut [0x8058, 0x805C, 0x8040] s t) ∧
  (∀ (s : State) (src : Source) (e : BitVec 20), Admitted s src 0x8058 → seqRuns s = true → s.seq.task = false →
    inCustomerRam e.toNat = false →
    ∃ t, exec (.taskGo src e) s = .next t ∧ t.seq = s.seq ∧ rd t 0x805C = 3 * 2 ^ 29 + 8 * 2 ^ 24 + e.toNat ∧ flag t 0x8010 1 = true ∧
      RegsBut [0x8058, 0x805C, 0x8010] s t) ∧
  (∀ (s : State) (src : Source) (e : BitVec 20), Admitted s src 0x8058 → seqRuns s = true → s.seq.task = true →
    ∃ t, exec (.taskGo src e) s = .next t ∧ t.seq = s.seq ∧ fld t 0x805C 28 24 = 0xE ∧ flag t 0x8010 1 = true ∧
      RegsBut [0x805C, 0x8010] s t) ∧
  (∀ (s : State) (src : Source), Admitted s src 0x8058 → s.seq.task = true → s.seq.routine = none → s.seq.pc < 2 ^ 20 →
    ∃ t, exec (.taskAbort src) s = .next t ∧ t.seq.task = false ∧ rd t 0x805C = 4 * 2 ^ 29 + s.seq.pc ∧ flag t 0x8010 1 = true ∧
      RegsBut [0x805C, 0x8040, 0x8010] s t) ∧
  (∀ (s : State) (src : Source) (r : Routine), Admitted s src 0x8058 → s.seq.task = true → s.seq.routine = some r →
    ∃ t, exec (.taskAbort src) s = .next t ∧ t.seq = { s.seq with abort := true } ∧ t.regs = s.regs) ∧
  (∀ (s : State) (c : Fin 16), seqRuns s = true → 1 ≤ c.val → c.val ≤ 0xD → ∃ t, exec (.microFault c) s = .next t ∧ t = deliverFault s c ∧
    t.seq.routine = none ∧ t.seq.task = false ∧ rd t 0x8048 = s.seq.pc % 2 ^ 32 ∧ t.seq.g = s.seq.g ∧ t.seq.ram = s.seq.ram ∧
      t.tabs = s.tabs) ∧
  (∀ (s : State) (c : Nat), c < 16 → s.seq.routine = none → s.seq.task = true → s.seq.pc < 2 ^ 20 →
    rd (deliverFault s c) 0x8044 = c * 2 ^ 28 + 2 ^ 27 ∧ rd (deliverFault s c) 0x8048 = s.seq.pc ∧
    (deliverFault s c).seq.task = false ∧ fld (deliverFault s c) 0x805C 31 29 = 3 ∧ fld (deliverFault s c) 0x805C 28 24 = c ∧
    flag (deliverFault s c) 0x8010 1 = true) ∧
  (∀ (s : State) (r : Routine), s.seq.routine = some r → waitsForUnit s r = true →
    (r.restart = false ∨ r.committed = true ∨ 127 ≤ s.seq.waits) →
    ∃ t, exec .waitTimeout s = .next t ∧ t = deliverFault (issued s r) 3 ∧ t.seq.routine = none ∧ (r.upc < 8192 → issued s r = s)) ∧
  (∀ (s : State) (r : Routine), s.seq.routine = some r → waitsForUnit s r = true → r.restart = true → r.committed = false →
    s.seq.waits < 127 →
    ∃ t, exec .waitTimeout s = .next t ∧ t.seq.waits = s.seq.waits + 1 ∧ t.seq.g = s.seq.g ∧ t.seq.ram = s.seq.ram ∧ t.tabs = s.tabs ∧
      (r.upc < 8192 → t.regs = s.regs)) ∧
  (∀ (s : State) (src : Source) (v : Word32), Admitted s src 0x8078 → inCustomerRam (dramAddr s) = true →
    ∃ t, exec (.seqDramAccess src (some v)) s = .next t ∧ ramRead t (dramAddr s) 4 = v.toNat ∧
      (∀ a, (∀ i, i < 4 → a % 2 ^ 20 ≠ dramAddr s + i) → ramByte t a = ramByte s a) ∧
      fld t 0x8074 19 2 = (fld s 0x8074 19 2 + 1) % 2 ^ 18 ∧ RegsBut [0x8074] s t) ∧
  (∀ (s : State) (src : Source), heldInReset s .sequencer = false → mayRead s src 0x8078 = true → inCustomerRam (dramAddr s) = true →
    ∃ t, exec (.seqDramAccess src none) s = .next t ∧ t.out = s.out ++ [.value src 0x8078 (ramRead s (dramAddr s) 4)] ∧ t.seq = s.seq ∧
      RegsBut [0x8074] s t) ∧
  (∀ (s : State) (src : Source) (image : ImageCheck) (v : BitVec 16) (entries words : List Word32), entries.length = 32 →
    Admitted s src 0x8054 → s.firmware.running = true → s.seq.task = true →
    ∃ t, exec (.ucodeLoad src image v entries words) s = .next t ∧ fld t 0x8054 30 28 = 4 ∧ t.seq = s.seq ∧ RegsBut [0x8054] s t) ∧
  (∀ (s : State) (src : Source) (image : ImageCheck) (v : BitVec 16) (entries words : List Word32), entries.length = 32 →
    Admitted s src 0x8054 → s.firmware.running = true → s.seq.task = false → image.readOk = true → s.colophon.ownerDigest.isSome = true →
    image.authentic = true → image.signer = 0xF → s.colophon.ownerRevoked = false → (s.colophon.lifecycle = 1 ∨ s.colophon.lifecycle = 2) →
    words.length ≤ 4096 → entries.all entryGood = true →
    ∃ t, exec (.ucodeLoad src image v entries words) s = .next t ∧ fld t 0x8054 30 28 = 0 ∧ flag t 0x8040 28 = true ∧
      fld t 0x8040 15 0 = v.toNat ∧ flag t 0x8010 2 = true ∧ t.seq.ram = s.seq.ram ∧ RegsBut [0x8054, 0x8040, 0x8010] s t ∧
      (∀ k, k < 32 → dispatchEntry t (0xE0 + k) = (entries.getD k 0).toNat) ∧
      (∀ k, k < words.length → storeWord t (12288 + k) = (words.getD k 0).toNat)) ∧
  (∀ (s : State) (ram : Bool) (a : Nat), coreRuns s = true →
    ∃ t, exec (.seqEccError ram a true) s = .next t ∧ t = report (tally s 0x80CC) 0x0101 .sequencer [a] ∧ t.seq = s.seq ∧ t.tabs = s.tabs ∧
      t.queues = s.queues) ∧
  (∀ (s : State) (a : Nat), coreRuns s = true → inCustomerRam a = false →
    ∃ t, exec (.seqEccError true a false) s = .next t ∧ t = fatalError s 0x0107 ∧ (claims s = false → flag t 0x2094 31 = true) ∧
      t.clock = s.clock) ∧
  (∀ (s : State) (a : Nat), coreRuns s = true → inCustomerRam a = true → s.seq.task = true →
    ∃ t, exec (.seqEccError true a false) s = .next t ∧ t.seq.task = false ∧ fld t 0x805C 31 29 = 3 ∧ fld t 0x805C 28 24 = 0xB ∧
      t.seq.ram = s.seq.ram) ∧
  (∀ (s : State) (a : Nat), coreRuns s = true → 12288 ≤ a → s.seq.task = false →
    ∃ t, exec (.seqEccError false a false) s = .next t ∧ flag t 0x8040 28 = false ∧ t.seq.routine = s.seq.routine ∧
      (∀ k, k < 32 → dispatchEntry t (0xE0 + k) = 0))

/-! ### Security and identity -/

/-- Keys, owner and debug (R390 to R392, R400, R401): ZEROISE draws a new spill key and shows ZEROISED, an enrolment is refused with its
status or writes the owner's digest once, a debug token opens debug only when it is good and for this device and nonce, CLOSE ends it,
and a failure of the entropy source is the error state. -/
def Obligations.KeysOwnerAndDebug : Prop :=
  (∀ (s : State) (src : Source), Admitted s src 0x1050 → colophonError s = false →
    ∃ t, exec (.zeroise src) s = .next t ∧ t = raise (drawSpillKey (let u := zeroiseKeys (discardAll (atRegister s src 0x1050));
      { u with colophon := { u.colophon with seeded := true } })) .colophon 1 ∧
      t.colophon = { s.colophon with spillKey := true, seeded := true } ∧ t.spill.keyDrawn = true ∧ flag t 0x1010 1 = true ∧
      t.clock = s.clock ∧ t.regsCur = s.regsCur ∧ t.seq = s.seq ∧ t.firmware = s.firmware) ∧
  (∀ (s : State) (src : Source), Admitted s src 0x1050 → colophonError s = true →
    ∃ t, exec (.zeroise src) s = .next t ∧ t = { s with access := t.access }) ∧
  (∀ (s : State) (src : Source) (d : List Word32), d.length = 12 → Admitted s src 0x104C → colophonError s = false →
    (s.colophon.lifecycle = 1 ∨ s.colophon.lifecycle = 2) → s.colophon.ownerDigest = none → s.colophon.ownerSpent = false →
    ∃ t, exec (.ownerEnrol src true true d) s = .next t ∧ t.colophon = { s.colophon with ownerDigest := some d } ∧ fld t 0x104C 30 28 = 0 ∧
      flag t 0x1010 0 = true ∧ RegsBut [0x104C, 0x1010] s t) ∧
  (∀ (s : State) (src : Source) (d : List Word32), d.length = 12 → Admitted s src 0x104C → colophonError s = false →
    (s.colophon.lifecycle = 1 ∨ s.colophon.lifecycle = 2) → s.colophon.ownerDigest = none → s.colophon.ownerSpent = false →
    ∃ t, exec (.ownerEnrol src true false d) s = .next t ∧ t.colophon = { s.colophon with ownerSpent := true } ∧ fld t 0x104C 30 28 = 3 ∧
      RegsBut [0x104C] s t) ∧
  (∀ (s : State) (src : Source) (onCurve ok : Bool) (d : List Word32), d.length = 12 → Admitted s src 0x104C → colophonError s = false →
    s.colophon.ownerDigest.isSome = true →
    ∃ t, exec (.ownerEnrol src onCurve ok d) s = .next t ∧ t.colophon = s.colophon ∧ fld t 0x104C 30 28 = 1 ∧ RegsBut [0x104C] s t) ∧
  (∀ (s : State) (src : Source) (image : ImageCheck) (serial : BitVec 64) (n : List Word32), n.length = 3 → Admitted s src 0x1078 →
    colophonError s = false → debugOpen s = false → (image.readOk && image.authentic && signerGood s image.signer) = false →
    ∃ t, exec (.debugToken src image serial n) s = .next t ∧
      t = drawNonce (setFld (emit (atRegister s src 0x1078) (.hostRead (rd s 0x1074 * 2 ^ 32 + rd s 0x1070) 276)) 0x1078 29 28 1) ∧
      fld t 0x1078 29 28 = 1 ∧ t.colophon = s.colophon ∧ t.freeCount = s.freeCount + 1 ∧ RegsBut [0x1060, 0x1064, 0x1068, 0x1078] s t) ∧
  (∀ (s : State) (src : Source) (image : ImageCheck) (serial : BitVec 64) (n : List Word32), n.length = 3 → Admitted s src 0x1078 →
    colophonError s = false → debugOpen s = false → (image.readOk && image.authentic && signerGood s image.signer) = true →
    (serial ≠ s.colophon.serial ∨ n.map (·.toNat) ≠ (List.range 3).map (fun k => rd s (0x1060 + k * 4))) →
    ∃ t, exec (.debugToken src image serial n) s = .next t ∧ fld t 0x1078 29 28 = 2 ∧ t.colophon = s.colophon ∧
      t.freeCount = s.freeCount + 1 ∧ RegsBut [0x1060, 0x1064, 0x1068, 0x1078] s t) ∧
  (∀ (s : State) (src : Source) (image : ImageCheck) (serial : BitVec 64) (n : List Word32), n.length = 3 → Admitted s src 0x1078 →
    colophonError s = false → debugOpen s = false → (image.readOk && image.authentic && signerGood s image.signer) = true →
    serial = s.colophon.serial → n.map (·.toNat) = (List.range 3).map (fun k => rd s (0x1060 + k * 4)) →
    ∃ t, exec (.debugToken src image serial n) s = .next t ∧ t.colophon.debugByToken = true ∧ debugOpen t = true ∧
      t.colophon = { s.colophon with spillKey := true, seeded := true, debugByToken := true } ∧ fld t 0x1078 29 28 = 0 ∧
      flag t 0x1010 3 = true ∧ t.clock = s.clock ∧ t.seq = s.seq) ∧
  (∀ (s : State) (src : Source) (image : ImageCheck) (serial : BitVec 64) (n : List Word32), n.length = 3 → Admitted s src 0x1078 →
    colophonError s = false → debugOpen s = true →
    ∃ t, exec (.debugToken src image serial n) s = .next t ∧ fld t 0x1078 29 28 = 3 ∧ t.colophon = s.colophon ∧ RegsBut [0x1078] s t) ∧
  (∀ (s : State) (src : Source), Admitted s src 0x1078 →
    ∃ t, exec (.debugClose src) s = .next t ∧ t.colophon = { s.colophon with debugByToken := false } ∧ t.regs = s.regs) ∧
  (∀ s : State, colophonError s = false → s.startup.railsUp = true → s.startup.resetting = false →
    ∀ u, u = discardAll (raise (setFlag s 0x1040 27 true) .colophon 2) →
    ∃ t, exec .entropyFailure s = .next t ∧
      t = deviceFatal (if kettleState u = 0 then u else kettleLeave u 0 0) 0x0801 28 .colophon [] ∧ t.clock = s.clock ∧
      t.colophon = s.colophon ∧ t.seq = s.seq ∧ t.firmware = s.firmware ∧ t.startup = s.startup ∧
      (t.power.hold = true ∨ ∃ at_, t.errors.resetAt = some (at_, 6))) ∧
  (∀ s : State, colophonError s = true → exec .entropyFailure s = .next s)

/-- The secure boot (R393 to R396): an image that is authentic, signed by a Kertuhal key in force and not rolled back starts firmware from
its slot, awaiting confirmation; any other fails the boot; CONFIRM keeps the slot and raises the anti-rollback value, never lowers it. What
a failed boot does next is the model's reading (log 25). -/
def Obligations.BootsStartOnlyGoodFirmware : Prop :=
  (∀ (s : State) (image : ImageCheck) (v pv : Word32) (patch entries : List Word32) (trusted : BitVec 64), entries.length = 224 →
    bootDue s = true → image.readOk = true → image.authentic = true → image.signer ≤ 3 → signerGood s image.signer = true →
    s.colophon.antiRollback ≤ image.svn →
    ∃ t, exec (.firmwareBoot image v pv patch entries trusted) s = .next t ∧
      t = firmwareStart s (flag s 0x2080 30 != s.firmware.fellBack) image v.toNat pv.toNat patch entries trusted.toNat ∧
      t.firmware.running = true ∧ bootState t = 1 ∧ flag t 0x2080 29 = (flag s 0x2080 30 != s.firmware.fellBack) ∧
      seqInReset t = false ∧ t.firmware.svn = image.svn) ∧
  (∀ (s : State) (slot : Bool) (image : ImageCheck) (v pv : Nat) (patch entries : List Word32) (trusted : Nat),
    (firmwareStart s slot image v pv patch entries trusted).firmware.running = true ∧
    bootState (firmwareStart s slot image v pv patch entries trusted) = 1 ∧
    flag (firmwareStart s slot image v pv patch entries trusted) 0x2080 29 = slot ∧
    seqInReset (firmwareStart s slot image v pv patch entries trusted) = false) ∧
  (∀ (s : State) (image : ImageCheck) (v pv : Word32) (patch entries : List Word32) (trusted : BitVec 64), entries.length = 224 →
    bootDue s = true → (image.readOk = false ∨ image.authentic = false ∨ 3 < image.signer ∨ image.svn < s.colophon.antiRollback) →
    ∃ t, exec (.firmwareBoot image v pv patch entries trusted) s = .next t ∧ t = bootFails s ∧ t.firmware.running = false ∧
      settled t = settled s) ∧
  (∀ s : State, bootDue s = true → ∃ t, exec .bootFailure s = .next t ∧ t = bootFails s ∧ t.firmware.running = false ∧
    (s.firmware.fellBack = false → t.firmware = { s.firmware with fellBack := true, bootFailed := true } ∧ t.startup = s.startup) ∧
    (s.firmware.fellBack = true → t.startup = { s.startup with recovery := true } ∧ flag t 0x2094 27 = true) ∧ settled t = settled s) ∧
  (∀ s : State, bootDue s = false → exec .bootFailure s = .next s) ∧
  (∀ s : State, s.firmware.fellBack = true → (bootFails s).startup.recovery = true ∧ bootState (bootFails s) = 3) ∧
  (∀ (s : State) (src : Source), Admitted s src 0x2080 → src ≠ .i2c → bootState s = 1 →
    ∃ t, exec (.confirm src) s = .next t ∧ bootState t = 2 ∧ flag t 0x2080 30 = flag s 0x2080 29 ∧ t.firmware.fellBack = false ∧
      t.colophon.antiRollback = max s.colophon.antiRollback (min 128 s.firmware.svn) ∧ RegsBut [0x2080] s t)

/-- Attestation over DOE (R397): served over a link that is up, a request before the negotiation is an UnexpectedRequest, a device in its
error state or without its identity key does not sign, only slot 0 exists, and every other request is answered; what lies in the answers
beyond the spec's words is free. The codes of the answers are those of DSP0274, presumed (log 23). -/
def Obligations.AttestationAnswers : Prop :=
  (∀ s : State, doeServes s = true →
    (∃ t, exec .getVersion s = .next t ∧ t.colophon = { s.colophon with negotiated := false } ∧ t.regs = s.regs ∧
      t.out.length = s.out.length + 1) ∧
    (∃ t, exec .getCapabilities s = .next t ∧ t.colophon = s.colophon ∧ t.regs = s.regs ∧ t.out.length = s.out.length + 1) ∧
    (∃ t, exec .negotiateAlgorithms s = .next t ∧ t.colophon = { s.colophon with negotiated := true } ∧ t.regs = s.regs ∧
      t.out.length = s.out.length + 1) ∧
    (∀ code, exec (.unsupportedRequest code) s = .next { s with out := s.out ++ [.response 100 [0x7F, 7, code]] })) ∧
  (∀ (s : State) (slot a b i : Nat) (signed : Bool) (n : List Nat), doeServes s = true → s.colophon.negotiated = false →
    ∃ t, t = { s with out := s.out ++ [.response 100 [0x7F, 4]] } ∧ exec (.getDigests slot) s = .next t ∧
      exec (.getCertificate slot a b) s = .next t ∧ exec (.challenge slot n) s = .next t ∧ exec (.getMeasurements i signed n) s = .next t) ∧
  (∀ (s : State) (a b : Nat) (n : List Nat), doeServes s = true → s.colophon.negotiated = true → colophonError s = false →
    s.colophon.identity = true →
    (∃ t w, exec (.getDigests 0) s = .next t ∧ t = { s with out := s.out ++ [.response 100 (1 :: w)], freeCount := s.freeCount + 1 }) ∧
    (∃ t w, exec (.getCertificate 0 a b) s = .next t ∧
      t = { s with out := s.out ++ [.response 100 (2 :: a :: b :: w)], freeCount := s.freeCount + 1 }) ∧
    (∃ t w, exec (.challenge 0 n) s = .next t ∧
      t = { s with out := s.out ++ [.response 100 (3 :: n ++ w)], freeCount := s.freeCount + 1 }) ∧
    (exec (.getMeasurements 0 false n) s = .next { s with out := s.out ++ [.response 100 [0x60, 6]], freeCount := s.freeCount + 1 })) ∧
  (∀ (s : State) (slot : Nat) (n : List Nat), doeServes s = true → s.colophon.negotiated = true → colophonError s = false →
    s.colophon.identity = true → slot ≠ 0 →
    exec (.challenge slot n) s = .next { s with out := s.out ++ [.response 100 [0x7F, 1]] }) ∧
  (∀ (s : State) (n : List Nat), doeServes s = true → s.colophon.negotiated = true → s.colophon.identity = false →
    exec (.challenge 0 n) s = .next { s with out := s.out ++ [.response 100 [0x7F, 5]] })

/-! ### Start-up, resets and errors -/

/-- Power-up and resets (R406 to R413, R438, R447): the always-on supplies come first, the core's rails start service, a short low pulse of
SYS_RESET_N is nothing, a long one a cold reset, and any other a warm reset; a warm reset names its cause and keeps device time, a cold one
wipes all but OTP, a slice reset its ports; a lost rail takes the core down. Where a reset meets recovery, and where a cold reset leaves the
rails, are the model's readings (log 25). -/
def Obligations.PowerUpsAndResets : Prop :=
  (∀ (s : State) (seatB : Bool) (a : Fin 4), s.startup.aonUp = false →
    ∃ t, exec (.powerUp seatB a) s = .next t ∧ t.startup.aonUp = true ∧ t.startup.railsUp = false ∧ flag t 0x604C 24 = seatB ∧
      t.pins.corePower = true ∧ t.pins.i2cAddress = 0x58 + a.val ∧ t.colophon.lifecycle = s.colophon.lifecycle ∧
      t.colophon.ownerDigest = s.colophon.ownerDigest) ∧
  (∀ (s : State) (seatB : Bool) (a : Fin 4), s.startup.aonUp = true → exec (.powerUp seatB a) s = .next s) ∧
  (∀ s : State, s.startup.aonUp = true → s.startup.railsUp = false → s.power.inStandby = false →
    ∃ t, exec (.coreRailsInRange true true) s = .next t ∧ t.startup.railsUp = true ∧ t.startup.resetting = false ∧
      inService t = (!s.startup.bootStopped && !s.startup.bistFailed) ∧ t.pins.present = true ∧ flag t 0x1040 28 = true ∧
      (s.startup.island = false → t.clock = {} ∧ t.startup.island = true ∧ flag t 0x4078 31 = true) ∧
      (s.startup.island = true → t.clock = s.clock) ∧ (s.host.inReset = false → t.host.linkUp = true)) ∧
  (∀ (s : State) (bist : Bool), s.startup.aonUp = true → s.startup.railsUp = false → s.power.inStandby = false →
    ∃ t, exec (.coreRailsInRange false bist) s = .next t ∧ t.startup.railsUp = true ∧ t.startup.bootStopped = true ∧ inService t = false ∧
      flag t 0x1040 27 = true ∧ flag t 0x2094 28 = true) ∧
  (∀ (s : State) (n : Nat), n < 1000 → exec (.sysResetN n) s = .next s) ∧
  (∀ (s : State) (n : Nat), s.startup.aonUp = true → 200000000 ≤ n → ∃ t, exec (.sysResetN n) s = .next t ∧
    t = coldReset s 2 s.pins.seatB ∧ rd t 0x2090 = 2 ∧ flag t 0x604C 24 = s.pins.seatB ∧ t.startup = { aonUp := true } ∧ t.queues = [] ∧
    t.colophon.lifecycle = s.colophon.lifecycle) ∧
  (∀ (s : State) (n : Nat), s.startup.aonUp = true → 1000 ≤ n → n < 200000000 → s.power.inStandby = false → coreRuns s = true →
    ∃ t, exec (.sysResetN n) s = .next t ∧ t = beginReset s 3 ∧ t.startup.resetting = true ∧ t.startup.railsUp = true ∧
      t.clock = { s.clock with coreTenths := 0 } ∧ t.queues = [] ∧ t.tabs = [] ∧ t.pending = s.pending) ∧
  (∀ (s : State) (n : Nat), s.startup.aonUp = true → 1000 ≤ n → n < 200000000 → s.power.inStandby = true →
    ∃ t, exec (.sysResetN n) s = .next t ∧ t.power.inStandby = false ∧ rd t 0x2090 = 9 ∧ t.pins.corePower = true ∧ t.startup = s.startup) ∧
  (∀ (s : State) (c : Nat), s.startup.resetting = false → s.startup.railsUp = true → s.power.inStandby = false →
    (beginReset s c).startup.resetting = true ∧ (beginReset s c).clock = { s.clock with coreTenths := 0 } ∧ (beginReset s c).queues = [] ∧
    (beginReset s c).tabs = [] ∧ (beginReset s c).colophon.lifecycle = s.colophon.lifecycle) ∧
  (∀ (s : State) (c : Fin 256) (bist : Bool), s.startup.railsUp = true → s.startup.resetting = true → s.power.inStandby = false →
    (bistRuns s = false ∨ bist = true) →
    ∃ t, exec (.warmReset c true bist) s = .next t ∧
      t = startService (setFlag { s with startup := { s.startup with resetting := false } } 0x1040 28 true) ∧
      t.startup = { s.startup with resetting := false } ∧ flag t 0x1040 28 = true ∧ t.clock = s.clock ∧
      (s.host.inReset = false → t.host.linkUp = true) ∧ t.queues = s.queues ∧ t.tabs = s.tabs) ∧
  (∀ (s : State) (c : Fin 256) (bist : Bool), s.startup.railsUp = true → s.startup.resetting = true → s.power.inStandby = false →
    ∃ t, exec (.warmReset c false bist) s = .next t ∧ t.startup.bootStopped = true ∧ flag t 0x1040 27 = true ∧ flag t 0x2094 28 = true ∧
      t.clock = s.clock) ∧
  (∀ (s : State) (c : Fin 256) (seatB : Bool), s.startup.aonUp = true → (c.val = 1 ∨ c.val = 2) →
    ∃ t, exec (.coldReset c seatB) s = .next t ∧ rd t 0x2090 = c.val ∧ flag t 0x604C 24 = seatB ∧ t.startup = { aonUp := true } ∧
      t.queues = [] ∧
      t.colophon.lifecycle = s.colophon.lifecycle ∧ t.colophon.antiRollback = s.colophon.antiRollback) ∧
  (∀ (s : State) (src : Source) (i : Fin 8), Admitted s src (0x10004C + i.val * 0x20000) →
    ∃ t, exec (.sliceReset src i) s = .next t ∧ t = resetSlice (atRegister s src (0x10004C + i.val * 0x20000)) i ∧
      (sliceAt t i).idleSince = now s ∧ t.clock = s.clock ∧ t.regsCur = s.regsCur ∧ t.seq = s.seq ∧ t.colophon = s.colophon ∧
      t.power = s.power) ∧
  (∀ s : State, s.startup.aonUp = true → ∃ t, exec (.supplyLoss 0) s = .next t ∧ t.startup.aonUp = false ∧ t.regs = [] ∧
    t.queues = [] ∧ t.colophon.lifecycle = s.colophon.lifecycle) ∧
  (∀ (s : State) (r : Fin 7), s.startup.aonUp = true → r.val ≠ 0 → s.startup.railsUp = true →
    ∃ t, exec (.supplyLoss r) s = .next t ∧ t.startup.railsUp = false ∧ t.startup.island = false ∧ t.startup.aonUp = true ∧
      rd t 0x2090 = 1 ∧
      t.queues = [] ∧ t.tabs = []) ∧
  (∀ s : State, s.startup.aonUp = false → ∀ r, exec (.supplyLoss r) s = .next s)

/-- Fatal errors, the error log and rescue frames (R404, R417, R418, R420, R421): the sentinel acts only when the device is wedged, a
device-fatal error shows in FAULT_STATUS and asks for its reset, the log writes one record at a time, and a rescue frame acts on the port
where it came. The LEVEL of a record is a free value where R415 leaves it open (log 14), and the sentinel's 10 ms stand for the command (log
6). -/
def Obligations.ErrorsAreLoggedAndRescued : Prop :=
  (∀ s : State, wedged s = false → exec .sentinelWedge s = .next s) ∧
  (∀ s : State, wedged s = true → ∃ t, exec .sentinelWedge s = .next t ∧ t = deviceFatal s 0x0902 31 .alwaysOn [] ∧
    t.clock = s.clock ∧ t.seq = s.seq ∧ t.startup = s.startup ∧ (t.power.hold = true ∨ ∃ at_, t.errors.resetAt = some (at_, 6))) ∧
  (∀ s : State, ∃ t, exec (.deviceFatal 0x0107) s = .next t ∧ t = deviceFatal s 0x0107 31 .sequencer [] ∧
    t.clock = s.clock ∧ t.seq = s.seq ∧ t.startup = s.startup ∧ (claims s = false → flag t 0x2094 31 = true) ∧
    (t.power.hold = true ∨ ∃ at_, t.errors.resetAt = some (at_, 6))) ∧
  (∀ (s : State) (code f : Nat) (p : Page) (l : List Nat), claims s = false → flag s 0x2098 31 = false →
    s.twin.releaseAt = none →
    (deviceFatal s code f p l).errors.resetAt = some (now s + 1000000, 6)) ∧
  (∀ (s : State) (r : ErrRec) (l : List ErrRec), (s.errors.first = none ∨ ∃ f ∈ s.errors.waiting, s.errors.first = some f) →
    s.errors.waiting = r :: l →
    ∃ t, exec .errorLogRecord s = .next t ∧ t = logError { s with errors := { s.errors with waiting := l } } r ∧
      t.errors = { s.errors with waiting := l, sequence := (s.errors.sequence + 1) % 2 ^ 32,
                                 first := if s.errors.first = some r then none else s.errors.first } ∧ settled t = settled s) ∧
  (∀ s : State, s.errors.first = none → s.errors.waiting = [] → exec .errorLogRecord s = .next s) ∧
  (∀ (s : State) (r : Rescue) (l : List Rescue) (p : Fin 64), s.rescues = r :: l → r.port = p.val →
    (r.op = 1 → ∃ t, exec (.statusRead p) s = .next t ∧ t = rescueAnswer { s with rescues := l } r ∧ t.rescues = l ∧ t.regs = s.regs ∧
      settled t = settled s ∧
      (portUp s p = true ∧ egressOpen s = true → t.out.length = s.out.length + 1)) ∧
    (r.op = 2 → ∃ t, exec (.deviceReset p) s = .next t ∧ t = beginReset { s with rescues := l } 7 ∧
      (coreRuns s = true → s.power.inStandby = false → t.startup.resetting = true ∧ t.queues = [] ∧ t.rescues = [])) ∧
    (r.op = 3 → ∃ t, exec (.rescueTwinHandover p) s = .next t ∧ t = rescueAnswer (startRelease { s with rescues := l }) r ∧
      settled t = settled s ∧ (claims s = true → t.twin.releaseAt.isSome = true)) ∧
    (r.op = 4 → ∃ t, exec (.slotSelect p) s = .next t ∧
      t = rescueAnswer (setFlag { s with rescues := l } 0x2080 30 (bitAt r.operand 0)) r ∧ t.rescues = l ∧
      flag t 0x2080 30 = bitAt r.operand 0 ∧ RegsBut [0x2080] s t ∧ settled t = settled s)) ∧
  (∀ (s : State) (p : Fin 64), s.rescues = [] → exec (.statusRead p) s = .next s)
end

