-- ==== Sys2Proof/Laws/Sparse.lean ====
section
/-! SUPPORT. The laws of sparse maps (read after write, write elsewhere) and that every operation on them keeps the canonical form. -/

namespace Sys2Proof.Machine

variable {α : Type}

/-! ### Read after write -/

@[simp] theorem sget_nil (d : Nat → α) (k : Nat) : sget d [] k = d k := rfl

theorem sget_sput (d : Nat → α) (m : Sparse α) (k j : Nat) (v : α) :
    sget d (sput m k v) j = if j = k then v else sget d m j := by
  induction m with
  | nil => rfl
  | cons e m ih =>
    obtain ⟨i, u⟩ := e
    simp only [sput]
    split
    · rfl
    · split
      · subst i; simp only [sget]; split <;> rfl
      · simp only [sget, ih]; split <;> split <;> first | rfl | (exfalso; omega)

theorem sget_filter (d : Nat → α) (m : Sparse α) (k j : Nat) :
    sget d (m.filter fun e => !(e.1 == k)) j = if j = k then d j else sget d m j := by
  induction m with
  | nil => simp [sget]
  | cons e m ih =>
    obtain ⟨i, u⟩ := e
    by_cases h : i = k
    · subst i
      simp only [List.filter_cons, beq_self_eq_true, Bool.not_true, Bool.false_eq_true, if_false, ih, sget]
      split <;> rfl
    · simp only [List.filter_cons, h, Bool.not_eq_true', beq_eq_false_iff_ne, ne_eq, not_false_eq_true, if_true, sget, ih]
      split <;> split <;> first | rfl | (exfalso; omega)

/-- A write is a removal or an insertion. -/
theorem sset_eq [DecidableEq α] (d : Nat → α) (m : Sparse α) (k : Nat) (v : α) :
    sset d m k v = if v = d k then m.filter fun e => !(e.1 == k) else sput m k v := by cases m <;> rfl

/-- Reading a sparse map after a write. -/
theorem sget_sset [DecidableEq α] (d : Nat → α) (m : Sparse α) (k j : Nat) (v : α) :
    sget d (sset d m k v) j = if j = k then v else sget d m j := by
  rw [sset_eq]
  split
  · rename_i h; rw [sget_filter]; split
    · rename_i e; rw [e, h]
    · rfl
  · exact sget_sput d m k j v

@[simp] theorem sget_sset_same [DecidableEq α] (d : Nat → α) (m : Sparse α) (k : Nat) (v : α) : sget d (sset d m k v) k = v := by
  rw [sget_sset, if_pos rfl]

theorem sget_sset_other [DecidableEq α] (d : Nat → α) (m : Sparse α) {k j : Nat} (v : α) (h : j ≠ k) :
    sget d (sset d m k v) j = sget d m j := by rw [sget_sset, if_neg h]

/-! ### The canonical form -/

theorem swfFrom_mono [DecidableEq α] (d : Nat → α) (m : Sparse α) {a b : Nat} (h : a ≤ b) (w : swfFrom d b m = true) :
    swfFrom d a m = true := by
  cases m with
  | nil => rfl
  | cons e m =>
    simp only [swfFrom, Bool.and_eq_true, decide_eq_true_eq] at w ⊢
    exact ⟨⟨Nat.le_trans h w.1.1, w.1.2⟩, w.2⟩

theorem swfFrom_filter [DecidableEq α] (d : Nat → α) (p : Nat × α → Bool) (m : Sparse α) (b : Nat) (w : swfFrom d b m = true) :
    swfFrom d b (m.filter p) = true := by
  induction m generalizing b with
  | nil => rfl
  | cons e m ih =>
    simp only [swfFrom, Bool.and_eq_true, decide_eq_true_eq] at w
    rw [List.filter_cons]
    split
    · simp only [swfFrom, Bool.and_eq_true, decide_eq_true_eq]
      exact ⟨w.1, ih _ w.2⟩
    · exact swfFrom_mono d _ (Nat.le_succ_of_le w.1.1) (ih _ w.2)

theorem swfFrom_sput [DecidableEq α] (d : Nat → α) (m : Sparse α) (k : Nat) (v : α) (b : Nat) (hv : v ≠ d k) (hb : b ≤ k)
    (w : swfFrom d b m = true) : swfFrom d b (sput m k v) = true := by
  induction m generalizing b with
  | nil => simp [sput, swfFrom, hv, hb]
  | cons e m ih =>
    obtain ⟨j, u⟩ := e
    simp only [swfFrom, Bool.and_eq_true, decide_eq_true_eq] at w
    obtain ⟨⟨hj, hu⟩, wm⟩ := w
    simp only [sput]
    split
    · rename_i h
      simp only [swfFrom, Bool.and_eq_true, decide_eq_true_eq]
      exact ⟨⟨hb, hv⟩, ⟨h, hu⟩, wm⟩
    · split
      · rename_i h; subst h
        simp only [swfFrom, Bool.and_eq_true, decide_eq_true_eq]
        exact ⟨⟨hb, hv⟩, wm⟩
      · simp only [swfFrom, Bool.and_eq_true, decide_eq_true_eq]
        exact ⟨⟨hj, hu⟩, ih _ (by omega) wm⟩

/-- A write keeps the canonical form. -/
theorem swf_sset [DecidableEq α] (d : Nat → α) (m : Sparse α) (k : Nat) (v : α) (w : swf d m = true) : swf d (sset d m k v) = true := by
  rw [sset_eq]; unfold swf at w ⊢
  split
  · exact swfFrom_filter d _ m 0 w
  · rename_i h; exact swfFrom_sput d m k v 0 h (Nat.zero_le k) w

/-- Leaving entries out keeps the canonical form. -/
theorem swf_skeep [DecidableEq α] (d : Nat → α) (p : Nat → Bool) (m : Sparse α) (w : swf d m = true) : swf d (skeep p m) = true :=
  swfFrom_filter d _ m 0 w

/-- Writing a list of entries keeps the canonical form. -/
theorem swf_foldl [DecidableEq α] {β : Type} (d : Nat → α) (key : β → Nat) (val : Sparse α → β → α) (l : List β) (m : Sparse α)
    (w : swf d m = true) : swf d (l.foldl (fun acc e => sset d acc (key e) (val acc e)) m) = true := by
  induction l generalizing m with
  | nil => exact w
  | cons e l ih => exact ih _ (swf_sset d m _ _ w)

/-- Merging two maps keeps the canonical form. -/
theorem swf_smerge [DecidableEq α] (d : Nat → α) (p : Nat → Bool) (m n : Sparse α) (w : swf d n = true) :
    swf d (smerge d p m n) = true := swf_foldl d (fun e : Nat × α => e.1) (fun _ e => e.2) _ _ (swf_skeep d _ n w)

end Sys2Proof.Machine
end

