-- ==== Sys2Proof/Laws/Word.lean ====
section
/-! SUPPORT. The laws of bit fields on naturals: reading back a field, and reading another field, after a field was replaced. -/

namespace Sys2Proof

/-- A number split at two bit positions. -/
theorem split_bits (n hi lo : Nat) (h : lo ≤ hi + 1) :
    n = n / 2 ^ (hi + 1) * 2 ^ (hi + 1) + bits n hi lo * 2 ^ lo + n % 2 ^ lo := by
  have e : 2 ^ (hi + 1) = 2 ^ (hi + 1 - lo) * 2 ^ lo := by rw [← pow_add]; congr 1; omega
  have d : n / 2 ^ (hi + 1) = n / 2 ^ lo / 2 ^ (hi + 1 - lo) := by
    rw [Nat.div_div_eq_div_mul, Nat.mul_comm, ← e]
  have a := Nat.div_add_mod (n / 2 ^ lo) (2 ^ (hi + 1 - lo))
  have b := Nat.div_add_mod n (2 ^ lo)
  rw [d, bits, e]
  have c := congrArg (2 ^ lo * ·) a
  simp only [Nat.mul_add] at c
  have f : ∀ x y z : Nat, x * (y * z) = z * (y * x) := fun x y z => by ring
  rw [f, Nat.mul_comm (n / 2 ^ lo % _)]
  omega

/-- The three parts of a number after a field was replaced. -/
theorem putBits_eq (n hi lo v : Nat) (h : lo ≤ hi + 1) :
    putBits n hi lo v = n / 2 ^ (hi + 1) * 2 ^ (hi + 1) + v % 2 ^ (hi + 1 - lo) * 2 ^ lo + n % 2 ^ lo := by
  have s := split_bits n hi lo h
  unfold putBits
  omega

theorem mid_lt (v hi lo r : Nat) (h : lo ≤ hi + 1) (hr : r < 2 ^ lo) : v % 2 ^ (hi + 1 - lo) * 2 ^ lo + r < 2 ^ (hi + 1) := by
  have e : 2 ^ (hi + 1) = 2 ^ (hi + 1 - lo) * 2 ^ lo := by rw [← pow_add]; congr 1; omega
  have l := Nat.mod_lt v (Nat.two_pow_pos (hi + 1 - lo))
  have m := Nat.mul_le_mul_right (2 ^ lo) (Nat.succ_le_of_lt l)
  rw [Nat.succ_mul] at m
  omega

/-- A number with a field replaced, divided and reduced. -/
theorem putBits_div (n hi lo v : Nat) (h : lo ≤ hi + 1) : putBits n hi lo v / 2 ^ (hi + 1) = n / 2 ^ (hi + 1) := by
  rw [putBits_eq n hi lo v h, Nat.add_assoc, Nat.mul_comm, Nat.mul_add_div (Nat.two_pow_pos _),
    Nat.div_eq_of_lt (mid_lt v hi lo _ h (Nat.mod_lt _ (Nat.two_pow_pos lo))), Nat.add_zero]

theorem putBits_mod (n hi lo v : Nat) (h : lo ≤ hi + 1) : putBits n hi lo v % 2 ^ lo = n % 2 ^ lo := by
  have e : 2 ^ (hi + 1) = 2 ^ (hi + 1 - lo) * 2 ^ lo := by rw [← pow_add]; congr 1; omega
  rw [putBits_eq n hi lo v h, e, ← Nat.mul_assoc, ← Nat.add_mul, Nat.mul_comm, Nat.mul_add_mod, Nat.mod_mod]

/-- Reading back a replaced field. -/
theorem bits_putBits_same (n hi lo v : Nat) (h : lo ≤ hi + 1) : bits (putBits n hi lo v) hi lo = v % 2 ^ (hi + 1 - lo) := by
  have e : 2 ^ (hi + 1) = 2 ^ (hi + 1 - lo) * 2 ^ lo := by rw [← pow_add]; congr 1; omega
  have r := Nat.mod_lt n (Nat.two_pow_pos lo)
  rw [bits, putBits_eq n hi lo v h, e, ← Nat.mul_assoc, ← Nat.add_mul, Nat.mul_comm, Nat.mul_add_div (Nat.two_pow_pos _),
    Nat.div_eq_of_lt r, Nat.add_zero, Nat.mul_comm, Nat.mul_add_mod, Nat.mod_mod]

/-- Bit `k` of a number with a field replaced. -/
theorem bitAt_putBits (n hi lo v k : Nat) (h : lo ≤ hi) :
    bitAt (putBits n hi lo v) k = if lo ≤ k ∧ k ≤ hi then bitAt v (k - lo) else bitAt n k := by
  have key : ∀ m : Nat, ∀ j, bitAt m j = m.testBit j := by
    intro m j; rw [bitAt, Nat.testBit_eq_decide_div_mod_eq]; rfl
  simp only [key]
  have hp := putBits_eq n hi lo v (by omega)
  have hm := mid_lt v hi lo _ (by omega) (Nat.mod_lt n (Nat.two_pow_pos lo))
  rw [hp, Nat.add_assoc, Nat.mul_comm (n / _), Nat.testBit_two_pow_mul_add _ hm]
  by_cases hk : k < hi + 1
  · rw [if_pos hk, Nat.mul_comm, Nat.testBit_two_pow_mul_add _ (Nat.mod_lt n (Nat.two_pow_pos lo))]
    by_cases hl : k < lo
    · rw [if_pos hl, if_neg (by omega), Nat.testBit_mod_two_pow]; simp [hl]
    · rw [if_neg hl, if_pos (by omega), Nat.testBit_mod_two_pow]; simp; omega
  · rw [if_neg hk, if_neg (by omega), ← Nat.shiftRight_eq_div_pow, Nat.testBit_shiftRight]
    congr 1; omega

/-- A field below 2^32 stays below it when the field replaced lies in it. -/
theorem putBits_lt (n hi lo v w : Nat) (h : lo ≤ hi) (hw : hi < w) (hn : n < 2 ^ w) : putBits n hi lo v < 2 ^ w := by
  have e : 2 ^ w = 2 ^ (w - (hi + 1)) * 2 ^ (hi + 1) := by rw [← pow_add]; congr 1; omega
  have hm := mid_lt v hi lo _ (by omega) (Nat.mod_lt n (Nat.two_pow_pos lo))
  have hd : n / 2 ^ (hi + 1) < 2 ^ (w - (hi + 1)) := Nat.div_lt_of_lt_mul (by rw [Nat.mul_comm, ← e]; exact hn)
  have m := Nat.mul_le_mul_right (2 ^ (hi + 1)) (Nat.succ_le_of_lt hd)
  rw [Nat.succ_mul] at m
  rw [putBits_eq n hi lo v (by omega)]
  omega

@[simp] theorem bitAt_bit (b : Bool) : bitAt (bit b) 0 = b := by cases b <;> decide

/-- A field that lies outside the replaced one. -/
theorem bits_putBits_other (n hi lo v hi' lo' : Nat) (h : lo ≤ hi) (d : hi' < lo ∨ hi < lo') :
    bits (putBits n hi lo v) hi' lo' = bits n hi' lo' := by
  have key : ∀ m j, m.testBit j = bitAt m j := by
    intro m j; rw [bitAt, Nat.testBit_eq_decide_div_mod_eq]; rfl
  apply Nat.eq_of_testBit_eq
  intro k
  unfold bits
  rw [Nat.testBit_mod_two_pow, Nat.testBit_mod_two_pow, ← Nat.shiftRight_eq_div_pow, ← Nat.shiftRight_eq_div_pow,
    Nat.testBit_shiftRight, Nat.testBit_shiftRight, key, key, bitAt_putBits n hi lo v _ h]
  by_cases hk : k < hi' + 1 - lo'
  · rw [if_neg (by omega)]
  · simp [hk]

end Sys2Proof
end

