-- ==== Sys2Proof/Laws/State.lean ====
section
/-! SUPPORT. One lemma per field per named update of the state, and reading back what a named update wrote. -/

namespace Sys2Proof.Machine

/-! ### wr -/

@[simp] theorem wr_pending (s : State) (a v : Nat) : (wr s a v).pending = s.pending := rfl
@[simp] theorem wr_clock (s : State) (a v : Nat) : (wr s a v).clock = s.clock := rfl
@[simp] theorem wr_regsCur (s : State) (a v : Nat) : (wr s a v).regsCur = s.regsCur := rfl
@[simp] theorem wr_regsOld (s : State) (a v : Nat) : (wr s a v).regsOld = s.regsOld := rfl
@[simp] theorem wr_tabs (s : State) (a v : Nat) : (wr s a v).tabs = s.tabs := rfl
@[simp] theorem wr_tabsCur (s : State) (a v : Nat) : (wr s a v).tabsCur = s.tabsCur := rfl
@[simp] theorem wr_tabsOld (s : State) (a v : Nat) : (wr s a v).tabsOld = s.tabsOld := rfl
@[simp] theorem wr_counters (s : State) (a v : Nat) : (wr s a v).counters = s.counters := rfl
@[simp] theorem wr_errors (s : State) (a v : Nat) : (wr s a v).errors = s.errors := rfl
@[simp] theorem wr_access (s : State) (a v : Nat) : (wr s a v).access = s.access := rfl
@[simp] theorem wr_commit (s : State) (a v : Nat) : (wr s a v).commit = s.commit := rfl
@[simp] theorem wr_fence (s : State) (a v : Nat) : (wr s a v).fence = s.fence := rfl
@[simp] theorem wr_frames (s : State) (a v : Nat) : (wr s a v).frames = s.frames := rfl
@[simp] theorem wr_nextFrame (s : State) (a v : Nat) : (wr s a v).nextFrame = s.nextFrame := rfl
@[simp] theorem wr_queues (s : State) (a v : Nat) : (wr s a v).queues = s.queues := rfl
@[simp] theorem wr_ports (s : State) (a v : Nat) : (wr s a v).ports = s.ports := rfl
@[simp] theorem wr_slices (s : State) (a v : Nat) : (wr s a v).slices = s.slices := rfl
@[simp] theorem wr_buffer (s : State) (a v : Nat) : (wr s a v).buffer = s.buffer := rfl
@[simp] theorem wr_policing (s : State) (a v : Nat) : (wr s a v).policing = s.policing := rfl
@[simp] theorem wr_streamGates (s : State) (a v : Nat) : (wr s a v).streamGates = s.streamGates := rfl
@[simp] theorem wr_sched (s : State) (a v : Nat) : (wr s a v).sched = s.sched := rfl
@[simp] theorem wr_fdb (s : State) (a v : Nat) : (wr s a v).fdb = s.fdb := rfl
@[simp] theorem wr_shadow (s : State) (a v : Nat) : (wr s a v).shadow = s.shadow := rfl
@[simp] theorem wr_spill (s : State) (a v : Nat) : (wr s a v).spill = s.spill := rfl
@[simp] theorem wr_twin (s : State) (a v : Nat) : (wr s a v).twin = s.twin := rfl
@[simp] theorem wr_kettle (s : State) (a v : Nat) : (wr s a v).kettle = s.kettle := rfl
@[simp] theorem wr_power (s : State) (a v : Nat) : (wr s a v).power = s.power := rfl
@[simp] theorem wr_tev (s : State) (a v : Nat) : (wr s a v).tev = s.tev := rfl
@[simp] theorem wr_pins (s : State) (a v : Nat) : (wr s a v).pins = s.pins := rfl
@[simp] theorem wr_host (s : State) (a v : Nat) : (wr s a v).host = s.host := rfl
@[simp] theorem wr_channels (s : State) (a v : Nat) : (wr s a v).channels = s.channels := rfl
@[simp] theorem wr_firmware (s : State) (a v : Nat) : (wr s a v).firmware = s.firmware := rfl
@[simp] theorem wr_seq (s : State) (a v : Nat) : (wr s a v).seq = s.seq := rfl
@[simp] theorem wr_colophon (s : State) (a v : Nat) : (wr s a v).colophon = s.colophon := rfl
@[simp] theorem wr_startup (s : State) (a v : Nat) : (wr s a v).startup = s.startup := rfl
@[simp] theorem wr_rescues (s : State) (a v : Nat) : (wr s a v).rescues = s.rescues := rfl
@[simp] theorem wr_captures (s : State) (a v : Nat) : (wr s a v).captures = s.captures := rfl
@[simp] theorem wr_traces (s : State) (a v : Nat) : (wr s a v).traces = s.traces := rfl
@[simp] theorem wr_captureSeq (s : State) (a v : Nat) : (wr s a v).captureSeq = s.captureSeq := rfl
@[simp] theorem wr_traceSeq (s : State) (a v : Nat) : (wr s a v).traceSeq = s.traceSeq := rfl
@[simp] theorem wr_freeCount (s : State) (a v : Nat) : (wr s a v).freeCount = s.freeCount := rfl
@[simp] theorem wr_out (s : State) (a v : Nat) : (wr s a v).out = s.out := rfl

/-! ### setFld -/

@[simp] theorem setFld_pending (s : State) (a hi lo v : Nat) : (setFld s a hi lo v).pending = s.pending := by rw [setFld, wr_pending]
@[simp] theorem setFld_clock (s : State) (a hi lo v : Nat) : (setFld s a hi lo v).clock = s.clock := by rw [setFld, wr_clock]
@[simp] theorem setFld_regsCur (s : State) (a hi lo v : Nat) : (setFld s a hi lo v).regsCur = s.regsCur := by rw [setFld, wr_regsCur]
@[simp] theorem setFld_regsOld (s : State) (a hi lo v : Nat) : (setFld s a hi lo v).regsOld = s.regsOld := by rw [setFld, wr_regsOld]
@[simp] theorem setFld_tabs (s : State) (a hi lo v : Nat) : (setFld s a hi lo v).tabs = s.tabs := by rw [setFld, wr_tabs]
@[simp] theorem setFld_tabsCur (s : State) (a hi lo v : Nat) : (setFld s a hi lo v).tabsCur = s.tabsCur := by rw [setFld, wr_tabsCur]
@[simp] theorem setFld_tabsOld (s : State) (a hi lo v : Nat) : (setFld s a hi lo v).tabsOld = s.tabsOld := by rw [setFld, wr_tabsOld]
@[simp] theorem setFld_counters (s : State) (a hi lo v : Nat) : (setFld s a hi lo v).counters = s.counters := by rw [setFld, wr_counters]
@[simp] theorem setFld_errors (s : State) (a hi lo v : Nat) : (setFld s a hi lo v).errors = s.errors := by rw [setFld, wr_errors]
@[simp] theorem setFld_access (s : State) (a hi lo v : Nat) : (setFld s a hi lo v).access = s.access := by rw [setFld, wr_access]
@[simp] theorem setFld_commit (s : State) (a hi lo v : Nat) : (setFld s a hi lo v).commit = s.commit := by rw [setFld, wr_commit]
@[simp] theorem setFld_fence (s : State) (a hi lo v : Nat) : (setFld s a hi lo v).fence = s.fence := by rw [setFld, wr_fence]
@[simp] theorem setFld_frames (s : State) (a hi lo v : Nat) : (setFld s a hi lo v).frames = s.frames := by rw [setFld, wr_frames]
@[simp] theorem setFld_nextFrame (s : State) (a hi lo v : Nat) : (setFld s a hi lo v).nextFrame = s.nextFrame := by rw [setFld, wr_nextFrame]
@[simp] theorem setFld_queues (s : State) (a hi lo v : Nat) : (setFld s a hi lo v).queues = s.queues := by rw [setFld, wr_queues]
@[simp] theorem setFld_ports (s : State) (a hi lo v : Nat) : (setFld s a hi lo v).ports = s.ports := by rw [setFld, wr_ports]
@[simp] theorem setFld_slices (s : State) (a hi lo v : Nat) : (setFld s a hi lo v).slices = s.slices := by rw [setFld, wr_slices]
@[simp] theorem setFld_buffer (s : State) (a hi lo v : Nat) : (setFld s a hi lo v).buffer = s.buffer := by rw [setFld, wr_buffer]
@[simp] theorem setFld_policing (s : State) (a hi lo v : Nat) : (setFld s a hi lo v).policing = s.policing := by rw [setFld, wr_policing]
@[simp] theorem setFld_streamGates (s : State) (a hi lo v : Nat) : (setFld s a hi lo v).streamGates = s.streamGates := by rw [setFld, wr_streamGates]
@[simp] theorem setFld_sched (s : State) (a hi lo v : Nat) : (setFld s a hi lo v).sched = s.sched := by rw [setFld, wr_sched]
@[simp] theorem setFld_fdb (s : State) (a hi lo v : Nat) : (setFld s a hi lo v).fdb = s.fdb := by rw [setFld, wr_fdb]
@[simp] theorem setFld_shadow (s : State) (a hi lo v : Nat) : (setFld s a hi lo v).shadow = s.shadow := by rw [setFld, wr_shadow]
@[simp] theorem setFld_spill (s : State) (a hi lo v : Nat) : (setFld s a hi lo v).spill = s.spill := by rw [setFld, wr_spill]
@[simp] theorem setFld_twin (s : State) (a hi lo v : Nat) : (setFld s a hi lo v).twin = s.twin := by rw [setFld, wr_twin]
@[simp] theorem setFld_kettle (s : State) (a hi lo v : Nat) : (setFld s a hi lo v).kettle = s.kettle := by rw [setFld, wr_kettle]
@[simp] theorem setFld_power (s : State) (a hi lo v : Nat) : (setFld s a hi lo v).power = s.power := by rw [setFld, wr_power]
@[simp] theorem setFld_tev (s : State) (a hi lo v : Nat) : (setFld s a hi lo v).tev = s.tev := by rw [setFld, wr_tev]
@[simp] theorem setFld_pins (s : State) (a hi lo v : Nat) : (setFld s a hi lo v).pins = s.pins := by rw [setFld, wr_pins]
@[simp] theorem setFld_host (s : State) (a hi lo v : Nat) : (setFld s a hi lo v).host = s.host := by rw [setFld, wr_host]
@[simp] theorem setFld_channels (s : State) (a hi lo v : Nat) : (setFld s a hi lo v).channels = s.channels := by rw [setFld, wr_channels]
@[simp] theorem setFld_firmware (s : State) (a hi lo v : Nat) : (setFld s a hi lo v).firmware = s.firmware := by rw [setFld, wr_firmware]
@[simp] theorem setFld_seq (s : State) (a hi lo v : Nat) : (setFld s a hi lo v).seq = s.seq := by rw [setFld, wr_seq]
@[simp] theorem setFld_colophon (s : State) (a hi lo v : Nat) : (setFld s a hi lo v).colophon = s.colophon := by rw [setFld, wr_colophon]
@[simp] theorem setFld_startup (s : State) (a hi lo v : Nat) : (setFld s a hi lo v).startup = s.startup := by rw [setFld, wr_startup]
@[simp] theorem setFld_rescues (s : State) (a hi lo v : Nat) : (setFld s a hi lo v).rescues = s.rescues := by rw [setFld, wr_rescues]
@[simp] theorem setFld_captures (s : State) (a hi lo v : Nat) : (setFld s a hi lo v).captures = s.captures := by rw [setFld, wr_captures]
@[simp] theorem setFld_traces (s : State) (a hi lo v : Nat) : (setFld s a hi lo v).traces = s.traces := by rw [setFld, wr_traces]
@[simp] theorem setFld_captureSeq (s : State) (a hi lo v : Nat) : (setFld s a hi lo v).captureSeq = s.captureSeq := by rw [setFld, wr_captureSeq]
@[simp] theorem setFld_traceSeq (s : State) (a hi lo v : Nat) : (setFld s a hi lo v).traceSeq = s.traceSeq := by rw [setFld, wr_traceSeq]
@[simp] theorem setFld_freeCount (s : State) (a hi lo v : Nat) : (setFld s a hi lo v).freeCount = s.freeCount := by rw [setFld, wr_freeCount]
@[simp] theorem setFld_out (s : State) (a hi lo v : Nat) : (setFld s a hi lo v).out = s.out := by rw [setFld, wr_out]

/-! ### setFlag -/

@[simp] theorem setFlag_pending (s : State) (a k : Nat) (b : Bool) : (setFlag s a k b).pending = s.pending := by rw [setFlag, setFld_pending]
@[simp] theorem setFlag_clock (s : State) (a k : Nat) (b : Bool) : (setFlag s a k b).clock = s.clock := by rw [setFlag, setFld_clock]
@[simp] theorem setFlag_regsCur (s : State) (a k : Nat) (b : Bool) : (setFlag s a k b).regsCur = s.regsCur := by rw [setFlag, setFld_regsCur]
@[simp] theorem setFlag_regsOld (s : State) (a k : Nat) (b : Bool) : (setFlag s a k b).regsOld = s.regsOld := by rw [setFlag, setFld_regsOld]
@[simp] theorem setFlag_tabs (s : State) (a k : Nat) (b : Bool) : (setFlag s a k b).tabs = s.tabs := by rw [setFlag, setFld_tabs]
@[simp] theorem setFlag_tabsCur (s : State) (a k : Nat) (b : Bool) : (setFlag s a k b).tabsCur = s.tabsCur := by rw [setFlag, setFld_tabsCur]
@[simp] theorem setFlag_tabsOld (s : State) (a k : Nat) (b : Bool) : (setFlag s a k b).tabsOld = s.tabsOld := by rw [setFlag, setFld_tabsOld]
@[simp] theorem setFlag_counters (s : State) (a k : Nat) (b : Bool) : (setFlag s a k b).counters = s.counters := by rw [setFlag, setFld_counters]
@[simp] theorem setFlag_errors (s : State) (a k : Nat) (b : Bool) : (setFlag s a k b).errors = s.errors := by rw [setFlag, setFld_errors]
@[simp] theorem setFlag_access (s : State) (a k : Nat) (b : Bool) : (setFlag s a k b).access = s.access := by rw [setFlag, setFld_access]
@[simp] theorem setFlag_commit (s : State) (a k : Nat) (b : Bool) : (setFlag s a k b).commit = s.commit := by rw [setFlag, setFld_commit]
@[simp] theorem setFlag_fence (s : State) (a k : Nat) (b : Bool) : (setFlag s a k b).fence = s.fence := by rw [setFlag, setFld_fence]
@[simp] theorem setFlag_frames (s : State) (a k : Nat) (b : Bool) : (setFlag s a k b).frames = s.frames := by rw [setFlag, setFld_frames]
@[simp] theorem setFlag_nextFrame (s : State) (a k : Nat) (b : Bool) : (setFlag s a k b).nextFrame = s.nextFrame := by rw [setFlag, setFld_nextFrame]
@[simp] theorem setFlag_queues (s : State) (a k : Nat) (b : Bool) : (setFlag s a k b).queues = s.queues := by rw [setFlag, setFld_queues]
@[simp] theorem setFlag_ports (s : State) (a k : Nat) (b : Bool) : (setFlag s a k b).ports = s.ports := by rw [setFlag, setFld_ports]
@[simp] theorem setFlag_slices (s : State) (a k : Nat) (b : Bool) : (setFlag s a k b).slices = s.slices := by rw [setFlag, setFld_slices]
@[simp] theorem setFlag_buffer (s : State) (a k : Nat) (b : Bool) : (setFlag s a k b).buffer = s.buffer := by rw [setFlag, setFld_buffer]
@[simp] theorem setFlag_policing (s : State) (a k : Nat) (b : Bool) : (setFlag s a k b).policing = s.policing := by rw [setFlag, setFld_policing]
@[simp] theorem setFlag_streamGates (s : State) (a k : Nat) (b : Bool) : (setFlag s a k b).streamGates = s.streamGates := by rw [setFlag, setFld_streamGates]
@[simp] theorem setFlag_sched (s : State) (a k : Nat) (b : Bool) : (setFlag s a k b).sched = s.sched := by rw [setFlag, setFld_sched]
@[simp] theorem setFlag_fdb (s : State) (a k : Nat) (b : Bool) : (setFlag s a k b).fdb = s.fdb := by rw [setFlag, setFld_fdb]
@[simp] theorem setFlag_shadow (s : State) (a k : Nat) (b : Bool) : (setFlag s a k b).shadow = s.shadow := by rw [setFlag, setFld_shadow]
@[simp] theorem setFlag_spill (s : State) (a k : Nat) (b : Bool) : (setFlag s a k b).spill = s.spill := by rw [setFlag, setFld_spill]
@[simp] theorem setFlag_twin (s : State) (a k : Nat) (b : Bool) : (setFlag s a k b).twin = s.twin := by rw [setFlag, setFld_twin]
@[simp] theorem setFlag_kettle (s : State) (a k : Nat) (b : Bool) : (setFlag s a k b).kettle = s.kettle := by rw [setFlag, setFld_kettle]
@[simp] theorem setFlag_power (s : State) (a k : Nat) (b : Bool) : (setFlag s a k b).power = s.power := by rw [setFlag, setFld_power]
@[simp] theorem setFlag_tev (s : State) (a k : Nat) (b : Bool) : (setFlag s a k b).tev = s.tev := by rw [setFlag, setFld_tev]
@[simp] theorem setFlag_pins (s : State) (a k : Nat) (b : Bool) : (setFlag s a k b).pins = s.pins := by rw [setFlag, setFld_pins]
@[simp] theorem setFlag_host (s : State) (a k : Nat) (b : Bool) : (setFlag s a k b).host = s.host := by rw [setFlag, setFld_host]
@[simp] theorem setFlag_channels (s : State) (a k : Nat) (b : Bool) : (setFlag s a k b).channels = s.channels := by rw [setFlag, setFld_channels]
@[simp] theorem setFlag_firmware (s : State) (a k : Nat) (b : Bool) : (setFlag s a k b).firmware = s.firmware := by rw [setFlag, setFld_firmware]
@[simp] theorem setFlag_seq (s : State) (a k : Nat) (b : Bool) : (setFlag s a k b).seq = s.seq := by rw [setFlag, setFld_seq]
@[simp] theorem setFlag_colophon (s : State) (a k : Nat) (b : Bool) : (setFlag s a k b).colophon = s.colophon := by rw [setFlag, setFld_colophon]
@[simp] theorem setFlag_startup (s : State) (a k : Nat) (b : Bool) : (setFlag s a k b).startup = s.startup := by rw [setFlag, setFld_startup]
@[simp] theorem setFlag_rescues (s : State) (a k : Nat) (b : Bool) : (setFlag s a k b).rescues = s.rescues := by rw [setFlag, setFld_rescues]
@[simp] theorem setFlag_captures (s : State) (a k : Nat) (b : Bool) : (setFlag s a k b).captures = s.captures := by rw [setFlag, setFld_captures]
@[simp] theorem setFlag_traces (s : State) (a k : Nat) (b : Bool) : (setFlag s a k b).traces = s.traces := by rw [setFlag, setFld_traces]
@[simp] theorem setFlag_captureSeq (s : State) (a k : Nat) (b : Bool) : (setFlag s a k b).captureSeq = s.captureSeq := by rw [setFlag, setFld_captureSeq]
@[simp] theorem setFlag_traceSeq (s : State) (a k : Nat) (b : Bool) : (setFlag s a k b).traceSeq = s.traceSeq := by rw [setFlag, setFld_traceSeq]
@[simp] theorem setFlag_freeCount (s : State) (a k : Nat) (b : Bool) : (setFlag s a k b).freeCount = s.freeCount := by rw [setFlag, setFld_freeCount]
@[simp] theorem setFlag_out (s : State) (a k : Nat) (b : Bool) : (setFlag s a k b).out = s.out := by rw [setFlag, setFld_out]

/-! ### emit -/

@[simp] theorem emit_pending (s : State) (o : Out) : (emit s o).pending = s.pending := rfl
@[simp] theorem emit_clock (s : State) (o : Out) : (emit s o).clock = s.clock := rfl
@[simp] theorem emit_regs (s : State) (o : Out) : (emit s o).regs = s.regs := rfl
@[simp] theorem emit_regsCur (s : State) (o : Out) : (emit s o).regsCur = s.regsCur := rfl
@[simp] theorem emit_regsOld (s : State) (o : Out) : (emit s o).regsOld = s.regsOld := rfl
@[simp] theorem emit_tabs (s : State) (o : Out) : (emit s o).tabs = s.tabs := rfl
@[simp] theorem emit_tabsCur (s : State) (o : Out) : (emit s o).tabsCur = s.tabsCur := rfl
@[simp] theorem emit_tabsOld (s : State) (o : Out) : (emit s o).tabsOld = s.tabsOld := rfl
@[simp] theorem emit_counters (s : State) (o : Out) : (emit s o).counters = s.counters := rfl
@[simp] theorem emit_errors (s : State) (o : Out) : (emit s o).errors = s.errors := rfl
@[simp] theorem emit_access (s : State) (o : Out) : (emit s o).access = s.access := rfl
@[simp] theorem emit_commit (s : State) (o : Out) : (emit s o).commit = s.commit := rfl
@[simp] theorem emit_fence (s : State) (o : Out) : (emit s o).fence = s.fence := rfl
@[simp] theorem emit_frames (s : State) (o : Out) : (emit s o).frames = s.frames := rfl
@[simp] theorem emit_nextFrame (s : State) (o : Out) : (emit s o).nextFrame = s.nextFrame := rfl
@[simp] theorem emit_queues (s : State) (o : Out) : (emit s o).queues = s.queues := rfl
@[simp] theorem emit_ports (s : State) (o : Out) : (emit s o).ports = s.ports := rfl
@[simp] theorem emit_slices (s : State) (o : Out) : (emit s o).slices = s.slices := rfl
@[simp] theorem emit_buffer (s : State) (o : Out) : (emit s o).buffer = s.buffer := rfl
@[simp] theorem emit_policing (s : State) (o : Out) : (emit s o).policing = s.policing := rfl
@[simp] theorem emit_streamGates (s : State) (o : Out) : (emit s o).streamGates = s.streamGates := rfl
@[simp] theorem emit_sched (s : State) (o : Out) : (emit s o).sched = s.sched := rfl
@[simp] theorem emit_fdb (s : State) (o : Out) : (emit s o).fdb = s.fdb := rfl
@[simp] theorem emit_shadow (s : State) (o : Out) : (emit s o).shadow = s.shadow := rfl
@[simp] theorem emit_spill (s : State) (o : Out) : (emit s o).spill = s.spill := rfl
@[simp] theorem emit_twin (s : State) (o : Out) : (emit s o).twin = s.twin := rfl
@[simp] theorem emit_kettle (s : State) (o : Out) : (emit s o).kettle = s.kettle := rfl
@[simp] theorem emit_power (s : State) (o : Out) : (emit s o).power = s.power := rfl
@[simp] theorem emit_tev (s : State) (o : Out) : (emit s o).tev = s.tev := rfl
@[simp] theorem emit_pins (s : State) (o : Out) : (emit s o).pins = s.pins := rfl
@[simp] theorem emit_host (s : State) (o : Out) : (emit s o).host = s.host := rfl
@[simp] theorem emit_channels (s : State) (o : Out) : (emit s o).channels = s.channels := rfl
@[simp] theorem emit_firmware (s : State) (o : Out) : (emit s o).firmware = s.firmware := rfl
@[simp] theorem emit_seq (s : State) (o : Out) : (emit s o).seq = s.seq := rfl
@[simp] theorem emit_colophon (s : State) (o : Out) : (emit s o).colophon = s.colophon := rfl
@[simp] theorem emit_startup (s : State) (o : Out) : (emit s o).startup = s.startup := rfl
@[simp] theorem emit_rescues (s : State) (o : Out) : (emit s o).rescues = s.rescues := rfl
@[simp] theorem emit_captures (s : State) (o : Out) : (emit s o).captures = s.captures := rfl
@[simp] theorem emit_traces (s : State) (o : Out) : (emit s o).traces = s.traces := rfl
@[simp] theorem emit_captureSeq (s : State) (o : Out) : (emit s o).captureSeq = s.captureSeq := rfl
@[simp] theorem emit_traceSeq (s : State) (o : Out) : (emit s o).traceSeq = s.traceSeq := rfl
@[simp] theorem emit_freeCount (s : State) (o : Out) : (emit s o).freeCount = s.freeCount := rfl
@[simp] theorem emit_out (s : State) (o : Out) : (emit s o).out = s.out ++ [o] := by simp only [emit]

/-! ### drawn -/

@[simp] theorem drawn_pending (s : State) : (drawn s).pending = s.pending := rfl
@[simp] theorem drawn_clock (s : State) : (drawn s).clock = s.clock := rfl
@[simp] theorem drawn_regs (s : State) : (drawn s).regs = s.regs := rfl
@[simp] theorem drawn_regsCur (s : State) : (drawn s).regsCur = s.regsCur := rfl
@[simp] theorem drawn_regsOld (s : State) : (drawn s).regsOld = s.regsOld := rfl
@[simp] theorem drawn_tabs (s : State) : (drawn s).tabs = s.tabs := rfl
@[simp] theorem drawn_tabsCur (s : State) : (drawn s).tabsCur = s.tabsCur := rfl
@[simp] theorem drawn_tabsOld (s : State) : (drawn s).tabsOld = s.tabsOld := rfl
@[simp] theorem drawn_counters (s : State) : (drawn s).counters = s.counters := rfl
@[simp] theorem drawn_errors (s : State) : (drawn s).errors = s.errors := rfl
@[simp] theorem drawn_access (s : State) : (drawn s).access = s.access := rfl
@[simp] theorem drawn_commit (s : State) : (drawn s).commit = s.commit := rfl
@[simp] theorem drawn_fence (s : State) : (drawn s).fence = s.fence := rfl
@[simp] theorem drawn_frames (s : State) : (drawn s).frames = s.frames := rfl
@[simp] theorem drawn_nextFrame (s : State) : (drawn s).nextFrame = s.nextFrame := rfl
@[simp] theorem drawn_queues (s : State) : (drawn s).queues = s.queues := rfl
@[simp] theorem drawn_ports (s : State) : (drawn s).ports = s.ports := rfl
@[simp] theorem drawn_slices (s : State) : (drawn s).slices = s.slices := rfl
@[simp] theorem drawn_buffer (s : State) : (drawn s).buffer = s.buffer := rfl
@[simp] theorem drawn_policing (s : State) : (drawn s).policing = s.policing := rfl
@[simp] theorem drawn_streamGates (s : State) : (drawn s).streamGates = s.streamGates := rfl
@[simp] theorem drawn_sched (s : State) : (drawn s).sched = s.sched := rfl
@[simp] theorem drawn_fdb (s : State) : (drawn s).fdb = s.fdb := rfl
@[simp] theorem drawn_shadow (s : State) : (drawn s).shadow = s.shadow := rfl
@[simp] theorem drawn_spill (s : State) : (drawn s).spill = s.spill := rfl
@[simp] theorem drawn_twin (s : State) : (drawn s).twin = s.twin := rfl
@[simp] theorem drawn_kettle (s : State) : (drawn s).kettle = s.kettle := rfl
@[simp] theorem drawn_power (s : State) : (drawn s).power = s.power := rfl
@[simp] theorem drawn_tev (s : State) : (drawn s).tev = s.tev := rfl
@[simp] theorem drawn_pins (s : State) : (drawn s).pins = s.pins := rfl
@[simp] theorem drawn_host (s : State) : (drawn s).host = s.host := rfl
@[simp] theorem drawn_channels (s : State) : (drawn s).channels = s.channels := rfl
@[simp] theorem drawn_firmware (s : State) : (drawn s).firmware = s.firmware := rfl
@[simp] theorem drawn_seq (s : State) : (drawn s).seq = s.seq := rfl
@[simp] theorem drawn_colophon (s : State) : (drawn s).colophon = s.colophon := rfl
@[simp] theorem drawn_startup (s : State) : (drawn s).startup = s.startup := rfl
@[simp] theorem drawn_rescues (s : State) : (drawn s).rescues = s.rescues := rfl
@[simp] theorem drawn_captures (s : State) : (drawn s).captures = s.captures := rfl
@[simp] theorem drawn_traces (s : State) : (drawn s).traces = s.traces := rfl
@[simp] theorem drawn_captureSeq (s : State) : (drawn s).captureSeq = s.captureSeq := rfl
@[simp] theorem drawn_traceSeq (s : State) : (drawn s).traceSeq = s.traceSeq := rfl
@[simp] theorem drawn_out (s : State) : (drawn s).out = s.out := rfl
@[simp] theorem drawn_freeCount (s : State) : (drawn s).freeCount = s.freeCount + 1 := by simp only [drawn]

/-! ### raise -/

@[simp] theorem raise_pending (s : State) (p : Page) (k : Nat) : (raise s p k).pending = s.pending := by simp only [raise, setFld_pending]
@[simp] theorem raise_clock (s : State) (p : Page) (k : Nat) : (raise s p k).clock = s.clock := by simp only [raise, setFld_clock]
@[simp] theorem raise_regsCur (s : State) (p : Page) (k : Nat) : (raise s p k).regsCur = s.regsCur := by simp only [raise, setFld_regsCur]
@[simp] theorem raise_regsOld (s : State) (p : Page) (k : Nat) : (raise s p k).regsOld = s.regsOld := by simp only [raise, setFld_regsOld]
@[simp] theorem raise_tabs (s : State) (p : Page) (k : Nat) : (raise s p k).tabs = s.tabs := by simp only [raise, setFld_tabs]
@[simp] theorem raise_tabsCur (s : State) (p : Page) (k : Nat) : (raise s p k).tabsCur = s.tabsCur := by simp only [raise, setFld_tabsCur]
@[simp] theorem raise_tabsOld (s : State) (p : Page) (k : Nat) : (raise s p k).tabsOld = s.tabsOld := by simp only [raise, setFld_tabsOld]
@[simp] theorem raise_counters (s : State) (p : Page) (k : Nat) : (raise s p k).counters = s.counters := by simp only [raise, setFld_counters]
@[simp] theorem raise_errors (s : State) (p : Page) (k : Nat) : (raise s p k).errors = s.errors := by simp only [raise, setFld_errors]
@[simp] theorem raise_access (s : State) (p : Page) (k : Nat) : (raise s p k).access = s.access := by simp only [raise, setFld_access]
@[simp] theorem raise_commit (s : State) (p : Page) (k : Nat) : (raise s p k).commit = s.commit := by simp only [raise, setFld_commit]
@[simp] theorem raise_fence (s : State) (p : Page) (k : Nat) : (raise s p k).fence = s.fence := by simp only [raise, setFld_fence]
@[simp] theorem raise_frames (s : State) (p : Page) (k : Nat) : (raise s p k).frames = s.frames := by simp only [raise, setFld_frames]
@[simp] theorem raise_nextFrame (s : State) (p : Page) (k : Nat) : (raise s p k).nextFrame = s.nextFrame := by simp only [raise, setFld_nextFrame]
@[simp] theorem raise_queues (s : State) (p : Page) (k : Nat) : (raise s p k).queues = s.queues := by simp only [raise, setFld_queues]
@[simp] theorem raise_ports (s : State) (p : Page) (k : Nat) : (raise s p k).ports = s.ports := by simp only [raise, setFld_ports]
@[simp] theorem raise_slices (s : State) (p : Page) (k : Nat) : (raise s p k).slices = s.slices := by simp only [raise, setFld_slices]
@[simp] theorem raise_buffer (s : State) (p : Page) (k : Nat) : (raise s p k).buffer = s.buffer := by simp only [raise, setFld_buffer]
@[simp] theorem raise_policing (s : State) (p : Page) (k : Nat) : (raise s p k).policing = s.policing := by simp only [raise, setFld_policing]
@[simp] theorem raise_streamGates (s : State) (p : Page) (k : Nat) : (raise s p k).streamGates = s.streamGates := by simp only [raise, setFld_streamGates]
@[simp] theorem raise_sched (s : State) (p : Page) (k : Nat) : (raise s p k).sched = s.sched := by simp only [raise, setFld_sched]
@[simp] theorem raise_fdb (s : State) (p : Page) (k : Nat) : (raise s p k).fdb = s.fdb := by simp only [raise, setFld_fdb]
@[simp] theorem raise_shadow (s : State) (p : Page) (k : Nat) : (raise s p k).shadow = s.shadow := by simp only [raise, setFld_shadow]
@[simp] theorem raise_spill (s : State) (p : Page) (k : Nat) : (raise s p k).spill = s.spill := by simp only [raise, setFld_spill]
@[simp] theorem raise_twin (s : State) (p : Page) (k : Nat) : (raise s p k).twin = s.twin := by simp only [raise, setFld_twin]
@[simp] theorem raise_kettle (s : State) (p : Page) (k : Nat) : (raise s p k).kettle = s.kettle := by simp only [raise, setFld_kettle]
@[simp] theorem raise_power (s : State) (p : Page) (k : Nat) : (raise s p k).power = s.power := by simp only [raise, setFld_power]
@[simp] theorem raise_tev (s : State) (p : Page) (k : Nat) : (raise s p k).tev = s.tev := by simp only [raise, setFld_tev]
@[simp] theorem raise_pins (s : State) (p : Page) (k : Nat) : (raise s p k).pins = s.pins := by simp only [raise, setFld_pins]
@[simp] theorem raise_host (s : State) (p : Page) (k : Nat) : (raise s p k).host = s.host := by simp only [raise, setFld_host]
@[simp] theorem raise_channels (s : State) (p : Page) (k : Nat) : (raise s p k).channels = s.channels := by simp only [raise, setFld_channels]
@[simp] theorem raise_firmware (s : State) (p : Page) (k : Nat) : (raise s p k).firmware = s.firmware := by simp only [raise, setFld_firmware]
@[simp] theorem raise_seq (s : State) (p : Page) (k : Nat) : (raise s p k).seq = s.seq := by simp only [raise, setFld_seq]
@[simp] theorem raise_colophon (s : State) (p : Page) (k : Nat) : (raise s p k).colophon = s.colophon := by simp only [raise, setFld_colophon]
@[simp] theorem raise_startup (s : State) (p : Page) (k : Nat) : (raise s p k).startup = s.startup := by simp only [raise, setFld_startup]
@[simp] theorem raise_rescues (s : State) (p : Page) (k : Nat) : (raise s p k).rescues = s.rescues := by simp only [raise, setFld_rescues]
@[simp] theorem raise_captures (s : State) (p : Page) (k : Nat) : (raise s p k).captures = s.captures := by simp only [raise, setFld_captures]
@[simp] theorem raise_traces (s : State) (p : Page) (k : Nat) : (raise s p k).traces = s.traces := by simp only [raise, setFld_traces]
@[simp] theorem raise_captureSeq (s : State) (p : Page) (k : Nat) : (raise s p k).captureSeq = s.captureSeq := by simp only [raise, setFld_captureSeq]
@[simp] theorem raise_traceSeq (s : State) (p : Page) (k : Nat) : (raise s p k).traceSeq = s.traceSeq := by simp only [raise, setFld_traceSeq]
@[simp] theorem raise_freeCount (s : State) (p : Page) (k : Nat) : (raise s p k).freeCount = s.freeCount := by simp only [raise, setFld_freeCount]

/-! ### setTab -/

@[simp] theorem setTab_pending (s : State) (t i : Nat) (v : Image) : (setTab s t i v).pending = s.pending := rfl
@[simp] theorem setTab_clock (s : State) (t i : Nat) (v : Image) : (setTab s t i v).clock = s.clock := rfl
@[simp] theorem setTab_regs (s : State) (t i : Nat) (v : Image) : (setTab s t i v).regs = s.regs := rfl
@[simp] theorem setTab_regsCur (s : State) (t i : Nat) (v : Image) : (setTab s t i v).regsCur = s.regsCur := rfl
@[simp] theorem setTab_regsOld (s : State) (t i : Nat) (v : Image) : (setTab s t i v).regsOld = s.regsOld := rfl
@[simp] theorem setTab_tabsCur (s : State) (t i : Nat) (v : Image) : (setTab s t i v).tabsCur = s.tabsCur := rfl
@[simp] theorem setTab_tabsOld (s : State) (t i : Nat) (v : Image) : (setTab s t i v).tabsOld = s.tabsOld := rfl
@[simp] theorem setTab_counters (s : State) (t i : Nat) (v : Image) : (setTab s t i v).counters = s.counters := rfl
@[simp] theorem setTab_errors (s : State) (t i : Nat) (v : Image) : (setTab s t i v).errors = s.errors := rfl
@[simp] theorem setTab_access (s : State) (t i : Nat) (v : Image) : (setTab s t i v).access = s.access := rfl
@[simp] theorem setTab_commit (s : State) (t i : Nat) (v : Image) : (setTab s t i v).commit = s.commit := rfl
@[simp] theorem setTab_fence (s : State) (t i : Nat) (v : Image) : (setTab s t i v).fence = s.fence := rfl
@[simp] theorem setTab_frames (s : State) (t i : Nat) (v : Image) : (setTab s t i v).frames = s.frames := rfl
@[simp] theorem setTab_nextFrame (s : State) (t i : Nat) (v : Image) : (setTab s t i v).nextFrame = s.nextFrame := rfl
@[simp] theorem setTab_queues (s : State) (t i : Nat) (v : Image) : (setTab s t i v).queues = s.queues := rfl
@[simp] theorem setTab_ports (s : State) (t i : Nat) (v : Image) : (setTab s t i v).ports = s.ports := rfl
@[simp] theorem setTab_slices (s : State) (t i : Nat) (v : Image) : (setTab s t i v).slices = s.slices := rfl
@[simp] theorem setTab_buffer (s : State) (t i : Nat) (v : Image) : (setTab s t i v).buffer = s.buffer := rfl
@[simp] theorem setTab_policing (s : State) (t i : Nat) (v : Image) : (setTab s t i v).policing = s.policing := rfl
@[simp] theorem setTab_streamGates (s : State) (t i : Nat) (v : Image) : (setTab s t i v).streamGates = s.streamGates := rfl
@[simp] theorem setTab_sched (s : State) (t i : Nat) (v : Image) : (setTab s t i v).sched = s.sched := rfl
@[simp] theorem setTab_fdb (s : State) (t i : Nat) (v : Image) : (setTab s t i v).fdb = s.fdb := rfl
@[simp] theorem setTab_shadow (s : State) (t i : Nat) (v : Image) : (setTab s t i v).shadow = s.shadow := rfl
@[simp] theorem setTab_spill (s : State) (t i : Nat) (v : Image) : (setTab s t i v).spill = s.spill := rfl
@[simp] theorem setTab_twin (s : State) (t i : Nat) (v : Image) : (setTab s t i v).twin = s.twin := rfl
@[simp] theorem setTab_kettle (s : State) (t i : Nat) (v : Image) : (setTab s t i v).kettle = s.kettle := rfl
@[simp] theorem setTab_power (s : State) (t i : Nat) (v : Image) : (setTab s t i v).power = s.power := rfl
@[simp] theorem setTab_tev (s : State) (t i : Nat) (v : Image) : (setTab s t i v).tev = s.tev := rfl
@[simp] theorem setTab_pins (s : State) (t i : Nat) (v : Image) : (setTab s t i v).pins = s.pins := rfl
@[simp] theorem setTab_host (s : State) (t i : Nat) (v : Image) : (setTab s t i v).host = s.host := rfl
@[simp] theorem setTab_channels (s : State) (t i : Nat) (v : Image) : (setTab s t i v).channels = s.channels := rfl
@[simp] theorem setTab_firmware (s : State) (t i : Nat) (v : Image) : (setTab s t i v).firmware = s.firmware := rfl
@[simp] theorem setTab_seq (s : State) (t i : Nat) (v : Image) : (setTab s t i v).seq = s.seq := rfl
@[simp] theorem setTab_colophon (s : State) (t i : Nat) (v : Image) : (setTab s t i v).colophon = s.colophon := rfl
@[simp] theorem setTab_startup (s : State) (t i : Nat) (v : Image) : (setTab s t i v).startup = s.startup := rfl
@[simp] theorem setTab_rescues (s : State) (t i : Nat) (v : Image) : (setTab s t i v).rescues = s.rescues := rfl
@[simp] theorem setTab_captures (s : State) (t i : Nat) (v : Image) : (setTab s t i v).captures = s.captures := rfl
@[simp] theorem setTab_traces (s : State) (t i : Nat) (v : Image) : (setTab s t i v).traces = s.traces := rfl
@[simp] theorem setTab_captureSeq (s : State) (t i : Nat) (v : Image) : (setTab s t i v).captureSeq = s.captureSeq := rfl
@[simp] theorem setTab_traceSeq (s : State) (t i : Nat) (v : Image) : (setTab s t i v).traceSeq = s.traceSeq := rfl
@[simp] theorem setTab_freeCount (s : State) (t i : Nat) (v : Image) : (setTab s t i v).freeCount = s.freeCount := rfl
@[simp] theorem setTab_out (s : State) (t i : Nat) (v : Image) : (setTab s t i v).out = s.out := rfl

/-! ### setFrame -/

@[simp] theorem setFrame_pending (s : State) (i : Nat) (v : Frame) : (setFrame s i v).pending = s.pending := rfl
@[simp] theorem setFrame_clock (s : State) (i : Nat) (v : Frame) : (setFrame s i v).clock = s.clock := rfl
@[simp] theorem setFrame_regs (s : State) (i : Nat) (v : Frame) : (setFrame s i v).regs = s.regs := rfl
@[simp] theorem setFrame_regsCur (s : State) (i : Nat) (v : Frame) : (setFrame s i v).regsCur = s.regsCur := rfl
@[simp] theorem setFrame_regsOld (s : State) (i : Nat) (v : Frame) : (setFrame s i v).regsOld = s.regsOld := rfl
@[simp] theorem setFrame_tabs (s : State) (i : Nat) (v : Frame) : (setFrame s i v).tabs = s.tabs := rfl
@[simp] theorem setFrame_tabsCur (s : State) (i : Nat) (v : Frame) : (setFrame s i v).tabsCur = s.tabsCur := rfl
@[simp] theorem setFrame_tabsOld (s : State) (i : Nat) (v : Frame) : (setFrame s i v).tabsOld = s.tabsOld := rfl
@[simp] theorem setFrame_counters (s : State) (i : Nat) (v : Frame) : (setFrame s i v).counters = s.counters := rfl
@[simp] theorem setFrame_errors (s : State) (i : Nat) (v : Frame) : (setFrame s i v).errors = s.errors := rfl
@[simp] theorem setFrame_access (s : State) (i : Nat) (v : Frame) : (setFrame s i v).access = s.access := rfl
@[simp] theorem setFrame_commit (s : State) (i : Nat) (v : Frame) : (setFrame s i v).commit = s.commit := rfl
@[simp] theorem setFrame_fence (s : State) (i : Nat) (v : Frame) : (setFrame s i v).fence = s.fence := rfl
@[simp] theorem setFrame_nextFrame (s : State) (i : Nat) (v : Frame) : (setFrame s i v).nextFrame = s.nextFrame := rfl
@[simp] theorem setFrame_queues (s : State) (i : Nat) (v : Frame) : (setFrame s i v).queues = s.queues := rfl
@[simp] theorem setFrame_ports (s : State) (i : Nat) (v : Frame) : (setFrame s i v).ports = s.ports := rfl
@[simp] theorem setFrame_slices (s : State) (i : Nat) (v : Frame) : (setFrame s i v).slices = s.slices := rfl
@[simp] theorem setFrame_buffer (s : State) (i : Nat) (v : Frame) : (setFrame s i v).buffer = s.buffer := rfl
@[simp] theorem setFrame_policing (s : State) (i : Nat) (v : Frame) : (setFrame s i v).policing = s.policing := rfl
@[simp] theorem setFrame_streamGates (s : State) (i : Nat) (v : Frame) : (setFrame s i v).streamGates = s.streamGates := rfl
@[simp] theorem setFrame_sched (s : State) (i : Nat) (v : Frame) : (setFrame s i v).sched = s.sched := rfl
@[simp] theorem setFrame_fdb (s : State) (i : Nat) (v : Frame) : (setFrame s i v).fdb = s.fdb := rfl
@[simp] theorem setFrame_shadow (s : State) (i : Nat) (v : Frame) : (setFrame s i v).shadow = s.shadow := rfl
@[simp] theorem setFrame_spill (s : State) (i : Nat) (v : Frame) : (setFrame s i v).spill = s.spill := rfl
@[simp] theorem setFrame_twin (s : State) (i : Nat) (v : Frame) : (setFrame s i v).twin = s.twin := rfl
@[simp] theorem setFrame_kettle (s : State) (i : Nat) (v : Frame) : (setFrame s i v).kettle = s.kettle := rfl
@[simp] theorem setFrame_power (s : State) (i : Nat) (v : Frame) : (setFrame s i v).power = s.power := rfl
@[simp] theorem setFrame_tev (s : State) (i : Nat) (v : Frame) : (setFrame s i v).tev = s.tev := rfl
@[simp] theorem setFrame_pins (s : State) (i : Nat) (v : Frame) : (setFrame s i v).pins = s.pins := rfl
@[simp] theorem setFrame_host (s : State) (i : Nat) (v : Frame) : (setFrame s i v).host = s.host := rfl
@[simp] theorem setFrame_channels (s : State) (i : Nat) (v : Frame) : (setFrame s i v).channels = s.channels := rfl
@[simp] theorem setFrame_firmware (s : State) (i : Nat) (v : Frame) : (setFrame s i v).firmware = s.firmware := rfl
@[simp] theorem setFrame_seq (s : State) (i : Nat) (v : Frame) : (setFrame s i v).seq = s.seq := rfl
@[simp] theorem setFrame_colophon (s : State) (i : Nat) (v : Frame) : (setFrame s i v).colophon = s.colophon := rfl
@[simp] theorem setFrame_startup (s : State) (i : Nat) (v : Frame) : (setFrame s i v).startup = s.startup := rfl
@[simp] theorem setFrame_rescues (s : State) (i : Nat) (v : Frame) : (setFrame s i v).rescues = s.rescues := rfl
@[simp] theorem setFrame_captures (s : State) (i : Nat) (v : Frame) : (setFrame s i v).captures = s.captures := rfl
@[simp] theorem setFrame_traces (s : State) (i : Nat) (v : Frame) : (setFrame s i v).traces = s.traces := rfl
@[simp] theorem setFrame_captureSeq (s : State) (i : Nat) (v : Frame) : (setFrame s i v).captureSeq = s.captureSeq := rfl
@[simp] theorem setFrame_traceSeq (s : State) (i : Nat) (v : Frame) : (setFrame s i v).traceSeq = s.traceSeq := rfl
@[simp] theorem setFrame_freeCount (s : State) (i : Nat) (v : Frame) : (setFrame s i v).freeCount = s.freeCount := rfl
@[simp] theorem setFrame_out (s : State) (i : Nat) (v : Frame) : (setFrame s i v).out = s.out := rfl

/-! ### setQueue -/

@[simp] theorem setQueue_pending (s : State) (i : Nat) (v : Queue) : (setQueue s i v).pending = s.pending := rfl
@[simp] theorem setQueue_clock (s : State) (i : Nat) (v : Queue) : (setQueue s i v).clock = s.clock := rfl
@[simp] theorem setQueue_regs (s : State) (i : Nat) (v : Queue) : (setQueue s i v).regs = s.regs := rfl
@[simp] theorem setQueue_regsCur (s : State) (i : Nat) (v : Queue) : (setQueue s i v).regsCur = s.regsCur := rfl
@[simp] theorem setQueue_regsOld (s : State) (i : Nat) (v : Queue) : (setQueue s i v).regsOld = s.regsOld := rfl
@[simp] theorem setQueue_tabs (s : State) (i : Nat) (v : Queue) : (setQueue s i v).tabs = s.tabs := rfl
@[simp] theorem setQueue_tabsCur (s : State) (i : Nat) (v : Queue) : (setQueue s i v).tabsCur = s.tabsCur := rfl
@[simp] theorem setQueue_tabsOld (s : State) (i : Nat) (v : Queue) : (setQueue s i v).tabsOld = s.tabsOld := rfl
@[simp] theorem setQueue_counters (s : State) (i : Nat) (v : Queue) : (setQueue s i v).counters = s.counters := rfl
@[simp] theorem setQueue_errors (s : State) (i : Nat) (v : Queue) : (setQueue s i v).errors = s.errors := rfl
@[simp] theorem setQueue_access (s : State) (i : Nat) (v : Queue) : (setQueue s i v).access = s.access := rfl
@[simp] theorem setQueue_commit (s : State) (i : Nat) (v : Queue) : (setQueue s i v).commit = s.commit := rfl
@[simp] theorem setQueue_fence (s : State) (i : Nat) (v : Queue) : (setQueue s i v).fence = s.fence := rfl
@[simp] theorem setQueue_frames (s : State) (i : Nat) (v : Queue) : (setQueue s i v).frames = s.frames := rfl
@[simp] theorem setQueue_nextFrame (s : State) (i : Nat) (v : Queue) : (setQueue s i v).nextFrame = s.nextFrame := rfl
@[simp] theorem setQueue_ports (s : State) (i : Nat) (v : Queue) : (setQueue s i v).ports = s.ports := rfl
@[simp] theorem setQueue_slices (s : State) (i : Nat) (v : Queue) : (setQueue s i v).slices = s.slices := rfl
@[simp] theorem setQueue_buffer (s : State) (i : Nat) (v : Queue) : (setQueue s i v).buffer = s.buffer := rfl
@[simp] theorem setQueue_policing (s : State) (i : Nat) (v : Queue) : (setQueue s i v).policing = s.policing := rfl
@[simp] theorem setQueue_streamGates (s : State) (i : Nat) (v : Queue) : (setQueue s i v).streamGates = s.streamGates := rfl
@[simp] theorem setQueue_sched (s : State) (i : Nat) (v : Queue) : (setQueue s i v).sched = s.sched := rfl
@[simp] theorem setQueue_fdb (s : State) (i : Nat) (v : Queue) : (setQueue s i v).fdb = s.fdb := rfl
@[simp] theorem setQueue_shadow (s : State) (i : Nat) (v : Queue) : (setQueue s i v).shadow = s.shadow := rfl
@[simp] theorem setQueue_spill (s : State) (i : Nat) (v : Queue) : (setQueue s i v).spill = s.spill := rfl
@[simp] theorem setQueue_twin (s : State) (i : Nat) (v : Queue) : (setQueue s i v).twin = s.twin := rfl
@[simp] theorem setQueue_kettle (s : State) (i : Nat) (v : Queue) : (setQueue s i v).kettle = s.kettle := rfl
@[simp] theorem setQueue_power (s : State) (i : Nat) (v : Queue) : (setQueue s i v).power = s.power := rfl
@[simp] theorem setQueue_tev (s : State) (i : Nat) (v : Queue) : (setQueue s i v).tev = s.tev := rfl
@[simp] theorem setQueue_pins (s : State) (i : Nat) (v : Queue) : (setQueue s i v).pins = s.pins := rfl
@[simp] theorem setQueue_host (s : State) (i : Nat) (v : Queue) : (setQueue s i v).host = s.host := rfl
@[simp] theorem setQueue_channels (s : State) (i : Nat) (v : Queue) : (setQueue s i v).channels = s.channels := rfl
@[simp] theorem setQueue_firmware (s : State) (i : Nat) (v : Queue) : (setQueue s i v).firmware = s.firmware := rfl
@[simp] theorem setQueue_seq (s : State) (i : Nat) (v : Queue) : (setQueue s i v).seq = s.seq := rfl
@[simp] theorem setQueue_colophon (s : State) (i : Nat) (v : Queue) : (setQueue s i v).colophon = s.colophon := rfl
@[simp] theorem setQueue_startup (s : State) (i : Nat) (v : Queue) : (setQueue s i v).startup = s.startup := rfl
@[simp] theorem setQueue_rescues (s : State) (i : Nat) (v : Queue) : (setQueue s i v).rescues = s.rescues := rfl
@[simp] theorem setQueue_captures (s : State) (i : Nat) (v : Queue) : (setQueue s i v).captures = s.captures := rfl
@[simp] theorem setQueue_traces (s : State) (i : Nat) (v : Queue) : (setQueue s i v).traces = s.traces := rfl
@[simp] theorem setQueue_captureSeq (s : State) (i : Nat) (v : Queue) : (setQueue s i v).captureSeq = s.captureSeq := rfl
@[simp] theorem setQueue_traceSeq (s : State) (i : Nat) (v : Queue) : (setQueue s i v).traceSeq = s.traceSeq := rfl
@[simp] theorem setQueue_freeCount (s : State) (i : Nat) (v : Queue) : (setQueue s i v).freeCount = s.freeCount := rfl
@[simp] theorem setQueue_out (s : State) (i : Nat) (v : Queue) : (setQueue s i v).out = s.out := rfl

/-! ### setPort -/

@[simp] theorem setPort_pending (s : State) (i : Nat) (v : Port) : (setPort s i v).pending = s.pending := rfl
@[simp] theorem setPort_clock (s : State) (i : Nat) (v : Port) : (setPort s i v).clock = s.clock := rfl
@[simp] theorem setPort_regs (s : State) (i : Nat) (v : Port) : (setPort s i v).regs = s.regs := rfl
@[simp] theorem setPort_regsCur (s : State) (i : Nat) (v : Port) : (setPort s i v).regsCur = s.regsCur := rfl
@[simp] theorem setPort_regsOld (s : State) (i : Nat) (v : Port) : (setPort s i v).regsOld = s.regsOld := rfl
@[simp] theorem setPort_tabs (s : State) (i : Nat) (v : Port) : (setPort s i v).tabs = s.tabs := rfl
@[simp] theorem setPort_tabsCur (s : State) (i : Nat) (v : Port) : (setPort s i v).tabsCur = s.tabsCur := rfl
@[simp] theorem setPort_tabsOld (s : State) (i : Nat) (v : Port) : (setPort s i v).tabsOld = s.tabsOld := rfl
@[simp] theorem setPort_counters (s : State) (i : Nat) (v : Port) : (setPort s i v).counters = s.counters := rfl
@[simp] theorem setPort_errors (s : State) (i : Nat) (v : Port) : (setPort s i v).errors = s.errors := rfl
@[simp] theorem setPort_access (s : State) (i : Nat) (v : Port) : (setPort s i v).access = s.access := rfl
@[simp] theorem setPort_commit (s : State) (i : Nat) (v : Port) : (setPort s i v).commit = s.commit := rfl
@[simp] theorem setPort_fence (s : State) (i : Nat) (v : Port) : (setPort s i v).fence = s.fence := rfl
@[simp] theorem setPort_frames (s : State) (i : Nat) (v : Port) : (setPort s i v).frames = s.frames := rfl
@[simp] theorem setPort_nextFrame (s : State) (i : Nat) (v : Port) : (setPort s i v).nextFrame = s.nextFrame := rfl
@[simp] theorem setPort_queues (s : State) (i : Nat) (v : Port) : (setPort s i v).queues = s.queues := rfl
@[simp] theorem setPort_slices (s : State) (i : Nat) (v : Port) : (setPort s i v).slices = s.slices := rfl
@[simp] theorem setPort_buffer (s : State) (i : Nat) (v : Port) : (setPort s i v).buffer = s.buffer := rfl
@[simp] theorem setPort_policing (s : State) (i : Nat) (v : Port) : (setPort s i v).policing = s.policing := rfl
@[simp] theorem setPort_streamGates (s : State) (i : Nat) (v : Port) : (setPort s i v).streamGates = s.streamGates := rfl
@[simp] theorem setPort_sched (s : State) (i : Nat) (v : Port) : (setPort s i v).sched = s.sched := rfl
@[simp] theorem setPort_fdb (s : State) (i : Nat) (v : Port) : (setPort s i v).fdb = s.fdb := rfl
@[simp] theorem setPort_shadow (s : State) (i : Nat) (v : Port) : (setPort s i v).shadow = s.shadow := rfl
@[simp] theorem setPort_spill (s : State) (i : Nat) (v : Port) : (setPort s i v).spill = s.spill := rfl
@[simp] theorem setPort_twin (s : State) (i : Nat) (v : Port) : (setPort s i v).twin = s.twin := rfl
@[simp] theorem setPort_kettle (s : State) (i : Nat) (v : Port) : (setPort s i v).kettle = s.kettle := rfl
@[simp] theorem setPort_power (s : State) (i : Nat) (v : Port) : (setPort s i v).power = s.power := rfl
@[simp] theorem setPort_tev (s : State) (i : Nat) (v : Port) : (setPort s i v).tev = s.tev := rfl
@[simp] theorem setPort_pins (s : State) (i : Nat) (v : Port) : (setPort s i v).pins = s.pins := rfl
@[simp] theorem setPort_host (s : State) (i : Nat) (v : Port) : (setPort s i v).host = s.host := rfl
@[simp] theorem setPort_channels (s : State) (i : Nat) (v : Port) : (setPort s i v).channels = s.channels := rfl
@[simp] theorem setPort_firmware (s : State) (i : Nat) (v : Port) : (setPort s i v).firmware = s.firmware := rfl
@[simp] theorem setPort_seq (s : State) (i : Nat) (v : Port) : (setPort s i v).seq = s.seq := rfl
@[simp] theorem setPort_colophon (s : State) (i : Nat) (v : Port) : (setPort s i v).colophon = s.colophon := rfl
@[simp] theorem setPort_startup (s : State) (i : Nat) (v : Port) : (setPort s i v).startup = s.startup := rfl
@[simp] theorem setPort_rescues (s : State) (i : Nat) (v : Port) : (setPort s i v).rescues = s.rescues := rfl
@[simp] theorem setPort_captures (s : State) (i : Nat) (v : Port) : (setPort s i v).captures = s.captures := rfl
@[simp] theorem setPort_traces (s : State) (i : Nat) (v : Port) : (setPort s i v).traces = s.traces := rfl
@[simp] theorem setPort_captureSeq (s : State) (i : Nat) (v : Port) : (setPort s i v).captureSeq = s.captureSeq := rfl
@[simp] theorem setPort_traceSeq (s : State) (i : Nat) (v : Port) : (setPort s i v).traceSeq = s.traceSeq := rfl
@[simp] theorem setPort_freeCount (s : State) (i : Nat) (v : Port) : (setPort s i v).freeCount = s.freeCount := rfl
@[simp] theorem setPort_out (s : State) (i : Nat) (v : Port) : (setPort s i v).out = s.out := rfl

/-! ### setSlice -/

@[simp] theorem setSlice_pending (s : State) (i : Nat) (v : SliceRt) : (setSlice s i v).pending = s.pending := rfl
@[simp] theorem setSlice_clock (s : State) (i : Nat) (v : SliceRt) : (setSlice s i v).clock = s.clock := rfl
@[simp] theorem setSlice_regs (s : State) (i : Nat) (v : SliceRt) : (setSlice s i v).regs = s.regs := rfl
@[simp] theorem setSlice_regsCur (s : State) (i : Nat) (v : SliceRt) : (setSlice s i v).regsCur = s.regsCur := rfl
@[simp] theorem setSlice_regsOld (s : State) (i : Nat) (v : SliceRt) : (setSlice s i v).regsOld = s.regsOld := rfl
@[simp] theorem setSlice_tabs (s : State) (i : Nat) (v : SliceRt) : (setSlice s i v).tabs = s.tabs := rfl
@[simp] theorem setSlice_tabsCur (s : State) (i : Nat) (v : SliceRt) : (setSlice s i v).tabsCur = s.tabsCur := rfl
@[simp] theorem setSlice_tabsOld (s : State) (i : Nat) (v : SliceRt) : (setSlice s i v).tabsOld = s.tabsOld := rfl
@[simp] theorem setSlice_counters (s : State) (i : Nat) (v : SliceRt) : (setSlice s i v).counters = s.counters := rfl
@[simp] theorem setSlice_errors (s : State) (i : Nat) (v : SliceRt) : (setSlice s i v).errors = s.errors := rfl
@[simp] theorem setSlice_access (s : State) (i : Nat) (v : SliceRt) : (setSlice s i v).access = s.access := rfl
@[simp] theorem setSlice_commit (s : State) (i : Nat) (v : SliceRt) : (setSlice s i v).commit = s.commit := rfl
@[simp] theorem setSlice_fence (s : State) (i : Nat) (v : SliceRt) : (setSlice s i v).fence = s.fence := rfl
@[simp] theorem setSlice_frames (s : State) (i : Nat) (v : SliceRt) : (setSlice s i v).frames = s.frames := rfl
@[simp] theorem setSlice_nextFrame (s : State) (i : Nat) (v : SliceRt) : (setSlice s i v).nextFrame = s.nextFrame := rfl
@[simp] theorem setSlice_queues (s : State) (i : Nat) (v : SliceRt) : (setSlice s i v).queues = s.queues := rfl
@[simp] theorem setSlice_ports (s : State) (i : Nat) (v : SliceRt) : (setSlice s i v).ports = s.ports := rfl
@[simp] theorem setSlice_buffer (s : State) (i : Nat) (v : SliceRt) : (setSlice s i v).buffer = s.buffer := rfl
@[simp] theorem setSlice_policing (s : State) (i : Nat) (v : SliceRt) : (setSlice s i v).policing = s.policing := rfl
@[simp] theorem setSlice_streamGates (s : State) (i : Nat) (v : SliceRt) : (setSlice s i v).streamGates = s.streamGates := rfl
@[simp] theorem setSlice_sched (s : State) (i : Nat) (v : SliceRt) : (setSlice s i v).sched = s.sched := rfl
@[simp] theorem setSlice_fdb (s : State) (i : Nat) (v : SliceRt) : (setSlice s i v).fdb = s.fdb := rfl
@[simp] theorem setSlice_shadow (s : State) (i : Nat) (v : SliceRt) : (setSlice s i v).shadow = s.shadow := rfl
@[simp] theorem setSlice_spill (s : State) (i : Nat) (v : SliceRt) : (setSlice s i v).spill = s.spill := rfl
@[simp] theorem setSlice_twin (s : State) (i : Nat) (v : SliceRt) : (setSlice s i v).twin = s.twin := rfl
@[simp] theorem setSlice_kettle (s : State) (i : Nat) (v : SliceRt) : (setSlice s i v).kettle = s.kettle := rfl
@[simp] theorem setSlice_power (s : State) (i : Nat) (v : SliceRt) : (setSlice s i v).power = s.power := rfl
@[simp] theorem setSlice_tev (s : State) (i : Nat) (v : SliceRt) : (setSlice s i v).tev = s.tev := rfl
@[simp] theorem setSlice_pins (s : State) (i : Nat) (v : SliceRt) : (setSlice s i v).pins = s.pins := rfl
@[simp] theorem setSlice_host (s : State) (i : Nat) (v : SliceRt) : (setSlice s i v).host = s.host := rfl
@[simp] theorem setSlice_channels (s : State) (i : Nat) (v : SliceRt) : (setSlice s i v).channels = s.channels := rfl
@[simp] theorem setSlice_firmware (s : State) (i : Nat) (v : SliceRt) : (setSlice s i v).firmware = s.firmware := rfl
@[simp] theorem setSlice_seq (s : State) (i : Nat) (v : SliceRt) : (setSlice s i v).seq = s.seq := rfl
@[simp] theorem setSlice_colophon (s : State) (i : Nat) (v : SliceRt) : (setSlice s i v).colophon = s.colophon := rfl
@[simp] theorem setSlice_startup (s : State) (i : Nat) (v : SliceRt) : (setSlice s i v).startup = s.startup := rfl
@[simp] theorem setSlice_rescues (s : State) (i : Nat) (v : SliceRt) : (setSlice s i v).rescues = s.rescues := rfl
@[simp] theorem setSlice_captures (s : State) (i : Nat) (v : SliceRt) : (setSlice s i v).captures = s.captures := rfl
@[simp] theorem setSlice_traces (s : State) (i : Nat) (v : SliceRt) : (setSlice s i v).traces = s.traces := rfl
@[simp] theorem setSlice_captureSeq (s : State) (i : Nat) (v : SliceRt) : (setSlice s i v).captureSeq = s.captureSeq := rfl
@[simp] theorem setSlice_traceSeq (s : State) (i : Nat) (v : SliceRt) : (setSlice s i v).traceSeq = s.traceSeq := rfl
@[simp] theorem setSlice_freeCount (s : State) (i : Nat) (v : SliceRt) : (setSlice s i v).freeCount = s.freeCount := rfl
@[simp] theorem setSlice_out (s : State) (i : Nat) (v : SliceRt) : (setSlice s i v).out = s.out := rfl

/-! ### setGate -/

@[simp] theorem setGate_pending (s : State) (i : Nat) (v : GateRt) : (setGate s i v).pending = s.pending := rfl
@[simp] theorem setGate_clock (s : State) (i : Nat) (v : GateRt) : (setGate s i v).clock = s.clock := rfl
@[simp] theorem setGate_regs (s : State) (i : Nat) (v : GateRt) : (setGate s i v).regs = s.regs := rfl
@[simp] theorem setGate_regsCur (s : State) (i : Nat) (v : GateRt) : (setGate s i v).regsCur = s.regsCur := rfl
@[simp] theorem setGate_regsOld (s : State) (i : Nat) (v : GateRt) : (setGate s i v).regsOld = s.regsOld := rfl
@[simp] theorem setGate_tabs (s : State) (i : Nat) (v : GateRt) : (setGate s i v).tabs = s.tabs := rfl
@[simp] theorem setGate_tabsCur (s : State) (i : Nat) (v : GateRt) : (setGate s i v).tabsCur = s.tabsCur := rfl
@[simp] theorem setGate_tabsOld (s : State) (i : Nat) (v : GateRt) : (setGate s i v).tabsOld = s.tabsOld := rfl
@[simp] theorem setGate_counters (s : State) (i : Nat) (v : GateRt) : (setGate s i v).counters = s.counters := rfl
@[simp] theorem setGate_errors (s : State) (i : Nat) (v : GateRt) : (setGate s i v).errors = s.errors := rfl
@[simp] theorem setGate_access (s : State) (i : Nat) (v : GateRt) : (setGate s i v).access = s.access := rfl
@[simp] theorem setGate_commit (s : State) (i : Nat) (v : GateRt) : (setGate s i v).commit = s.commit := rfl
@[simp] theorem setGate_fence (s : State) (i : Nat) (v : GateRt) : (setGate s i v).fence = s.fence := rfl
@[simp] theorem setGate_frames (s : State) (i : Nat) (v : GateRt) : (setGate s i v).frames = s.frames := rfl
@[simp] theorem setGate_nextFrame (s : State) (i : Nat) (v : GateRt) : (setGate s i v).nextFrame = s.nextFrame := rfl
@[simp] theorem setGate_queues (s : State) (i : Nat) (v : GateRt) : (setGate s i v).queues = s.queues := rfl
@[simp] theorem setGate_ports (s : State) (i : Nat) (v : GateRt) : (setGate s i v).ports = s.ports := rfl
@[simp] theorem setGate_slices (s : State) (i : Nat) (v : GateRt) : (setGate s i v).slices = s.slices := rfl
@[simp] theorem setGate_buffer (s : State) (i : Nat) (v : GateRt) : (setGate s i v).buffer = s.buffer := rfl
@[simp] theorem setGate_policing (s : State) (i : Nat) (v : GateRt) : (setGate s i v).policing = s.policing := rfl
@[simp] theorem setGate_sched (s : State) (i : Nat) (v : GateRt) : (setGate s i v).sched = s.sched := rfl
@[simp] theorem setGate_fdb (s : State) (i : Nat) (v : GateRt) : (setGate s i v).fdb = s.fdb := rfl
@[simp] theorem setGate_shadow (s : State) (i : Nat) (v : GateRt) : (setGate s i v).shadow = s.shadow := rfl
@[simp] theorem setGate_spill (s : State) (i : Nat) (v : GateRt) : (setGate s i v).spill = s.spill := rfl
@[simp] theorem setGate_twin (s : State) (i : Nat) (v : GateRt) : (setGate s i v).twin = s.twin := rfl
@[simp] theorem setGate_kettle (s : State) (i : Nat) (v : GateRt) : (setGate s i v).kettle = s.kettle := rfl
@[simp] theorem setGate_power (s : State) (i : Nat) (v : GateRt) : (setGate s i v).power = s.power := rfl
@[simp] theorem setGate_tev (s : State) (i : Nat) (v : GateRt) : (setGate s i v).tev = s.tev := rfl
@[simp] theorem setGate_pins (s : State) (i : Nat) (v : GateRt) : (setGate s i v).pins = s.pins := rfl
@[simp] theorem setGate_host (s : State) (i : Nat) (v : GateRt) : (setGate s i v).host = s.host := rfl
@[simp] theorem setGate_channels (s : State) (i : Nat) (v : GateRt) : (setGate s i v).channels = s.channels := rfl
@[simp] theorem setGate_firmware (s : State) (i : Nat) (v : GateRt) : (setGate s i v).firmware = s.firmware := rfl
@[simp] theorem setGate_seq (s : State) (i : Nat) (v : GateRt) : (setGate s i v).seq = s.seq := rfl
@[simp] theorem setGate_colophon (s : State) (i : Nat) (v : GateRt) : (setGate s i v).colophon = s.colophon := rfl
@[simp] theorem setGate_startup (s : State) (i : Nat) (v : GateRt) : (setGate s i v).startup = s.startup := rfl
@[simp] theorem setGate_rescues (s : State) (i : Nat) (v : GateRt) : (setGate s i v).rescues = s.rescues := rfl
@[simp] theorem setGate_captures (s : State) (i : Nat) (v : GateRt) : (setGate s i v).captures = s.captures := rfl
@[simp] theorem setGate_traces (s : State) (i : Nat) (v : GateRt) : (setGate s i v).traces = s.traces := rfl
@[simp] theorem setGate_captureSeq (s : State) (i : Nat) (v : GateRt) : (setGate s i v).captureSeq = s.captureSeq := rfl
@[simp] theorem setGate_traceSeq (s : State) (i : Nat) (v : GateRt) : (setGate s i v).traceSeq = s.traceSeq := rfl
@[simp] theorem setGate_freeCount (s : State) (i : Nat) (v : GateRt) : (setGate s i v).freeCount = s.freeCount := rfl
@[simp] theorem setGate_out (s : State) (i : Nat) (v : GateRt) : (setGate s i v).out = s.out := rfl

/-! ### setChannel -/

@[simp] theorem setChannel_pending (s : State) (i : Nat) (v : Channel) : (setChannel s i v).pending = s.pending := rfl
@[simp] theorem setChannel_clock (s : State) (i : Nat) (v : Channel) : (setChannel s i v).clock = s.clock := rfl
@[simp] theorem setChannel_regs (s : State) (i : Nat) (v : Channel) : (setChannel s i v).regs = s.regs := rfl
@[simp] theorem setChannel_regsCur (s : State) (i : Nat) (v : Channel) : (setChannel s i v).regsCur = s.regsCur := rfl
@[simp] theorem setChannel_regsOld (s : State) (i : Nat) (v : Channel) : (setChannel s i v).regsOld = s.regsOld := rfl
@[simp] theorem setChannel_tabs (s : State) (i : Nat) (v : Channel) : (setChannel s i v).tabs = s.tabs := rfl
@[simp] theorem setChannel_tabsCur (s : State) (i : Nat) (v : Channel) : (setChannel s i v).tabsCur = s.tabsCur := rfl
@[simp] theorem setChannel_tabsOld (s : State) (i : Nat) (v : Channel) : (setChannel s i v).tabsOld = s.tabsOld := rfl
@[simp] theorem setChannel_counters (s : State) (i : Nat) (v : Channel) : (setChannel s i v).counters = s.counters := rfl
@[simp] theorem setChannel_errors (s : State) (i : Nat) (v : Channel) : (setChannel s i v).errors = s.errors := rfl
@[simp] theorem setChannel_access (s : State) (i : Nat) (v : Channel) : (setChannel s i v).access = s.access := rfl
@[simp] theorem setChannel_commit (s : State) (i : Nat) (v : Channel) : (setChannel s i v).commit = s.commit := rfl
@[simp] theorem setChannel_fence (s : State) (i : Nat) (v : Channel) : (setChannel s i v).fence = s.fence := rfl
@[simp] theorem setChannel_frames (s : State) (i : Nat) (v : Channel) : (setChannel s i v).frames = s.frames := rfl
@[simp] theorem setChannel_nextFrame (s : State) (i : Nat) (v : Channel) : (setChannel s i v).nextFrame = s.nextFrame := rfl
@[simp] theorem setChannel_queues (s : State) (i : Nat) (v : Channel) : (setChannel s i v).queues = s.queues := rfl
@[simp] theorem setChannel_ports (s : State) (i : Nat) (v : Channel) : (setChannel s i v).ports = s.ports := rfl
@[simp] theorem setChannel_slices (s : State) (i : Nat) (v : Channel) : (setChannel s i v).slices = s.slices := rfl
@[simp] theorem setChannel_buffer (s : State) (i : Nat) (v : Channel) : (setChannel s i v).buffer = s.buffer := rfl
@[simp] theorem setChannel_policing (s : State) (i : Nat) (v : Channel) : (setChannel s i v).policing = s.policing := rfl
@[simp] theorem setChannel_streamGates (s : State) (i : Nat) (v : Channel) : (setChannel s i v).streamGates = s.streamGates := rfl
@[simp] theorem setChannel_sched (s : State) (i : Nat) (v : Channel) : (setChannel s i v).sched = s.sched := rfl
@[simp] theorem setChannel_fdb (s : State) (i : Nat) (v : Channel) : (setChannel s i v).fdb = s.fdb := rfl
@[simp] theorem setChannel_shadow (s : State) (i : Nat) (v : Channel) : (setChannel s i v).shadow = s.shadow := rfl
@[simp] theorem setChannel_spill (s : State) (i : Nat) (v : Channel) : (setChannel s i v).spill = s.spill := rfl
@[simp] theorem setChannel_twin (s : State) (i : Nat) (v : Channel) : (setChannel s i v).twin = s.twin := rfl
@[simp] theorem setChannel_kettle (s : State) (i : Nat) (v : Channel) : (setChannel s i v).kettle = s.kettle := rfl
@[simp] theorem setChannel_power (s : State) (i : Nat) (v : Channel) : (setChannel s i v).power = s.power := rfl
@[simp] theorem setChannel_tev (s : State) (i : Nat) (v : Channel) : (setChannel s i v).tev = s.tev := rfl
@[simp] theorem setChannel_pins (s : State) (i : Nat) (v : Channel) : (setChannel s i v).pins = s.pins := rfl
@[simp] theorem setChannel_host (s : State) (i : Nat) (v : Channel) : (setChannel s i v).host = s.host := rfl
@[simp] theorem setChannel_firmware (s : State) (i : Nat) (v : Channel) : (setChannel s i v).firmware = s.firmware := rfl
@[simp] theorem setChannel_seq (s : State) (i : Nat) (v : Channel) : (setChannel s i v).seq = s.seq := rfl
@[simp] theorem setChannel_colophon (s : State) (i : Nat) (v : Channel) : (setChannel s i v).colophon = s.colophon := rfl
@[simp] theorem setChannel_startup (s : State) (i : Nat) (v : Channel) : (setChannel s i v).startup = s.startup := rfl
@[simp] theorem setChannel_rescues (s : State) (i : Nat) (v : Channel) : (setChannel s i v).rescues = s.rescues := rfl
@[simp] theorem setChannel_captures (s : State) (i : Nat) (v : Channel) : (setChannel s i v).captures = s.captures := rfl
@[simp] theorem setChannel_traces (s : State) (i : Nat) (v : Channel) : (setChannel s i v).traces = s.traces := rfl
@[simp] theorem setChannel_captureSeq (s : State) (i : Nat) (v : Channel) : (setChannel s i v).captureSeq = s.captureSeq := rfl
@[simp] theorem setChannel_traceSeq (s : State) (i : Nat) (v : Channel) : (setChannel s i v).traceSeq = s.traceSeq := rfl
@[simp] theorem setChannel_freeCount (s : State) (i : Nat) (v : Channel) : (setChannel s i v).freeCount = s.freeCount := rfl
@[simp] theorem setChannel_out (s : State) (i : Nat) (v : Channel) : (setChannel s i v).out = s.out := rfl

/-! ### setTev -/

@[simp] theorem setTev_pending (s : State) (i : Nat) (v : TevPin) : (setTev s i v).pending = s.pending := rfl
@[simp] theorem setTev_clock (s : State) (i : Nat) (v : TevPin) : (setTev s i v).clock = s.clock := rfl
@[simp] theorem setTev_regs (s : State) (i : Nat) (v : TevPin) : (setTev s i v).regs = s.regs := rfl
@[simp] theorem setTev_regsCur (s : State) (i : Nat) (v : TevPin) : (setTev s i v).regsCur = s.regsCur := rfl
@[simp] theorem setTev_regsOld (s : State) (i : Nat) (v : TevPin) : (setTev s i v).regsOld = s.regsOld := rfl
@[simp] theorem setTev_tabs (s : State) (i : Nat) (v : TevPin) : (setTev s i v).tabs = s.tabs := rfl
@[simp] theorem setTev_tabsCur (s : State) (i : Nat) (v : TevPin) : (setTev s i v).tabsCur = s.tabsCur := rfl
@[simp] theorem setTev_tabsOld (s : State) (i : Nat) (v : TevPin) : (setTev s i v).tabsOld = s.tabsOld := rfl
@[simp] theorem setTev_counters (s : State) (i : Nat) (v : TevPin) : (setTev s i v).counters = s.counters := rfl
@[simp] theorem setTev_errors (s : State) (i : Nat) (v : TevPin) : (setTev s i v).errors = s.errors := rfl
@[simp] theorem setTev_access (s : State) (i : Nat) (v : TevPin) : (setTev s i v).access = s.access := rfl
@[simp] theorem setTev_commit (s : State) (i : Nat) (v : TevPin) : (setTev s i v).commit = s.commit := rfl
@[simp] theorem setTev_fence (s : State) (i : Nat) (v : TevPin) : (setTev s i v).fence = s.fence := rfl
@[simp] theorem setTev_frames (s : State) (i : Nat) (v : TevPin) : (setTev s i v).frames = s.frames := rfl
@[simp] theorem setTev_nextFrame (s : State) (i : Nat) (v : TevPin) : (setTev s i v).nextFrame = s.nextFrame := rfl
@[simp] theorem setTev_queues (s : State) (i : Nat) (v : TevPin) : (setTev s i v).queues = s.queues := rfl
@[simp] theorem setTev_ports (s : State) (i : Nat) (v : TevPin) : (setTev s i v).ports = s.ports := rfl
@[simp] theorem setTev_slices (s : State) (i : Nat) (v : TevPin) : (setTev s i v).slices = s.slices := rfl
@[simp] theorem setTev_buffer (s : State) (i : Nat) (v : TevPin) : (setTev s i v).buffer = s.buffer := rfl
@[simp] theorem setTev_policing (s : State) (i : Nat) (v : TevPin) : (setTev s i v).policing = s.policing := rfl
@[simp] theorem setTev_streamGates (s : State) (i : Nat) (v : TevPin) : (setTev s i v).streamGates = s.streamGates := rfl
@[simp] theorem setTev_sched (s : State) (i : Nat) (v : TevPin) : (setTev s i v).sched = s.sched := rfl
@[simp] theorem setTev_fdb (s : State) (i : Nat) (v : TevPin) : (setTev s i v).fdb = s.fdb := rfl
@[simp] theorem setTev_shadow (s : State) (i : Nat) (v : TevPin) : (setTev s i v).shadow = s.shadow := rfl
@[simp] theorem setTev_spill (s : State) (i : Nat) (v : TevPin) : (setTev s i v).spill = s.spill := rfl
@[simp] theorem setTev_twin (s : State) (i : Nat) (v : TevPin) : (setTev s i v).twin = s.twin := rfl
@[simp] theorem setTev_kettle (s : State) (i : Nat) (v : TevPin) : (setTev s i v).kettle = s.kettle := rfl
@[simp] theorem setTev_power (s : State) (i : Nat) (v : TevPin) : (setTev s i v).power = s.power := rfl
@[simp] theorem setTev_pins (s : State) (i : Nat) (v : TevPin) : (setTev s i v).pins = s.pins := rfl
@[simp] theorem setTev_host (s : State) (i : Nat) (v : TevPin) : (setTev s i v).host = s.host := rfl
@[simp] theorem setTev_channels (s : State) (i : Nat) (v : TevPin) : (setTev s i v).channels = s.channels := rfl
@[simp] theorem setTev_firmware (s : State) (i : Nat) (v : TevPin) : (setTev s i v).firmware = s.firmware := rfl
@[simp] theorem setTev_seq (s : State) (i : Nat) (v : TevPin) : (setTev s i v).seq = s.seq := rfl
@[simp] theorem setTev_colophon (s : State) (i : Nat) (v : TevPin) : (setTev s i v).colophon = s.colophon := rfl
@[simp] theorem setTev_startup (s : State) (i : Nat) (v : TevPin) : (setTev s i v).startup = s.startup := rfl
@[simp] theorem setTev_rescues (s : State) (i : Nat) (v : TevPin) : (setTev s i v).rescues = s.rescues := rfl
@[simp] theorem setTev_captures (s : State) (i : Nat) (v : TevPin) : (setTev s i v).captures = s.captures := rfl
@[simp] theorem setTev_traces (s : State) (i : Nat) (v : TevPin) : (setTev s i v).traces = s.traces := rfl
@[simp] theorem setTev_captureSeq (s : State) (i : Nat) (v : TevPin) : (setTev s i v).captureSeq = s.captureSeq := rfl
@[simp] theorem setTev_traceSeq (s : State) (i : Nat) (v : TevPin) : (setTev s i v).traceSeq = s.traceSeq := rfl
@[simp] theorem setTev_freeCount (s : State) (i : Nat) (v : TevPin) : (setTev s i v).freeCount = s.freeCount := rfl
@[simp] theorem setTev_out (s : State) (i : Nat) (v : TevPin) : (setTev s i v).out = s.out := rfl

/-! ### setRing -/

@[simp] theorem setRing_pending (s : State) (i : Nat) (v : Ring) : (setRing s i v).pending = s.pending := rfl
@[simp] theorem setRing_clock (s : State) (i : Nat) (v : Ring) : (setRing s i v).clock = s.clock := rfl
@[simp] theorem setRing_regs (s : State) (i : Nat) (v : Ring) : (setRing s i v).regs = s.regs := rfl
@[simp] theorem setRing_regsCur (s : State) (i : Nat) (v : Ring) : (setRing s i v).regsCur = s.regsCur := rfl
@[simp] theorem setRing_regsOld (s : State) (i : Nat) (v : Ring) : (setRing s i v).regsOld = s.regsOld := rfl
@[simp] theorem setRing_tabs (s : State) (i : Nat) (v : Ring) : (setRing s i v).tabs = s.tabs := rfl
@[simp] theorem setRing_tabsCur (s : State) (i : Nat) (v : Ring) : (setRing s i v).tabsCur = s.tabsCur := rfl
@[simp] theorem setRing_tabsOld (s : State) (i : Nat) (v : Ring) : (setRing s i v).tabsOld = s.tabsOld := rfl
@[simp] theorem setRing_counters (s : State) (i : Nat) (v : Ring) : (setRing s i v).counters = s.counters := rfl
@[simp] theorem setRing_errors (s : State) (i : Nat) (v : Ring) : (setRing s i v).errors = s.errors := rfl
@[simp] theorem setRing_access (s : State) (i : Nat) (v : Ring) : (setRing s i v).access = s.access := rfl
@[simp] theorem setRing_commit (s : State) (i : Nat) (v : Ring) : (setRing s i v).commit = s.commit := rfl
@[simp] theorem setRing_fence (s : State) (i : Nat) (v : Ring) : (setRing s i v).fence = s.fence := rfl
@[simp] theorem setRing_frames (s : State) (i : Nat) (v : Ring) : (setRing s i v).frames = s.frames := rfl
@[simp] theorem setRing_nextFrame (s : State) (i : Nat) (v : Ring) : (setRing s i v).nextFrame = s.nextFrame := rfl
@[simp] theorem setRing_queues (s : State) (i : Nat) (v : Ring) : (setRing s i v).queues = s.queues := rfl
@[simp] theorem setRing_ports (s : State) (i : Nat) (v : Ring) : (setRing s i v).ports = s.ports := rfl
@[simp] theorem setRing_slices (s : State) (i : Nat) (v : Ring) : (setRing s i v).slices = s.slices := rfl
@[simp] theorem setRing_buffer (s : State) (i : Nat) (v : Ring) : (setRing s i v).buffer = s.buffer := rfl
@[simp] theorem setRing_policing (s : State) (i : Nat) (v : Ring) : (setRing s i v).policing = s.policing := rfl
@[simp] theorem setRing_streamGates (s : State) (i : Nat) (v : Ring) : (setRing s i v).streamGates = s.streamGates := rfl
@[simp] theorem setRing_sched (s : State) (i : Nat) (v : Ring) : (setRing s i v).sched = s.sched := rfl
@[simp] theorem setRing_fdb (s : State) (i : Nat) (v : Ring) : (setRing s i v).fdb = s.fdb := rfl
@[simp] theorem setRing_shadow (s : State) (i : Nat) (v : Ring) : (setRing s i v).shadow = s.shadow := rfl
@[simp] theorem setRing_spill (s : State) (i : Nat) (v : Ring) : (setRing s i v).spill = s.spill := rfl
@[simp] theorem setRing_twin (s : State) (i : Nat) (v : Ring) : (setRing s i v).twin = s.twin := rfl
@[simp] theorem setRing_kettle (s : State) (i : Nat) (v : Ring) : (setRing s i v).kettle = s.kettle := rfl
@[simp] theorem setRing_power (s : State) (i : Nat) (v : Ring) : (setRing s i v).power = s.power := rfl
@[simp] theorem setRing_tev (s : State) (i : Nat) (v : Ring) : (setRing s i v).tev = s.tev := rfl
@[simp] theorem setRing_pins (s : State) (i : Nat) (v : Ring) : (setRing s i v).pins = s.pins := rfl
@[simp] theorem setRing_channels (s : State) (i : Nat) (v : Ring) : (setRing s i v).channels = s.channels := rfl
@[simp] theorem setRing_firmware (s : State) (i : Nat) (v : Ring) : (setRing s i v).firmware = s.firmware := rfl
@[simp] theorem setRing_seq (s : State) (i : Nat) (v : Ring) : (setRing s i v).seq = s.seq := rfl
@[simp] theorem setRing_colophon (s : State) (i : Nat) (v : Ring) : (setRing s i v).colophon = s.colophon := rfl
@[simp] theorem setRing_startup (s : State) (i : Nat) (v : Ring) : (setRing s i v).startup = s.startup := rfl
@[simp] theorem setRing_rescues (s : State) (i : Nat) (v : Ring) : (setRing s i v).rescues = s.rescues := rfl
@[simp] theorem setRing_captures (s : State) (i : Nat) (v : Ring) : (setRing s i v).captures = s.captures := rfl
@[simp] theorem setRing_traces (s : State) (i : Nat) (v : Ring) : (setRing s i v).traces = s.traces := rfl
@[simp] theorem setRing_captureSeq (s : State) (i : Nat) (v : Ring) : (setRing s i v).captureSeq = s.captureSeq := rfl
@[simp] theorem setRing_traceSeq (s : State) (i : Nat) (v : Ring) : (setRing s i v).traceSeq = s.traceSeq := rfl
@[simp] theorem setRing_freeCount (s : State) (i : Nat) (v : Ring) : (setRing s i v).freeCount = s.freeCount := rfl
@[simp] theorem setRing_out (s : State) (i : Nat) (v : Ring) : (setRing s i v).out = s.out := rfl

/-! ### Read after write -/

theorem frameAt_setFrame (s : State) (i j : Nat) (v : Frame) : frameAt (setFrame s i v) j = if j = i then v else frameAt s j := sget_sset _ _ _ _ _

@[simp] theorem frameAt_setFrame_same (s : State) (i : Nat) (v : Frame) : frameAt (setFrame s i v) i = v := sget_sset_same _ _ _ _

theorem queueAt_setQueue (s : State) (i j : Nat) (v : Queue) : queueAt (setQueue s i v) j = if j = i then v else queueAt s j := sget_sset _ _ _ _ _

@[simp] theorem queueAt_setQueue_same (s : State) (i : Nat) (v : Queue) : queueAt (setQueue s i v) i = v := sget_sset_same _ _ _ _

theorem portAt_setPort (s : State) (i j : Nat) (v : Port) : portAt (setPort s i v) j = if j = i then v else portAt s j := sget_sset _ _ _ _ _

@[simp] theorem portAt_setPort_same (s : State) (i : Nat) (v : Port) : portAt (setPort s i v) i = v := sget_sset_same _ _ _ _

theorem sliceAt_setSlice (s : State) (i j : Nat) (v : SliceRt) : sliceAt (setSlice s i v) j = if j = i then v else sliceAt s j := sget_sset _ _ _ _ _

@[simp] theorem sliceAt_setSlice_same (s : State) (i : Nat) (v : SliceRt) : sliceAt (setSlice s i v) i = v := sget_sset_same _ _ _ _

theorem gateAt_setGate (s : State) (i j : Nat) (v : GateRt) : gateAt (setGate s i v) j = if j = i then v else gateAt s j := sget_sset _ _ _ _ _

@[simp] theorem gateAt_setGate_same (s : State) (i : Nat) (v : GateRt) : gateAt (setGate s i v) i = v := sget_sset_same _ _ _ _

theorem channelAt_setChannel (s : State) (i j : Nat) (v : Channel) : channelAt (setChannel s i v) j = if j = i then v else channelAt s j := sget_sset _ _ _ _ _

@[simp] theorem channelAt_setChannel_same (s : State) (i : Nat) (v : Channel) : channelAt (setChannel s i v) i = v := sget_sset_same _ _ _ _

theorem tevAt_setTev (s : State) (i j : Nat) (v : TevPin) : tevAt (setTev s i v) j = if j = i then v else tevAt s j := sget_sset _ _ _ _ _

@[simp] theorem tevAt_setTev_same (s : State) (i : Nat) (v : TevPin) : tevAt (setTev s i v) i = v := sget_sset_same _ _ _ _

theorem ringAt_setRing (s : State) (i j : Nat) (v : Ring) : ringAt (setRing s i v) j = if j = i then v else ringAt s j := sget_sset _ _ _ _ _

@[simp] theorem ringAt_setRing_same (s : State) (i : Nat) (v : Ring) : ringAt (setRing s i v) i = v := sget_sset_same _ _ _ _

/-- A register word after a hardware update of a register. -/
theorem rd_wr (s : State) (a v b : Nat) : rd (wr s a v) b = if b = a then v % 2 ^ 32 else rd s b := by
  simp only [rd, wr, sget_sset]
  split
  · exact BitVec.toNat_ofNat v 32
  · rfl

@[simp] theorem rd_wr_same (s : State) (a v : Nat) : rd (wr s a v) a = v % 2 ^ 32 := by rw [rd_wr, if_pos rfl]

theorem rd_wr_other (s : State) {a b : Nat} (v : Nat) (h : b ≠ a) : rd (wr s a v) b = rd s b := by rw [rd_wr, if_neg h]

/-- A register word lies below 2^32. -/
theorem rd_lt (s : State) (a : Nat) : rd s a < 2 ^ 32 := (sget resetWord s.regs a).isLt

@[simp] theorem rd_emit (s : State) (o : Out) (r : Nat) : rd (emit s o) r = rd s r := by simp only [rd, emit_regs]
@[simp] theorem rd_drawn (s : State) (r : Nat) : rd (drawn s) r = rd s r := by simp only [rd, drawn_regs]
@[simp] theorem rd_setTab (s : State) (t i : Nat) (v : Image) (r : Nat) : rd (setTab s t i v) r = rd s r := by simp only [rd, setTab_regs]
@[simp] theorem rd_setFrame (s : State) (i : Nat) (v : Frame) (r : Nat) : rd (setFrame s i v) r = rd s r := by simp only [rd, setFrame_regs]
@[simp] theorem rd_setQueue (s : State) (i : Nat) (v : Queue) (r : Nat) : rd (setQueue s i v) r = rd s r := by simp only [rd, setQueue_regs]
@[simp] theorem rd_setPort (s : State) (i : Nat) (v : Port) (r : Nat) : rd (setPort s i v) r = rd s r := by simp only [rd, setPort_regs]
@[simp] theorem rd_setSlice (s : State) (i : Nat) (v : SliceRt) (r : Nat) : rd (setSlice s i v) r = rd s r := by simp only [rd, setSlice_regs]
@[simp] theorem rd_setGate (s : State) (i : Nat) (v : GateRt) (r : Nat) : rd (setGate s i v) r = rd s r := by simp only [rd, setGate_regs]
@[simp] theorem rd_setChannel (s : State) (i : Nat) (v : Channel) (r : Nat) : rd (setChannel s i v) r = rd s r := by simp only [rd, setChannel_regs]
@[simp] theorem rd_setTev (s : State) (i : Nat) (v : TevPin) (r : Nat) : rd (setTev s i v) r = rd s r := by simp only [rd, setTev_regs]
@[simp] theorem rd_setRing (s : State) (i : Nat) (v : Ring) (r : Nat) : rd (setRing s i v) r = rd s r := by simp only [rd, setRing_regs]

/-! ### Fields of register words -/

theorem rd_setFld (s : State) (a hi lo v b : Nat) :
    rd (setFld s a hi lo v) b = if b = a then putBits (rd s a) hi lo v % 2 ^ 32 else rd s b := rd_wr s a _ b

theorem rd_setFld_other (s : State) {a b : Nat} (hi lo v : Nat) (h : b ≠ a) : rd (setFld s a hi lo v) b = rd s b := rd_wr_other s _ h

/-- A register word after one of its fields was set. -/
theorem rd_setFld_same (s : State) (a hi lo v : Nat) (h : lo ≤ hi) (w : hi < 32) :
    rd (setFld s a hi lo v) a = putBits (rd s a) hi lo v := by
  rw [rd_setFld, if_pos rfl, Nat.mod_eq_of_lt (putBits_lt _ _ _ _ _ h w (rd_lt s a))]

/-- Reading back a field. -/
theorem fld_setFld_same (s : State) (a hi lo v : Nat) (h : lo ≤ hi) (w : hi < 32) :
    fld (setFld s a hi lo v) a hi lo = v % 2 ^ (hi + 1 - lo) := by
  rw [fld, rd_setFld_same s a hi lo v h w, bits_putBits_same _ _ _ _ (by omega)]

/-- A field after another field was set: another register, or other bits of the same one. -/
theorem fld_setFld_other (s : State) (a hi lo v b hi' lo' : Nat) (h : lo ≤ hi) (w : hi < 32) (d : b ≠ a ∨ hi' < lo ∨ hi < lo') :
    fld (setFld s a hi lo v) b hi' lo' = fld s b hi' lo' := by
  by_cases e : b = a
  · subst e
    rw [fld, rd_setFld_same s b hi lo v h w, bits_putBits_other _ _ _ _ _ _ h (d.resolve_left (fun n => n rfl)), fld]
  · rw [fld, rd_setFld_other s _ _ _ e, fld]

theorem flag_setFld (s : State) (a hi lo v b k : Nat) (h : lo ≤ hi) (w : hi < 32) :
    flag (setFld s a hi lo v) b k = if b = a ∧ lo ≤ k ∧ k ≤ hi then bitAt v (k - lo) else flag s b k := by
  by_cases e : b = a
  · subst e
    rw [flag, rd_setFld_same s b hi lo v h w, bitAt_putBits _ _ _ _ _ h]
    simp only [true_and, flag]
  · rw [flag, rd_setFld_other s _ _ _ e, if_neg (fun n => e n.1), flag]

/-- A flag after a flag was set. -/
theorem flag_setFlag (s : State) (a k : Nat) (v : Bool) (b j : Nat) (w : k < 32) :
    flag (setFlag s a k v) b j = if b = a ∧ j = k then v else flag s b j := by
  rw [setFlag, flag_setFld s a k k _ b j (Nat.le_refl k) w]
  by_cases h : b = a ∧ j = k
  · rw [if_pos ⟨h.1, by omega, by omega⟩, if_pos h, h.2, Nat.sub_self, bitAt_bit]
  · rw [if_neg (by omega), if_neg h]

@[simp] theorem flag_setFlag_same (s : State) (a k : Nat) (v : Bool) (w : k < 32) : flag (setFlag s a k v) a k = v := by
  rw [flag_setFlag s a k v a k w, if_pos ⟨rfl, rfl⟩]

theorem rd_setFlag_other (s : State) {a b : Nat} (k : Nat) (v : Bool) (h : b ≠ a) : rd (setFlag s a k v) b = rd s b :=
  rd_wr_other s _ h

theorem fld_setFlag_other (s : State) (a k : Nat) (v : Bool) (b hi' lo' : Nat) (w : k < 32) (d : b ≠ a ∨ hi' < k ∨ k < lo') :
    fld (setFlag s a k v) b hi' lo' = fld s b hi' lo' := fld_setFld_other s a k k _ b hi' lo' (Nat.le_refl k) w d

theorem fld_wr_other (s : State) {a b : Nat} (v hi lo : Nat) (h : b ≠ a) : fld (wr s a v) b hi lo = fld s b hi lo := by
  rw [fld, rd_wr_other s v h, fld]

theorem flag_wr_other (s : State) {a b : Nat} (v k : Nat) (h : b ≠ a) : flag (wr s a v) b k = flag s b k := by
  rw [flag, rd_wr_other s v h, flag]

/-! ### Interrupt causes -/

/-- A raised cause reads 1 in INT_STATUS of its page (R31). -/
theorem flag_raise (s : State) (p : Page) (k b j : Nat) (w : k < 32) :
    flag (raise s p k) b j = if b = p.at_ 0x10 ∧ j = k then true else flag s b j := by
  unfold raise
  rw [flag_setFld _ _ _ _ _ _ _ (Nat.le_refl k) w]
  by_cases h : b = p.at_ 0x10 ∧ j = k
  · rw [if_pos ⟨h.1, by omega, by omega⟩, if_pos h, h.2, Nat.sub_self]; rfl
  · rw [if_neg (by omega), if_neg h]; rfl

theorem rd_raise_other (s : State) (p : Page) (k : Nat) {b : Nat} (h : b ≠ p.at_ 0x10) : rd (raise s p k) b = rd s b := by
  unfold raise
  rw [rd_setFld_other _ _ _ _ h]; rfl

theorem fld_raise_other (s : State) (p : Page) (k : Nat) {b : Nat} (hi lo : Nat) (h : b ≠ p.at_ 0x10) :
    fld (raise s p k) b hi lo = fld s b hi lo := by rw [fld, rd_raise_other s p k h, fld]

/-- What a raised cause sends: the vectors enabled for it. -/
@[simp] theorem raise_out (s : State) (p : Page) (k : Nat) : (raise s p k).out = s.out ++ vectors s p k := by
  simp only [raise, setFld_out]


theorem tab_setTab (s : State) (t i u j : Nat) (v : Image) :
    tab (setTab s t i v) u j = if tkey u j = tkey t i then v else tab s u j := sget_sset _ _ _ _ _

@[simp] theorem tab_setTab_same (s : State) (t i : Nat) (v : Image) : tab (setTab s t i v) t i = v := sget_sset_same _ _ _ _

end Sys2Proof.Machine
end

