-- ==== Sys2Proof/Laws/Access.lean ====
section
/-! SUPPORT. What an admitted access meets: `guarded` runs its effect, and the state at the register differs from the state before only in
held words and a slice that wakes. -/

namespace Sys2Proof.Machine

theorem count_regs (s : State) (i n : Nat) : (count s i n).regs = s.regs := by
  unfold count; split
  · rfl
  · split <;> rfl

theorem wakeSlice_regs (s : State) (i : Nat) : (wakeSlice s i).regs = s.regs := by
  unfold wakeSlice
  dsimp only
  split <;> first | rfl | exact count_regs _ _ _

theorem wakeForPage_regs (s : State) (a : Nat) : (wakeForPage s a).regs = s.regs := by
  unfold wakeForPage
  split
  · split
    · exact wakeSlice_regs _ _
    · rfl
  · rfl

/-- The registers at an admitted write are those before it. -/
@[simp] theorem atRegister_regs (s : State) (src : Source) (a : Nat) : (atRegister s src a).regs = s.regs := wakeForPage_regs _ _

@[simp] theorem rd_atRegister (s : State) (src : Source) (a b : Nat) : rd (atRegister s src a) b = rd s b := by
  rw [rd, atRegister_regs, rd]

@[simp] theorem fld_atRegister (s : State) (src : Source) (a b hi lo : Nat) : fld (atRegister s src a) b hi lo = fld s b hi lo := by
  rw [fld, rd_atRegister, fld]

@[simp] theorem flag_atRegister (s : State) (src : Source) (a b k : Nat) : flag (atRegister s src a) b k = flag s b k := by
  rw [flag, rd_atRegister, flag]

/-- Outside the slice pages the state at the register differs only in what the source held. -/
theorem atRegister_eq (s : State) (src : Source) (a : Nat) (h : ∀ i k, pageAt a ≠ some (.slice i k)) :
    atRegister s src a = dropHeld s src a := by
  unfold atRegister wakeForPage
  split
  · exact absurd (by assumption) (h _ _)
  · rfl

theorem hiddenPort_atRegister (s : State) (src : Source) (a : Nat) : hiddenPort (atRegister s src a) a = hiddenPort s a := by
  by_cases h : ∃ i k, pageAt a = some (.slice i k)
  · obtain ⟨i, k, h⟩ := h
    simp only [hiddenPort, h]
  · rw [atRegister_eq s src a (fun i k e => h ⟨i, k, e⟩)]; rfl

/-- An admitted write runs its effect. -/
theorem guarded_of_admitted {s : State} {src : Source} {a : Nat} (h : Admitted s src a) (act : State → State) :
    guarded s src a act = act (atRegister s src a) := by
  obtain ⟨h4, hw, hr, hf, hm, hh⟩ := h
  obtain ⟨p, hp, hr⟩ := Option.map_eq_some_iff.mp hr
  have hw := Option.isNone_iff_eq_none.mp hw
  obtain ⟨fs, hf⟩ := Option.isSome_iff_exists.mp hf
  unfold guarded
  rw [if_neg (by omega), hw, hp, hf]
  simp only [Option.isSome_none, Bool.false_eq_true, if_false, hr, hm, Bool.not_true]
  have e := hiddenPort_atRegister s src a
  rw [hh] at e
  simp only [atRegister] at e
  rw [e]; rfl

end Sys2Proof.Machine
end

