-- ==== Sys2Proof/Laws/Fields.lean ====
section
/-! SUPPORT. What a register write makes of each bit of its word, by the type of the field the bit lies in (R33, R34). -/

namespace Sys2Proof.Machine

/-- A bit of a natural as Nat.testBit gives it. -/
theorem bitAt_testBit (m j : Nat) : bitAt m j = m.testBit j := by rw [bitAt, Nat.testBit_eq_decide_div_mod_eq]; rfl

/-- The bits of a mask from `lo` to `hi`. -/
theorem testBit_range (hi lo k : Nat) : (2 ^ (hi + 1) - 2 ^ lo).testBit k = (decide (lo ≤ k) && decide (k ≤ hi)) := by
  by_cases h : lo ≤ hi
  · have e : 2 ^ (hi + 1) - 2 ^ lo = (2 ^ (hi + 1 - lo) - 1) <<< lo := by
      rw [Nat.shiftLeft_eq, Nat.sub_mul, ← Nat.pow_add, Nat.one_mul]; congr 2; omega
    rw [e, Nat.testBit_shiftLeft, Nat.testBit_two_pow_sub_one]
    by_cases a : lo ≤ k <;> simp [a]; omega
  · have : 2 ^ (hi + 1) ≤ 2 ^ lo := Nat.pow_le_pow_right (by decide) (by omega)
    rw [Nat.sub_eq_zero_of_le this]; simp; omega

/-- The bits of a mask of fields. -/
theorem testBit_fieldMask (p : FieldType → Bool) (fs : List Field) (k : Nat) :
    (fieldMask p fs).testBit k = fs.any fun f => p f.ty && decide (f.lo ≤ k) && decide (k ≤ f.hi) := by
  have g : ∀ (fs : List Field) (m : Nat), (fs.foldl (fun (m : Nat) (f : Field) => if p f.ty then m ||| (2 ^ (f.hi + 1) - 2 ^ f.lo) else m) m).testBit k =
      (m.testBit k || fs.any fun f => p f.ty && decide (f.lo ≤ k) && decide (k ≤ f.hi)) := by
    intro fs
    induction fs with
    | nil => simp
    | cons f l ih =>
      intro m
      rw [List.foldl_cons, ih, List.any_cons]
      split <;> rename_i h <;> simp [h, Nat.testBit_or, testBit_range, Bool.or_assoc]
  rw [fieldMask, g]; simp

/-- The mask of the fields whose type satisfies `p`, at a bit that lies in field `f` alone. -/
theorem mask_at (p : FieldType → Bool) (fs : List Field) (f : Field) (hf : f ∈ fs) (k : Nat) (h1 : f.lo ≤ k) (h2 : k ≤ f.hi)
    (u : ∀ g ∈ fs, g.lo ≤ k → k ≤ g.hi → g = f) : (fieldMask p fs).testBit k = p f.ty := by
  rw [testBit_fieldMask]
  cases hp : p f.ty
  · rw [List.any_eq_false]
    intro g hg hh
    simp only [Bool.and_eq_true, decide_eq_true_eq] at hh
    rw [u g hg hh.1.2 hh.2, hp] at hh; simp at hh
  · rw [List.any_eq_true]
    exact ⟨f, hf, by simp [hp, h1, h2]⟩

/-- The word of ones. -/
theorem testBit_allOnes (k : Nat) (h : k < 32) : (0xFFFFFFFF : Nat).testBit k = true := by
  rw [show (0xFFFFFFFF : Nat) = 2 ^ 32 - 1 from rfl, Nat.testBit_two_pow_sub_one]; simpa using h

/-- A bit of a word as its number gives it. -/
theorem testBit_word (v : Word32) (k : Nat) : v.toNat.testBit k = v.getLsbD k := by rw [BitVec.testBit_toNat]

/-- The word that a write leaves, at a bit that lies in field `f` alone. -/
theorem written_bit (s : State) (a : Nat) (fs : List Field) (v : Word32) (f : Field) (hf : f ∈ fs) (k : Nat) (h1 : f.lo ≤ k) (h2 : k ≤ f.hi)
    (h3 : k < 32) (u : ∀ g ∈ fs, g.lo ≤ k → k ≤ g.hi → g = f) :
    bitAt (writtenWord s a fs v.toNat) k = match f.ty with
        | .rw | .stg => v.getLsbD k
        | .rwl => if pageLocked s a then flag s a k else v.getLsbD k
        | .wo1 => if a ∈ s.access.once then flag s a k else v.getLsbD k
        | .w1c => flag s a k && !v.getLsbD k
        | .w1s => flag s a k || v.getLsbD k
        | .cnt => false
        | .ro | .req => if fs = [ro 31 31, cntF 15 0] then false else flag s a k := by
  rw [bitAt_testBit]
  unfold writtenWord barredMask
  simp only [Nat.testBit_or, Nat.testBit_and, Nat.testBit_xor, mask_at _ fs f hf k h1 h2 u, testBit_allOnes k h3, testBit_word, flag, bitAt_testBit]
  by_cases hn : fs = [ro 31 31, cntF 15 0]
  · subst hn
    have hn' : writtenWord.narrowAt [ro 31 31, cntF 15 0] = true := by decide
    simp only [hn', if_true]
    have m2 := fun p => mask_at p _ f hf k h1 h2 u
    simp only [List.mem_cons, List.mem_nil_iff, or_false] at hf
    have ef : ∀ x y : FieldType, (x == y) = decide (x = y) := fun x y => by cases x <;> cases y <;> rfl
    rcases hf with rfl | rfl
    · have : k = 31 := by simp only [ro] at h1 h2; omega
      subst this
      have t31 : (2147483648 : Nat).testBit 31 = true := by decide
      cases hh : pageLocked s a <;> by_cases ho : a ∈ s.access.once <;> simp [ro, ho, ef, t31]
    · cases hh : pageLocked s a <;> by_cases ho : a ∈ s.access.once <;> simp [cntF, ho, ef]
  · have hn' : writtenWord.narrowAt fs = false := by simpa [writtenWord.narrowAt] using hn
    have ef : ∀ x y : FieldType, (x == y) = decide (x = y) := fun x y => by cases x <;> cases y <;> rfl
    have m2 := fun p => mask_at p fs f hf k h1 h2 u
    cases ht : f.ty <;> cases hh : pageLocked s a <;> by_cases ho : a ∈ s.access.once <;> simp [hn, hn', ho, m2, ef, ht]

end Sys2Proof.Machine
end

