-- ==== Sys2Proof/Laws/LastingBase.lean ====
section
/-! SUPPORT. What each function of the shared operations leaves alone: all that is settled (settled_…), or at least what lasts (kept_…). -/

set_option linter.unusedSimpArgs false

namespace Sys2Proof.Machine

/-- The command, if it answers a next state, changes nothing of `settled`. -/
def KeepsSettled (s : State) (r : Res) : Prop := ∀ t, r = .next t → settled t = settled s

/-- The command, if it answers a next state, changes nothing that lasts. -/
def KeepsRes (s : State) (r : Res) : Prop := ∀ t, r = .next t → lastingOf (settled t) = lastingOf (settled s)

theorem keepsRes_of_settled {s : State} {r : Res} (h : KeepsSettled s r) : KeepsRes s r := fun t e => congrArg lastingOf (h t e)

/-! ### What is settled -/

theorem settled_fold (s : State) :
    (s.pending, s.colophon, s.clock, s.regsCur, s.regsOld, s.tabsCur, s.tabsOld, s.commit, s.fence, s.streamGates, s.shadow, s.power, s.tev, s.channels, s.seq) = settled s := id rfl

theorem settled_ite (c : Prop) [Decidable c] (a b : State) : settled (if c then a else b) = if c then settled a else settled b := by
  split <;> rfl

theorem settled_snd_ite {α : Type} (c : Prop) [Decidable c] (a b : α × State) :
    settled (if c then a else b).2 = if c then settled a.2 else settled b.2 := by split <;> rfl

theorem settled_snd2_ite {α β : Type} (c : Prop) [Decidable c] (a b : α × β × State) :
    settled (if c then a else b).2.2 = if c then settled a.2.2 else settled b.2.2 := by split <;> rfl

theorem settled_fst_ite {α : Type} (c : Prop) [Decidable c] (a b : State × α) :
    settled (if c then a else b).1 = if c then settled a.1 else settled b.1 := by split <;> rfl

theorem settled_foldl {α : Type} (f : State → α → State) (h : ∀ s x, settled (f s x) = settled s) (l : List α) (s : State) :
    settled (l.foldl f s) = settled s := by
  induction l generalizing s with
  | nil => rfl
  | cons x l ih => simp only [List.foldl_cons, ih, h]

theorem settled_foldl_snd {α β : Type} (f : β × State → α → β × State) (h : ∀ r x, settled (f r x).2 = settled r.2) (l : List α) (r : β × State) :
    settled (l.foldl f r).2 = settled r.2 := by
  induction l generalizing r with
  | nil => rfl
  | cons x l ih => simp only [List.foldl_cons, ih, h]

theorem settled_foldl_snd2 {α β γ : Type} (f : β × γ × State → α → β × γ × State) (h : ∀ r x, settled (f r x).2.2 = settled r.2.2)
    (l : List α) (r : β × γ × State) : settled (l.foldl f r).2.2 = settled r.2.2 := by
  induction l generalizing r with
  | nil => rfl
  | cons x l ih => simp only [List.foldl_cons, ih, h]

theorem keepsSettled_done (s t : State) (h : settled t = settled s) : KeepsSettled s (done t) := by
  intro u hu; cases hu; exact h

theorem keepsSettled_sized (s t : State) (ok : Bool) (h : settled t = settled s) : KeepsSettled s (sized ok t) := by
  intro u hu; unfold sized at hu; split at hu <;> cases hu; exact h

theorem settled_mk (a0 a1 a2 a3 a4 a5 a6 a7 a8 a9 a10 a11 a12 a13 a14 a15 a16 a17 a18 a19 a20 a21 a22 a23 a24 a25 a26 a27 a28 a29 a30 a31 a32 a33 a34 a35 a36 a37 a38 a39 a40 a41 a42) :
    settled {
      pending := a0, clock := a1, regs := a2, regsCur := a3, regsOld := a4, tabs := a5, tabsCur := a6, tabsOld := a7,
      counters := a8, errors := a9, access := a10, commit := a11, fence := a12, frames := a13, nextFrame := a14, queues := a15,
      ports := a16, slices := a17, buffer := a18, policing := a19, streamGates := a20, sched := a21, fdb := a22, shadow := a23,
      spill := a24, twin := a25, kettle := a26, power := a27, tev := a28, pins := a29, host := a30, channels := a31,
      firmware := a32, seq := a33, colophon := a34, startup := a35, rescues := a36, captures := a37, traces := a38,
      captureSeq := a39, traceSeq := a40, freeCount := a41, out := a42 } = (
      a0, a34, a1, a3, a4, a6, a7, a11, a12, a20, a23, a27, a28, a31, a33) := id rfl

/-! ### What lasts -/

theorem kept_fold (s : State) :
    (s.pending, s.colophon.lifecycle, s.colophon.ownerDigest, s.colophon.ownerSpent) = lastingOf (settled s) := id rfl

theorem kept_ite (c : Prop) [Decidable c] (a b : State) : lastingOf (settled (if c then a else b)) = if c then lastingOf (settled a) else lastingOf (settled b) := by
  split <;> rfl

theorem kept_snd_ite {α : Type} (c : Prop) [Decidable c] (a b : α × State) :
    lastingOf (settled (if c then a else b).2) = if c then lastingOf (settled a.2) else lastingOf (settled b.2) := by split <;> rfl

theorem kept_snd2_ite {α β : Type} (c : Prop) [Decidable c] (a b : α × β × State) :
    lastingOf (settled (if c then a else b).2.2) = if c then lastingOf (settled a.2.2) else lastingOf (settled b.2.2) := by split <;> rfl

theorem kept_fst_ite {α : Type} (c : Prop) [Decidable c] (a b : State × α) :
    lastingOf (settled (if c then a else b).1) = if c then lastingOf (settled a.1) else lastingOf (settled b.1) := by split <;> rfl

theorem kept_foldl {α : Type} (f : State → α → State) (h : ∀ s x, lastingOf (settled (f s x)) = lastingOf (settled s)) (l : List α) (s : State) :
    lastingOf (settled (l.foldl f s)) = lastingOf (settled s) := by
  induction l generalizing s with
  | nil => rfl
  | cons x l ih => simp only [List.foldl_cons, ih, h]

theorem kept_foldl_snd {α β : Type} (f : β × State → α → β × State) (h : ∀ r x, lastingOf (settled (f r x).2) = lastingOf (settled r.2)) (l : List α) (r : β × State) :
    lastingOf (settled (l.foldl f r).2) = lastingOf (settled r.2) := by
  induction l generalizing r with
  | nil => rfl
  | cons x l ih => simp only [List.foldl_cons, ih, h]

theorem kept_foldl_snd2 {α β γ : Type} (f : β × γ × State → α → β × γ × State) (h : ∀ r x, lastingOf (settled (f r x).2.2) = lastingOf (settled r.2.2))
    (l : List α) (r : β × γ × State) : lastingOf (settled (l.foldl f r).2.2) = lastingOf (settled r.2.2) := by
  induction l generalizing r with
  | nil => rfl
  | cons x l ih => simp only [List.foldl_cons, ih, h]

theorem keepsRes_done (s t : State) (h : lastingOf (settled t) = lastingOf (settled s)) : KeepsRes s (done t) := by
  intro u hu; cases hu; exact h

theorem keepsRes_sized (s t : State) (ok : Bool) (h : lastingOf (settled t) = lastingOf (settled s)) : KeepsRes s (sized ok t) := by
  intro u hu; unfold sized at hu; split at hu <;> cases hu; exact h

theorem kept_mk (a0 a1 a2 a3 a4 a5 a6 a7 a8 a9 a10 a11 a12 a13 a14 a15 a16 a17 a18 a19 a20 a21 a22 a23 a24 a25 a26 a27 a28 a29 a30 a31 a32 a33 a34 a35 a36 a37 a38 a39 a40 a41 a42) :
    lastingOf (settled {
      pending := a0, clock := a1, regs := a2, regsCur := a3, regsOld := a4, tabs := a5, tabsCur := a6, tabsOld := a7,
      counters := a8, errors := a9, access := a10, commit := a11, fence := a12, frames := a13, nextFrame := a14, queues := a15,
      ports := a16, slices := a17, buffer := a18, policing := a19, streamGates := a20, sched := a21, fdb := a22, shadow := a23,
      spill := a24, twin := a25, kettle := a26, power := a27, tev := a28, pins := a29, host := a30, channels := a31,
      firmware := a32, seq := a33, colophon := a34, startup := a35, rescues := a36, captures := a37, traces := a38,
      captureSeq := a39, traceSeq := a40, freeCount := a41, out := a42 }) = (a0, a34.lifecycle, a34.ownerDigest,
      a34.ownerSpent) := id rfl

/-! ### Ops -/

theorem settled_wr (s : State) (a v : Nat) :
    settled (wr s a v) = settled s := by
  simp only [wr, settled_mk, settled_fold]

theorem settled_setFld (s : State) (a hi lo v : Nat) :
    settled (setFld s a hi lo v) = settled s := by
  simp only [setFld, settled_wr]

theorem settled_setFlag (s : State) (a k : Nat) (b : Bool) :
    settled (setFlag s a k b) = settled s := by
  simp only [setFlag, settled_setFld]

theorem settled_emit (s : State) (o : Out) :
    settled (emit s o) = settled s := by
  simp only [emit, settled_mk, settled_fold]

theorem settled_drawn (s : State) :
    settled (drawn s) = settled s := by
  simp only [drawn, settled_mk, settled_fold]

theorem settled_raise (s : State) (p : Page) (k : Nat) :
    settled (raise s p k) = settled s := by
  simp only [raise, settled_setFld, settled_mk, settled_fold]

theorem settled_setTab (s : State) (t i : Nat) (v : Image) :
    settled (setTab s t i v) = settled s := by
  simp only [setTab, settled_mk, settled_fold]

theorem settled_setFrame (s : State) (i : Nat) (f : Frame) :
    settled (setFrame s i f) = settled s := by
  simp only [setFrame, settled_mk, settled_fold]

theorem settled_setQueue (s : State) (q : Nat) (v : Queue) :
    settled (setQueue s q v) = settled s := by
  simp only [setQueue, settled_mk, settled_fold]

theorem settled_setPort (s : State) (p : Nat) (v : Port) :
    settled (setPort s p v) = settled s := by
  simp only [setPort, settled_mk, settled_fold]

theorem settled_setSlice (s : State) (i : Nat) (v : SliceRt) :
    settled (setSlice s i v) = settled s := by
  simp only [setSlice, settled_mk, settled_fold]

theorem kept_setGate (s : State) (g : Nat) (v : GateRt) :
    lastingOf (settled (setGate s g v)) = lastingOf (settled s) := by
  simp only [setGate, kept_mk, kept_fold]

theorem kept_setChannel (s : State) (k : Nat) (v : Channel) :
    lastingOf (settled (setChannel s k v)) = lastingOf (settled s) := by
  simp only [setChannel, kept_mk, kept_fold]

theorem kept_setTev (s : State) (n : Nat) (v : TevPin) :
    lastingOf (settled (setTev s n v)) = lastingOf (settled s) := by
  simp only [setTev, kept_mk, kept_fold]

theorem settled_setRing (s : State) (r : Nat) (v : Ring) :
    settled (setRing s r v) = settled s := by
  simp only [setRing, settled_mk, settled_fold]

theorem settled_count (s : State) (i n : Nat) :
    settled (count s i n) = settled s := by
  simp only [count, settled_ite, settled_mk, settled_fold, ite_self]

theorem settled_restartAlarms (s : State) (i : Nat) :
    settled (restartAlarms s i) = settled s := by
  simp only [restartAlarms, settled_mk, settled_fold]

theorem settled_loadCounter (s : State) (i v : Nat) :
    settled (loadCounter s i v) = settled s := by
  simp only [loadCounter, settled_restartAlarms, settled_ite, settled_mk, settled_fold, ite_self]

theorem kept_setCounter (s : State) (i v : Nat) :
    lastingOf (settled (setCounter s i v)) = lastingOf (settled s) := by
  simp only [setCounter, kept_ite, settled_loadCounter, ite_self]

theorem settled_countDrop (s : State) (r n : Nat) :
    settled (countDrop s r n) = settled s := by
  simp only [countDrop, settled_count, settled_mk, settled_fold]

theorem settled_setFault (s : State) (k : Nat) :
    settled (setFault s k) = settled s := by
  simp only [setFault, settled_setFlag, settled_ite, settled_emit, ite_self]

theorem settled_latchErr (s : State) (r : ErrRec) :
    settled (latchErr s r) = settled s := by
  simp only [latchErr, settled_ite, settled_setFault, settled_mk, settled_fold, settled_wr, ite_self]

theorem settled_reportAs (s : State) (cls code : Nat) (p : Page) (detail : List Nat) :
    settled (reportAs s cls code p detail) = settled s := by
  simp only [reportAs, settled_ite, settled_latchErr, settled_count, ite_self, settled_mk, settled_fold]

theorem settled_report (s : State) (code : Nat) (p : Page) (detail : List Nat) :
    settled (report s code p detail) = settled s := by
  simp only [report, settled_reportAs]

theorem settled_saturate (s : State) (a : Nat) :
    settled (saturate s a) = settled s := by
  simp only [saturate, settled_report, settled_raise, settled_setFlag]

theorem settled_narrowAdd (s : State) (a n : Nat) :
    settled (narrowAdd s a n) = settled s := by
  simp only [narrowAdd, settled_ite, settled_setFld, settled_saturate, ite_self]

theorem settled_tally (s : State) (a : Nat) :
    settled (tally s a) = settled s := by
  simp only [tally, settled_narrowAdd]

theorem settled_showSleep (s : State) (i : Nat) :
    settled (showSleep s i) = settled s := by
  simp only [showSleep, settled_setFlag]

theorem settled_wakeSlice (s : State) (i : Nat) :
    settled (wakeSlice s i) = settled s := by
  simp only [wakeSlice]
  (repeat' split) <;> first
    | with_reducible rfl
    | simp only [settled_setSlice, settled_count]

theorem settled_touchSlice (s : State) (i : Nat) :
    settled (touchSlice s i) = settled s := by
  simp only [touchSlice, settled_setSlice, settled_ite, ite_self]

theorem settled_signal (s : State) (r itr : Nat) :
    settled (signal s r itr) = settled s := by
  simp only [signal, settled_ite, settled_emit, settled_setRing, ite_self]

theorem settled_eventWrite (s : State) (e : Nat) (ws : List Nat) :
    settled (eventWrite s e ws) = settled s := by
  simp only [eventWrite, settled_signal, settled_ite, settled_wr, settled_emit, ite_self]

/-! ### Access -/

theorem settled_accessFault (s : State) (src : Source) (a cause : Nat) :
    settled (accessFault s src a cause) = settled s := by
  simp only [accessFault, settled_raise, settled_wr, settled_ite, ite_self]

theorem settled_dropHeld (s : State) (src : Source) (a : Nat) :
    settled (dropHeld s src a) = settled s := by
  simp only [dropHeld, settled_mk, settled_fold]

theorem settled_wakeForPage (s : State) (a : Nat) :
    settled (wakeForPage s a) = settled s := by
  unfold wakeForPage
  split <;> first
    | with_reducible rfl
    | simp only [settled_ite, settled_wakeSlice, ite_self]

theorem kept_dropWindow (s : State) (src : Source) :
    lastingOf (settled (dropWindow s src)) = lastingOf (settled s) := by
  simp only [dropWindow, kept_mk, kept_fold]

theorem settled_guarded (s : State) (src : Source) (a : Nat) (act : State → State) (h_act : ∀ x0, settled (act x0) = settled x0) :
    settled (guarded s src a act) = settled s := by
  unfold guarded
  (repeat' split) <;> first
    | with_reducible rfl
    | simp only [settled_accessFault, settled_ite, settled_wakeForPage, settled_dropHeld, h_act, ite_self]

theorem kept_guarded (s : State) (src : Source) (a : Nat) (act : State → State) (h_act : ∀ x0, lastingOf (settled (act x0)) = lastingOf (settled x0)) :
    lastingOf (settled (guarded s src a act)) = lastingOf (settled s) := by
  unfold guarded
  (repeat' split) <;> first
    | with_reducible rfl
    | simp only [settled_accessFault, kept_ite, settled_wakeForPage, settled_dropHeld, h_act, ite_self]

theorem kept_fieldWrite (s : State) (src : Source) (a v : Nat) :
    lastingOf (settled (fieldWrite s src a v)) = lastingOf (settled s) := by
  unfold fieldWrite
  (repeat' split) <;> first
    | with_reducible rfl
    | simp only [kept_ite, settled_setFlag, kept_setCounter, kept_mk, kept_fold, settled_accessFault, ite_self, settled_wr]

/-! ### Counters -/

theorem settled_countPolicer (s : State) (k colour bytes : Nat) :
    settled (countPolicer s k colour bytes) = settled s := by
  simp only [countPolicer, settled_count]

theorem settled_countBoth (s : State) (first i bytes : Nat) :
    settled (countBoth s first i bytes) = settled s := by
  simp only [countBoth, settled_count]

theorem settled_countQueue (s : State) (q i bytes : Nat) :
    settled (countQueue s q i bytes) = settled s := by
  unfold countQueue
  split <;> first
    | with_reducible rfl
    | simp only [settled_countBoth]

theorem settled_countSent (s : State) (p : Nat) (b : List Byte) (good : Bool) :
    settled (countSent s p b good) = settled s := by
  simp only [countSent, settled_ite, settled_count, ite_self]

theorem settled_countReceived (s : State) (p : Nat) (b : List Byte) (good : Bool) :
    settled (countReceived s p b good) = settled s := by
  simp only [countReceived, settled_ite, settled_count, ite_self]

theorem settled_snapshot (s : State) :
    settled (snapshot s) = settled s := by
  simp only [snapshot, settled_raise, settled_wr, settled_mk, settled_fold]

theorem settled_dumpRecord (s : State) (ws : List Nat) :
    settled ((dumpRecord s ws).2) = settled s := by
  simp only [dumpRecord, settled_snd_ite, settled_eventWrite, settled_raise, settled_count, ite_self]

theorem settled_flushGathered (s : State) (d : Dump) :
    settled ((flushGathered s d).2) = settled s := by
  unfold flushGathered
  split <;> first
    | with_reducible rfl
    | simp only [settled_dumpRecord]

theorem settled_showDump (s : State) :
    settled (showDump s) = settled s := by
  simp only [showDump, settled_wr]

theorem settled_setDump (s : State) (d : Option Dump) :
    settled (setDump s d) = settled s := by
  simp only [setDump, settled_showDump, settled_mk, settled_fold]

theorem settled_dumpRead (s : State) :
    settled (dumpRead s) = settled s := by
  unfold dumpRead
  (repeat' split) <;> first
    | with_reducible rfl
    | simp only [settled_setDump, settled_snd_ite, settled_mk, settled_fold, settled_flushGathered, ite_self]

theorem settled_dumpEnd (s : State) :
    settled (dumpEnd s) = settled s := by
  simp only [dumpEnd]
  (repeat' split) <;> first
    | with_reducible rfl
    | simp only [settled_raise, settled_setDump, settled_mk, settled_fold, settled_wr, settled_dumpRecord, settled_flushGathered]

theorem kept_dumpBoundary (s : State) :
    lastingOf (settled (dumpBoundary s)) = lastingOf (settled s) := by
  simp only [dumpBoundary, kept_ite, kept_mk, kept_fold]
  (repeat' split) <;> first
    | with_reducible rfl
    | simp only [kept_mk, kept_fold, settled_raise, settled_tally, settled_setDump]

theorem kept_alarmBoundary (s : State) (n : Nat) :
    lastingOf (settled (alarmBoundary s n)) = lastingOf (settled s) := by
  simp only [alarmBoundary, kept_ite, kept_mk, kept_fold, settled_report, settled_raise, settled_setFlag, ite_self]

theorem kept_alarmsBoundary (s : State) :
    lastingOf (settled (alarmsBoundary s)) = lastingOf (settled s) := by
  simp only [alarmsBoundary, kept_alarmBoundary, implies_true, kept_foldl]

theorem settled_execSnapshot (src : Source) (s : State) :
    KeepsSettled s (execSnapshot src s) := by
  unfold execSnapshot
  refine keepsSettled_done _ _ ?_
  simp only [settled_snapshot, implies_true, settled_guarded]

theorem settled_execDumpCounterRead (s : State) :
    KeepsSettled s (execDumpCounterRead s) := by
  unfold execDumpCounterRead
  refine keepsSettled_done _ _ ?_
  simp only [settled_dumpRead]

theorem settled_execDumpDone (s : State) :
    KeepsSettled s (execDumpDone s) := by
  unfold execDumpDone
  refine keepsSettled_done _ _ ?_
  simp only [settled_dumpEnd]

theorem settled_execCounterSaturated (addr : Nat) (s : State) :
    KeepsSettled s (execCounterSaturated addr s) := by
  unfold execCounterSaturated
  refine keepsSettled_done _ _ ?_
  simp only [settled_ite, settled_narrowAdd, ite_self]

/-! ### Time -/

theorem kept_advance (s : State) :
    lastingOf (settled (advance s)) = lastingOf (settled s) := by
  simp only [advance, kept_mk, kept_fold]

theorem kept_endSlew (s : State) :
    lastingOf (settled (endSlew s)) = lastingOf (settled s) := by
  simp only [endSlew, settled_raise, settled_setFlag, kept_mk, kept_fold]

theorem kept_startSlew (s : State) :
    lastingOf (settled (startSlew s)) = lastingOf (settled s) := by
  simp only [startSlew, kept_mk, kept_fold]

theorem kept_slewTick (s : State) :
    lastingOf (settled (slewTick s)) = lastingOf (settled s) := by
  unfold slewTick
  dsimp only
  (repeat' split) <;> first
    | with_reducible rfl
    | simp only [kept_endSlew, settled_setFlag, kept_mk, kept_fold]

theorem kept_rephase.narrowShared (s : State) (a : Nat) :
    lastingOf (settled (rephase.narrowShared s a)) = lastingOf (settled s) := by
  simp only [rephase.narrowShared, kept_ite, settled_report, settled_raise, settled_setFld, ite_self]

theorem kept_rephase (s : State) :
    lastingOf (settled (rephase s)) = lastingOf (settled s) := by
  simp only [rephase, settled_raise, kept_rephase.narrowShared, settled_wr, kept_mk, kept_fold]

theorem kept_holdStep (s : State) :
    lastingOf (settled (holdStep s)) = lastingOf (settled s) := by
  simp only [holdStep, settled_setFlag, kept_mk, kept_fold]

theorem kept_applyStep (s : State) (step : Int) :
    lastingOf (settled (applyStep s step)) = lastingOf (settled s) := by
  simp only [applyStep, settled_setFlag, kept_mk, kept_fold]

theorem kept_stepped (s : State) :
    lastingOf (settled (stepped s)) = lastingOf (settled s) := by
  unfold stepped
  (repeat' split) <;> first
    | with_reducible rfl
    | simp only [kept_applyStep]

theorem kept_setOwn (s : State) (src : Source) (a v : Nat) :
    lastingOf (settled (setOwn s src a v)) = lastingOf (settled s) := by
  simp only [setOwn, kept_mk, kept_fold]

theorem kept_capture (s : State) (src : Source) :
    lastingOf (settled (capture s src)) = lastingOf (settled s) := by
  simp only [capture, kept_setOwn]

theorem kept_armPin (s : State) (n : Nat) :
    lastingOf (settled (armPin s n)) = lastingOf (settled s) := by
  simp only [armPin, kept_ite, settled_raise, kept_setTev, ite_self]

theorem kept_tevEnd (s : State) (n : Nat) :
    lastingOf (settled (tevEnd s n)) = lastingOf (settled s) := by
  unfold tevEnd
  (repeat' split) <;> first
    | with_reducible rfl
    | simp only [settled_emit, kept_setTev]

theorem kept_tevStep (s : State) (n : Nat) :
    lastingOf (settled (tevStep s n)) = lastingOf (settled s) := by
  simp only [tevStep, kept_ite, kept_setTev, settled_raise, ite_self]

theorem kept_tevEdge (s : State) (n : Nat) (falling : Bool) :
    lastingOf (settled (tevEdge s n falling)) = lastingOf (settled s) := by
  simp only [tevEdge, kept_ite, settled_tally, settled_raise, settled_setFld, kept_setTev, ite_self]

theorem kept_tevPop (s : State) (src : Source) (n : Nat) :
    lastingOf (settled ((tevPop s src n).2)) = lastingOf (settled s) := by
  simp only [tevPop]
  (repeat' split) <;> first
    | with_reducible rfl
    | simp only [kept_setOwn, settled_setFld, kept_setTev]

theorem kept_tevOutput (s : State) (n : Nat) :
    lastingOf (settled (tevOutput s n)) = lastingOf (settled s) := by
  simp only [tevOutput, kept_ite, settled_emit, kept_setTev, ite_self]

theorem kept_execTimeCapture (src : Source) (s : State) :
    KeepsRes s (execTimeCapture src s) := by
  unfold execTimeCapture
  refine keepsRes_done _ _ ?_
  simp only [kept_capture, implies_true, kept_guarded]

theorem kept_execTimeSlew (src : Source) (s : State) :
    KeepsRes s (execTimeSlew src s) := by
  unfold execTimeSlew
  refine keepsRes_done _ _ ?_
  simp only [kept_startSlew, implies_true, kept_guarded]

theorem kept_abortSlew (s : State) :
    lastingOf (settled (abortSlew s)) = lastingOf (settled s) := by
  simp only [abortSlew, kept_mk, kept_fold]

theorem kept_execSlewAbort (src : Source) (s : State) :
    KeepsRes s (execSlewAbort src s) := by
  unfold execSlewAbort
  refine keepsRes_done _ _ ?_
  simp only [kept_abortSlew, implies_true, kept_guarded]

theorem kept_execSlewDone (s : State) :
    KeepsRes s (execSlewDone s) := by
  unfold execSlewDone
  refine keepsRes_done _ _ ?_
  simp only [kept_ite, kept_endSlew, ite_self]

theorem kept_execTevEdgeCapture (pin : Fin 8) (falling : Bool) (s : State) :
    KeepsRes s (execTevEdgeCapture pin falling s) := by
  unfold execTevEdgeCapture
  refine keepsRes_done _ _ ?_
  simp only [kept_tevEdge]

theorem kept_execTevCapRead (src : Source) (pin : Fin 8) (s : State) :
    KeepsRes s (execTevCapRead src pin s) := by
  unfold execTevCapRead
  simp only
  (repeat' split) <;> refine keepsRes_done _ _ ?_ <;> first
    | with_reducible rfl
    | simp only [settled_emit, settled_accessFault, kept_dropWindow, kept_tevPop]

theorem kept_execTevArm (src : Source) (pin : Fin 8) (s : State) :
    KeepsRes s (execTevArm src pin s) := by
  unfold execTevArm
  refine keepsRes_done _ _ ?_
  simp only [kept_armPin, implies_true, kept_guarded]

theorem kept_execTevOutputEdge (pin : Fin 8) (s : State) :
    KeepsRes s (execTevOutputEdge pin s) := by
  unfold execTevOutputEdge
  refine keepsRes_done _ _ ?_
  simp only [kept_tevOutput]

theorem settled_execPllUnlock (s : State) :
    KeepsSettled s (execPllUnlock s) := by
  unfold execPllUnlock
  refine keepsSettled_done _ _ ?_
  simp only [settled_report, settled_raise, settled_setFlag, settled_ite, ite_self]

theorem settled_execPllLock (s : State) :
    KeepsSettled s (execPllLock s) := by
  unfold execPllLock
  refine keepsSettled_done _ _ ?_
  simp only [settled_setFlag, settled_ite, ite_self]

/-! ### Gates -/

theorem settled_showGate (s : State) (p : Nat) :
    settled (showGate s p) = settled s := by
  simp only [showGate, settled_wr]

theorem settled_wrTime (s : State) (a t : Nat) :
    settled (wrTime s a t) = settled s := by
  simp only [wrTime, settled_wr]

theorem settled_switchGate (s : State) (p : Nat) :
    settled (switchGate s p) = settled s := by
  simp only [switchGate]
  (repeat' split) <;> first
    | with_reducible rfl
    | simp only [settled_raise, settled_showGate, settled_wr, settled_wrTime, settled_setPort]

theorem settled_acceptGate (s : State) (p : Nat) :
    settled (acceptGate s p) = settled s := by
  simp only [acceptGate, settled_switchGate, settled_setPort, settled_wrTime, settled_raise, settled_tally, settled_wr, settled_showGate, settled_ite,
      ite_self]

theorem settled_dropGates (s : State) (p : Nat) :
    settled (dropGates s p) = settled s := by
  simp only [dropGates, settled_showGate, settled_setPort]

theorem kept_switchStream (s : State) (g : Nat) :
    lastingOf (settled (switchStream s g)) = lastingOf (settled s) := by
  unfold switchStream
  split <;> first
    | with_reducible rfl
    | simp only [settled_setTab, kept_setGate]

theorem kept_acceptStream (s : State) (g : Nat) :
    lastingOf (settled (acceptStream s g)) = lastingOf (settled s) := by
  simp only [acceptStream, kept_switchStream, kept_setGate, kept_ite, ite_self]

theorem kept_gateStep (s : State) (p : Nat) :
    lastingOf (settled (gateStep s p)) = lastingOf (settled s) := by
  simp only [gateStep, settled_switchGate, settled_showGate, settled_setPort, kept_ite, ite_self]

theorem kept_streamStep (s : State) (g : Nat) :
    lastingOf (settled (streamStep s g)) = lastingOf (settled s) := by
  simp only [streamStep, kept_switchStream, kept_setGate, kept_ite, ite_self]

theorem kept_gatesStep (s : State) :
    lastingOf (settled (gatesStep s)) = lastingOf (settled s) := by
  simp only [gatesStep, kept_gateStep, kept_streamStep, kept_foldl, implies_true]

theorem settled_execGateConfigChange (src : Source) (port : Fin 64) (s : State) :
    KeepsSettled s (execGateConfigChange src port s) := by
  unfold execGateConfigChange
  refine keepsSettled_done _ _ ?_
  simp only [settled_ite, settled_acceptGate, ite_self, implies_true, settled_guarded]

theorem settled_execGateChangeTime (port : Fin 64) (s : State) :
    KeepsSettled s (execGateChangeTime port s) := by
  unfold execGateChangeTime
  refine keepsSettled_done _ _ ?_
  simp only [settled_ite, settled_switchGate, ite_self]

theorem settled_execGateDisable (src : Source) (port : Fin 64) (s : State) :
    KeepsSettled s (execGateDisable src port s) := by
  unfold execGateDisable
  refine keepsSettled_done _ _ ?_
  simp only [settled_dropGates, settled_setFlag, implies_true, settled_guarded]

theorem kept_execStreamGateChange (gate : Fin 1024) (s : State) :
    KeepsRes s (execStreamGateChange gate s) := by
  unfold execStreamGateChange
  refine keepsRes_done _ _ ?_
  simp only [kept_ite, kept_switchStream, ite_self]

/-! ### PortBase -/

theorem settled_showPause (s : State) (p : Nat) :
    settled (showPause s p) = settled s := by
  simp only [showPause, settled_setFld]

/-! ### Forward -/

theorem settled_requestLearn (s : State) (f : Frame) (noLearn : Bool) :
    settled (requestLearn s f noLearn) = settled s := by
  simp only [requestLearn, settled_ite, settled_raise, settled_count, settled_mk, settled_fold, ite_self]

/-! ### Sched -/

theorem settled_settleDeficits (s : State) (q : Nat) :
    settled (settleDeficits s q) = settled s := by
  simp only [settleDeficits, settled_ite, settled_mk, settled_fold, ite_self, implies_true, settled_foldl]

theorem settled_settleAll (s : State) :
    settled (settleAll s) = settled s := by
  simp only [settleAll, settled_ite, settled_mk, settled_fold, settled_foldl, implies_true, ite_self]

theorem settled_setBucketA (s : State) (i : Nat) (v : Int) :
    settled (setBucketA s i v) = settled s := by
  simp only [setBucketA, settled_mk, settled_fold]

theorem settled_setBucketB (s : State) (i : Nat) (v : Int) :
    settled (setBucketB s i v) = settled s := by
  simp only [setBucketB, settled_mk, settled_fold]

theorem settled_refillTier (s : State) (t : Nat) :
    settled (refillTier s t) = settled s := by
  simp only [refillTier, settled_ite, settled_setBucketB, settled_setBucketA, ite_self, implies_true, settled_foldl, settled_mk, settled_fold]

theorem settled_debitBuckets (s : State) (q p L : Nat) :
    settled (debitBuckets s q p L) = settled s := by
  simp only [debitBuckets, settled_ite, settled_setBucketB, settled_setBucketA, ite_self, implies_true, settled_foldl]

theorem settled_debitPath (s : State) (q p L : Nat) :
    settled (debitPath s q p L) = settled s := by
  simp only [debitPath, settled_debitBuckets, settled_mk, settled_fold]

theorem settled_showTransit (s : State) :
    settled (showTransit s) = settled s := by
  simp only [showTransit, settled_wr]

theorem settled_leaveTransit (s : State) (i : Nat) :
    settled (leaveTransit s i) = settled s := by
  simp only [leaveTransit, settled_showTransit, settled_mk, settled_fold]

theorem kept_enterTransit (s : State) (i : Nat) (e : Nat) :
    lastingOf (settled (enterTransit s i e)) = lastingOf (settled s) := by
  simp only [enterTransit, settled_showTransit, kept_mk, kept_fold]

theorem kept_commitNode (old : State) (s : State) (i : Nat) :
    lastingOf (settled (commitNode old s i)) = lastingOf (settled s) := by
  simp only [commitNode, kept_ite, settled_raise, settled_leaveTransit, ite_self, kept_enterTransit]

theorem kept_schedCommit (old s : State) :
    lastingOf (settled (schedCommit old s)) = lastingOf (settled s) := by
  simp only [schedCommit, kept_commitNode, settled_settleAll, kept_foldl, implies_true]

theorem settled_execShaperRefill (tier : Fin 4) (s : State) :
    KeepsSettled s (execShaperRefill tier s) := by
  unfold execShaperRefill
  refine keepsSettled_done _ _ ?_
  simp only [settled_ite, settled_refillTier, ite_self]

theorem settled_execTransitEnd (node : Nat) (s : State) :
    KeepsSettled s (execTransitEnd node s) := by
  unfold execTransitEnd
  refine keepsSettled_done _ _ ?_
  simp only [settled_raise, settled_settleAll, settled_leaveTransit, settled_ite, ite_self]

theorem settled_nodeQuery (s : State) (eligibleQueue : Nat → Bool) (i : Nat) :
    settled (nodeQuery s eligibleQueue i) = settled s := by
  simp only [nodeQuery, settled_wr]

/-! ### Buffer -/

theorem settled_fcEmit (p : Nat) (s : State) (d : Nat × Nat) :
    settled (fcEmit p s d) = settled s := by
  simp only [fcEmit, settled_setPort, settled_emit, settled_count]

theorem settled_fcFlush (s : State) (p : Nat) :
    settled (fcFlush s p) = settled s := by
  simp only [fcFlush, settled_fcEmit, settled_setPort, settled_ite, settled_foldl, implies_true, ite_self]

theorem settled_fcFlushAll (s : State) :
    settled (fcFlushAll s) = settled s := by
  simp only [fcFlushAll, settled_fcFlush, settled_foldl, implies_true]

theorem settled_fcSend (s : State) (p k quanta : Nat) :
    settled (fcSend s p k quanta) = settled s := by
  simp only [fcSend, settled_fcFlush, settled_setPort]

theorem settled_fcFollow (s : State) (p k : Nat) :
    settled (fcFollow s p k) = settled s := by
  simp only [fcFollow, settled_ite, settled_fcSend, settled_setFlag, ite_self]

theorem settled_fcFollowAll (s : State) (p : Nat) :
    settled (fcFollowAll s p) = settled s := by
  simp only [fcFollowAll, settled_fcFollow, settled_foldl, implies_true]

theorem settled_fcClear (s : State) (p : Nat) :
    settled (fcClear s p) = settled s := by
  simp only [fcClear, settled_setPort, settled_setFld]

theorem kept_fcReconfigure (s : State) (p : Nat) :
    lastingOf (settled (fcReconfigure s p)) = lastingOf (settled s) := by
  simp only [fcReconfigure, settled_setPort, settled_setFlag, settled_fcFollowAll, kept_ite, kept_foldl, implies_true, ite_self]

theorem settled_setBuffer (s : State) (b : Buffer) :
    settled (setBuffer s b) = settled s := by
  simp only [setBuffer, settled_mk, settled_fold]

theorem settled_followPeak (s : State) :
    settled (followPeak s) = settled s := by
  simp only [followPeak, settled_ite, settled_setFld, ite_self]

theorem settled_sizeChain (s : State) (i phys n : Nat) :
    settled (sizeChain s i phys n) = settled s := by
  simp only [sizeChain, settled_setFrame, settled_setBuffer]

theorem settled_sizeChains (s : State) (i n : Nat) :
    settled (sizeChains s i n) = settled s := by
  simp only [sizeChains, settled_sizeChain, settled_ite, settled_foldl, implies_true, ite_self]

theorem settled_chargeLeaves (s : State) (f : Frame) (n : Nat) :
    settled (chargeLeaves s f n) = settled s := by
  simp only [chargeLeaves, settled_ite, settled_followPeak, settled_setBuffer, settled_fcFollow, ite_self]

theorem settled_returnLeaves (s : State) (f : Frame) (n : Nat) :
    settled (returnLeaves s f n) = settled s := by
  simp only [returnLeaves, settled_ite, settled_setBuffer, settled_fcFollow, ite_self]

theorem settled_chargeCopy (s : State) (c : Copy) (n : Nat) :
    settled (chargeCopy s c n) = settled s := by
  simp only [chargeCopy, settled_setQueue, settled_setBuffer]

theorem settled_returnCopy (s : State) (c : Copy) (n : Nat) :
    settled (returnCopy s c n) = settled s := by
  simp only [returnCopy, settled_setQueue, settled_setBuffer]

theorem settled_takeDescriptor (s : State) (c : Copy) :
    settled (takeDescriptor s c).2 = settled s := by
  simp only [takeDescriptor, settled_setBuffer]

theorem settled_returnDescriptor (s : State) (c : Copy) :
    settled (returnDescriptor s c) = settled s := by
  unfold returnDescriptor
  (repeat' split) <;> first
    | with_reducible rfl
    | simp only [settled_setBuffer]

theorem settled_reapFrame (s : State) (i : Nat) :
    settled (reapFrame s i) = settled s := by
  simp only [reapFrame, settled_ite, settled_setFrame, ite_self]

theorem settled_releaseSharer (s : State) (i phys : Nat) :
    settled (releaseSharer s i phys) = settled s := by
  simp only [releaseSharer, settled_setFrame, settled_reapFrame, settled_sizeChain, settled_returnLeaves, settled_ite, ite_self]

theorem settled_releaseCopy (s : State) (c : Copy) :
    settled (releaseCopy s c) = settled s := by
  simp only [releaseCopy, settled_releaseSharer, settled_returnDescriptor, settled_returnCopy]

theorem settled_clearPeak (s : State) :
    settled (clearPeak s) = settled s := by
  simp only [clearPeak, settled_setFld]

theorem settled_execBufPeakClear (src : Source) (s : State) :
    KeepsSettled s (execBufPeakClear src s) := by
  unfold execBufPeakClear
  refine keepsSettled_done _ _ ?_
  simp only [settled_clearPeak, implies_true, settled_guarded]

theorem settled_execFcRefresh (port : Fin 64) (prio : Fin 8) (s : State) :
    KeepsSettled s (execFcRefresh port prio s) := by
  unfold execFcRefresh
  refine keepsSettled_done _ _ ?_
  simp only [settled_ite, settled_fcSend, ite_self]

end Sys2Proof.Machine
end

