-- ==== Sys2Proof/Laws/LastingFrames.lean ====
section
/-! SUPPORT. What each function of the path of a frame leaves alone: all that is settled (settled_…), or at least what lasts (kept_…). -/

set_option linter.unusedSimpArgs false

namespace Sys2Proof.Machine

/-! ### Capture -/

theorem settled_drawOneIn (s : State) (slice n : Nat) :
    settled ((drawOneIn s slice n).2) = settled s := by
  simp only [drawOneIn, settled_snd_ite, settled_setSlice, ite_self]

theorem settled_markFor (f : Frame) (r : List Mark × State) (n : Nat) :
    settled ((markFor f r n).2) = settled (r.2) := by
  simp only [markFor, settled_snd_ite, settled_drawOneIn, ite_self]

theorem settled_decideMarks (s : State) (f : Frame) :
    settled ((decideMarks s f).2) = settled s := by
  simp only [decideMarks, settled_snd_ite, settled_markFor, implies_true, settled_foldl_snd, ite_self]

theorem settled_refuseMirror (s : State) (session : Nat) :
    settled (refuseMirror s session) = settled s := by
  simp only [refuseMirror, settled_raise, settled_count]

theorem settled_captureLost (s : State) :
    settled (captureLost s) = settled s := by
  simp only [captureLost, settled_raise, settled_count]

theorem settled_makeCapture (s : State) (f : Frame) (i : CaptureInfo) (bytes : List Byte) :
    settled (makeCapture s f i bytes) = settled s := by
  simp only [makeCapture, settled_ite, settled_captureLost, settled_mk, settled_fold, settled_count, ite_self]

theorem settled_ringBytes (s : State) (t size : Nat) (y0 : Nat) (y1 : List Byte) :
    settled (ringBytes s t size y0 y1) = settled s := by
  fun_induction ringBytes s t size y0 y1 <;> first
    | rfl
    | (simp only [*, settled_setTab]; done)
    | simp_all only [settled_mk, settled_fold, settled_ite, settled_snd_ite, settled_snd2_ite, settled_fst_ite, ite_self, settled_foldl,
          settled_foldl_snd, implies_true, settled_setTab]

theorem settled_ringStore (s : State) (t c base size at_ : Nat) (bs : List Byte) :
    settled (ringStore s t c base size at_ bs) = settled s := by
  simp only [ringStore, settled_count, settled_ringBytes, settled_emit, settled_foldl, implies_true]

theorem settled_captureWrite (s : State) :
    settled (captureWrite s) = settled s := by
  unfold captureWrite
  (repeat' split) <;> first
    | with_reducible rfl
    | simp only [settled_eventWrite, settled_count, settled_captureLost, settled_wr, settled_ringStore, settled_ite, settled_mk, settled_fold, ite_self]

theorem settled_drawTrace (s : State) (slice k : Nat) :
    settled (drawTrace s slice k).2 = settled s := by
  simp only [drawTrace, settled_setSlice, settled_snd_ite, ite_self]

theorem settled_traceDraw (s : State) (slice : Nat) :
    settled ((traceDraw s slice).2) = settled s := by
  simp only [traceDraw, settled_drawTrace, settled_count, settled_setSlice, settled_snd_ite, ite_self]

theorem settled_traceEnd (s : State) (f : Frame) (reason : Nat) (c : Option Copy) :
    settled ((traceEnd s f reason c).2) = settled s := by
  unfold traceEnd
  split <;> first
    | with_reducible rfl
    | simp only [settled_ite, settled_mk, settled_fold, settled_setSlice, ite_self]

theorem settled_traceDrop (s : State) (i reason : Nat) (c : Copy) :
    settled (traceDrop s i reason c) = settled s := by
  simp only [traceDrop, settled_ite, settled_setFrame, settled_traceEnd, ite_self]

theorem settled_traceEnqueue (s : State) (i : Nat) (c : Copy) (inSpill : Bool) (depth held : Nat) :
    settled (traceEnqueue s i c inSpill depth held) = settled s := by
  simp only [traceEnqueue]
  (repeat' split) <;> first
    | with_reducible rfl
    | simp only [settled_tally, settled_setFrame, settled_setSlice]

theorem settled_traceWrite (s : State) :
    settled (traceWrite s) = settled s := by
  unfold traceWrite
  (repeat' split) <;> first
    | with_reducible rfl
    | simp only [settled_raise, settled_count, settled_eventWrite, settled_wr, settled_ringStore, settled_ite, settled_mk, settled_fold, ite_self]

theorem settled_execCaptureRecord (s : State) :
    KeepsSettled s (execCaptureRecord s) := by
  unfold execCaptureRecord
  refine keepsSettled_done _ _ ?_
  simp only [settled_captureWrite]

theorem settled_execTraceRecord (s : State) :
    KeepsSettled s (execTraceRecord s) := by
  unfold execTraceRecord
  refine keepsSettled_done _ _ ?_
  simp only [settled_traceWrite]

/-! ### Queueing -/

theorem settled_orderCheck (s : State) (q value next : Nat) :
    settled (orderCheck s q value next) = settled s := by
  simp only [orderCheck, settled_ite, settled_setQueue, settled_report, settled_raise, settled_count, settled_wr, ite_self]

theorem settled_settleSkips (s : State) (q : Nat) (y0 : List QItem) :
    settled (settleSkips s q y0) = settled s := by
  fun_induction settleSkips s q y0 <;> first
    | rfl
    | (simp only [*, settled_orderCheck, settled_setQueue]; done)
    | simp_all only [settled_mk, settled_fold, settled_ite, settled_snd_ite, settled_snd2_ite, settled_fst_ite, ite_self, settled_foldl,
          settled_foldl_snd, implies_true, settled_orderCheck, settled_setQueue]

theorem settled_settleHead (s : State) (q : Nat) :
    settled (settleHead s q) = settled s := by
  simp only [settleHead, settled_ite, settled_settleSkips, ite_self]

theorem settled_spillEntry (s : State) (q : Nat) :
    settled (spillEntry s q) = settled s := by
  simp only [spillEntry, settled_ite, settled_setQueue, ite_self, settled_raise, settled_tally]

theorem settled_crossDown (s : State) (q : Nat) :
    settled (crossDown s q) = settled s := by
  simp only [crossDown, settled_setQueue, settled_ite, ite_self]

theorem settled_spillExit (s : State) (q : Nat) :
    settled (spillExit s q) = settled s := by
  unfold spillExit
  dsimp only
  (repeat' split) <;> first
    | with_reducible rfl
    | simp only [settled_crossDown, settled_settleHead, settled_setQueue]

theorem settled_takeCopy (s : State) (c : Copy) :
    settled (takeCopy s c) = settled s := by
  simp only [takeCopy, settled_setQueue, settled_crossDown, settled_settleDeficits, settled_settleHead, settled_orderCheck, settled_ite, settled_mk,
      settled_fold, ite_self]

theorem settled_countQueueDrop (s : State) (q len : Nat) :
    settled (countQueueDrop s q len) = settled s := by
  simp only [countQueueDrop, settled_countBoth, settled_countQueue]

theorem settled_releaseMirror (s : State) (c : Copy) (config : Nat) :
    settled (releaseMirror s c config) = settled s := by
  simp only [releaseMirror, settled_ite, settled_releaseSharer, settled_releaseCopy, ite_self]

theorem settled_releaseMirrorsOf (s : State) (home p : Nat) :
    settled (releaseMirrorsOf s home p) = settled s := by
  unfold releaseMirrorsOf
  repeat' (first
    | with_reducible rfl
    | (intro _ _)
    | (refine (settled_foldl _ ?_ _ _).trans ?_)
    | (refine (settled_foldl_snd _ ?_ _ _).trans ?_)
    | (simp only [settled_refuseMirror, settled_releaseMirror, settled_ite, settled_setFrame, ite_self]; done)
    | (simp only [settled_refuseMirror, settled_releaseMirror, settled_ite, settled_setFrame, ite_self])
    | split)

theorem settled_dropCaptures (s : State) (f : Frame) (c : Copy) (reason spill len : Nat) (bytes : List Byte) :
    settled (dropCaptures s f c reason spill len bytes) = settled s := by
  simp only [dropCaptures, settled_ite, settled_makeCapture, ite_self, implies_true, settled_foldl]

theorem settled_countCopyDrop (s : State) (f : Frame) (c : Copy) (reason : Nat) :
    settled (countCopyDrop s f c reason) = settled s := by
  simp only [countCopyDrop, settled_countQueueDrop, settled_countDrop]

theorem settled_dropMirror (s : State) (c : Copy) (session len : Nat) :
    settled (dropMirror s c session len) = settled s := by
  simp only [dropMirror, settled_refuseMirror, settled_releaseCopy, settled_countQueueDrop]

theorem settled_dropCopy (s : State) (c : Copy) (reason : Nat) :
    settled (dropCopy s c reason) = settled s := by
  unfold dropCopy
  (repeat' split) <;> first
    | with_reducible rfl
    | simp only [settled_dropMirror, settled_countCopyDrop, settled_dropCaptures, settled_releaseMirrorsOf, settled_releaseCopy,
        settled_traceDrop]

theorem settled_dropStale (s : State) (c : Copy) :
    settled (dropStale s c) = settled s := by
  simp only [dropStale, settled_raise, settled_count, settled_dropCopy]

theorem settled_dropFlushed (s : State) (c : Copy) :
    settled (dropFlushed s c) = settled s := by
  simp only [dropFlushed, settled_ite, settled_count, settled_dropCopy, ite_self]

theorem settled_takeCatchword (s : State) (c : Copy) :
    settled ((takeCatchword s c).2) = settled s := by
  simp only [takeCatchword, settled_setQueue]

theorem settled_joinQueue (s : State) (c : Copy) :
    settled (joinQueue s c) = settled s := by
  simp only [joinQueue]
  (repeat' split) <;> first
    | with_reducible rfl
    | simp only [settled_setQueue]

theorem settled_wakeForQueue (s : State) (q : Nat) :
    settled (wakeForQueue s q) = settled s := by
  unfold wakeForQueue
  split <;> first
    | with_reducible rfl
    | simp only [settled_ite, settled_wakeSlice, ite_self]

theorem settled_countEnqueue (s : State) (c : Copy) :
    settled (countEnqueue s c) = settled s := by
  simp only [countEnqueue, settled_ite, settled_countQueue, settled_setFrame, ite_self]

theorem settled_linkCopy (s : State) (c : Copy) :
    settled (linkCopy s c) = settled s := by
  simp only [linkCopy, settled_wakeForQueue, settled_spillEntry, settled_traceEnqueue, settled_countEnqueue, settled_joinQueue,
      settled_takeCatchword]

theorem settled_enqueueCopy (s : State) (c : Copy) :
    settled (enqueueCopy s c) = settled s := by
  simp only [enqueueCopy, settled_ite, settled_dropFlushed, settled_linkCopy, ite_self]

/-! ### Spill -/

theorem settled_setPart (s : State) (c k : Nat) (v : Partition) :
    settled (setPart s c k v) = settled s := by
  simp only [setPart, settled_mk, settled_fold]

theorem settled_setCtx (s : State) (q : Nat) (c : SpillCtx) :
    settled (setCtx s q c) = settled s := by
  simp only [setCtx, settled_setQueue]

theorem settled_setCxlLink (s : State) (c : Nat) (v : CxlLink) :
    settled (setCxlLink s c v) = settled s := by
  simp only [setCxlLink, settled_mk, settled_fold]

theorem settled_drainedCheck (s : State) (c : Nat) :
    settled (drainedCheck s c) = settled s := by
  simp only [drainedCheck, settled_ite, settled_raise, ite_self]

theorem settled_closeBatch (s : State) (q : Nat) :
    settled (closeBatch s q) = settled s := by
  simp only [closeBatch]
  (repeat' split) <;> first
    | with_reducible rfl
    | simp only [settled_setQueue, settled_settleHead]

theorem kept_takeSheet (s : State) (c k : Nat) :
    lastingOf (settled ((takeSheet s c k).2)) = lastingOf (settled s) := by
  simp only [takeSheet, settled_setPart]

theorem settled_giveSheet (s : State) (c k address : Nat) :
    settled (giveSheet s c k address) = settled s := by
  simp only [giveSheet, settled_count, settled_setPart]

theorem kept_drawSpillKey (s : State) :
    lastingOf (settled (drawSpillKey s)) = lastingOf (settled s) := by
  simp only [drawSpillKey, kept_ite, settled_drawn, kept_mk, kept_fold, settled_wr, ite_self]

theorem kept_writeIndexHeaders (s : State) (q : Nat) (b : IndexBlock) :
    lastingOf (settled (writeIndexHeaders s q b)) = lastingOf (settled s) := by
  simp only [writeIndexHeaders, settled_emit, kept_foldl, implies_true]

theorem kept_addIndexBlock (s : State) (q : Nat) (places : List (Nat × Nat)) :
    lastingOf (settled (addIndexBlock s q places)) = lastingOf (settled s) := by
  unfold addIndexBlock
  dsimp only
  (repeat' split) <;> first
    | with_reducible rfl
    | simp only [kept_drawSpillKey, kept_takeSheet, kept_writeIndexHeaders, settled_setQueue, kept_foldl, kept_foldl_snd,
        implies_true]

theorem kept_appendEntry (s : State) (b : IndexBlock) (sh : Sheet) :
    lastingOf (settled (appendEntry s b sh).2) = lastingOf (settled s) := by
  simp only [appendEntry, settled_emit, kept_snd_ite, kept_foldl, implies_true, ite_self]

theorem kept_moveTraces (s : State) (rs : List SheetRecord) :
    lastingOf (settled (moveTraces s rs)) = lastingOf (settled s) := by
  unfold moveTraces
  repeat' (first
    | with_reducible rfl
    | (intro _ _)
    | (refine (kept_foldl _ ?_ _ _).trans ?_)
    | (refine (kept_foldl_snd _ ?_ _ _).trans ?_)
    | (simp only [kept_ite, settled_setFrame, ite_self]; done)
    | (simp only)
    | split)

theorem kept_placeBatch (s : State) (q p k : Nat) (batch : List QItem) :
    lastingOf (settled (placeBatch s q p k batch)) = lastingOf (settled s) := by
  unfold placeBatch
  dsimp only
  (repeat' split) <;> first
    | with_reducible rfl
    | simp only [kept_drawSpillKey, kept_takeSheet, kept_appendEntry, settled_setQueue, kept_moveTraces, settled_emit, kept_mk,
        kept_fold]

theorem kept_sheetChoice (s : State) (q : Nat) :
    lastingOf (settled (sheetChoice s q)) = lastingOf (settled s) := by
  have h1 : ∀ (c : SpillCtx) (x : State), (if indexFull c = true then Option.map (addIndexBlock s q) (chooseIndex s) else some
      s) = some x →
      lastingOf (settled x) = lastingOf (settled s) := by
    intro c x hx
    split at hx
    · cases hc : chooseIndex s with
      | none => simp [hc] at hx
      | some y => simp only [hc, Option.map_some, Option.some.injEq] at hx; rw [← hx]; exact kept_addIndexBlock _ _ _
    · simp only [Option.some.injEq] at hx; rw [← hx]
  unfold sheetChoice
  split
  · rfl
  · split
    · rfl
    · dsimp only
      repeat' (first | with_reducible rfl | exact congrArg lastingOf (settled_setCtx _ _ _) | split)
      rw [kept_placeBatch]; exact h1 _ _ (by assumption)

theorem settled_sheetWaitOver (s : State) (q : Nat) :
    settled (sheetWaitOver s q) = settled s := by
  unfold sheetWaitOver
  repeat' (first
    | with_reducible rfl
    | (intro _ _)
    | (refine (settled_foldl _ ?_ _ _).trans ?_)
    | (refine (settled_foldl_snd _ ?_ _ _).trans ?_)
    | (simp only [settled_ite, settled_raise, settled_count, settled_dropCopy, settled_setQueue]; done)
    | (simp only [settled_ite])
    | split)

theorem settled_releaseWritten (s : State) (rs : List SheetRecord) :
    settled (releaseWritten s rs) = settled s := by
  unfold releaseWritten
  repeat' (first
    | with_reducible rfl
    | (intro _ _)
    | (refine (settled_foldl _ ?_ _ _).trans ?_)
    | (refine (settled_foldl_snd _ ?_ _ _).trans ?_)
    | (simp only [settled_releaseCopy]; done)
    | (simp only [settled_releaseCopy])
    | split)

theorem settled_writeDone (s : State) (sh : Sheet) :
    settled (writeDone s sh) = settled s := by
  simp only [writeDone, settled_count, settled_mk, settled_fold]

theorem settled_sheetWritten.flushed (s : State) (hit : Sheet → Bool) :
    settled (sheetWritten.flushed s hit) = settled s := by
  unfold sheetWritten.flushed
  split <;> first
    | with_reducible rfl
    | simp only [settled_releaseWritten, settled_writeDone, settled_mk, settled_fold]

theorem settled_sheetWritten (s : State) (q serial : Nat) :
    settled (sheetWritten s q serial) = settled s := by
  simp only [sheetWritten]
  (repeat' split) <;> first
    | with_reducible rfl
    | simp only [settled_releaseWritten, settled_writeDone, settled_setCtx, settled_sheetWritten.flushed]

theorem settled_dropRecord (s : State) (q reason len : Nat) (c : Copy) (f : Frame) :
    settled (dropRecord s q reason len c f) = settled s := by
  unfold dropRecord
  split <;> first
    | with_reducible rfl
    | simp only [settled_refuseMirror, settled_ite, settled_traceEnd, settled_releaseMirrorsOf, settled_dropCaptures, settled_countQueueDrop,
          settled_countDrop, ite_self]

theorem settled_loseRecord (s : State) (sh : Sheet) (cause len : Nat) (r : SheetRecord) :
    settled (loseRecord s sh cause len r) = settled s := by
  unfold loseRecord
  split <;> first
    | with_reducible rfl
    | simp only [settled_ite, settled_raise, settled_count, settled_dropRecord, settled_report, ite_self]

theorem settled_latchLoss (s : State) (sh : Sheet) (cause first n : Nat) :
    settled (latchLoss s sh cause first n) = settled s := by
  simp only [latchLoss, settled_wr]

theorem settled_loseRecords (s : State) (sh : Sheet) (cause : Nat) (p : RecordState → Bool) (headerRead : Bool) :
    settled ((loseRecords s sh cause p headerRead).2) = settled s := by
  simp only [loseRecords]
  (repeat' split) <;> first
    | with_reducible rfl
    | simp only [settled_latchLoss, settled_loseRecord, implies_true, settled_foldl]

theorem settled_quarantine (s : State) (sh : Sheet) :
    settled (quarantine s sh) = settled s := by
  simp only [quarantine, settled_drainedCheck, settled_report, settled_raise, settled_tally, settled_mk, settled_fold]

theorem settled_requestRelease (s : State) (port : Nat) (sh : Sheet) :
    settled (requestRelease s port sh) = settled s := by
  simp only [requestRelease, settled_mk, settled_fold]

theorem settled_requestIndexRelease (s : State) (q port : Nat) (bs : List IndexBlock) :
    settled (requestIndexRelease s q port bs) = settled s := by
  simp only [requestIndexRelease, settled_requestRelease, settled_foldl, implies_true]

theorem settled_releaseIndexBlocks (s : State) (q port : Nat) (all : Bool) :
    settled (releaseIndexBlocks s q port all) = settled s := by
  unfold releaseIndexBlocks
  (repeat' split) <;> first
    | with_reducible rfl
    | simp only [settled_requestIndexRelease, settled_setCtx]

theorem settled_refuseRelease (s : State) (q port address owner : Nat) :
    settled (refuseRelease s q port address owner) = settled s := by
  simp only [refuseRelease, settled_report, settled_raise, settled_tally]

theorem settled_poolRelease (s : State) (q serial : Nat) (headerOk ownerOk poisoned : Bool) :
    settled (poolRelease s q serial headerOk ownerOk poisoned) = settled s := by
  unfold poolRelease
  dsimp only
  (repeat' split) <;> first
    | with_reducible rfl
    | simp only [settled_refuseRelease, settled_quarantine, settled_emit, settled_giveSheet, settled_drainedCheck, settled_mk, settled_fold]

theorem settled_toHead (s : State) (q : Nat) (x : QItem) :
    settled (toHead s q x) = settled s := by
  simp only [toHead, settled_settleHead, settled_wakeForQueue, settled_setQueue]

theorem settled_returnFrame (s : State) (q : Nat) (c : Copy) (f : Frame) :
    settled (returnFrame s q c f) = settled s := by
  simp only [returnFrame, settled_setFrame, settled_takeDescriptor, settled_sizeChain, settled_toHead, settled_mk, settled_fold]

theorem settled_collateRecord (s : State) (q : Nat) (r : SheetRecord) (y0 : RecordState) {z : Nat × State} (hz : collateRecord s q
    r y0 = some z) :
    settled z.2 = settled s := by
  unfold collateRecord at hz
  split at hz
  · simp only [Option.some.injEq] at hz; rw [← hz]
  · cases hz
  · simp only [Option.some.injEq] at hz; rw [← hz]; exact settled_toHead _ _ _
  · split at hz
    · simp only [Option.some.injEq] at hz; rw [← hz]; exact settled_toHead _ _ _
    · split at hz
      · simp only [Option.some.injEq] at hz
        rw [← hz]; simp only [settled_toHead, settled_raise, settled_count, settled_dropRecord]
      · simp only [Option.some.injEq] at hz; rw [← hz]; exact settled_returnFrame _ _ _ _

theorem settled_collateSheet (s : State) (q : Nat) (y0 : List (SheetRecord × RecordState)) :
    settled ((collateSheet s q y0).2.2) = settled s := by
  induction y0 generalizing s with
  | nil => rfl
  | cons x l ih =>
    obtain ⟨r, st⟩ := x
    unfold collateSheet
    split
    · rfl
    · rename_i h
      exact (ih _).trans (settled_collateRecord _ _ _ _ h)

theorem settled_collateSheet_eq {s t : State} {q n : Nat} {l : List (SheetRecord × RecordState)} {sts : List RecordState}
    (h : collateSheet s q l = (sts, n, t)) : settled t = settled s := by
  have e := settled_collateSheet s q l
  rw [h] at e
  exact e

theorem settled_returnReserved (s : State) (q n : Nat) :
    settled (returnReserved s q n) = settled s := by
  simp only [returnReserved, settled_returnCopy, settled_setBuffer]

theorem settled_collate (y0 : Nat) (y1 : State) (y2 : Nat) :
    settled (collate y0 y1 y2) = settled y1 := by
  induction y0 generalizing y1 with
  | zero => rfl
  | succ n ih =>
    unfold collate
    repeat' (first | with_reducible rfl | split | (simp only [ih, settled_spillExit,
      settled_releaseIndexBlocks, settled_requestRelease, settled_quarantine, settled_setCtx, settled_returnReserved]))
    all_goals exact settled_collateSheet_eq (by assumption)

theorem settled_collateAll (s : State) (q : Nat) :
    settled (collateAll s q) = settled s := by
  unfold collateAll
  split <;> first
    | with_reducible rfl
    | simp only [settled_collate]

theorem settled_issueQueue (s : State) (q : Nat) :
    settled (issueQueue s q) = settled s := by
  unfold issueQueue
  (repeat' split) <;> first
    | with_reducible rfl
    | simp only [settled_setCtx]

theorem settled_issueReads (s : State) :
    settled (issueReads s) = settled s := by
  simp only [issueReads, settled_issueQueue, settled_foldl, implies_true]

theorem settled_readEntry (s : State) (q k : Nat) :
    settled (readEntry s q k) = settled s := by
  unfold readEntry
  (repeat' split) <;> first
    | with_reducible rfl
    | simp only [settled_setCtx, settled_emit]

theorem settled_prefetch (s : State) (q : Nat) :
    settled (prefetch s q) = settled s := by
  unfold prefetch
  dsimp only
  (repeat' split) <;> first
    | with_reducible rfl
    | simp only [settled_setCtx, settled_readEntry, settled_followPeak, settled_setBuffer, settled_chargeCopy, settled_issueReads, settled_emit]

theorem settled_changeSheet (s : State) (q serial : Nat) (f : Sheet → State → Sheet × State) (h_f : ∀ x0 x1, settled ((f x0 x1).2)
    = settled x1) :
    settled (changeSheet s q serial f) = settled s := by
  simp only [changeSheet]
  (repeat' split) <;> first
    | with_reducible rfl
    | simp only [settled_collateAll, settled_setCtx, h_f]

theorem kept_changeSheet (s : State) (q serial : Nat) (f : Sheet → State → Sheet × State) (h_f : ∀ x0 x1, lastingOf (settled ((f x0 x1).2))
    = lastingOf (settled x1)) :
    lastingOf (settled (changeSheet s q serial f)) = lastingOf (settled s) := by
  simp only [changeSheet]
  (repeat' split) <;> first
    | with_reducible rfl
    | simp only [settled_collateAll, settled_setCtx, h_f]

theorem settled_blockReturn (block : Nat) (status : ReadStatus) (sh : Sheet) (s : State) :
    settled (blockReturn block status sh s).2 = settled s := by
  unfold blockReturn
  dsimp only
  (repeat' split) <;> first
    | with_reducible rfl
    | simp only [settled_loseRecords, settled_mk, settled_fold, settled_count]

theorem settled_recordTimeout (i : Nat) (sh : Sheet) (s : State) :
    settled (recordTimeout i sh s).2 = settled s := by
  unfold recordTimeout
  (repeat' split) <;> first
    | with_reducible rfl
    | simp only [settled_loseRecords, settled_count, settled_snd_ite, settled_mk, settled_fold, ite_self]

theorem settled_lateReturn (s : State) (q serial : Nat) (gone : Nat × Nat → Bool) :
    settled (lateReturn s q serial gone) = settled s := by
  simp only [lateReturn, settled_mk, settled_fold]

theorem settled_dropSheetStale (s : State) (sh : Sheet) :
    settled (dropSheetStale s sh) = settled s := by
  unfold dropSheetStale
  repeat' (first
    | with_reducible rfl
    | (intro _ _)
    | (refine (settled_foldl _ ?_ _ _).trans ?_)
    | (refine (settled_foldl_snd _ ?_ _ _).trans ?_)
    | (simp only [settled_raise, settled_count, settled_dropRecord]; done)
    | (simp only [settled_raise, settled_count, settled_dropRecord])
    | split)

theorem settled_ageScan (y0 : Nat) (y1 : State) (y2 : Nat) :
    settled (ageScan y0 y1 y2) = settled y1 := by
  induction y0 generalizing y1 with
  | zero => rfl
  | succ n ih =>
    unfold ageScan
    repeat' (first | with_reducible rfl | split | (simp only [ih, settled_setCtx, settled_requestRelease, settled_dropSheetStale,
        settled_collateAll]))

theorem settled_flushRecord (s : State) (q : Nat) (y0 : SheetRecord) :
    settled (flushRecord s q y0) = settled s := by
  unfold flushRecord
  split <;> first
    | with_reducible rfl
    | simp only [settled_ite, settled_count, settled_dropRecord, ite_self]

theorem settled_flushSpill (s : State) (q port : Nat) :
    settled (flushSpill s q port) = settled s := by
  unfold flushSpill
  dsimp only
  (repeat' split) <;> first
    | with_reducible rfl
    | simp only [settled_setQueue, settled_flushRecord, settled_returnReserved, settled_quarantine, settled_requestRelease,
        settled_requestIndexRelease, settled_ite, settled_foldl, implies_true, ite_self]

theorem settled_freeContext (s : State) (q : Nat) :
    settled (freeContext s q) = settled s := by
  unfold freeContext
  (repeat' split) <;> first
    | with_reducible rfl
    | simp only [settled_setQueue]

theorem settled_drainQueue (s : State) (q : Nat) :
    settled (drainQueue s q) = settled s := by
  simp only [drainQueue]
  (repeat' split) <;> first
    | with_reducible rfl
    | simp only [settled_spillExit, settled_setQueue]

theorem settled_drainCheck (s : State) :
    settled (drainCheck s) = settled s := by
  simp only [drainCheck, settled_drainQueue, implies_true, settled_foldl]

theorem settled_setPlace (s : State) (mask : Nat) :
    settled (setPlace s mask) = settled s := by
  simp only [setPlace, settled_ite, settled_drainedCheck, ite_self, implies_true, settled_foldl, settled_drainCheck, settled_setFld]

theorem settled_writePlace (s : State) (mask : Nat) :
    settled (writePlace s mask) = settled s := by
  simp only [writePlace, settled_setPlace]

theorem settled_abandonSheet (s : State) (q cause : Nat) (sh : Sheet) :
    settled (abandonSheet s q cause sh) = settled s := by
  simp only [abandonSheet]
  (repeat' split) <;> first
    | with_reducible rfl
    | simp only [settled_returnReserved, settled_releaseWritten, settled_loseRecords, settled_setCtx]

theorem settled_loseCopies (s : State) (q : Nat) (lost : IndexBlock → Nat → Bool) :
    settled (loseCopies s q lost) = settled s := by
  unfold loseCopies
  (repeat' split) <;> first
    | with_reducible rfl
    | simp only [settled_abandonSheet, settled_setCtx, settled_collateAll, settled_foldl, implies_true]

theorem settled_discardQueue (s : State) (p q : Nat) :
    settled (discardQueue s p q) = settled s := by
  unfold discardQueue
  (repeat' split) <;> first
    | with_reducible rfl
    | simp only [settled_loseCopies, settled_abandonSheet, settled_foldl, implies_true]

theorem settled_indexReturn (s : State) (q serial port : Nat) (sound : Bool) :
    settled (indexReturn s q serial port sound) = settled s := by
  unfold indexReturn
  dsimp only
  (repeat' split) <;> first
    | with_reducible rfl
    | simp only [settled_setCtx, settled_loseCopies, settled_emit, settled_foldl, implies_true]

theorem settled_readReturn (s : State) (q serial block : Nat) (status : ReadStatus) :
    settled (readReturn s q serial block status) = settled s := by
  unfold readReturn
  (repeat' split) <;> first
    | with_reducible rfl
    | simp only [settled_indexReturn, settled_count, settled_lateReturn, settled_issueReads, settled_changeSheet, settled_blockReturn,
        implies_true]

theorem settled_readTimeout (s : State) (q serial i : Nat) :
    settled (readTimeout s q serial i) = settled s := by
  unfold readTimeout
  (repeat' split) <;> first
    | with_reducible rfl
    | simp only [settled_indexReturn, settled_count, settled_lateReturn, settled_issueReads, settled_changeSheet, settled_recordTimeout, settled_mk,
        settled_fold, implies_true]

theorem settled_forceDiscard (s : State) (p : Nat) :
    settled (forceDiscard s p) = settled s := by
  simp only [forceDiscard, settled_setPlace, settled_releaseWritten, settled_discardQueue, settled_drainedCheck, settled_setPart, settled_ite,
      settled_mk, settled_fold, settled_foldl, implies_true, ite_self]

theorem settled_setPerst (s : State) (c : Nat) (asserted : Bool) :
    settled (setPerst s c asserted) = settled s := by
  simp only [setPerst, settled_setCxlLink, settled_emit, settled_setFlag, settled_ite, ite_self]

theorem settled_cxlFail (s : State) (c cause : Nat) :
    settled (cxlFail s c cause) = settled s := by
  simp only [cxlFail, settled_setPerst, settled_setFld, settled_raise, settled_tally, settled_forceDiscard, settled_report, settled_ite, settled_mk,
      settled_fold, ite_self]

theorem settled_failTimedOut (s : State) :
    settled (failTimedOut s) = settled s := by
  simp only [failTimedOut, settled_ite, settled_cxlFail, ite_self, implies_true, settled_foldl]

theorem settled_forceDiscards (s : State) (mask : Nat) :
    settled (forceDiscards s mask) = settled s := by
  simp only [forceDiscards, settled_ite, settled_forceDiscard, ite_self, implies_true, settled_foldl]

theorem settled_poolInit (s : State) (c k filled : Nat) :
    settled (poolInit s c k filled) = settled s := by
  simp only [poolInit, settled_ite, settled_raise, settled_setFld, settled_setPart, ite_self]

theorem kept_ringTransfer (s : State) (c k : Nat) (addresses : Option (List Nat)) :
    lastingOf (settled (ringTransfer s c k addresses)) = lastingOf (settled s) := by
  unfold ringTransfer
  split <;> first
    | with_reducible rfl
    | simp only [kept_ite, settled_setPart, ite_self, settled_emit]

theorem settled_spillQuery (s : State) (q : Nat) :
    settled (spillQuery s q) = settled s := by
  simp only [spillQuery]
  (repeat' split) <;> first
    | with_reducible rfl
    | simp only [settled_wr, settled_setFld]

theorem settled_execBatchClose (queue : Fin 131072) (s : State) :
    KeepsSettled s (execBatchClose queue s) := by
  unfold execBatchClose
  refine keepsSettled_done _ _ ?_
  simp only [settled_spillExit, settled_closeBatch]

theorem kept_execSheetChoice (queue : Fin 131072) (s : State) :
    KeepsRes s (execSheetChoice queue s) := by
  unfold execSheetChoice
  refine keepsRes_done _ _ ?_
  simp only [kept_sheetChoice]

theorem settled_execSheetWaitExpiry (queue : Fin 131072) (s : State) :
    KeepsSettled s (execSheetWaitExpiry queue s) := by
  unfold execSheetWaitExpiry
  refine keepsSettled_done _ _ ?_
  simp only [settled_sheetWaitOver]

theorem settled_execSheetWriteDone (queue : Fin 131072) (serial : Nat) (s : State) :
    KeepsSettled s (execSheetWriteDone queue serial s) := by
  unfold execSheetWriteDone
  refine keepsSettled_done _ _ ?_
  simp only [settled_sheetWritten]

theorem settled_execPrefetchStart (queue : Fin 131072) (s : State) :
    KeepsSettled s (execPrefetchStart queue s) := by
  unfold execPrefetchStart
  refine keepsSettled_done _ _ ?_
  simp only [settled_prefetch]

theorem settled_execSpillReadReturn (queue : Fin 131072) (serial block : Nat) (status : ReadStatus) (s : State) :
    KeepsSettled s (execSpillReadReturn queue serial block status s) := by
  unfold execSpillReadReturn
  refine keepsSettled_done _ _ ?_
  simp only [settled_readReturn]

theorem settled_execSpillReadTimeout (queue : Fin 131072) (serial record : Nat) (s : State) :
    KeepsSettled s (execSpillReadTimeout queue serial record s) := by
  unfold execSpillReadTimeout
  refine keepsSettled_done _ _ ?_
  simp only [settled_failTimedOut, settled_readTimeout]

theorem settled_execSheetRelease (queue : Fin 131072) (serial : Nat) (headerOk ownerOk poisoned : Bool) (s : State) :
    KeepsSettled s (execSheetRelease queue serial headerOk ownerOk poisoned s) := by
  unfold execSheetRelease
  refine keepsSettled_done _ _ ?_
  simp only [settled_poolRelease]

theorem settled_execSheetAgeScan (queue : Fin 131072) (s : State) :
    KeepsSettled s (execSheetAgeScan queue s) := by
  unfold execSheetAgeScan
  refine keepsSettled_done _ _ ?_
  simp only [settled_ageScan]

theorem settled_execSpillPlaceWrite (src : Source) (mask : Fin 16) (s : State) :
    KeepsSettled s (execSpillPlaceWrite src mask s) := by
  unfold execSpillPlaceWrite
  refine keepsSettled_done _ _ ?_
  simp only [settled_writePlace, implies_true, settled_guarded]

theorem settled_execForceDiscard (src : Source) (mask : Fin 16) (s : State) :
    KeepsSettled s (execForceDiscard src mask s) := by
  unfold execForceDiscard
  refine keepsSettled_done _ _ ?_
  simp only [settled_forceDiscards, implies_true, settled_guarded]

theorem settled_execPoolInit (src : Source) (port pool : Fin 4) (filled : Nat) (s : State) :
    KeepsSettled s (execPoolInit src port pool filled s) := by
  unfold execPoolInit
  refine keepsSettled_done _ _ ?_
  simp only [settled_poolInit, implies_true, settled_guarded]

theorem settled_execSpillQuery (src : Source) (queue : Fin 131072) (s : State) :
    KeepsSettled s (execSpillQuery src queue s) := by
  unfold execSpillQuery
  refine keepsSettled_done _ _ ?_
  simp only [settled_spillQuery, implies_true, settled_guarded]

theorem kept_execFreeRingTransfer (port pool : Fin 4) (addresses : Option (List Nat)) (s : State) :
    KeepsRes s (execFreeRingTransfer port pool addresses s) := by
  unfold execFreeRingTransfer
  refine keepsRes_done _ _ ?_
  simp only [kept_ringTransfer]

/-! ### Admission -/

theorem settled_countRefusal (s : State) (reason : Nat) :
    settled (countRefusal s reason) = settled s := by
  unfold countRefusal
  split <;> first
    | with_reducible rfl
    | simp only [settled_raise, settled_count]

theorem settled_mirrorOnlyFrame (s : State) (i : Nat) (m : Mark) :
    settled (mirrorOnlyFrame s i m) = settled s := by
  simp only [mirrorOnlyFrame, settled_refuseMirror, settled_takeDescriptor, settled_setFrame, settled_sizeChain, settled_chargeCopy,
      settled_chargeLeaves, settled_count, settled_enqueueCopy, settled_ite, settled_mk, settled_fold, ite_self]

theorem settled_mirrorDrops (s : State) (i reason out : Nat) (q : Option Nat) :
    settled (mirrorDrops s i reason out q) = settled s := by
  simp only [mirrorDrops, settled_ite, settled_refuseMirror, settled_makeCapture, ite_self, settled_mirrorOnlyFrame, implies_true,
      settled_foldl, settled_setFrame, settled_decideMarks]

theorem settled_dropFrame (s : State) (i reason : Nat) :
    settled (dropFrame s i reason) = settled s := by
  simp only [dropFrame, settled_countRefusal, settled_countDrop, settled_setFrame, settled_mirrorDrops, settled_traceEnd, settled_ite, ite_self]

theorem settled_refuseCopy (s : State) (i reason port : Nat) (q : Option Nat) :
    settled (refuseCopy s i reason port q) = settled s := by
  simp only [refuseCopy, settled_mirrorDrops, settled_setFrame, settled_countRefusal, settled_countDrop]

theorem settled_noneAdmitted (s : State) (i : Nat) :
    settled (noneAdmitted s i) = settled s := by
  simp only [noneAdmitted, settled_setFrame, settled_traceEnd]

theorem settled_passZero (i : Nat) (node : Option Nat) (r : List Candidate × State) (c : Candidate) :
    settled ((passZero i node r c).2) = settled (r.2) := by
  unfold passZero
  split <;> first
    | with_reducible rfl
    | simp only [settled_refuseCopy]

theorem settled_passQueue (s : State) (c : Copy) :
    settled (passQueue s c) = settled s := by
  simp only [passQueue, settled_ite, settled_setFrame, settled_traceEnqueue, settled_setPort, settled_setQueue, settled_debitPath,
      settled_countEnqueue, settled_count, settled_takeCatchword, ite_self]

theorem settled_admitCopy (i C : Nat) (r : List Copy × Nat × State) (c : Candidate) :
    settled ((admitCopy i C r c).2.2) = settled (r.2.2) := by
  unfold admitCopy
  (repeat' split) <;> first
    | with_reducible rfl
    | simp only [settled_chargeCopy, settled_refuseCopy]

theorem settled_refuseSharer (s : State) (i : Nat) (m : CopyKind × Nat) (q : Option Nat) :
    settled (refuseSharer s i m q) = settled s := by
  simp only [refuseSharer, settled_refuseMirror, settled_setFrame]

theorem settled_admitMirror (i C : Nat) (kept : List Nat) (r : List Copy × Nat × State) (m : CopyKind × Nat) :
    settled ((admitMirror i C kept r m).2.2) = settled (r.2.2) := by
  unfold admitMirror
  (repeat' split) <;> first
    | with_reducible rfl
    | simp only [settled_refuseSharer, settled_snd2_ite, settled_chargeCopy, ite_self]

theorem settled_keepCopy (s : State) (i : Nat) (c : Copy) :
    settled (keepCopy s i c) = settled s := by
  simp only [keepCopy, settled_takeDescriptor, settled_setFrame, settled_snd_ite, ite_self]

theorem settled_settleAdmission (s : State) (i C : Nat) (headroom : Bool) (fwd mirrors : List Copy) :
    settled (settleAdmission s i C headroom fwd mirrors) = settled s := by
  unfold settleAdmission
  repeat' (first
    | with_reducible rfl
    | (intro _ _)
    | (refine (settled_foldl _ ?_ _ _).trans ?_)
    | (refine (settled_foldl_snd _ ?_ _ _).trans ?_)
    | (simp only [settled_ite, settled_setFrame, settled_count, settled_linkCopy, ite_self, settled_passQueue, settled_keepCopy,
        settled_takeDescriptor, settled_sizeChains, settled_chargeLeaves]; done)
    | (simp only)
    | split)

theorem settled_admission (s : State) (i : Nat) (node : Option Nat) (ports : List Nat) (empty : Nat) :
    settled (admission s i node ports empty) = settled s := by
  simp only [admission, settled_dropFrame, settled_mirrorDrops, settled_countDrop, settled_setFrame, settled_passZero, settled_noneAdmitted,
      settled_refuseSharer, settled_admitCopy, settled_admitMirror, settled_settleAdmission, settled_ite, settled_foldl, settled_foldl_snd,
      settled_foldl_snd2, implies_true, ite_self]

/-! ### Egress -/

theorem settled_setSelected (s : State) (p : Nat) (express : Bool) (c : Option Copy) :
    settled (setSelected s p express c) = settled s := by
  simp only [setSelected, settled_setPort]

theorem settled_unifySelected (s : State) (p : Nat) :
    settled (unifySelected s p) = settled s := by
  simp only [unifySelected, settled_setPort, settled_ite, ite_self]

theorem settled_setTx (s : State) (p : Nat) (express : Bool) (t : Option Tx) :
    settled (setTx s p express t) = settled s := by
  simp only [setTx, settled_setPort]

theorem settled_dropTooLong (s : State) (p : Nat) (c : Copy) :
    settled (dropTooLong s p c) = settled s := by
  simp only [dropTooLong, settled_raise, settled_count, settled_dropCopy, settled_takeCopy]

theorem settled_cutFragment (s : State) (p n : Nat) (t : Tx) :
    settled (cutFragment s p n t) = settled s := by
  simp only [cutFragment, settled_setTx, settled_emit]

theorem settled_preempt (s : State) (p : Nat) :
    settled (preempt s p) = settled s := by
  unfold preempt
  (repeat' split) <;> first
    | with_reducible rfl
    | simp only [settled_cutFragment]

theorem settled_wakeTransmit (s : State) (p : Nat) :
    settled (wakeTransmit s p) = settled s := by
  simp only [wakeTransmit, settled_setPort, settled_setFlag, implies_true, settled_foldl]

theorem settled_settleSelection (s : State) (p : Nat) (express : Bool) (c : Copy) :
    settled (settleSelection s p express c) = settled s := by
  simp only [settleSelection, settled_ite, settled_mk, settled_fold, settled_setFrame, ite_self, settled_preempt, settled_setSelected,
      settled_wakeTransmit]

theorem settled_selectFrame (y0 : Nat) (y1 : State) (y2 : Nat) (y3 : Bool) (y4 : Nat) :
    settled (selectFrame y0 y1 y2 y3 y4) = settled y1 := by
  induction y0 generalizing y1 with
  | zero => rfl
  | succ n ih =>
    unfold selectFrame
    repeat' (first | with_reducible rfl | split | (simp only [ih, settled_mk, settled_fold, settled_spillExit, settled_dropStale,
        settled_takeCopy, settled_dropTooLong,
      settled_settleSelection, settled_debitPath]))

theorem settled_portSelect (s : State) (p : Nat) (express : Bool) :
    settled (portSelect s p express) = settled s := by
  unfold portSelect
  dsimp only
  (repeat' split) <;> first
    | with_reducible rfl
    | simp only [settled_selectFrame, settled_unifySelected]

theorem settled_countCorrection (s : State) (p : Nat) (f : Frame) (add : Int) :
    settled (countCorrection s p f add) = settled s := by
  simp only [countCorrection, settled_ite, settled_count, settled_tally, ite_self]

theorem settled_sendMirrors (s : State) (home : Nat) (f : Frame) (c : Copy) (profile stamp : Nat) :
    settled (sendMirrors s home f c profile stamp) = settled s := by
  unfold sendMirrors
  repeat' (first
    | with_reducible rfl
    | (intro _ _)
    | (refine (settled_foldl _ ?_ _ _).trans ?_)
    | (refine (settled_foldl_snd _ ?_ _ _).trans ?_)
    | (simp only [settled_ite, settled_releaseSharer, settled_makeCapture, settled_count, settled_enqueueCopy, ite_self, settled_setFrame]; done)
    | (simp only)
    | split)

theorem settled_startCopy (s : State) (p : Nat) (express : Bool) (c : Copy) :
    settled (startCopy s p express c) = settled s := by
  unfold startCopy
  dsimp only
  (repeat' split) <;> first
    | with_reducible rfl
    | simp only [settled_takeCopy, settled_setSelected, settled_setTx, settled_countCorrection, settled_sendMirrors, settled_traceEnd,
        settled_setFrame, settled_spillExit, settled_dropCopy]

theorem settled_resumeFrame (s : State) (p : Nat) (t : Tx) :
    settled (resumeFrame s p t) = settled s := by
  simp only [resumeFrame, settled_ite, settled_count, settled_setTx, ite_self]

theorem settled_transmitStart (s : State) (p : Nat) (express : Bool) :
    settled (transmitStart s p express) = settled s := by
  unfold transmitStart
  dsimp only
  (repeat' split) <;> first
    | with_reducible rfl
    | simp only [settled_unifySelected, settled_fcFlush, settled_resumeFrame, settled_startCopy]

theorem settled_countTransmitted (s : State) (p : Nat) (c : Copy) (f : Frame) (bytes : List Byte) (good : Bool) :
    settled (countTransmitted s p c f bytes good) = settled s := by
  unfold countTransmitted
  (repeat' split) <;> first
    | with_reducible rfl
    | simp only [settled_countBoth, settled_countQueue, settled_countSent]

theorem settled_leaveCopy (s : State) (c : Copy) :
    settled (leaveCopy s c) = settled s := by
  simp only [leaveCopy, settled_spillExit, settled_releaseCopy]

theorem settled_countStomped (s : State) :
    settled (countStomped s) = settled s := by
  simp only [countStomped, settled_raise, settled_count]

theorem settled_endTransmit (s : State) (p : Nat) (express : Bool) (t : Tx) :
    settled (endTransmit s p express t) = settled s := by
  simp only [endTransmit, settled_emit, settled_countStomped, settled_raise, settled_count, settled_countTransmitted, settled_setTx, settled_fcFlush,
      settled_leaveCopy, settled_setPort, settled_ite, ite_self]

theorem settled_transmitEnd (s : State) (p : Nat) (express : Bool) :
    settled (transmitEnd s p express) = settled s := by
  unfold transmitEnd
  split <;> first
    | with_reducible rfl
    | simp only [settled_ite, settled_endTransmit, ite_self]

theorem settled_underrun (s : State) (p : Nat) (express : Bool) :
    settled (underrun s p express) = settled s := by
  unfold underrun
  (repeat' split) <;> first
    | with_reducible rfl
    | simp only [settled_countStomped, settled_emit, settled_raise, settled_count, settled_countTransmitted, settled_fcFlush, settled_leaveCopy,
        settled_setPort, settled_setTx, settled_ite, ite_self]

theorem settled_truncateAs (s : State) (p : Nat) (express : Bool) (t : Tx) (bytes : List Byte) :
    settled (truncateAs s p express t bytes) = settled s := by
  simp only [truncateAs, settled_spillExit, settled_dropCopy, settled_countSent, settled_count, settled_setTx]

theorem settled_truncate (s : State) (p : Nat) (express : Bool) :
    settled (truncate s p express) = settled s := by
  unfold truncate
  split <;> first
    | with_reducible rfl
    | simp only [settled_truncateAs]

theorem settled_residenceScan (y0 : Nat) (y1 : State) (y2 : Nat) :
    settled (residenceScan y0 y1 y2) = settled y1 := by
  induction y0 generalizing y1 with
  | zero => rfl
  | succ n ih =>
    unfold residenceScan
    repeat' (first | with_reducible rfl | split | (simp only [ih, settled_mk, settled_fold, settled_spillExit, settled_dropStale,
        settled_takeCopy, settled_setSelected,
      settled_ite, ite_self]))

theorem settled_dropHeldCut (s : State) (q : Nat) :
    settled (dropHeldCut s q) = settled s := by
  unfold dropHeldCut
  repeat' (first
    | with_reducible rfl
    | (intro _ _)
    | (refine (settled_foldl _ ?_ _ _).trans ?_)
    | (refine (settled_foldl_snd _ ?_ _ _).trans ?_)
    | (simp only [settled_ite, settled_dropStale, settled_takeCopy, settled_setSelected, ite_self]; done)
    | (simp only [settled_ite, settled_dropStale, settled_takeCopy, settled_setSelected, ite_self])
    | split)

theorem settled_holdAtClose (s : State) (p : Nat) :
    settled (holdAtClose s p) = settled s := by
  unfold holdAtClose
  dsimp only
  (repeat' split) <;> first
    | with_reducible rfl
    | simp only [settled_count, settled_cutFragment]

theorem settled_execPortSelect (port : Fin 65) (express : Bool) (s : State) :
    KeepsSettled s (execPortSelect port express s) := by
  unfold execPortSelect
  refine keepsSettled_done _ _ ?_
  simp only [settled_portSelect]

theorem settled_execTransmitStart (port : Fin 64) (express : Bool) (s : State) :
    KeepsSettled s (execTransmitStart port express s) := by
  unfold execTransmitStart
  refine keepsSettled_done _ _ ?_
  simp only [settled_transmitStart]

theorem settled_execTransmitEnd (port : Fin 64) (express : Bool) (s : State) :
    KeepsSettled s (execTransmitEnd port express s) := by
  unfold execTransmitEnd
  refine keepsSettled_done _ _ ?_
  simp only [settled_transmitEnd]

theorem settled_execCtUnderrun (port : Fin 64) (express : Bool) (s : State) :
    KeepsSettled s (execCtUnderrun port express s) := by
  unfold execCtUnderrun
  refine keepsSettled_done _ _ ?_
  simp only [settled_underrun]

theorem settled_execResidenceScan (queue : Fin 131072) (s : State) :
    KeepsSettled s (execResidenceScan queue s) := by
  unfold execResidenceScan
  refine keepsSettled_done _ _ ?_
  simp only [settled_residenceScan, settled_dropHeldCut]

theorem settled_queryNode (s : State) (index : Nat) :
    settled (queryNode s index) = settled s := by
  simp only [queryNode, settled_nodeQuery, settled_setFld]

theorem settled_execNodeQuery (src : Source) (index : Nat) (s : State) :
    KeepsSettled s (execNodeQuery src index s) := by
  unfold execNodeQuery
  refine keepsSettled_done _ _ ?_
  simp only [settled_queryNode, implies_true, settled_guarded]

/-! ### KettleLink -/

theorem settled_kettlePut (s : State) (head : Nat) (words : List Nat) :
    settled (kettlePut s head words) = settled s := by
  simp only [kettlePut, settled_emit, settled_mk, settled_fold]

theorem settled_kettleFill (y0 : Nat) (y1 : State) :
    settled (kettleFill y0 y1) = settled y1 := by
  fun_induction kettleFill y0 y1 <;> first
    | rfl
    | (simp only [*, settled_kettlePut, settled_mk, settled_fold]; done)
    | simp_all only [settled_mk, settled_fold, settled_ite, settled_snd_ite, settled_snd2_ite, settled_fst_ite, ite_self, settled_foldl,
          settled_foldl_snd, implies_true, settled_kettlePut]

theorem settled_kettleSend (s : State) (type sub : Nat) (cp : Bool) (words : List Nat) :
    settled (kettleSend s type sub cp words) = settled s := by
  simp only [kettleSend, settled_ite, settled_kettlePut, settled_kettleFill, settled_mk, settled_fold, ite_self]

/-! ### Fdb -/

theorem settled_sendDelta (s : State) (sub : Nat) (words : List Nat) :
    settled (sendDelta s sub words) = settled s := by
  simp only [sendDelta, settled_ite, settled_kettleSend, settled_mk, settled_fold, ite_self]

theorem settled_fdbWrite (s : State) (slot entry : Nat) :
    settled (fdbWrite s slot entry) = settled s := by
  simp only [fdbWrite, settled_sendDelta, settled_setTab]

theorem settled_fdbRemove (s : State) (slot : Nat) :
    settled (fdbRemove s slot) = settled s := by
  simp only [fdbRemove, settled_sendDelta, settled_setTab]

theorem settled_learnEvent (s : State) (type source slot fid mac new old port : Nat) :
    settled (learnEvent s type source slot fid mac new old port) = settled s := by
  simp only [learnEvent, settled_ite, settled_eventWrite, settled_mk, settled_fold, settled_raise, settled_count, ite_self]

theorem settled_evictEvent (s : State) (source slot new port : Nat) :
    settled (evictEvent s source slot new port) = settled s := by
  simp only [evictEvent, settled_learnEvent, settled_raise, settled_count]

theorem settled_learnDecide (s : State) (r : LearnReq) :
    settled (learnDecide s r) = settled s := by
  unfold learnDecide
  (repeat' split) <;> first
    | with_reducible rfl
    | simp only [settled_learnEvent, settled_raise, settled_count, settled_fdbWrite, settled_evictEvent, settled_ite, ite_self]

theorem settled_learnTake (s : State) :
    settled (learnTake s) = settled s := by
  unfold learnTake
  split <;> first
    | with_reducible rfl
    | simp only [settled_ite, settled_mk, settled_fold, settled_learnDecide, ite_self]

theorem settled_ploughPass (s : State) :
    settled (ploughPass s) = settled s := by
  simp only [ploughPass, settled_mk, settled_fold]

theorem settled_ploughSwap (s : State) :
    settled (ploughSwap s) = settled s := by
  unfold ploughSwap
  (repeat' split) <;> first
    | with_reducible rfl
    | simp only [settled_setTab, settled_fdbRemove, settled_learnEvent, settled_count, settled_ite, settled_mk, settled_fold, ite_self]

theorem settled_ploughVisit (s : State) :
    settled (ploughVisit s) = settled s := by
  simp only [ploughVisit, settled_ploughSwap, settled_ploughPass, settled_ite, settled_mk, settled_fold, ite_self]

theorem settled_flushSlots (s : State) (filter value : Nat) (static : Bool) (a b : Nat) :
    settled (flushSlots s filter value static a b).2 = settled s := by
  simp only [flushSlots, settled_mk, settled_fold]

theorem settled_flushCopied (s : State) (filter value : Nat) (static : Bool) :
    settled (flushCopied s filter value static) = settled s := by
  simp only [flushCopied, settled_flushSlots]

theorem kept_flushWalk (s : State) (j : FlushJob) (b : Nat) :
    lastingOf (settled (flushWalk s j b).2) = lastingOf (settled s) := by
  simp only [flushWalk, settled_flushSlots]

theorem kept_flushStep (s : State) :
    lastingOf (settled (flushStep s)) = lastingOf (settled s) := by
  unfold flushStep
  (repeat' split) <;> first
    | with_reducible rfl
    | simp only [kept_flushWalk, kept_mk, kept_fold]

theorem settled_flushBegin (s : State) (filter value : Nat) (static : Bool) (tag channel : Option Nat) :
    settled (flushBegin s filter value static tag channel) = settled s := by
  simp only [flushBegin, settled_sendDelta, settled_mk, settled_fold]

theorem kept_flushEnds (s : State) :
    lastingOf (settled (flushEnds s)) = lastingOf (settled s) := by
  simp only [flushEnds, kept_mk, kept_fold]

theorem settled_execLearnRequest (s : State) :
    KeepsSettled s (execLearnRequest s) := by
  unfold execLearnRequest
  refine keepsSettled_done _ _ ?_
  simp only [settled_learnTake]

theorem settled_execPloughVisit (s : State) :
    KeepsSettled s (execPloughVisit s) := by
  unfold execPloughVisit
  refine keepsSettled_done _ _ ?_
  simp only [settled_ploughVisit]

theorem settled_execLagRedistribute (group : Fin 32) (s : State) :
    KeepsSettled s (execLagRedistribute group s) := by
  unfold execLagRedistribute
  refine keepsSettled_done _ _ ?_
  simp only [settled_ite, settled_mk, settled_fold, ite_self]

/-! ### Police -/

theorem settled_setPolicer (s : State) (k : Nat) (a b : Int) :
    settled (setPolicer s k a b) = settled s := by
  simp only [setPolicer, settled_mk, settled_fold]

theorem settled_refillPolicer (s : State) (k : Nat) :
    settled (refillPolicer s k) = settled s := by
  simp only [refillPolicer, settled_ite, settled_mk, settled_fold, settled_setPolicer, ite_self]

theorem settled_trueUp (s : State) (d : Debit × Int) :
    settled (trueUp s d) = settled s := by
  simp only [trueUp, settled_ite, settled_setPolicer, ite_self]

theorem settled_refillPolicers (s : State) :
    settled (refillPolicers s) = settled s := by
  simp only [refillPolicers, settled_mk, settled_fold, settled_trueUp, implies_true, settled_foldl, settled_refillPolicer]

theorem settled_meter (s : State) (k len c : Nat) :
    settled ((meter s k len c).2.2.2) = settled s := by
  simp only [meter]
  (repeat' split) <;> first
    | with_reducible rfl
    | simp only [settled_mk, settled_fold, settled_setPolicer]

theorem settled_setLatch (s : State) (t i bitNo cause : Nat) :
    settled (setLatch s t i bitNo cause) = settled s := by
  simp only [setLatch, settled_ite, settled_raise, settled_setTab, ite_self]

theorem settled_streamFilter (s : State) (f : Frame) (k : Nat) :
    settled ((streamFilter s f k).2.2) = settled s := by
  simp only [streamFilter, settled_snd2_ite, settled_ite, settled_setLatch, ite_self]
  (repeat' split) <;> first
    | with_reducible rfl
    | simp only [settled_meter]

theorem settled_countPolicing (s : State) (reason : Nat) :
    settled (countPolicing s reason) = settled s := by
  unfold countPolicing
  split <;> first
    | with_reducible rfl
    | simp only [settled_count]

theorem settled_stage7 (s0 : State) (f0 : Frame) (storm filter policer : Option Nat) :
    settled ((stage7 s0 f0 storm filter policer).2.2) = settled s0 := by
  simp only [stage7, settled_snd2_ite, settled_countPolicing, settled_mk, settled_fold, ite_self]
  (repeat' split) <;> first
    | with_reducible rfl
    | simp only [settled_streamFilter, settled_meter]

theorem settled_meterEnd (s : State) (f : Frame) (len : Nat) :
    settled (meterEnd s f len) = settled s := by
  simp only [meterEnd, settled_countPolicer, implies_true, settled_foldl, settled_mk, settled_fold]

theorem settled_execPolicerRefill (s : State) :
    KeepsSettled s (execPolicerRefill s) := by
  unfold execPolicerRefill
  refine keepsSettled_done _ _ ?_
  simp only [settled_ite, settled_refillPolicers, ite_self]

/-! ### Ingress -/

theorem settled_lateStages (s : State) (i : Nat) (g : Ingress) (ports : List Nat) (empty : Nat) :
    settled (lateStages s i g ports empty) = settled s := by
  simp only [lateStages, settled_ite, settled_dropFrame, settled_setFrame, settled_stage7, settled_admission, settled_decideMarks, ite_self]

theorem settled_forwardStages (s : State) (i : Nat) (g : Ingress) :
    settled (forwardStages s i g) = settled s := by
  simp only [forwardStages, settled_ite, settled_dropFrame, settled_setFrame, settled_requestLearn, ite_self, settled_lateStages]

theorem settled_divert (s : State) (i : Nat) (g : Ingress) :
    settled (divert s i g) = settled s := by
  simp only [divert, settled_lateStages, settled_setFrame, settled_countDrop]

theorem settled_classifyStages (s : State) (i : Nat) (f : Frame) :
    settled (classifyStages s i f) = settled s := by
  simp only [classifyStages, settled_dropFrame, settled_setFrame, settled_divert, settled_forwardStages, settled_ite, ite_self]

theorem settled_ingress (s : State) (i : Nat) :
    settled (ingress s i) = settled s := by
  simp only [ingress, settled_ite, settled_dropFrame, settled_setFrame, settled_count, settled_classifyStages, ite_self]

theorem settled_countPortEnd (s : State) (p : Nat) (bytes : List Byte) (bad : Nat) (fault : FrameFault) (fragments : Nat) :
    settled (countPortEnd s p bytes bad fault fragments) = settled s := by
  unfold countPortEnd
  (repeat' split) <;> first
    | with_reducible rfl
    | simp only [settled_count, settled_countReceived]

theorem settled_trueUpLeaves (s : State) (i n : Nat) :
    settled (trueUpLeaves s i n) = settled s := by
  simp only [trueUpLeaves, settled_chargeCopy, settled_chargeLeaves, settled_sizeChains, settled_setFrame, settled_returnCopy,
      settled_returnLeaves, settled_ite, settled_foldl, implies_true, ite_self]

theorem settled_countEnd (s : State) (i : Nat) :
    settled (countEnd s i) = settled s := by
  simp only [countEnd, settled_countBoth, settled_countQueue, settled_countQueueDrop, settled_count, settled_setFrame, settled_meterEnd, settled_ite,
      settled_foldl, implies_true, ite_self]

theorem settled_deselect (s : State) (c : Copy) :
    settled (deselect s c) = settled s := by
  simp only [deselect, settled_setPort, settled_ite, ite_self]

theorem settled_unlinkMirror (s : State) (len : Nat) (c : Copy) :
    settled (unlinkMirror s len c) = settled s := by
  simp only [unlinkMirror, settled_deselect, settled_setQueue, settled_settleHead, settled_dropMirror]

theorem settled_freeHeld (s : State) (len : Nat) (c : Copy) :
    settled (freeHeld s len c) = settled s := by
  simp only [freeHeld, settled_releaseCopy, settled_countQueueDrop, settled_takeCopy, settled_deselect]

theorem settled_freeStored (s : State) (i : Nat) :
    settled (freeStored s i) = settled s := by
  unfold freeStored
  repeat' (first
    | with_reducible rfl
    | (intro _ _)
    | (refine (settled_foldl _ ?_ _ _).trans ?_)
    | (refine (settled_foldl_snd _ ?_ _ _).trans ?_)
    | (simp only [settled_unlinkMirror, settled_freeHeld, settled_releaseCopy, settled_refuseMirror, settled_releaseMirror, settled_setFrame];
        done)
    | (simp only [settled_unlinkMirror, settled_freeHeld, settled_releaseCopy, settled_refuseMirror, settled_releaseMirror, settled_setFrame])
    | split)

theorem settled_ingressCaptures (s : State) (i reason : Nat) :
    settled (ingressCaptures s i reason) = settled s := by
  unfold ingressCaptures
  repeat' (first
    | with_reducible rfl
    | (intro _ _)
    | (refine (settled_foldl _ ?_ _ _).trans ?_)
    | (refine (settled_foldl_snd _ ?_ _ _).trans ?_)
    | (simp only [settled_makeCapture]; done)
    | (simp only [settled_makeCapture])
    | split)

theorem settled_linkStored (s : State) (i : Nat) :
    settled (linkStored s i) = settled s := by
  unfold linkStored
  repeat' (first
    | with_reducible rfl
    | (intro _ _)
    | (refine (settled_foldl _ ?_ _ _).trans ?_)
    | (refine (settled_foldl_snd _ ?_ _ _).trans ?_)
    | (simp only [settled_releaseMirror, settled_enqueueCopy, settled_setFrame]; done)
    | (simp only [settled_releaseMirror, settled_enqueueCopy, settled_setFrame])
    | split)

theorem settled_followEnd (bytes : List Byte) (bad : Bool) (s : State) (j : Nat) :
    settled (followEnd bytes bad s j) = settled s := by
  unfold followEnd
  repeat' (first
    | with_reducible rfl
    | (intro _ _)
    | (refine (settled_foldl _ ?_ _ _).trans ?_)
    | (refine (settled_foldl_snd _ ?_ _ _).trans ?_)
    | (simp only [settled_ite, settled_refuseMirror, settled_releaseCopy, settled_count, settled_enqueueCopy, ite_self, settled_setFrame,
          settled_trueUpLeaves]; done)
    | (simp only [settled_ite, settled_refuseMirror, settled_releaseCopy, settled_count, settled_enqueueCopy, ite_self, settled_setFrame,
          settled_trueUpLeaves])
    | split)

theorem settled_streamOversize (s : State) (i : Nat) :
    settled (streamOversize s i) = settled s := by
  simp only [streamOversize, settled_countPolicing, settled_setLatch, settled_dropFrame, settled_ite, ite_self]

theorem settled_finishFrame (s : State) (i bad : Nat) :
    settled (finishFrame s i bad) = settled s := by
  simp only [finishFrame, settled_reapFrame, settled_followEnd, implies_true, settled_foldl, settled_setFrame, settled_ite, settled_freeStored,
      settled_snd_ite, settled_traceEnd, settled_ingressCaptures, settled_streamOversize, settled_countDrop, settled_countEnd, ite_self,
      settled_linkStored, settled_trueUpLeaves]

theorem settled_loadPause (s : State) (p k quanta : Nat) :
    settled (loadPause s p k quanta) = settled s := by
  simp only [loadPause, settled_setPort]

theorem settled_macControl (s : State) (p : Nat) (b : List Byte) :
    settled (macControl s p b) = settled s := by
  unfold macControl
  split <;> first
    | with_reducible rfl
    | simp only [settled_ite, settled_showPause, settled_loadPause, settled_count, ite_self, implies_true, settled_foldl]

theorem settled_rescueEnd (s : State) (p bad : Nat) (b : List Byte) :
    settled (rescueEnd s p bad b) = settled s := by
  simp only [rescueEnd, settled_ite, settled_mk, settled_fold, settled_tally, settled_setPort, ite_self]

theorem settled_enterSlice (s : State) (w : WakeEntry) :
    settled (enterSlice s w) = settled s := by
  unfold enterSlice
  (repeat' split) <;> first
    | with_reducible rfl
    | simp only [settled_setPort, settled_ite, settled_dropFrame, settled_setFrame, settled_mk, settled_fold, settled_ingress, ite_self,
          settled_finishFrame, settled_countPortEnd]

theorem settled_wakeOverflow (s : State) (p : Nat) :
    settled (wakeOverflow s p) = settled s := by
  simp only [wakeOverflow, settled_count, settled_countDrop]

theorem settled_untrace (s : State) (sl : Nat) (traced : Bool) :
    settled (untrace s sl traced) = settled s := by
  simp only [untrace, settled_ite, settled_setSlice, ite_self]

theorem settled_enterFifo (s : State) (sl : Nat) (w : WakeEntry) :
    settled (enterFifo s sl w) = settled s := by
  simp only [enterFifo, settled_ite, settled_untrace, settled_wakeOverflow, settled_wakeSlice, settled_setSlice, ite_self]

theorem settled_holdInMac (s : State) (w : WakeEntry) (rescue control : Bool) :
    settled (holdInMac s w rescue control) = settled s := by
  simp only [holdInMac, settled_touchSlice, settled_setFrame, settled_setPort, settled_mk, settled_fold]

theorem settled_endInMac (s : State) (p : Nat) (bytes : List Byte) (rescue : Bool) (fault : FrameFault) (fragments : Nat) :
    settled (endInMac s p bytes rescue fault fragments) = settled s := by
  simp only [endInMac, settled_touchSlice, settled_countPortEnd, settled_rescueEnd, settled_countDrop, settled_macControl, settled_ite, ite_self]

theorem settled_receive (s : State) (p : Nat) (bytes : List Byte) (ended pre : Bool) :
    settled (receive s p bytes ended pre) = settled s := by
  simp only [receive, settled_ite, settled_endInMac, settled_holdInMac, ite_self, settled_enterSlice, settled_wakeSlice, settled_traceDraw,
      settled_enterFifo]

theorem settled_receiveEnd (s : State) (p : Nat) (pre : Bool) (rest : List Byte) (fault : FrameFault) (fragments : Nat) :
    settled (receiveEnd s p pre rest fault fragments) = settled s := by
  simp only [receiveEnd]
  (repeat' split) <;> first
    | with_reducible rfl
    | simp only [settled_endInMac, settled_setFrame, settled_setPort, settled_finishFrame, settled_countPortEnd, settled_wakeSlice,
          settled_untrace, settled_wakeOverflow, settled_setSlice]

theorem settled_drainFifo (s : State) (sl : Nat) :
    settled (drainFifo s sl) = settled s := by
  simp only [drainFifo, settled_enterSlice, implies_true, settled_foldl, settled_setSlice]

theorem settled_cutReception (s : State) (p : Nat) :
    settled (cutReception s p) = settled s := by
  simp only [cutReception, settled_receiveEnd]

theorem settled_execFrameReceive (port : Fin 64) (bytes : List Byte) (ended preemptable : Bool) (s : State) :
    KeepsSettled s (execFrameReceive port bytes ended preemptable s) := by
  unfold execFrameReceive
  refine keepsSettled_done _ _ ?_
  simp only [settled_receive]

theorem settled_execMacControlFrame (port : Fin 64) (bytes : List Byte) (s : State) :
    KeepsSettled s (execMacControlFrame port bytes s) := by
  unfold execMacControlFrame
  refine keepsSettled_done _ _ ?_
  simp only [settled_ite, settled_endInMac, ite_self]

theorem settled_execFrameEnd (port : Fin 64) (preemptable : Bool) (rest : List Byte) (fault : FrameFault) (fragments : Nat) (s :
    State) :
    KeepsSettled s (execFrameEnd port preemptable rest fault fragments s) := by
  unfold execFrameEnd
  refine keepsSettled_done _ _ ?_
  simp only [settled_receiveEnd]

theorem settled_execPauseTimerExpiry (port : Fin 64) (prio : Fin 8) (s : State) :
    KeepsSettled s (execPauseTimerExpiry port prio s) := by
  unfold execPauseTimerExpiry
  refine keepsSettled_done _ _ ?_
  simp only [settled_ite, settled_showPause, settled_setPort, ite_self]

end Sys2Proof.Machine
end

