-- ==== Sys2Proof/Laws/LastingUnits.lean ====
section
/-! SUPPORT. What each function of ports, devices, tables, twins and power leaves alone: all that is settled (settled_…), or at least what lasts (kept_…). -/

set_option linter.unusedSimpArgs false

namespace Sys2Proof.Machine

/-! ### Ports -/

theorem settled_setLanes (s : State) (p hi lo v : Nat) :
    settled (setLanes s p hi lo v) = settled s := by
  simp only [setLanes, settled_setFld, implies_true, settled_foldl]

theorem settled_lanesOff (s : State) (p : Nat) :
    settled (lanesOff s p) = settled s := by
  simp only [lanesOff, settled_wr, implies_true, settled_foldl]

theorem settled_followPreempt (s : State) (p : Nat) :
    settled (followPreempt s p) = settled s := by
  simp only [followPreempt, settled_ite, settled_raise, settled_setFlag, ite_self]

theorem settled_startVerify (s : State) (p : Nat) :
    settled (startVerify s p) = settled s := by
  simp only [startVerify, settled_followPreempt, settled_setFld, settled_setPort]

theorem kept_preemptWritten (s : State) (p : Nat) (wasEnabled : Bool) :
    lastingOf (settled (preemptWritten s p wasEnabled)) = lastingOf (settled s) := by
  simp only [preemptWritten, kept_ite, settled_startVerify, settled_followPreempt, ite_self]

theorem settled_setPortState (s : State) (p v : Nat) :
    settled (setPortState s p v) = settled s := by
  simp only [setPortState, settled_setFld]

theorem settled_showMode (s : State) (p : Nat) (rate : Option Nat) :
    settled (showMode s p rate) = settled s := by
  simp only [showMode, settled_setFld, settled_setFlag]

theorem settled_showTraining (s : State) (p : Nat) :
    settled (showTraining s p) = settled s := by
  simp only [showTraining, settled_setFld, settled_setLanes, settled_ite, ite_self]

theorem settled_enablePort (s : State) (p : Nat) :
    settled (enablePort s p) = settled s := by
  simp only [enablePort, settled_setPortState, settled_setFlag, settled_showMode, settled_setPort, settled_showTraining, settled_setLanes,
      settled_ite, ite_self]

theorem settled_retrainPort (s : State) (p : Nat) :
    settled (retrainPort s p) = settled s := by
  simp only [retrainPort, settled_showTraining, settled_setPortState]

theorem settled_leaveUp (s : State) (p : Nat) :
    settled (leaveUp s p) = settled s := by
  simp only [leaveUp, settled_truncate, settled_cutReception, settled_fcClear, settled_showPause, settled_setPort, settled_setFlag, settled_setLanes]

theorem settled_flushQueue (s : State) (p q : Nat) :
    settled (flushQueue s p q) = settled s := by
  unfold flushQueue
  repeat' (first
    | with_reducible rfl
    | (intro _ _)
    | (refine (settled_foldl _ ?_ _ _).trans ?_)
    | (refine (settled_foldl_snd _ ?_ _ _).trans ?_)
    | (simp only [settled_ite, settled_mk, settled_fold, ite_self, settled_dropFlushed, settled_setQueue, settled_flushSpill]; done)
    | (simp only [settled_ite, settled_mk, settled_fold, ite_self, settled_dropFlushed, settled_setQueue, settled_flushSpill])
    | split)

theorem settled_flushSelected (s : State) (p : Nat) (express : Bool) :
    settled (flushSelected s p express) = settled s := by
  unfold flushSelected
  split <;> first
    | with_reducible rfl
    | simp only [settled_ite, settled_dropFlushed, settled_setQueue, settled_setSelected, ite_self]

theorem settled_startFlush (s : State) (p : Nat) (down reconfigure : Bool) :
    settled (startFlush s p down reconfigure) = settled s := by
  simp only [startFlush, settled_ite, settled_flushBegin, settled_followPreempt, settled_lanesOff, settled_flushQueue, implies_true,
      settled_foldl, settled_flushSelected, settled_tally, settled_raise, settled_setPort, settled_setFlag, settled_setPortState, ite_self]

theorem settled_takeDown (s : State) (p : Nat) :
    settled (takeDown s p) = settled s := by
  unfold takeDown
  split <;> first
    | with_reducible rfl
    | simp only [settled_startFlush, settled_setFlag, settled_leaveUp, settled_lanesOff, settled_setPort]

theorem settled_loseLink (s : State) (p : Nat) :
    settled (loseLink s p) = settled s := by
  simp only [loseLink, settled_ite, settled_startFlush, settled_setFlag, settled_leaveUp, settled_followPreempt, settled_raise, settled_setPort,
      settled_setPortState, ite_self]

theorem settled_finishFlush (s : State) (p : Nat) :
    settled (finishFlush s p) = settled s := by
  simp only [finishFlush, settled_freeContext, settled_setQueue, settled_raise, settled_setFlag, settled_enablePort, settled_setPortState,
      settled_retrainPort, settled_showMode, settled_lanesOff, settled_ite, settled_foldl, implies_true, ite_self]

theorem settled_lockLane (s : State) (l : Nat) :
    settled (lockLane s l) = settled s := by
  simp only [lockLane, settled_ite, settled_mk, settled_fold, ite_self]

theorem settled_linkUp (s : State) (p rate rxLat txLat : Nat) (lpi : Bool) :
    settled (linkUp s p rate rxLat txLat lpi) = settled s := by
  simp only [linkUp, settled_setFlag, settled_setPortState, settled_showMode, settled_wr, settled_lockLane, settled_setLanes, settled_setPort,
      settled_raise, settled_tally, settled_fcFollowAll, settled_startVerify, settled_ite, settled_foldl, implies_true, ite_self]

theorem kept_lpiFollow (s : State) (p : Nat) :
    lastingOf (settled (lpiFollow s p)) = lastingOf (settled s) := by
  simp only [lpiFollow, settled_wakeTransmit, kept_ite, ite_self]

theorem settled_enterLpi (s : State) (p : Nat) :
    settled (enterLpi s p) = settled s := by
  simp only [enterLpi, settled_ite, settled_setLanes, settled_setFlag, ite_self]

theorem settled_verifySend (s : State) (p : Nat) :
    settled (verifySend s p) = settled s := by
  simp only [verifySend, settled_ite]
  (repeat' split) <;> first
    | with_reducible rfl
    | simp only [settled_emit, settled_setPort, settled_setFld, settled_raise]

theorem settled_verifySucceeds (s : State) (p : Nat) :
    settled (verifySucceeds s p) = settled s := by
  simp only [verifySucceeds, settled_ite, settled_followPreempt, settled_setFld, ite_self]

theorem settled_gateWakes (s : State) (sl : Nat) :
    settled (gateWakes s sl) = settled s := by
  simp only [gateWakes, settled_ite, settled_wakeSlice, ite_self]

theorem settled_driveRclk (s : State) (k : Nat) :
    settled (driveRclk s k) = settled s := by
  simp only [driveRclk, settled_emit]

theorem settled_squelch (s : State) (k : Nat) :
    settled (squelch s k) = settled s := by
  simp only [squelch, settled_ite, settled_raise, settled_mk, settled_fold, settled_emit, settled_setFlag, ite_self]

theorem settled_unsquelch (s : State) (k : Nat) :
    settled (unsquelch s k) = settled s := by
  simp only [unsquelch, settled_setFlag, settled_driveRclk, settled_ite, settled_mk, settled_fold, ite_self]

theorem kept_rclkWritten (s : State) (k : Nat) :
    lastingOf (settled (rclkWritten s k)) = lastingOf (settled s) := by
  simp only [rclkWritten, settled_squelch, settled_driveRclk, kept_ite, ite_self]

theorem settled_wipePort (s : State) (p : Nat) :
    settled (wipePort s p) = settled s := by
  simp only [wipePort, settled_followPreempt, settled_setFld, settled_dropGates, settled_setPort, settled_setSlice]

theorem settled_resetPort (s : State) (p : Nat) :
    settled (resetPort s p) = settled s := by
  simp only [resetPort, settled_ite, settled_enablePort, ite_self, settled_wipePort, settled_takeDown]

theorem settled_writeEnable (s : State) (p : Nat) (on : Bool) :
    settled (writeEnable s p on) = settled s := by
  simp only [writeEnable, settled_ite, settled_takeDown, settled_setFlag, settled_enablePort, ite_self]

theorem settled_execPortEnable (src : Source) (port : Fin 64) (s : State) :
    KeepsSettled s (execPortEnable src port s) := by
  unfold execPortEnable
  refine keepsSettled_done _ _ ?_
  simp only [settled_writeEnable, implies_true, settled_guarded]

theorem settled_execPortDisable (src : Source) (port : Fin 64) (s : State) :
    KeepsSettled s (execPortDisable src port s) := by
  unfold execPortDisable
  refine keepsSettled_done _ _ ?_
  simp only [settled_writeEnable, implies_true, settled_guarded]

theorem settled_execPortReset (src : Source) (port : Fin 64) (s : State) :
    KeepsSettled s (execPortReset src port s) := by
  unfold execPortReset
  refine keepsSettled_done _ _ ?_
  simp only [settled_resetPort, implies_true, settled_guarded]

theorem settled_execRetrain (src : Source) (port : Fin 64) (s : State) :
    KeepsSettled s (execRetrain src port s) := by
  unfold execRetrain
  refine keepsSettled_done _ _ ?_
  simp only [settled_loseLink, implies_true, settled_guarded]

theorem settled_execLinkEstablished (port : Fin 64) (mode rxLatency txLatency : Nat) (lpi : Bool) (s : State) :
    KeepsSettled s (execLinkEstablished port mode rxLatency txLatency lpi s) := by
  unfold execLinkEstablished
  refine keepsSettled_done _ _ ?_
  simp only [settled_linkUp]

theorem settled_loseSignals (s : State) (p lanes : Nat) : settled (loseSignals s p lanes) = settled s := by
  refine settled_foldl _ ?_ _ _
  intro s l
  split
  · simp only [settled_raise, settled_setFld]
  · rfl

theorem settled_execLinkLoss (port : Fin 64) (lanes : BitVec 8) (s : State) :
    KeepsSettled s (execLinkLoss port lanes s) := by
  unfold execLinkLoss
  refine keepsSettled_done _ _ ?_
  simp only [settled_loseLink, settled_ite, settled_setFlag, settled_loseSignals, ite_self]

theorem settled_execHoldoffExpiry (port : Fin 64) (s : State) :
    KeepsSettled s (execHoldoffExpiry port s) := by
  unfold execHoldoffExpiry
  refine keepsSettled_done _ _ ?_
  simp only [settled_ite, settled_startFlush, ite_self]

theorem settled_execFlushDone (port : Fin 64) (s : State) :
    KeepsSettled s (execFlushDone port s) := by
  unfold execFlushDone
  refine keepsSettled_done _ _ ?_
  simp only [settled_ite, settled_finishFlush, ite_self]

theorem settled_execTrainingFailed (port : Fin 64) (cause : Fin 8) (s : State) :
    KeepsSettled s (execTrainingFailed port cause s) := by
  unfold execTrainingFailed
  refine keepsSettled_done _ _ ?_
  simp only [settled_ite, settled_raise, settled_setFld, ite_self]

theorem settled_execLpiEntry (port : Fin 64) (s : State) :
    KeepsSettled s (execLpiEntry port s) := by
  unfold execLpiEntry
  refine keepsSettled_done _ _ ?_
  simp only [settled_enterLpi]

theorem settled_execGateEntryChange (port : Fin 64) (s : State) :
    KeepsSettled s (execGateEntryChange port s) := by
  unfold execGateEntryChange
  refine keepsSettled_done _ _ ?_
  simp only [settled_holdAtClose, settled_showGate]

theorem settled_execGateWake (slice : Fin 8) (s : State) :
    KeepsSettled s (execGateWake slice s) := by
  unfold execGateWake
  refine keepsSettled_done _ _ ?_
  simp only [settled_gateWakes]

theorem settled_execVerifySend (port : Fin 64) (s : State) :
    KeepsSettled s (execVerifySend port s) := by
  unfold execVerifySend
  refine keepsSettled_done _ _ ?_
  simp only [settled_verifySend]

theorem settled_execVerifyResponse (port : Fin 64) (s : State) :
    KeepsSettled s (execVerifyResponse port s) := by
  unfold execVerifyResponse
  refine keepsSettled_done _ _ ?_
  simp only [settled_verifySucceeds]

theorem settled_execRclkSquelch (output : Fin 2) (s : State) :
    KeepsSettled s (execRclkSquelch output s) := by
  unfold execRclkSquelch
  refine keepsSettled_done _ _ ?_
  simp only [settled_squelch]

theorem settled_execRclkRestart (output : Fin 2) (s : State) :
    KeepsSettled s (execRclkRestart output s) := by
  unfold execRclkRestart
  refine keepsSettled_done _ _ ?_
  simp only [settled_unsquelch]

/-! ### Cxl -/

theorem settled_setCxlState (s : State) (c v : Nat) :
    settled (setCxlState s c v) = settled s := by
  simp only [setCxlState, settled_setFld]

theorem settled_setTimestamp (s : State) (c : Nat) :
    settled (setTimestamp s c) = settled s := by
  simp only [setTimestamp, settled_emit]

theorem settled_timestampRound (s : State) :
    settled (timestampRound s) = settled s := by
  simp only [timestampRound, settled_ite, settled_mk, settled_fold, settled_setTimestamp, ite_self, implies_true, settled_foldl]

theorem settled_cxlTrain (s : State) (c : Nat) :
    settled (cxlTrain s c) = settled s := by
  simp only [cxlTrain, settled_setCxlLink, settled_setCxlState, settled_ite, ite_self]

theorem kept_cxlPerstRelease (s : State) (c : Nat) :
    lastingOf (settled (cxlPerstRelease s c)) = lastingOf (settled s) := by
  simp only [cxlPerstRelease, settled_setCxlLink, settled_setPerst, kept_ite, ite_self]

theorem kept_cxlTick (s : State) (c : Nat) :
    lastingOf (settled (cxlTick s c)) = lastingOf (settled s) := by
  simp only [cxlTick, kept_cxlPerstRelease, settled_cxlFail, kept_ite, ite_self]

theorem settled_identify (s : State) (c : Nat) :
    settled (identify s c) = settled s := by
  simp only [identify, settled_emit, settled_drawn, settled_ite, settled_foldl, implies_true, ite_self]

theorem settled_programDecoder (s : State) (c n : Nat) :
    settled (programDecoder s c n) = settled s := by
  simp only [programDecoder, settled_emit, settled_setCxlLink]

theorem settled_cxlEnable (s : State) (c : Nat) (on : Bool) :
    settled (cxlEnable s c on) = settled s := by
  simp only [cxlEnable, settled_ite, settled_cxlTrain, settled_setFlag, settled_setPerst, settled_setFld, settled_setCxlState, settled_forceDiscard,
      ite_self]

theorem settled_cxlLinked (s : State) (c : Nat) (x8 : Bool) (rate : Nat) (cxl2 wide mem : Bool) :
    settled (cxlLinked s c x8 rate cxl2 wide mem) = settled s := by
  simp only [cxlLinked, settled_ite, settled_cxlFail, settled_setCxlState, settled_setFld, ite_self]

theorem settled_cxlStepFails (s : State) (c cause : Nat) :
    settled (cxlStepFails s c cause) = settled s := by
  unfold cxlStepFails
  (repeat' split) <;> first
    | with_reducible rfl
    | simp only [settled_cxlFail, settled_identify, settled_ite, ite_self]

theorem settled_layoutPort (s : State) (c : Nat) :
    settled (layoutPort s c) = settled s := by
  unfold layoutPort
  repeat' (first
    | with_reducible rfl
    | (intro _ _)
    | (refine (settled_foldl _ ?_ _ _).trans ?_)
    | (refine (settled_foldl_snd _ ?_ _ _).trans ?_)
    | (simp only [settled_ite, settled_setPlace, settled_mk, settled_fold, settled_wr, settled_setFld, ite_self, settled_setPart, settled_emit,
        settled_raise]; done)
    | (simp only [settled_ite, settled_setPlace, settled_mk, settled_fold, settled_wr, settled_setFld, ite_self, settled_raise])
    | split)

theorem settled_cxlComplete (s : State) (c capacity : Nat) :
    settled (cxlComplete s c capacity) = settled s := by
  simp only [cxlComplete, settled_cxlFail, settled_identify, settled_programDecoder, settled_setTimestamp, settled_wr, settled_layoutPort,
      settled_raise, settled_setCxlState, settled_ite, ite_self]

theorem settled_clearPlace (s : State) (c : Nat) :
    settled (clearPlace s c) = settled s := by
  simp only [clearPlace, settled_ite, settled_setPlace, ite_self]

theorem settled_cxlEvent (c : Nat) (s : State) (e : Nat × List Nat) :
    settled (cxlEvent c s e) = settled s := by
  simp only [cxlEvent, settled_ite, settled_raise, settled_clearPlace, settled_reportAs, settled_tally, ite_self]

theorem settled_readEvents (s : State) (c : Nat) (events : List (Nat × List Nat)) :
    settled (readEvents s c events) = settled s := by
  simp only [readEvents, settled_cxlEvent, settled_emit, settled_ite, settled_foldl, implies_true, ite_self]

theorem settled_cxlPoll (s : State) (c : Nat) (h : Health) (events : List (Nat × List Nat)) :
    settled (cxlPoll s c h events) = settled s := by
  simp only [cxlPoll, settled_emit, settled_setCxlLink, settled_cxlFail, settled_wr, settled_clearPlace, settled_raise, settled_readEvents, settled_ite,
      settled_mk, settled_fold, ite_self]

theorem settled_cxlSignal (s : State) (c : Nat) (events : List (Nat × List Nat)) :
    settled (cxlSignal s c events) = settled s := by
  simp only [cxlSignal, settled_readEvents, settled_setCxlLink, settled_ite, ite_self]

theorem settled_cxlReset (s : State) (c : Nat) :
    settled (cxlReset s c) = settled s := by
  simp only [cxlReset, settled_cxlTrain, settled_setFld, settled_setCxlState, settled_setPerst, settled_forceDiscard]

theorem kept_sanitizeRequests (s : State) (c : Nat) :
    lastingOf (settled (sanitizeRequests s c)) = lastingOf (settled s) := by
  unfold sanitizeRequests
  dsimp only
  (repeat' split) <;> first
    | with_reducible rfl
    | simp only [settled_emit, settled_drawn]

theorem kept_startSanitize (s : State) (c : Nat) :
    lastingOf (settled (startSanitize s c)) = lastingOf (settled s) := by
  simp only [startSanitize, kept_sanitizeRequests, settled_setCxlState, settled_forceDiscard, kept_ite, kept_mk, kept_fold, ite_self]

theorem settled_sanitizeEnd (s : State) (c : Nat) (ok : Bool) :
    settled (sanitizeEnd s c ok) = settled s := by
  simp only [sanitizeEnd, settled_ite, settled_raise, settled_mk, settled_fold, settled_setFlag, settled_setCxlState, ite_self]

theorem kept_stepTime (s : State) (step : Int) :
    lastingOf (settled (stepTime s step)) = lastingOf (settled s) := by
  simp only [stepTime, kept_tevStep, kept_rephase, kept_applyStep, settled_timestampRound, settled_raise, kept_gatesStep, kept_foldl,
      implies_true]

theorem kept_execTimeStep (src : Source) (s : State) :
    KeepsRes s (execTimeStep src s) := by
  unfold execTimeStep
  refine keepsRes_done _ _ ?_
  simp only [kept_guarded, kept_holdStep, implies_true]

theorem settled_execCxlPortEnable (src : Source) (port : Fin 4) (s : State) :
    KeepsSettled s (execCxlPortEnable src port s) := by
  unfold execCxlPortEnable
  refine keepsSettled_done _ _ ?_
  simp only [settled_cxlEnable, implies_true, settled_guarded]

theorem settled_execCxlPortDisable (src : Source) (port : Fin 4) (s : State) :
    KeepsSettled s (execCxlPortDisable src port s) := by
  unfold execCxlPortDisable
  refine keepsSettled_done _ _ ?_
  simp only [settled_cxlEnable, implies_true, settled_guarded]

theorem settled_execCxlLinkUp (port : Fin 4) (x8 : Bool) (rate : Fin 4) (cxl2 wide mem : Bool) (s : State) :
    KeepsSettled s (execCxlLinkUp port x8 rate cxl2 wide mem s) := by
  unfold execCxlLinkUp
  refine keepsSettled_done _ _ ?_
  simp only [settled_cxlLinked]

theorem settled_execCxlEnumerationTimeout (port : Fin 4) (cause : Fin 16) (s : State) :
    KeepsSettled s (execCxlEnumerationTimeout port cause s) := by
  unfold execCxlEnumerationTimeout
  refine keepsSettled_done _ _ ?_
  simp only [settled_cxlStepFails]

theorem settled_execCxlReady (port : Fin 4) (capacity : Nat) (s : State) :
    KeepsSettled s (execCxlReady port capacity s) := by
  unfold execCxlReady
  refine keepsSettled_done _ _ ?_
  simp only [settled_cxlComplete]

theorem settled_execCxlHealthPoll (port : Fin 4) (health : Health) (events : List (Nat × List Nat)) (s : State) :
    KeepsSettled s (execCxlHealthPoll port health events s) := by
  unfold execCxlHealthPoll
  refine keepsSettled_done _ _ ?_
  simp only [settled_cxlPoll]

theorem settled_execCxlEventSignal (port : Fin 4) (events : List (Nat × List Nat)) (s : State) :
    KeepsSettled s (execCxlEventSignal port events s) := by
  unfold execCxlEventSignal
  refine keepsSettled_done _ _ ?_
  simp only [settled_cxlSignal]

theorem settled_cxlError (s : State) (c cause : Nat) :
    settled (cxlError s c cause) = settled s := by
  unfold cxlError
  (repeat' split) <;> first
    | with_reducible rfl
    | simp only [settled_cxlFail, settled_report, settled_count, settled_tally, settled_ite, ite_self]

theorem settled_execCxlPortFailure (port : Fin 4) (cause : Fin 16) (s : State) :
    KeepsSettled s (execCxlPortFailure port cause s) := by
  unfold execCxlPortFailure
  refine keepsSettled_done _ _ ?_
  simp only [settled_cxlError]

theorem settled_execCxlPortReset (src : Source) (port : Fin 4) (s : State) :
    KeepsSettled s (execCxlPortReset src port s) := by
  unfold execCxlPortReset
  refine keepsSettled_done _ _ ?_
  simp only [settled_cxlReset, implies_true, settled_guarded]

theorem settled_execSanitizeDone (port : Fin 4) (ok : Bool) (s : State) :
    KeepsSettled s (execSanitizeDone port ok s) := by
  unfold execSanitizeDone
  refine keepsSettled_done _ _ ?_
  simp only [settled_sanitizeEnd]

theorem settled_execSetTimestamp (s : State) :
    KeepsSettled s (execSetTimestamp s) := by
  unfold execSetTimestamp
  refine keepsSettled_done _ _ ?_
  simp only [settled_ite, settled_timestampRound, ite_self]

/-! ### TableOps -/

theorem kept_forgetDebits (s : State) (k : Nat) :
    lastingOf (settled (forgetDebits s k)) = lastingOf (settled s) := by
  simp only [forgetDebits, settled_setFrame, kept_ite, kept_foldl, implies_true, ite_self]

theorem kept_writePolicer (s : State) (k : Nat) (v : Image) :
    lastingOf (settled (writePolicer s k v)) = lastingOf (settled s) := by
  simp only [writePolicer, settled_setTab, kept_forgetDebits, kept_ite, kept_mk, kept_fold, ite_self]

theorem kept_writeShaper (s : State) (i : Nat) (v : Nat) :
    lastingOf (settled (writeShaper s i v)) = lastingOf (settled s) := by
  simp only [writeShaper, kept_ite, settled_setBucketB, settled_setBucketA, ite_self, kept_mk, kept_fold]

theorem kept_writeEntry (s : State) (t i : Nat) (v : Image) :
    lastingOf (settled (writeEntry s t i v)) = lastingOf (settled s) := by
  unfold writeEntry
  split <;> first
    | with_reducible rfl
    | simp only [settled_fdbWrite, kept_writePolicer, kept_ite, settled_setPolicer, ite_self, kept_acceptStream, settled_setTab,
          kept_writeShaper, kept_setCounter]

/-! ### Shadow -/

theorem kept_showShadow (s : State) :
    lastingOf (settled (showShadow s)) = lastingOf (settled s) := by
  simp only [showShadow, settled_wr]

theorem kept_shadowPassDone (s : State) :
    lastingOf (settled (shadowPassDone s)) = lastingOf (settled s) := by
  simp only [shadowPassDone, kept_showShadow, settled_raise, settled_setFlag, settled_wr, kept_mk, kept_fold]

theorem kept_shadowAdvance (s : State) :
    lastingOf (settled (shadowAdvance s)) = lastingOf (settled s) := by
  simp only [shadowAdvance, kept_ite, kept_showShadow, kept_mk, kept_fold]
  (repeat' split) <;> first
    | with_reducible rfl
    | simp only [kept_showShadow, kept_mk, kept_fold, kept_shadowPassDone]

theorem kept_shadowFetch (s : State) (t i : Nat) :
    lastingOf (settled (shadowFetch s t i)) = lastingOf (settled s) := by
  simp only [shadowFetch, settled_emit]

theorem kept_shadowReadError (s : State) (t i : Nat) :
    lastingOf (settled (shadowReadError s t i)) = lastingOf (settled s) := by
  simp only [shadowReadError, settled_report, settled_raise]

theorem kept_shadowVisit (s : State) (shadow : Option (List Image)) :
    lastingOf (settled (shadowVisit s shadow)) = lastingOf (settled s) := by
  unfold shadowVisit
  (repeat' split) <;> first
    | with_reducible rfl
    | simp only [kept_shadowPassDone, kept_shadowFetch, kept_shadowReadError, kept_shadowAdvance, kept_mk, kept_fold]

theorem kept_showImage (s : State) (base v : Nat) :
    lastingOf (settled (showImage s base v)) = lastingOf (settled s) := by
  simp only [showImage, settled_wr, implies_true, kept_foldl]

theorem kept_shadowRepair (s : State) (d : ShadowDiff) (sw : Nat) :
    lastingOf (settled (shadowRepair s d sw)) = lastingOf (settled s) := by
  simp only [shadowRepair, kept_ite, settled_fdbRemove, kept_mk, kept_fold, kept_writeEntry, ite_self]

theorem kept_shadowReport (s : State) (d : ShadowDiff) (hw sw : Nat) :
    lastingOf (settled (shadowReport s d hw sw)) = lastingOf (settled s) := by
  simp only [shadowReport, kept_ite, kept_showImage, settled_wr, settled_report, settled_raise, settled_count, ite_self, settled_setFlag,
      kept_shadowRepair]

theorem kept_shadowReread (s : State) (shadow : Option Image) :
    lastingOf (settled (shadowReread s shadow)) = lastingOf (settled s) := by
  unfold shadowReread
  (repeat' split) <;> first
    | with_reducible rfl
    | simp only [kept_shadowFetch, kept_shadowReadError, kept_shadowReport, kept_ite, kept_mk, kept_fold, ite_self]

theorem kept_shadowStart (s : State) :
    lastingOf (settled (shadowStart s)) = lastingOf (settled s) := by
  simp only [shadowStart, kept_showShadow, kept_mk, kept_fold, settled_setFlag]

theorem kept_shadowOnce (s : State) :
    lastingOf (settled (shadowOnce s)) = lastingOf (settled s) := by
  simp only [shadowOnce, kept_ite, kept_shadowStart, ite_self]

theorem kept_execShadowVisit (shadow : Option (List Image)) (s : State) :
    KeepsRes s (execShadowVisit shadow s) := by
  unfold execShadowVisit
  refine keepsRes_sized _ _ _ ?_
  simp only [kept_shadowVisit]

theorem kept_execShadowReread (shadow : Option Image) (s : State) :
    KeepsRes s (execShadowReread shadow s) := by
  unfold execShadowReread
  refine keepsRes_done _ _ ?_
  simp only [kept_shadowReread]

theorem kept_execShadowOnePass (src : Source) (s : State) :
    KeepsRes s (execShadowOnePass src s) := by
  unfold execShadowOnePass
  refine keepsRes_done _ _ ?_
  simp only [kept_shadowOnce, implies_true, kept_guarded]

/-! ### Mailbox -/

theorem kept_channelRaise (s : State) (c : Nat) :
    lastingOf (settled (channelRaise s c)) = lastingOf (settled s) := by
  simp only [channelRaise, kept_ite, settled_raise, ite_self]

theorem kept_channelMark (s : State) (c k : Nat) :
    lastingOf (settled (channelMark s c k)) = lastingOf (settled s) := by
  simp only [channelMark, kept_channelRaise, settled_setFlag]

theorem kept_setReceiverDown (s : State) (c : Nat) :
    lastingOf (settled (setReceiverDown s c)) = lastingOf (settled s) := by
  simp only [setReceiverDown, kept_channelMark, kept_setChannel]

theorem kept_postMessage (s : State) (c : Nat) (words : List Nat) :
    lastingOf (settled (postMessage s c words)) = lastingOf (settled s) := by
  simp only [postMessage, kept_ite, kept_setChannel, settled_kettleSend, settled_raise, settled_setFlag, ite_self, kept_setReceiverDown]

theorem kept_emptySlot (s : State) (c : Nat) :
    lastingOf (settled (emptySlot s c)) = lastingOf (settled s) := by
  simp only [emptySlot, settled_setFlag, kept_setChannel]

theorem kept_discardMessage (s : State) (c reason : Nat) :
    lastingOf (settled (discardMessage s c reason)) = lastingOf (settled s) := by
  simp only [discardMessage, kept_channelMark, settled_setFld, kept_emptySlot]

theorem kept_channelGo (s : State) (c : Nat) :
    lastingOf (settled (channelGo s c)) = lastingOf (settled s) := by
  simp only [channelGo, kept_ite, kept_channelMark, kept_postMessage, ite_self]

theorem kept_channelTake (s : State) (c : Nat) :
    lastingOf (settled ((channelTake s c).2)) = lastingOf (settled s) := by
  simp only [channelTake, kept_snd_ite, kept_ite, settled_kettleSend, kept_emptySlot, settled_wr, implies_true, kept_foldl, ite_self]

theorem kept_channelWithdraw (s : State) (c : Nat) :
    lastingOf (settled (channelWithdraw s c)) = lastingOf (settled s) := by
  simp only [channelWithdraw, kept_ite, kept_channelMark, settled_kettleSend, kept_setChannel, kept_discardMessage, ite_self]

theorem kept_senderReset (s : State) (c : Nat) :
    lastingOf (settled (senderReset s c)) = lastingOf (settled s) := by
  simp only [senderReset, settled_setFld, settled_wr, implies_true, kept_foldl]

theorem kept_receiverReset (s : State) (c : Nat) :
    lastingOf (settled (receiverReset s c)) = lastingOf (settled s) := by
  simp only [receiverReset, kept_ite, kept_discardMessage, ite_self]

theorem kept_firmwareRestartChannels (s : State) :
    lastingOf (settled (firmwareRestartChannels s)) = lastingOf (settled s) := by
  simp only [firmwareRestartChannels, kept_senderReset, implies_true, kept_foldl, kept_receiverReset]

theorem kept_hostResetChannels (s : State) :
    lastingOf (settled (hostResetChannels s)) = lastingOf (settled s) := by
  simp only [hostResetChannels, kept_receiverReset, implies_true, kept_foldl, kept_senderReset]

theorem kept_receiversDown (s : State) (cs : List Nat) :
    lastingOf (settled (receiversDown s cs)) = lastingOf (settled s) := by
  simp only [receiversDown, kept_ite, kept_setReceiverDown, ite_self, implies_true, kept_foldl]

theorem kept_mailboxKettleUp (s : State) :
    lastingOf (settled (mailboxKettleUp s)) = lastingOf (settled s) := by
  simp only [mailboxKettleUp, kept_ite, kept_setChannel, settled_kettleSend, ite_self]

theorem kept_mailboxKettleDown (s : State) :
    lastingOf (settled (mailboxKettleDown s)) = lastingOf (settled s) := by
  simp only [mailboxKettleDown, kept_receiversDown, kept_ite, kept_discardMessage, ite_self, kept_setChannel]

theorem kept_bySender (s : State) (src : Source) (c : Nat) (act : State → State) (h : ∀ u, lastingOf (settled (act u)) = lastingOf (settled u)) :
    lastingOf (settled (bySender s src c act)) = lastingOf (settled s) := by
  simp only [bySender, kept_ite, h, settled_accessFault, ite_self]

theorem kept_execMailboxGo (src : Source) (channel : Fin 12) (s : State) :
    KeepsRes s (execMailboxGo src channel s) := by
  unfold execMailboxGo
  refine keepsRes_done _ _ ?_
  simp only [kept_channelGo, implies_true, kept_bySender, kept_guarded]

theorem kept_execTake (src : Source) (channel : Fin 12) (s : State) :
    KeepsRes s (execTake src channel s) := by
  unfold execTake
  simp only
  (repeat' split) <;> refine keepsRes_done _ _ ?_ <;> first
    | with_reducible rfl
    | simp only [settled_emit, kept_dropWindow, settled_accessFault, kept_channelTake]

theorem kept_execWithdraw (src : Source) (channel : Fin 12) (s : State) :
    KeepsRes s (execWithdraw src channel s) := by
  unfold execWithdraw
  refine keepsRes_done _ _ ?_
  simp only [kept_channelWithdraw, implies_true, kept_bySender, kept_guarded]

theorem kept_execMailboxTimeout (channel : Fin 12) (s : State) :
    KeepsRes s (execMailboxTimeout channel s) := by
  unfold execMailboxTimeout
  refine keepsRes_done _ _ ?_
  simp only [kept_ite, kept_channelMark, kept_setChannel, ite_self]

theorem kept_execReceiverDown (channel : Fin 12) (s : State) :
    KeepsRes s (execReceiverDown channel s) := by
  unfold execReceiverDown
  refine keepsRes_done _ _ ?_
  simp only [kept_ite, kept_setReceiverDown, ite_self]

theorem kept_channelReset (s : State) (src : Source) (c : Nat) :
    lastingOf (settled (channelReset s src c)) = lastingOf (settled s) := by
  simp only [channelReset, kept_ite, kept_senderReset, kept_receiverReset, ite_self]

theorem kept_execSenderReset (src : Source) (channel : Fin 12) (s : State) :
    KeepsRes s (execSenderReset src channel s) := by
  unfold execSenderReset
  refine keepsRes_done _ _ ?_
  simp only [kept_channelReset, implies_true, kept_guarded]

theorem kept_deliverMate (s : State) (words : List Nat) :
    lastingOf (settled (deliverMate s words)) = lastingOf (settled s) := by
  simp only [deliverMate, kept_postMessage, settled_setFld]

/-! ### Standby -/

theorem settled_sendPolicers (s : State) (cp : Bool) :
    settled (sendPolicers s cp) = settled s := by
  simp only [sendPolicers, settled_mk, settled_fold, settled_kettleSend, implies_true, settled_foldl]

theorem kept_sendCounters (s : State) (cp : Bool) :
    lastingOf (settled (sendCounters s cp)) = lastingOf (settled s) := by
  simp only [sendCounters, kept_mk, kept_fold, settled_kettleSend, implies_true, kept_foldl]

theorem settled_sendEnd (s : State) (k : Nat) (final : Bool) :
    settled (sendEnd s k final) = settled s := by
  simp only [sendEnd, settled_mk, settled_fold, settled_kettleSend]

theorem settled_divergent (s : State) (epoch : Nat) :
    settled (divergent s epoch) = settled s := by
  simp only [divergent, settled_report, settled_raise, settled_setFld]

theorem settled_compareDigests (s : State) :
    settled (compareDigests s) = settled s := by
  unfold compareDigests
  split <;> first
    | with_reducible rfl
    | simp only [settled_ite, settled_divergent, ite_self]

theorem settled_takeDigest (s : State) (sub : Nat) (ws : List Nat) :
    settled (takeDigest s sub ws) = settled s := by
  unfold takeDigest
  (repeat' split) <;> first
    | with_reducible rfl
    | simp only [settled_mk, settled_fold, settled_ite, settled_compareDigests, ite_self]

theorem settled_configDigest (s : State) :
    settled (configDigest s) = settled s := by
  simp only [configDigest, settled_ite, settled_compareDigests, settled_kettleSend, settled_mk, settled_fold, settled_wr, implies_true,
      settled_foldl, settled_sendDelta, ite_self]

theorem settled_copySlot (s : State) (slot entry : Nat) :
    settled (copySlot s slot entry) = settled s := by
  simp only [copySlot, settled_ite, settled_setTab, ite_self]

theorem settled_applyWrites (s : State) (ws : List Nat) :
    settled (applyWrites s ws) = settled s := by
  simp only [applyWrites, settled_copySlot, implies_true, settled_foldl]

theorem settled_applyPolicers (s : State) (ws : List Nat) :
    settled (applyPolicers s ws) = settled s := by
  simp only [applyPolicers, settled_setPolicer, implies_true, settled_foldl]

theorem settled_applyCounters (s : State) (ws : List Nat) :
    settled (applyCounters s ws) = settled s := by
  simp only [applyCounters, settled_ite, settled_loadCounter, ite_self, implies_true, settled_foldl]

theorem settled_applyRecord (s : State) (r : StagedRecord) :
    settled (applyRecord s r) = settled s := by
  unfold applyRecord
  (repeat' split) <;> first
    | with_reducible rfl
    | simp only [settled_applyWrites, settled_copySlot, settled_flushCopied, settled_applyPolicers, settled_applyCounters, settled_takeDigest,
        settled_ite, settled_foldl, implies_true, ite_self]

theorem settled_applyDelta (s : State) (d : StagedDelta) :
    settled (applyDelta s d) = settled s := by
  unfold applyDelta
  split <;> first
    | with_reducible rfl
    | simp only [settled_mk, settled_fold, settled_wr, settled_applyRecord, implies_true, settled_foldl]

theorem settled_applyStaged (y0 : Nat) (y1 : State) :
    settled (applyStaged y0 y1) = settled y1 := by
  fun_induction applyStaged y0 y1 <;> first
    | rfl
    | (simp only [*, settled_applyDelta, settled_mk, settled_fold]; done)
    | simp_all only [settled_mk, settled_fold, settled_ite, settled_snd_ite, settled_snd2_ite, settled_fst_ite, ite_self, settled_foldl,
          settled_foldl_snd, implies_true, settled_applyDelta]

theorem settled_startResync (s : State) :
    settled (startResync s) = settled s := by
  simp only [startResync, settled_kettleSend, settled_mk, settled_fold, settled_tally, settled_setFlag]

theorem settled_loseSync (s : State) :
    settled (loseSync s) = settled s := by
  simp only [loseSync, settled_ite, settled_startResync, settled_setFlag, ite_self]

theorem settled_discardDelta (s : State) (i : Nat) :
    settled (discardDelta s i) = settled s := by
  simp only [discardDelta, settled_loseSync, settled_tally, settled_mk, settled_fold]

theorem settled_dropMissing (s : State) :
    settled (dropMissing s) = settled s := by
  unfold dropMissing
  (repeat' split) <;> first
    | with_reducible rfl
    | simp only [settled_discardDelta, settled_mk, settled_fold]

theorem settled_stageRecord (s : State) (cp : Bool) (r : StagedRecord) :
    settled (stageRecord s cp r) = settled s := by
  unfold stageRecord
  dsimp only
  (repeat' split) <;> first
    | with_reducible rfl
    | simp only [settled_dropMissing, settled_startResync, settled_mk, settled_fold]

theorem settled_stageEnd (s : State) (cp : Bool) (k : Nat) (final : Bool) (n : Nat) :
    settled (stageEnd s cp k final n) = settled s := by
  unfold stageEnd
  dsimp only
  (repeat' split) <;> first
    | with_reducible rfl
    | simp only [settled_dropMissing, settled_discardDelta, settled_loseSync, settled_applyStaged, settled_mk, settled_fold]

theorem settled_bulkReceive (s : State) (sub : Nat) (ws : List Nat) :
    settled (bulkReceive s sub ws) = settled s := by
  unfold bulkReceive
  (repeat' split) <;> first
    | with_reducible rfl
    | simp only [settled_divergent, settled_mk, settled_fold, settled_startResync, settled_copySlot, implies_true, settled_foldl,
          settled_applyPolicers, settled_applyCounters]

theorem settled_syncDone (s : State) :
    settled (syncDone s) = settled s := by
  unfold syncDone
  split <;> first
    | with_reducible rfl
    | simp only [settled_raise, settled_setFlag, settled_mk, settled_fold, settled_applyStaged]

theorem kept_sendBulk (s : State) (k0 : Nat) :
    lastingOf (settled (sendBulk s k0)) = lastingOf (settled s) := by
  simp only [sendBulk, kept_ite, settled_kettleSend, implies_true, kept_foldl, kept_mk, kept_fold, ite_self]

/-! ### Interlock -/

theorem settled_setRole (s : State) (r : Nat) :
    settled (setRole s r) = settled s := by
  simp only [setRole, settled_ite, settled_raise, settled_setFld, ite_self]

theorem settled_showClaimIn (s : State) (samples : List Bool) :
    settled (showClaimIn s samples) = settled s := by
  unfold showClaimIn
  split <;> first
    | with_reducible rfl
    | simp only [settled_setFlag]

theorem settled_driveClaim (s : State) (on : Bool) :
    settled (driveClaim s on) = settled s := by
  simp only [driveClaim, settled_emit, settled_setFlag]

theorem settled_cutStomped (s : State) (p : Nat) (express : Bool) :
    settled (cutStomped s p express) = settled s := by
  unfold cutStomped
  split <;> first
    | with_reducible rfl
    | simp only [settled_truncateAs, settled_emit]

theorem settled_idleFronts (s : State) :
    settled (idleFronts s) = settled s := by
  simp only [idleFronts, settled_cutStomped, implies_true, settled_foldl]

theorem settled_stopEgress (s : State) :
    settled (stopEgress s) = settled s := by
  simp only [stopEgress, settled_idleFronts, settled_setFlag]

theorem settled_endHandover (s : State) :
    settled (endHandover s) = settled s := by
  simp only [endHandover, settled_setFlag, settled_mk, settled_fold]

theorem settled_handoverDone (s : State) :
    settled (handoverDone s) = settled s := by
  simp only [handoverDone, settled_raise, settled_ite, ite_self]

theorem settled_dropClaim (s : State) :
    settled (dropClaim s) = settled s := by
  simp only [dropClaim, settled_driveClaim, settled_handoverDone, settled_setRole, settled_endHandover, settled_startResync, settled_ite, settled_mk,
      settled_fold, ite_self]

theorem settled_startRelease (s : State) :
    settled (startRelease s) = settled s := by
  simp only [startRelease, settled_ite, settled_setFlag, settled_stopEgress, settled_mk, settled_fold, ite_self]

theorem settled_claimConflict (s : State) :
    settled (claimConflict s) = settled s := by
  simp only [claimConflict, settled_ite, settled_dropClaim, settled_stopEgress, settled_raise, settled_tally, settled_setFlag, settled_mk, settled_fold,
      ite_self]

theorem settled_becomeActive (s : State) :
    settled (becomeActive s) = settled s := by
  simp only [becomeActive, settled_setRole, settled_setFlag, settled_ite, settled_raise, settled_tally, settled_mk, settled_fold, settled_applyStaged,
      ite_self]

theorem settled_discardOpen (s : State) :
    settled (discardOpen s) = settled s := by
  simp only [discardOpen, settled_ite, settled_mk, settled_fold, settled_narrowAdd, ite_self]

theorem settled_confirmClaim (s : State) :
    settled (confirmClaim s) = settled s := by
  simp only [confirmClaim, settled_ite, settled_becomeActive, settled_applyStaged, settled_discardOpen, settled_setRole, settled_mk, settled_fold,
      settled_setFlag, ite_self]

theorem settled_execTwinArm (src : Source) (s : State) :
    KeepsSettled s (execTwinArm src s) := by
  unfold execTwinArm
  refine keepsSettled_done _ _ ?_
  simp only [settled_setFlag, implies_true, settled_guarded]

theorem settled_disarm (s : State) :
    settled (disarm s) = settled s := by
  simp only [disarm, settled_ite, settled_dropClaim, settled_setFlag, ite_self]

theorem settled_execTwinDisarm (src : Source) (s : State) :
    KeepsSettled s (execTwinDisarm src s) := by
  unfold execTwinDisarm
  refine keepsSettled_done _ _ ?_
  simp only [settled_disarm, implies_true, settled_guarded]

theorem settled_execClaimAssert (samples : List Bool) (s : State) :
    KeepsSettled s (execClaimAssert samples s) := by
  unfold execClaimAssert
  refine keepsSettled_sized _ _ _ ?_
  simp only [settled_ite, settled_setRole, settled_mk, settled_fold, settled_driveClaim, settled_showClaimIn, ite_self]

theorem settled_execClaimConfirm (samples : List Bool) (matePresent : Bool) (s : State) :
    KeepsSettled s (execClaimConfirm samples matePresent s) := by
  unfold execClaimConfirm
  refine keepsSettled_sized _ _ _ ?_
  simp only [settled_ite, settled_setFlag, settled_showClaimIn, settled_claimConflict, settled_confirmClaim, ite_self]

theorem settled_execClaimConflict (s : State) :
    KeepsSettled s (execClaimConflict s) := by
  unfold execClaimConflict
  refine keepsSettled_done _ _ ?_
  simp only [settled_claimConflict]

theorem settled_execEgressAllowed (samples : List Bool) (s : State) :
    KeepsSettled s (execEgressAllowed samples s) := by
  unfold execEgressAllowed
  refine keepsSettled_sized _ _ _ ?_
  simp only [settled_showClaimIn, settled_claimConflict, settled_confirmClaim, settled_fcFlushAll, settled_setFlag, settled_ite, ite_self]

theorem settled_execClaimRelease (s : State) :
    KeepsSettled s (execClaimRelease s) := by
  unfold execClaimRelease
  (repeat' split) <;> refine keepsSettled_done _ _ ?_ <;> first
    | with_reducible rfl
    | simp only [settled_dropClaim]

theorem settled_execTwinRelease (src : Source) (s : State) :
    KeepsSettled s (execTwinRelease src s) := by
  unfold execTwinRelease
  refine keepsSettled_done _ _ ?_
  simp only [settled_startRelease, implies_true, settled_guarded]

theorem settled_execTakeoverActive (s : State) :
    KeepsSettled s (execTakeoverActive s) := by
  unfold execTakeoverActive
  refine keepsSettled_done _ _ ?_
  simp only [settled_ite, settled_becomeActive, ite_self]

/-! ### Kettle -/

theorem settled_kettleEnter (s : State) (state : Nat) :
    settled (kettleEnter s state) = settled s := by
  simp only [kettleEnter, settled_mk, settled_fold, settled_setFld]

theorem kept_kettleLeave (s : State) (state cause : Nat) :
    lastingOf (settled (kettleLeave s state cause)) = lastingOf (settled s) := by
  simp only [kettleLeave, kept_ite, kept_mailboxKettleDown, settled_report, settled_raise, kept_mk, kept_fold, settled_kettleEnter,
      settled_setFld, ite_self]

theorem kept_kettleRestart (s : State) (cause : Nat) :
    lastingOf (settled (kettleRestart s cause)) = lastingOf (settled s) := by
  simp only [kettleRestart, kept_ite, settled_kettleEnter, kept_kettleLeave, ite_self]

theorem kept_kettleFail (s : State) (cause : Nat) :
    lastingOf (settled (kettleFail s cause)) = lastingOf (settled s) := by
  simp only [kettleFail, kept_kettleLeave]

theorem kept_kettleSwitch (s : State) (on : Bool) :
    lastingOf (settled (kettleSwitch s on)) = lastingOf (settled s) := by
  simp only [kettleSwitch, kept_ite, settled_kettleEnter, settled_setFlag, ite_self, kept_kettleLeave]

theorem settled_sendHello (s : State) (spdm : List Nat) :
    settled (sendHello s spdm) = settled s := by
  simp only [sendHello, settled_emit]

theorem kept_sendSpdm (s : State) :
    lastingOf (settled (sendSpdm s)) = lastingOf (settled s) := by
  simp only [sendSpdm, settled_drawn, settled_sendHello, kept_foldl, implies_true]

theorem kept_takeHello (s : State) (seatB : Bool) (versions : Nat) (spdm : List Nat) :
    lastingOf (settled (takeHello s seatB versions spdm)) = lastingOf (settled s) := by
  simp only [takeHello, kept_kettleFail, settled_setFld, kept_sendSpdm, kept_ite, kept_mk, kept_fold, ite_self]

theorem kept_kettleBound (s : State) :
    lastingOf (settled (kettleBound s)) = lastingOf (settled s) := by
  simp only [kettleBound, kept_kettleFail, kept_ite, ite_self]

theorem kept_kettleReachUp (s : State) (sameImages : Bool) :
    lastingOf (settled (kettleReachUp s sameImages)) = lastingOf (settled s) := by
  simp only [kettleReachUp, kept_ite, settled_startResync, kept_mailboxKettleUp, settled_raise, settled_kettleEnter, kept_mk, kept_fold,
      settled_divergent, ite_self]

theorem settled_sendAck (s : State) (nak : Bool) :
    settled (sendAck s nak) = settled s := by
  simp only [sendAck, settled_emit, settled_mk, settled_fold]

theorem settled_kettleAccept (s : State) (seq : Nat) (act : State → State) (h_act : ∀ x0, settled (act x0) = settled x0) :
    settled (kettleAccept s seq act) = settled s := by
  simp only [kettleAccept, settled_ite, h_act, settled_sendAck, settled_mk, settled_fold, ite_self]

theorem kept_kettleAccept (s : State) (seq : Nat) (act : State → State) (h_act : ∀ x0, lastingOf (settled (act x0)) = lastingOf (settled x0)) :
    lastingOf (settled (kettleAccept s seq act)) = lastingOf (settled s) := by
  simp only [kettleAccept, kept_ite, h_act, settled_sendAck, kept_mk, kept_fold, ite_self]

theorem kept_retransmit (s : State) :
    lastingOf (settled (retransmit s)) = lastingOf (settled s) := by
  simp only [retransmit, kept_ite, kept_kettleRestart, settled_count, kept_mk, kept_fold, ite_self]

theorem kept_acknowledge (s : State) (upTo : Nat) (nak : Bool) :
    lastingOf (settled (acknowledge s upTo nak)) = lastingOf (settled s) := by
  simp only [acknowledge, kept_ite, settled_kettleFill, kept_retransmit, settled_wr, ite_self, implies_true, kept_foldl, kept_mk,
      kept_fold]

theorem settled_takeHeartbeat (s : State) (ws : List Nat) (rx : Nat × Nat) :
    settled (takeHeartbeat s ws rx) = settled s := by
  simp only [takeHeartbeat, settled_mk, settled_fold, settled_setFld, settled_ite, settled_wr, ite_self]

theorem settled_takeDelta (s : State) (cp : Bool) (sub : Nat) (ws : List Nat) :
    settled (takeDelta s cp sub ws) = settled s := by
  simp only [takeDelta, settled_ite, settled_stageRecord, settled_takeDigest, ite_self]

theorem settled_takeBulk (s : State) (sub : Nat) (ws : List Nat) :
    settled (takeBulk s sub ws) = settled s := by
  simp only [takeBulk, settled_ite, settled_mk, settled_fold, settled_bulkReceive, ite_self]

theorem kept_takeMailHalf (s : State) (sub : Nat) (ws : List Nat) :
    lastingOf (settled (takeMailHalf s sub ws)) = lastingOf (settled s) := by
  simp only [takeMailHalf, kept_ite, kept_mk, kept_fold, kept_deliverMate, ite_self]

theorem kept_takeMail (s : State) (sub : Nat) (ws : List Nat) :
    lastingOf (settled (takeMail s sub ws)) = lastingOf (settled s) := by
  unfold takeMail
  split <;> first
    | with_reducible rfl
    | simp only [kept_takeMailHalf, kept_ite, kept_channelMark, kept_emptySlot, ite_self, settled_kettleSend, kept_discardMessage]

theorem settled_healthToHost (s : State) (mate : Bool) (body : List Nat) :
    settled (healthToHost s mate body) = settled s := by
  simp only [healthToHost, settled_ite, settled_eventWrite, settled_mk, settled_fold, ite_self]

theorem settled_takeHealth (s : State) (ws : List Nat) :
    settled (takeHealth s ws) = settled s := by
  simp only [takeHealth, settled_healthToHost, settled_mk, settled_fold]

theorem settled_handoverStart (s : State) :
    settled (handoverStart s) = settled s := by
  unfold handoverStart
  (repeat' split) <;> first
    | with_reducible rfl
    | simp only [settled_setFlag, settled_mk, settled_fold, settled_raise, settled_setFld]

theorem kept_handoverBoundary (s : State) :
    lastingOf (settled (handoverBoundary s)) = lastingOf (settled s) := by
  unfold handoverBoundary
  split <;> first
    | with_reducible rfl
    | simp only [kept_ite, settled_setRole, kept_mk, kept_fold, settled_endHandover, ite_self]

theorem settled_handoverDrainEnd (s : State) :
    settled (handoverDrainEnd s) = settled s := by
  unfold handoverDrainEnd
  split <;> first
    | with_reducible rfl
    | simp only [settled_ite, settled_mk, settled_fold, settled_sendEnd, settled_sendPolicers, settled_flushQueue, implies_true, settled_foldl,
          settled_flushSelected, ite_self]

theorem settled_handoverRelease (s : State) :
    settled (handoverRelease s) = settled s := by
  unfold handoverRelease
  (repeat' split) <;> first
    | with_reducible rfl
    | simp only [settled_setFld, settled_startRelease, settled_mk, settled_fold]

theorem settled_selftestFail (s : State) (k : Nat) :
    settled (selftestFail s k) = settled s := by
  simp only [selftestFail, settled_report, settled_raise, settled_tally, settled_setFlag]

theorem settled_selftestFrame (s : State) (i : Nat) (ok : Bool) :
    settled (selftestFrame s i ok) = settled s := by
  simp only [selftestFrame, settled_ite, settled_mk, settled_fold, settled_selftestFail, ite_self]

theorem settled_showEyes (s : State) (heights : List Nat) :
    settled (showEyes s heights) = settled s := by
  simp only [showEyes]
  (repeat' split) <;> first
    | with_reducible rfl
    | simp only [settled_setFld, settled_ite, ite_self, implies_true, settled_foldl, settled_mk, settled_fold]

theorem settled_scrubPass (s : State) (corrected : Nat) (uncorrectable : Bool) :
    settled (scrubPass s corrected uncorrectable) = settled s := by
  simp only [scrubPass, settled_report, settled_selftestFail, settled_ite, settled_mk, settled_fold, settled_foldl, implies_true, ite_self]

theorem kept_execKettleEnable (src : Source) (s : State) :
    KeepsRes s (execKettleEnable src s) := by
  unfold execKettleEnable
  refine keepsRes_done _ _ ?_
  simp only [kept_kettleSwitch, implies_true, kept_guarded]

theorem settled_execKettleTrained (s : State) :
    KeepsSettled s (execKettleTrained s) := by
  unfold execKettleTrained
  refine keepsSettled_done _ _ ?_
  simp only [settled_ite, settled_sendHello, settled_kettleEnter, ite_self]

theorem kept_execKettleTrainingTimeout (s : State) :
    KeepsRes s (execKettleTrainingTimeout s) := by
  unfold execKettleTrainingTimeout
  refine keepsRes_done _ _ ?_
  simp only [kept_ite, kept_kettleFail, ite_self]

theorem kept_execHello (seatB : Bool) (versions : Word32) (spdm : List Nat) (s : State) :
    KeepsRes s (execHello seatB versions spdm s) := by
  unfold execHello
  refine keepsRes_done _ _ ?_
  simp only [kept_takeHello]

theorem kept_execKettleUp (chainOk sameOwner sameImages : Bool) (s : State) :
    KeepsRes s (execKettleUp chainOk sameOwner sameImages s) := by
  unfold execKettleUp
  refine keepsRes_done _ _ ?_
  simp only [kept_ite, kept_kettleFail, kept_kettleReachUp, ite_self]

theorem kept_execKettleDown (s : State) :
    KeepsRes s (execKettleDown s) := by
  unfold execKettleDown
  refine keepsRes_done _ _ ?_
  simp only [kept_ite, kept_kettleRestart, ite_self]

theorem settled_execKettleFailedRetry (s : State) :
    KeepsSettled s (execKettleFailedRetry s) := by
  unfold execKettleFailedRetry
  refine keepsSettled_done _ _ ?_
  simp only [settled_ite, settled_kettleEnter, ite_self]

theorem settled_execHeartbeat (seq : Nat) (words : List Nat) (rxSec rxNs : Nat) (s : State) :
    KeepsSettled s (execHeartbeat seq words rxSec rxNs s) := by
  unfold execHeartbeat
  refine keepsSettled_sized _ _ _ ?_
  simp only [settled_takeHeartbeat, implies_true, settled_kettleAccept]

theorem settled_execMateResetPulseEnd (s : State) :
    KeepsSettled s (execMateResetPulseEnd s) := by
  unfold execMateResetPulseEnd
  (repeat' split) <;> refine keepsSettled_done _ _ ?_ <;> first
    | with_reducible rfl
    | simp only [settled_emit, settled_mk, settled_fold]

theorem settled_execMateResetDisarm (src : Source) (s : State) :
    KeepsSettled s (execMateResetDisarm src s) := by
  unfold execMateResetDisarm
  refine keepsSettled_done _ _ ?_
  simp only [settled_setFlag, implies_true, settled_guarded]

theorem settled_execDelta (seq : Nat) (cp : Bool) (sub : Nat) (words : List Nat) (s : State) :
    KeepsSettled s (execDelta seq cp sub words s) := by
  unfold execDelta
  refine keepsSettled_sized _ _ _ ?_
  simp only [settled_takeDelta, implies_true, settled_kettleAccept]

theorem settled_execEndRecord (seq : Nat) (cp : Bool) (words : List Nat) (s : State) :
    KeepsSettled s (execEndRecord seq cp words s) := by
  unfold execEndRecord
  refine keepsSettled_sized _ _ _ ?_
  simp only [settled_ite, settled_stageEnd, ite_self, implies_true, settled_kettleAccept]

theorem kept_execMailboxRecord (seq sub : Nat) (words : List Nat) (s : State) :
    KeepsRes s (execMailboxRecord seq sub words s) := by
  unfold execMailboxRecord
  refine keepsRes_sized _ _ _ ?_
  simp only [kept_takeMail, implies_true, kept_kettleAccept]

theorem settled_execHealth (seq : Nat) (words : List Nat) (s : State) :
    KeepsSettled s (execHealth seq words s) := by
  unfold execHealth
  refine keepsSettled_sized _ _ _ ?_
  simp only [settled_takeHealth, implies_true, settled_kettleAccept]

theorem kept_execAck (upTo : Nat) (nak : Bool) (s : State) :
    KeepsRes s (execAck upTo nak s) := by
  unfold execAck
  refine keepsRes_done _ _ ?_
  simp only [kept_acknowledge]

theorem kept_execKettleRetransmitTimer (s : State) :
    KeepsRes s (execKettleRetransmitTimer s) := by
  unfold execKettleRetransmitTimer
  (repeat' split) <;> refine keepsRes_done _ _ ?_ <;> first
    | with_reducible rfl
    | simp only [kept_retransmit]

theorem settled_execKettleRecordBad (s : State) :
    KeepsSettled s (execKettleRecordBad s) := by
  unfold execKettleRecordBad
  refine keepsSettled_done _ _ ?_
  simp only [settled_ite, settled_report, settled_count, ite_self]

theorem settled_execConfigDigest (s : State) :
    KeepsSettled s (execConfigDigest s) := by
  unfold execConfigDigest
  refine keepsSettled_done _ _ ?_
  simp only [settled_configDigest]

theorem settled_execHandover (src : Source) (s : State) :
    KeepsSettled s (execHandover src s) := by
  unfold execHandover
  refine keepsSettled_done _ _ ?_
  simp only [settled_handoverStart, implies_true, settled_guarded]

theorem settled_execHandoverDrainEnd (s : State) :
    KeepsSettled s (execHandoverDrainEnd s) := by
  unfold execHandoverDrainEnd
  refine keepsSettled_done _ _ ?_
  simp only [settled_handoverDrainEnd]

theorem settled_execHandoverRelease (s : State) :
    KeepsSettled s (execHandoverRelease s) := by
  unfold execHandoverRelease
  refine keepsSettled_done _ _ ?_
  simp only [settled_handoverRelease]

theorem settled_requestResync (s : State) :
    settled (requestResync s) = settled s := by
  simp only [requestResync, settled_ite, settled_loseSync, ite_self]

theorem settled_execResync (src : Source) (s : State) :
    KeepsSettled s (execResync src s) := by
  unfold execResync
  refine keepsSettled_done _ _ ?_
  simp only [settled_requestResync, implies_true, settled_guarded]

theorem settled_execBulk (seq sub : Nat) (words : List Nat) (s : State) :
    KeepsSettled s (execBulk seq sub words s) := by
  unfold execBulk
  refine keepsSettled_sized _ _ _ ?_
  simp only [settled_takeBulk, implies_true, settled_kettleAccept]

theorem settled_execSyncDone (s : State) :
    KeepsSettled s (execSyncDone s) := by
  unfold execSyncDone
  refine keepsSettled_done _ _ ?_
  simp only [settled_syncDone]

theorem settled_execSelftestFrame (slice : Fin 8) (contentOk sequenceOk : Bool) (latency : Nat) (s : State) :
    KeepsSettled s (execSelftestFrame slice contentOk sequenceOk latency s) := by
  unfold execSelftestFrame
  refine keepsSettled_done _ _ ?_
  simp only [settled_selftestFrame, settled_wakeSlice, settled_ite, settled_mk, settled_fold, ite_self]

theorem settled_spillTest (s : State) (c : Nat) :
    settled (spillTest s c) = settled s := by
  unfold spillTest
  (repeat' split) <;> first
    | with_reducible rfl
    | simp only [settled_emit, settled_mk, settled_fold]

theorem settled_execSelftestSpill (port : Fin 4) (same : Bool) (s : State) :
    KeepsSettled s (execSelftestSpill port same s) := by
  unfold execSelftestSpill
  refine keepsSettled_done _ _ ?_
  simp only [settled_spillTest, settled_selftestFail, settled_ite, ite_self]

theorem settled_execSelftestEye (heights : List Nat) (s : State) :
    KeepsSettled s (execSelftestEye heights s) := by
  unfold execSelftestEye
  refine keepsSettled_sized _ _ _ ?_
  simp only [settled_ite, settled_selftestFail, settled_showEyes, ite_self]

theorem settled_execSelftestScrub (corrected : Nat) (uncorrectable : Bool) (s : State) :
    KeepsSettled s (execSelftestScrub corrected uncorrectable s) := by
  unfold execSelftestScrub
  refine keepsSettled_done _ _ ?_
  simp only [settled_ite, settled_scrubPass, ite_self]

/-! ### Wipe -/

theorem kept_fatalAction (s : State) (hold : Bool) (cause : Nat) :
    lastingOf (settled (fatalAction s hold cause)) = lastingOf (settled s) := by
  simp only [fatalAction, kept_ite, kept_mk, kept_fold, ite_self]

theorem kept_deviceFatal (s : State) (code faultBit : Nat) (p : Page) (detail : List Nat) :
    lastingOf (settled (deviceFatal s code faultBit p detail)) = lastingOf (settled s) := by
  simp only [deviceFatal, kept_fatalAction, settled_startRelease, settled_setFault, settled_report]

theorem settled_bootFails (s : State) :
    settled (bootFails s) = settled s := by
  simp only [bootFails, settled_ite, settled_mk, settled_fold, settled_setFault, settled_setFld, settled_report, settled_tally, ite_self]

theorem kept_watchdogRestart (s : State) :
    lastingOf (settled (watchdogRestart s)) = lastingOf (settled s) := by
  simp only [watchdogRestart, kept_ite, kept_mk, kept_fold, ite_self]

theorem kept_watchdogConfigured (s : State) (old : Nat) :
    lastingOf (settled (watchdogConfigured s old)) = lastingOf (settled s) := by
  simp only [watchdogConfigured, kept_ite, kept_watchdogRestart, kept_mk, kept_fold, ite_self]

theorem kept_watchdogKick (s : State) (v : Nat) :
    lastingOf (settled (watchdogKick s v)) = lastingOf (settled s) := by
  simp only [watchdogKick, kept_ite, kept_watchdogRestart, ite_self]

theorem kept_watchdogExpires (s : State) :
    lastingOf (settled (watchdogExpires s)) = lastingOf (settled s) := by
  simp only [watchdogExpires, kept_fatalAction, kept_ite, settled_bootFails, kept_receiversDown, settled_startRelease, settled_setFault,
      settled_report, settled_raise, settled_setFlag, kept_mk, kept_fold, ite_self]

theorem kept_coreWiped (s : State) (keep : Nat → Bool) :
    lastingOf (settled (coreWiped s keep)) = lastingOf (settled s) := by
  simp only [coreWiped, keptColophon, kept_mk, kept_fold]

theorem kept_resetPins (s : State) :
    lastingOf (settled (resetPins s)) = lastingOf (settled s) := by
  simp only [resetPins, kept_ite, settled_emit, ite_self, implies_true, kept_foldl, settled_setPerst]

theorem kept_leaveService (s : State) (keep : Nat → Bool) :
    lastingOf (settled (leaveService s keep)) = lastingOf (settled s) := by
  simp only [leaveService, kept_receiversDown, kept_coreWiped, kept_resetPins, kept_ite, settled_startRelease, kept_kettleLeave,
      ite_self]

theorem kept_wipeDevice (s : State) :
    lastingOf (settled (wipeDevice s)) = lastingOf (settled s) := by
  simp only [wipeDevice, kept_mk, kept_fold, kept_leaveService]

theorem kept_leaveStandby (s : State) (cause : Nat) :
    lastingOf (settled (leaveStandby s cause)) = lastingOf (settled s) := by
  simp only [leaveStandby, kept_ite, settled_emit, kept_mk, kept_fold, settled_tally, settled_wr, ite_self]

/-! ### Power -/

theorem kept_setPower (s : State) (p : Power) :
    lastingOf (settled (setPower s p)) = lastingOf (settled s) := by
  simp only [setPower, kept_mk, kept_fold]

theorem kept_writeVoltage (s : State) (code : Nat) :
    lastingOf (settled (writeVoltage s code)) = lastingOf (settled s) := by
  simp only [writeVoltage, settled_emit, settled_setFld]

theorem kept_setClock (s : State) (code : Nat) :
    lastingOf (settled (setClock s code)) = lastingOf (settled s) := by
  simp only [setClock, settled_setFld, settled_drawn, kept_setPower, kept_ite, ite_self]

theorem kept_lowerClock (s : State) (code : Nat) :
    lastingOf (settled (lowerClock s code)) = lastingOf (settled s) := by
  simp only [lowerClock, kept_writeVoltage, kept_setClock, kept_setPower]

theorem kept_raiseVoltage (s : State) :
    lastingOf (settled (raiseVoltage s)) = lastingOf (settled s) := by
  simp only [raiseVoltage, kept_ite, kept_setPower, kept_writeVoltage, ite_self]

theorem kept_clockBoundary (s : State) :
    lastingOf (settled (clockBoundary s)) = lastingOf (settled s) := by
  simp only [clockBoundary, kept_lowerClock, kept_raiseVoltage, kept_setClock, kept_ite, ite_self]

theorem kept_emergencyCap (s : State) :
    lastingOf (settled (emergencyCap s)) = lastingOf (settled s) := by
  simp only [emergencyCap, kept_ite, kept_setPower, kept_lowerClock, settled_report, settled_tally, settled_raise, settled_setFlag,
      ite_self]

theorem kept_emergencyLift (s : State) (est : Nat) :
    lastingOf (settled (emergencyLift s est)) = lastingOf (settled s) := by
  simp only [emergencyLift, kept_ite, kept_setPower, settled_setFlag, ite_self]

theorem kept_showSteps (s : State) :
    lastingOf (settled (showSteps s)) = lastingOf (settled s) := by
  simp only [showSteps, settled_setFld]

theorem kept_shed (s : State) (p : Nat) :
    lastingOf (settled (shed s p)) = lastingOf (settled s) := by
  simp only [shed, settled_raise, settled_takeDown, settled_setFlag]

theorem kept_unshed (s : State) (p : Nat) :
    lastingOf (settled (unshed s p)) = lastingOf (settled s) := by
  simp only [unshed, kept_ite, settled_enablePort, settled_raise, settled_setFlag, ite_self]

theorem kept_takeStep (s : State) :
    lastingOf (settled (takeStep s)) = lastingOf (settled s) := by
  unfold takeStep
  split <;> first
    | with_reducible rfl
    | simp only [kept_ite, kept_shed, settled_tally, settled_raise, kept_showSteps, kept_setPower, ite_self]

theorem kept_undoStep (s : State) :
    lastingOf (settled (undoStep s)) = lastingOf (settled s) := by
  unfold undoStep
  split <;> first
    | with_reducible rfl
    | simp only [kept_raiseVoltage, kept_ite, kept_unshed, settled_tally, settled_raise, kept_showSteps, kept_setPower, ite_self]

theorem kept_undoAll (s : State) :
    lastingOf (settled (undoAll s)) = lastingOf (settled s) := by
  simp only [undoAll, kept_undoStep, implies_true, kept_foldl]

theorem kept_governor (s : State) (est : Nat) :
    lastingOf (settled (governor s est)) = lastingOf (settled s) := by
  simp only [governor, kept_ite, kept_undoAll, kept_setPower, ite_self, kept_takeStep]

theorem kept_govOff (s : State) :
    lastingOf (settled (govOff s)) = lastingOf (settled s) := by
  simp only [govOff, kept_setPower]

theorem kept_govCommit (s : State) :
    lastingOf (settled (govCommit s)) = lastingOf (settled s) := by
  simp only [govCommit, kept_raiseVoltage, kept_showSteps, kept_setPower]

theorem settled_sleepEntry (s : State) (sl : Nat) :
    settled (sleepEntry s sl) = settled s := by
  simp only [sleepEntry, settled_ite, settled_showSleep, settled_setSlice, ite_self]

theorem settled_deepSleep (s : State) (sl : Nat) :
    settled (deepSleep s sl) = settled s := by
  simp only [deepSleep, settled_ite, settled_showSleep, settled_setSlice, ite_self]

theorem settled_sliceRuns (s : State) (sl : Nat) :
    settled (sliceRuns s sl) = settled s := by
  simp only [sliceRuns]
  (repeat' split) <;> first
    | with_reducible rfl
    | simp only [settled_drainFifo, settled_showSleep, settled_setSlice, settled_count]

theorem kept_enterStandby (s : State) :
    lastingOf (settled (enterStandby s)) = lastingOf (settled s) := by
  simp only [enterStandby, settled_emit, kept_mk, kept_fold, kept_leaveService]

theorem kept_requestStandby (s : State) :
    lastingOf (settled (requestStandby s)) = lastingOf (settled s) := by
  simp only [requestStandby, kept_ite, kept_enterStandby, ite_self]

theorem kept_showTemps (s : State) (ts : List Byte) :
    lastingOf (settled (showTemps s ts)) = lastingOf (settled s) := by
  simp only [showTemps, settled_setFld, settled_wr, implies_true, kept_foldl]

theorem kept_followWarn (s : State) (ts : List Byte) :
    lastingOf (settled (followWarn s ts)) = lastingOf (settled s) := by
  simp only [followWarn, kept_ite, settled_report, settled_raise, settled_setFlag, ite_self]

theorem kept_thermalTrip (s : State) (ts : List Byte) :
    lastingOf (settled (thermalTrip s ts)) = lastingOf (settled s) := by
  simp only [thermalTrip, kept_setPower, kept_enterStandby, settled_setFault, settled_report, settled_raise, settled_setFlag]

theorem kept_thermalSample (s : State) (ts : List Byte) :
    lastingOf (settled (thermalSample s ts)) = lastingOf (settled s) := by
  simp only [thermalSample, kept_ite, kept_thermalTrip, kept_setPower, kept_followWarn, kept_showTemps, ite_self]

theorem settled_quiet (s : State) (on : Bool) :
    settled (quiet s on) = settled s := by
  simp only [quiet, settled_setFlag, settled_idleFronts, settled_fcFlushAll, settled_ite, ite_self]

theorem kept_execWdKick (src : Source) (value : Word32) (s : State) :
    KeepsRes s (execWdKick src value s) := by
  unfold execWdKick
  refine keepsRes_done _ _ ?_
  simp only [kept_watchdogKick, implies_true, kept_guarded]

theorem kept_execWdConfigWrite (src : Source) (value : Word32) (s : State) :
    KeepsRes s (execWdConfigWrite src value s) := by
  unfold execWdConfigWrite
  refine keepsRes_done _ _ ?_
  simp only [kept_watchdogConfigured, kept_fieldWrite, implies_true, kept_guarded]

theorem kept_execWatchdogExpired (s : State) :
    KeepsRes s (execWatchdogExpired s) := by
  unfold execWatchdogExpired
  (repeat' split) <;> refine keepsRes_done _ _ ?_ <;> first
    | with_reducible rfl
    | simp only [kept_watchdogExpires]

theorem settled_execSliceSleepEntry (slice : Fin 8) (s : State) :
    KeepsSettled s (execSliceSleepEntry slice s) := by
  unfold execSliceSleepEntry
  refine keepsSettled_done _ _ ?_
  simp only [settled_sleepEntry]

theorem settled_execSliceDeepSleep (slice : Fin 8) (s : State) :
    KeepsSettled s (execSliceDeepSleep slice s) := by
  unfold execSliceDeepSleep
  refine keepsSettled_done _ _ ?_
  simp only [settled_deepSleep]

theorem settled_execSliceWakeTrigger (slice : Fin 8) (s : State) :
    KeepsSettled s (execSliceWakeTrigger slice s) := by
  unfold execSliceWakeTrigger
  refine keepsSettled_done _ _ ?_
  simp only [settled_wakeSlice]

theorem settled_execSliceAwake (slice : Fin 8) (s : State) :
    KeepsSettled s (execSliceAwake slice s) := by
  unfold execSliceAwake
  refine keepsSettled_done _ _ ?_
  simp only [settled_sliceRuns]

theorem kept_execGovRelax (s : State) :
    KeepsRes s (execGovRelax s) := by
  unfold execGovRelax
  refine keepsRes_done _ _ ?_
  simp only [kept_ite, kept_undoStep, kept_setPower, ite_self]

theorem kept_execFastEstimate (tenths : Nat) (s : State) :
    KeepsRes s (execFastEstimate tenths s) := by
  unfold execFastEstimate
  refine keepsRes_done _ _ ?_
  simp only [kept_ite, kept_emergencyCap, settled_setFld, ite_self]

theorem kept_execPmbusAlert (asserted : Bool) (s : State) :
    KeepsRes s (execPmbusAlert asserted s) := by
  unfold execPmbusAlert
  refine keepsRes_done _ _ ?_
  simp only [kept_ite, kept_emergencyCap, kept_setPower, ite_self]

theorem kept_execVoltageConfirmed (s : State) :
    KeepsRes s (execVoltageConfirmed s) := by
  unfold execVoltageConfirmed
  refine keepsRes_done _ _ ?_
  simp only [kept_ite, kept_setPower, ite_self]

theorem kept_execPmbusError (s : State) :
    KeepsRes s (execPmbusError s) := by
  unfold execPmbusError
  (repeat' split) <;> refine keepsRes_done _ _ ?_ <;> first
    | with_reducible rfl
    | simp only [settled_report, settled_raise, kept_setPower]

theorem kept_execAgingMonitorRead (steps : Nat) (s : State) :
    KeepsRes s (execAgingMonitorRead steps s) := by
  unfold execAgingMonitorRead
  (repeat' split) <;> refine keepsRes_done _ _ ?_ <;> first
    | with_reducible rfl
    | simp only [kept_setPower, kept_writeVoltage, kept_ite, ite_self]

theorem kept_execStandby (src : Source) (s : State) :
    KeepsRes s (execStandby src s) := by
  unfold execStandby
  refine keepsRes_done _ _ ?_
  simp only [kept_requestStandby, implies_true, kept_guarded]

theorem kept_execWake (src : Source) (s : State) :
    KeepsRes s (execWake src s) := by
  unfold execWake
  refine keepsRes_done _ _ ?_
  simp only [kept_leaveStandby, implies_true, kept_guarded]

theorem kept_execThermalSample (temps : List (BitVec 8)) (s : State) :
    KeepsRes s (execThermalSample temps s) := by
  unfold execThermalSample
  refine keepsRes_sized _ _ _ ?_
  simp only [kept_thermalSample, kept_ite, ite_self]

theorem kept_execThermalAutoRestart (s : State) :
    KeepsRes s (execThermalAutoRestart s) := by
  unfold execThermalAutoRestart
  refine keepsRes_done _ _ ?_
  simp only [kept_ite, kept_leaveStandby, ite_self]

theorem settled_execQuiet (src : Source) (on : Bool) (s : State) :
    KeepsSettled s (execQuiet src on s) := by
  unfold execQuiet
  refine keepsSettled_done _ _ ?_
  simp only [settled_quiet, implies_true, settled_guarded]

theorem kept_execEstimateCalibration (vin iin : Nat) (s : State) :
    KeepsRes s (execEstimateCalibration vin iin s) := by
  unfold execEstimateCalibration
  refine keepsRes_done _ _ ?_
  simp only [kept_ite, kept_setPower, ite_self]

/-! ### Cycle -/

theorem settled_parityMismatch (s : State) (a : Nat) :
    settled (parityMismatch s a) = settled s := by
  unfold parityMismatch
  split <;> first
    | with_reducible rfl
    | simp only [settled_ite, settled_setFlag, settled_report, settled_raise, settled_wr, ite_self]

theorem kept_powerBoundary (s : State) (raw : Nat) :
    lastingOf (settled (powerBoundary s raw)) = lastingOf (settled s) := by
  simp only [powerBoundary, kept_governor, kept_clockBoundary, kept_ite, settled_setFlag, kept_emergencyLift, settled_setFld,
      kept_setPower, ite_self]

theorem kept_deltaBoundary (s : State) :
    lastingOf (settled (deltaBoundary s)) = lastingOf (settled s) := by
  simp only [deltaBoundary, kept_ite, kept_mk, kept_fold, settled_sendEnd, kept_sendCounters, settled_sendPolicers, ite_self]

theorem kept_healthBoundary (s : State) :
    lastingOf (settled (healthBoundary s)) = lastingOf (settled s) := by
  simp only [healthBoundary, kept_mk, kept_fold, settled_healthToHost, settled_kettleSend]

theorem kept_mateUnreachable (s : State) :
    lastingOf (settled (mateUnreachable s)) = lastingOf (settled s) := by
  simp only [mateUnreachable, kept_ite, settled_raise, settled_setFlag, settled_emit, kept_mk, kept_fold, settled_report, ite_self]

theorem kept_missedBoundary (s : State) :
    lastingOf (settled (missedBoundary s)) = lastingOf (settled s) := by
  simp only [missedBoundary, kept_ite, kept_mk, kept_fold, kept_mateUnreachable, settled_tally, settled_setFld, ite_self]

theorem kept_sendHeartbeat (s : State) :
    lastingOf (settled (sendHeartbeat s)) = lastingOf (settled s) := by
  simp only [sendHeartbeat, kept_ite, kept_mk, kept_fold, settled_kettleSend, ite_self]

theorem kept_epochBoundary (s : State) :
    lastingOf (settled (epochBoundary s)) = lastingOf (settled s) := by
  simp only [epochBoundary, kept_ite, kept_mk, kept_fold, settled_divergent, ite_self]

theorem kept_tevBoundary (t : Nat) (s : State) (n : Nat) :
    lastingOf (settled (tevBoundary t s n)) = lastingOf (settled s) := by
  simp only [tevBoundary, kept_ite, kept_setTev, ite_self]

theorem kept_beginCycle (s : State) :
    lastingOf (settled (beginCycle s)) = lastingOf (settled s) := by
  simp only [beginCycle, kept_tevBoundary, implies_true, kept_foldl, kept_mk, kept_fold]

theorem kept_boundary (s : State) (raw : Nat) (parityBad : List Nat) :
    lastingOf (settled (boundary s raw parityBad)) = lastingOf (settled s) := by
  simp only [boundary, kept_alarmsBoundary, kept_dumpBoundary, kept_epochBoundary, kept_ite, settled_becomeActive,
      kept_handoverBoundary, kept_sendBulk, kept_sendHeartbeat, settled_parityMismatch, implies_true, kept_foldl, kept_beginCycle,
      kept_healthBoundary, kept_missedBoundary, kept_deltaBoundary, kept_powerBoundary, ite_self]

theorem kept_execCycleBoundary (estimate : Nat) (parityBad : List Nat) (s : State) :
    KeepsRes s (execCycleBoundary estimate parityBad s) := by
  unfold execCycleBoundary
  refine keepsRes_done _ _ ?_
  simp only [kept_ite, kept_boundary, kept_beginCycle, ite_self]

end Sys2Proof.Machine
end

