-- ==== Sys2Proof/Laws/LastingHost.lean ====
section
/-! SUPPORT. What each function of the host, the firmware and the boot leaves alone: all that is settled (settled_…), or at least what lasts (kept_…). -/

set_option linter.unusedSimpArgs false

namespace Sys2Proof.Machine

/-! ### LowSpeed -/

theorem settled_qspiStart (s : State) (op addr : Nat) :
    settled (qspiStart s op addr) = settled s := by
  simp only [qspiStart, settled_ite, settled_raise, settled_setFld, settled_emit, settled_mk, settled_fold, settled_setFlag, ite_self]

theorem settled_qspiRequest (s : State) (op addr : Nat) :
    settled (qspiRequest s op addr) = settled s := by
  simp only [qspiRequest, settled_ite, settled_qspiStart, settled_setFld, ite_self]

theorem settled_qspiDone (s : State) (ok : Bool) (data : List Byte) :
    settled (qspiDone s ok data) = settled s := by
  unfold qspiDone
  split <;> first
    | with_reducible rfl
    | simp only [settled_raise, settled_ite, settled_wr, implies_true, settled_foldl, settled_setFld, settled_setFlag, settled_mk, settled_fold,
        ite_self]

theorem kept_driveGpio (s : State) :
    lastingOf (settled (driveGpio s)) = lastingOf (settled s) := by
  simp only [driveGpio, kept_ite, settled_emit, ite_self, implies_true, kept_foldl]

theorem settled_gpioLevel (s : State) (k : Nat) (level : Bool) :
    settled (gpioLevel s k level) = settled s := by
  simp only [gpioLevel, settled_ite, settled_raise, settled_setFlag, ite_self]

theorem settled_execQspiRead (src : Source) (addr : Nat) (s : State) :
    KeepsSettled s (execQspiRead src addr s) := by
  unfold execQspiRead
  refine keepsSettled_done _ _ ?_
  simp only [settled_qspiRequest, implies_true, settled_guarded]

theorem settled_execQspiProgram (src : Source) (addr : Nat) (s : State) :
    KeepsSettled s (execQspiProgram src addr s) := by
  unfold execQspiProgram
  refine keepsSettled_done _ _ ?_
  simp only [settled_qspiRequest, implies_true, settled_guarded]

theorem settled_execQspiErase (src : Source) (addr : Nat) (s : State) :
    KeepsSettled s (execQspiErase src addr s) := by
  unfold execQspiErase
  refine keepsSettled_done _ _ ?_
  simp only [settled_qspiRequest, implies_true, settled_guarded]

theorem settled_execQspiDone (ok : Bool) (data : List Byte) (s : State) :
    KeepsSettled s (execQspiDone ok data s) := by
  unfold execQspiDone
  refine keepsSettled_sized _ _ _ ?_
  simp only [settled_qspiDone]

theorem settled_execGpioEvent (pin : Fin 16) (level : Bool) (s : State) :
    KeepsSettled s (execGpioEvent pin level s) := by
  unfold execGpioEvent
  refine keepsSettled_done _ _ ?_
  simp only [settled_gpioLevel]

/-! ### SeqBase -/

theorem kept_ramWrite (s : State) (a n v : Nat) :
    lastingOf (settled (ramWrite s a n v)) = lastingOf (settled s) := by
  simp only [ramWrite, kept_mk, kept_fold]

theorem kept_dramNext (s : State) :
    lastingOf (settled (dramNext s)) = lastingOf (settled s) := by
  simp only [dramNext, settled_setFld]

theorem kept_dramRead (s : State) (src : Source) :
    lastingOf (settled ((dramRead s src).2)) = lastingOf (settled s) := by
  simp only [dramRead, kept_snd_ite, kept_dramNext, settled_accessFault, ite_self]

theorem kept_dramWrite (s : State) (src : Source) (v : Nat) :
    lastingOf (settled (dramWrite s src v)) = lastingOf (settled s) := by
  simp only [dramWrite, kept_ite, kept_dramNext, kept_ramWrite, settled_accessFault, ite_self]

theorem kept_setG (s : State) (k : Nat) (v : BitVec 64) :
    lastingOf (settled (setG s k v)) = lastingOf (settled s) := by
  simp only [setG, kept_ite, kept_mk, kept_fold, ite_self]

theorem kept_setMacroFlags (s : State) (f : Nat) :
    lastingOf (settled (setMacroFlags s f)) = lastingOf (settled s) := by
  simp only [setMacroFlags, kept_mk, kept_fold]

theorem kept_endTask (s : State) (state cause : Nat) :
    lastingOf (settled (endTask s state cause)) = lastingOf (settled s) := by
  simp only [endTask, settled_raise, settled_setFld, kept_mk, kept_fold, settled_wr]

theorem kept_taskGo (s : State) (entry : Nat) :
    lastingOf (settled (taskGo s entry)) = lastingOf (settled s) := by
  simp only [taskGo, kept_ite, settled_raise, settled_setFld, settled_wr, kept_mk, kept_fold, ite_self]

theorem kept_taskAbort (s : State) :
    lastingOf (settled (taskAbort s)) = lastingOf (settled s) := by
  simp only [taskAbort, kept_ite, kept_endTask, kept_mk, kept_fold, ite_self]

theorem kept_deliverFault (s : State) (cause : Nat) :
    lastingOf (settled (deliverFault s cause)) = lastingOf (settled s) := by
  simp only [deliverFault, kept_ite, kept_endTask, kept_mk, kept_fold, settled_tally, settled_wr, settled_report, settled_raise, ite_self]

theorem kept_execTaskGo (src : Source) (entry : BitVec 20) (s : State) :
    KeepsRes s (execTaskGo src entry s) := by
  unfold execTaskGo
  refine keepsRes_done _ _ ?_
  simp only [kept_taskGo, implies_true, kept_guarded]

theorem kept_execTaskAbort (src : Source) (s : State) :
    KeepsRes s (execTaskAbort src s) := by
  unfold execTaskAbort
  refine keepsRes_done _ _ ?_
  simp only [kept_taskAbort, implies_true, kept_guarded]

theorem kept_execSeqDramAccess (src : Source) (store : Option Word32) (s : State) :
    KeepsRes s (execSeqDramAccess src store s) := by
  unfold execSeqDramAccess
  simp only
  (repeat' split) <;> refine keepsRes_done _ _ ?_ <;> first
    | with_reducible rfl
    | simp only [kept_dramWrite, implies_true, kept_guarded, settled_emit, kept_dropWindow, settled_accessFault, kept_dramRead]

/-! ### Epoch -/

theorem kept_stagePreset (s : State) (k : Nat) :
    lastingOf (settled (stagePreset s k)) = lastingOf (settled s) := by
  simp only [stagePreset, settled_wr]

theorem kept_showProfile (s : State) (c : Commit) :
    lastingOf (settled (showProfile s c)) = lastingOf (settled s) := by
  simp only [showProfile, settled_wr]

theorem kept_clearStaged (s : State) :
    lastingOf (settled (clearStaged s)) = lastingOf (settled s) := by
  simp only [clearStaged, settled_setFlag, implies_true, kept_foldl]

theorem kept_applyPending (s : State) :
    lastingOf (settled (applyPending s)) = lastingOf (settled s) := by
  simp only [applyPending, kept_clearStaged, kept_mk, kept_fold]

theorem kept_slicesSwitched (s : State) :
    lastingOf (settled (slicesSwitched s)) = lastingOf (settled s) := by
  unfold slicesSwitched
  split <;> first
    | with_reducible rfl
    | simp only [kept_ite, kept_showProfile, ite_self]

theorem kept_wakeIfOff (s : State) :
    lastingOf (settled (wakeIfOff s)) = lastingOf (settled s) := by
  simp only [wakeIfOff, kept_ite, settled_wakeSlice, ite_self, implies_true, kept_foldl]

theorem kept_acceptCommit (s : State) (preset : Nat) :
    lastingOf (settled (acceptCommit s preset)) = lastingOf (settled s) := by
  simp only [acceptCommit, settled_setFld, kept_applyPending, kept_schedCommit, kept_govCommit, kept_govOff, settled_drainCheck,
      kept_wakeIfOff, kept_slicesSwitched, kept_ite, kept_mk, kept_fold, ite_self]

theorem kept_sysCommit (s : State) (src : Source) (epoch : Nat) :
    lastingOf (settled (sysCommit s src epoch)) = lastingOf (settled s) := by
  simp only [sysCommit, kept_ite, settled_accessFault, kept_acceptCommit, settled_setFld, ite_self]

theorem kept_commitKnobs (s : State) (preset : Nat) (stage : State → State) (h_stage : ∀ x0, lastingOf (settled (stage x0)) = lastingOf (settled x0)) {z
    : Nat × State} (hz : commitKnobs s preset stage = some z) :
    lastingOf (settled z.2) = lastingOf (settled s) := by
  unfold commitKnobs at hz
  split at hz
  · cases hz
  · simp only [Option.some.injEq] at hz
    rw [← hz]
    simp only [kept_acceptCommit, settled_setFld, h_stage]

theorem kept_switchSlice (s : State) (i : Nat) :
    lastingOf (settled (switchSlice s i)) = lastingOf (settled s) := by
  unfold switchSlice
  split <;> first
    | with_reducible rfl
    | simp only [kept_ite, kept_slicesSwitched, kept_mk, kept_fold, ite_self]

theorem kept_commitEnd (s : State) :
    lastingOf (settled (commitEnd s)) = lastingOf (settled s) := by
  unfold commitEnd
  split <;> first
    | with_reducible rfl
    | simp only [kept_ite, settled_raise, kept_mk, kept_fold, ite_self]

theorem kept_fenceStart (s : State) (src : Source) (full : Bool) :
    lastingOf (settled (fenceStart s src full)) = lastingOf (settled s) := by
  simp only [fenceStart, kept_ite, settled_accessFault, kept_mk, kept_fold, settled_wr, ite_self]

theorem kept_fenceEnd (s : State) :
    lastingOf (settled (fenceEnd s)) = lastingOf (settled s) := by
  unfold fenceEnd
  split <;> first
    | with_reducible rfl
    | simp only [kept_ite, settled_raise, settled_wr, settled_setFlag, kept_mk, kept_fold, ite_self]

theorem kept_execSysCommitGo (src : Source) (epoch : BitVec 16) (s : State) :
    KeepsRes s (execSysCommitGo src epoch s) := by
  unfold execSysCommitGo
  refine keepsRes_done _ _ ?_
  simp only [kept_sysCommit, implies_true, kept_guarded]

theorem kept_execSliceEpochSwitch (slice : Fin 8) (s : State) :
    KeepsRes s (execSliceEpochSwitch slice s) := by
  unfold execSliceEpochSwitch
  refine keepsRes_done _ _ ?_
  simp only [kept_switchSlice]

theorem kept_execCommitDone (s : State) :
    KeepsRes s (execCommitDone s) := by
  unfold execCommitDone
  refine keepsRes_done _ _ ?_
  simp only [kept_commitEnd]

theorem kept_execFenceGo (src : Source) (full : Bool) (s : State) :
    KeepsRes s (execFenceGo src full s) := by
  unfold execFenceGo
  refine keepsRes_done _ _ ?_
  simp only [kept_fenceStart, implies_true, kept_guarded]

theorem kept_execFenceDone (s : State) :
    KeepsRes s (execFenceDone s) := by
  unfold execFenceDone
  refine keepsRes_done _ _ ?_
  simp only [kept_fenceEnd]

/-! ### Colophon -/

theorem kept_drawNonce (s : State) :
    lastingOf (settled (drawNonce s)) = lastingOf (settled s) := by
  simp only [drawNonce, settled_wr, implies_true, kept_foldl, settled_drawn]

theorem kept_discardAll (s : State) :
    lastingOf (settled (discardAll s)) = lastingOf (settled s) := by
  simp only [discardAll, settled_forceDiscard, implies_true, kept_foldl]

theorem kept_zeroiseKeys (s : State) :
    lastingOf (settled (zeroiseKeys s)) = lastingOf (settled s) := by
  simp only [zeroiseKeys, kept_ite, kept_kettleRestart, kept_mk, kept_fold, ite_self]

theorem kept_zeroise (s : State) :
    lastingOf (settled (zeroise s)) = lastingOf (settled s) := by
  simp only [zeroise, kept_ite, settled_raise, kept_drawSpillKey, kept_mk, kept_fold, kept_zeroiseKeys, kept_discardAll, ite_self]

theorem kept_debugToken (s : State) (image : ImageCheck) (serial : BitVec 64) (nonce : List Word32) :
    lastingOf (settled (debugToken s image serial nonce)) = lastingOf (settled s) := by
  simp only [debugToken, settled_setFld, settled_emit, kept_zeroise, settled_raise, kept_drawNonce, kept_ite, kept_mk, kept_fold,
      ite_self]

theorem kept_entropyFailure (s : State) :
    lastingOf (settled (entropyFailure s)) = lastingOf (settled s) := by
  simp only [entropyFailure, kept_ite, kept_deviceFatal, kept_discardAll, settled_raise, settled_setFlag, kept_kettleLeave, ite_self]

theorem kept_trustPorts (s : State) (trusted : Nat) :
    lastingOf (settled (trustPorts s trusted)) = lastingOf (settled s) := by
  simp only [trustPorts, settled_setFlag, implies_true, kept_foldl]

theorem kept_firmwareStart (s : State) (slot : Bool) (image : ImageCheck) (version patchVersion : Nat) (patch entries : List
    Word32) (trusted : Nat) :
    lastingOf (settled (firmwareStart s slot image version patchVersion patch entries trusted)) = lastingOf (settled s) := by
  simp only [firmwareStart, kept_trustPorts, settled_setFlag, settled_setFld, kept_firmwareRestartChannels, kept_mk, kept_fold]

theorem kept_bootFrom (s : State) (image : ImageCheck) (version patchVersion : Nat) (patch entries : List Word32) (trusted :
    Nat) :
    lastingOf (settled (bootFrom s image version patchVersion patch entries trusted)) = lastingOf (settled s) := by
  simp only [bootFrom, kept_ite, kept_firmwareStart, settled_bootFails, ite_self]

theorem kept_confirmBoot (s : State) (src : Source) :
    lastingOf (settled (confirmBoot s src)) = lastingOf (settled s) := by
  simp only [confirmBoot, kept_ite, settled_accessFault, kept_mk, kept_fold, settled_setFlag, settled_setFld, ite_self]

theorem settled_bootFailure (s : State) :
    settled (bootFailure s) = settled s := by
  simp only [bootFailure, settled_ite, settled_bootFails, ite_self]

theorem settled_doeAnswer (s : State) (code : Nat) (words : List Nat) :
    settled (doeAnswer s code words) = settled s := by
  simp only [doeAnswer, settled_emit]

theorem settled_doeError (s : State) (e : Nat) :
    settled (doeError s e) = settled s := by
  simp only [doeError, settled_doeAnswer]

theorem settled_negotiatedAnswer (s : State) (needsKey : Bool) (good : Bool) (code : Nat) (words : State → List Nat) :
    settled (negotiatedAnswer s needsKey good code words) = settled s := by
  simp only [negotiatedAnswer, settled_ite, settled_doeError, settled_doeAnswer, settled_drawn, ite_self]

theorem kept_execZeroise (src : Source) (s : State) :
    KeepsRes s (execZeroise src s) := by
  unfold execZeroise
  refine keepsRes_done _ _ ?_
  simp only [kept_zeroise, implies_true, kept_guarded]

theorem kept_execDebugToken (src : Source) (image : ImageCheck) (serial : BitVec 64) (nonce : List Word32) (s : State) :
    KeepsRes s (execDebugToken src image serial nonce s) := by
  unfold execDebugToken
  refine keepsRes_sized _ _ _ ?_
  simp only [kept_debugToken, implies_true, kept_guarded]

theorem kept_closeDebug (s : State) :
    lastingOf (settled (closeDebug s)) = lastingOf (settled s) := by
  simp only [closeDebug, kept_mk, kept_fold]

theorem kept_execDebugClose (src : Source) (s : State) :
    KeepsRes s (execDebugClose src s) := by
  unfold execDebugClose
  refine keepsRes_done _ _ ?_
  simp only [kept_closeDebug, implies_true, kept_guarded]

theorem kept_execEntropyFailure (s : State) :
    KeepsRes s (execEntropyFailure s) := by
  unfold execEntropyFailure
  refine keepsRes_done _ _ ?_
  simp only [kept_entropyFailure]

theorem kept_execFirmwareBoot (image : ImageCheck) (version patchVersion : Word32) (patch entries : List Word32) (trusted :
    BitVec 64) (s : State) :
    KeepsRes s (execFirmwareBoot image version patchVersion patch entries trusted s) := by
  unfold execFirmwareBoot
  refine keepsRes_sized _ _ _ ?_
  simp only [kept_ite, kept_bootFrom, ite_self]

theorem kept_execConfirm (src : Source) (s : State) :
    KeepsRes s (execConfirm src s) := by
  unfold execConfirm
  refine keepsRes_done _ _ ?_
  simp only [kept_confirmBoot, implies_true, kept_guarded]

theorem settled_execBootFailure (s : State) :
    KeepsSettled s (execBootFailure s) := by
  unfold execBootFailure
  refine keepsSettled_done _ _ ?_
  simp only [settled_bootFailure]

theorem kept_execGetVersion (s : State) :
    KeepsRes s (execGetVersion s) := by
  unfold execGetVersion
  refine keepsRes_done _ _ ?_
  rw [kept_ite, settled_doeAnswer]
  exact ite_eq_right_iff.mpr fun _ => id rfl

theorem settled_execGetCapabilities (s : State) :
    KeepsSettled s (execGetCapabilities s) := by
  unfold execGetCapabilities
  refine keepsSettled_done _ _ ?_
  simp only [settled_ite, settled_doeAnswer, settled_drawn, ite_self]

theorem kept_execNegotiateAlgorithms (s : State) :
    KeepsRes s (execNegotiateAlgorithms s) := by
  unfold execNegotiateAlgorithms
  refine keepsRes_done _ _ ?_
  rw [kept_ite, settled_doeAnswer]
  exact ite_eq_right_iff.mpr fun _ => id rfl

theorem settled_execGetDigests (slot : Nat) (s : State) :
    KeepsSettled s (execGetDigests slot s) := by
  unfold execGetDigests
  refine keepsSettled_done _ _ ?_
  simp only [settled_negotiatedAnswer]

theorem settled_execGetCertificate (slot offset length : Nat) (s : State) :
    KeepsSettled s (execGetCertificate slot offset length s) := by
  unfold execGetCertificate
  refine keepsSettled_done _ _ ?_
  simp only [settled_negotiatedAnswer]

theorem settled_execChallenge (slot : Nat) (nonce : List Nat) (s : State) :
    KeepsSettled s (execChallenge slot nonce s) := by
  unfold execChallenge
  refine keepsSettled_done _ _ ?_
  simp only [settled_negotiatedAnswer]

theorem settled_execGetMeasurements (index : Nat) (signed : Bool) (nonce : List Nat) (s : State) :
    KeepsSettled s (execGetMeasurements index signed nonce s) := by
  unfold execGetMeasurements
  refine keepsSettled_done _ _ ?_
  simp only [settled_negotiatedAnswer]

theorem settled_execUnsupportedRequest (code : Nat) (s : State) :
    KeepsSettled s (execUnsupportedRequest code s) := by
  unfold execUnsupportedRequest
  refine keepsSettled_done _ _ ?_
  simp only [settled_ite, settled_doeAnswer, ite_self]

/-! ### Host -/

theorem settled_moveHead (s : State) (r h : Nat) :
    settled (moveHead s r h) = settled s := by
  simp only [moveHead, settled_signal, settled_ite, settled_wr, settled_emit, ite_self]

theorem settled_advanceHead (s : State) (r n : Nat) :
    settled (advanceHead s r n) = settled s := by
  simp only [advanceHead, settled_moveHead]

theorem settled_hostDmaFails (s : State) (detail : List Nat) :
    settled (hostDmaFails s detail) = settled s := by
  simp only [hostDmaFails, settled_report, settled_raise, settled_tally]

theorem settled_doorbell (s : State) (page value : Nat) :
    settled (doorbell s page value) = settled s := by
  simp only [doorbell, settled_ite, settled_raise, settled_tally, settled_mk, settled_fold, settled_wakeSlice, settled_wr, ite_self]

theorem settled_ringEnable (s : State) (r : Nat) :
    settled (ringEnable s r) = settled s := by
  simp only [ringEnable, settled_ite, settled_setFlag, settled_wr, settled_mk, settled_fold, ite_self]

theorem settled_ringDisable (s : State) (r : Nat) :
    settled (ringDisable s r) = settled s := by
  simp only [ringDisable, settled_setFlag]

theorem kept_ringConfigure (s : State) (r v : Nat) :
    lastingOf (settled (ringConfigure s r v)) = lastingOf (settled s) := by
  simp only [ringConfigure, kept_ite, settled_ringEnable, settled_ringDisable, ite_self]

theorem settled_writeCompletion (s : State) (c : Completion) :
    settled (writeCompletion s c) = settled s := by
  simp only [writeCompletion, settled_mk, settled_fold, settled_eventWrite]

theorem settled_complete (s : State) (opcode status tag result done : Nat) :
    settled (complete s opcode status tag result done) = settled s := by
  simp only [complete, settled_ite, settled_writeCompletion, settled_mk, settled_fold, ite_self]

theorem settled_abortDescriptors (s : State) (r : Nat) :
    settled (abortDescriptors s r) = settled s := by
  simp only [abortDescriptors, settled_ite, settled_emit, ite_self, implies_true, settled_foldl]

theorem settled_ringIdle (s : State) (r : Nat) (commands : List (Nat × Nat)) :
    settled (ringIdle s r commands) = settled s := by
  simp only [ringIdle, settled_abortDescriptors, settled_complete, settled_moveHead, settled_touchSlice, settled_raise, settled_setFlag, settled_ite,
      settled_foldl, implies_true, ite_self]

theorem settled_itrExpiry (s : State) (r : Nat) :
    settled (itrExpiry s r) = settled s := by
  simp only [itrExpiry, settled_ite, settled_emit, settled_setRing, ite_self]

theorem settled_finishDescriptors (s : State) (r n status : Nat) :
    settled (finishDescriptors s r n status) = settled s := by
  simp only [finishDescriptors, settled_advanceHead, settled_emit, implies_true, settled_foldl]

theorem settled_acceptHostFrame (s : State) (r : Nat) (d : List Nat) (data : List Byte) :
    settled (acceptHostFrame s r d data) = settled s := by
  simp only [acceptHostFrame, settled_finishFrame, settled_ingress, settled_setFrame, settled_mk, settled_fold, settled_traceDraw, settled_wakeSlice,
      settled_count]

theorem settled_readDescriptors (s : State) (r n : Nat) :
    settled (readDescriptors s r n) = settled s := by
  simp only [readDescriptors, settled_emit, settled_foldl, implies_true]

theorem settled_readSegments (s : State) (ds : List (List Nat)) :
    settled (readSegments s ds) = settled s := by
  simp only [readSegments, settled_emit, settled_foldl, implies_true]

theorem settled_txFetch (s : State) (r : Nat) (ds : List (List Nat)) (data : List Byte) (dmaOk : Bool) :
    settled (txFetch s r ds data dmaOk) = settled s := by
  simp only [txFetch, settled_readDescriptors, settled_finishDescriptors, settled_raise, settled_tally, settled_hostDmaFails,
      settled_readSegments, settled_acceptHostFrame, settled_ite, ite_self]

theorem settled_writeReceived (s : State) (r : Nat) (f : Frame) (trap : Nat) (buffers : List (Nat × Nat)) (body : List Byte) :
    settled (writeReceived s r f trap buffers body) = settled s := by
  simp only [writeReceived, settled_advanceHead, settled_ite, settled_count, settled_emit, implies_true, settled_foldl, ite_self]

theorem settled_deliver (s : State) (c : Copy) (buffers : List (Nat × Nat)) (dmaOk : Bool) :
    settled (deliver s c buffers dmaOk) = settled s := by
  simp only [deliver, settled_ite, settled_spillExit, settled_dropCopy, settled_takeCopy, settled_mk, settled_fold, settled_leaveCopy,
      settled_hostDmaFails, settled_setFrame, settled_traceEnd, settled_sendMirrors, ite_self, settled_countTransmitted, settled_count,
      settled_writeReceived]

theorem kept_resetEndpoint (s : State) :
    lastingOf (settled (resetEndpoint s)) = lastingOf (settled s) := by
  simp only [resetEndpoint, kept_hostResetChannels, kept_mk, kept_fold]

theorem kept_perstAssert (s : State) :
    lastingOf (settled (perstAssert s)) = lastingOf (settled s) := by
  simp only [perstAssert, kept_ite, kept_receiversDown, kept_resetEndpoint, kept_mk, kept_fold, ite_self]

theorem kept_perstRelease (s : State) :
    lastingOf (settled (perstRelease s)) = lastingOf (settled s) := by
  simp only [perstRelease, kept_ite, kept_discardMessage, ite_self, implies_true, kept_foldl, kept_mk, kept_fold]

theorem kept_endpointReset (s : State) :
    lastingOf (settled (endpointReset s)) = lastingOf (settled s) := by
  simp only [endpointReset, kept_ite, kept_receiversDown, kept_resetEndpoint, kept_mk, kept_fold, ite_self]

theorem kept_execPerstN (asserted : Bool) (s : State) :
    KeepsRes s (execPerstN asserted s) := by
  unfold execPerstN
  refine keepsRes_done _ _ ?_
  simp only [kept_ite, kept_perstAssert, kept_perstRelease, ite_self]

theorem kept_execHotReset (s : State) :
    KeepsRes s (execHotReset s) := by
  unfold execHotReset
  refine keepsRes_done _ _ ?_
  simp only [kept_endpointReset]

theorem kept_execFlrPf0 (s : State) :
    KeepsRes s (execFlrPf0 s) := by
  unfold execFlrPf0
  refine keepsRes_done _ _ ?_
  simp only [kept_endpointReset]

theorem settled_execFlrPf1 (s : State) :
    KeepsSettled s (execFlrPf1 s) := by
  unfold execFlrPf1
  refine keepsSettled_done _ _ ?_
  with_reducible rfl

theorem settled_execDoorbell (page : Fin 256) (value : Word32) (s : State) :
    KeepsSettled s (execDoorbell page value s) := by
  unfold execDoorbell
  refine keepsSettled_done _ _ ?_
  simp only [settled_doorbell]

theorem settled_execTxFrameFetch (ring : Fin 64) (descriptors : List (List Nat)) (data : List Byte) (dmaOk : Bool) (s : State) :
    KeepsSettled s (execTxFrameFetch ring descriptors data dmaOk s) := by
  unfold execTxFrameFetch
  refine keepsSettled_done _ _ ?_
  simp only [settled_txFetch]

theorem settled_execRxDeliver (buffers : List (Nat × Nat)) (dmaOk : Bool) (s : State) :
    KeepsSettled s (execRxDeliver buffers dmaOk s) := by
  unfold execRxDeliver
  refine keepsSettled_done _ _ ?_
  (repeat' split) <;> first
    | with_reducible rfl
    | simp only [settled_deliver]

theorem settled_execItrExpiry (ring : Fin 136) (s : State) :
    KeepsSettled s (execItrExpiry ring s) := by
  unfold execItrExpiry
  refine keepsSettled_done _ _ ?_
  simp only [settled_itrExpiry]

theorem settled_execRingEnable (src : Source) (ring : Fin 136) (s : State) :
    KeepsSettled s (execRingEnable src ring s) := by
  unfold execRingEnable
  refine keepsSettled_done _ _ ?_
  simp only [settled_ringEnable, implies_true, settled_guarded]

theorem settled_execRingDisable (src : Source) (ring : Fin 136) (s : State) :
    KeepsSettled s (execRingDisable src ring s) := by
  unfold execRingDisable
  refine keepsSettled_done _ _ ?_
  simp only [settled_ringDisable, implies_true, settled_guarded]

theorem settled_execRingIdle (ring : Fin 136) (commands : List (Nat × Nat)) (s : State) :
    KeepsSettled s (execRingIdle ring commands s) := by
  unfold execRingIdle
  refine keepsSettled_done _ _ ?_
  simp only [settled_ringIdle]

/-! ### TableDma -/

theorem settled_tableCommand (s : State) (opcode tag : Nat) (act : State → (Nat × Nat × Nat) × State) (h_act : ∀ x0, settled ((act
    x0).2) = settled x0) :
    settled (tableCommand s opcode tag act) = settled s := by
  simp only [tableCommand, settled_ite, settled_complete, h_act, settled_advanceHead, ite_self]

theorem kept_tableCommand (s : State) (opcode tag : Nat) (act : State → (Nat × Nat × Nat) × State) (h_act : ∀ x0, lastingOf (settled ((act
    x0).2)) = lastingOf (settled x0)) :
    lastingOf (settled (tableCommand s opcode tag act)) = lastingOf (settled s) := by
  simp only [tableCommand, kept_ite, settled_complete, h_act, settled_advanceHead, ite_self]

theorem settled_refuses (status : Nat) (s : State) :
    settled ((refuses status s).2) = settled s := by
  simp only [refuses]

theorem settled_wakeTable (s : State) (t first n : Nat) :
    settled (wakeTable s t first n) = settled s := by
  simp only [wakeTable, settled_ite, settled_wakeSlice, ite_self, implies_true, settled_foldl]

theorem settled_settleLearning (s : State) :
    settled (settleLearning s) = settled s := by
  simp only [settleLearning, settled_learnTake, implies_true, settled_foldl]

theorem settled_dmaRefuses (s : State) :
    settled ((dmaRefuses s).2) = settled s := by
  simp only [dmaRefuses, settled_hostDmaFails]

theorem settled_readEntries (s : State) (t : Nat) (applied : Bool) (first n addr : Nat) (dmaOk : Bool) :
    settled ((readEntries s t applied first n addr dmaOk).2) = settled s := by
  simp only [readEntries, settled_snd_ite, settled_refuses, settled_dmaRefuses, settled_wakeTable, settled_ite, settled_settleLearning, ite_self,
      settled_emit, implies_true, settled_foldl]

theorem kept_fdbSlotWrite (s : State) (slot : Nat) (v : Nat) :
    lastingOf (settled ((fdbSlotWrite s slot v).2)) = lastingOf (settled s) := by
  unfold fdbSlotWrite
  (repeat' split) <;> first
    | with_reducible rfl
    | simp only [settled_fdbRemove, settled_fdbWrite]

theorem kept_writeEntries (s : State) (t : Nat) (y0 : Nat) (y1 : Nat) (y2 : List Image) :
    lastingOf (settled ((writeEntries s t y0 y1 y2).2)) = lastingOf (settled s) := by
  induction y2 generalizing s y0 y1 with
  | nil => rfl
  | cons v l ih =>
    unfold writeEntries
    split
    · have e := kept_fdbSlotWrite s y0 v.toNat
      split
      · rename_i h; rw [h] at e; exact (ih _ _ _).trans e
      · rename_i h; rw [h] at e; exact e
    · exact (ih _ _ _).trans (kept_writeEntry _ _ _ _)

theorem kept_tableWrite (s : State) (t first : Nat) (images : List Image) (dmaOk : Bool) :
    lastingOf (settled ((tableWrite s t first images dmaOk).2)) = lastingOf (settled s) := by
  simp only [tableWrite, kept_snd_ite, settled_refuses, settled_dmaRefuses, settled_wakeTable, kept_ite, settled_settleLearning, ite_self,
      kept_writeEntries]

theorem settled_fdbInsert (s : State) (v : Nat) :
    settled ((fdbInsert s v).2) = settled s := by
  simp only [fdbInsert]
  (repeat' split) <;> first
    | with_reducible rfl
    | simp only [settled_fdbWrite, settled_refuses, settled_evictEvent]

theorem settled_mapInsert (s : State) (v : Nat) :
    settled ((mapInsert s v).2) = settled s := by
  unfold mapInsert
  (repeat' split) <;> first
    | with_reducible rfl
    | simp only [settled_setTab, settled_refuses]

theorem settled_keyed (s : State) (t : Nat) (dmaOk : Bool) (fdb : State → (Nat × Nat × Nat) × State)
    (map : Option (State → (Nat × Nat × Nat) × State)) (hf : ∀ x, settled (fdb x).2 = settled x)
    (hm : ∀ f ∈ map, ∀ x, settled (f x).2 = settled x) : settled (keyed s t dmaOk fdb map).2 = settled s := by
  unfold keyed
  split
  · split
    · exact settled_refuses _ _
    · dsimp only
      split
      · rw [hf, settled_settleLearning]
      · rw [settled_dmaRefuses, settled_settleLearning]
  · split
    · repeat' split
      · exact settled_refuses _ _
      · exact hm _ rfl _
      · exact settled_dmaRefuses _
    · exact settled_refuses _ _

theorem kept_keyed (s : State) (t : Nat) (dmaOk : Bool) (fdb : State → (Nat × Nat × Nat) × State)
    (map : Option (State → (Nat × Nat × Nat) × State)) (hf : ∀ x, lastingOf (settled (fdb x).2) = lastingOf (settled x))
    (hm : ∀ f ∈ map, ∀ x, lastingOf (settled (f x).2) = lastingOf (settled x)) : lastingOf (settled (keyed s t dmaOk fdb map).2) = lastingOf (settled s) := by
  unfold keyed
  split
  · split
    · exact congrArg lastingOf (settled_refuses _ _)
    · dsimp only
      split
      · rw [hf, settled_settleLearning]
      · rw [settled_dmaRefuses, settled_settleLearning]
  · split
    · repeat' split
      · exact congrArg lastingOf (settled_refuses _ _)
      · exact hm _ rfl _
      · exact congrArg lastingOf (settled_dmaRefuses _)
    · exact congrArg lastingOf (settled_refuses _ _)

theorem settled_fdbDelete (s : State) (v : Nat) :
    settled ((fdbDelete s v).2) = settled s := by
  unfold fdbDelete
  split <;> first
    | with_reducible rfl
    | simp only [settled_refuses, settled_fdbRemove]

theorem settled_mapDelete (s : State) (v : Nat) :
    settled ((mapDelete s v).2) = settled s := by
  unfold mapDelete
  split <;> first
    | with_reducible rfl
    | simp only [settled_refuses, settled_setTab]

theorem settled_fdbLock (s : State) (v : Nat) (lock : Bool) :
    settled ((fdbLock s v lock).2) = settled s := by
  unfold fdbLock
  split <;> first
    | with_reducible rfl
    | simp only [settled_refuses, settled_fdbWrite]

theorem settled_flushCommand (s : State) (t tag : Nat) (static : Bool) (filter value : Nat) :
    settled (flushCommand s t tag static filter value) = settled s := by
  simp only [flushCommand, settled_ite, settled_complete, settled_advanceHead, settled_flushBegin, settled_settleLearning, ite_self]

theorem settled_execRead (table tag : Nat) (applied : Bool) (index count hostAddr : Nat) (dmaOk : Bool) (s : State) :
    KeepsSettled s (execRead table tag applied index count hostAddr dmaOk s) := by
  unfold execRead
  refine keepsSettled_done _ _ ?_
  simp only [settled_readEntries, implies_true, settled_tableCommand]

theorem kept_execWrite (table tag index count : Nat) (images : List Image) (dmaOk : Bool) (s : State) :
    KeepsRes s (execWrite table tag index count images dmaOk s) := by
  unfold execWrite
  refine keepsRes_sized _ _ _ ?_
  simp only [kept_tableWrite, implies_true, kept_tableCommand]

theorem settled_execInsert (table tag : Nat) (image : Image) (dmaOk : Bool) (s : State) :
    KeepsSettled s (execInsert table tag image dmaOk s) := by
  unfold execInsert
  refine keepsSettled_done _ _ (settled_tableCommand _ _ _ _ fun y => ?_)
  exact settled_keyed _ _ _ _ _ (fun x => settled_fdbInsert _ _) (fun f hf x => by cases hf; exact settled_mapInsert _ _)

theorem settled_execDelete (table tag : Nat) (image : Image) (dmaOk : Bool) (s : State) :
    KeepsSettled s (execDelete table tag image dmaOk s) := by
  unfold execDelete
  refine keepsSettled_done _ _ (settled_tableCommand _ _ _ _ fun y => ?_)
  exact settled_keyed _ _ _ _ _ (fun x => settled_fdbDelete _ _) (fun f hf x => by cases hf; exact settled_mapDelete _ _)

theorem settled_execLockEntry (table tag : Nat) (image : Image) (dmaOk : Bool) (s : State) :
    KeepsSettled s (execLockEntry table tag image dmaOk s) := by
  unfold execLockEntry
  refine keepsSettled_done _ _ (settled_tableCommand _ _ _ _ fun y => ?_)
  exact settled_keyed _ _ _ _ _ (fun x => settled_fdbLock _ _ _) (fun f hf => by cases hf)

theorem settled_execUnlock (table tag : Nat) (image : Image) (dmaOk : Bool) (s : State) :
    KeepsSettled s (execUnlock table tag image dmaOk s) := by
  unfold execUnlock
  refine keepsSettled_done _ _ (settled_tableCommand _ _ _ _ fun y => ?_)
  exact settled_keyed _ _ _ _ _ (fun x => settled_fdbLock _ _ _) (fun f hf => by cases hf)

theorem settled_execFlush (table tag : Nat) (includeStatic : Bool) (filter : Fin 4) (value : BitVec 16) (s : State) :
    KeepsSettled s (execFlush table tag includeStatic filter value s) := by
  unfold execFlush
  refine keepsSettled_done _ _ ?_
  simp only [settled_flushCommand]

theorem settled_execNop (tag : Nat) (s : State) :
    KeepsSettled s (execNop tag s) := by
  unfold execNop
  refine keepsSettled_done _ _ ?_
  simp only [implies_true, settled_tableCommand]

theorem settled_execTableCompletion (s : State) :
    KeepsSettled s (execTableCompletion s) := by
  unfold execTableCompletion
  refine keepsSettled_done _ _ ?_
  (repeat' split) <;> first
    | with_reducible rfl
    | simp only [settled_writeCompletion, settled_mk, settled_fold]

/-! ### FwCmd -/

theorem kept_postOutbound (s : State) (k : Nat) (words : List Nat) :
    lastingOf (settled (postOutbound s k words)) = lastingOf (settled s) := by
  simp only [postOutbound, kept_channelGo, settled_wr, implies_true, kept_foldl]

theorem kept_answer (s : State) (k head result detail : Nat) (results : List Nat) :
    lastingOf (settled (answer s k head result detail results)) = lastingOf (settled s) := by
  simp only [answer, kept_postOutbound]

theorem kept_respond (s : State) (c : FwCommand) (result detail : Nat) (results : List Nat) :
    lastingOf (settled (respond s c result detail results)) = lastingOf (settled s) := by
  simp only [respond, kept_answer, kept_mk, kept_fold]

theorem kept_markStarted (s : State) (c : FwCommand) :
    lastingOf (settled (markStarted s c)) = lastingOf (settled s) := by
  simp only [markStarted, kept_mk, kept_fold]

theorem kept_takeCommand (s : State) (k : Nat) :
    lastingOf (settled (takeCommand s k)) = lastingOf (settled s) := by
  simp only [takeCommand]
  (repeat' split) <;> first
    | with_reducible rfl
    | simp only [kept_answer, kept_mk, kept_fold, kept_channelTake]

theorem kept_serveChannels (s : State) :
    lastingOf (settled (serveChannels s)) = lastingOf (settled s) := by
  unfold serveChannels
  (repeat' split) <;> first
    | with_reducible rfl
    | simp only [kept_takeCommand]

theorem kept_commandStep (s : State) (k op : Nat) (act : FwCommand → State) (h : ∀ c, lastingOf (settled (act c)) = lastingOf (settled s)) :
    lastingOf (settled (commandStep s k op act)) = lastingOf (settled s) := by
  unfold commandStep
  split
  · rfl
  · rw [kept_ite, h, ite_self]

theorem kept_knobCommand (s : State) (c : FwCommand) (preset : Nat) (stage : State → State) (h_stage : ∀ x0, lastingOf (settled (stage x0))
    = lastingOf (settled x0)) :
    lastingOf (settled (knobCommand s c preset stage)) = lastingOf (settled s) := by
  unfold knobCommand
  split
  · exact kept_respond _ _ _ _ _
  · rename_i h
    exact (kept_respond _ _ _ _ _).trans (kept_commitKnobs _ _ _ h_stage h)

theorem kept_bringPort (c : FwCommand) (s : State) (p : Nat) :
    lastingOf (settled (bringPort c s p)) = lastingOf (settled s) := by
  simp only [bringPort, settled_clearPlace, settled_cxlEnable, settled_setPlace, settled_layoutPort, kept_ite, kept_mk, kept_fold, ite_self]

theorem kept_spillSettled (s : State) (c : FwCommand) :
    lastingOf (settled (spillSettled s c)) = lastingOf (settled s) := by
  simp only [spillSettled, kept_ite, kept_respond, ite_self]

theorem kept_spillEnable (s : State) (c : FwCommand) :
    lastingOf (settled (spillEnable s c)) = lastingOf (settled s) := by
  simp only [spillEnable, kept_ite, kept_spillSettled, kept_respond, kept_bringPort, implies_true, kept_foldl, settled_clearPlace,
      kept_markStarted, ite_self]

theorem kept_clearTable (s : State) (t : Nat) :
    lastingOf (settled (clearTable s t)) = lastingOf (settled s) := by
  simp only [clearTable, kept_mk, kept_fold]

theorem kept_flushTable (s : State) (t : Nat) :
    lastingOf (settled (flushTable s t)) = lastingOf (settled s) := by
  unfold flushTable
  split <;> first
    | with_reducible rfl
    | simp only [kept_mk, kept_fold, kept_clearTable, settled_wakeTable, kept_ite, ite_self, kept_setCounter, implies_true,
          kept_foldl]

theorem kept_tableFlush (s : State) (c : FwCommand) :
    lastingOf (settled (tableFlush s c)) = lastingOf (settled s) := by
  simp only [tableFlush, kept_ite, kept_respond, kept_flushTable, settled_flushBegin, settled_settleLearning, kept_markStarted,
      ite_self]

theorem kept_flushPort (s : State) (c : FwCommand) :
    lastingOf (settled (flushPort s c)) = lastingOf (settled s) := by
  simp only [flushPort, kept_ite, kept_respond, settled_flushBegin, settled_settleLearning, kept_markStarted, ite_self]

theorem kept_flushWalkDone (s : State) :
    lastingOf (settled (flushWalkDone s)) = lastingOf (settled s) := by
  unfold flushWalkDone
  dsimp only
  (repeat' split) <;> first
    | with_reducible rfl
    | simp only [kept_flushWalk, kept_flushEnds, settled_complete, kept_respond]

theorem kept_twinHandover (s : State) (c : FwCommand) :
    lastingOf (settled (twinHandover s c)) = lastingOf (settled s) := by
  unfold twinHandover
  (repeat' split) <;> first
    | with_reducible rfl
    | simp only [kept_respond, kept_markStarted, settled_handoverStart]

theorem kept_selftestRun (s : State) (c : FwCommand) (results : Nat) :
    lastingOf (settled (selftestRun s c results)) = lastingOf (settled s) := by
  simp only [selftestRun, kept_ite, kept_respond, settled_selftestFail, implies_true, kept_foldl, kept_mk, kept_fold, ite_self]

theorem kept_execFirmwareTakeCommand (s : State) :
    KeepsRes s (execFirmwareTakeCommand s) := by
  unfold execFirmwareTakeCommand
  refine keepsRes_done _ _ ?_
  simp only [kept_serveChannels]

theorem kept_execFwVersion (channel : Fin 6) (s : State) :
    KeepsRes s (execFwVersion channel s) := by
  unfold execFwVersion
  refine keepsRes_done _ _ ?_
  simp only [kept_respond, implies_true, kept_commandStep]

theorem kept_execProfileSet (channel : Fin 6) (s : State) :
    KeepsRes s (execProfileSet channel s) := by
  unfold execProfileSet
  refine keepsRes_done _ _ ?_
  simp only [kept_ite, kept_respond, kept_stagePreset, implies_true, kept_knobCommand, ite_self, kept_commandStep]

theorem kept_execPowerEnvelopeSet (channel : Fin 6) (s : State) :
    KeepsRes s (execPowerEnvelopeSet channel s) := by
  unfold execPowerEnvelopeSet
  refine keepsRes_done _ _ ?_
  simp only [kept_ite, kept_respond, settled_setFld, implies_true, kept_knobCommand, ite_self, kept_commandStep]

theorem kept_execSpillEnable (channel : Fin 6) (s : State) :
    KeepsRes s (execSpillEnable channel s) := by
  unfold execSpillEnable
  refine keepsRes_done _ _ ?_
  simp only [kept_spillEnable, implies_true, kept_commandStep]

theorem kept_execCxlStatus (channel : Fin 6) (s : State) :
    KeepsRes s (execCxlStatus channel s) := by
  unfold execCxlStatus
  refine keepsRes_done _ _ ?_
  simp only [kept_respond, implies_true, kept_commandStep]

theorem kept_execTableFlush (channel : Fin 6) (s : State) :
    KeepsRes s (execTableFlush channel s) := by
  unfold execTableFlush
  refine keepsRes_done _ _ ?_
  simp only [kept_tableFlush, implies_true, kept_commandStep]

theorem kept_execFdbFlushPort (channel : Fin 6) (s : State) :
    KeepsRes s (execFdbFlushPort channel s) := by
  unfold execFdbFlushPort
  refine keepsRes_done _ _ ?_
  simp only [kept_flushPort, implies_true, kept_commandStep]

theorem kept_execFdbFlushComplete (s : State) :
    KeepsRes s (execFdbFlushComplete s) := by
  unfold execFdbFlushComplete
  refine keepsRes_done _ _ ?_
  simp only [kept_flushWalkDone]

theorem kept_execTwinStatus (channel : Fin 6) (s : State) :
    KeepsRes s (execTwinStatus channel s) := by
  unfold execTwinStatus
  refine keepsRes_done _ _ ?_
  simp only [kept_respond, implies_true, kept_commandStep]

theorem kept_execTwinHandover (channel : Fin 6) (s : State) :
    KeepsRes s (execTwinHandover channel s) := by
  unfold execTwinHandover
  refine keepsRes_done _ _ ?_
  simp only [kept_twinHandover, implies_true, kept_commandStep]

theorem kept_execHealthGet (channel : Fin 6) (s : State) :
    KeepsRes s (execHealthGet channel s) := by
  unfold execHealthGet
  refine keepsRes_done _ _ ?_
  simp only [kept_respond, implies_true, kept_commandStep]

theorem kept_execSelftestRun (channel : Fin 6) (results : BitVec 32) (s : State) :
    KeepsRes s (execSelftestRun channel results s) := by
  unfold execSelftestRun
  refine keepsRes_done _ _ ?_
  simp only [kept_selftestRun, implies_true, kept_commandStep]

/-! ### Startup -/

theorem kept_seedSlice (s : State) (i : Nat) :
    lastingOf (settled (seedSlice s i)) = lastingOf (settled s) := by
  simp only [seedSlice, settled_drawn, settled_setSlice]

theorem kept_endpointReady (s : State) :
    lastingOf (settled (endpointReady s)) = lastingOf (settled s) := by
  simp only [endpointReady, kept_ite, kept_mk, kept_fold, ite_self]

theorem kept_startService (s : State) :
    lastingOf (settled (startService s)) = lastingOf (settled s) := by
  simp only [startService, kept_endpointReady, kept_drawNonce, kept_seedSlice, kept_watchdogRestart, kept_emergencyCap,
      kept_ite, kept_foldl, implies_true, ite_self]

theorem kept_colophonFails (s : State) :
    lastingOf (settled (colophonFails s)) = lastingOf (settled s) := by
  simp only [colophonFails, settled_setFault, settled_report, settled_raise, settled_setFlag, kept_mk, kept_fold]

theorem kept_bistFails (s : State) :
    lastingOf (settled (bistFails s)) = lastingOf (settled s) := by
  simp only [bistFails, kept_endpointReady, settled_setFault, settled_report, kept_mk, kept_fold]

theorem kept_startSteps (s : State) (colophonOk : Bool) (bist : Option Bool) :
    lastingOf (settled (startSteps s colophonOk bist)) = lastingOf (settled s) := by
  simp only [startSteps, kept_ite, kept_colophonFails, kept_mk, kept_fold, kept_bistFails, settled_setFlag, kept_startService,
      ite_self]

theorem kept_unpowered (s : State) :
    lastingOf (settled (unpowered s)) = lastingOf (settled s) := by
  simp only [unpowered, kept_mk, keptColophon, kept_fold]

theorem kept_sampleSeat (s : State) (seatB : Bool) :
    lastingOf (settled (sampleSeat s seatB)) = lastingOf (settled s) := by
  simp only [sampleSeat, settled_setFlag, kept_mk, kept_fold]

theorem kept_drivePresent (s : State) (on : Bool) :
    lastingOf (settled (drivePresent s on)) = lastingOf (settled s) := by
  simp only [drivePresent, settled_emit, kept_ite, kept_mk, kept_fold, ite_self]

theorem kept_powerUp (s : State) (seatB : Bool) (addr : Nat) :
    lastingOf (settled (powerUp s seatB addr)) = lastingOf (settled s) := by
  simp only [powerUp, kept_ite, settled_emit, kept_sampleSeat, kept_mk, kept_fold, kept_unpowered, ite_self]

theorem kept_startTime (s : State) :
    lastingOf (settled (startTime s)) = lastingOf (settled s) := by
  simp only [startTime, settled_setFlag, kept_mk, kept_fold, kept_ite, settled_dropClaim, ite_self]

theorem kept_railsInRange (s : State) (colophonOk bistOk : Bool) :
    lastingOf (settled (railsInRange s colophonOk bistOk)) = lastingOf (settled s) := by
  simp only [railsInRange, kept_drivePresent, kept_startSteps, kept_startTime, kept_ite, kept_mk, kept_fold, ite_self]

theorem kept_beginReset (s : State) (cause : Nat) :
    lastingOf (settled (beginReset s cause)) = lastingOf (settled s) := by
  simp only [beginReset, kept_leaveStandby, kept_wipeDevice, settled_tally, settled_wr, kept_ite, kept_mk, kept_fold, ite_self]

theorem kept_warmReset (s : State) (cause : Nat) (colophonOk bistOk : Bool) :
    lastingOf (settled (warmReset s cause colophonOk bistOk)) = lastingOf (settled s) := by
  simp only [warmReset, kept_ite, kept_startSteps, kept_beginReset, ite_self]

theorem kept_coldWiped (s : State) :
    lastingOf (settled (coldWiped s)) = lastingOf (settled s) := by
  simp only [coldWiped, kept_mk, kept_fold, kept_unpowered, kept_leaveService]

theorem kept_coldReset (s : State) (cause : Nat) (seatB : Bool) :
    lastingOf (settled (coldReset s cause seatB)) = lastingOf (settled s) := by
  simp only [coldReset, kept_ite, kept_sampleSeat, settled_wr, kept_coldWiped, settled_emit, ite_self]

theorem kept_sysReset (s : State) (ns : Nat) :
    lastingOf (settled (sysReset s ns)) = lastingOf (settled s) := by
  simp only [sysReset, kept_ite, kept_coldReset, kept_leaveStandby, kept_beginReset, ite_self]

theorem kept_resetSlice (s : State) (i : Nat) :
    lastingOf (settled (resetSlice s i)) = lastingOf (settled s) := by
  simp only [resetSlice, kept_switchSlice, kept_seedSlice, settled_showSleep, settled_setSlice, settled_resetPort, implies_true,
      kept_foldl]

theorem kept_supplyLost (s : State) (rail : Nat) :
    lastingOf (settled (supplyLost s rail)) = lastingOf (settled s) := by
  simp only [supplyLost, settled_dropClaim, settled_setFlag, kept_drivePresent, kept_unpowered, settled_wr, kept_leaveService, kept_ite,
      kept_mk, kept_fold, ite_self]

theorem kept_fatalError (s : State) (code : Nat) :
    lastingOf (settled (fatalError s code)) = lastingOf (settled s) := by
  unfold fatalError
  split <;> first
    | with_reducible rfl
    | simp only [kept_deviceFatal, kept_ite, kept_watchdogExpires, ite_self, kept_thermalTrip, kept_entropyFailure]

theorem settled_logError (s : State) (r : ErrRec) :
    settled (logError s r) = settled s := by
  simp only [logError, settled_ite, settled_eventWrite, settled_mk, settled_fold, settled_count, ite_self]

theorem settled_logNext (s : State) :
    settled (logNext s) = settled s := by
  simp only [logNext]
  (repeat' split) <;> first
    | with_reducible rfl
    | simp only [settled_logError, settled_mk, settled_fold]

theorem settled_rescueAnswer (s : State) (r : Rescue) :
    settled (rescueAnswer s r) = settled s := by
  simp only [rescueAnswer, settled_ite, settled_emit, ite_self]

theorem settled_rescueStep (s : State) (p op : Nat) (act : State → Rescue → State) (h_act : ∀ x0 x1, settled (act x0 x1) = settled
    x0) :
    settled (rescueStep s p op act) = settled s := by
  unfold rescueStep
  split <;> first
    | with_reducible rfl
    | simp only [settled_ite, h_act, settled_mk, settled_fold, ite_self]

theorem kept_rescueStep (s : State) (p op : Nat) (act : State → Rescue → State) (h_act : ∀ x0 x1, lastingOf (settled (act x0 x1)) =
    lastingOf (settled x0)) :
    lastingOf (settled (rescueStep s p op act)) = lastingOf (settled s) := by
  unfold rescueStep
  split <;> first
    | with_reducible rfl
    | simp only [kept_ite, h_act, kept_mk, kept_fold, ite_self]

theorem kept_execPowerUp (seatB : Bool) (addr : Fin 4) (s : State) :
    KeepsRes s (execPowerUp seatB addr s) := by
  unfold execPowerUp
  refine keepsRes_done _ _ ?_
  simp only [kept_powerUp]

theorem kept_execCoreRailsInRange (colophonOk bistOk : Bool) (s : State) :
    KeepsRes s (execCoreRailsInRange colophonOk bistOk s) := by
  unfold execCoreRailsInRange
  refine keepsRes_done _ _ ?_
  simp only [kept_railsInRange]

theorem kept_execSysResetN (lowNs : Nat) (s : State) :
    KeepsRes s (execSysResetN lowNs s) := by
  unfold execSysResetN
  refine keepsRes_done _ _ ?_
  simp only [kept_sysReset]

theorem kept_execWarmReset (cause : Fin 256) (colophonOk bistOk : Bool) (s : State) :
    KeepsRes s (execWarmReset cause colophonOk bistOk s) := by
  unfold execWarmReset
  refine keepsRes_done _ _ ?_
  simp only [kept_warmReset]

theorem kept_execColdReset (cause : Fin 256) (seatB : Bool) (s : State) :
    KeepsRes s (execColdReset cause seatB s) := by
  unfold execColdReset
  refine keepsRes_done _ _ ?_
  simp only [kept_ite, kept_coldReset, ite_self]

theorem kept_execSliceReset (src : Source) (slice : Fin 8) (s : State) :
    KeepsRes s (execSliceReset src slice s) := by
  unfold execSliceReset
  refine keepsRes_done _ _ ?_
  simp only [kept_resetSlice, implies_true, kept_guarded]

theorem kept_execSupplyLoss (rail : Fin 7) (s : State) :
    KeepsRes s (execSupplyLoss rail s) := by
  unfold execSupplyLoss
  refine keepsRes_done _ _ ?_
  simp only [kept_supplyLost]

theorem kept_execSentinelWedge (s : State) :
    KeepsRes s (execSentinelWedge s) := by
  unfold execSentinelWedge
  refine keepsRes_done _ _ ?_
  simp only [kept_ite, kept_fatalError, ite_self]

theorem kept_execDeviceFatal (code : BitVec 16) (s : State) :
    KeepsRes s (execDeviceFatal code s) := by
  unfold execDeviceFatal
  refine keepsRes_done _ _ ?_
  simp only [kept_fatalError]

theorem settled_execErrorLogRecord (s : State) :
    KeepsSettled s (execErrorLogRecord s) := by
  unfold execErrorLogRecord
  refine keepsSettled_done _ _ ?_
  simp only [settled_logNext]

theorem kept_execDelayedWarmReset (s : State) :
    KeepsRes s (execDelayedWarmReset s) := by
  unfold execDelayedWarmReset
  (repeat' split) <;> refine keepsRes_done _ _ ?_ <;> first
    | with_reducible rfl
    | simp only [kept_beginReset, kept_mk, kept_fold]

theorem kept_execResetReq (src : Source) (s : State) :
    KeepsRes s (execResetReq src s) := by
  unfold execResetReq
  refine keepsRes_done _ _ ?_
  simp only [kept_beginReset, implies_true, kept_guarded]

theorem settled_execStatusRead (port : Fin 64) (s : State) :
    KeepsSettled s (execStatusRead port s) := by
  unfold execStatusRead
  refine keepsSettled_done _ _ ?_
  simp only [settled_rescueAnswer, implies_true, settled_rescueStep]

theorem kept_execDeviceReset (port : Fin 64) (s : State) :
    KeepsRes s (execDeviceReset port s) := by
  unfold execDeviceReset
  refine keepsRes_done _ _ ?_
  simp only [kept_beginReset, implies_true, kept_rescueStep]

theorem settled_execRescueTwinHandover (port : Fin 64) (s : State) :
    KeepsSettled s (execRescueTwinHandover port s) := by
  unfold execRescueTwinHandover
  refine keepsSettled_done _ _ ?_
  simp only [settled_rescueAnswer, settled_startRelease, implies_true, settled_rescueStep]

theorem settled_execSlotSelect (port : Fin 64) (s : State) :
    KeepsSettled s (execSlotSelect port s) := by
  unfold execSlotSelect
  refine keepsSettled_done _ _ ?_
  simp only [settled_rescueAnswer, settled_setFlag, implies_true, settled_rescueStep]

end Sys2Proof.Machine
end

