-- ==== Sys2Proof/Laws/LastingBus.lean ====
section
/-! SUPPORT. What each function of register accesses and the sequencer leaves alone: all that is settled (settled_…), or at least what lasts (kept_…). -/

set_option linter.unusedSimpArgs false

namespace Sys2Proof.Machine

/-! ### Shown -/

theorem kept_setLatched (s : State) (src : Source) (a v : Nat) :
    lastingOf (settled (setLatched s src a v)) = lastingOf (settled s) := by
  simp only [setLatched, kept_mk, kept_fold]

theorem kept_readLo (s : State) (src : Source) (p : Page) (a : Nat) :
    lastingOf (settled ((readLo s src p a).2)) = lastingOf (settled s) := by
  simp only [readLo, kept_setLatched]

theorem kept_readHi (s : State) (src : Source) (p : Page) (a : Nat) :
    lastingOf (settled ((readHi s src p a).2)) = lastingOf (settled s) := by
  simp only [readHi, kept_snd_ite, kept_setLatched, ite_self]

theorem kept_readPlain (s : State) (src : Source) (p : Page) (a : Nat) :
    lastingOf (settled ((readPlain s src p a).2)) = lastingOf (settled s) := by
  unfold readPlain
  split <;> first
    | with_reducible rfl
    | simp only [kept_readLo, kept_readHi, kept_ite, settled_drawn, ite_self]

theorem kept_readRegister (s : State) (src : Source) (p : Page) (a : Nat) :
    lastingOf (settled ((readRegister s src p a).2)) = lastingOf (settled s) := by
  unfold readRegister
  (repeat' split) <;> first
    | with_reducible rfl
    | simp only [kept_channelTake, kept_readPlain, kept_dramRead, kept_tevPop]

theorem kept_readMapped (s : State) (src : Source) (a : Nat) :
    lastingOf (settled ((readMapped s src a).2)) = lastingOf (settled s) := by
  unfold readMapped
  split <;> first
    | with_reducible rfl
    | simp only [kept_snd_ite, settled_accessFault, kept_readRegister, settled_wakeForPage, ite_self]

theorem kept_readWindow (s : State) (src : Source) (a : Nat) (w : Window) (e off : Nat) :
    lastingOf (settled ((readWindow s src a w e off).2)) = lastingOf (settled s) := by
  unfold readWindow
  (repeat' split) <;> first
    | with_reducible rfl
    | simp only [settled_accessFault, kept_mk, kept_fold, settled_wakeTable, kept_dropWindow]

theorem kept_readAt (s : State) (src : Source) (a : Nat) :
    lastingOf (settled ((readAt s src a).2)) = lastingOf (settled s) := by
  unfold readAt
  (repeat' split) <;> first
    | with_reducible rfl
    | simp only [settled_accessFault, kept_dropWindow, kept_readWindow, kept_readMapped]

theorem kept_readOut (s : State) (src : Source) (a : Nat) :
    lastingOf (settled (readOut s src a)) = lastingOf (settled s) := by
  simp only [readOut, settled_emit, kept_readAt]

theorem kept_pf1Denied (s : State) (offset : Nat) :
    lastingOf (settled (pf1Denied s offset)) = lastingOf (settled s) := by
  simp only [pf1Denied, settled_report, settled_raise, settled_tally]

theorem kept_readAperture (s : State) (offset : Nat) :
    lastingOf (settled ((readAperture s offset).2)) = lastingOf (settled s) := by
  simp only [readAperture, kept_snd_ite, kept_setLatched, ite_self]

theorem kept_pf1Read (s : State) (offset : Nat) :
    lastingOf (settled ((pf1Read s offset).2)) = lastingOf (settled s) := by
  unfold pf1Read
  (repeat' split) <;> first
    | with_reducible rfl
    | simp only [kept_pf1Denied, settled_accessFault, kept_readAperture, kept_readAt]

theorem kept_execPairLoRead (src : Source) (addr : Nat) (s : State) :
    KeepsRes s (execPairLoRead src addr s) := by
  unfold execPairLoRead
  refine keepsRes_done _ _ ?_
  simp only [kept_readOut]

theorem kept_execPairHiRead (src : Source) (addr : Nat) (s : State) :
    KeepsRes s (execPairHiRead src addr s) := by
  unfold execPairHiRead
  refine keepsRes_done _ _ ?_
  simp only [kept_readOut]

theorem kept_execTableWindowRead (src : Source) (addr : Nat) (s : State) :
    KeepsRes s (execTableWindowRead src addr s) := by
  unfold execTableWindowRead
  refine keepsRes_done _ _ ?_
  simp only [kept_readOut]

theorem kept_execPf1Read (offset : Nat) (s : State) :
    KeepsRes s (execPf1Read offset s) := by
  unfold execPf1Read
  refine keepsRes_done _ _ ?_
  simp only [settled_emit, kept_pf1Read]

theorem kept_readWords (s : State) (first : Nat) (y0 : Nat) :
    lastingOf (settled ((readWords s first y0).2)) = lastingOf (settled s) := by
  induction y0 with
  | zero => rfl
  | succ n ih => exact (kept_readAt _ _ _).trans ih

theorem kept_execRegRead (tag index count hostAddr : Nat) (dmaOk : Bool) (s : State) :
    KeepsRes s (execRegRead tag index count hostAddr dmaOk s) := by
  unfold execRegRead
  refine keepsRes_done _ _ ?_
  simp only [kept_snd_ite, settled_refuses, settled_dmaRefuses, kept_readWords, settled_emit, ite_self, implies_true, kept_tableCommand]

/-! ### BusWrite -/

theorem settled_discardStaged (s : State) (p : Page) :
    settled (discardStaged s p) = settled s := by
  simp only [discardStaged, settled_setFlag, settled_wr, implies_true, settled_foldl]

theorem kept_forceCauses (s : State) (p : Page) (v : Nat) :
    lastingOf (settled (forceCauses s p v)) = lastingOf (settled s) := by
  simp only [forceCauses, kept_ite, settled_raise, ite_self, implies_true, kept_foldl]

theorem kept_keepCaptures (s : State) (p : Page) :
    lastingOf (settled (keepCaptures s p)) = lastingOf (settled s) := by
  simp only [keepCaptures, kept_ite, settled_setFlag, ite_self, implies_true, kept_foldl]

theorem settled_resumePage (s : State) (p : Page) (bad : Option Nat) :
    settled (resumePage s p bad) = settled s := by
  unfold resumePage
  split <;> first
    | with_reducible rfl
    | simp only [settled_parityMismatch, settled_ite, settled_setFlag, ite_self]

theorem kept_writeHeader (s : State) (src : Source) (p : Page) (a v : Nat) :
    lastingOf (settled (writeHeader s src p a v)) = lastingOf (settled s) := by
  unfold writeHeader
  split <;> first
    | with_reducible rfl
    | simp only [kept_ite, settled_discardStaged, kept_fieldWrite, ite_self, kept_keepCaptures, kept_forceCauses]

theorem kept_writeRoot (s : State) (src : Source) (a v : Nat) :
    lastingOf (settled (writeRoot s src a v)) = lastingOf (settled s) := by
  simp only [writeRoot, kept_ite, kept_sysCommit, kept_fenceStart, kept_fieldWrite, ite_self]

theorem kept_writeColophon (s : State) (src : Source) (a v : Nat) :
    lastingOf (settled (writeColophon s src a v)) = lastingOf (settled s) := by
  simp only [writeColophon, kept_ite, kept_zeroise, kept_fieldWrite, kept_closeDebug, ite_self]

theorem kept_writeFaults (s : State) (src : Source) (v : Nat) :
    lastingOf (settled (writeFaults s src v)) = lastingOf (settled s) := by
  simp only [writeFaults, kept_ite, settled_emit, settled_wr, kept_fieldWrite, ite_self]

theorem kept_writeControl (s : State) (v : Nat) :
    lastingOf (settled (writeControl s v)) = lastingOf (settled s) := by
  simp only [writeControl, kept_ite, kept_beginReset, kept_requestStandby, kept_leaveStandby, settled_startRelease, settled_quiet,
      ite_self]

theorem kept_writeAlwaysOn (s : State) (src : Source) (a v : Nat) :
    lastingOf (settled (writeAlwaysOn s src a v)) = lastingOf (settled s) := by
  unfold writeAlwaysOn
  split <;> first
    | with_reducible rfl
    | simp only [kept_writeControl, kept_watchdogConfigured, kept_fieldWrite, kept_watchdogKick, kept_ite, kept_confirmBoot,
          ite_self, kept_writeFaults]

theorem kept_writeTime (s : State) (src : Source) (a v : Nat) :
    lastingOf (settled (writeTime s src a v)) = lastingOf (settled s) := by
  simp only [writeTime, kept_abortSlew, kept_startSlew, kept_holdStep, kept_capture, kept_fieldWrite, kept_rclkWritten,
      kept_ite, ite_self]

theorem kept_writeTimeEvents (s : State) (src : Source) (a v : Nat) :
    lastingOf (settled (writeTimeEvents s src a v)) = lastingOf (settled s) := by
  simp only [writeTimeEvents, kept_ite, kept_armPin, kept_fieldWrite, kept_setTev, ite_self]

theorem kept_writeTwinControl (s : State) (v : Nat) :
    lastingOf (settled (writeTwinControl s v)) = lastingOf (settled s) := by
  simp only [writeTwinControl, kept_ite, settled_setFlag, settled_requestResync, settled_handoverStart, settled_startRelease, settled_disarm,
      ite_self]

theorem kept_writeTwin (s : State) (src : Source) (a v : Nat) :
    lastingOf (settled (writeTwin s src a v)) = lastingOf (settled s) := by
  unfold writeTwin
  split <;> first
    | with_reducible rfl
    | simp only [kept_kettleSwitch, kept_writeTwinControl, kept_ite, settled_setFld, ite_self, kept_fieldWrite]

theorem kept_writeMailbox (s : State) (src : Source) (a v : Nat) :
    lastingOf (settled (writeMailbox s src a v)) = lastingOf (settled s) := by
  unfold writeMailbox
  split <;> first
    | with_reducible rfl
    | simp only [kept_fieldWrite, kept_ite, kept_channelGo, kept_channelWithdraw, implies_true, kept_bySender,
        kept_channelReset,
        ite_self]

theorem kept_writeSequencer (s : State) (src : Source) (a v : Nat) :
    lastingOf (settled (writeSequencer s src a v)) = lastingOf (settled s) := by
  unfold writeSequencer
  split <;> first
    | with_reducible rfl
    | simp only [kept_ite, kept_taskGo, kept_taskAbort, kept_fieldWrite, ite_self, kept_dramWrite]

theorem kept_writeHostIf (s : State) (src : Source) (a v : Nat) :
    lastingOf (settled (writeHostIf s src a v)) = lastingOf (settled s) := by
  simp only [writeHostIf, kept_ite, settled_qspiRequest, kept_driveGpio, kept_fieldWrite, ite_self]

theorem kept_writeDma (s : State) (src : Source) (k a v : Nat) :
    lastingOf (settled (writeDma s src k a v)) = lastingOf (settled s) := by
  simp only [writeDma, kept_ite, kept_ringConfigure, kept_fieldWrite, ite_self]

theorem kept_writeCounters (s : State) (src : Source) (a v : Nat) :
    lastingOf (settled (writeCounters s src a v)) = lastingOf (settled s) := by
  simp only [writeCounters, kept_ite, settled_snapshot, ite_self, kept_mk, kept_fold, kept_fieldWrite]

theorem kept_writePort (s : State) (src : Source) (p a v : Nat) :
    lastingOf (settled (writePort s src p a v)) = lastingOf (settled s) := by
  unfold writePort
  split <;> first
    | with_reducible rfl
    | simp only [settled_writeEnable, kept_fieldWrite, kept_ite, settled_resetPort, settled_loseLink, ite_self]

theorem kept_writePortLink (s : State) (src : Source) (p a v : Nat) :
    lastingOf (settled (writePortLink s src p a v)) = lastingOf (settled s) := by
  unfold writePortLink
  (repeat' split) <;> first
    | with_reducible rfl
    | simp only [kept_fieldWrite, kept_fcReconfigure, settled_showPause, kept_lpiFollow, settled_dropGates, settled_acceptGate,
        settled_showGate, kept_preemptWritten]

theorem kept_writeSpill (s : State) (src : Source) (a v : Nat) :
    lastingOf (settled (writeSpill s src a v)) = lastingOf (settled s) := by
  unfold writeSpill
  split <;> first
    | with_reducible rfl
    | simp only [settled_forceDiscards, settled_writePlace, kept_ite, settled_spillQuery, kept_fieldWrite, ite_self]

theorem kept_writePools (s : State) (src : Source) (a v : Nat) :
    lastingOf (settled (writePools s src a v)) = lastingOf (settled s) := by
  simp only [writePools, kept_ite, settled_poolInit, kept_fieldWrite, ite_self]

theorem kept_writeCxl (s : State) (src : Source) (c a v : Nat) :
    lastingOf (settled (writeCxl s src c a v)) = lastingOf (settled s) := by
  unfold writeCxl
  split <;> first
    | with_reducible rfl
    | simp only [kept_ite, kept_fieldWrite, settled_cxlEnable, ite_self, settled_cxlReset]

theorem kept_writeShadow (s : State) (src : Source) (a v : Nat) :
    lastingOf (settled (writeShadow s src a v)) = lastingOf (settled s) := by
  simp only [writeShadow, kept_ite, kept_showShadow, kept_mk, kept_fold, kept_fieldWrite, kept_shadowOnce, ite_self]

theorem kept_writeWord (s : State) (src : Source) (p : Page) (a v : Nat) :
    lastingOf (settled (writeWord s src p a v)) = lastingOf (settled s) := by
  unfold writeWord
  (repeat' split) <;> first
    | with_reducible rfl
    | simp only [kept_writeHeader, kept_writeRoot, kept_writeColophon, kept_writeAlwaysOn, kept_writeTime, kept_writeTimeEvents,
          kept_writeTwin, kept_writeMailbox, kept_writeSequencer, kept_writeHostIf, kept_writeDma, kept_writeCounters,
          kept_resetSlice, kept_fieldWrite, kept_writePort, kept_writePortLink, settled_clearPeak, kept_writeSpill,
          settled_drainCheck, kept_writePools, kept_writeCxl, settled_queryNode, kept_writeShadow]

theorem kept_pairWrite (s : State) (src : Source) (lo : Nat) (p : Page) (a v : Nat) :
    lastingOf (settled (pairWrite s src lo p a v)) = lastingOf (settled s) := by
  unfold pairWrite
  split <;> first
    | with_reducible rfl
    | simp only [kept_mk, kept_fold, kept_writeWord, kept_ite, ite_self]

theorem kept_badParity (s : State) (src : Source) (p : Page) (a : Nat) :
    lastingOf (settled (badParity s src p a)) = lastingOf (settled s) := by
  simp only [badParity, settled_report, settled_accessFault]

theorem kept_busWrite (s : State) (src : Source) (a size v : Nat) (parityOk : Bool) :
    lastingOf (settled (busWrite s src a size v parityOk)) = lastingOf (settled s) := by
  unfold busWrite
  (repeat' split) <;> first
    | with_reducible rfl
    | simp only [settled_accessFault, implies_true, kept_guarded, kept_pairWrite, kept_badParity]

theorem kept_execRegisterWrite (src : Source) (addr size : Nat) (value : Word32) (parityOk : Bool) (s : State) :
    KeepsRes s (execRegisterWrite src addr size value parityOk s) := by
  unfold execRegisterWrite
  refine keepsRes_done _ _ ?_
  simp only [kept_busWrite]

theorem kept_execPairLoWrite (src : Source) (addr : Nat) (value : Word32) (s : State) :
    KeepsRes s (execPairLoWrite src addr value s) := by
  unfold execPairLoWrite
  refine keepsRes_done _ _ ?_
  simp only [kept_busWrite]

theorem kept_execPairHiWrite (src : Source) (addr : Nat) (value : Word32) (s : State) :
    KeepsRes s (execPairHiWrite src addr value s) := by
  unfold execPairHiWrite
  refine keepsRes_done _ _ ?_
  simp only [kept_busWrite]

theorem kept_execIntForce (src : Source) (addr : Nat) (value : Word32) (s : State) :
    KeepsRes s (execIntForce src addr value s) := by
  unfold execIntForce
  refine keepsRes_done _ _ ?_
  simp only [kept_busWrite]

theorem kept_execLock (src : Source) (addr : Nat) (s : State) :
    KeepsRes s (execLock src addr s) := by
  unfold execLock
  refine keepsRes_done _ _ ?_
  simp only [kept_busWrite]

theorem settled_execResume (src : Source) (addr : Nat) (mismatch : Bool) (s : State) :
    KeepsSettled s (execResume src addr mismatch s) := by
  unfold execResume
  refine keepsSettled_done _ _ ?_
  (repeat' split) <;> first
    | with_reducible rfl
    | simp only [implies_true, settled_guarded, settled_resumePage]

theorem settled_execDiscardStaged (src : Source) (addr : Nat) (s : State) :
    KeepsSettled s (execDiscardStaged src addr s) := by
  unfold execDiscardStaged
  refine keepsSettled_done _ _ ?_
  (repeat' split) <;> first
    | with_reducible rfl
    | simp only [implies_true, settled_guarded, settled_discardStaged]

theorem kept_execRegWrite (tag index : Nat) (value : Word32) (s : State) :
    KeepsRes s (execRegWrite tag index value s) := by
  unfold execRegWrite
  refine keepsRes_done _ _ ?_
  simp only [kept_snd_ite, settled_refuses, kept_busWrite, ite_self, implies_true, kept_tableCommand]

/-! ### Seq -/

theorem kept_applyWrite (s : State) (w : SeqWrite) :
    lastingOf (settled (applyWrite s w)) = lastingOf (settled s) := by
  unfold applyWrite
  split <;> first
    | with_reducible rfl
    | simp only [kept_setG, kept_setMacroFlags, kept_ramWrite, kept_busWrite, kept_tableWrite, settled_emit]

theorem kept_archWrite (s : State) (r : Routine) (w : SeqWrite) {z : State × Routine} (hz : archWrite s r w = some z) :
    lastingOf (settled z.1) = lastingOf (settled s) := by
  unfold archWrite at hz
  split at hz
  · split at hz
    · cases hz
    · cases hz; rfl
  · cases hz; exact kept_applyWrite _ _

theorem kept_assign (s : State) (r : Routine) (k : Nat) (v : BitVec 64) {z : State × Routine} (hz : assign s r k v = some z) :
    lastingOf (settled z.1) = lastingOf (settled s) := by
  unfold assign at hz
  repeat' split at hz
  all_goals first | exact kept_archWrite _ _ _ hz | (cases hz; rfl)

theorem kept_openFlags (s : State) (x : AluResult) :
    lastingOf (settled ((openFlags s x).2.2)) = lastingOf (settled s) := by
  simp only [openFlags, kept_ite, settled_drawn, ite_self]

theorem kept_setFlags (s : State) (r : Routine) (m : Micro) (x : AluResult) :
    lastingOf (settled ((setFlags s r m x).1)) = lastingOf (settled s) := by
  unfold setFlags
  split
  · rfl
  · dsimp only
    split
    · split
      · rename_i h; exact (kept_archWrite _ _ _ h).trans (kept_openFlags _ _)
      · exact kept_openFlags _ _
    · exact kept_openFlags _ _

theorem kept_yieldTo (s : State) (r : Routine) (m : Micro) (k : Nat) (x : AluResult) :
    lastingOf (settled ((yieldTo s r m k x).1)) = lastingOf (settled s) := by
  unfold yieldTo
  split
  · rename_i h; exact (kept_setFlags _ _ _ _).trans (kept_assign _ _ _ _ h)
  · rfl

theorem kept_store (s : State) (r : Routine) (w : SeqWrite) :
    lastingOf (settled ((store s r w).1)) = lastingOf (settled s) := by
  unfold store
  split
  · rename_i h; exact kept_archWrite _ _ _ h
  · rfl

theorem kept_dldWord (s : State) (r : Routine) (m : Micro) :
    lastingOf (settled ((dldWord s r m).1)) = lastingOf (settled s) := by
  simp only [dldWord, kept_fst_ite, kept_setFlags, ite_self]

theorem kept_rrdWord (s : State) (r : Routine) (m : Micro) :
    lastingOf (settled ((rrdWord s r m).1)) = lastingOf (settled s) := by
  simp only [rrdWord, kept_fst_ite]
  (repeat' split) <;> first
    | with_reducible rfl
    | simp only [kept_setFlags, kept_readAt]

theorem kept_trdWord (s : State) (r : Routine) (m : Micro) :
    lastingOf (settled ((trdWord s r m).1)) = lastingOf (settled s) := by
  simp only [trdWord, kept_fst_ite, settled_wakeTable, ite_self]

theorem kept_twrWord (s : State) (r : Routine) (m : Micro) :
    lastingOf (settled ((twrWord s r m).1)) = lastingOf (settled s) := by
  simp only [twrWord, kept_fst_ite, kept_store, ite_self]

theorem kept_dmaWord (s : State) (r : Routine) (m : Micro) :
    lastingOf (settled ((dmaWord s r m).1)) = lastingOf (settled s) := by
  simp only [dmaWord, kept_fst_ite, kept_store, ite_self]

theorem kept_commitWord (s : State) (r : Routine) :
    lastingOf (settled ((commitWord s r).1)) = lastingOf (settled s) := by
  simp only [commitWord, kept_fst_ite, kept_applyWrite, implies_true, kept_foldl, ite_self]

theorem kept_wordEffect (s : State) (r : Routine) (u : Nat) (m : Micro) (idle : Bool) :
    lastingOf (settled ((wordEffect s r u m idle).1)) = lastingOf (settled s) := by
  unfold wordEffect
  split <;> first
    | with_reducible rfl
    | simp only [kept_yieldTo, kept_dldWord, kept_fst_ite, kept_store, ite_self, kept_rrdWord, kept_trdWord, kept_twrWord,
          kept_dmaWord, kept_commitWord]

theorem kept_endMacro (s : State) (pc : Nat) :
    lastingOf (settled (endMacro s pc)) = lastingOf (settled s) := by
  simp only [endMacro, kept_ite, kept_endTask, kept_mk, kept_fold, ite_self]

theorem kept_stepRoutine (s : State) (old r : Routine) (n : Int) :
    lastingOf (settled (stepRoutine s old r n)) = lastingOf (settled s) := by
  simp only [stepRoutine, kept_ite, kept_deliverFault, kept_mk, kept_fold, ite_self]

theorem kept_runWord (s : State) (r : Routine) (u : Nat) (m : Micro) (idle : Bool) :
    lastingOf (settled (runWord s r u m idle)) = lastingOf (settled s) := by
  simp only [runWord]
  (repeat' split) <;> first
    | with_reducible rfl
    | simp only [kept_deliverFault, kept_stepRoutine, kept_wordEffect, kept_endMacro]

theorem kept_microRow (u : Nat) (m : Micro) (idle : Bool) (s : State) :
    lastingOf (settled (microRow u m idle s)) = lastingOf (settled s) := by
  unfold microRow
  split <;> first
    | with_reducible rfl
    | simp only [kept_ite, kept_runWord, ite_self]

theorem kept_dispatch (s : State) :
    lastingOf (settled (dispatch s)) = lastingOf (settled s) := by
  simp only [dispatch]
  (repeat' split) <;> first
    | with_reducible rfl
    | simp only [kept_deliverFault, kept_mk, kept_fold, settled_drawn]

theorem kept_macroRow (word : Nat) (s : State) (act : State → State) (h_act : ∀ x0, lastingOf (settled (act x0)) = lastingOf (settled x0)) :
    lastingOf (settled (macroRow word s act)) = lastingOf (settled s) := by
  unfold macroRow
  (repeat' split) <;> first
    | with_reducible rfl
    | simp only [kept_deliverFault, h_act]

theorem kept_macroResult (s : State) (d : Nat) (x : AluResult) :
    lastingOf (settled (macroResult s d x)) = lastingOf (settled s) := by
  simp only [macroResult, kept_endMacro, kept_setMacroFlags, kept_setG, kept_openFlags]

theorem kept_haltTask (s : State) :
    lastingOf (settled (haltTask s)) = lastingOf (settled s) := by
  simp only [haltTask, kept_ite, kept_endTask, settled_wr, kept_endMacro, settled_setFld, ite_self]

theorem kept_runRoutine (y0 : Nat) (y1 : State) :
    lastingOf (settled (runRoutine y0 y1)) = lastingOf (settled y1) := by
  fun_induction runRoutine y0 y1 <;> first
    | rfl
    | (simp only [*, kept_runWord]; done)
    | simp_all only [kept_mk, kept_fold, kept_ite, kept_snd_ite, kept_snd2_ite, kept_fst_ite, ite_self, kept_foldl,
          kept_foldl_snd, implies_true, kept_runWord]

theorem kept_runCustomer (s : State) :
    lastingOf (settled (runCustomer s)) = lastingOf (settled s) := by
  simp only [runCustomer, kept_ite, kept_runRoutine, kept_dispatch, ite_self]

theorem kept_restartRoutine (s : State) (r : Routine) :
    lastingOf (settled (restartRoutine s r)) = lastingOf (settled s) := by
  simp only [restartRoutine, kept_mk, kept_fold, settled_drawn, settled_count]

theorem kept_interrupt (s : State) :
    lastingOf (settled (interrupt s)) = lastingOf (settled s) := by
  unfold interrupt
  (repeat' split) <;> first
    | with_reducible rfl
    | simp only [settled_setFld, kept_mk, kept_fold, kept_restartRoutine]

theorem kept_issued (s : State) (r : Routine) :
    lastingOf (settled (issued s r)) = lastingOf (settled s) := by
  simp only [issued, kept_wordEffect, kept_ite, kept_mk, kept_fold, ite_self]

theorem kept_timeOut (s : State) :
    lastingOf (settled (timeOut s)) = lastingOf (settled s) := by
  unfold timeOut
  (repeat' split) <;> first
    | with_reducible rfl
    | simp only [kept_issued, kept_restartRoutine, kept_deliverFault, kept_ite, kept_mk, kept_fold, ite_self]

theorem kept_invalidateCustomer (s : State) :
    lastingOf (settled (invalidateCustomer s)) = lastingOf (settled s) := by
  simp only [invalidateCustomer, settled_setFlag, kept_mk, kept_fold]

theorem kept_installMicrocode (s : State) (version : Nat) (entries words : List Word32) :
    lastingOf (settled (installMicrocode s version entries words)) = lastingOf (settled s) := by
  simp only [installMicrocode, settled_raise, settled_setFld, settled_setFlag, kept_mk, kept_fold, kept_invalidateCustomer]

theorem kept_loadMicrocode (s : State) (image : ImageCheck) (version : Nat) (entries words : List Word32) :
    lastingOf (settled (loadMicrocode s image version entries words)) = lastingOf (settled s) := by
  simp only [loadMicrocode, settled_setFld, settled_emit, kept_installMicrocode, kept_ite, ite_self]

theorem kept_seqEcc (s : State) (dataRam : Bool) (a : Nat) (correctable : Bool) :
    lastingOf (settled (seqEcc s dataRam a correctable)) = lastingOf (settled s) := by
  simp only [seqEcc, kept_ite, settled_report, settled_tally, kept_fatalError, kept_deliverFault, kept_invalidateCustomer, ite_self]

theorem kept_execRostalInstruction (s : State) :
    KeepsRes s (execRostalInstruction s) := by
  unfold execRostalInstruction
  refine keepsRes_done _ _ ?_
  simp only [kept_ite, kept_dispatch, ite_self]

theorem kept_execMov (rd_ ra : Fin 32) (s : State) :
    KeepsRes s (execMov rd_ ra s) := by
  unfold execMov
  refine keepsRes_done _ _ ?_
  simp only [kept_macroResult, implies_true, kept_macroRow]

theorem kept_execSub (rd_ ra rb : Fin 32) (s : State) :
    KeepsRes s (execSub rd_ ra rb s) := by
  unfold execSub
  refine keepsRes_done _ _ ?_
  simp only [kept_macroResult, implies_true, kept_macroRow]

theorem kept_execLdi (rd_ : Fin 32) (imm : BitVec 14) (s : State) :
    KeepsRes s (execLdi rd_ imm s) := by
  unfold execLdi
  refine keepsRes_done _ _ ?_
  simp only [kept_macroResult, implies_true, kept_macroRow]

theorem kept_execBnz (offset : BitVec 24) (s : State) :
    KeepsRes s (execBnz offset s) := by
  unfold execBnz
  refine keepsRes_done _ _ ?_
  simp only [kept_endMacro, implies_true, kept_macroRow]

theorem kept_execHalt (s : State) :
    KeepsRes s (execHalt s) := by
  unfold execHalt
  refine keepsRes_done _ _ ?_
  simp only [kept_haltTask, implies_true, kept_macroRow]

theorem kept_execCustomerInstruction (s : State) :
    KeepsRes s (execCustomerInstruction s) := by
  unfold execCustomerInstruction
  refine keepsRes_done _ _ ?_
  simp only [kept_runCustomer]

theorem kept_execUopNop (m : Micro) (s : State) :
    KeepsRes s (execUopNop m s) := by
  unfold execUopNop
  refine keepsRes_done _ _ ?_
  simp only [kept_microRow]

theorem kept_execUopMov (m : Micro) (s : State) :
    KeepsRes s (execUopMov m s) := by
  unfold execUopMov
  refine keepsRes_done _ _ ?_
  simp only [kept_microRow]

theorem kept_execUopAlu (op : AluOp) (m : Micro) (s : State) :
    KeepsRes s (execUopAlu op m s) := by
  unfold execUopAlu
  refine keepsRes_done _ _ ?_
  simp only [kept_microRow]

theorem kept_execUopShift (right : Bool) (m : Micro) (s : State) :
    KeepsRes s (execUopShift right m s) := by
  unfold execUopShift
  refine keepsRes_done _ _ ?_
  simp only [kept_microRow]

theorem kept_execUopAddi (m : Micro) (s : State) :
    KeepsRes s (execUopAddi m s) := by
  unfold execUopAddi
  refine keepsRes_done _ _ ?_
  simp only [kept_microRow]

theorem kept_execUopLdi (m : Micro) (s : State) :
    KeepsRes s (execUopLdi m s) := by
  unfold execUopLdi
  refine keepsRes_done _ _ ?_
  simp only [kept_microRow]

theorem kept_execUopBranch (op : BranchOp) (m : Micro) (s : State) :
    KeepsRes s (execUopBranch op m s) := by
  unfold execUopBranch
  refine keepsRes_done _ _ ?_
  simp only [kept_microRow]

theorem kept_execJmpt (m : Micro) (s : State) :
    KeepsRes s (execJmpt m s) := by
  unfold execJmpt
  refine keepsRes_done _ _ ?_
  simp only [kept_microRow]

theorem kept_execUopLoop (m : Micro) (s : State) :
    KeepsRes s (execUopLoop m s) := by
  unfold execUopLoop
  refine keepsRes_done _ _ ?_
  simp only [kept_microRow]

theorem kept_execDld (m : Micro) (s : State) :
    KeepsRes s (execDld m s) := by
  unfold execDld
  refine keepsRes_done _ _ ?_
  simp only [kept_microRow]

theorem kept_execDst (m : Micro) (s : State) :
    KeepsRes s (execDst m s) := by
  unfold execDst
  refine keepsRes_done _ _ ?_
  simp only [kept_microRow]

theorem kept_execRrd (m : Micro) (s : State) :
    KeepsRes s (execRrd m s) := by
  unfold execRrd
  refine keepsRes_done _ _ ?_
  simp only [kept_microRow]

theorem kept_execRwr (m : Micro) (s : State) :
    KeepsRes s (execRwr m s) := by
  unfold execRwr
  refine keepsRes_done _ _ ?_
  simp only [kept_microRow]

theorem kept_execTrd (m : Micro) (s : State) :
    KeepsRes s (execTrd m s) := by
  unfold execTrd
  refine keepsRes_done _ _ ?_
  simp only [kept_microRow]

theorem kept_execTwr (m : Micro) (s : State) :
    KeepsRes s (execTwr m s) := by
  unfold execTwr
  refine keepsRes_done _ _ ?_
  simp only [kept_microRow]

theorem kept_execUopDma (m : Micro) (s : State) :
    KeepsRes s (execUopDma m s) := by
  unfold execUopDma
  refine keepsRes_done _ _ ?_
  simp only [kept_microRow]

theorem kept_execPoll (m : Micro) (idle : Bool) (s : State) :
    KeepsRes s (execPoll m idle s) := by
  unfold execPoll
  refine keepsRes_done _ _ ?_
  simp only [kept_microRow]

theorem kept_execCommit (m : Micro) (s : State) :
    KeepsRes s (execCommit m s) := by
  unfold execCommit
  refine keepsRes_done _ _ ?_
  simp only [kept_microRow]

theorem kept_execUopEnd (m : Micro) (s : State) :
    KeepsRes s (execUopEnd m s) := by
  unfold execUopEnd
  refine keepsRes_done _ _ ?_
  simp only [kept_microRow]

theorem kept_execFault (m : Micro) (s : State) :
    KeepsRes s (execFault m s) := by
  unfold execFault
  refine keepsRes_done _ _ ?_
  simp only [kept_microRow]

theorem kept_execWaitTimeout (s : State) :
    KeepsRes s (execWaitTimeout s) := by
  unfold execWaitTimeout
  refine keepsRes_done _ _ ?_
  simp only [kept_timeOut]

theorem kept_execSeqInterrupt (s : State) :
    KeepsRes s (execSeqInterrupt s) := by
  unfold execSeqInterrupt
  refine keepsRes_done _ _ ?_
  simp only [kept_interrupt]

theorem kept_execMicroFault (cause : Fin 16) (s : State) :
    KeepsRes s (execMicroFault cause s) := by
  unfold execMicroFault
  refine keepsRes_done _ _ ?_
  simp only [kept_ite, kept_deliverFault, ite_self]

theorem kept_execUcodeLoad (src : Source) (image : ImageCheck) (version : BitVec 16) (entries words : List Word32) (s : State) :
    KeepsRes s (execUcodeLoad src image version entries words s) := by
  unfold execUcodeLoad
  refine keepsRes_sized _ _ _ ?_
  simp only [kept_loadMicrocode, implies_true, kept_guarded]

theorem kept_execSeqEccError (dataRam : Bool) (addr : Nat) (correctable : Bool) (s : State) :
    KeepsRes s (execSeqEccError dataRam addr correctable s) := by
  unfold execSeqEccError
  refine keepsRes_done _ _ ?_
  simp only [kept_seqEcc]

/-! ### Ecc -/

theorem kept_invalidateEntry (s : State) (t i : Nat) :
    lastingOf (settled (invalidateEntry s t i)) = lastingOf (settled s) := by
  simp only [invalidateEntry, kept_ite, kept_mk, kept_fold, ite_self]

theorem kept_reportEntry (s : State) (t i : Nat) :
    lastingOf (settled (reportEntry s t i)) = lastingOf (settled s) := by
  simp only [reportEntry, settled_report, settled_raise, settled_tally]

theorem kept_entryEcc (s : State) (t i : Nat) :
    lastingOf (settled (entryEcc s t i)) = lastingOf (settled s) := by
  simp only [entryEcc, kept_reportEntry, settled_learnEvent, settled_fdbRemove, settled_loseSync, kept_writePolicer,
      kept_invalidateEntry, kept_ite, ite_self]

theorem kept_correctedEcc (s : State) (p : Page) (detail : List Nat) :
    lastingOf (settled (correctedEcc s p detail)) = lastingOf (settled s) := by
  simp only [correctedEcc, settled_report]

theorem kept_leafEcc (s : State) (l : Nat) :
    lastingOf (settled (leafEcc s l)) = lastingOf (settled s) := by
  unfold leafEcc
  repeat' (first
    | with_reducible rfl
    | (intro _ _)
    | (refine (kept_foldl _ ?_ _ _).trans ?_)
    | (refine (kept_foldl_snd _ ?_ _ _).trans ?_)
    | (simp only [settled_setFrame, settled_report]; done)
    | (simp only)
    | split)

theorem kept_descriptorEcc (s : State) (q : Nat) :
    lastingOf (settled (descriptorEcc s q)) = lastingOf (settled s) := by
  simp only [descriptorEcc, settled_report, settled_flushQueue, settled_setQueue, settled_raise, kept_ite, ite_self]

theorem kept_schedEcc (s : State) (i : Nat) :
    lastingOf (settled (schedEcc s i)) = lastingOf (settled s) := by
  simp only [schedEcc, settled_report, settled_setBucketA, settled_setBucketB, kept_ite, kept_mk, kept_fold, ite_self]

theorem kept_counterEcc (s : State) (i : Nat) :
    lastingOf (settled (counterEcc s i)) = lastingOf (settled s) := by
  simp only [counterEcc, kept_setCounter, settled_report]

theorem kept_eccError (s : State) (t i : Nat) :
    lastingOf (settled (eccError s t i)) = lastingOf (settled s) := by
  unfold eccError
  (repeat' split) <;> first
    | with_reducible rfl
    | simp only [kept_schedEcc, kept_counterEcc, kept_entryEcc, kept_correctedEcc, kept_leafEcc, kept_descriptorEcc]

theorem kept_execTableEntryEcc (table index : Nat) (s : State) :
    KeepsRes s (execTableEntryEcc table index s) := by
  unfold execTableEntryEcc
  refine keepsRes_done _ _ ?_
  simp only [kept_eccError]

/-! ### Tick -/

theorem kept_correctTime (s : State) :
    lastingOf (settled (correctTime s)) = lastingOf (settled s) := by
  unfold correctTime
  dsimp only
  (repeat' split) <;> first
    | with_reducible rfl
    | simp only [kept_slewTick, kept_stepTime]

theorem kept_endStall (s : State) :
    lastingOf (settled (endStall s)) = lastingOf (settled s) := by
  unfold endStall
  (repeat' split) <;> first
    | with_reducible rfl
    | simp only [settled_drainFifo, kept_ite, kept_mk, kept_fold, kept_foldl, implies_true, ite_self]

theorem kept_busyTime (s : State) :
    lastingOf (settled (busyTime s)) = lastingOf (settled s) := by
  unfold busyTime
  repeat' (first
    | with_reducible rfl
    | (intro _ _)
    | (refine (kept_foldl _ ?_ _ _).trans ?_)
    | (refine (kept_foldl_snd _ ?_ _ _).trans ?_)
    | (simp only [settled_touchSlice]; done)
    | (simp only [settled_touchSlice])
    | split)

theorem kept_timers (s : State) :
    lastingOf (settled (timers s)) = lastingOf (settled s) := by
  simp only [timers, kept_tevEnd, kept_kettleBound, kept_endStall, kept_flushStep, settled_ploughSwap, kept_busyTime, kept_cxlTick,
      kept_foldl, implies_true]

theorem kept_tick (s : State) :
    lastingOf (settled (tick s)) = lastingOf (settled s) := by
  simp only [tick, kept_timers, kept_advance, kept_correctTime, kept_ite, ite_self]

end Sys2Proof.Machine
end

