-- ==== Sys2Proof/Laws/Memory.lean ====
section
/-! SUPPORT. Every operation on the sequencer's data RAM keeps its canonical form. -/

namespace Sys2Proof.Machine

/-- A store to the data RAM keeps its canonical form. -/
theorem ramWrite_wf (s : State) (a n v : Nat) (w : Memory.wf s.seq.ram = true) : Memory.wf (ramWrite s a n v).seq.ram = true :=
  swf_foldl _ (fun i => (a + i) % 2 ^ 20) (fun _ i => BitVec.ofNat 8 (v / 256 ^ i)) (List.range n) s.seq.ram w

@[simp] theorem accessFault_seq (s : State) (src : Source) (a cause : Nat) : (accessFault s src a cause).seq = s.seq := by
  unfold accessFault; dsimp only; split
  · rfl
  · rw [raise_seq, wr_seq]

/-- A store through SEQ_DRAM_DATA keeps the canonical form. -/
theorem dramWrite_wf (s : State) (src : Source) (v : Nat) (w : Memory.wf s.seq.ram = true) :
    Memory.wf (dramWrite s src v).seq.ram = true := by
  unfold dramWrite
  split
  · rw [dramNext, setFld_seq]; exact ramWrite_wf s _ 4 v w
  · have h : (dramNext (accessFault s src 0x8078 5)).seq = s.seq := by simp only [dramNext, accessFault_seq, setFld_seq]
    rw [h]; exact w

/-- The data RAM after reset lists nothing, so it has the canonical form. -/
theorem reset_ram_wf : Memory.wf State.reset.seq.ram = true := by decide

end Sys2Proof.Machine
end

