-- ==== Sys2Proof/Tests/Slice0.lean ====
section
/-! SUPPORT. The author's own tests: terms that WellFormed refuses, the worked examples of the spec on single operations, and for every clause
of a statement that has hypotheses a concrete state and operands that meet all of them together. -/

set_option Elab.async false

open Sys2Proof Sys2Proof.Machine

/-- The state after reset with every supply in range. -/
def powered : State := { State.reset with startup := { aonUp := true, railsUp := true, island := true } }

/-! ### Well-formedness and decoding -/

/-- One term for each check of WellFormed that the check refuses. -/
theorem test_illFormed_terms_are_refused :
    ([.claimAssert [], .claimConfirm [] false, .egressAllowed [], .thermalSample [], .selftestEye [], .heartbeat 0 [] 0 0,
      .delta 0 false 0 [], .endRecord 0 false [], .mailboxRecord 0 0 [], .health 0 [], .bulk 0 0 [],
      .ucodeLoad .pf0 ⟨true, true, 0, 0⟩ 0 [] [], .ownerEnrol .pf0 true true [], .debugToken .pf0 ⟨true, true, 0, 0⟩ 0 [],
      .firmwareBoot ⟨true, true, 0, 0⟩ 0 0 [] [] 0, .write 0 0 0 2 [0] true, .qspiDone true [], .shadowVisit (some [0, 0]),
      .registerWrite .pf0 (2 ^ 26) 4 0 true, .pairLoRead .pf0 (2 ^ 26), .pairHiRead .pf0 (2 ^ 26), .pairLoWrite .pf0 (2 ^ 26) 0,
      .pairHiWrite .pf0 (2 ^ 26) 0, .intForce .pf0 (2 ^ 26) 0, .lock .pf0 (2 ^ 26), .resume .pf0 (2 ^ 26) false,
      .discardStaged .pf0 (2 ^ 26), .tableWindowRead .pf0 (2 ^ 26)] : List Instr).all (fun i => !i.wellFormed) = true := by decide

/-- Terms at the edge of each kind of check that it accepts. -/
theorem test_wellFormed_terms_are_accepted :
    ([.claimAssert (List.replicate 50 false), .thermalSample (List.replicate 16 0), .write 0 0 0 0 [0] true, .shadowVisit none,
      .shadowVisit (some [0, 0, 0]), .lock .pf0 (2 ^ 26 - 4)] : List Instr).all Instr.wellFormed = true := by decide

/-- A list of the wrong size is the model's one fault. -/
theorem test_wrong_size_faults : exec (.thermalSample []) State.reset = .fault .illFormed := rfl

/-- No word spells a command: the table gives no row any bits. -/
theorem test_no_word_decodes : decodeTableWord 32 0xFFFFFFFF = none := by decide

/-! ### The spec's worked examples -/

/-- The rewritten entry of policer 4,100 in the example of R122: two-rate, RED_DROP, RATE_A 0xC350, RATE_B 0x186A0, SIZE_A 0x2EE0, SIZE_B
0x5DC0. -/
def policer4100 : Nat := 2 ^ 127 + 2 ^ 125 + 2 ^ 122 + 0xC350 * 2 ^ 91 + 0x186A0 * 2 ^ 60 + 0x2EE0 * 2 ^ 35 + 0x5DC0 * 2 ^ 10

/-- A byte in the units of a policer bucket. -/
def creditByte : Int := policerSize 1

/-- Five refills between frames add 8 bytes to A and 16 bytes to B (the example of chapter 6). -/
theorem test_policer_refill_example :
    (List.range 5).foldl (fun v _ => refillBuckets policer4100 v.1 v.2) (0, 0) = (8 * creditByte, 16 * creditByte) := by decide +kernel

/-- Steps 1, 2, 4 and 5 of that example: frames 0, 7, 15 and 18. -/
theorem test_policer_colour_example :
    meterColour policer4100 (12000 * creditByte) (24000 * creditByte) (1518 * creditByte) 0 = (0, true, true) ∧
    meterColour policer4100 (1430 * creditByte) (13486 * creditByte) (1518 * creditByte) 0 = (1, false, true) ∧
    meterColour policer4100 (1494 * creditByte) (1470 * creditByte) (1518 * creditByte) 0 = (2, false, false) ∧
    meterColour policer4100 (1518 * creditByte) (1518 * creditByte) (1518 * creditByte) 0 = (0, true, true) := by decide +kernel

/-- The gate list accepted at 100,925,000 ns changes at 101,000,000 ns with PAST_CYCLES 4 (the example of R223). -/
theorem test_gate_change_time_example :
    changeTime 5000100000000 250000 5000100925000 = (5000101000000, 4) := by decide +kernel

/-- The three cases of the example of R240: where the cycle in progress ends after a step that reaches d₁, and the next cycle's number. The
cycle began `lived` ns before the step. -/
def rephased (lived d1 : Nat) : Nat × Nat :=
  let s := rephase { State.reset with clock := {
    steady := lived, cycleStart := 0, dev := (7000000000 + d1) * 2 ^ 40, cycleEnd := 7010125000, cycleNumber := 56080 } }
  (s.clock.cycleEnd, rd s 0x4084)

theorem test_rephase_example :
    rephased 100000 10048000 = (7010125000, 56081) ∧ rephased 120000 10124000 = (7010125000, 56081) ∧
    rephased 30000 10120000 = (7010250000, 56082) := by decide +kernel

/-- The eight candidate slots of the example of R101: slot, STATIC, LOCK and AGE. -/
def evictionTable : List (Nat × Bool × Bool × Nat) :=
  [(0x068AC, true, false, 0), (0x068AD, false, true, 149), (0x068AE, false, false, 140), (0x068AF, false, false, 3),
   (0x43004, false, false, 12), (0x43005, false, false, 140), (0x43006, true, false, 0), (0x43007, false, false, 77)]

/-- Slot 0x0_68AE is evicted: the largest AGE that may go, and the lower of two equal slots. -/
theorem test_eviction_example :
    fdbVictim (evictionTable.foldl (fun s e => setTab s 0x02 e.1 (BitVec.ofNat 512
      (2 ^ 127 + bit e.2.1 * 2 ^ 126 + bit e.2.2.1 * 2 ^ 125 + e.2.2.2 * 2 ^ 40))) State.reset) (evictionTable.map (·.1)) = some 0x068AE := by
  decide +kernel

/-- The shaper of the example of R215: +1,000 bytes from 57,846, capped at the new burst of 16 KiB. -/
theorem test_shaper_refill_example :
    refillOne true true 1000000 8000 (burstUnits 0x1007) (57846 * 2 ^ 20) = 16384 * 2 ^ 20 ∧
    refillOne true true 1000000 8000 (burstUnits 0x1007) (-534 * 2 ^ 20) = 466 * 2 ^ 20 := by decide +kernel

/-- Node 1,234's counter slot 70 holds queue 9,879's counters from index 367,946 (the example of R314): class 7 at 48 × 70 + 42. -/
theorem test_counter_region_example : region 367946 = 7 ∧ region 364543 = 6 := by decide +kernel

/-- The header 0x1102_3100 of the example of chapter 18 names PROFILE_SET; posted before a sender reset, it is answered STALE_SENDER with
its epoch 0x07 as DETAIL. -/
theorem test_stale_sender_example : checkCommand State.reset 1 [0x11023107, 3] = some (0xB, 7) := by decide +kernel

/-- A commit of epoch 1 is taken from reset, and one of epoch 2 is an access fault (R37). -/
theorem test_commit_wants_next_epoch :
    (match exec (.sysCommitGo .pf0 1) powered with | .next t => t.commit.isSome | _ => false) = true ∧
    (match exec (.sysCommitGo .pf0 2) powered with | .next t => t.commit.isNone && flag t 0x10 31 | _ => false) = true := by
  decide +kernel

/-- A write that is not 32 bits wide is dropped and raises ACCESS_FAULT (R27, R31). -/
theorem test_narrow_write_is_dropped :
    (match exec (.registerWrite .pf0 0x3040 2 0xFFFF true) powered with
      | .next t => flag t 0x3010 31 && rd t 0x3040 == rd State.reset 0x3040 | _ => false) = true := by decide +kernel

/-- The watchdog's kick word restarts it, and any other word does not (R288). -/
theorem test_watchdog_kick :
    (match exec (.wdKick .pf0 0xC0DE) powered with | .next t => t.power.watchdog == some 1000000000 | _ => false) = true ∧
    (match exec (.wdKick .pf0 0xC0DF) powered with | .next t => t.power.watchdog == none | _ => false) = true := by decide +kernel

/-! ### Witnesses: states that meet the hypotheses of the statements -/

/-- The supplied device with the register words of `l`. -/
def withWords (l : List (Nat × Nat)) : State := l.foldl (fun s w => wr s w.1 w.2) powered

/-- A state in which port 0 is UP, with register words beside. -/
def upState (l : List (Nat × Nat)) : State := withWords ((0x20004C, 2 * 2 ^ 29) :: (0x604C, 2 ^ 25 + 3 * 2 ^ 29) :: l)

/-- A frame that has ended. -/
def someFrame : Frame := { bytes := List.replicate 64 0, ended := true, refs := [1], charge := 1, metered := 64 }

/-- The copy of frame 0 in queue 0. -/
def someCopy : Copy := { frame := 0 }

/-- A claiming twin in role `r`. -/
def claimer (r : Nat) : State := withWords [(0x604C, r * 2 ^ 29 + 2 ^ 28)]

/-- Kettle in state `k`. -/
def kettleIn (k : Nat) : State := withWords [(0x6050, k * 2 ^ 29)]

/-- Firmware that holds the command of words `ws` on channel 0. -/
def withCommand (ws : List Nat) (s : State) : State :=
  { s with firmware := { s.firmware with running := true, commands := [{ channel := 0, words := ws }] } }

/-- That command. -/
def held (ws : List Nat) : FwCommand := { channel := 0, words := ws }

/-- A sequencer that runs, out of reset. -/
def seqOn : State := withWords [(0x8040, 0)]

/-- The sheet of serial 0 of queue 0. -/
def someSheet : Sheet :=
  { port := 0, pool := 0, address := 0, owner := 0, serial := 0, first := 0, last := 1, blocks := 2, oldest := 0, keyEpoch := 0, records := [] }

/-- A routine at the entry `e`, in RESTART mode or not. -/
def routineAt (e : Nat) (restart : Bool) : Routine := { entry := e, upc := e, word := 0, opcode := 0x01, restart := restart }

/-- A sequencer that runs it. -/
def running (r : Routine) : State := { seqOn with firmware := { running := true }, seq := { routine := some r } }

/-- A command of ring 7 is ready. -/
def ready : State :=
  { withWords [(0xC128, 2 ^ 31), (0xC130, 32)] with host := { inReset := false, linkUp := true, d0 := true, busMaster := true } }

/-- A command of ring 7 is ready on an ACTIVE device. -/
def readyActive : State := setFld ready 0x604C 31 29 3

/-- An empty VLAN map holds no key, wherever its hash would place it (R71). -/
theorem empty_map (key : Nat) : mapSlot (advanceHead ready 135 32) key = none := by
  refine List.find?_eq_none.2 fun i hi => ?_
  have hi : i < 2 ^ 20 := by
    obtain ⟨k, hk, rfl⟩ := List.mem_map.1 hi
    have := List.mem_range.1 hk
    omega
  have h : tabN (advanceHead ready 135 32) 6 i = 0 := by
    have e : tkey 6 i / 2 ^ 20 = 6 := by unfold tkey; omega
    show (resetImage (tkey 6 i)).toNat = 0
    unfold resetImage
    simp only [e]
    exact BitVec.toNat_zero
  rw [h]
  simp [bitAt]

/-- A context whose batch waits for a sheet, with an index block. -/
def waitingCtx : SpillCtx := { waiting := some [], indexBlocks := [{ copies := [(0, 0, 0)], entries := 0, serial := 0 }] }

/-- A routine whose temporaries are all written. -/
def written (restart : Bool) : Routine := { routineAt 0 restart with temps := List.replicate 16 (some 0) }

/-- A walk of the FDB flush that has passed the last slot. -/
def flushJob (tag channel : Option Nat) : FlushJob := { filter := 0, value := 0, static := false, slot := 524288, tag, channel }

/-- A device in which queue 0 of port 0 holds a copy of frame 0. -/
def oneCopy : State := setQueue (setFrame (upState []) 0 someFrame) 0 { head := [.copy someCopy] }

/-- A mirror copy of frame 0. -/
def mirrored : Copy := { frame := 0, kind := .mirrorTx 0 0 0 }

/-- That copy is selected for the express MAC. -/
def selectedOne : State := setPort oneCopy 0 { selected := some mirrored }

/-- The deficits after the schedulers have chosen queue 0 of `oneCopy`. -/
def pickedSched : Sched := ((pickQueue oneCopy 0 (contenders oneCopy 0 true (devNs oneCopy))).map (·.2)).getD {}

/-- Port 0 has sent a fragment of the copy and holds the rest. -/
def fragmentSent : State :=
  setPort (setFrame (upState []) 0 someFrame) 0 { txPreempt := some { copy := someCopy, suspended := true, fragments := 1, sent := 64 } }

/-- The slot in which the FDB of an empty device would place an address. -/
def placed (fid mac : Nat) : Nat := ((fdbPlace powered fid mac).map (·.1)).getD 0

/-- Slice 0 sleeps, queue 0 of its port 0 holds a copy, and the gate of class 0 opens in 500 ns. -/
def gateAhead (d : SleepState) : State :=
  { setPort oneCopy 0 { gate := { oper := some ⟨0, 1000, 0, [(0, 500), (255, 500)]⟩ } } with
    slices := [(0, { sleep := d })]
    regs := (withWords [(0x20004C, 2 * 2 ^ 29), (0x604C, 2 ^ 25 + 3 * 2 ^ 29), (0x201080, 2 ^ 31)]).regs }

/-- A customer's task at its instruction 0xE0, whose routine is an END. -/
def customerEnd : State :=
  { seqOn with firmware := { running := true }, seq := {
    ram := [(0xC0003, 224)], dispatch := [(224, 0xC0003000)], store := [(12288, BitVec.ofNat 32 (microBits 0x31 ⟨0, 0, 0, 0, false, false⟩))]
    pc := 0xC0000, task := true } }

/-! StepRunsTheFrontCommand -/

theorem witness_StepRunsTheFrontCommand_1 :
    ∃ (s : State) (c : Instr) (rest : List Instr), s.pending = c :: rest :=
  ⟨{ powered with pending := [.commitDone] }, .commitDone, [], by decide +kernel⟩

theorem witness_StepRunsTheFrontCommand_2 :
    ∃ (s : State), s.pending = [] :=
  ⟨powered, by decide +kernel⟩

theorem witness_StepRunsTheFrontCommand_3 :
    ∃ (s : State), s.pending = [] ∧ s.startup.aonUp = false :=
  ⟨State.reset, by decide +kernel⟩

theorem witness_StepRunsTheFrontCommand_4 :
    ∃ (s : State), s.pending = [] ∧ s.startup.aonUp = true ∧ TimersRest s :=
  ⟨powered, by decide +kernel⟩

theorem witness_StepRunsTheFrontCommand_5 :
    ∃ (c : Instr), c.wellFormed = true :=
  ⟨.commitDone, by decide +kernel⟩

theorem witness_StepRunsTheFrontCommand_6 :
    ∃ (s : State), QueueOk s :=
  ⟨powered, by simp [QueueOk, powered, State.reset]⟩

/-! StepsKeepQueueAndOtp -/

theorem witness_StepsKeepQueueAndOtp_1 :
    ∃ (s : State) (t : State), QueueOk s ∧ step s = .next t :=
  ⟨powered, tick powered, by simp [QueueOk, powered, State.reset], rfl⟩

/-! RegisterWriteActsByFieldType -/

theorem witness_RegisterWriteActsByFieldType_1 :
    ∃ (s : State) (src : Source) (a : Nat) (p : Page) (fs : List Machine.Field), Admitted s src a ∧ pageAt a = some p ∧ (p = .power ∨ p =
      .mirror ∨ p = .tracer ∨ ∃ k, p = .police k) ∧ 0x40 ≤ a % 0x1000 ∧ fieldsAt a = some fs ∧ pairRole p a = .single ∧ wideAt a = none :=
  ⟨powered, .pf0, 0x3040, .power, [stg 31 31, stg 30 30, stg 29 28, stg 27 26, stg 25 25, stg 24 24, stg 8 0], by decide +kernel,
    by decide +kernel, .inl rfl, by decide +kernel⟩

/-! FaultyWritesAreRecorded -/

theorem witness_FaultyWritesAreRecorded_1_1 :
    ∃ (s : State) (a : Nat) (size : Nat) (p : Page), pageAt a = some p ∧ heldInReset s p = false ∧ (size ≠ 4 ∨ a % 4 ≠ 0) :=
  ⟨powered, 0x3042, 4, .power, by decide +kernel⟩

theorem witness_FaultyWritesAreRecorded_1_2 :
    ∃ (s : State) (a : Nat) (p : Page), pageAt a = some p ∧ heldInReset s p = false ∧ a % 4 = 0 ∧ (windowAt a).isNone ∧ fieldsAt a = none
      :=
  ⟨powered, 0x3FFC, .power, by decide +kernel⟩

theorem witness_FaultyWritesAreRecorded_2 :
    ∃ (s : State) (a : Nat) (p : Page), a % 4 = 0 ∧ (windowAt a).isNone ∧ pageAt a = some p ∧ (fieldsAt a).isSome ∧ heldInReset s p = true
      :=
  ⟨State.reset, 0x3040, .power, by decide +kernel⟩

/-! PairsAndWindowsAreLatched -/

theorem witness_PairsAndWindowsAreLatched_1 :
    ∃ (s : State) (src : Source) (a : Nat) (p : Page), Readable s src a ∧ pageAt a = some p ∧ pairRole p a = .lo ∧ p ≠ .mailbox ∧ p ≠
      .sequencer ∧ p ≠ .timeEvents :=
  ⟨powered, .pf0, 0x4044, .time, by decide +kernel⟩

theorem witness_PairsAndWindowsAreLatched_2 :
    ∃ (s : State) (src : Source) (a : Nat) (p : Page), Readable s src a ∧ pageAt a = some p ∧ pairRole p a = .hi ∧ p ≠ .mailbox ∧ p ≠
      .sequencer ∧ p ≠ .timeEvents :=
  ⟨powered, .pf0, 0x4048, .time, by decide +kernel⟩

theorem witness_PairsAndWindowsAreLatched_3 :
    ∃ (s : State) (src : Source) (a : Nat) (p : Page), Admitted s src a ∧ pageAt a = some p ∧ pairRole p a = .lo ∧ (wideAt a).isNone :=
  ⟨powered, .pf0, 0x4044, .time, by decide +kernel⟩

theorem witness_PairsAndWindowsAreLatched_4 :
    ∃ (s : State) (src : Source) (a : Nat) (p : Page), Admitted s src a ∧ pageAt a = some p ∧ pairRole p a = .hi ∧ (wideAt a).isNone ∧ 0 <
      heldLo s src a :=
  ⟨{ powered with access := { held := [(sourceKey .pf0 0x4044, 1)] } }, .pf0, 0x4048, .time, by decide +kernel⟩

theorem witness_PairsAndWindowsAreLatched_5 :
    ∃ (s : State) (src : Source) (a : Nat) (w : Window) (e : Nat), a % 4 = 0 ∧ windowAt a = some (w, e, 0) ∧ mayRead s src a = true :=
  ⟨powered, .pf0, 0x01000000, ⟨0x01000000, 0x02, 16⟩, 0, by decide +kernel⟩

/-! HeaderRequestsAct -/

theorem witness_HeaderRequestsAct_1 :
    ∃ (s : State) (src : Source) (a : Nat), Admitted s src (inPage a 0x28) :=
  ⟨powered, .pf0, 0, by decide +kernel⟩

theorem witness_HeaderRequestsAct_2_1 :
    ∃ (s : State) (src : Source) (a : Nat) (v : Word32) (p : Page) (k : Nat), Admitted s src (inPage a 0x18) ∧ pageAt (inPage a 0x18) =
      some p ∧ k < 32 ∧ v.getLsbD k = true ∧ (k < 16 ∧ bitAt p.causes k = true ∨ k = 30 ∨ k = 31) :=
  ⟨powered, .pf0, 0x3000, 2 ^ 31, .power, 31, by decide +kernel⟩

theorem witness_HeaderRequestsAct_3 :
    ∃ (s : State) (src : Source) (a : Nat) (p : Page), Admitted s src (inPage a 0xC) ∧ pageAt a = some p ∧ flag s (p.at_ 0x20) 31 = false
      :=
  ⟨powered, .pf0, 0, .root, by decide +kernel⟩

theorem witness_HeaderRequestsAct_4 :
    ∃ (s : State) (src : Source) (a : Nat) (p : Page), Admitted s src (inPage a 0xC) ∧ pageAt a = some p :=
  ⟨powered, .pf0, 0, .root, by decide +kernel⟩

theorem witness_HeaderRequestsAct_5_2 :
    ∃ (s : State) (src : Source) (a : Nat) (p : Page) (b : Nat), Admitted s src (inPage a 0xC) ∧ pageAt a = some p ∧ b / 0x1000 = p.base /
      0x1000 ∧ b ≠ p.at_ 8 ∧ stagedMask b ≠ 0 :=
  ⟨powered, .pf0, 0x3000, .power, 0x3040, by decide +kernel⟩

/-! CommitsAdvanceTheEpoch -/

theorem witness_CommitsAdvanceTheEpoch_1_1 :
    ∃ (s : State) (src : Source) (e : BitVec 16) (a : Nat), Admitted s src 0x40 ∧ s.commit = none ∧ e.toNat = (currentEpoch s + 1) % 65536
      ∧ stagedMask a ≠ 0 :=
  ⟨powered, .pf0, 1, 0x3040, by decide +kernel⟩

theorem witness_CommitsAdvanceTheEpoch_2 :
    ∃ (s : State) (src : Source), Admitted s src 0x40 ∧ s.commit.isSome = true :=
  ⟨{ powered with commit := some {} }, .pf0, by decide +kernel⟩

theorem witness_CommitsAdvanceTheEpoch_3 :
    ∃ (s : State) (src : Source) (e : BitVec 16), Admitted s src 0x40 ∧ s.commit = none ∧ e.toNat ≠ (currentEpoch s + 1) % 65536 :=
  ⟨powered, .pf0, 0, by decide +kernel⟩

theorem witness_CommitsAdvanceTheEpoch_4 :
    ∃ (s : State) (i : Fin 8) (c : Commit), s.commit = some c ∧ i.val ∈ c.waiting :=
  ⟨{ powered with commit := some { waiting := [7] } }, 7, { waiting := [7] }, by decide +kernel⟩

theorem witness_CommitsAdvanceTheEpoch_5 :
    ∃ (s : State) (c : Commit), s.commit = some c ∧ c.waiting = [] ∧ oldFrames s = false :=
  ⟨{ powered with commit := some {} }, {}, by decide +kernel⟩

/-! FencesAndCyclesEndInTheirTime -/

theorem witness_FencesAndCyclesEndInTheirTime_1 :
    ∃ (s : State) (src : Source), Admitted s src 0x4C ∧ s.fence = none :=
  ⟨powered, .pf0, by decide +kernel⟩

theorem witness_FencesAndCyclesEndInTheirTime_2 :
    ∃ (s : State) (src : Source), Admitted s src 0x4C ∧ s.fence.isSome = true :=
  ⟨{ powered with fence := some ⟨0, true, 0⟩ }, .pf0, by decide +kernel⟩

theorem witness_FencesAndCyclesEndInTheirTime_3 :
    ∃ (s : State) (f : Fence), s.fence = some f ∧ fencePassed s f = true :=
  ⟨{ powered with fence := some ⟨0, true, 0⟩ }, ⟨0, true, 0⟩, by decide +kernel⟩

theorem witness_FencesAndCyclesEndInTheirTime_4 :
    ∃ (s : State), devNs s < s.clock.cycleEnd :=
  ⟨powered, by decide +kernel⟩

theorem witness_FencesAndCyclesEndInTheirTime_5 :
    ∃ (s : State), s.clock.cycleEnd ≤ devNs s ∧ (coreRuns s = true ∨ s.startup.island = true) :=
  ⟨{ powered with clock := { dev := 125000 * 2 ^ 40 } }, by decide +kernel⟩

/-! PortsComeUp -/

theorem witness_PortsComeUp_1 :
    ∃ (s : State) (src : Source) (port : Fin 64), Admitted s src (portReg port 0 0x40) ∧ flag s (portReg port 0 0x40) 31 = false ∧
      portState s port = 0 ∧ flag s (portReg port 0 0x4C) 27 = false ∧ s.colophon.lifecycle ≠ 0 ∧ s.colophon.lifecycle ≠ 4 ∧ port.val %
      widthOf (fld s (portReg port 0 0x40) 26 25) = 0 ∧ laneConflict s port (widthOf (fld s (portReg port 0 0x40) 26 25)) = false ∧
      modeSupported (widthOf (fld s (portReg port 0 0x40) 26 25)) (fld s (laneReg port 0x40) 2 0) = true :=
  ⟨powered, .pf0, 63, by decide +kernel⟩

theorem witness_PortsComeUp_2 :
    ∃ (s : State) (src : Source) (port : Fin 64), Admitted s src (portReg port 0 0x40) ∧ flag s (portReg port 0 0x40) 31 = false ∧
      portState s port = 0 ∧ flag s (portReg port 0 0x4C) 27 = false ∧ s.colophon.lifecycle ≠ 0 ∧ s.colophon.lifecycle ≠ 4 ∧ laneConflict s
      port (widthOf (fld s (portReg port 0 0x40) 26 25)) = true :=
  ⟨withWords [(0x21004C, 2 * 2 ^ 29), (0x200040, 3 * 2 ^ 25)], .pf0, 0, by decide +kernel⟩

theorem witness_PortsComeUp_3 :
    ∃ (s : State) (port : Fin 64) (mode : Nat), portState s port = 1 ∧ modeSupported (portAt s port).width mode = true ∧ mode ≤ (portAt s
      port).enabledRate ∧ (flag s (portReg port 0 0x40) 30 = false → mode = (portAt s port).enabledRate) :=
  ⟨setPort (withWords [(0x20004C, 2 ^ 29)]) 0 { enabledRate := 4 }, 0, 4, by decide +kernel⟩

theorem witness_PortsComeUp_4 :
    ∃ (s : State) (port : Fin 64), (portState s port = 1 ∨ portState s port = 3) :=
  ⟨withWords [(0x20004C, 3 * 2 ^ 29)], 0, by decide +kernel⟩

theorem witness_PortsComeUp_5 :
    ∃ (s : State) (port : Fin 64), portUp s port = true ∧ lpiMode s port = true ∧ (portAt s port).lpiAgreed = true ∧ flag s (portReg port
      1 0x60) 31 = true ∧ gateEnabled s port = false ∧ preemptEnabled s port = false ∧ nothingToSend s port = true ∧ (portAt s
      port).idleSince + fld s (portReg port 1 0x60) 15 0 * 1000 ≤ now s :=
  ⟨setPort (upState [(0x201060, 2 ^ 31)]) 0 { lpiAgreed := true }, 0, by decide +kernel⟩

/-! PortsGoDown -/

theorem witness_PortsGoDown_1 :
    ∃ (s : State) (src : Source) (port : Fin 64), Admitted s src (portReg port 0 0x40) :=
  ⟨powered, .pf0, 0, by decide +kernel⟩

theorem witness_PortsGoDown_2 :
    ∃ (s : State) (src : Source) (port : Fin 64), Admitted s src (portReg port 0 0x40) ∧ portState s port = 0 :=
  ⟨powered, .pf0, 63, by decide +kernel⟩

theorem witness_PortsGoDown_3 :
    ∃ (s : State) (src : Source) (port : Fin 64), Admitted s src (portReg port 0 0x40) ∧ (portState s port = 1 ∨ portState s port = 3) ∧
      PortEmpty s port ∧ flag s (portReg port 0 0x40) 27 = false :=
  ⟨withWords [(0x20004C, 3 * 2 ^ 29), (0x200040, 0)], .pf0, 0, by decide +kernel⟩

theorem witness_PortsGoDown_4 :
    ∃ (s : State) (src : Source) (port : Fin 64), Admitted s src (portReg port 0 0x50) ∧ portState s port ≠ 0 :=
  ⟨upState [], .pf0, 0, by decide +kernel⟩

theorem witness_PortsGoDown_5 :
    ∃ (s : State) (src : Source) (port : Fin 64), Admitted s src (portReg port 0 0x50) ∧ (portState s port = 1 ∨ portState s port = 3) ∧
      PortEmpty s port ∧ flag s (portReg port 0 0x40) 27 = false :=
  ⟨withWords [(0x20004C, 2 ^ 29), (0x200040, 0)], .pf0, 0, by decide +kernel⟩

theorem witness_PortsGoDown_6 :
    ∃ (s : State) (src : Source) (port : Fin 64), Admitted s src (portReg port 0 0x50) ∧ portState s port = 2 :=
  ⟨upState [], .pf0, 0, by decide +kernel⟩

theorem witness_PortsGoDown_7 :
    ∃ (s : State) (src : Source) (port : Fin 64), Admitted s src (portReg port 0 0x50) ∧ portState s port = 2 ∧ PortEmpty s port ∧ fld s
      (portReg port 0 0x48) 9 0 ≠ 0 :=
  ⟨upState [(0x200048, 1)], .pf0, 0, by decide +kernel⟩

theorem witness_PortsGoDown_8 :
    ∃ (s : State) (port : Fin 64), portState s port = 2 :=
  ⟨upState [], 0, by decide +kernel⟩

theorem witness_PortsGoDown_9 :
    ∃ (s : State) (port : Fin 64), portState s port = 2 ∧ PortEmpty s port ∧ fld s (portReg port 0 0x48) 9 0 ≠ 0 :=
  ⟨upState [(0x200048, 1)], 0, by decide +kernel⟩

theorem witness_PortsGoDown_10 :
    ∃ (s : State) (port : Fin 64), portState s port = 3 ∧ (portAt s port).holdEnd ≤ now s :=
  ⟨withWords [(0x20004C, 3 * 2 ^ 29)], 0, by decide +kernel⟩

theorem witness_PortsGoDown_11 :
    ∃ (s : State) (port : Fin 64), portState s port = 3 ∧ (portAt s port).holdEnd ≤ now s ∧ PortEmpty s port ∧ flag s (portReg port 0
      0x40) 27 = false :=
  ⟨withWords [(0x20004C, 3 * 2 ^ 29), (0x200040, 0)], 0, by decide +kernel⟩

theorem witness_PortsGoDown_12 :
    ∃ (s : State) (port : Fin 64), flushComplete s port = true ∧ flag s (portReg port 0 0x40) 31 = false :=
  ⟨withWords [(0x20004C, 4 * 2 ^ 29)], 0, by decide +kernel⟩

/-! ClocksFollowTheirSource -/

theorem witness_ClocksFollowTheirSource_1 :
    ∃ (s : State) (k : Fin 2), flag s (rclkReg k) 30 = true ∧ flag s (rclkReg k) 29 = false ∧ rclkSound s k = false ∧ flag s 0x4008 31 =
      false :=
  ⟨withWords [(0x4094, 2 ^ 30)], 1, by decide +kernel⟩

theorem witness_ClocksFollowTheirSource_2 :
    ∃ (s : State) (k : Fin 2), flag s (rclkReg k) 31 = true ∧ flag s (rclkReg k) 29 = true ∧ rclkLocked s k = true ∧ flag s 0x4008 31 =
      false :=
  ⟨{ withWords [(0x4090, 2 ^ 31 + 2 ^ 29), (0x300044, 7 * 2 ^ 29)] with
      pins := { laneLock := [(0, 1)] }, clock := { steady := 1000000 } }, 0, by decide +kernel⟩

theorem witness_ClocksFollowTheirSource_3 :
    ∃ (s : State), pagePowered s .time = true :=
  ⟨powered, by decide +kernel⟩

theorem witness_ClocksFollowTheirSource_4 :
    ∃ (s : State), pagePowered s .time = true :=
  ⟨powered, by decide +kernel⟩

theorem witness_ClocksFollowTheirSource_5 :
    ∃ (s : State), pagePowered s .time = false :=
  ⟨State.reset, by decide +kernel⟩

/-! FramesEnter -/

theorem witness_FramesEnter_1 :
    ∃ (s : State) (port : Fin 64) (bytes : List Byte) (pre : Bool), portUp s port = true ∧ macBusy s port pre = false ∧ isRescue bytes =
      false ∧ beAt bytes 12 2 ≠ 0x8808 :=
  ⟨upState [], 0, [], false, by decide +kernel⟩

theorem witness_FramesEnter_2 :
    ∃ (s : State) (port : Fin 64) (bytes : List Byte) (pre : Bool), portUp s port = true ∧ macBusy s port pre = false ∧ isRescue bytes =
      false ∧ beAt bytes 12 2 ≠ 0x8808 ∧ pipelineRuns s (sliceOf port) = true ∧ flag s 0xF040 31 = false :=
  ⟨upState [], 0, [], false, by decide +kernel⟩

theorem witness_FramesEnter_3 :
    ∃ (s : State) (port : Fin 64) (bytes : List Byte) (pre : Bool), portUp s port = true ∧ macBusy s port pre = false ∧ isRescue bytes =
      false ∧ beAt bytes 12 2 ≠ 0x8808 ∧ pipelineRuns s (sliceOf port) = false ∧ flag s 0xF040 31 = false ∧ wakeBytes s (sliceOf port) +
      bytes.length ≤ 262144 :=
  ⟨{ upState [] with slices := [(0, { sleep := .light })] }, 0, [], false, by decide +kernel⟩

theorem witness_FramesEnter_4 :
    ∃ (s : State) (port : Fin 64) (bytes : List Byte) (pre : Bool), portUp s port = true ∧ macBusy s port pre = false ∧ (isRescue bytes =
      true ∨ beAt bytes 12 2 = 0x8808) :=
  ⟨upState [], 0, List.replicate 12 0 ++ [0x88, 0x08], false, by decide +kernel⟩

theorem witness_FramesEnter_5 :
    ∃ (s : State) (port : Fin 64), portUp s port = false :=
  ⟨powered, 0, by decide +kernel⟩

theorem witness_FramesEnter_6 :
    ∃ (s : State) (port : Fin 64) (i : Nat), (portAt s port).rxExpress = some i ∧ (frameAt s i).rescue = false ∧ (frameAt s i).control =
      false :=
  ⟨setPort (setFrame powered 0 {}) 0 { rxExpress := some 0 }, 0, 0, by decide +kernel⟩

theorem witness_FramesEnter_7 :
    ∃ (s : State) (port : Fin 64) (bytes : List Byte), portUp s port = true ∧ beAt bytes 12 2 = 0x8808 ∧ macBusy s port false = false :=
  ⟨upState [], 0, List.replicate 12 0 ++ [0x88, 0x08], by decide +kernel⟩

/-! PausesAndFlowControl -/

theorem witness_PausesAndFlowControl_1 :
    ∃ (s : State) (port : Fin 64) (prio : Fin 8), nth (portAt s port).pauseEnd prio ≠ 0 ∧ nth (portAt s port).pauseEnd prio ≤ now s :=
  ⟨{ setPort powered 0 { pauseEnd := [0, 0, 0, 0, 0, 0, 0, 5] } with clock := { steady := 5 } }, 0, 7, by decide +kernel⟩

theorem witness_PausesAndFlowControl_2 :
    ∃ (s : State) (port : Fin 64) (prio : Fin 8), fcInForce s port prio = true ∧ fcGenerates s port prio = true ∧ fcXon s port < fcLevel s
      port prio ∧ portUp s port = true ∧ egressOpen s = true ∧ wireBusy s port = false ∧ (portAt s port).fcDue = [] ∧ nth (portAt s
      port).fcSent prio + ceilDiv (fld s (portReg port 1 0x58) 31 16 * 512) (max 1 (portGbps s port)) ≤ now s + 1 :=
  ⟨{ setPort (upState [(0x20105C, 2 ^ 8), (0x201040, 2 ^ 28 + 2 * 2 ^ 29 + 2 ^ 8), (0x201050, 20)]) 0 {} with
      clock := { steady := 10000000 }, buffer := { fcCount := [(0, 30)] } }, 0, 0, by decide +kernel⟩

theorem witness_PausesAndFlowControl_3 :
    ∃ (s : State) (src : Source), Admitted s src 0x400058 :=
  ⟨powered, .pf0, by decide +kernel⟩

/-! FramesLeave -/

theorem witness_FramesLeave_1_1 :
    ∃ (s : State) (port : Fin 65) (express : Bool) (wait : Nat), port.val ≠ 64 ∧ portUp (unifySelected s port) port = true ∧ egressOpen
      (unifySelected s port) = true ∧ egressRuns s port = true ∧ egressSound s port = true ∧ selectedOf (unifySelected s port) port express
      = none ∧ (express = true ∨ preemptActive (unifySelected s port) port = true) ∧ macFreeIn (unifySelected s port) port express = some
      wait ∧ pickQueue (unifySelected s port) port (contenders (unifySelected s port) port express (devNs (unifySelected s port) + wait)) =
      none :=
  ⟨upState [], 0, true, 0, by decide +kernel⟩

theorem witness_FramesLeave_1_2 :
    ∃ (s : State) (port : Fin 65) (express : Bool) (wait : Nat) (q : Nat) (sc : Sched) (c : Copy), port.val ≠ 64 ∧ portUp (unifySelected s
      port) port = true ∧ egressOpen (unifySelected s port) = true ∧ egressRuns s port = true ∧ egressSound s port = true ∧ selectedOf
      (unifySelected s port) port express = none ∧ (express = true ∨ preemptActive (unifySelected s port) port = true) ∧ macFreeIn
      (unifySelected s port) port express = some wait ∧ pickQueue (unifySelected s port) port (contenders (unifySelected s port) port
      express (devNs (unifySelected s port) + wait)) = some (q, sc) ∧ readyHead (unifySelected s port) q = some c ∧ staleFrame
      (unifySelected s port) (frameAt (unifySelected s port) c.frame) = false ∧ neverPasses (unifySelected s port) port (q % 8) (gateLength
      (frameLen (frameAt (unifySelected s port) c.frame))) = false :=
  ⟨oneCopy, 0, true, 0, 0, pickedSched, someCopy, by decide +kernel⟩

theorem witness_FramesLeave_2 :
    ∃ (s : State), s.host.waiting = none ∧ egressRuns s 64 = true ∧ egressSound s 64 = true :=
  ⟨powered, by decide +kernel⟩

theorem witness_FramesLeave_3_1 :
    ∃ (s : State) (port : Fin 64) (express : Bool) (c : Copy), portUp s port = true ∧ egressOpen s = true ∧ egressRuns s port = true ∧
      egressSound s port = true ∧ wireBusy s port = false ∧ (express = true ∨ (portAt (unifySelected (fcFlush s port) port) port).txPreempt
      = none) ∧ selectedOf (unifySelected (fcFlush s port) port) port express = some c ∧ mayStart (unifySelected (fcFlush s port) port) port
      c = true ∧ (mirrorOf c.kind ≠ none ∨ egressCheck (takeCopy (setSelected (unifySelected (fcFlush s port) port) port express none) c)
      (frameAt (takeCopy (setSelected (unifySelected (fcFlush s port) port) port express none) c) c.frame) port false = 0) :=
  ⟨selectedOne, 0, true, mirrored, by decide +kernel⟩

theorem witness_FramesLeave_4 :
    ∃ (s : State) (port : Fin 64) (x : Tx), portUp s port = true ∧ egressOpen s = true ∧ egressRuns s port = true ∧ egressSound s port =
      true ∧ wireBusy s port = false ∧ (portAt (unifySelected (fcFlush s port) port) port).txPreempt = some x ∧ (portAt (unifySelected
      (fcFlush s port) port) port).selected = none ∧ gatePasses (unifySelected (fcFlush s port) port) port (x.copy.queue % 8) (devNs
      (unifySelected (fcFlush s port) port)) (txLeft (unifySelected (fcFlush s port) port) x) = true :=
  ⟨fragmentSent, 0, { copy := someCopy, suspended := true, fragments := 1, sent := 64 }, by decide +kernel⟩

theorem witness_FramesLeave_5 :
    ∃ (s : State), egressOpen s = false :=
  ⟨powered, by decide +kernel⟩

theorem witness_FramesLeave_6 :
    ∃ (s : State) (port : Fin 64) (express : Bool) (x : Tx), onWire (txOf s port express) = some x ∧ (frameAt s x.copy.frame).ended = true
      :=
  ⟨setPort (setFrame powered 0 someFrame) 0 { txExpress := some { copy := someCopy } }, 0, true, { copy := someCopy }, by decide +kernel⟩

theorem witness_FramesLeave_7 :
    ∃ (s : State) (port : Fin 64) (express : Bool) (x : Tx), onWire (txOf s port express) = some x ∧ x.copy.cut = true ∧ (frameAt s
      x.copy.frame).ended = false :=
  ⟨setPort (setFrame powered 0 {}) 0 { txExpress := some { copy := { frame := 0, cut := true } } }, 0, true,
    { copy := { frame := 0, cut := true } }, by decide +kernel⟩

theorem witness_FramesLeave_8 :
    ∃ (s : State) (q : Fin 131072), headCopy (dropHeldCut s q) q = none :=
  ⟨powered, 0, by decide +kernel⟩

theorem witness_FramesLeave_9 :
    ∃ (s : State) (u : State) (q : Fin 131072) (c : Copy) (n : Nat), (queueAt s q).head.length = n + 1 ∧ u = dropHeldCut s q ∧ headCopy u
      q = some c ∧ (queueAt u q).cutHeld = 0 ∧ (frameAt u c.frame).ended = true ∧ staleFrame u (frameAt u c.frame) = true ∧ selectedOf u
      c.port true ≠ some c ∧ selectedOf u c.port false ≠ some c ∧ u.host.waiting ≠ some c :=
  ⟨{ setQueue (setFrame (withWords [(0x400060, 2 ^ 31 + 1)]) 0 someFrame) 0 { head := [.copy someCopy] } with
      clock := { steady := 10000000 } },
    dropHeldCut ({ setQueue (setFrame (withWords [(0x400060, 2 ^ 31 + 1)]) 0 someFrame) 0 { head := [.copy someCopy] } with
      clock := { steady := 10000000 } }) 0, 0, someCopy, 0, by decide +kernel, rfl, by decide +kernel⟩

theorem witness_FramesLeave_10 :
    ∃ (s : State) (q : Fin 131072) (c : Copy), headCopy (dropHeldCut s q) q = some c ∧ staleFrame (dropHeldCut s q) (frameAt (dropHeldCut
      s q) c.frame) = false :=
  ⟨setQueue (setFrame powered 0 someFrame) 0 { head := [.copy someCopy] }, 0, someCopy, by decide +kernel⟩

theorem witness_FramesLeave_11 :
    ∃ (s : State) (src : Source), Admitted s src 0x500040 :=
  ⟨powered, .pf0, by decide +kernel⟩

/-! LearningPloughAndEntryErrors -/

theorem witness_LearningPloughAndEntryErrors_1_1 :
    ∃ (s : State) (r : LearnReq) (rest : List LearnReq), coreRuns s = true ∧ s.fdb.learnQ = r :: rest ∧ standsBy s = true :=
  ⟨{ powered with fdb := { learnQ := [⟨0, 0, 0, 0, 0⟩] } }, ⟨0, 0, 0, 0, 0⟩, [], by decide +kernel⟩

theorem witness_LearningPloughAndEntryErrors_1_3 :
    ∃ (s : State) (r : LearnReq) (rest : List LearnReq) (slot : Nat) (evicts : Bool), coreRuns s = true ∧ s.fdb.learnQ = r :: rest ∧
      standsBy s = false ∧ fdbFind s r.fid r.mac = none ∧ fdbPlace s r.fid r.mac = some (slot, evicts) :=
  ⟨{ upState [] with fdb := { learnQ := [⟨0, 5, 0, 0, 0⟩] } }, ⟨0, 5, 0, 0, 0⟩, [], placed 0 5, false, by decide +kernel⟩

theorem witness_LearningPloughAndEntryErrors_1_4 :
    ∃ (s : State) (r : LearnReq) (rest : List LearnReq) (slot : Nat), coreRuns s = true ∧ s.fdb.learnQ = r :: rest ∧ standsBy s = false ∧
      fdbFind s r.fid r.mac = some slot ∧ fdbDest (fdbEntry s slot) = r.dest ∧ (fdbStatic (fdbEntry s slot) || fdbLocked (fdbEntry s slot))
      = false :=
  ⟨{ setTab (upState []) 2 (placed 0 5) (BitVec.ofNat 512 (freshEntry powered (2 ^ 127) 0 5 0)) with
      fdb := { learnQ := [⟨0, 5, 0, 0, 0⟩] } }, ⟨0, 5, 0, 0, 0⟩, [], placed 0 5, by decide +kernel⟩

theorem witness_LearningPloughAndEntryErrors_2 :
    ∃ (s : State), coreRuns s = true ∧ s.fdb.flushes = [] ∧ ploughDue s ≤ now s ∧ s.fdb.slot + 1 < 524288 :=
  ⟨powered, by decide +kernel⟩

theorem witness_LearningPloughAndEntryErrors_3 :
    ∃ (s : State), coreRuns s = true ∧ s.fdb.flushes = [] ∧ ploughDue s ≤ now s ∧ s.fdb.slot + 1 = 524288 :=
  ⟨{ powered with fdb := { slot := 524287 }, clock := { steady := 10000000000000 } }, by decide +kernel⟩

theorem witness_LearningPloughAndEntryErrors_4 :
    ∃ (s : State), coreRuns s = true :=
  ⟨powered, by decide +kernel⟩

theorem witness_LearningPloughAndEntryErrors_5 :
    ∃ (s : State) (n : Nat) (i : Nat), coreRuns s = true ∧ n ≤ 0x0B ∧ i < tableEntries n ∧ n ≠ 2 :=
  ⟨powered, 0x0B, 0, by decide +kernel⟩

theorem witness_LearningPloughAndEntryErrors_6 :
    ∃ (s : State) (i : Nat), coreRuns s = true ∧ i < tableEntries 2 :=
  ⟨powered, 524287, by decide +kernel⟩

theorem witness_LearningPloughAndEntryErrors_7 :
    ∃ (s : State) (n : Nat) (i : Nat), coreRuns s = true ∧ n < 0x100 ∧ i < tableEntries n :=
  ⟨powered, 0x0B, 0, by decide +kernel⟩

/-! ShadowCompareRereads -/

theorem witness_ShadowCompareRereads_1 :
    ∃ (s : State) (src : Source), Admitted s src 0x603040 ∧ flag s 0x603040 31 = false :=
  ⟨powered, .pf0, by decide +kernel⟩

theorem witness_ShadowCompareRereads_2_1 :
    ∃ (s : State) (sw : List Image), coreRuns s = true ∧ shadowRuns s = true ∧ s.shadow.due ≤ now s ∧ shadowNextTable s s.shadow.table =
      some s.shadow.table ∧ (sw.length = 1 ∨ sw.length = 3) ∧ s.shadow.index + 1 < shadowEntries s.shadow.table :=
  ⟨withWords [(0x603040, 2 ^ 31 + 1)], [0], by decide +kernel⟩

theorem witness_ShadowCompareRereads_3 :
    ∃ (s : State), coreRuns s = true ∧ shadowRuns s = true ∧ s.shadow.due ≤ now s ∧ shadowNextTable s s.shadow.table = some s.shadow.table
      :=
  ⟨withWords [(0x603040, 2 ^ 31 + 1)], by decide +kernel⟩

theorem witness_ShadowCompareRereads_4_1 :
    ∃ (s : State) (d : ShadowDiff) (rest : List ShadowDiff), coreRuns s = true ∧ s.shadow.diffs = d :: rest ∧ d.at_ + 125000 ≤ now s ∧
      shadowHw ({ shadowFetch s d.table d.index with shadow := { s.shadow with diffs := rest } }) d.table d.part d.index d.applied ≠ d.hw :=
  ⟨{ powered with shadow := { diffs := [⟨0, 0, 0, false, 1, 0⟩] }, clock := { steady := 125000 } }, ⟨0, 0, 0, false, 1, 0⟩, [],
    by decide +kernel⟩

theorem witness_ShadowCompareRereads_4_2 :
    ∃ (s : State) (d : ShadowDiff) (rest : List ShadowDiff) (v : Image), coreRuns s = true ∧ s.shadow.diffs = d :: rest ∧ d.at_ + 125000 ≤
      now s ∧ shadowDiffers d.table d.part d.index d.hw v.toNat = false :=
  ⟨{ powered with shadow := { diffs := [⟨0, 0, 0, false, 0, 0⟩] }, clock := { steady := 125000 } }, ⟨0, 0, 0, false, 0, 0⟩, [], 0,
    by decide +kernel⟩

theorem witness_ShadowCompareRereads_4_3 :
    ∃ (s : State) (d : ShadowDiff) (rest : List ShadowDiff) (v : Image), coreRuns s = true ∧ s.shadow.diffs = d :: rest ∧ d.at_ + 125000 ≤
      now s ∧ shadowHw ({ shadowFetch s d.table d.index with shadow := { s.shadow with diffs := rest } }) d.table d.part d.index d.applied =
      d.hw ∧ shadowDiffers d.table d.part d.index d.hw v.toNat = true ∧ flag s 0x603040 30 = false ∧ flag s 0x603090 31 = false :=
  ⟨{ powered with shadow := { diffs := [⟨0, 0, 0, false, 0, 0⟩] }, clock := { steady := 125000 } }, ⟨0, 0, 0, false, 0, 0⟩, [], 2 ^ 127,
    by decide +kernel⟩

/-! PolicersAndStreamGates -/

theorem witness_PolicersAndStreamGates_1 :
    ∃ (s : State), coreRuns s = true ∧ (s.policing.refills + 1) * 256 ≤ now s :=
  ⟨{ powered with clock := { steady := 256 } }, by decide +kernel⟩

theorem witness_PolicersAndStreamGates_2 :
    ∃ (s : State), now s < (s.policing.refills + 1) * 256 :=
  ⟨{ powered with clock := { steady := 255 } }, by decide +kernel⟩

theorem witness_PolicersAndStreamGates_3 :
    ∃ (s : State) (g : Fin 1024) (L : GateList) (C : Nat) (ta : Nat), (gateAt s g).pending = some (L, C, ta) ∧ C ≤ devNs s :=
  ⟨{ powered with streamGates := [(1023, { pending := some (⟨0, 1, 0, []⟩, 0, 0) })] }, 1023, ⟨0, 1, 0, []⟩, 0, 0, by decide +kernel⟩

theorem witness_PolicersAndStreamGates_4_1 :
    ∃ (e : Nat) (a : Int), bits e 126 125 = 0 ∧ a + policerRateA e ≤ policerSizeA e :=
  ⟨2 ^ 127, 0, by decide +kernel⟩

theorem witness_PolicersAndStreamGates_5_1 :
    ∃ (e : Nat) (L : Int) (c : Nat), c ≤ 2 ∧ 0 ≤ L ∧ bitAt e 124 = true :=
  ⟨2 ^ 124, 0, 0, by decide +kernel⟩

theorem witness_PolicersAndStreamGates_5_2 :
    ∃ (e : Nat) (a : Int) (b : Int) (L : Int) (c : Nat), c ≤ 2 ∧ 0 ≤ L ∧ (meterColour e a b L c).1 = 2 :=
  ⟨0, -1, -1, 1, 2, by decide +kernel⟩

theorem witness_PolicersAndStreamGates_5_4 :
    ∃ (e : Nat) (a : Int) (b : Int) (L : Int) (c : Nat), c ≤ 2 ∧ 0 ≤ L ∧ (meterColour e a b L c).2.2 = true :=
  ⟨2 ^ 125, 5, 5, 1, 0, by decide +kernel⟩

/-! SpillWritesAndReadsSheets -/

theorem witness_SpillWritesAndReadsSheets_1 :
    ∃ (s : State) (q : Fin 131072) (c : SpillCtx) (rest : List QItem), (queueAt s q).spill = some c ∧ c.sub = .spilling ∧ c.waiting = none
      ∧ batchPrefix s [] (queueAt s q).tail ≠ [] ∧ batchDue s (queueAt s q) c (batchPrefix s [] (queueAt s q).tail) = true ∧ c.index ≠ [] ∧
      rest = (queueAt s q).tail.drop (batchPrefix s [] (queueAt s q).tail).length :=
  ⟨{ setQueue (setFrame powered 0 someFrame) 0 { tail := [.copy someCopy], spill := some { index := [someSheet], opened := some 0 } } with
      clock := { steady := 1000000 } }, 0, { index := [someSheet], opened := some 0 }, [], by decide +kernel⟩

theorem witness_SpillWritesAndReadsSheets_2 :
    ∃ (s : State) (q : Fin 131072) (c : SpillCtx) (rest : List QItem), (queueAt s q).spill = some c ∧ c.sub = .spilling ∧ c.waiting = none
      ∧ batchPrefix s [] (queueAt s q).tail ≠ [] ∧ batchDue s (queueAt s q) c (batchPrefix s [] (queueAt s q).tail) = true ∧ c.index = [] ∧
      linkedLeaves s q ≤ spillOn s q ∧ rest = (queueAt s q).tail.drop (batchPrefix s [] (queueAt s q).tail).length :=
  ⟨{ setQueue (setFrame (withWords [(0x405044, 100)]) 0 someFrame) 0 { tail := [.copy someCopy], spill := some { opened := some 0 } } with
      clock := { steady := 1000000 } }, 0, { opened := some 0 }, [], by decide +kernel⟩

theorem witness_SpillWritesAndReadsSheets_3_1 :
    ∃ (s : State) (q : Fin 131072) (c : SpillCtx) (batch : List QItem), (queueAt s q).spill = some c ∧ c.waiting = some batch ∧ waitOver s
      c.refused = false ∧ keyGone s = false ∧ indexFull c = false ∧ chooseSheet s (contentBlocks (batch.map (itemRecord s))) [] = none :=
  ⟨setQueue powered 0 { spill := some waitingCtx }, 0, waitingCtx, [], by decide +kernel⟩

theorem witness_SpillWritesAndReadsSheets_3_2 :
    ∃ (s : State) (q : Fin 131072) (c : SpillCtx) (batch : List QItem) (k : Nat) (p : Nat), (queueAt s q).spill = some c ∧ c.waiting =
      some batch ∧ waitOver s c.refused = false ∧ keyGone s = false ∧ indexFull c = false ∧ chooseSheet s (contentBlocks (batch.map
      (itemRecord s))) [] = some (k, p) :=
  ⟨{ setQueue (withWords [(0x408048, 3 * 2 ^ 28), (0x404040, 2 ^ 28)]) 0 { spill := some waitingCtx } with
      spill := { partitions := [(0, { started := true, cache := [5] })] }, colophon := { spillKey := true } }, 0, waitingCtx, [], 0, 0,
    by decide +kernel⟩

theorem witness_SpillWritesAndReadsSheets_4 :
    ∃ (s : State) (q : Fin 131072) (c : SpillCtx) (batch : List QItem) (w : Nat), (queueAt s q).spill = some c ∧ c.waiting = some batch ∧
      c.refused = some w ∧ w + max 1 (fld s 0x404044 23 16) * 1000 ≤ now s :=
  ⟨{ setQueue powered 0 { spill := some { waiting := some [], refused := some 0 } } with clock := { steady := 10000000 } }, 0,
    { waiting := some [], refused := some 0 }, [], 0, by decide +kernel⟩

theorem witness_SpillWritesAndReadsSheets_5 :
    ∃ (s : State) (q : Fin 131072) (n : Nat) (c : SpillCtx) (sh : Sheet), (queueAt s q).spill = some c ∧ c.index.find? (fun x => x.owner
      == q.val && x.serial == n && x.writing) = some sh :=
  ⟨setQueue powered 0 { spill := some { index := [{ someSheet with writing := true }] } }, 0, 0,
    { index := [{ someSheet with writing := true }] }, { someSheet with writing := true }, by decide +kernel⟩

theorem witness_SpillWritesAndReadsSheets_6 :
    ∃ (s : State) (q : Fin 131072) (c : SpillCtx) (sh : Sheet), (queueAt s q).spill = some c ∧ c.index.find? (fun x => x.reading.isNone) =
      some sh ∧ wantsPrefetch s q = true ∧ prefetchSheets s < 64 ∧ s.buffer.sharedUsed + prefetchReserve sh ≤ globalLimit s 0 ∧ olderNeed s
      q (c.needSince.getD (now s)) = false :=
  ⟨setQueue powered 0 { spill := some { index := [someSheet] } }, 0, { index := [someSheet] }, someSheet, by decide +kernel⟩

theorem witness_SpillWritesAndReadsSheets_8 :
    ∃ (block : Nat) (sh : Sheet) (s : State) (sts : List RecordState), awaits sh block = true ∧ block ∉ sh.poison ∧ keyGone s = false ∧
      sh.keyEpoch = rd s 0x404054 ∧ sh.reading = some sts :=
  ⟨0, { someSheet with reading := some [.waiting [0, 1]], outstanding := [(0, 0)] }, powered, [.waiting [0, 1]], by decide +kernel⟩

theorem witness_SpillWritesAndReadsSheets_10 :
    ∃ (s : State) (q : Fin 131072) (n : Nat) (e : Nat × Sheet), s.spill.releasing.find? (fun e => e.2.owner == q.val && e.2.serial == n &&
      !e.2.writing && e.2.outstanding.isEmpty) = some e ∧ keyGone s = false ∧ e.2.keyEpoch = rd s 0x404054 :=
  ⟨{ powered with spill := { releasing := [(0, someSheet)] } }, 0, 0, (0, someSheet), by decide +kernel⟩

theorem witness_SpillWritesAndReadsSheets_11 :
    ∃ (s : State) (q : Fin 131072) (n : Nat) (e : Nat × Sheet), s.spill.releasing.find? (fun e => e.2.owner == q.val && e.2.serial == n &&
      !e.2.writing && e.2.outstanding.isEmpty) = some e :=
  ⟨{ powered with spill := { releasing := [(0, someSheet)] } }, 0, 0, (0, someSheet), by decide +kernel⟩

theorem witness_SpillWritesAndReadsSheets_12_1 :
    ∃ (s : State), flag s 0x400060 31 = false :=
  ⟨withWords [(0x400060, 1)], by decide +kernel⟩

/-! SpillIsControlled -/

theorem witness_SpillIsControlled_1 :
    ∃ (s : State) (src : Source), Admitted s src 0x404040 :=
  ⟨powered, .pf0, by decide +kernel⟩

theorem witness_SpillIsControlled_2 :
    ∃ (s : State) (src : Source), Admitted s src 0x404040 :=
  ⟨powered, .pf0, by decide +kernel⟩

theorem witness_SpillIsControlled_3 :
    ∃ (s : State) (src : Source) (c : Fin 4) (m : Fin 16), Admitted s src 0x404040 ∧ m.val = 2 ^ c.val ∧ s.spill.releasing = [] ∧ (∀ e ∈
      s.queues, e.2.spill = none) :=
  ⟨powered, .pf0, 3, 8, by decide +kernel⟩

theorem witness_SpillIsControlled_4 :
    ∃ (s : State) (src : Source) (c : Fin 4) (k : Fin 4) (n : Nat), Admitted s src (0x406048 + (4 * c.val + k.val) * 0x20) ∧ flag s
      0x404040 (28 + c) = false ∧ sheetsHeld s c = 0 ∧ n < 2 ^ 27 :=
  ⟨powered, .pf0, 3, 3, 2 ^ 27 - 1, by decide +kernel⟩

theorem witness_SpillIsControlled_5 :
    ∃ (s : State) (src : Source) (c : Fin 4) (k : Fin 4), Admitted s src (0x406048 + (4 * c.val + k.val) * 0x20) ∧ (flag s 0x404040 (28 +
      c) = true ∨ sheetsHeld s c ≠ 0) :=
  ⟨withWords [(0x404040, 2 ^ 31)], .pf0, 3, 0, by decide +kernel⟩

theorem witness_SpillIsControlled_6 :
    ∃ (s : State) (src : Source) (q : Fin 131072), Admitted s src 0x404078 ∧ (queueAt s q).spill = none :=
  ⟨powered, .pf0, 0, by decide +kernel⟩

theorem witness_SpillIsControlled_7 :
    ∃ (s : State) (src : Source) (q : Fin 131072) (c : SpillCtx), Admitted s src 0x404078 ∧ (queueAt s q).spill = some c :=
  ⟨setQueue powered 0 { spill := some {} }, .pf0, 0, {}, by decide +kernel⟩

theorem witness_SpillIsControlled_8 :
    ∃ (s : State) (c : Fin 4) (k : Fin 4) (l : List Nat), (partAt s c k).started = true ∧ (partAt s c k).cache.length < 256 ∧ l ≠ [] ∧
      l.length = min 64 (partAt s c k).ring ∧ ((takeRuns l.length (partAt s c k).runs).1.zip l).all (fun e => e.1.all (· == e.2)) = true :=
  ⟨{ powered with spill := { partitions := [(0, { started := true, ring := 1, runs := [(some (5, 1), 1)] })] } }, 0, 0, [5],
    by decide +kernel⟩

theorem witness_SpillIsControlled_9 :
    ∃ (s : State) (c : Fin 4) (k : Fin 4), (partAt s c k).started = true ∧ 768 < (partAt s c k).cache.length :=
  ⟨{ powered with spill := { partitions := [(0, { started := true, cache := List.replicate 769 0 })] } }, 0, 0, by decide +kernel⟩

/-! CxlPortsFollowTheirStates -/

theorem witness_CxlPortsFollowTheirStates_1 :
    ∃ (s : State) (src : Source) (c : Fin 4), Admitted s src (cxlReg c 0x40) ∧ cxlState s c = 0 ∧ s.firmware.running = true :=
  ⟨{ powered with firmware := { running := true } }, .pf0, 0, by decide +kernel⟩

theorem witness_CxlPortsFollowTheirStates_2 :
    ∃ (s : State) (src : Source) (c : Fin 4), Admitted s src (cxlReg c 0x40) ∧ cxlState s c ≠ 0 :=
  ⟨withWords [(0x408048, 3 * 2 ^ 28)], .pf0, 0, by decide +kernel⟩

theorem witness_CxlPortsFollowTheirStates_3 :
    ∃ (s : State) (c : Fin 4), cxlState s c = 1 ∧ flag s (cxlReg c 0x48) 23 = true ∧ (cxlLinkAt s c).t0 + 100000 ≤ now s ∧ 100000000 ≤ now
      s ∧ now s < (cxlLinkAt s c).t0 + 100000000 :=
  ⟨{ { withWords [(0x408048, 1 * 2 ^ 28 + 2 ^ 23)] with spill := { links := [(0, { t0 := 50000000 })] } } with
      clock := { steady := 100000000 } }, 0, by decide +kernel⟩

theorem witness_CxlPortsFollowTheirStates_4 :
    ∃ (s : State) (c : Fin 4), cxlState s c = 1 ∧ flag s (cxlReg c 0x48) 23 = false ∧ (cxlLinkAt s c).t0 + 100000000 ≤ now s :=
  ⟨{ withWords [(0x408048, 2 ^ 28)] with clock := { steady := 100000000 } }, 0, by decide +kernel⟩

theorem witness_CxlPortsFollowTheirStates_5 :
    ∃ (s : State) (src : Source) (c : Fin 4), Admitted s src (cxlReg c 0x40) ∧ cxlState s c = 0 :=
  ⟨powered, .pf0, 0, by decide +kernel⟩

theorem witness_CxlPortsFollowTheirStates_6 :
    ∃ (s : State) (u : State) (src : Source) (c : Fin 4), Admitted s src (cxlReg c 0x40) ∧ cxlState s c ≠ 0 ∧ u = forceDiscard (setFlag
      (atRegister s src (cxlReg c 0x40)) (cxlReg c 0x40) 31 false) c :=
  ⟨withWords [(0x408048, 3 * 2 ^ 28)], forceDiscard (setFlag (atRegister (withWords [(0x408048,
    3 * 2 ^ 28)]) .pf0 (cxlReg 0 0x40)) (cxlReg 0 0x40) 31 false) 0, .pf0, 0, by decide +kernel, by decide +kernel, rfl⟩

theorem witness_CxlPortsFollowTheirStates_7 :
    ∃ (s : State) (c : Fin 4), cxlState s c = 1 ∧ flag s (cxlReg c 0x48) 23 = false :=
  ⟨withWords [(0x408048, 2 ^ 28)], 0, by decide +kernel⟩

theorem witness_CxlPortsFollowTheirStates_8 :
    ∃ (s : State) (c : Fin 4), cxlState s c = 1 ∧ flag s (cxlReg c 0x48) 23 = false :=
  ⟨withWords [(0x408048, 2 ^ 28)], 0, by decide +kernel⟩

theorem witness_CxlPortsFollowTheirStates_9 :
    ∃ (s : State) (c : Fin 4) (cause : Fin 16), cxlState s c = 2 ∧ (cause.val = 3 ∨ cause.val = 5 ∨ (cause.val = 4 ∧ (cxlLinkAt s
      c).released + 1000000000 ≤ now s)) :=
  ⟨{ withWords [(0x408048, 2 * 2 ^ 28)] with clock := { steady := 1000000000 } }, 0, 4, by decide +kernel⟩

theorem witness_CxlPortsFollowTheirStates_10 :
    ∃ (s : State) (c : Fin 4) (cause : Fin 16), cxlState s c = 2 ∧ 6 ≤ cause.val ∧ cause.val ≤ 8 :=
  ⟨withWords [(0x408048, 2 * 2 ^ 28)], 0, 8, by decide +kernel⟩

theorem witness_CxlPortsFollowTheirStates_11 :
    ∃ (s : State) (c : Fin 4) (n : Nat), cxlState s c = 2 ∧ n ≠ 0 ∧ sget (fun _ => []) s.firmware.layouts c = [] :=
  ⟨withWords [(0x408048, 2 * 2 ^ 28)], 0, 1, by decide +kernel⟩

theorem witness_CxlPortsFollowTheirStates_12_1 :
    ∃ (s : State) (c : Fin 4) (n : Nat), cxlState s c = 2 ∧ n = 0 :=
  ⟨withWords [(0x408048, 2 * 2 ^ 28)], 0, 0, by decide +kernel⟩

theorem witness_CxlPortsFollowTheirStates_13_1 :
    ∃ (s : State) (c : Fin 4) (cause : Fin 16), (cxlState s c = 1 ∨ cxlState s c = 2 ∨ cxlState s c = 3 ∨ cxlState s c = 5) ∧ (cause.val =
      1 ∨ cause.val = 9 ∨ cause.val = 10) ∧ NoSpill s :=
  ⟨withWords [(0x408048, 5 * 2 ^ 28)], 0, 10, by decide +kernel⟩

theorem witness_CxlPortsFollowTheirStates_14 :
    ∃ (s : State) (c : Fin 4), cxlState s c = 3 :=
  ⟨withWords [(0x408048, 3 * 2 ^ 28)], 0, by decide +kernel⟩

theorem witness_CxlPortsFollowTheirStates_15_1 :
    ∃ (s : State) (src : Source) (c : Fin 4), Admitted s src (cxlReg c 0x44) ∧ NoSpill s :=
  ⟨powered, .pf0, 0, by decide +kernel⟩

theorem witness_CxlPortsFollowTheirStates_16 :
    ∃ (s : State) (c : Fin 4), cxlState s c = 5 :=
  ⟨withWords [(0x408048, 5 * 2 ^ 28)], 0, by decide +kernel⟩

theorem witness_CxlPortsFollowTheirStates_17 :
    ∃ (s : State) (c : Fin 4) (h : Health), pollDue s c = true ∧ h.mailboxFailed = false ∧ h.replace = false ∧ h.critical = false ∧
      h.degraded = false ∧ h.maintenance = false ∧ h.lifeUsed.toNat ≤ 90 :=
  ⟨{ withWords [(0x408048, 3 * 2 ^ 28)] with firmware := { running := true }, clock := { steady := 1000000000000 } }, 0, ⟨false, false,
    false, 40, false, 90, false⟩, by decide +kernel⟩

theorem witness_CxlPortsFollowTheirStates_18 :
    ∃ (s : State) (c : Fin 4) (h : Health), pollDue s c = true ∧ h.mailboxFailed = true ∧ sget zeroNat s.firmware.mailboxFails c + 1 < 3
      :=
  ⟨{ withWords [(0x408048, 3 * 2 ^ 28)] with firmware := { running := true }, clock := { steady := 1000000000000 } }, 0, ⟨false, false,
    false, 40, false, 90, true⟩, by decide +kernel⟩

theorem witness_CxlPortsFollowTheirStates_19 :
    ∃ (s : State) (c : Fin 4), cxlState s c = 3 ∧ s.firmware.running = true :=
  ⟨{ withWords [(0x408048, 3 * 2 ^ 28)] with firmware := { running := true } }, 0, by decide +kernel⟩

theorem witness_CxlPortsFollowTheirStates_20 :
    ∃ (s : State), s.firmware.running = true ∧ s.startup.lastTimestamp + 1024000000000 ≤ now s :=
  ⟨{ powered with firmware := { running := true }, clock := { steady := 1024000000000 } }, by decide +kernel⟩

/-! ShapersAndGatesKeepTheirTimes -/

theorem witness_ShapersAndGatesKeepTheirTimes_1 :
    ∃ (s : State) (n : Fin 4), coreRuns s = true ∧ s.sched.refills.length = 4 ∧ (nth s.sched.refills n + 1) * tierInterval n ≤ now s :=
  ⟨{ powered with clock := { steady := 1000000 } }, 3, by decide +kernel⟩

theorem witness_ShapersAndGatesKeepTheirTimes_2 :
    ∃ (s : State) (n : Fin 4), now s < (nth s.sched.refills n + 1) * tierInterval n :=
  ⟨powered, 0, by decide +kernel⟩

theorem witness_ShapersAndGatesKeepTheirTimes_3 :
    ∃ (s : State) (n : Nat), n ∈ s.sched.transit ∧ subtreeHeld s n = false :=
  ⟨{ powered with sched := { transit := [0] } }, 0, by decide +kernel⟩

theorem witness_ShapersAndGatesKeepTheirTimes_4 :
    ∃ (burst : Int) (v : Int), v ≤ burst :=
  ⟨5, 5, by decide +kernel⟩

theorem witness_ShapersAndGatesKeepTheirTimes_5_1 :
    ∃ (s : State) (src : Source) (port : Fin 64), Admitted s src (portReg port 1 0x80) ∧ gateEnabled s port = true ∧ gateDue s port =
      false :=
  ⟨withWords [(0x201080, 2 ^ 31)], .pf0, 0, by decide +kernel⟩

theorem witness_ShapersAndGatesKeepTheirTimes_5_2 :
    ∃ (s : State) (src : Source) (port : Fin 64) (L : GateList) (C : Nat) (ta : Nat), Admitted s src (portReg port 1 0x80) ∧ gateEnabled s
      port = true ∧ (portAt s port).gate.pending = some (L, C, ta) ∧ C ≤ devNs s :=
  ⟨setPort (withWords [(0x201080, 2 ^ 31)]) 0 { gate := { pending := some (⟨0, 1, 0, []⟩, 0, 0) } }, .pf0, 0, ⟨0, 1, 0, []⟩, 0, 0,
    by decide +kernel⟩

theorem witness_ShapersAndGatesKeepTheirTimes_6 :
    ∃ (s : State) (port : Fin 64) (L : GateList) (C : Nat) (ta : Nat), (portAt s port).gate.pending = some (L, C, ta) ∧ C ≤ devNs s :=
  ⟨setPort powered 0 { gate := { pending := some (⟨0, 1, 0, []⟩, 0, 0) } }, 0, ⟨0, 1, 0, []⟩, 0, 0, by decide +kernel⟩

theorem witness_ShapersAndGatesKeepTheirTimes_8 :
    ∃ (s : State) (src : Source) (port : Fin 64), Admitted s src (portReg port 1 0x80) :=
  ⟨powered, .pf0, 0, by decide +kernel⟩

theorem witness_ShapersAndGatesKeepTheirTimes_9 :
    ∃ (s : State) (port : Fin 64) (q : Nat), gateEnabled s port = true ∧ q ∈ busyQueues s ∧ queuePort s q = some port.val ∧ (sliceAt s
      (port.val / 8)).sleep = .light ∧ opensWithin s port (q % 8) 1000 = true :=
  ⟨gateAhead .light, 0, 0, by decide +kernel⟩

theorem witness_ShapersAndGatesKeepTheirTimes_10 :
    ∃ (s : State) (port : Fin 64) (q : Nat), gateEnabled s port = true ∧ q ∈ busyQueues s ∧ queuePort s q = some port.val ∧ (sliceAt s
      (port.val / 8)).sleep = .deep ∧ opensWithin s port (q % 8) 20000 = true :=
  ⟨gateAhead .deep, 0, 0, by decide +kernel⟩

theorem witness_ShapersAndGatesKeepTheirTimes_11 :
    ∃ (s : State) (i : Fin 8), (∀ p, p / 8 = i.val → gateEnabled s p = false) :=
  ⟨powered, 0, fun p h => (by decide +kernel : ∀ p < 8, gateEnabled powered p = false) p (by have h : p / 8 = 0 := h; omega)⟩

/-! TimesFallOnTheirGrids -/

theorem witness_TimesFallOnTheirGrids_1_1 :
    ∃ (base : Nat) (cycle : Nat) (ta : Nat), 0 < cycle ∧ (changeTime base cycle ta).2 ≠ 0 :=
  ⟨0, 125000, 0, by decide +kernel⟩

theorem witness_TimesFallOnTheirGrids_2_1 :
    ∃ (start : Nat) (period : Nat) (t : Nat), 0 < period ∧ start < t :=
  ⟨0, 1, 1, by decide +kernel⟩

/-! VerifyAsksThreeTimes -/

theorem witness_VerifyAsksThreeTimes_1 :
    ∃ (s : State) (port : Fin 64), preemptEnabled s port = true ∧ portUp s port = true ∧ egressOpen s = true ∧ flag s (portReg port 1
      0xD0) 30 = false ∧ (fld s (portReg port 1 0xD4) 29 27 = 1 ∨ (fld s (portReg port 1 0xD4) 29 27 = 2 ∧ (portAt s port).verifySent < 3 ∧
      (portAt s port).verifyAt + (fld s (portReg port 1 0xD0) 29 23 + 1) * 1000000 ≤ now s)) :=
  ⟨upState [(0x2010D0, 2 ^ 31), (0x2010D4, 2 ^ 30 + 2 ^ 27)], 0, by decide +kernel⟩

theorem witness_VerifyAsksThreeTimes_2 :
    ∃ (s : State), egressOpen s = false :=
  ⟨powered, by decide +kernel⟩

theorem witness_VerifyAsksThreeTimes_3 :
    ∃ (s : State) (port : Fin 64), preemptEnabled s port = true ∧ portUp s port = true ∧ egressOpen s = true ∧ flag s (portReg port 1
      0xD0) 30 = false ∧ fld s (portReg port 1 0xD4) 29 27 = 2 ∧ 3 ≤ (portAt s port).verifySent ∧ (portAt s port).verifyAt + (fld s (portReg
      port 1 0xD0) 29 23 + 1) * 1000000 ≤ now s :=
  ⟨{ setPort (upState [(0x2010D0, 2 ^ 31), (0x2010D4, 2 ^ 30 + 2 * 2 ^ 27)]) 0 { verifySent := 3 } with clock := { steady := 1000000 } },
    0, by decide +kernel⟩

theorem witness_VerifyAsksThreeTimes_4 :
    ∃ (s : State) (port : Fin 64), fld s (portReg port 1 0xD4) 29 27 = 2 ∧ preemptEnabled s port = true ∧ portUp s port = true :=
  ⟨upState [(0x2010D0, 2 ^ 31), (0x2010D4, 2 ^ 30 + 2 * 2 ^ 27)], 0, by decide +kernel⟩

/-! DeviceTimeIsReadAndSteered -/

theorem witness_DeviceTimeIsReadAndSteered_1_1 :
    ∃ (s : State) (src : Source) (other : Source) (a : Nat), Admitted s src 0x4040 ∧ other.code ≠ src.code ∧ a < 2 ^ 26 :=
  ⟨powered, .pf0, .pf1, 0x404C, by decide +kernel⟩

theorem witness_DeviceTimeIsReadAndSteered_2 :
    ∃ (s : State) (src : Source), Admitted s src 0x4040 :=
  ⟨powered, .pf0, by decide +kernel⟩

theorem witness_DeviceTimeIsReadAndSteered_3 :
    ∃ (s : State) (n : Int), s.startup.island = true ∧ s.clock.stepWaiting = some n :=
  ⟨{ powered with clock := { stepWaiting := some (-5) } }, -5, by decide +kernel⟩

theorem witness_DeviceTimeIsReadAndSteered_4 :
    ∃ (s : State) (n : Int), s.clock.dev < devWrap ∧ 0 ≤ (devNs s : Int) + n ∧ (devNs s : Int) + n < 2 ^ 48 * 1000000000 :=
  ⟨{ powered with clock := { dev := 5 * 2 ^ 40 } }, -5, by decide +kernel⟩

theorem witness_DeviceTimeIsReadAndSteered_5 :
    ∃ (s : State) (src : Source), Admitted s src 0x4040 :=
  ⟨powered, .pf0, by decide +kernel⟩

theorem witness_DeviceTimeIsReadAndSteered_6 :
    ∃ (s : State) (n : Nat) (adj : Int), s.clock.slewNext = some (n, adj) :=
  ⟨{ powered with clock := { slewNext := some (10, -1) } }, 10, -1, by decide +kernel⟩

theorem witness_DeviceTimeIsReadAndSteered_7 :
    ∃ (s : State) (src : Source), Admitted s src 0x4040 :=
  ⟨powered, .pf0, by decide +kernel⟩

theorem witness_DeviceTimeIsReadAndSteered_8 :
    ∃ (s : State), flag s 0x4078 30 = true ∧ s.clock.slewEnds = true ∧ s.clock.slewNext = none :=
  ⟨{ withWords [(0x4078, 2 ^ 30)] with clock := { slewEnds := true } }, by decide +kernel⟩

theorem witness_DeviceTimeIsReadAndSteered_9 :
    ∃ (s : State), flag s 0x4078 30 = true ∧ s.clock.slewLeft = 0 :=
  ⟨withWords [(0x4078, 2 ^ 30)], by decide +kernel⟩

theorem witness_DeviceTimeIsReadAndSteered_10 :
    ∃ (s : State), 0 < s.clock.slewLeft ∧ 0 ≤ (tickIncrement s : Int) + s.clock.slewAdj :=
  ⟨{ powered with clock := { slewLeft := 1, slewAdj := -5 } }, by decide +kernel⟩

theorem witness_DeviceTimeIsReadAndSteered_11 :
    ∃ (s : State), s.clock.slewLeft = 0 :=
  ⟨powered, by decide +kernel⟩

/-! TimeEventPinsStampAndDrive -/

theorem witness_TimeEventPinsStampAndDrive_1 :
    ∃ (s : State) (k : Fin 8) (falling : Bool), tevMode s k = 1 ∧ fld s (tevBase k) 28 27 = (if falling then 1 else 0) ∧ (tevAt s
      k).fifo.length < 16 :=
  ⟨withWords [(0x5120, 2 ^ 29 + 2 ^ 27)], 7, true, by decide +kernel⟩

theorem witness_TimeEventPinsStampAndDrive_2 :
    ∃ (s : State) (k : Fin 8), tevMode s k = 1 ∧ fld s (tevBase k) 28 27 = 2 ∧ 16 ≤ (tevAt s k).fifo.length :=
  ⟨{ withWords [(0x5040, 2 ^ 29 + 2 * 2 ^ 27)] with tev := [(0, { fifo := List.replicate 16 (0, 0, false) })] }, 0, by decide +kernel⟩

theorem witness_TimeEventPinsStampAndDrive_3 :
    ∃ (s : State) (src : Source) (k : Fin 8) (sec : Nat) (ns : Nat) (falling : Bool) (rest : List (Nat × Nat × Bool)), mayRead s src
      (tevBase k + 0x18) = true ∧ (tevAt s k).fifo = (sec, ns, falling) :: rest :=
  ⟨{ powered with tev := [(0, { fifo := [(1, 2, true)] })] }, .pf0, 0, 1, 2, true, [], by decide +kernel⟩

theorem witness_TimeEventPinsStampAndDrive_4 :
    ∃ (s : State) (src : Source) (k : Fin 8), mayRead s src (tevBase k + 0x18) = true ∧ (tevAt s k).fifo = [] :=
  ⟨powered, .pf0, 0, by decide +kernel⟩

theorem witness_TimeEventPinsStampAndDrive_5 :
    ∃ (s : State) (src : Source) (k : Fin 8), Admitted s src (tevBase k) ∧ tevMode s k = 2 ∧ devNs s + 1000 ≤ (rd s (tevBase k + 8) + fld
      s (tevBase k + 0xC) 15 0 * 2 ^ 32) * 1000000000 + rd s (tevBase k + 4) :=
  ⟨withWords [(0x5040, 2 * 2 ^ 29), (0x5044, 1000)], .pf0, 0, by decide +kernel⟩

theorem witness_TimeEventPinsStampAndDrive_6 :
    ∃ (s : State) (src : Source) (k : Fin 8), Admitted s src (tevBase k) ∧ tevMode s k = 2 ∧ (rd s (tevBase k + 8) + fld s (tevBase k +
      0xC) 15 0 * 2 ^ 32) * 1000000000 + rd s (tevBase k + 4) < devNs s + 1000 :=
  ⟨withWords [(0x5040, 2 * 2 ^ 29), (0x5044, 999)], .pf0, 0, by decide +kernel⟩

theorem witness_TimeEventPinsStampAndDrive_7 :
    ∃ (s : State) (k : Fin 8), (tevAt s k).armed = true ∧ tevMode s k = 3 ∧ (tevAt s k).nextEdge ≠ 0 ∧ (tevAt s k).nextEdge ≤ devNs s ∧
      tevFrozen s = false :=
  ⟨{ withWords [(0x5040, 3 * 2 ^ 29)] with tev := [(0, { armed := true, nextEdge := 1, period := 10 })], clock := { dev := 2 ^ 40 } }, 0,
    by decide +kernel⟩

theorem witness_TimeEventPinsStampAndDrive_8 :
    ∃ (s : State) (k : Fin 8) (w : Nat), (tevAt s k).activeUntil = some w ∧ w ≤ now s ∧ tevFrozen s = false :=
  ⟨{ powered with tev := [(7, { activeUntil := some 0 })] }, 7, 0, by decide +kernel⟩

theorem witness_TimeEventPinsStampAndDrive_9 :
    ∃ (s : State), tevFrozen s = true :=
  ⟨withWords [(0x5008, 2 ^ 31)], by decide +kernel⟩

/-! ArmedDevicesClaimOnReleasedSamples -/

theorem witness_ArmedDevicesClaimOnReleasedSamples_1 :
    ∃ (s : State) (src : Source), Admitted s src 0x6048 :=
  ⟨powered, .pf0, by decide +kernel⟩

theorem witness_ArmedDevicesClaimOnReleasedSamples_2 :
    ∃ (s : State) (src : Source), Admitted s src 0x6048 ∧ role s ≠ 1 :=
  ⟨powered, .pf0, by decide +kernel⟩

theorem witness_ArmedDevicesClaimOnReleasedSamples_3 :
    ∃ (s : State) (src : Source), Admitted s src 0x6048 ∧ role s = 1 :=
  ⟨claimer 1, .pf0, by decide +kernel⟩

theorem witness_ArmedDevicesClaimOnReleasedSamples_4 :
    ∃ (s : State) (l : List Bool), l.length = 50 ∧ s.startup.railsUp = true ∧ armed s = true ∧ role s = 0 ∧ claims s = false ∧ l.any id =
      false :=
  ⟨withWords [(0x6048, 2 ^ 31)], List.replicate 50 false, by decide +kernel⟩

theorem witness_ArmedDevicesClaimOnReleasedSamples_5 :
    ∃ (s : State) (l : List Bool), l.length = 50 ∧ (s.startup.railsUp = false ∨ armed s = false ∨ role s ≠ 0 ∨ claims s = true ∨ l.any id
      = true) :=
  ⟨powered, List.replicate 49 false ++ [true], by decide +kernel⟩

theorem witness_ArmedDevicesClaimOnReleasedSamples_6_1 :
    ∃ (s : State) (l : List Bool), l.length = 25 ∧ role s = 1 ∧ claims s = true ∧ s.twin.releaseAt = none ∧ s.twin.conflicted = false ∧
      l.any id = false ∧ s.twin.staged = [] ∧ s.twin.finalApplied = false :=
  ⟨claimer 1, List.replicate 25 false, by decide +kernel⟩

theorem witness_ArmedDevicesClaimOnReleasedSamples_7 :
    ∃ (s : State) (l : List Bool), l.length = 25 ∧ role s = 1 ∧ claims s = true ∧ s.twin.releaseAt = none ∧ l.any id = true :=
  ⟨claimer 1, List.replicate 24 false ++ [true], by decide +kernel⟩

theorem witness_ArmedDevicesClaimOnReleasedSamples_8_1 :
    ∃ (s : State) (l : List Bool), l.length = 50 ∧ claims s = true ∧ s.twin.releaseAt = none ∧ s.twin.conflicted = false ∧
      s.twin.confirmed = true ∧ l.any id = false ∧ (∀ p, p < 64 → portUp s p = false) :=
  ⟨{ claimer 2 with twin := { confirmed := true } }, List.replicate 50 false, by decide +kernel⟩

theorem witness_ArmedDevicesClaimOnReleasedSamples_9 :
    ∃ (s : State) (l : List Bool), l.length = 50 ∧ claims s = false :=
  ⟨powered, List.replicate 50 false, by decide +kernel⟩

/-! ClaimsAreContestedReleasedAndTakenOver -/

theorem witness_ClaimsAreContestedReleasedAndTakenOver_1_1 :
    ∃ (s : State), claims s = true ∧ flag s 0x604C 24 = true :=
  ⟨withWords [(0x604C, 2 ^ 28 + 2 ^ 24 + 2 ^ 29)], by decide +kernel⟩

theorem witness_ClaimsAreContestedReleasedAndTakenOver_1_3 :
    ∃ (s : State), claims s = true ∧ flag s 0x604C 24 = false ∧ s.twin.confirmed = false :=
  ⟨claimer 1, by decide +kernel⟩

theorem witness_ClaimsAreContestedReleasedAndTakenOver_2 :
    ∃ (s : State), claims s = true ∧ flag s 0x604C 24 = false ∧ s.twin.confirmed = true ∧ FrontsIdle s :=
  ⟨{ claimer 3 with twin := { confirmed := true } }, by decide +kernel, by decide +kernel, by decide +kernel, fun _ => ⟨rfl, rfl⟩⟩

theorem witness_ClaimsAreContestedReleasedAndTakenOver_3 :
    ∃ (s : State), claims s = false :=
  ⟨powered, by decide +kernel⟩

theorem witness_ClaimsAreContestedReleasedAndTakenOver_4_1 :
    ∃ (s : State) (src : Source), Admitted s src 0x6048 ∧ claims s = true ∧ s.twin.releaseAt = none ∧ FrontsIdle s :=
  ⟨claimer 1, .pf0, by decide +kernel, by decide +kernel, by decide +kernel, fun _ => ⟨rfl, rfl⟩⟩

theorem witness_ClaimsAreContestedReleasedAndTakenOver_5 :
    ∃ (s : State) (src : Source), Admitted s src 0x6048 ∧ claims s = false :=
  ⟨powered, .pf0, by decide +kernel⟩

theorem witness_ClaimsAreContestedReleasedAndTakenOver_6 :
    ∃ (s : State) (r : Nat), s.twin.releaseAt = some r ∧ r ≤ now s :=
  ⟨{ powered with twin := { releaseAt := some 0 } }, 0, by decide +kernel⟩

theorem witness_ClaimsAreContestedReleasedAndTakenOver_7 :
    ∃ (s : State), s.twin.releaseAt = none :=
  ⟨powered, by decide +kernel⟩

theorem witness_ClaimsAreContestedReleasedAndTakenOver_8 :
    ∃ (s : State), role s = 2 ∧ (s.twin.finalApplied = true ∨ s.twin.confirmedAt + 10000 ≤ s.clock.cycleStart) :=
  ⟨{ claimer 2 with clock := { cycleStart := 10000 } }, by decide +kernel⟩

theorem witness_ClaimsAreContestedReleasedAndTakenOver_9 :
    ∃ (s : State), role s = 2 ∧ s.twin.finalApplied = false ∧ s.clock.cycleStart < s.twin.confirmedAt + 10000 :=
  ⟨{ claimer 2 with clock := { cycleStart := 9999 } }, by decide +kernel⟩

/-! KettleComesUp -/

theorem witness_KettleComesUp_1 :
    ∃ (s : State) (src : Source), Admitted s src 0x6044 ∧ kettleState s = 0 ∧ flag s 0x1040 27 = false :=
  ⟨powered, .pf0, by decide +kernel⟩

theorem witness_KettleComesUp_2 :
    ∃ (s : State), kettleState s = 1 :=
  ⟨kettleIn 1, by decide +kernel⟩

theorem witness_KettleComesUp_3 :
    ∃ (s : State), kettleState s = 1 ∧ s.kettle.since + 500000000 ≤ now s :=
  ⟨{ kettleIn 1 with clock := { steady := 500000000 } }, by decide +kernel⟩

theorem witness_KettleComesUp_4 :
    ∃ (s : State) (seatB : Bool) (v : Word32), kettleState s = 2 ∧ v.getLsbD 1 = true ∧ flag s 0x604C 24 = !seatB :=
  ⟨kettleIn 2, true, 2, by decide +kernel⟩

theorem witness_KettleComesUp_5 :
    ∃ (s : State) (v : Word32), kettleState s = 2 ∧ v.getLsbD 1 = false :=
  ⟨kettleIn 2, 1, by decide +kernel⟩

theorem witness_KettleComesUp_6 :
    ∃ (s : State) (v : Word32) (seatB : Bool), kettleState s = 2 ∧ v.getLsbD 1 = true ∧ flag s 0x604C 24 = seatB :=
  ⟨kettleIn 2, 3, false, by decide +kernel⟩

theorem witness_KettleComesUp_7 :
    ∃ (s : State), kettleState s = 2 ∧ s.kettle.helloDone = true :=
  ⟨{ kettleIn 2 with kettle := { helloDone := true } }, by decide +kernel⟩

theorem witness_KettleComesUp_8 :
    ∃ (s : State), kettleState s = 2 ∧ s.kettle.helloDone = true ∧ role s = 3 ∧ channelFull s 11 = false :=
  ⟨{ withWords [(0x6050, 2 * 2 ^ 29), (0x604C, 3 * 2 ^ 29)] with kettle := { helloDone := true } }, by decide +kernel⟩

theorem witness_KettleComesUp_9 :
    ∃ (s : State) (chain : Bool) (owner : Bool), kettleState s = 2 ∧ s.kettle.helloDone = true ∧ (chain && owner) = false :=
  ⟨{ kettleIn 2 with kettle := { helloDone := true } }, false, false, by decide +kernel⟩

theorem witness_KettleComesUp_10 :
    ∃ (s : State), kettleState s = 4 ∧ kettleOn s = true ∧ s.kettle.since + 1000000000 ≤ now s :=
  ⟨{ withWords [(0x6050, 4 * 2 ^ 29), (0x6044, 2 ^ 31)] with clock := { steady := 1000000000 } }, by decide +kernel⟩

theorem witness_KettleComesUp_11 :
    ∃ (s : State), (kettleState s = 1 ∨ kettleState s = 2) :=
  ⟨kettleIn 2, by decide +kernel⟩

theorem witness_KettleComesUp_12 :
    ∃ (s : State), kettleState s = 3 :=
  ⟨kettleIn 3, by decide +kernel⟩

theorem witness_KettleComesUp_13 :
    ∃ (s : State), (kettleState s = 0 ∨ kettleState s = 4) :=
  ⟨kettleIn 4, by decide +kernel⟩

theorem witness_KettleComesUp_14 :
    ∃ (s : State), (kettleState s = 2 ∨ kettleState s = 3) :=
  ⟨kettleIn 3, by decide +kernel⟩

/-! KettleDeliversRecordsInOrder -/

theorem witness_KettleDeliversRecordsInOrder_1 :
    ∃ (s : State), kettleUp s = true :=
  ⟨kettleIn 3, by decide +kernel⟩

theorem witness_KettleDeliversRecordsInOrder_2 :
    ∃ (s : State) (seq : Nat), seq ≠ s.kettle.expected :=
  ⟨powered, 1, by decide +kernel⟩

theorem witness_KettleDeliversRecordsInOrder_3 :
    ∃ (s : State) (n : Nat), kettleUp s = true ∧ s.kettle.waiting = [] ∧ s.kettle.unacked.findIdx? (fun r => r.seq == n) = none :=
  ⟨kettleIn 3, 0, by decide +kernel⟩

theorem witness_KettleDeliversRecordsInOrder_4 :
    ∃ (s : State) (n : Nat) (k : Nat), kettleUp s = true ∧ s.kettle.waiting = [] ∧ (∀ r ∈ s.kettle.unacked, r.head / 2 ^ 24 ≠ 0x3F) ∧
      s.kettle.unacked.findIdx? (fun r => r.seq == n) = some k :=
  ⟨{ kettleIn 3 with kettle := { unacked := [⟨0, 0x40000000, [], 0, 0⟩] } }, 0, 0, by decide +kernel⟩

theorem witness_KettleDeliversRecordsInOrder_5 :
    ∃ (s : State) (r : KettleRecord) (rest : List KettleRecord), s.kettle.unacked = r :: rest ∧ kettleUp s = true ∧ r.sentAt + 10000 ≤ now
      s ∧ (∀ x ∈ s.kettle.unacked, x.sends + 1 < 16) :=
  ⟨{ kettleIn 3 with kettle := { unacked := [⟨0, 0x40000000, [], 14, 0⟩] }, clock := { steady := 10000 } }, ⟨0, 0x40000000, [], 14, 0⟩,
    [], by decide +kernel⟩

theorem witness_KettleDeliversRecordsInOrder_6 :
    ∃ (s : State) (u : State) (seq : Nat) (ws : List Nat), ws.length = 12 ∧ kettleUp s = true ∧ seq = s.kettle.expected ∧ u = sendAck { s
      with kettle := { s.kettle with expected := (seq + 1) % 2 ^ 23 } } false :=
  ⟨kettleIn 3, sendAck { kettleIn 3 with kettle := { (kettleIn 3).kettle with expected := (0 + 1) % 2 ^ 23 } } false, 0,
    List.replicate 12 0, by decide +kernel, by decide +kernel, by decide +kernel, rfl⟩

/-! MateResetsDigestsAndResyncs -/

theorem witness_MateResetsDigestsAndResyncs_1 :
    ∃ (s : State) (r : Nat), s.twin.mateResetUntil = some r ∧ r ≤ now s :=
  ⟨{ powered with twin := { mateResetUntil := some 0 } }, 0, by decide +kernel⟩

theorem witness_MateResetsDigestsAndResyncs_2 :
    ∃ (s : State) (src : Source), Admitted s src 0x6048 :=
  ⟨powered, .pf0, by decide +kernel⟩

theorem witness_MateResetsDigestsAndResyncs_3 :
    ∃ (s : State), s.twin.digestDue = true ∧ s.firmware.running = true :=
  ⟨{ powered with twin := { digestDue := true }, firmware := { running := true } }, by decide +kernel⟩

theorem witness_MateResetsDigestsAndResyncs_4 :
    ∃ (s : State), (s.twin.digestDue = false ∨ s.firmware.running = false) :=
  ⟨powered, by decide +kernel⟩

theorem witness_MateResetsDigestsAndResyncs_5_1 :
    ∃ (s : State) (src : Source), Admitted s src 0x6048 ∧ role s = 0 ∧ kettleUp s = true :=
  ⟨kettleIn 3, .pf0, by decide +kernel⟩

theorem witness_MateResetsDigestsAndResyncs_5_2 :
    ∃ (s : State) (src : Source), Admitted s src 0x6048 ∧ role s = 0 ∧ kettleUp s = false :=
  ⟨powered, .pf0, by decide +kernel⟩

theorem witness_MateResetsDigestsAndResyncs_6 :
    ∃ (s : State) (src : Source), Admitted s src 0x6048 ∧ role s ≠ 0 :=
  ⟨claimer 3, .pf0, by decide +kernel⟩

theorem witness_MateResetsDigestsAndResyncs_7 :
    ∃ (s : State) (k : Nat), s.twin.bulk = .applying k :=
  ⟨{ powered with twin := { bulk := .applying 5 } }, 5, by decide +kernel⟩

theorem witness_MateResetsDigestsAndResyncs_8 :
    ∃ (s : State), (∀ k, s.twin.bulk ≠ .applying k) :=
  ⟨powered, fun _ => nofun⟩

/-! HandoversAreGraceful -/

theorem witness_HandoversAreGraceful_1 :
    ∃ (s : State) (src : Source), Admitted s src 0x6048 ∧ s.twin.handover = .none ∧ role s = 3 ∧ kettleUp s = true ∧ s.twin.mateArm = true
      ∧ s.twin.mateSynced = true ∧ s.twin.mateFailed = false :=
  ⟨{ withWords [(0x604C, 3 * 2 ^ 29), (0x6050, 3 * 2 ^ 29)] with twin := { mateArm := true, mateSynced := true } }, .pf0,
    by decide +kernel⟩

theorem witness_HandoversAreGraceful_2 :
    ∃ (s : State) (src : Source), Admitted s src 0x6048 ∧ role s ≠ 3 :=
  ⟨powered, .pf0, by decide +kernel⟩

theorem witness_HandoversAreGraceful_3 :
    ∃ (s : State) (src : Source), Admitted s src 0x6048 ∧ role s = 3 ∧ kettleUp s = false :=
  ⟨claimer 3, .pf0, by decide +kernel⟩

theorem witness_HandoversAreGraceful_4 :
    ∃ (s : State) (b : Nat), s.twin.handover = .draining b ∧ b + drainNs s ≤ now s :=
  ⟨{ powered with twin := { handover := .draining 0 }, clock := { steady := 100000 } }, 0, by decide +kernel⟩

theorem witness_HandoversAreGraceful_5 :
    ∃ (s : State) (b : Nat), s.twin.handover = .draining b ∧ now s < b + drainNs s ∧ busyQueues s ≠ [] :=
  ⟨setQueue { powered with twin := { handover := .draining 1 } } 0 { head := [.copy someCopy] }, 1, by decide +kernel⟩

theorem witness_HandoversAreGraceful_6_1 :
    ∃ (s : State) (b : Nat), s.twin.handover = .final b ∧ (endsAcked s = true ∨ b + 110000 ≤ now s) ∧ claims s = true ∧ s.twin.releaseAt =
      none :=
  ⟨{ claimer 4 with twin := { handover := .final 0 }, clock := { steady := 110000 } }, 0, by decide +kernel⟩

theorem witness_HandoversAreGraceful_6_3 :
    ∃ (s : State) (b : Nat), s.twin.handover = .final b ∧ (endsAcked s = true ∨ b + 110000 ≤ now s) ∧ FrontsIdle s ∧ claims s = true :=
  ⟨{ claimer 4 with twin := { handover := .final 0 }, clock := { steady := 110000 } }, 0, by decide +kernel, by decide +kernel,
    fun _ => ⟨rfl, rfl⟩, by decide +kernel⟩

theorem witness_HandoversAreGraceful_7 :
    ∃ (s : State) (r : Nat), s.twin.handover = .releasing ∧ s.twin.releaseAt = some r ∧ r ≤ now s :=
  ⟨{ claimer 4 with twin := { handover := .releasing, releaseAt := some 0 } }, 0, by decide +kernel⟩

theorem witness_HandoversAreGraceful_8 :
    ∃ (s : State) (b : Nat), s.twin.handover = .final b ∧ endsAcked s = false ∧ now s < b + 110000 :=
  ⟨{ powered with twin := { handover := .final 0 }, kettle := { unacked := [⟨0, 0x3F * 2 ^ 24, [], 0, 0⟩] } }, 0, by decide +kernel⟩

/-! SelfTestsShowWhatFails -/

theorem witness_SelfTestsShowWhatFails_1_1 :
    ∃ (s : State) (i : Fin 8) (ns : Nat), selftests s = true ∧ nth s.twin.frameDue i ≤ s.twin.boundaries ∧ ns < 10000 ∧
      s.twin.frameDue.length = 8 :=
  ⟨powered, 7, 9999, by decide +kernel⟩

theorem witness_SelfTestsShowWhatFails_2 :
    ∃ (s : State) (i : Fin 8) (content : Bool) (sequence : Bool) (ns : Nat), selftests s = true ∧ nth s.twin.frameDue i ≤
      s.twin.boundaries ∧ (content = false ∨ sequence = false ∨ 10000 ≤ ns) :=
  ⟨powered, 7, true, true, 10000, by decide +kernel⟩

theorem witness_SelfTestsShowWhatFails_3 :
    ∃ (s : State) (i : Fin 8), (selftests s = false ∨ s.twin.boundaries < nth s.twin.frameDue i) :=
  ⟨{ powered with twin := { frameDue := List.replicate 8 1 } }, 7, by decide +kernel⟩

theorem witness_SelfTestsShowWhatFails_4 :
    ∃ (s : State) (c : Fin 4), selftests s = true ∧ cxlState s c = 3 ∧ nth s.twin.spillDue c ≤ s.twin.boundaries :=
  ⟨withWords [(0x6040, 2 ^ 30), (0x408048, 3 * 2 ^ 28)], 0, by decide +kernel⟩

theorem witness_SelfTestsShowWhatFails_5 :
    ∃ (s : State) (c : Fin 4) (a : Nat), selftests s = true ∧ cxlState s c = 3 ∧ nth s.twin.spillDue c ≤ s.twin.boundaries ∧
      s.firmware.reserved.find? (fun e => e.1 == c.val) = some (c.val, a) :=
  ⟨{ withWords [(0x6040, 2 ^ 30), (0x408048, 3 * 2 ^ 28)] with firmware := { reserved := [(0, 5)] } }, 0, 5, by decide +kernel⟩

theorem witness_SelfTestsShowWhatFails_6 :
    ∃ (s : State) (l : List Nat), l.length = 66 ∧ coreRuns s = true ∧ eyeFails (showEyes s l) = false :=
  ⟨powered, List.replicate 66 0, by decide +kernel⟩

theorem witness_SelfTestsShowWhatFails_7 :
    ∃ (s : State) (l : List Nat), l.length = 66 ∧ selftests s = true ∧ eyeFails (showEyes s l) = true :=
  ⟨withWords [(0x6040, 2 ^ 30), (0x6050, 3 * 2 ^ 29), (0x6054, 255 * 2 ^ 16), (0x300044, 7 * 2 ^ 29)], List.replicate 66 0,
    by decide +kernel⟩

theorem witness_SelfTestsShowWhatFails_8 :
    ∃ (s : State), selftests s = true :=
  ⟨powered, by decide +kernel⟩

theorem witness_SelfTestsShowWhatFails_9 :
    ∃ (s : State), selftests s = true :=
  ⟨powered, by decide +kernel⟩

/-! WatchdogsAndDelayedResetsWait -/

theorem witness_WatchdogsAndDelayedResetsWait_1 :
    ∃ (s : State) (src : Source), Admitted s src 0x2048 ∧ s.power.expired = false ∧ flag s 0x2044 31 = true :=
  ⟨powered, .pf0, by decide +kernel⟩

theorem witness_WatchdogsAndDelayedResetsWait_2 :
    ∃ (s : State) (src : Source) (v : Word32), Admitted s src 0x2048 ∧ v ≠ 0xC0DE :=
  ⟨powered, .pf0, 0xC0DF, by decide +kernel⟩

theorem witness_WatchdogsAndDelayedResetsWait_3 :
    ∃ (s : State) (src : Source), Admitted s src 0x2048 ∧ s.power.expired = true :=
  ⟨{ powered with power := { expired := true } }, .pf0, by decide +kernel⟩

theorem witness_WatchdogsAndDelayedResetsWait_4 :
    ∃ (s : State) (src : Source) (v : Word32), Admitted s src 0x2044 ∧ flag s 0x2028 0 = false ∧ s.power.expired = false ∧ flag s 0x2044
      31 = false ∧ v.getLsbD 31 = true :=
  ⟨withWords [(0x2044, 0)], .pf0, 2 ^ 31, by decide +kernel⟩

theorem witness_WatchdogsAndDelayedResetsWait_5_1 :
    ∃ (s : State) (r : Nat), s.power.watchdog = some r ∧ r ≤ now s ∧ flag s 0x2044 30 = true :=
  ⟨{ withWords [(0x2044, 2 ^ 30)] with power := { watchdog := some 0 } }, 0, by decide +kernel⟩

theorem witness_WatchdogsAndDelayedResetsWait_5_2 :
    ∃ (s : State) (r : Nat), s.power.watchdog = some r ∧ r ≤ now s ∧ flag s 0x2044 30 = false :=
  ⟨{ withWords [(0x2044, 0)] with power := { watchdog := some 0 } }, 0, by decide +kernel⟩

theorem witness_WatchdogsAndDelayedResetsWait_6 :
    ∃ (s : State), s.power.watchdog = none :=
  ⟨powered, by decide +kernel⟩

theorem witness_WatchdogsAndDelayedResetsWait_7 :
    ∃ (s : State) (r : Nat), s.power.watchdog = some r ∧ now s < r :=
  ⟨{ powered with power := { watchdog := some 1 } }, 1, by decide +kernel⟩

theorem witness_WatchdogsAndDelayedResetsWait_8 :
    ∃ (s : State) (r : Nat) (c : Nat), s.errors.resetAt = some (r, c) ∧ r ≤ now s :=
  ⟨{ powered with errors := { resetAt := some (0, 6) } }, 0, 6, by decide +kernel⟩

theorem witness_WatchdogsAndDelayedResetsWait_9 :
    ∃ (s : State) (r : Nat) (c : Nat), s.errors.resetAt = some (r, c) ∧ now s < r :=
  ⟨{ powered with errors := { resetAt := some (1, 6) } }, 1, 6, by decide +kernel⟩

theorem witness_WatchdogsAndDelayedResetsWait_10 :
    ∃ (s : State), s.errors.resetAt = none :=
  ⟨powered, by decide +kernel⟩

/-! SlicesSleepAndWake -/

theorem witness_SlicesSleepAndWake_1 :
    ∃ (s : State) (i : Fin 8), sleepDepth s ≠ 0 ∧ awake s i = true ∧ sliceIdleSince s i + sleepIdleNs s ≤ now s ∧ sliceQuiet s i = true :=
  ⟨{ withWords [(0x304C, 5)] with regsCur := [(0x3040, 0x04000000)], clock := { steady := 1000000000 } }, 0, by decide +kernel⟩

theorem witness_SlicesSleepAndWake_2 :
    ∃ (s : State) (i : Fin 8), sleepDepth s = 2 ∧ (sliceAt s i).sleep = .light ∧ (sliceAt s i).asleepSince + fld s 0x304C 31 16 * 1000 ≤
      now s :=
  ⟨{ powered with regsCur := [(0x3040, 0x08000000)], slices := [(0, { sleep := .light })], clock := { steady := 1000000000 } }, 0,
    by decide +kernel⟩

theorem witness_SlicesSleepAndWake_3 :
    ∃ (s : State) (i : Fin 8), (sliceAt s i).sleep = .light :=
  ⟨{ powered with slices := [(0, { sleep := .light })] }, 0, by decide +kernel⟩

theorem witness_SlicesSleepAndWake_4 :
    ∃ (s : State) (i : Fin 8), (sliceAt s i).sleep = .deep :=
  ⟨{ powered with slices := [(0, { sleep := .deep })] }, 0, by decide +kernel⟩

theorem witness_SlicesSleepAndWake_5 :
    ∃ (s : State) (i : Fin 8) (deep : Bool), (sliceAt s i).sleep = .waking deep ∧ (sliceAt s i).wakeFifo = [] :=
  ⟨{ powered with slices := [(0, { sleep := .waking true })] }, 0, true, by decide +kernel⟩

theorem witness_SlicesSleepAndWake_6 :
    ∃ (s : State) (i : Fin 8) (deep : Bool), (sliceAt s i).sleep = .waking deep ∧ s.power.stallUntil.isSome = true :=
  ⟨{ powered with slices := [(7, { sleep := .waking true })], power := { stallUntil := some 5 } }, 7, true, by decide +kernel⟩

/-! PowerIsGoverned -/

theorem witness_PowerIsGoverned_1_1 :
    ∃ (s : State) (g : GovStep) (l : List GovStep), s.power.steps = g :: l ∧ thermalWarn s = false ∧ s.power.relaxSince + max 1 (fld s
      0x3044 7 0) * 1000000 ≤ now s ∧ g.step ≠ 4 :=
  ⟨{ powered with power := { steps := [⟨1, 0⟩] }, clock := { steady := 1000000000 } }, ⟨1, 0⟩, [], by decide +kernel⟩

theorem witness_PowerIsGoverned_2 :
    ∃ (s : State), (s.power.steps = [] ∨ thermalWarn s = true) :=
  ⟨powered, by decide +kernel⟩

theorem witness_PowerIsGoverned_3 :
    ∃ (s : State) (n : Nat), s.startup.aonUp = true ∧ s.power.alert = false ∧ calibrated s n ≤ hardCap s :=
  ⟨powered, 0, by decide +kernel⟩

theorem witness_PowerIsGoverned_4 :
    ∃ (s : State) (n : Nat), s.startup.aonUp = true ∧ coreRuns s = true ∧ (hardCap s < calibrated s n ∨ s.power.alert = true) ∧ emergency
      s = false :=
  ⟨powered, 0xFFFF, by decide +kernel⟩

theorem witness_PowerIsGoverned_5 :
    ∃ (s : State), s.startup.aonUp = true ∧ coreRuns s = true ∧ emergency s = false :=
  ⟨powered, by decide +kernel⟩

theorem witness_PowerIsGoverned_6 :
    ∃ (s : State), s.startup.aonUp = true :=
  ⟨powered, by decide +kernel⟩

theorem witness_PowerIsGoverned_7 :
    ∃ (s : State), s.startup.aonUp = false :=
  ⟨State.reset, by decide +kernel⟩

theorem witness_PowerIsGoverned_8 :
    ∃ (s : State), s.power.voltageAt.isSome = true :=
  ⟨{ powered with power := { voltageAt := some 0 } }, by decide +kernel⟩

theorem witness_PowerIsGoverned_9 :
    ∃ (s : State), s.power.voltageAt = none :=
  ⟨powered, by decide +kernel⟩

theorem witness_PowerIsGoverned_10 :
    ∃ (s : State) (r : Nat), s.power.voltageAt = some r ∧ r + 2000000 ≤ now s :=
  ⟨{ powered with power := { voltageAt := some 0 }, clock := { steady := 2000000 } }, 0, by decide +kernel⟩

theorem witness_PowerIsGoverned_11 :
    ∃ (s : State) (r : Nat), s.power.voltageAt = some r ∧ now s < r + 2000000 :=
  ⟨{ powered with power := { voltageAt := some 0 }, clock := { steady := 1999999 } }, 0, by decide +kernel⟩

theorem witness_PowerIsGoverned_12 :
    ∃ (s : State), s.startup.aonUp = true :=
  ⟨powered, by decide +kernel⟩

theorem witness_PowerIsGoverned_13 :
    ∃ (s : State), s.firmware.running = true :=
  ⟨{ powered with firmware := { running := true } }, by decide +kernel⟩

/-! AlwaysOnRequestsAct -/

theorem witness_AlwaysOnRequestsAct_1 :
    ∃ (s : State) (src : Source), Admitted s src 0x2040 ∧ s.power.inStandby = false ∧ standbyRefused s = true :=
  ⟨withWords [(0x604C, 3 * 2 ^ 29 + 2 ^ 26)], .pf0, by decide +kernel⟩

theorem witness_AlwaysOnRequestsAct_2 :
    ∃ (s : State) (src : Source), Admitted s src 0x2040 ∧ s.power.inStandby = false ∧ standbyRefused s = false :=
  ⟨powered, .pf0, by decide +kernel⟩

theorem witness_AlwaysOnRequestsAct_3 :
    ∃ (s : State) (src : Source), Admitted s src 0x2040 ∧ s.power.inStandby = true :=
  ⟨{ powered with power := { inStandby := true } }, .pf0, by decide +kernel⟩

theorem witness_AlwaysOnRequestsAct_4 :
    ∃ (s : State) (src : Source), Admitted s src 0x2040 ∧ s.power.inStandby = false :=
  ⟨powered, .pf0, by decide +kernel⟩

theorem witness_AlwaysOnRequestsAct_5_1 :
    ∃ (s : State) (src : Source), Admitted s src 0x2040 ∧ FrontsIdle s :=
  ⟨powered, .pf0, by decide +kernel, fun _ => ⟨rfl, rfl⟩⟩

theorem witness_AlwaysOnRequestsAct_6_1 :
    ∃ (s : State) (src : Source), Admitted s src 0x2040 ∧ (∀ p, p < 64 → portUp s p = false) :=
  ⟨powered, .pf0, by decide +kernel⟩

theorem witness_AlwaysOnRequestsAct_7 :
    ∃ (s : State) (src : Source), Admitted s src 0x2040 ∧ s.power.inStandby = false ∧ coreRuns s = true :=
  ⟨powered, .pf0, by decide +kernel⟩

theorem witness_AlwaysOnRequestsAct_8 :
    ∃ (s : State) (src : Source), Admitted s src 0x2040 ∧ s.power.inStandby = false ∧ coreRuns s = false :=
  ⟨{ powered with startup := { aonUp := true, railsUp := true, resetting := true } }, .i2c, by decide +kernel⟩

/-! TemperaturesWarnAndTrip -/

theorem witness_TemperaturesWarnAndTrip_1 :
    ∃ (s : State) (l : List Byte), l.length = 16 ∧ s.startup.aonUp = true ∧ (∀ b ∈ l, b.toInt < 95) ∧ flag s 0x2054 30 = false :=
  ⟨powered, List.replicate 16 94, by decide +kernel⟩

theorem witness_TemperaturesWarnAndTrip_2 :
    ∃ (s : State) (l : List Byte), l.length = 16 ∧ s.startup.aonUp = true ∧ (∃ b ∈ l, 110 ≤ b.toInt) ∧ (∀ b ∈ l, b.toInt < 120) ∧ flag s
      0x2054 30 = false :=
  ⟨powered, List.replicate 15 119 ++ [110], by decide +kernel⟩

theorem witness_TemperaturesWarnAndTrip_3 :
    ∃ (s : State) (l : List Byte) (k : Nat), l.length = 16 ∧ s.startup.aonUp = true ∧ k < 16 ∧ 120 ≤ (l.getD k 0).toInt ∧ bitAt
      s.power.hot k = true ∧ s.power.inStandby = false :=
  ⟨{ powered with power := { hot := 2 ^ 15 } }, List.replicate 16 120, 15, by decide +kernel⟩

theorem witness_TemperaturesWarnAndTrip_4 :
    ∃ (s : State), s.power.tripped = true ∧ s.power.inStandby = true ∧ flag s 0x2050 31 = true ∧ s.power.coolSince ≠ 0 ∧ s.power.coolSince
      + 1000000000 ≤ now s + 1 :=
  ⟨{ withWords [(0x2050, 2 ^ 31)] with
      power := { tripped := true, inStandby := true, coolSince := 1 }, clock := { steady := 1000000000 } }, by decide +kernel⟩

theorem witness_TemperaturesWarnAndTrip_5 :
    ∃ (s : State), flag s 0x2050 31 = false :=
  ⟨withWords [(0x2050, 0)], by decide +kernel⟩

theorem witness_TemperaturesWarnAndTrip_6 :
    ∃ (s : State) (l : List Byte), l.length = 16 ∧ s.startup.aonUp = false :=
  ⟨State.reset, List.replicate 16 120, by decide +kernel⟩

/-! CountersAreHeldDumpedAndStopped -/

theorem witness_CountersAreHeldDumpedAndStopped_1 :
    ∃ (s : State) (src : Source), Admitted s src 0xD040 :=
  ⟨powered, .pf0, by decide +kernel⟩

theorem witness_CountersAreHeldDumpedAndStopped_2 :
    ∃ (s : State) (d : Dump), s.counters.dump = some d ∧ s.clock.coreTenths < d.due :=
  ⟨{ powered with counters := { dump := some ⟨0, 0, 0, 0, 0, [], 0, 0, 1⟩ } }, ⟨0, 0, 0, 0, 0, [], 0, 0, 1⟩, by decide +kernel⟩

theorem witness_CountersAreHeldDumpedAndStopped_3 :
    ∃ (s : State) (d : Dump) (i : Nat), s.counters.dump = some d ∧ d.due ≤ s.clock.coreTenths ∧ nextCovered s d.sets 5000 d.next = some i
      ∧ d.gathered = [] :=
  ⟨{ powered with counters := { dump := some ⟨0, 1, 0, 0, 0, [], 0, 0, 0⟩ } }, ⟨0, 1, 0, 0, 0, [], 0, 0, 0⟩, 0, by decide +kernel⟩

theorem witness_CountersAreHeldDumpedAndStopped_4 :
    ∃ (s : State) (d : Dump) (i : Nat) (j : Nat) (v : Nat), s.counters.dump = some d ∧ d.due ≤ s.clock.coreTenths ∧ nextCovered s d.sets
      5000 d.next = some i ∧ d.gathered.getLast? = some (j, v) ∧ (sameRecord j i = false ∨ 6 ≤ d.gathered.length) :=
  ⟨{ powered with counters := { dump := some ⟨2, 1, 0, 0, 0, [(0, 7)], 0, 0, 0⟩ } }, ⟨2, 1, 0, 0, 0, [(0, 7)], 0, 0, 0⟩, 2, 0, 7,
    by decide +kernel⟩

theorem witness_CountersAreHeldDumpedAndStopped_5 :
    ∃ (s : State) (d : Dump), s.counters.dump = some d ∧ nextCovered s d.sets 5000 d.next = none :=
  ⟨{ powered with counters := { dump := some ⟨0, 0, 0, 0, 0, [], 0, 0, 0⟩ } }, ⟨0, 0, 0, 0, 0, [], 0, 0, 0⟩, by decide +kernel⟩

theorem witness_CountersAreHeldDumpedAndStopped_6 :
    ∃ (s : State) (a : Nat), fieldsAt a = some [ro 31 31, cntF 15 0] ∧ flag s a 31 = false :=
  ⟨powered, 0x6120, by decide +kernel⟩

theorem witness_CountersAreHeldDumpedAndStopped_7 :
    ∃ (a : Nat), fieldsAt a ≠ some [ro 31 31, cntF 15 0] :=
  ⟨0, by decide +kernel⟩

theorem witness_CountersAreHeldDumpedAndStopped_8_1 :
    ∃ (s : State) (a : Nat) (n : Nat), a ≠ 0xD010 ∧ fld s a 15 0 + n < 0xFFFF :=
  ⟨powered, 0x6120, 0xFFFE, by decide +kernel⟩

theorem witness_CountersAreHeldDumpedAndStopped_8_2 :
    ∃ (s : State) (a : Nat) (n : Nat), a ≠ 0xD010 ∧ 0xFFFF ≤ fld s a 15 0 + n :=
  ⟨powered, 0x6120, 0xFFFF, by decide +kernel⟩

/-! ObserversSeeWhatTheyMay -/

theorem witness_ObserversSeeWhatTheyMay_1 :
    ∃ (s : State) (o : Nat), pf1Allowed s (o / 4096) = false :=
  ⟨powered, 0, by decide +kernel⟩

theorem witness_ObserversSeeWhatTheyMay_2 :
    ∃ (s : State) (o : Nat), o < 2 ^ 20 ∧ 0x80000 ≤ o ∧ o % 8 = 0 ∧ pf1Allowed s (o / 4096) = true :=
  ⟨withWords [(0xD060, 2 ^ 31), (0xD090, 1)], 0x80000, by decide +kernel⟩

theorem witness_ObserversSeeWhatTheyMay_3 :
    ∃ (s : State) (r : List Byte) (rest : List (List Byte)), s.captures = r :: rest ∧ flag s 0xE440 31 = false ∧ eventRoom s 1 r.length =
      true :=
  ⟨{ withWords [(0xC068, 2 ^ 31)] with captures := [[]] }, [], [], by decide +kernel⟩

theorem witness_ObserversSeeWhatTheyMay_4 :
    ∃ (s : State) (r : List Byte) (rest : List (List Byte)), s.captures = r :: rest ∧ flag s 0xE440 31 = false ∧ eventRoom s 1 r.length =
      false :=
  ⟨{ powered with captures := [[]] }, [], [], by decide +kernel⟩

theorem witness_ObserversSeeWhatTheyMay_5 :
    ∃ (s : State) (r : List Byte) (rest : List (List Byte)), s.captures = r :: rest ∧ flag s 0xE440 31 = true ∧ spillRingOpen s (flag s
      0xE440 30) (fld s 0xE440 27 26) (fld s 0xE444 25 0 * 4096) = true :=
  ⟨{ withWords [(0xE440, 2 ^ 31), (0xE444, 1), (0x408048, 3 * 2 ^ 28)] with captures := [[]], colophon := { spillKey := true } }, [], [],
    by decide +kernel⟩

theorem witness_ObserversSeeWhatTheyMay_6 :
    ∃ (s : State) (r : List Nat) (rest : List (List Nat)), s.traces = r :: rest ∧ flag s 0xF040 30 = false ∧ eventRoom s 2 64 = true :=
  ⟨{ withWords [(0xC088, 2 ^ 31)] with traces := [[]] }, [], [], by decide +kernel⟩

theorem witness_ObserversSeeWhatTheyMay_7 :
    ∃ (s : State) (r : List Nat) (rest : List (List Nat)), s.traces = r :: rest ∧ flag s 0xF040 30 = false ∧ eventRoom s 2 64 = false :=
  ⟨{ powered with traces := [[]] }, [], [], by decide +kernel⟩

theorem witness_ObserversSeeWhatTheyMay_8 :
    ∃ (s : State) (r : List Nat) (rest : List (List Nat)), s.traces = r :: rest ∧ flag s 0xF040 30 = true ∧ spillRingOpen s (flag s 0xF040
      29) (fld s 0xF040 21 20) (fld s 0xF048 25 0 * 4096) = true :=
  ⟨{ withWords [(0xF040, 2 ^ 30), (0xF048, 1), (0x408048, 3 * 2 ^ 28)] with traces := [[]], colophon := { spillKey := true } }, [], [],
    by decide +kernel⟩

theorem witness_ObserversSeeWhatTheyMay_9 :
    ∃ (s : State), s.captures = [] :=
  ⟨powered, by decide +kernel⟩

theorem witness_ObserversSeeWhatTheyMay_10 :
    ∃ (s : State), s.traces = [] :=
  ⟨powered, by decide +kernel⟩

/-! EndpointAndRings -/

theorem witness_EndpointAndRings_1 :
    ∃ (s : State), s.host.inReset = false :=
  ⟨{ powered with host := { inReset := false } }, by decide +kernel⟩

theorem witness_EndpointAndRings_2 :
    ∃ (s : State), s.host.inReset = true :=
  ⟨powered, by decide +kernel⟩

theorem witness_EndpointAndRings_3 :
    ∃ (s : State), s.host.inReset = true :=
  ⟨powered, by decide +kernel⟩

theorem witness_EndpointAndRings_4 :
    ∃ (s : State), s.host.inReset = false :=
  ⟨{ powered with host := { inReset := false } }, by decide +kernel⟩

theorem witness_EndpointAndRings_5 :
    ∃ (s : State), s.host.inReset = false :=
  ⟨{ powered with host := { inReset := false } }, by decide +kernel⟩

theorem witness_EndpointAndRings_7 :
    ∃ (s : State) (r : Fin 256) (v : Word32), r.val < 136 ∧ s.host.linkUp = true ∧ heldInReset s (.dma 0) = false ∧ ringSize s r ≤ v.toNat
      :=
  ⟨{ powered with host := { inReset := false, linkUp := true, d0 := true, busMaster := true } }, 135, 0xFFFFFFFF, by decide +kernel⟩

theorem witness_EndpointAndRings_8 :
    ∃ (s : State) (r : Fin 256) (v : Word32), r.val < 136 ∧ s.host.linkUp = true ∧ heldInReset s (.dma 0) = false ∧ v.toNat < ringSize s r
      ∧ (r.val < 128 ∨ r.val = 135) :=
  ⟨{ powered with host := { inReset := false, linkUp := true, d0 := true, busMaster := true } }, 135, 0, by decide +kernel⟩

theorem witness_EndpointAndRings_9 :
    ∃ (s : State) (r : Fin 256) (v : Word32), s.host.linkUp = true ∧ heldInReset s (.dma 0) = false ∧ v.toNat < ringSize s r ∧ 128 ≤ r.val
      ∧ r.val < 135 :=
  ⟨{ powered with host := { inReset := false, linkUp := true, d0 := true, busMaster := true } }, 134, 0, by decide +kernel⟩

theorem witness_EndpointAndRings_10 :
    ∃ (s : State) (r : Fin 256), (136 ≤ r.val ∨ s.host.linkUp = false) :=
  ⟨powered, 136, by decide +kernel⟩

theorem witness_EndpointAndRings_11 :
    ∃ (s : State) (src : Source) (r : Fin 136), Admitted s src (ringBase r + 8) ∧ ringOn s r = false ∧ ringIsIdle s r = true :=
  ⟨powered, .pf0, 135, by decide +kernel⟩

theorem witness_EndpointAndRings_12 :
    ∃ (s : State) (src : Source) (r : Fin 136), Admitted s src (ringBase r + 8) ∧ (ringOn s r = true ∨ ringIsIdle s r = false) :=
  ⟨withWords [(0xA048, 2 ^ 31)], .pf0, 0, by decide +kernel⟩

theorem witness_EndpointAndRings_13 :
    ∃ (s : State) (src : Source) (r : Fin 136), Admitted s src (ringBase r + 8) :=
  ⟨powered, .pf0, 0, by decide +kernel⟩

theorem witness_EndpointAndRings_14 :
    ∃ (s : State) (r : Fin 136), r.val ≠ 135 ∧ ringOn s r = false ∧ ringIsIdle s r = false ∧ ringPosted s r = 0 :=
  ⟨withWords [(0xA048, 0)], 0, by decide +kernel⟩

theorem witness_EndpointAndRings_15 :
    ∃ (s : State) (r : Fin 136), (ringAt s r).unsignalled ≠ 0 ∧ (ringAt s r).unsignalled - 1 + fld s (ringBase r + 8) 15 0 * 1000 ≤ now s
      :=
  ⟨{ powered with host := { rings := [(0, { unsignalled := 1 })] }, clock := { steady := 1000000 } }, 0, by decide +kernel⟩

theorem witness_EndpointAndRings_16 :
    ∃ (s : State) (r : Fin 136), (ringAt s r).unsignalled = 0 :=
  ⟨powered, 0, by decide +kernel⟩

theorem witness_EndpointAndRings_17 :
    ∃ (s : State) (src : Source), Admitted s src 0x9040 ∧ flag s 0x9040 31 = false :=
  ⟨powered, .pf0, by decide +kernel⟩

theorem witness_EndpointAndRings_18 :
    ∃ (s : State) (src : Source) (addr : Nat), Admitted s src 0x9040 ∧ flag s 0x9040 31 = false ∧ inBootedSlot s (addr % 2 ^ 27) = false
      :=
  ⟨powered, .pf0, 0x7FFFFFF, by decide +kernel⟩

theorem witness_EndpointAndRings_19 :
    ∃ (s : State) (src : Source) (addr : Nat), Admitted s src 0x9040 ∧ flag s 0x9040 31 = false ∧ inBootedSlot s (addr % 2 ^ 27) = false
      :=
  ⟨powered, .pf0, 0x7FFFFFF, by decide +kernel⟩

theorem witness_EndpointAndRings_20 :
    ∃ (s : State) (src : Source) (addr : Nat), Admitted s src 0x9040 ∧ flag s 0x9040 31 = false ∧ inBootedSlot s (addr % 2 ^ 27) = true :=
  ⟨{ powered with firmware := { running := true } }, .pf0, 0x3FFFFFF, by decide +kernel⟩

theorem witness_EndpointAndRings_21 :
    ∃ (s : State) (src : Source) (addr : Nat), Admitted s src 0x9040 ∧ flag s 0x9040 31 = false ∧ inBootedSlot s (addr % 2 ^ 27) = true :=
  ⟨{ powered with firmware := { running := true } }, .pf0, 0x3FFFFFF, by decide +kernel⟩

theorem witness_EndpointAndRings_22 :
    ∃ (s : State) (src : Source), Admitted s src 0x9040 ∧ flag s 0x9040 31 = true :=
  ⟨withWords [(0x9040, 2 ^ 31)], .pf0, by decide +kernel⟩

theorem witness_EndpointAndRings_23_1 :
    ∃ (s : State) (op : Nat) (a : Nat) (ok : Bool) (data : List Byte) (n : Nat), data.length = 64 ∧ s.host.flash = some (op, a) ∧ ok =
      true ∧ op = 0 ∧ n < 16 :=
  ⟨{ powered with host := { flash := some (0, 64) } }, 0, 64, true, List.replicate 64 0xA5, 15, by decide +kernel⟩

theorem witness_EndpointAndRings_23_2 :
    ∃ (s : State) (op : Nat) (a : Nat) (ok : Bool) (data : List Byte), data.length = 64 ∧ s.host.flash = some (op, a) ∧ (ok = false ∨ op ≠
      0) :=
  ⟨{ powered with host := { flash := some (2, 64) } }, 2, 64, true, List.replicate 64 0xA5, by decide +kernel⟩

theorem witness_EndpointAndRings_24 :
    ∃ (s : State) (data : List Byte), data.length = 64 ∧ s.host.flash = none :=
  ⟨powered, List.replicate 64 0, by decide +kernel⟩

theorem witness_EndpointAndRings_25 :
    ∃ (s : State) (k : Fin 16) (level : Bool), (pagePowered s .hostIf = false ∨ flag s 0x9050 k = true ∨ flag s 0x9058 k = level) :=
  ⟨powered, 15, false, by decide +kernel⟩

theorem witness_EndpointAndRings_26_1 :
    ∃ (s : State) (k : Fin 16) (level : Bool), pagePowered s .hostIf = true ∧ flag s 0x9050 k = false ∧ flag s 0x9058 k ≠ level ∧ (if
      level then flag s 0x905C k else flag s 0x9060 (16 + k)) = true :=
  ⟨withWords [(0x9058, 2 ^ 15), (0x9060, 2 ^ 31)], 15, false, by decide +kernel⟩

theorem witness_EndpointAndRings_26_2 :
    ∃ (s : State) (k : Fin 16) (level : Bool), pagePowered s .hostIf = true ∧ flag s 0x9050 k = false ∧ flag s 0x9058 k ≠ level ∧ (if
      level then flag s 0x905C k else flag s 0x9060 (16 + k)) = false :=
  ⟨withWords [(0x9058, 2 ^ 15)], 15, false, by decide +kernel⟩

/-! HostFramesComeAndGo -/

theorem witness_HostFramesComeAndGo_1 :
    ∃ (s : State) (r : Fin 64) (ds : List (List Nat)), Fetches s r ds ∧ descriptorStatus ds ≠ 0 :=
  ⟨{ withWords [(0xA048, 2 ^ 31), (0xA050, 1)] with host := { inReset := false, linkUp := true, d0 := true, busMaster := true } }, 0, [[0,
    0, 0, 0]], by decide +kernel⟩

theorem witness_HostFramesComeAndGo_2 :
    ∃ (s : State) (r : Fin 64) (ds : List (List Nat)), Fetches s r ds ∧ descriptorStatus ds = 0 :=
  ⟨{ withWords [(0xA048, 2 ^ 31), (0xA050, 1)] with host := { inReset := false, linkUp := true, d0 := true, busMaster := true } }, 0, [[0,
    0, 60 * 2 ^ 16, 64 * 2 ^ 18]], by decide +kernel⟩

theorem witness_HostFramesComeAndGo_3 :
    ∃ (s : State) (r : Fin 64) (ds : List (List Nat)) (data : List Byte), Fetches s r ds ∧ descriptorStatus ds = 0 ∧ data.length + 4 =
      bits (nth (ds.headD []) 3) 31 18 :=
  ⟨{ withWords [(0xA048, 2 ^ 31), (0xA050, 1)] with host := { inReset := false, linkUp := true, d0 := true, busMaster := true } }, 0, [[0,
    0, 60 * 2 ^ 16, 64 * 2 ^ 18]], List.replicate 60 0, by decide +kernel⟩

theorem witness_HostFramesComeAndGo_4 :
    ∃ (s : State) (r : Fin 64), (ringOn s r = false ∨ hostServes s = false ∨ pipelineRuns s (fld s (ringBase r + 8) 24 22) = false ∨
      ringPosted s r = 0) :=
  ⟨powered, 63, by decide +kernel⟩

theorem witness_HostFramesComeAndGo_5_1 :
    ∃ (s : State) (c : Copy), s.host.waiting = some c ∧ egressCheck s (frameAt s c.frame) 64
      (match c.kind with | .trap _ => true | _ => false) = 0 ∧ ringOn s (64 + c.ring) = false :=
  ⟨{ setFrame powered 0 someFrame with host := { waiting := some { frame := 0, kind := .trap 8 } } }, { frame := 0, kind := .trap 8 },
    by decide +kernel⟩

theorem witness_HostFramesComeAndGo_6 :
    ∃ (s : State), s.host.waiting = none :=
  ⟨powered, by decide +kernel⟩

/-! TableCommandsComplete -/

theorem witness_TableCommandsComplete_1 :
    ∃ (s : State), s.host.completions = [] ∧ eventRoom s 6 32 = true :=
  ⟨withWords [(0xC108, 2 ^ 31)], by decide +kernel⟩

theorem witness_TableCommandsComplete_2 :
    ∃ (s : State), eventRoom s 6 32 = false :=
  ⟨powered, by decide +kernel⟩

theorem witness_TableCommandsComplete_3 :
    ∃ (s : State), commandReady s = true :=
  ⟨ready, by decide +kernel⟩

theorem witness_TableCommandsComplete_3_1 :
    ∃ (s : State) (t : Nat) (i : Nat) (n : Nat), commandReady s = true ∧ t ≤ 0x19 ∧ entriesOf (advanceHead s 135 32) t < i + countOf n :=
  ⟨ready, 0x19, 2 ^ 20, 1, by decide +kernel⟩

theorem witness_TableCommandsComplete_3_2 :
    ∃ (s : State) (t : Nat) (i : Nat) (n : Nat), commandReady s = true ∧ t ≤ 0x19 ∧ t ≠ 2 ∧ tableSlice t i = none ∧ i + countOf n ≤
      entriesOf (advanceHead s 135 32) t :=
  ⟨ready, 0, 0, 1, by decide +kernel⟩

theorem witness_TableCommandsComplete_3_3 :
    ∃ (s : State) (t : Nat) (n : Nat) (l : List Image), commandReady s = true ∧ l.length = countOf n ∧ tableReadOnly t = true :=
  ⟨ready, 0x18, 1, [0], by decide +kernel⟩

theorem witness_TableCommandsComplete_3_4 :
    ∃ (s : State) (t : Nat) (i : Nat), commandReady s = true ∧ t ≤ 0x19 ∧ t ≠ 2 ∧ tableReadOnly t = false ∧ tableSlice t i = none ∧ i <
      entriesOf (advanceHead s 135 32) t :=
  ⟨ready, 0, 0, by decide +kernel⟩

theorem witness_TableCommandsComplete_3_5 :
    ∃ (s : State), commandReady s = true ∧ role s = 3 :=
  ⟨readyActive, by decide +kernel⟩

theorem witness_TableCommandsComplete_3_7 :
    ∃ (s : State) (v : Image), commandReady s = true ∧ mapSlot (advanceHead s 135 32) (bits v.toNat 62 30) = none :=
  ⟨ready, 0, by decide +kernel, empty_map _⟩

theorem witness_TableCommandsComplete_3_10 :
    ∃ (s : State) (v : Image) (slot : Nat), commandReady s = true ∧ role s = 3 ∧ s.fdb.learnQ = [] ∧ fdbFind (advanceHead s 135 32)
      (fdbFid v.toNat) (fdbMac v.toNat) = some slot :=
  ⟨{ setTab (readyActive) 2 (placed 0 5) (BitVec.ofNat 512 (freshEntry powered (2 ^ 127) 0 5 0)) with fdb := {} },
    (BitVec.ofNat 512 (freshEntry powered (2 ^ 127) 0 5 0)), placed 0 5, by decide +kernel⟩

theorem witness_TableCommandsComplete_3_11 :
    ∃ (s : State), commandReady s = true ∧ role s ≠ 3 :=
  ⟨ready, by decide +kernel⟩

theorem witness_TableCommandsComplete_3_12 :
    ∃ (s : State) (f : Fin 4), commandReady s = true ∧ role s = 3 ∧ f.val ≠ 3 :=
  ⟨readyActive, 2, by decide +kernel⟩

/-! RegisterCommandsAndCompletions -/

theorem witness_RegisterCommandsAndCompletions_1 :
    ∃ (s : State) (h : State) (i : Nat) (n : Nat), commandReady s = true ∧ h = advanceHead s 135 32 ∧ i + 4 * countOf n ≤ 2 ^ 26 :=
  ⟨ready, _,
    2 ^ 26 - 1024, 256, by decide +kernel, rfl, by decide +kernel⟩

theorem witness_RegisterCommandsAndCompletions_2 :
    ∃ (s : State) (h : State) (i : Nat), commandReady s = true ∧ h = advanceHead s 135 32 ∧ i < 2 ^ 26 :=
  ⟨ready, _,
    2 ^ 26 - 1, by decide +kernel, rfl, by decide +kernel⟩

theorem witness_RegisterCommandsAndCompletions_3 :
    ∃ (s : State) (i : Nat), commandReady s = true ∧ i < 2 ^ 26 ∧ i % 4 ≠ 0 :=
  ⟨ready, 2 ^ 26 - 1, by decide +kernel⟩

theorem witness_RegisterCommandsAndCompletions_4 :
    ∃ (s : State) (h : State) (i : Nat), commandReady s = true ∧ h = advanceHead s 135 32 ∧ 2 ^ 26 ≤ i :=
  ⟨ready, _,
    2 ^ 26, by decide +kernel, rfl, by decide +kernel⟩

theorem witness_RegisterCommandsAndCompletions_5 :
    ∃ (s : State) (j : FlushJob) (rest : List FlushJob) (tag : Nat), s.fdb.flushes = j :: rest ∧ j.tag = some tag ∧ j.slot = 524288 :=
  ⟨{ powered with fdb := { flushes := [flushJob (some 5) none] } }, flushJob (some 5) none, [], 5, by decide +kernel⟩

theorem witness_RegisterCommandsAndCompletions_6 :
    ∃ (s : State) (j : FlushJob) (rest : List FlushJob) (k : Nat) (c : FwCommand), s.fdb.flushes = j :: rest ∧ j.tag = none ∧ j.channel =
      some k ∧ commandOf s k = some c ∧ j.slot = 524288 :=
  ⟨withCommand [0x107] { powered with fdb := { flushes := [flushJob none (some 0)] } }, flushJob none (some 0), [], 0, held [0x107],
    by decide +kernel⟩

theorem witness_RegisterCommandsAndCompletions_7 :
    ∃ (s : State) (j : FlushJob) (rest : List FlushJob), s.fdb.flushes = j :: rest :=
  ⟨{ powered with fdb := { flushes := [flushJob (some 5) none] } }, flushJob (some 5) none, [], by decide +kernel⟩

theorem witness_RegisterCommandsAndCompletions_8 :
    ∃ (s : State), s.fdb.flushes = [] :=
  ⟨powered, by decide +kernel⟩

theorem witness_RegisterCommandsAndCompletions_9 :
    ∃ (s : State) (c : Completion) (rest : List Completion), s.host.completions = c :: rest ∧ eventRoom s 6 32 = true :=
  ⟨{ withWords [(0xC108, 2 ^ 31)] with host := { completions := [⟨0, 0, 0, 0, 0⟩] } }, ⟨0, 0, 0, 0, 0⟩, [], by decide +kernel⟩

theorem witness_RegisterCommandsAndCompletions_10 :
    ∃ (s : State) (c : Completion) (rest : List Completion), s.host.completions = c :: rest ∧ eventRoom s 6 32 = false :=
  ⟨{ powered with host := { completions := [⟨0, 0, 0, 0, 0⟩] } }, ⟨0, 0, 0, 0, 0⟩, [], by decide +kernel⟩

theorem witness_RegisterCommandsAndCompletions_11 :
    ∃ (s : State), s.host.completions = [] :=
  ⟨powered, by decide +kernel⟩

/-! MailboxMessagesArePosted -/

theorem witness_MailboxMessagesArePosted_1 :
    ∃ (s : State) (src : Source) (c : Fin 12), Admitted s src (channelBase c + 0x40) ∧ channelSender c = acts src ∧ channelFull s c =
      false ∧ c.val ≠ 11 :=
  ⟨withWords [], .i2c, 4, by decide +kernel⟩

theorem witness_MailboxMessagesArePosted_2 :
    ∃ (s : State) (src : Source) (c : Fin 12), Admitted s src (channelBase c + 0x40) ∧ channelSender c = acts src ∧ channelFull s c = true
      :=
  ⟨withWords [(channelStatus 0, 2 ^ 31)], .pf0, 0, by decide +kernel⟩

theorem witness_MailboxMessagesArePosted_3 :
    ∃ (s : State) (src : Source) (c : Fin 12), Admitted s src (channelBase c + 0x40) ∧ channelSender c ≠ acts src :=
  ⟨powered, .i2c, 10, by decide +kernel⟩

theorem witness_MailboxMessagesArePosted_4 :
    ∃ (s : State), Admitted s .i2c (channelBase 4 + 0x40) :=
  ⟨powered, by decide +kernel⟩

theorem witness_MailboxMessagesArePosted_5 :
    ∃ (s : State) (src : Source) (c : Fin 12), Admitted s src (channelBase c + 0x40) ∧ (src ≠ .i2c ∨ (c.val ≠ 4 ∧ c.val ≠ 10)) :=
  ⟨powered, .pf0, 0, by decide +kernel⟩

theorem witness_MailboxMessagesArePosted_6 :
    ∃ (s : State) (c : Fin 12), channelFull s c = true ∧ receiverIsDown s c = true ∧ (channelAt s c).down = false :=
  ⟨withWords [(channelStatus 11, 2 ^ 31)], 11, by decide +kernel⟩

theorem witness_MailboxMessagesArePosted_7 :
    ∃ (s : State) (c : Fin 12), channelFull s c = false :=
  ⟨powered, 0, by decide +kernel⟩

/-! TakesDeliverTheMessageOnce -/

theorem witness_TakesDeliverTheMessageOnce_1 :
    ∃ (s : State) (src : Source) (c : Fin 12), heldInReset s .mailbox = false ∧ mayRead s src (channelBase c + 0x48) = true ∧ channelFull
      s c = true :=
  ⟨withWords [(channelStatus 6, 2 ^ 31)], .pf0, 6, by decide +kernel⟩

theorem witness_TakesDeliverTheMessageOnce_2 :
    ∃ (s : State) (src : Source) (c : Fin 12), heldInReset s .mailbox = false ∧ mayRead s src (channelBase c + 0x48) = true ∧ channelFull
      s c = false :=
  ⟨powered, .pf0, 6, by decide +kernel⟩

/-! UntakenMessagesTimeOutOnce -/

theorem witness_UntakenMessagesTimeOutOnce_1 :
    ∃ (s : State) (c : Fin 12), channelFull s c = true ∧ (channelAt s c).timed = false ∧ (channelAt s c).postedAt + max 1 (fld s 0x7040 15
      0) * 125000 ≤ now s :=
  ⟨{ withWords [(channelStatus 11, 2 ^ 31)] with clock := { steady := 10000000 } }, 11, by decide +kernel⟩

theorem witness_UntakenMessagesTimeOutOnce_2 :
    ∃ (s : State) (c : Fin 12), (channelAt s c).timed = true :=
  ⟨{ powered with channels := [(0, { timed := true })] }, 0, by decide +kernel⟩

theorem witness_UntakenMessagesTimeOutOnce_3 :
    ∃ (s : State) (c : Fin 12), now s < (channelAt s c).postedAt + max 1 (fld s 0x7040 15 0) * 125000 :=
  ⟨powered, 0, by decide +kernel⟩

/-! WithdrawsRemoveOrFail -/

theorem witness_WithdrawsRemoveOrFail_1 :
    ∃ (s : State) (src : Source) (c : Fin 12), Admitted s src (channelBase c + 0x40) ∧ channelSender c = acts src ∧ channelFull s c = true
      ∧ (c.val ≠ 11 ∨ (channelAt s c).sent = false) :=
  ⟨withWords [(channelStatus 0, 2 ^ 31)], .pf0, 0, by decide +kernel⟩

theorem witness_WithdrawsRemoveOrFail_2 :
    ∃ (s : State) (src : Source) (c : Fin 12), Admitted s src (channelBase c + 0x40) ∧ channelSender c = acts src ∧ channelFull s c =
      false :=
  ⟨powered, .pf0, 0, by decide +kernel⟩

theorem witness_WithdrawsRemoveOrFail_3 :
    ∃ (s : State) (src : Source), Admitted s src (channelBase 11 + 0x40) ∧ channelFull s 11 = true ∧ (channelAt s 11).sent = true :=
  ⟨{ withWords [(channelStatus 11, 2 ^ 31)] with channels := [(11, { sent := true })] }, .seq, by decide +kernel⟩

theorem witness_WithdrawsRemoveOrFail_4 :
    ∃ (s : State) (src : Source) (c : Fin 12), Admitted s src (channelBase c + 0x40) ∧ channelSender c ≠ acts src :=
  ⟨powered, .i2c, 10, by decide +kernel⟩

/-! FirmwareTakesAndAnswers -/

theorem witness_FirmwareTakesAndAnswers_1 :
    ∃ (s : State) (k : Nat), s.firmware.running = true ∧ ((List.range 6).map fun i => (s.firmware.nextChannel + i) % 6).find? (takeable s)
      = some k ∧ checkCommand s k (channelAt s k).posted = none :=
  ⟨{ withWords [(channelStatus 0, 2 ^ 31)] with firmware := { running := true }, channels := [(0, { posted := [0x10010000] })] }, 0,
    by decide +kernel⟩

theorem witness_FirmwareTakesAndAnswers_2 :
    ∃ (s : State) (k : Nat) (result : Nat) (detail : Nat), s.firmware.running = true ∧ ((List.range 6).map fun i =>
      (s.firmware.nextChannel + i) % 6).find? (takeable s) = some k ∧ checkCommand s k (channelAt s k).posted = some (result, detail) :=
  ⟨{ withWords [(channelStatus 0, 2 ^ 31)] with firmware := { running := true }, channels := [(0, { posted := [0x20010000] })] }, 0, 1, 1,
    by decide +kernel⟩

theorem witness_FirmwareTakesAndAnswers_3 :
    ∃ (s : State), s.firmware.running = false :=
  ⟨powered, by decide +kernel⟩

theorem witness_FirmwareTakesAndAnswers_4 :
    ∃ (s : State) (c : FwCommand), c.channel < 6 ∧ channelFull s (c.channel + 6) = false :=
  ⟨powered, held [], by decide +kernel⟩

theorem witness_FirmwareTakesAndAnswers_5 :
    ∃ (s : State) (k : Fin 6) (c : FwCommand), CommandWaits s k 1 c :=
  ⟨withCommand [0x10010000] powered, 0, held [0x10010000], by decide +kernel⟩

theorem witness_FirmwareTakesAndAnswers_6 :
    ∃ (s : State) (k : Fin 6) (c : FwCommand) (p : Nat), CommandWaits s k 5 c ∧ p = nth c.words 1 % 4 :=
  ⟨withCommand [0x10050000, 3] powered, 0, held [0x10050000, 3], 3, by decide +kernel⟩

theorem witness_FirmwareTakesAndAnswers_7 :
    ∃ (s : State) (k : Fin 6) (c : FwCommand), CommandWaits s k 8 c :=
  ⟨withCommand [0x10080000] powered, 0, held [0x10080000], by decide +kernel⟩

theorem witness_FirmwareTakesAndAnswers_8 :
    ∃ (s : State) (k : Fin 6) (c : FwCommand), CommandWaits s k 0xA c :=
  ⟨withCommand [0x100A0000] powered, 0, held [0x100A0000], by decide +kernel⟩

theorem witness_FirmwareTakesAndAnswers_9 :
    ∃ (s : State) (k : Fin 6), commandOf s k = none :=
  ⟨powered, 0, by decide +kernel⟩

/-! ActingCommandsAct -/

theorem witness_ActingCommandsAct_1_1 :
    ∃ (s : State) (k : Fin 6) (c : FwCommand) (e : Nat) (p : Nat), CommandWaits s k 2 c ∧ p = bits (nth c.words 1) 1 0 ∧ p ≠ 0 ∧ s.commit
      = none ∧ e = (currentEpoch s + 1) % 65536 ∧ channelFull (acceptCommit (setFld (stagePreset s p) 0x40 15 0 e) p) (k + 6) = false :=
  ⟨withCommand [0x10020000, 3] powered, 0, held [0x10020000, 3], 1, 3, by decide +kernel⟩

theorem witness_ActingCommandsAct_2_1 :
    ∃ (s : State) (k : Fin 6) (c : FwCommand) (e : Nat) (v : Nat), CommandWaits s k 3 c ∧ v = bits (nth c.words 1) 8 0 ∧ 40 ≤ v ∧ v ≤ 340
      ∧ s.commit = none ∧ e = (currentEpoch s + 1) % 65536 ∧ channelFull (acceptCommit (setFld (setFld s 0x3040 8 0 v) 0x40 15 0 e) 0) (k +
      6) = false :=
  ⟨withCommand [0x10030000, 340] powered, 0, held [0x10030000, 340], 1, 340, by decide +kernel⟩

theorem witness_ActingCommandsAct_3 :
    ∃ (s : State) (k : Fin 6) (c : FwCommand), CommandWaits s k 2 c ∧ bits (nth c.words 1) 1 0 = 0 :=
  ⟨withCommand [0x10020000, 0] powered, 0, held [0x10020000, 0], by decide +kernel⟩

theorem witness_ActingCommandsAct_4 :
    ∃ (s : State) (k : Fin 6) (c : FwCommand), CommandWaits s k 3 c ∧ 40 ≤ bits (nth c.words 1) 8 0 ∧ bits (nth c.words 1) 8 0 ≤ 340 ∧
      s.commit.isSome = true :=
  ⟨withCommand [0x10030000, 40] { powered with commit := some {} }, 0, held [0x10030000, 40], by decide +kernel⟩

theorem witness_ActingCommandsAct_5 :
    ∃ (s : State) (k : Fin 6) (c : FwCommand), CommandWaits s k 4 c :=
  ⟨withCommand [0x10040000] powered, 0, held [0x10040000], by decide +kernel⟩

theorem witness_ActingCommandsAct_6 :
    ∃ (s : State) (k : Fin 6) (c : FwCommand), CommandWaits s k 4 c ∧ c.started = false ∧ opRuns s c 4 = false ∧ enableMask c = 0 :=
  ⟨withCommand [0x10040000, 0] powered, 0, held [0x10040000, 0], by decide +kernel⟩

theorem witness_ActingCommandsAct_7 :
    ∃ (s : State) (k : Fin 6) (c : FwCommand), CommandWaits s k 4 c ∧ c.started = false ∧ opRuns s c 4 = false ∧ enableMask c &&&
      drainMask c ≠ 0 :=
  ⟨withCommand [0x10040000, 0x11] powered, 0, held [0x10040000, 0x11], by decide +kernel⟩

theorem witness_ActingCommandsAct_8_1 :
    ∃ (s : State) (k : Fin 6) (c : FwCommand) (n : Nat), CommandWaits s k 6 c ∧ n = nth c.words 1 % 256 ∧ n ≤ 0x17 ∧ tableReadOnly n =
      false ∧ n ≠ 2 ∧ n ≠ 0x0D ∧ n ≠ 0x12 ∧ n ≠ 0x17 :=
  ⟨withCommand [0x10060000, 0x16] powered, 0, held [0x10060000, 0x16], 0x16, by decide +kernel⟩

theorem witness_ActingCommandsAct_9 :
    ∃ (s : State) (k : Fin 6) (c : FwCommand), CommandWaits s k 6 c ∧ 0x17 < nth c.words 1 % 256 :=
  ⟨withCommand [0x10060000, 0x18] powered, 0, held [0x10060000, 0x18], by decide +kernel⟩

theorem witness_ActingCommandsAct_10 :
    ∃ (s : State) (k : Fin 6) (c : FwCommand) (p : Nat), CommandWaits s k 7 c ∧ c.started = false ∧ p = nth c.words 1 % 128 ∧ p ≤ 63 ∧
      role s = 3 :=
  ⟨withCommand [0x10070000, 63] (claimer 3), 0, held [0x10070000, 63], 63, by decide +kernel⟩

theorem witness_ActingCommandsAct_11 :
    ∃ (s : State) (k : Fin 6) (c : FwCommand), CommandWaits s k 9 c :=
  ⟨withCommand [0x10090000] powered, 0, held [0x10090000], by decide +kernel⟩

theorem witness_ActingCommandsAct_12 :
    ∃ (s : State) (k : Fin 6) (c : FwCommand), CommandWaits s k 9 c ∧ c.started = false ∧ opRuns s c 9 = false ∧ handoverRefused s = 0 ∧
      s.twin.handover = .none :=
  ⟨withCommand [0x10090000] { withWords [(0x604C, 3 * 2 ^ 29), (0x6050, 3 * 2 ^ 29)] with
      twin := { mateArm := true, mateSynced := true } }, 0, held [0x10090000], by decide +kernel⟩

theorem witness_ActingCommandsAct_13 :
    ∃ (s : State) (k : Fin 6) (c : FwCommand), CommandWaits s k 9 c ∧ c.started = true ∧ s.twin.handover = .none :=
  ⟨{ powered with firmware := { running := true, commands := [{ channel := 0, words := [0x10090000], started := true }] } }, 0,
    { channel := 0, words := [0x10090000], started := true }, by decide +kernel⟩

theorem witness_ActingCommandsAct_14 :
    ∃ (s : State) (k : Fin 6) (c : FwCommand), CommandWaits s k 0xB c :=
  ⟨withCommand [0x100B0000] powered, 0, held [0x100B0000], by decide +kernel⟩

theorem witness_ActingCommandsAct_15_2 :
    ∃ (s : State) (k : Fin 6) (c : FwCommand), CommandWaits s k 0xB c ∧ bits (nth c.words 1) 3 0 ≠ 0 ∧ standsBy s = true ∧ bitAt (nth
      c.words 1) 0 = true :=
  ⟨withCommand [0x100B0000, 1] powered, 0, held [0x100B0000, 1], by decide +kernel⟩

theorem witness_ActingCommandsAct_16 :
    ∃ (s : State) (k : Fin 6) (c : FwCommand), CommandWaits s k 0xC c :=
  ⟨withCommand [0x100C0000] powered, 0, held [0x100C0000], by decide +kernel⟩

theorem witness_ActingCommandsAct_17 :
    ∃ (s : State) (k : Fin 6) (c : FwCommand), CommandWaits s k 0xC c ∧ c.started = false ∧ (∀ d ∈ s.firmware.commands, d.channel ≠
      c.channel → d.started = false) ∧ nth c.words 1 ^^^ nth c.words 2 = 0xFFFFFFFF ∧ bits (nth c.words 1) 2 0 = 2 ∧ s.colophon.lifecycle <
      2 ∧ standsBy s = true ∧ s.colophon.debugByToken = false ∧ (∀ p, p < 4 → cxlState s p ≠ 5) :=
  ⟨withCommand [0x100C0000, 2, 0xFFFFFFFD] { powered with colophon := { lifecycle := 1 } }, 0, held [0x100C0000, 2, 0xFFFFFFFD],
    by decide +kernel⟩

/-! MacroInstructionsCompute -/

theorem witness_MacroInstructionsCompute_1 :
    ∃ (s : State) (d : Fin 32) (a : Fin 32), atBoundary s = true ∧ fetched s = 0x01 * 2 ^ 24 + d.val * 2 ^ 19 + a.val * 2 ^ 14 ∧
      dispatchFault s 0x01 = none ∧ (s.seq.task && s.seq.abort) = false :=
  ⟨{ seqOn with firmware := { running := true }, seq := { ram := [(1, 192), (2, 255), (3, 1)], dispatch := [(1, 0x80000000)] } }, 31, 31,
    by decide +kernel⟩

theorem witness_MacroInstructionsCompute_2 :
    ∃ (s : State) (d : Fin 32) (a : Fin 32) (b : Fin 32), atBoundary s = true ∧ fetched s = 0x03 * 2 ^ 24 + d.val * 2 ^ 19 + a.val * 2 ^
      14 + b.val * 2 ^ 9 ∧ dispatchFault s 0x03 = none ∧ (s.seq.task && s.seq.abort) = false :=
  ⟨{ seqOn with firmware := { running := true }, seq := { ram := [(1, 254), (2, 255), (3, 3)], dispatch := [(3, 0x80000000)] } }, 31, 31,
    31, by decide +kernel⟩

theorem witness_MacroInstructionsCompute_3 :
    ∃ (s : State) (d : Fin 32) (v : BitVec 14), atBoundary s = true ∧ fetched s = 0x09 * 2 ^ 24 + d.val * 2 ^ 19 + v.toNat ∧ dispatchFault
      s 0x09 = none ∧ (s.seq.task && s.seq.abort) = false :=
  ⟨{ seqOn with firmware := { running := true }, seq := { ram := [(0, 255), (1, 63), (2, 248), (3, 9)], dispatch := [(9, 0x80000000)] } },
    31, 0x3FFF, by decide +kernel⟩

theorem witness_MacroInstructionsCompute_4 :
    ∃ (s : State) (o : BitVec 24), atBoundary s = true ∧ fetched s = 0x52 * 2 ^ 24 + o.toNat ∧ dispatchFault s 0x52 = none ∧ (s.seq.task
      && s.seq.abort) = false :=
  ⟨{ seqOn with
      firmware := { running := true }, seq := { ram := [(0, 255), (1, 255), (2, 255), (3, 82)], dispatch := [(82, 0x80000000)] } }, 0xFFFFFF,
    by decide +kernel⟩

theorem witness_MacroInstructionsCompute_5 :
    ∃ (s : State), atBoundary s = true ∧ fetched s = 0x5F * 2 ^ 24 ∧ dispatchFault s 0x5F = none ∧ s.seq.task = true ∧ s.seq.pc < 2 ^ 20
      :=
  ⟨{ seqOn with
      firmware := { running := true }, seq := { ram := [(0xc0003, 95)], dispatch := [(95, 0x80000000)], pc := 0xC0000, task := true } },
    by decide +kernel⟩

theorem witness_MacroInstructionsCompute_6 :
    ∃ (s : State), atBoundary s = true ∧ dispatchFault s (bits (fetched s) 31 24) = none :=
  ⟨{ seqOn with firmware := { running := true }, seq := { ram := [(3, 1)], dispatch := [(1, 0x80000000)] } }, by decide +kernel⟩

theorem witness_MacroInstructionsCompute_7 :
    ∃ (s : State) (c : Nat), atBoundary s = true ∧ dispatchFault s (bits (fetched s) 31 24) = some c :=
  ⟨{ seqOn with firmware := { running := true } }, 1, by decide +kernel⟩

theorem witness_MacroInstructionsCompute_8 :
    ∃ (s : State), s.seq.task = true ∧ atBoundary s = true ∧ 0xE0 ≤ bits (fetched s) 31 24 :=
  ⟨{ seqOn with
      firmware := { running := true }, seq := { ram := [(0xc0003, 224)], dispatch := [(224, 0x80000000)], pc := 0xC0000, task := true } },
    by decide +kernel⟩

theorem witness_MacroInstructionsCompute_9 :
    ∃ (s : State) (m : Micro) (e : Nat), s.seq.task = true ∧ s.seq.abort = false ∧ atBoundary s = true ∧ 0xE0 ≤ bits (fetched s) 31 24 ∧
      dispatchFault s (bits (fetched s) 31 24) = none ∧ e = bits (dispatchEntry s (bits (fetched s) 31 24)) 13 0 ∧ 12288 ≤ e ∧ storeWord s e
      = microBits 0x31 m ∧ m.dest.val < 0x1A ∧ m.src.val < 0x1A :=
  ⟨customerEnd, ⟨0, 0, 0, 0, false, false⟩, 12288, by decide +kernel⟩

theorem witness_MacroInstructionsCompute_10_1 :
    ∃ (s : State) (r : Routine), s.seq.task = true ∧ s.seq.routine = some r ∧ r.upc < 8192 :=
  ⟨{ seqOn with seq := { task := true, routine := some (routineAt 8191 true) } }, routineAt 8191 true, by decide +kernel⟩

theorem witness_MacroInstructionsCompute_11 :
    ∃ (s : State), s.seq.task = false :=
  ⟨powered, by decide +kernel⟩

/-! MicrowordsRunWhereTheyStand -/

theorem witness_MicrowordsRunWhereTheyStand_1_1 :
    ∃ (s : State) (r : Routine) (m : Micro), Stands s r 0x00 m :=
  ⟨running (routineAt 8191 false), routineAt 8191 false, ⟨0, 0, 0, 0, false, false⟩, by decide +kernel⟩

theorem witness_MicrowordsRunWhereTheyStand_2 :
    ∃ (r : Routine) (u : Nat) (c : Nat) (m : Micro), wordFault r u m = some c :=
  ⟨routineAt 0 false, 0x3F, 2, ⟨0, 0, 0, 0, false, false⟩, by decide +kernel⟩

theorem witness_MicrowordsRunWhereTheyStand_3 :
    ∃ (s : State) (r : Routine) (m : Micro), s.seq.routine = some r ∧ 8192 ≤ r.upc ∧ storeWord s r.upc ≠ microBits 0x01 m :=
  ⟨running (routineAt 8192 false), routineAt 8192 false, ⟨1, 0, 0, 0, false, false⟩, by decide +kernel⟩

theorem witness_MicrowordsRunWhereTheyStand_4 :
    ∃ (s : State), s.seq.routine = none :=
  ⟨powered, by decide +kernel⟩

/-! MicroOpsCompute -/

theorem witness_MicroOpsCompute_1 :
    ∃ (s : State) (r : Routine) (m : Micro) (d : BitVec 64) (a : BitVec 64), d = operand s r m.dest ∧ a = operand s r m.src ∧ m.setmf =
      false :=
  ⟨running (routineAt 0 false), routineAt 0 false, ⟨0, 0, 0, 0, false, false⟩, _, _, rfl, rfl, by decide +kernel⟩

/-! RestartRoutinesChangeNothingBeforeCommit -/

theorem witness_RestartRoutinesChangeNothingBeforeCommit_1 :
    ∃ (s : State) (r : Routine) (m : Micro), r.restart = true ∧ r.committed = false ∧ r.buffer.length < 16 ∧ WordStands s r 0x21 m ∧
      ramAllowed s r = true :=
  ⟨running (routineAt 0 true), routineAt 0 true, ⟨0, 0, 0, 0, false, false⟩, by decide +kernel⟩

theorem witness_RestartRoutinesChangeNothingBeforeCommit_2 :
    ∃ (s : State) (r : Routine) (m : Micro), r.restart = true ∧ r.committed = false ∧ r.buffer.length < 16 ∧ WordStands s r 0x23 m ∧
      (s.seq.task = false ∨ taskWrites (marOf s r % 2 ^ 26) = true) :=
  ⟨running (routineAt 0 true), routineAt 0 true, ⟨0, 0, 0, 0, false, false⟩, by decide +kernel⟩

theorem witness_RestartRoutinesChangeNothingBeforeCommit_3_1 :
    ∃ (s : State) (r : Routine) (m : Micro) (n : Nat), r.restart = true ∧ r.committed = false ∧ r.buffer.length < 16 ∧ WordStands s r 0x25
      m ∧ n = m.aux.val % 256 ∧ entryExists s n (operand s r m.src).toNat = true ∧ (s.seq.task = false ∨ (n ≠ 2 ∧ tableReadOnly n = false))
      ∧ m.dest.val < 16 :=
  ⟨running (written true), written true, ⟨0, 0, 0, 0, false, false⟩, 0, by decide +kernel⟩

theorem witness_RestartRoutinesChangeNothingBeforeCommit_4 :
    ∃ (s : State) (r : Routine) (m : Micro) (ws : List Nat), r.restart = true ∧ r.committed = false ∧ r.buffer.length < 16 ∧ WordStands s
      r 0x26 m ∧ ws = (List.range 4).map (fun k => (operand s r (12 + k)).toNat) ∧ (s.seq.task = false ∨ (bitAt m.aux.val 0 = false ∧
      dmaAllowed s ws = true)) :=
  ⟨running (written true), written true, ⟨0, 0, 0, 0, false, false⟩, [0, 0, 0, 0], by decide +kernel⟩

theorem witness_RestartRoutinesChangeNothingBeforeCommit_5 :
    ∃ (s : State) (r : Routine) (m : Micro), r.restart = true ∧ r.committed = false ∧ 16 ≤ r.buffer.length ∧ WordStands s r 0x21 m ∧
      ramAllowed s r = true :=
  ⟨running { routineAt 0 true with buffer := List.replicate 16 (.flags 0) },
    { routineAt 0 true with buffer := List.replicate 16 (.flags 0) }, ⟨0, 0, 0, 0, false, false⟩, by decide +kernel⟩

theorem witness_RestartRoutinesChangeNothingBeforeCommit_6 :
    ∃ (s : State) (r : Routine) (m : Micro), r.restart = true ∧ WordStands s r 0x30 m :=
  ⟨running (routineAt 0 true), routineAt 0 true, ⟨0, 0, 0, 0, false, false⟩, by decide +kernel⟩

theorem witness_RestartRoutinesChangeNothingBeforeCommit_7 :
    ∃ (s : State) (r : Routine) (m : Micro), r.restart = false ∧ WordStands s r 0x30 m :=
  ⟨running (routineAt 0 false), routineAt 0 false, ⟨0, 0, 0, 0, false, false⟩, by decide +kernel⟩

theorem witness_RestartRoutinesChangeNothingBeforeCommit_8 :
    ∃ (s : State) (r : Routine) (m : Micro), r.restart = false ∧ WordStands s r 0x21 m ∧ ramAllowed s r = true :=
  ⟨running (routineAt 0 false), routineAt 0 false, ⟨0, 0, 0, 0, false, false⟩, by decide +kernel⟩

theorem witness_RestartRoutinesChangeNothingBeforeCommit_9 :
    ∃ (s : State) (r : Routine) (m : Micro), r.restart = false ∧ WordStands s r 0x23 m ∧ (s.seq.task = false ∨ taskWrites (marOf s r % 2 ^
      26) = true) :=
  ⟨running (routineAt 0 false), routineAt 0 false, ⟨0, 0, 0, 0, false, false⟩, by decide +kernel⟩

theorem witness_RestartRoutinesChangeNothingBeforeCommit_10_1 :
    ∃ (s : State) (r : Routine) (m : Micro) (n : Nat), r.restart = false ∧ WordStands s r 0x25 m ∧ n = m.aux.val % 256 ∧ entryExists s n
      (operand s r m.src).toNat = true ∧ (s.seq.task = false ∨ (n ≠ 2 ∧ tableReadOnly n = false)) ∧ m.dest.val < 16 :=
  ⟨running (written false), written false, ⟨0, 0, 0, 0, false, false⟩, 0, by decide +kernel⟩

theorem witness_RestartRoutinesChangeNothingBeforeCommit_11 :
    ∃ (s : State) (r : Routine) (m : Micro) (ws : List Nat), r.restart = false ∧ WordStands s r 0x26 m ∧ ws = (List.range 4).map (fun k =>
      (operand s r (12 + k)).toNat) ∧ (s.seq.task = false ∨ (bitAt m.aux.val 0 = false ∧ dmaAllowed s ws = true)) :=
  ⟨running (written false), written false, ⟨0, 0, 0, 0, false, false⟩, [0, 0, 0, 0], by decide +kernel⟩

theorem witness_RestartRoutinesChangeNothingBeforeCommit_12 :
    ∃ (s : State) (r : Routine) (m : Micro), s.seq.task = true ∧ bitAt m.aux.val 0 = true ∧ WordStands s r 0x26 m :=
  ⟨{ running (routineAt 0 true) with seq := { routine := some (routineAt 0 true), task := true } }, routineAt 0 true, ⟨0, 0, 1, 0, false,
    false⟩, by decide +kernel⟩

theorem witness_RestartRoutinesChangeNothingBeforeCommit_13 :
    ∃ (s : State) (r : Routine), seqRuns s = true ∧ s.seq.routine = some r ∧ r.restart = true ∧ r.committed = false ∧ s.seq.abandoned < 8
      :=
  ⟨running (routineAt 0 true), routineAt 0 true, by decide +kernel⟩

theorem witness_RestartRoutinesChangeNothingBeforeCommit_14 :
    ∃ (s : State) (r : Routine), seqRuns s = true ∧ s.seq.routine = some r ∧ (r.restart = false ∨ r.committed = true ∨ 8 ≤
      s.seq.abandoned) :=
  ⟨running (routineAt 0 false), routineAt 0 false, by decide +kernel⟩

theorem witness_RestartRoutinesChangeNothingBeforeCommit_15 :
    ∃ (r : Routine) (m : Micro), r.committed = true ∧ r.after < 64 ∧ m.dest.val < 0x1A ∧ m.src.val < 0x1A :=
  ⟨{ routineAt 0 true with committed := true, after := 63 }, ⟨0x19, 0x19, 0, 0, false, false⟩, by decide +kernel⟩

/-! TasksStartEndAndFault -/

theorem witness_TasksStartEndAndFault_1 :
    ∃ (s : State) (src : Source) (e : BitVec 20), Admitted s src 0x8058 ∧ seqRuns s = true ∧ s.seq.task = false ∧ inCustomerRam e.toNat =
      true :=
  ⟨{ seqOn with firmware := { running := true } }, .pf0, 0xFFFFF, by decide +kernel⟩

theorem witness_TasksStartEndAndFault_2 :
    ∃ (s : State) (src : Source) (e : BitVec 20), Admitted s src 0x8058 ∧ seqRuns s = true ∧ s.seq.task = false ∧ inCustomerRam e.toNat =
      false :=
  ⟨{ seqOn with firmware := { running := true } }, .pf0, 0xBFFFF, by decide +kernel⟩

theorem witness_TasksStartEndAndFault_3 :
    ∃ (s : State) (src : Source), Admitted s src 0x8058 ∧ seqRuns s = true ∧ s.seq.task = true :=
  ⟨{ seqOn with firmware := { running := true }, seq := { task := true, pc := 0xFFFFC } }, .pf0, by decide +kernel⟩

theorem witness_TasksStartEndAndFault_4 :
    ∃ (s : State) (src : Source), Admitted s src 0x8058 ∧ s.seq.task = true ∧ s.seq.routine = none ∧ s.seq.pc < 2 ^ 20 :=
  ⟨{ seqOn with firmware := { running := true }, seq := { task := true, pc := 0xFFFFC } }, .pf0, by decide +kernel⟩

theorem witness_TasksStartEndAndFault_5 :
    ∃ (s : State) (src : Source) (r : Routine), Admitted s src 0x8058 ∧ s.seq.task = true ∧ s.seq.routine = some r :=
  ⟨{ seqOn with seq := { task := true, routine := some (routineAt 0 true) } }, .pf0, routineAt 0 true, by decide +kernel⟩

theorem witness_TasksStartEndAndFault_6 :
    ∃ (s : State) (c : Fin 16), seqRuns s = true ∧ 1 ≤ c.val ∧ c.val ≤ 0xD :=
  ⟨{ seqOn with firmware := { running := true } }, 13, by decide +kernel⟩

theorem witness_TasksStartEndAndFault_7 :
    ∃ (s : State) (c : Nat), c < 16 ∧ s.seq.routine = none ∧ s.seq.task = true ∧ s.seq.pc < 2 ^ 20 :=
  ⟨{ seqOn with firmware := { running := true }, seq := { task := true, pc := 0xFFFFC } }, 15, by decide +kernel⟩

theorem witness_TasksStartEndAndFault_8 :
    ∃ (s : State) (r : Routine), s.seq.routine = some r ∧ waitsForUnit s r = true ∧ (r.restart = false ∨ r.committed = true ∨ 127 ≤
      s.seq.waits) :=
  ⟨running (routineAt 0 false), routineAt 0 false, by decide +kernel⟩

theorem witness_TasksStartEndAndFault_9 :
    ∃ (s : State) (r : Routine), s.seq.routine = some r ∧ waitsForUnit s r = true ∧ r.restart = true ∧ r.committed = false ∧ s.seq.waits <
      127 :=
  ⟨running (routineAt 0 true), routineAt 0 true, by decide +kernel⟩

theorem witness_TasksStartEndAndFault_10 :
    ∃ (s : State) (src : Source), Admitted s src 0x8078 ∧ inCustomerRam (dramAddr s) = true :=
  ⟨withWords [(0x2080, 2 ^ 27), (0x8074, 0xFFFFC)], .pf0, by decide +kernel⟩

theorem witness_TasksStartEndAndFault_11 :
    ∃ (s : State) (src : Source), heldInReset s .sequencer = false ∧ mayRead s src 0x8078 = true ∧ inCustomerRam (dramAddr s) = true :=
  ⟨withWords [(0x2080, 2 ^ 27), (0x8074, 0xFFFFC)], .pf0, by decide +kernel⟩

theorem witness_TasksStartEndAndFault_12 :
    ∃ (s : State) (src : Source) (entries : List Word32), entries.length = 32 ∧ Admitted s src 0x8054 ∧ s.firmware.running = true ∧
      s.seq.task = true :=
  ⟨{ seqOn with firmware := { running := true }, seq := { task := true, pc := 0xFFFFC } }, .pf0, List.replicate 32 0, by decide +kernel⟩

theorem witness_TasksStartEndAndFault_13 :
    ∃ (s : State) (src : Source) (image : ImageCheck) (entries : List Word32) (words : List Word32), entries.length = 32 ∧ Admitted s src
      0x8054 ∧ s.firmware.running = true ∧ s.seq.task = false ∧ image.readOk = true ∧ s.colophon.ownerDigest.isSome = true ∧ image.authentic
      = true ∧ image.signer = 0xF ∧ s.colophon.ownerRevoked = false ∧ (s.colophon.lifecycle = 1 ∨ s.colophon.lifecycle = 2) ∧ words.length ≤
      4096 ∧ entries.all entryGood = true :=
  ⟨{ seqOn with firmware := { running := true }, colophon := { ownerDigest := some [] } }, .pf0, ⟨true, true, 0xF, 0⟩,
    List.replicate 32 (0xC0003000), [], by decide +kernel⟩

theorem witness_TasksStartEndAndFault_14 :
    ∃ (s : State), coreRuns s = true :=
  ⟨powered, by decide +kernel⟩

theorem witness_TasksStartEndAndFault_15_1 :
    ∃ (s : State) (a : Nat), coreRuns s = true ∧ inCustomerRam a = false ∧ claims s = false :=
  ⟨powered, 0, by decide +kernel⟩

theorem witness_TasksStartEndAndFault_16 :
    ∃ (s : State) (a : Nat), coreRuns s = true ∧ inCustomerRam a = true ∧ s.seq.task = true :=
  ⟨{ seqOn with firmware := { running := true }, seq := { task := true, pc := 0xFFFFC } }, 0xC0000, by decide +kernel⟩

theorem witness_TasksStartEndAndFault_17 :
    ∃ (s : State) (a : Nat), coreRuns s = true ∧ 12288 ≤ a ∧ s.seq.task = false :=
  ⟨powered, 12288, by decide +kernel⟩

/-! KeysOwnerAndDebug -/

theorem witness_KeysOwnerAndDebug_1 :
    ∃ (s : State) (src : Source), Admitted s src 0x1050 ∧ colophonError s = false :=
  ⟨powered, .pf0, by decide +kernel⟩

theorem witness_KeysOwnerAndDebug_2 :
    ∃ (s : State) (src : Source), Admitted s src 0x1050 ∧ colophonError s = true :=
  ⟨withWords [(0x1040, 2 ^ 27)], .pf0, by decide +kernel⟩

theorem witness_KeysOwnerAndDebug_3 :
    ∃ (s : State) (src : Source) (d : List Word32), d.length = 12 ∧ Admitted s src 0x104C ∧ colophonError s = false ∧
      (s.colophon.lifecycle = 1 ∨ s.colophon.lifecycle = 2) ∧ s.colophon.ownerDigest = none ∧ s.colophon.ownerSpent = false :=
  ⟨powered, .pf0, List.replicate 12 0, by decide +kernel⟩

theorem witness_KeysOwnerAndDebug_4 :
    ∃ (s : State) (src : Source) (d : List Word32), d.length = 12 ∧ Admitted s src 0x104C ∧ colophonError s = false ∧
      (s.colophon.lifecycle = 1 ∨ s.colophon.lifecycle = 2) ∧ s.colophon.ownerDigest = none ∧ s.colophon.ownerSpent = false :=
  ⟨powered, .pf0, List.replicate 12 0, by decide +kernel⟩

theorem witness_KeysOwnerAndDebug_5 :
    ∃ (s : State) (src : Source) (d : List Word32), d.length = 12 ∧ Admitted s src 0x104C ∧ colophonError s = false ∧
      s.colophon.ownerDigest.isSome = true :=
  ⟨{ powered with colophon := { ownerDigest := some [] } }, .pf0, List.replicate 12 0, by decide +kernel⟩

theorem witness_KeysOwnerAndDebug_6 :
    ∃ (s : State) (src : Source) (image : ImageCheck) (n : List Word32), n.length = 3 ∧ Admitted s src 0x1078 ∧ colophonError s = false ∧
      debugOpen s = false ∧ (image.readOk && image.authentic && signerGood s image.signer) = false :=
  ⟨{ powered with colophon := { lifecycle := 2 } }, .pf0, ⟨true, false, 0, 0⟩, [0, 0, 0], by decide +kernel⟩

theorem witness_KeysOwnerAndDebug_7 :
    ∃ (s : State) (src : Source) (image : ImageCheck) (serial : BitVec 64) (n : List Word32), n.length = 3 ∧ Admitted s src 0x1078 ∧
      colophonError s = false ∧ debugOpen s = false ∧ (image.readOk && image.authentic && signerGood s image.signer) = true ∧ (serial ≠
      s.colophon.serial ∨ n.map (·.toNat) ≠ (List.range 3).map (fun k => rd s (0x1060 + k * 4))) :=
  ⟨{ powered with colophon := { lifecycle := 2 } }, .pf0, ⟨true, true, 3, 0⟩, 1, [0, 0, 0], by decide +kernel⟩

theorem witness_KeysOwnerAndDebug_8 :
    ∃ (s : State) (src : Source) (image : ImageCheck) (serial : BitVec 64) (n : List Word32), n.length = 3 ∧ Admitted s src 0x1078 ∧
      colophonError s = false ∧ debugOpen s = false ∧ (image.readOk && image.authentic && signerGood s image.signer) = true ∧ serial =
      s.colophon.serial ∧ n.map (·.toNat) = (List.range 3).map (fun k => rd s (0x1060 + k * 4)) :=
  ⟨{ powered with colophon := { lifecycle := 2 } }, .pf0, ⟨true, true, 3, 0⟩, 0, [0, 0, 0], by decide +kernel⟩

theorem witness_KeysOwnerAndDebug_9 :
    ∃ (s : State) (src : Source) (n : List Word32), n.length = 3 ∧ Admitted s src 0x1078 ∧ colophonError s = false ∧ debugOpen s = true :=
  ⟨{ powered with colophon := { lifecycle := 2, debugByToken := true } }, .pf0, [0, 0, 0], by decide +kernel⟩

theorem witness_KeysOwnerAndDebug_10 :
    ∃ (s : State) (src : Source), Admitted s src 0x1078 :=
  ⟨powered, .pf0, by decide +kernel⟩

theorem witness_KeysOwnerAndDebug_11 :
    ∃ (s : State), colophonError s = false ∧ s.startup.railsUp = true ∧ s.startup.resetting = false :=
  ⟨powered, by decide +kernel⟩

theorem witness_KeysOwnerAndDebug_12 :
    ∃ (s : State), colophonError s = true :=
  ⟨withWords [(0x1040, 2 ^ 27)], by decide +kernel⟩

/-! BootsStartOnlyGoodFirmware -/

theorem witness_BootsStartOnlyGoodFirmware_1 :
    ∃ (s : State) (image : ImageCheck) (entries : List Word32), entries.length = 224 ∧ bootDue s = true ∧ image.readOk = true ∧
      image.authentic = true ∧ image.signer ≤ 3 ∧ signerGood s image.signer = true ∧ s.colophon.antiRollback ≤ image.svn :=
  ⟨{ powered with startup := { railsUp := true } }, ⟨true, true, 3, 0⟩, List.replicate 224 0, by decide +kernel⟩

theorem witness_BootsStartOnlyGoodFirmware_3 :
    ∃ (s : State) (image : ImageCheck) (entries : List Word32), entries.length = 224 ∧ bootDue s = true ∧ (image.readOk = false ∨
      image.authentic = false ∨ 3 < image.signer ∨ image.svn < s.colophon.antiRollback) :=
  ⟨{ powered with startup := { railsUp := true } }, ⟨true, true, 4, 0⟩, List.replicate 224 0, by decide +kernel⟩

theorem witness_BootsStartOnlyGoodFirmware_4_2 :
    ∃ (s : State), bootDue s = true ∧ s.firmware.fellBack = true :=
  ⟨{ powered with firmware := { fellBack := true } }, by decide +kernel⟩

theorem witness_BootsStartOnlyGoodFirmware_5 :
    ∃ (s : State), bootDue s = false :=
  ⟨State.reset, by decide +kernel⟩

theorem witness_BootsStartOnlyGoodFirmware_6 :
    ∃ (s : State), s.firmware.fellBack = true :=
  ⟨{ powered with firmware := { fellBack := true } }, by decide +kernel⟩

theorem witness_BootsStartOnlyGoodFirmware_7 :
    ∃ (s : State) (src : Source), Admitted s src 0x2080 ∧ src ≠ .i2c ∧ bootState s = 1 :=
  ⟨withWords [(0x2080, 2 ^ 27)], .pf0, by decide +kernel⟩

/-! AttestationAnswers -/

theorem witness_AttestationAnswers_1 :
    ∃ (s : State), doeServes s = true :=
  ⟨{ powered with host := { inReset := false, linkUp := true }, startup := { railsUp := true } }, by decide +kernel⟩

theorem witness_AttestationAnswers_2 :
    ∃ (s : State), doeServes s = true ∧ s.colophon.negotiated = false :=
  ⟨{ powered with host := { inReset := false, linkUp := true }, startup := { railsUp := true } }, by decide +kernel⟩

theorem witness_AttestationAnswers_3 :
    ∃ (s : State), doeServes s = true ∧ s.colophon.negotiated = true ∧ colophonError s = false ∧ s.colophon.identity = true :=
  ⟨{ powered with host := { inReset := false, linkUp := true }, startup := { railsUp := true }, colophon := { negotiated := true } },
    by decide +kernel⟩

theorem witness_AttestationAnswers_4 :
    ∃ (s : State) (slot : Nat), doeServes s = true ∧ s.colophon.negotiated = true ∧ colophonError s = false ∧ s.colophon.identity = true ∧
      slot ≠ 0 :=
  ⟨{ powered with host := { inReset := false, linkUp := true }, startup := { railsUp := true }, colophon := { negotiated := true } }, 1,
    by decide +kernel⟩

theorem witness_AttestationAnswers_5 :
    ∃ (s : State), doeServes s = true ∧ s.colophon.negotiated = true ∧ s.colophon.identity = false :=
  ⟨{ powered with
      host := { inReset := false, linkUp := true }, startup := { railsUp := true }, colophon := { negotiated := true, identity := false } },
    by decide +kernel⟩

/-! PowerUpsAndResets -/

theorem witness_PowerUpsAndResets_1 :
    ∃ (s : State), s.startup.aonUp = false :=
  ⟨State.reset, by decide +kernel⟩

theorem witness_PowerUpsAndResets_2 :
    ∃ (s : State), s.startup.aonUp = true :=
  ⟨{ powered with startup := { aonUp := true } }, by decide +kernel⟩

theorem witness_PowerUpsAndResets_3_1 :
    ∃ (s : State), s.startup.aonUp = true ∧ s.startup.railsUp = false ∧ s.power.inStandby = false ∧ s.startup.island = false :=
  ⟨{ State.reset with startup := { aonUp := true } }, by decide +kernel⟩

theorem witness_PowerUpsAndResets_3_2 :
    ∃ (s : State), s.startup.aonUp = true ∧ s.startup.railsUp = false ∧ s.power.inStandby = false ∧ s.startup.island = true :=
  ⟨{ State.reset with startup := { aonUp := true, island := true } }, by decide +kernel⟩

theorem witness_PowerUpsAndResets_4 :
    ∃ (s : State), s.startup.aonUp = true ∧ s.startup.railsUp = false ∧ s.power.inStandby = false :=
  ⟨{ State.reset with startup := { aonUp := true } }, by decide +kernel⟩

theorem witness_PowerUpsAndResets_5 :
    ∃ (n : Nat), n < 1000 :=
  ⟨999, by decide +kernel⟩

theorem witness_PowerUpsAndResets_6 :
    ∃ (s : State) (n : Nat), s.startup.aonUp = true ∧ 200000000 ≤ n :=
  ⟨{ powered with startup := { aonUp := true } }, 200000000, by decide +kernel⟩

theorem witness_PowerUpsAndResets_7 :
    ∃ (s : State) (n : Nat), s.startup.aonUp = true ∧ 1000 ≤ n ∧ n < 200000000 ∧ s.power.inStandby = false ∧ coreRuns s = true :=
  ⟨powered, 199999999, by decide +kernel⟩

theorem witness_PowerUpsAndResets_8 :
    ∃ (s : State) (n : Nat), s.startup.aonUp = true ∧ 1000 ≤ n ∧ n < 200000000 ∧ s.power.inStandby = true :=
  ⟨{ powered with power := { inStandby := true } }, 1000, by decide +kernel⟩

theorem witness_PowerUpsAndResets_9 :
    ∃ (s : State), s.startup.resetting = false ∧ s.startup.railsUp = true ∧ s.power.inStandby = false :=
  ⟨powered, by decide +kernel⟩

theorem witness_PowerUpsAndResets_10 :
    ∃ (s : State) (bist : Bool), s.startup.railsUp = true ∧ s.startup.resetting = true ∧ s.power.inStandby = false ∧ (bistRuns s = false ∨
      bist = true) :=
  ⟨{ powered with startup := { aonUp := true, railsUp := true, resetting := true } }, false, by decide +kernel⟩

theorem witness_PowerUpsAndResets_11 :
    ∃ (s : State), s.startup.railsUp = true ∧ s.startup.resetting = true ∧ s.power.inStandby = false :=
  ⟨{ powered with startup := { aonUp := true, railsUp := true, resetting := true } }, by decide +kernel⟩

theorem witness_PowerUpsAndResets_12 :
    ∃ (s : State) (c : Fin 256), s.startup.aonUp = true ∧ (c.val = 1 ∨ c.val = 2) :=
  ⟨{ powered with startup := { aonUp := true } }, 2, by decide +kernel⟩

theorem witness_PowerUpsAndResets_13 :
    ∃ (s : State) (src : Source) (i : Fin 8), Admitted s src (0x10004C + i.val * 0x20000) :=
  ⟨powered, .pf0, 0, by decide +kernel⟩

theorem witness_PowerUpsAndResets_14 :
    ∃ (s : State), s.startup.aonUp = true :=
  ⟨{ powered with startup := { aonUp := true } }, by decide +kernel⟩

theorem witness_PowerUpsAndResets_15 :
    ∃ (s : State) (r : Fin 7), s.startup.aonUp = true ∧ r.val ≠ 0 ∧ s.startup.railsUp = true :=
  ⟨powered, 6, by decide +kernel⟩

theorem witness_PowerUpsAndResets_16 :
    ∃ (s : State), s.startup.aonUp = false :=
  ⟨State.reset, by decide +kernel⟩

/-! ErrorsAreLoggedAndRescued -/

theorem witness_ErrorsAreLoggedAndRescued_1 :
    ∃ (s : State), wedged s = false :=
  ⟨powered, by decide +kernel⟩

theorem witness_ErrorsAreLoggedAndRescued_2 :
    ∃ (s : State), wedged s = true :=
  ⟨{ setQueue (setFrame (upState []) 0 someFrame) 0 { head := [.copy someCopy] } with clock := { steady := 10000000 } },
    by decide +kernel⟩

theorem witness_ErrorsAreLoggedAndRescued_3_1 :
    ∃ (s : State), claims s = false :=
  ⟨powered, by decide +kernel⟩

theorem witness_ErrorsAreLoggedAndRescued_4 :
    ∃ (s : State), claims s = false ∧ flag s 0x2098 31 = false ∧ s.twin.releaseAt = none :=
  ⟨powered, by decide +kernel⟩

theorem witness_ErrorsAreLoggedAndRescued_5 :
    ∃ (s : State) (r : ErrRec) (l : List ErrRec), (s.errors.first = none ∨ ∃ f ∈ s.errors.waiting, s.errors.first = some f) ∧
      s.errors.waiting = r :: l :=
  ⟨{ powered with errors := { first := some ⟨0, 0, 0, 0, 0, 0, 0, 0, []⟩, waiting := [⟨0, 0, 0, 0, 0, 0, 0, 0, []⟩] } }, ⟨0, 0, 0, 0, 0,
    0, 0, 0, []⟩, [], by decide +kernel⟩

theorem witness_ErrorsAreLoggedAndRescued_6 :
    ∃ (s : State), s.errors.first = none ∧ s.errors.waiting = [] :=
  ⟨powered, by decide +kernel⟩

theorem witness_ErrorsAreLoggedAndRescued_7_2 :
    ∃ (s : State) (r : Rescue) (l : List Rescue) (p : Fin 64), s.rescues = r :: l ∧ r.port = p.val ∧ r.op = 1 ∧ portUp s p = true ∧
      egressOpen s = true :=
  ⟨{ upState [] with rescues := [⟨0, 1, 0, 0, []⟩] }, ⟨0, 1, 0, 0, []⟩, [], 0, by decide +kernel⟩

theorem witness_ErrorsAreLoggedAndRescued_7_4 :
    ∃ (s : State) (r : Rescue) (l : List Rescue) (p : Fin 64), s.rescues = r :: l ∧ r.port = p.val ∧ r.op = 2 ∧ coreRuns s = true ∧
      s.power.inStandby = false :=
  ⟨{ powered with rescues := [⟨63, 2, 0, 0, []⟩] }, ⟨63, 2, 0, 0, []⟩, [], 63, by decide +kernel⟩

theorem witness_ErrorsAreLoggedAndRescued_7_6 :
    ∃ (s : State) (r : Rescue) (l : List Rescue) (p : Fin 64), s.rescues = r :: l ∧ r.port = p.val ∧ r.op = 3 ∧ claims s = true :=
  ⟨{ claimer 3 with rescues := [⟨0, 3, 0, 0, []⟩] }, ⟨0, 3, 0, 0, []⟩, [], 0, by decide +kernel⟩

theorem witness_ErrorsAreLoggedAndRescued_7_7 :
    ∃ (s : State) (r : Rescue) (l : List Rescue) (p : Fin 64), s.rescues = r :: l ∧ r.port = p.val ∧ r.op = 4 :=
  ⟨{ powered with rescues := [⟨0, 4, 0, 1, []⟩] }, ⟨0, 4, 0, 1, []⟩, [], 0, by decide +kernel⟩

theorem witness_ErrorsAreLoggedAndRescued_8 :
    ∃ (s : State), s.rescues = [] :=
  ⟨powered, by decide +kernel⟩

/-- A routine in the vendor ROM, with temporary 1 written, at whose address any word stands. -/
theorem witness_MicroOpsCompute_words :
    ∀ u ∈ [0x00, 0x01, 0x02, 0x03, 0x04, 0x05, 0x06, 0x07, 0x08, 0x09, 0x0A, 0x10, 0x11, 0x12, 0x13, 0x14, 0x15, 0x16, 0x20, 0x21, 0x22, 0x23,
      0x24, 0x25, 0x26, 0x27, 0x30, 0x31, 0x32],
      ∀ cc : Bool, WordStands (running (routineAt 0 true)) (routineAt 0 true) u ⟨15, 1, 0, 0, cc, false⟩ := by decide +kernel

theorem witness_MicroOpsCompute_load :
    (routineAt 0 true).entry < 12288 ∧ (routineAt 0 true).buffer = [] ∧ ramAllowed (running (routineAt 0 true)) (routineAt 0 true) = true := by
  decide +kernel
end

section
/-! Register words stored whole, and which registers an update reaches. -/

namespace Sys2Proof.Machine

/-! ### Words written whole -/

/-- A bit below 32 is one of the word's own. -/
theorem bitAt_mod_word (v : Nat) {k : Nat} (h : k < 32) : bitAt (v % 2 ^ 32) k = bitAt v k := by
  rw [bitAt_testBit, bitAt_testBit, Nat.testBit_mod_two_pow, decide_eq_true h, Bool.true_and]

/-- A field of the word is made of bits below 32. -/
theorem bits_mod_word (v : Nat) {hi : Nat} (lo : Nat) (h : hi < 32) : bits (v % 2 ^ 32) hi lo = bits v hi lo := by
  refine Nat.eq_of_testBit_eq fun k => ?_
  simp only [bits, ← Nat.shiftRight_eq_div_pow, Nat.testBit_mod_two_pow, Nat.testBit_shiftRight]
  by_cases hk : k < hi + 1 - lo
  · simp [show lo + k < 32 by omega]
  · simp [hk]

/-- A bit of a register word just stored. -/
theorem flag_wr_same (s : State) (a v : Nat) {k : Nat} (h : k < 32) : flag (wr s a v) a k = bitAt v k := by
  rw [flag, rd_wr_same, bitAt_mod_word v h]

/-- A field of a register word just stored. -/
theorem fld_wr_same (s : State) (a v : Nat) {hi : Nat} (lo : Nat) (h : hi < 32) : fld (wr s a v) a hi lo = bits v hi lo := by
  rw [fld, rd_wr_same, bits_mod_word v lo h]

/-! ### Which registers an update reaches -/

/-- States with the same register words. -/
theorem RegsBut.of_regs_eq (as : List Nat) {s t : State} (h : t.regs = s.regs) : RegsBut as s t := fun b _ => by rw [rd, h, rd]

/-- A word stored at a listed address reaches no other register. -/
theorem RegsBut.wr {as : List Nat} {s t : State} (h : RegsBut as s t) {a : Nat} (ha : a ∈ as) (v : Nat) : RegsBut as s (wr t a v) :=
  fun b hb => (rd_wr_other t v (ne_of_mem_of_not_mem ha hb).symm).trans (h b hb)

/-- A bit set at a listed address reaches no other register. -/
theorem RegsBut.setFlag {as : List Nat} {s t : State} (h : RegsBut as s t) {a : Nat} (ha : a ∈ as) (k : Nat) (v : Bool) :
    RegsBut as s (setFlag t a k v) := h.wr ha _

/-- A cause raised in a page whose INT_STATUS is listed reaches no other register. -/
theorem RegsBut.raise {as : List Nat} {s t : State} (h : RegsBut as s t) {p : Page} (hp : p.at_ 0x10 ∈ as) (k : Nat) :
    RegsBut as s (raise t p k) :=
  fun b hb => (rd_raise_other t p k (ne_of_mem_of_not_mem hp hb).symm).trans (h b hb)

end Sys2Proof.Machine
end

section
/-! Fences (R42 to R44): one at a time starts, and ends when the frames it waits for have gone. -/

namespace Sys2Proof.Machine

/-- FENCE_CONTROL lies in the root page, so a write that reaches it wakes no slice. -/
theorem atRegister_fenceControl (s : State) (src : Source) : atRegister s src 0x4C = dropHeld s src 0x4C :=
  atRegister_eq s src 0x4C fun i k => by rw [show pageAt 0x4C = some .root from rfl]; simp

/-- FENCE_CONTROL while a fence of scope `full` is in progress. -/
def fenceControlWord (full : Bool) : Nat := 2 ^ 31 + bit full

/-- FENCE_STATUS with BUSY, with the duration `last` of the fence before. -/
def fenceBusyWord (full : Bool) (last : Nat) : Nat := 2 ^ 31 + bit full * 2 ^ 29 + last

/-- FENCE_STATUS with DONE, with the duration `us` of the fence. -/
def fenceDoneWord (full : Bool) (us : Nat) : Nat := 2 ^ 30 + bit full * 2 ^ 29 + us

theorem fenceControlWord_go (full : Bool) : bitAt (fenceControlWord full) 31 = true := by cases full <;> decide

theorem fenceBusyWord_bits (full : Bool) {last : Nat} (h : last < 2 ^ 24) :
    bitAt (fenceBusyWord full last) 31 = true ∧ bitAt (fenceBusyWord full last) 30 = false := by
  cases full <;> simp [fenceBusyWord, bitAt, bit] <;> omega

theorem fenceDoneWord_bits (full : Bool) {us : Nat} (h : us < 2 ^ 24) :
    bitAt (fenceDoneWord full us) 31 = false ∧ bitAt (fenceDoneWord full us) 30 = true ∧ bits (fenceDoneWord full us) 23 0 = us := by
  cases full <;> simp [fenceDoneWord, bitAt, bits, bit] <;> omega

/-- A fence starts when none is in progress. -/
theorem fenceStart_of_none {s : State} (h : s.fence = none) (src : Source) (full : Bool) :
    fenceStart s src full =
      { wr (wr s 0x4C (fenceControlWord full)) 0x50 (fenceBusyWord full (fld s 0x50 23 0)) with
        fence := some { first := s.nextFrame, full, start := now s } } := by
  simp [fenceStart, h, fenceControlWord, fenceBusyWord, fld_wr_other, now]

/-- A fence is refused while another is in progress. -/
theorem fenceStart_of_isSome {s : State} (h : s.fence.isSome = true) (src : Source) (full : Bool) :
    fenceStart s src full = accessFault s src 0x4C 8 := by simp [fenceStart, h]

/-- The state after a fence whose completion stores `w` in FENCE_STATUS. -/
def fenceOver (s : State) (w : Nat) : State := raise (wr (setFlag { s with fence := none } 0x4C 31 false) 0x50 w) .root 1

/-- A fence that waits for nothing more completes. -/
theorem fenceEnd_of_passed {s : State} {f : Fence} (h : s.fence = some f) (hp : fencePassed s f = true) :
    fenceEnd s = fenceOver s (fenceDoneWord f.full (min 0xFFFFFF (ceilDiv (now s - f.start) 1000))) := by
  simp [fenceEnd, fenceOver, h, hp, fenceDoneWord, now]

theorem rd_fenceOver_status (s : State) (w : Nat) : rd (fenceOver s w) 0x50 = w % 2 ^ 32 := by
  rw [fenceOver, rd_raise_other _ _ _ (by decide), rd_wr_same]

theorem flag_fenceOver_status (s : State) (w : Nat) {k : Nat} (hk : k < 32) : flag (fenceOver s w) 0x50 k = bitAt w k := by
  rw [flag, rd_fenceOver_status, bitAt_mod_word w hk]

theorem fld_fenceOver_us (s : State) (w : Nat) : fld (fenceOver s w) 0x50 23 0 = bits w 23 0 := by
  rw [fld, rd_fenceOver_status, bits_mod_word w 0 (by decide)]

theorem flag_fenceOver_go (s : State) (w : Nat) : flag (fenceOver s w) 0x4C 31 = false := by
  rw [fenceOver, flag, rd_raise_other _ _ _ (by decide), ← flag, flag_wr_other _ _ _ (by decide), flag_setFlag_same _ _ _ _ (by decide)]

theorem flag_fenceOver_cause (s : State) (w : Nat) : flag (fenceOver s w) 0x10 1 = true := by
  rw [fenceOver, flag_raise _ _ _ _ _ (by decide), if_pos (by decide)]

theorem fenceOver_regsBut (s : State) (w : Nat) : RegsBut [0x4C, 0x50, 0x10] s (fenceOver s w) :=
  (((RegsBut.of_regs_eq _ (t := { s with fence := none }) rfl).setFlag (by decide) _ _).wr (by decide) _).raise (by decide) _

theorem fenceOver_frame (s : State) (w : Nat) :
    fenceOver s w = { s with regs := (fenceOver s w).regs, out := (fenceOver s w).out, fence := none } := rfl

/-- FENCE_GO with no fence in progress. -/
theorem fenceGo_starts {s : State} {src : Source} (full : Bool) (ha : Admitted s src 0x4C) (hf : s.fence = none) :
    ∃ t, exec (.fenceGo src full) s = .next t ∧ t.fence = some { first := s.nextFrame, full, start := now s } ∧
      flag t 0x4C 31 = true ∧ flag t 0x50 31 = true ∧ flag t 0x50 30 = false ∧ RegsBut [0x4C, 0x50] s t ∧
      t = { s with regs := t.regs, fence := t.fence, access := t.access } := by
  have he : exec (.fenceGo src full) s = .next (fenceStart (dropHeld s src 0x4C) src full) := by
    rw [← atRegister_fenceControl, ← guarded_of_admitted ha fun s => fenceStart s src full]
    rfl
  rw [fenceStart_of_none (s := dropHeld s src 0x4C) hf] at he
  obtain ⟨hbusy, hdone⟩ := fenceBusyWord_bits full (last := fld s 0x50 23 0) (Nat.mod_lt _ (by decide))
  refine ⟨_, he, rfl, ?_, ?_, ?_, ?_, rfl⟩
  · exact (flag_wr_other _ _ 31 (by decide)).trans ((flag_wr_same _ _ _ (by decide)).trans (fenceControlWord_go full))
  · exact (flag_wr_same _ _ _ (by decide)).trans hbusy
  · exact (flag_wr_same _ _ _ (by decide)).trans hdone
  · exact ((RegsBut.of_regs_eq _ (t := dropHeld s src 0x4C) rfl).wr (by decide) _).wr (by decide) _

/-- FENCE_GO while a fence is in progress. -/
theorem fenceGo_refused {s : State} {src : Source} (full : Bool) (ha : Admitted s src 0x4C) (hf : s.fence.isSome = true) :
    exec (.fenceGo src full) s = .next (accessFault (atRegister s src 0x4C) src 0x4C 8) := by
  have hr : (atRegister s src 0x4C).fence.isSome = true := by rw [atRegister_fenceControl]; exact hf
  rw [← fenceStart_of_isSome hr src full, ← guarded_of_admitted ha fun s => fenceStart s src full]
  rfl

/-- FENCE_DONE with nothing left to wait for. -/
theorem fenceDone_completes {s : State} {f : Fence} (h : s.fence = some f) (hp : fencePassed s f = true) :
    ∃ t, exec .fenceDone s = .next t ∧ t.fence = none ∧ flag t 0x4C 31 = false ∧ flag t 0x50 31 = false ∧ flag t 0x50 30 = true ∧
      fld t 0x50 23 0 = min 0xFFFFFF (ceilDiv (now s - f.start) 1000) ∧ flag t 0x10 1 = true ∧
      RegsBut [0x4C, 0x50, 0x10] s t ∧ t = { s with regs := t.regs, out := t.out, fence := none } := by
  have he : exec .fenceDone s = .next (fenceEnd s) := rfl
  rw [fenceEnd_of_passed h hp] at he
  obtain ⟨hbusy, hdone, hus⟩ := fenceDoneWord_bits f.full (us := min 0xFFFFFF (ceilDiv (now s - f.start) 1000))
    (Nat.lt_of_le_of_lt (Nat.min_le_left _ _) (by decide))
  exact ⟨_, he, congrArg State.fence (fenceOver_frame s _), flag_fenceOver_go s _, (flag_fenceOver_status s _ (by decide)).trans hbusy,
    (flag_fenceOver_status s _ (by decide)).trans hdone, (fld_fenceOver_us s _).trans hus, flag_fenceOver_cause s _,
    fenceOver_regsBut s _, fenceOver_frame s _⟩

end Sys2Proof.Machine
end

section
/-! What a cycle boundary leaves alone: the clocks until the next cycle begins, and throughout the configuration in force and the commit in
progress. -/

namespace Sys2Proof.Machine

/-- Of what is settled, the clocks, the applied registers and tables, and the commit in progress. -/
def inForce {α β γ δ ε : Type} :
    α × β × Clock × Sparse Word32 × γ × Sparse Image × δ × Option Commit × ε → Clock × Sparse Word32 × Sparse Image × Option Commit
  | (_, _, clock, regsCur, _, tabsCur, _, commit, _) => (clock, regsCur, tabsCur, commit)

theorem inForce_settled (s : State) : inForce (settled s) = (s.clock, s.regsCur, s.tabsCur, s.commit) := by rfl

theorem inForce_ite (c : Prop) [Decidable c] (a b : State) :
    inForce (settled (if c then a else b)) = if c then inForce (settled a) else inForce (settled b) := by split <;> rfl

theorem inForce_foldl {α : Type} (f : State → α → State) (h : ∀ s x, inForce (settled (f s x)) = inForce (settled s)) (l : List α)
    (s : State) : inForce (settled (l.foldl f s)) = inForce (settled s) :=
  List.foldlRecOn (motive := fun t => inForce (settled t) = inForce (settled s)) l f rfl fun t ht x _ => (h t x).trans ht

/-! ### The power boundary -/

theorem inForce_setPower (s : State) (p : Power) : inForce (settled (setPower s p)) = inForce (settled s) := by
  rw [inForce_settled, inForce_settled, setPower]

theorem inForce_setTev (s : State) (n : Nat) (v : TevPin) : inForce (settled (setTev s n v)) = inForce (settled s) := by
  rw [inForce_settled, inForce_settled, setTev]

theorem inForce_writeVoltage (s : State) (code : Nat) : inForce (settled (writeVoltage s code)) = inForce (settled s) := by
  simp only [writeVoltage, settled_emit, settled_setFld]

theorem inForce_setClock (s : State) (code : Nat) : inForce (settled (setClock s code)) = inForce (settled s) := by
  simp only [setClock, inForce_ite, settled_drawn, inForce_setPower, settled_setFld, ite_self]

theorem inForce_lowerClock (s : State) (code : Nat) : inForce (settled (lowerClock s code)) = inForce (settled s) := by
  simp only [lowerClock, inForce_setPower, inForce_writeVoltage, inForce_setClock]

theorem inForce_raiseVoltage (s : State) : inForce (settled (raiseVoltage s)) = inForce (settled s) := by
  simp only [raiseVoltage, inForce_ite, inForce_setPower, inForce_writeVoltage, ite_self]

theorem inForce_clockBoundary (s : State) : inForce (settled (clockBoundary s)) = inForce (settled s) := by
  simp only [clockBoundary, inForce_ite, inForce_lowerClock, inForce_raiseVoltage, inForce_setClock, ite_self]

theorem inForce_emergencyLift (s : State) (est : Nat) : inForce (settled (emergencyLift s est)) = inForce (settled s) := by
  simp only [emergencyLift, inForce_ite, settled_setFlag, inForce_setPower, ite_self]

theorem inForce_takeStep (s : State) : inForce (settled (takeStep s)) = inForce (settled s) := by
  unfold takeStep
  split
  · rfl
  · simp only [inForce_ite, shed, settled_raise, settled_takeDown, settled_setFlag, settled_tally, showSteps, settled_setFld,
      inForce_setPower, ite_self]

theorem inForce_unshed (s : State) (p : Nat) : inForce (settled (unshed s p)) = inForce (settled s) := by
  simp only [unshed, inForce_ite, settled_enablePort, settled_raise, settled_setFlag, ite_self]

theorem inForce_undoStep (s : State) : inForce (settled (undoStep s)) = inForce (settled s) := by
  unfold undoStep
  split
  · rfl
  · simp only [inForce_raiseVoltage, inForce_ite, inForce_unshed, settled_tally, settled_raise, showSteps, settled_setFld,
      inForce_setPower, ite_self]

theorem inForce_undoAll (s : State) : inForce (settled (undoAll s)) = inForce (settled s) :=
  inForce_foldl _ (fun s _ => inForce_undoStep s) _ s

theorem inForce_governor (s : State) (est : Nat) : inForce (settled (governor s est)) = inForce (settled s) := by
  simp only [governor, inForce_ite, inForce_undoAll, inForce_takeStep, inForce_setPower, ite_self]

theorem inForce_powerBoundary (s : State) (raw : Nat) : inForce (settled (powerBoundary s raw)) = inForce (settled s) := by
  simp only [powerBoundary, inForce_governor, inForce_clockBoundary, inForce_ite, settled_setFlag, inForce_emergencyLift, settled_setFld,
    inForce_setPower, ite_self]

/-! ### The twin, the dumps and the alarms -/

theorem settled_sendCounters (s : State) (cp : Bool) : settled (sendCounters s cp) = settled s := by
  simp only [sendCounters, settled_mk, settled_fold, settled_kettleSend, implies_true, settled_foldl]

theorem settled_deltaBoundary (s : State) : settled (deltaBoundary s) = settled s := by
  simp only [deltaBoundary, settled_ite, settled_mk, settled_fold, settled_sendEnd, settled_sendCounters, settled_sendPolicers, ite_self]

theorem settled_healthBoundary (s : State) : settled (healthBoundary s) = settled s := by
  simp only [healthBoundary, settled_mk, settled_fold, settled_healthToHost, settled_kettleSend]

theorem settled_mateUnreachable (s : State) : settled (mateUnreachable s) = settled s := by
  simp only [mateUnreachable, settled_ite, settled_raise, settled_setFlag, settled_emit, settled_mk, settled_fold, settled_report, ite_self]

theorem settled_missedBoundary (s : State) : settled (missedBoundary s) = settled s := by
  simp only [missedBoundary, settled_ite, settled_mk, settled_fold, settled_mateUnreachable, settled_tally, settled_setFld, ite_self]

theorem settled_sendHeartbeat (s : State) : settled (sendHeartbeat s) = settled s := by
  simp only [sendHeartbeat, settled_ite, settled_mk, settled_fold, settled_kettleSend, ite_self]

theorem settled_sendBulk (s : State) (k : Nat) : settled (sendBulk s k) = settled s := by
  simp only [sendBulk, settled_ite, settled_kettleSend, implies_true, settled_foldl, settled_mk, settled_fold, ite_self]

theorem settled_handoverBoundary (s : State) : settled (handoverBoundary s) = settled s := by
  unfold handoverBoundary
  split
  · simp only [settled_ite, settled_setRole, settled_mk, settled_fold, settled_endHandover, ite_self]
  · rfl

theorem settled_epochBoundary (s : State) : settled (epochBoundary s) = settled s := by
  simp only [epochBoundary, settled_ite, settled_mk, settled_fold, settled_divergent, ite_self]

theorem settled_dumpBoundary (s : State) : settled (dumpBoundary s) = settled s := by
  unfold dumpBoundary
  dsimp only
  split
  · rfl
  · split
    · rfl
    · split
      · simp only [settled_raise, settled_tally, settled_mk, settled_fold]
      · simp only [settled_setDump, settled_mk, settled_fold]

theorem settled_alarmBoundary (s : State) (n : Nat) : settled (alarmBoundary s n) = settled s := by
  simp only [alarmBoundary, settled_ite, settled_mk, settled_fold, settled_report, settled_raise, settled_setFlag, ite_self]

theorem settled_alarmsBoundary (s : State) : settled (alarmsBoundary s) = settled s :=
  settled_foldl _ settled_alarmBoundary _ s

/-! ### The boundary -/

/-- The clocks of a cycle that begins at the end of the one before (R6, R240). -/
def nextCycle (s : State) : Clock :=
  { s.clock with cycleStart := now s, cycleNumber := s.clock.cycleEnd / 125000, cycleEnd := s.clock.cycleEnd + 125000 }

theorem inForce_tevBoundary (t : Nat) (s : State) (n : Nat) : inForce (settled (tevBoundary t s n)) = inForce (settled s) := by
  simp only [tevBoundary, inForce_ite, inForce_setTev, ite_self]

/-- A new cycle changes the clocks alone of what is in force. -/
theorem inForce_beginCycle (s : State) : inForce (settled (beginCycle s)) = (nextCycle s, s.regsCur, s.tabsCur, s.commit) := by
  refine (inForce_foldl _ (inForce_tevBoundary _) _ _).trans ?_
  rw [inForce_settled, nextCycle, cycleOf]

/-- What comes before the new cycle in a boundary changes nothing in force, and what comes after it nothing settled. -/
theorem inForce_boundary (s : State) (raw : Nat) (bad : List Nat) :
    inForce (settled (boundary s raw bad)) = (nextCycle s, s.regsCur, s.tabsCur, s.commit) := by
  have before : inForce (settled (healthBoundary (missedBoundary (deltaBoundary (powerBoundary s raw))))) = inForce (settled s) := by
    rw [settled_healthBoundary, settled_missedBoundary, settled_deltaBoundary, inForce_powerBoundary]
  simp only [inForce_settled, Prod.mk.injEq] at before
  obtain ⟨hclock, hregs, htabs, hcommit⟩ := before
  simp only [boundary, settled_alarmsBoundary, settled_dumpBoundary, settled_epochBoundary, settled_ite, settled_becomeActive, ite_self,
    settled_handoverBoundary, settled_sendBulk, settled_sendHeartbeat, settled_parityMismatch, implies_true, settled_foldl,
    inForce_beginCycle, nextCycle, now, hclock, hregs, htabs, hcommit]

/-- Before its end a cycle goes on. -/
theorem exec_cycleBoundary_early {s : State} (h : devNs s < s.clock.cycleEnd) (raw : Nat) (bad : List Nat) :
    exec (.cycleBoundary raw bad) s = .next s := congrArg Host.Outcome.next (if_pos h)

/-- At its end the next cycle begins, in the core as in the timing island alone. -/
theorem exec_cycleBoundary_due {s : State} (h : s.clock.cycleEnd ≤ devNs s) (hr : coreRuns s = true ∨ s.startup.island = true)
    (raw : Nat) (bad : List Nat) :
    ∃ t, exec (.cycleBoundary raw bad) s = .next t ∧ inForce (settled t) = (nextCycle s, s.regsCur, s.tabsCur, s.commit) := by
  refine ⟨_, congrArg Host.Outcome.next (if_neg (by omega)), ?_⟩
  by_cases hc : coreRuns s = true
  · rw [if_pos hc, inForce_boundary]
  · rw [if_neg hc, if_pos (hr.resolve_left hc), inForce_beginCycle]

/-- Settles O9: FENCE_GO meets its register and FENCE_DONE a fence that waits for nothing; a boundary at the cycle's end begins the next. -/
theorem fencesAndCyclesEndInTheirTime : Obligations.FencesAndCyclesEndInTheirTime := by
  refine ⟨fun _ _ full => fenceGo_starts full, fun _ _ full => fenceGo_refused full, fun _ _ => fenceDone_completes,
    fun _ raw bad h => exec_cycleBoundary_early h raw bad, fun s raw bad h hr => ?_⟩
  obtain ⟨t, ht, hf⟩ := exec_cycleBoundary_due h hr raw bad
  simp only [inForce_settled, Prod.mk.injEq] at hf
  obtain ⟨hclock, hregs, htabs, hcommit⟩ := hf
  exact ⟨t, ht, hclock, hregs, htabs, hcommit⟩

end Sys2Proof.Machine
end

section
/-! The step: a waiting command runs and completes, and an idle tick moves only the clocks while no timer of the device runs out. -/

namespace Sys2Proof.Machine

/-! ### The queue and the tick -/

theorem step_of_cons {s : State} {c : Instr} {rest : List Instr} (h : s.pending = c :: rest) :
    step s = exec c { s with pending := rest } := by rw [step, h]

theorem step_of_nil {s : State} (h : s.pending = []) : step s = .next (tick s) := by rw [step, h]

/-- What lasts through a tick includes the waiting commands. -/
theorem tick_pending (s : State) : (tick s).pending = s.pending := congrArg Prod.fst (kept_tick s)

/-- Without VDD_AON nothing happens (R13). -/
theorem tick_of_unpowered {s : State} (h : s.startup.aonUp = false) : tick s = s := by simp [tick, h]

/-! ### A tick at which no timer runs out -/

theorem slewTick_of_rest {s : State} (hn : s.clock.slewNext = none) (he : s.clock.slewEnds = false)
    (hl : flag s 0x4078 30 = true → s.clock.slewLeft ≠ 0) : slewTick s = s := by
  have hs : ¬(flag s 0x4078 30 ∧ (s.clock.slewEnds ∨ s.clock.slewLeft = 0)) := fun ⟨hf, h⟩ =>
    h.elim (by simp [he]) (hl hf)
  have hc : { s with clock := { s.clock with slewEnds := false } } = s := by rw [← he]
  simp only [slewTick, if_neg hs]
  rw [hc, hn]

/-- No correction of device time waits (R235, R236). -/
theorem correctTime_of_rest {s : State} (h : TimersRest s) : correctTime s = s := by
  obtain ⟨hstep, hnext, hends, hleft, -⟩ := h
  simp only [correctTime, slewTick_of_rest hnext hends hleft, hstep, ite_self]

theorem cxlTick_of_not_training {s : State} {c : Nat} (h : cxlState s c ≠ 1) : cxlTick s c = s := by
  simp [cxlTick, cxlPerstRelease, h]

/-- A fold over steps that each leave the state as it is. -/
theorem foldl_of_fixed {α : Type} {f : State → α → State} {s : State} {l : List α} (h : ∀ x ∈ l, f s x = s) : l.foldl f s = s :=
  List.foldlRecOn (motive := (· = s)) l f rfl fun t ht x hx => by rw [ht, h x hx]

/-- No bound that follows the clocks runs out: the pins, the queues, the FDB walks, the stall, Kettle and the CXL ports stay. -/
theorem timers_of_rest {s : State} (hpins : ∀ n < 8, (tevAt s n).activeUntil = none) (hstall : s.power.stallUntil = none)
    (hswap : s.fdb.swap = none) (hflush : s.fdb.flushes = []) (hbusy : busyQueues s = []) (hkettle : kettleState s ≠ 2)
    (hcxl : ∀ c < 4, cxlState s c ≠ 1) : timers s = s := by
  have pins : (List.range 8).foldl tevEnd s = s := foldl_of_fixed fun n hn => by
    simp only [tevEnd, hpins n (List.mem_range.mp hn)]
  have queues : busyTime s = s := by rw [busyTime, hbusy]; rfl
  have swap : ploughSwap s = s := by simp only [ploughSwap, hswap]
  have walk : flushStep s = s := by simp only [flushStep, hflush]
  have stall : endStall s = s := by simp only [endStall, hstall]
  have kettle : kettleBound s = s := if_neg fun h => hkettle h.1
  have cxl : (List.range 4).foldl cxlTick s = s := foldl_of_fixed fun c hc =>
    cxlTick_of_not_training (hcxl c (List.mem_range.mp hc))
  simp only [timers, pins, queues, swap, walk, stall, kettle, cxl]

/-- A tick at which no timer runs out moves the clocks alone. -/
theorem tick_of_rest {s : State} (ha : s.startup.aonUp = true) (h : TimersRest s) : tick s = advance s := by
  have ht : tick s = timers (advance (correctTime s)) := by simp [tick, ha]
  obtain ⟨-, -, -, -, hpins, hstall, hswap, hflush, hbusy, hkettle, hcxl⟩ := id h
  rw [ht, correctTime_of_rest h]
  exact timers_of_rest (s := advance s) hpins hstall hswap hflush hbusy hkettle hcxl

/-! ### Every well-formed command completes -/

theorem sized_completes {ok : Bool} (h : ok = true) (s : State) : ∃ t, sized ok s = .next t := ⟨s, by rw [sized, if_pos h]⟩

theorem ite_completes {p : Prop} [Decidable p] {a b : Res} (ha : ∃ t, a = .next t) (hb : ∃ t, b = .next t) :
    ∃ t, (if p then a else b) = .next t := by
  split
  · exact ha
  · exact hb

theorem execSeqDramAccess_completes (src : Source) (store : Option Word32) (s : State) :
    ∃ t, execSeqDramAccess src store s = .next t := by
  cases store with
  | none => exact ite_completes ⟨_, rfl⟩ (ite_completes ⟨_, rfl⟩ ⟨_, rfl⟩)
  | some v => exact ⟨_, rfl⟩

/-- The list of shadow values is absent, or has one entry or three. -/
theorem execShadowVisit_completes (shadow : Option (List Image)) (s : State) (h : (Instr.shadowVisit shadow).wellFormed = true) :
    ∃ t, execShadowVisit shadow s = .next t := by
  cases shadow with
  | none => exact sized_completes rfl _
  | some l => exact sized_completes (by simpa [Instr.wellFormed] using h) _

/-- WellFormed gives a list the size that its command's meaning checks, and no other check stops a command (log 8): a meaning that tests the
state, or asks whether something waits, answers a next state on every branch. -/
theorem exec_completes (c : Instr) (s : State) (h : c.wellFormed = true) : ∃ t, exec c s = .next t := by
  cases c with
  | claimAssert | claimConfirm | egressAllowed | heartbeat | delta | endRecord | mailboxRecord | health | bulk | selftestEye
  | thermalSample => exact sized_completes h _
  | qspiDone | ownerEnrol | debugToken | firmwareBoot | ucodeLoad => exact sized_completes (by simpa [Instr.wellFormed] using h) _
  | write => exact sized_completes (by simpa [Instr.wellFormed, countOf] using h) _
  | shadowVisit shadow => exact execShadowVisit_completes shadow s h
  | tevCapRead | agingMonitorRead => exact ite_completes ⟨_, rfl⟩ ⟨_, rfl⟩
  | take => exact ite_completes ⟨_, rfl⟩ (ite_completes ⟨_, rfl⟩ ⟨_, rfl⟩)
  | seqDramAccess src store => exact execSeqDramAccess_completes src store s
  | claimRelease | mateResetPulseEnd | kettleRetransmitTimer | watchdogExpired | delayedWarmReset | pmbusError =>
    dsimp only [exec, execClaimRelease, execMateResetPulseEnd, execKettleRetransmitTimer, execWatchdogExpired, execDelayedWarmReset,
      execPmbusError]
    split <;> exact ⟨_, rfl⟩
  | _ => exact ⟨_, rfl⟩

/-- Settles O1: a waiting command is executed and completes when it is well formed, and an idle step is a tick. -/
theorem stepRunsTheFrontCommand : Obligations.StepRunsTheFrontCommand := by
  refine ⟨fun _ _ _ => step_of_cons, fun s h => ⟨tick s, step_of_nil h, (tick_pending s).trans h⟩, fun s h ha => ?_,
    fun s h ha hr => ⟨advance s, ?_, rfl, rfl, rfl, rfl⟩, exec_completes, fun s hq => ?_⟩
  · rw [step_of_nil h, tick_of_unpowered ha]
  · rw [step_of_nil h, tick_of_rest ha hr]
  · cases hp : s.pending with
    | nil => exact ⟨_, step_of_nil hp⟩
    | cons c rest =>
      rw [step_of_cons hp]
      exact exec_completes c _ (hq c (hp ▸ List.mem_cons_self))

end Sys2Proof.Machine
end

section
/-! Views: what shows neither counters, error records nor output, and registers at listed addresses alone, is untouched by an event that is
counted, raised and reported. -/

namespace Sys2Proof.Machine

/-- The view `F` of a state shows no register but those at the addresses `as`, none of which an error report writes, and neither the
counters, the error records nor what has left the block. -/
structure Shows {α : Type} (F : State → α) (as : List Nat) : Prop where
  word : ∀ s a v, a ∉ as → F (wr s a v) = F s
  counters : ∀ s c, F { s with counters := c } = F s
  errors : ∀ s e, F { s with errors := e } = F s
  out : ∀ s o, F { s with out := o } = F s
  apart : ∀ a ∈ as, a / 0x1000 ≠ 2 ∧ a ≠ 0xD010

/-- A register outside the always-on page and INT_STATUS of the counters. -/
theorem shows_rd {a : Nat} (h2 : a / 0x1000 ≠ 2) (hd : a ≠ 0xD010) : Shows (fun s => rd s a) [a] where
  word s b v hb := rd_wr_other s v fun e => hb (by simp [e])
  counters _ _ := rfl
  errors _ _ := rfl
  out _ _ := rfl
  apart b hb := by rw [List.mem_singleton.mp hb]; exact ⟨h2, hd⟩

/-- A view without registers. -/
theorem shows_of_rfl {α : Type} {F : State → α}
    (h : ∀ s regs counters errors out, F { s with regs := regs, counters := counters, errors := errors, out := out } = F s) :
    Shows F [] where
  word s _ _ _ := h s _ s.counters s.errors s.out
  counters s c := h s s.regs c s.errors s.out
  errors s e := h s s.regs s.counters e s.out
  out s o := h s s.regs s.counters s.errors o
  apart _ hb := absurd hb List.not_mem_nil

/-- A view untouched in both branches. -/
theorem view_ite {α : Type} {F : State → α} {c : Prop} [Decidable c] {s t u : State} (ht : F t = F s) (hu : F u = F s) :
    F (if c then t else u) = F s := by
  split
  · exact ht
  · exact hu

/-- A view that no step of a fold touches. -/
theorem view_foldl_mem {α β : Type} {F : State → α} {f : State → β → State} {l : List β} (h : ∀ s x, x ∈ l → F (f s x) = F s)
    (s : State) : F (l.foldl f s) = F s := by
  induction l generalizing s with
  | nil => rfl
  | cons x l ih => exact (ih (fun u y hy => h u y (.tail x hy)) _).trans (h s x List.mem_cons_self)

theorem view_foldl {α β : Type} {F : State → α} {f : State → β → State} (h : ∀ s x, F (f s x) = F s) (l : List β) (s : State) :
    F (l.foldl f s) = F s := view_foldl_mem (fun u x _ => h u x) s

/-- A view of neither counters nor slices does not show a slice's trigger. -/
theorem view_wakeSlice {α : Type} {F : State → α} (hc : ∀ s i n, F (count s i n) = F s) (hs : ∀ s x, F { s with slices := x } = F s)
    (s : State) (i : Nat) : F (wakeSlice s i) = F s := by
  unfold wakeSlice
  dsimp only
  split
  · exact hs s _
  · exact (hc _ _ _).trans (hs s _)
  · exact (hc _ _ _).trans (hs s _)
  · rfl

namespace Shows

variable {α : Type} {F : State → α} {as : List Nat} (h : Shows F as)
include h

theorem setFld {a : Nat} (ha : a ∉ as) (s : State) (hi lo v : Nat) : F (setFld s a hi lo v) = F s := h.word s a _ ha

theorem setFlag {a : Nat} (ha : a ∉ as) (s : State) (k : Nat) (b : Bool) : F (setFlag s a k b) = F s := h.setFld ha s k k _

theorem emit (s : State) (o : Out) : F (emit s o) = F s := h.out s _

theorem raise {p : Page} (hp : p.at_ 0x10 ∉ as) (s : State) (k : Nat) : F (raise s p k) = F s :=
  (h.setFld hp _ k k 1).trans (h.out s _)

theorem count (s : State) (i n : Nat) : F (count s i n) = F s := by
  unfold Machine.count
  split
  · rfl
  · split <;> exact h.counters s _

theorem countDrop (s : State) (r n : Nat) : F (countDrop s r n) = F s := (h.count _ _ _).trans (h.counters s _)

/-- A register of the always-on page is not shown. -/
theorem not_mem_alwaysOn {a : Nat} (ha : a / 0x1000 = 2) : a ∉ as := fun hm => (h.apart a hm).1 ha

theorem setFault (s : State) (k : Nat) : F (setFault s k) = F s := by
  exact (h.setFlag (h.not_mem_alwaysOn (by decide)) _ k true).trans (view_ite (h.emit s _) rfl)

theorem latchErr (s : State) (r : ErrRec) : F (latchErr s r) = F s := by
  have word : ∀ (t : State) (a v : Nat), a / 0x1000 = 2 → F (wr t a v) = F t := fun t a v ha => h.word t a v (h.not_mem_alwaysOn ha)
  refine (view_ite (h.setFault _ 25) rfl).trans ((view_ite (h.errors _ _) rfl).trans ?_)
  exact (word _ _ _ (by decide)).trans ((word _ _ _ (by decide)).trans (word _ _ _ (by decide)))

theorem reportAs (s : State) (cls code : Nat) (p : Page) (detail : List Nat) : F (reportAs s cls code p detail) = F s := by
  refine view_ite rfl ((view_ite (h.latchErr _ _) rfl).trans ?_)
  exact (view_ite rfl (h.errors _ _)).trans ((view_ite (h.count _ cls 1) rfl).trans (h.counters s _))

theorem report (s : State) (code : Nat) (p : Page) (detail : List Nat) : F (report s code p detail) = F s := h.reportAs s _ _ _ _

theorem saturate {a : Nat} (ha : a ∉ as) (s : State) : F (saturate s a) = F s := by
  rw [Machine.saturate, h.report, h.raise fun hm => (h.apart _ hm).2 rfl, h.setFlag ha]

theorem tally {a : Nat} (ha : a ∉ as) (s : State) : F (tally s a) = F s := by
  unfold Machine.tally narrowAdd
  dsimp only
  split
  · exact h.setFld ha s _ _ _
  · split
    · exact h.setFld ha s _ _ _
    · rw [h.saturate ha, h.setFld ha]

/-- A slice's trigger counts, and reaches nothing else than its slice. -/
theorem wakeSlice (hs : ∀ s x, F { s with slices := x } = F s) (s : State) (i : Nat) : F (wakeSlice s i) = F s :=
  view_wakeSlice h.count hs s i

end Shows

end Sys2Proof.Machine
end

section
/-! Recovered clocks and the time PLL (R251, R416). -/

namespace Sys2Proof.Machine

/-- The register of a recovered-clock output is neither the interrupt page of the time island nor the counter interrupt enable. -/
theorem rclkReg_ne (k : Fin 2) : rclkReg k ≠ 0x4010 ∧ rclkReg k ≠ 0x4014 ∧ rclkReg k ≠ 0xD060 := by
  have hk := k.isLt
  simp only [rclkReg]
  omega

/-- The messages of a cause depend on the two registers that enable it alone. -/
theorem vectors_congr {s t : State} {p : Page} (he : rd t (p.at_ 0x14) = rd s (p.at_ 0x14)) (hc : rd t 0xD060 = rd s 0xD060) (k : Nat) :
    vectors t p k = vectors s p k := by
  rw [vectors, vectors, flag, flag, flag, flag, he, hc]

/-- What a squelch does to an output that R251 holds low. -/
theorem squelch_of_unsound {s : State} {k : Nat} (h30 : flag s (rclkReg k) 30 = true) (h29 : flag s (rclkReg k) 29 = false)
    (hs : rclkSound s k = false) (hh : flag s 0x4008 31 = false) :
    squelch s k = (let u := emit (setFlag s (rclkReg k) 29 true) (.pin "RCLK_OUT" k false)
      raise { u with pins := { u.pins with rclkOn := u.pins.rclkOn.set k false } } .time 4) :=
  if_pos ⟨h30, by rw [h29]; rfl, .inl (by rw [hs]; rfl), by rw [rclkHeld, hh]; rfl⟩

/-- What the end of a squelch does to an output whose lane has held lock. -/
theorem unsquelch_of_locked {s : State} {k : Nat} (h31 : flag s (rclkReg k) 31 = true) (h29 : flag s (rclkReg k) 29 = true)
    (hl : rclkLocked s k = true) (hh : flag s 0x4008 31 = false) :
    unsquelch s k = (let u := setFlag s (rclkReg k) 29 false
      driveRclk { u with pins := { u.pins with rclkOn := u.pins.rclkOn.set k true } } k) :=
  if_pos ⟨h31, h29, hl, by rw [rclkHeld, hh]; rfl⟩

/-- An error report writes the always-on page, and INT_STATUS of the counters, alone. -/
theorem rd_report_other (s : State) (code : Nat) (p : Page) (detail : List Nat) {a : Nat} (h2 : a / 0x1000 ≠ 2) (hd : a ≠ 0xD010) :
    rd (report s code p detail) a = rd s a := (shows_rd h2 hd).report s code p detail

/-- Settles O12: each event of a recovered clock or of the time PLL is the update its rule names, in every state that allows it. -/
theorem clocksFollowTheirSource : Obligations.ClocksFollowTheirSource := by
  refine ⟨fun s k h30 h29 hs hh => ?_, fun s k h31 h29 hl hh => ?_, fun s hp => ?_, fun s hp => ?_, fun s hp => ?_⟩
  · obtain ⟨hi, he, hc⟩ := rclkReg_ne k
    refine ⟨_, rfl, settled_squelch s k, ?_⟩
    rw [squelch_of_unsound h30 h29 hs hh]
    refine ⟨?_, ?_, ?_, ?_, ?_⟩
    · rw [flag_raise _ _ _ _ _ (by decide), if_neg fun h => hi h.1]
      exact flag_setFlag_same s _ 29 true (by decide)
    · rw [flag_raise _ _ _ _ _ (by decide), if_pos ⟨rfl, rfl⟩]
    · exact ((RegsBut.of_regs_eq _ rfl).setFlag (by simp) 29 true).raise (by simp [Page.at_, Page.base]) 4
    · simp
    · rw [raise_out]
      refine congrArg₂ (· ++ ·) (by simp) (vectors_congr ?_ ?_ 4)
      · exact rd_setFlag_other s 29 true he.symm
      · exact rd_setFlag_other s 29 true hc.symm
  · rw [show exec (.rclkRestart k) s = done (unsquelch s k) from rfl]
    refine ⟨_, rfl, settled_unsquelch s k, ?_⟩
    rw [unsquelch_of_locked h31 h29 hl hh]
    refine ⟨flag_setFlag_same s _ 29 false (by decide), rfl, (RegsBut.of_regs_eq _ rfl).setFlag (by simp) 29 false, ?_⟩
    have field : ∀ hi lo, hi < 29 → fld (setFlag s (rclkReg k) 29 false) (rclkReg k) hi lo = fld s (rclkReg k) hi lo :=
      fun hi lo hlt => fld_setFlag_other s _ 29 false _ hi lo (by decide) (.inr (.inl hlt))
    change s.out ++ [Out.low "RCLK_OUT" [k, fld (setFlag s (rclkReg k) 29 false) (rclkReg k) 27 22,
      max 4 (fld (setFlag s (rclkReg k) 29 false) (rclkReg k) 11 0)]] = _
    rw [field 27 22 (by decide), field 11 0 (by decide), rclkLane]
  · have hr : ∀ a, a / 0x1000 = 4 → rd (report (raise (setFlag s 0x4078 31 false) .time 3) 0x0705 .time []) a =
      rd (raise (setFlag s 0x4078 31 false) .time 3) a := fun a ha => rd_report_other _ _ _ _ (by omega) (by omega)
    have ht : exec .pllUnlock s = .next (report (raise (setFlag s 0x4078 31 false) .time 3) 0x0705 .time []) := congrArg done (if_pos hp)
    refine ⟨_, ht, settled_execPllUnlock s _ ht, ?_, ?_, rfl⟩
    · rw [flag, hr _ (by decide), ← flag, flag_raise _ _ _ _ _ (by decide), if_neg (by decide)]
      exact flag_setFlag_same s _ 31 false (by decide)
    · rw [flag, hr _ (by decide), ← flag, flag_raise _ _ _ _ _ (by decide), if_pos ⟨rfl, rfl⟩]
  · have ht : exec .pllLock s = .next (setFlag s 0x4078 31 true) := congrArg done (if_pos hp)
    exact ⟨_, ht, flag_setFlag_same s _ 31 true (by decide), (RegsBut.of_regs_eq _ rfl).setFlag (by simp) 31 true, rfl⟩
  · have hn : ¬ pagePowered s .time = true := by rw [hp]; exact Bool.false_ne_true
    exact ⟨congrArg done (if_neg hn), congrArg done (if_neg hn)⟩

end Sys2Proof.Machine
end

section
/-! Frames that enter (R16, R50, R52, R290). -/

namespace Sys2Proof.Machine

/-! ### What a wake and a count leave alone -/

/-- What the memories of a slice hold: its frames and its queues. -/
def stored (s : State) : Sparse Frame × Sparse Queue := (s.frames, s.queues)

theorem stored_iff {s t : State} : stored t = stored s ↔ t.frames = s.frames ∧ t.queues = s.queues := by
  simp only [stored, Prod.mk.injEq]

theorem shows_stored : Shows stored [] := shows_of_rfl fun _ _ _ _ _ => rfl

/-- A slice's trigger does not number a frame. -/
theorem nextFrame_wakeSlice (s : State) (i : Nat) : (wakeSlice s i).nextFrame = s.nextFrame :=
  (shows_of_rfl fun _ _ _ _ _ => rfl : Shows State.nextFrame []).wakeSlice (fun _ _ => rfl) s i

/-- A slice's trigger keeps the frames and the queues. -/
theorem stored_wakeSlice (s : State) (i : Nat) : stored (wakeSlice s i) = stored s := shows_stored.wakeSlice (fun _ _ => rfl) s i

/-- A slice's trigger keeps its wake FIFO. -/
theorem wakeFifo_wakeSlice (s : State) (i : Nat) : (sliceAt (wakeSlice s i) i).wakeFifo = (sliceAt s i).wakeFifo := by
  have counted : ∀ u k, (sliceAt (count u k 1) i).wakeFifo = (sliceAt u i).wakeFifo := fun u k =>
    (shows_of_rfl fun _ _ _ _ _ => rfl : Shows (fun s => (sliceAt s i).wakeFifo) []).count u k 1
  unfold wakeSlice
  dsimp only
  split
  · rw [sliceAt_setSlice_same]
  · rw [counted, sliceAt_setSlice_same]
  · rw [counted, sliceAt_setSlice_same]
  · rfl

/-- A trace is drawn only where TRACE_CONFIG.ENABLE says so (R318). -/
theorem traceDraw_of_disabled {s : State} (h : flag s 0xF040 31 = false) (i : Nat) : traceDraw s i = (false, s) :=
  if_pos (by rw [h]; rfl)

/-! ### A frame of the port's MAC -/

theorem stored_touchSlice (s : State) (i : Nat) : stored (touchSlice s i) = stored s := view_ite rfl rfl

theorem stored_countReceived (s : State) (p : Nat) (b : List Byte) (good : Bool) : stored (countReceived s p b good) = stored s := by
  have hc := shows_stored.count
  simp only [countReceived, apply_ite stored, hc, ite_self]

theorem stored_countPortEnd (s : State) (p : Nat) (b : List Byte) (bad : Nat) (fault : FrameFault) (n : Nat) :
    stored (countPortEnd s p b bad fault n) = stored s := by
  unfold countPortEnd
  (repeat' split) <;> simp only [shows_stored.count, stored_countReceived]

theorem stored_loadPause (s : State) (p k quanta : Nat) : stored (loadPause s p k quanta) = stored s := rfl

theorem stored_macControl (s : State) (p : Nat) (b : List Byte) : stored (macControl s p b) = stored s := by
  unfold macControl
  split
  · exact view_ite (shows_stored.count _ _ _) (shows_stored.count _ _ _)
  · refine view_ite ?_ (shows_stored.count _ _ _)
    refine (view_foldl (fun u k => ?_) _ _).trans (shows_stored.count _ _ _)
    exact view_ite (stored_loadPause _ _ _ _) rfl
  · exact shows_stored.count _ _ _

theorem stored_rescueEnd (s : State) (p bad : Nat) (b : List Byte) : stored (rescueEnd s p bad b) = stored s := by
  have counted : ∀ u a, stored (tally u a) = stored u := fun u a => shows_stored.tally List.not_mem_nil u
  exact view_ite (counted _ _) (counted _ _)

/-- The end of a frame that stays in the port domain reaches no frame and no queue (R52, R403). -/
theorem stored_endInMac (s : State) (p : Nat) (bytes : List Byte) (rescue : Bool) (fault : FrameFault) (n : Nat) :
    stored (endInMac s p bytes rescue fault n) = stored s := by
  refine Eq.trans (view_ite (stored_rescueEnd _ _ _ _) (view_ite (shows_stored.countDrop _ _ _) (stored_macControl _ _ _))) ?_
  exact (stored_touchSlice _ _).trans (stored_countPortEnd _ _ _ _ _ _)

/-! ### Reception -/

/-- A frame of no other kind, at an idle MAC, goes to its slice. -/
theorem receive_of_frame {s : State} {p : Nat} {bytes : List Byte} (ended : Bool) {pre : Bool} (hu : portUp s p = true)
    (hb : macBusy s p pre = false) (hr : isRescue bytes = false) (hc : beAt bytes 12 2 ≠ 0x8808) :
    receive s p bytes ended pre = (let u := traceDraw s (sliceOf p)
      let w : WakeEntry := {
        port := p, bytes, preemptable := pre, rx := rxStamp s p, sfd := now s, sfdDev := devNs s,
        ended := if ended then some (.none, 0) else none, traced := u.1, woke := !awake u.2 (sliceOf p) }
      if pipelineRuns u.2 (sliceOf p) then enterSlice (wakeSlice u.2 (sliceOf p)) w else enterFifo u.2 (sliceOf p) w) := by
  unfold receive
  rw [if_neg (by simp [hu, hb])]
  dsimp only
  rw [if_neg (by simp [hr, hc])]

/-- A rescue or MAC control frame at an idle MAC ends in the port. -/
theorem receive_of_mac {s : State} {p : Nat} {bytes : List Byte} {pre : Bool} (hu : portUp s p = true) (hb : macBusy s p pre = false)
    (hk : isRescue bytes = true ∨ beAt bytes 12 2 = 0x8808) :
    receive s p bytes true pre = endInMac s p bytes (isRescue bytes) .none 0 := by
  unfold receive
  rw [if_neg (by simp [hu, hb])]
  dsimp only
  rw [if_pos (by simpa using hk), if_pos rfl]

/-- A frame that has not ended is the one that its MAC receives. -/
theorem rx_enterSlice (s : State) {w : WakeEntry} (h : w.ended = none) :
    (if w.preemptable then (portAt (enterSlice s w) w.port).rxPreempt else (portAt (enterSlice s w) w.port).rxExpress) =
      some s.nextFrame := by
  unfold enterSlice
  simp only [h, portAt_setPort_same]
  cases w.preemptable <;> rfl

/-- A frame whose bytes fit joins the wake FIFO of its slice, and reaches no frame and no queue. -/
theorem enterFifo_fits {s : State} {i : Nat} {w : WakeEntry} (h : wakeBytes s i + w.bytes.length ≤ 262144) :
    stored (enterFifo s i w) = stored s ∧ (sliceAt (enterFifo s i w) i).wakeFifo = (sliceAt s i).wakeFifo ++ [w] := by
  have he : enterFifo s i w = setSlice (wakeSlice s i) i { sliceAt (wakeSlice s i) i with
      wakeFifo := (sliceAt (wakeSlice s i) i).wakeFifo ++ [w] } :=
    if_neg (by rw [wakeBytes, wakeFifo_wakeSlice]; exact Nat.not_lt.mpr h)
  rw [he, sliceAt_setSlice_same, wakeFifo_wakeSlice]
  exact ⟨stored_wakeSlice s i, rfl⟩

/-- A frame of no other kind, at an idle MAC of a port whose slice does not run, goes to the wake FIFO. -/
theorem receive_asleep {s : State} {p : Nat} {bytes : List Byte} (ended : Bool) {pre : Bool} (hu : portUp s p = true)
    (hb : macBusy s p pre = false) (hr : isRescue bytes = false) (hc : beAt bytes 12 2 ≠ 0x8808)
    (hrun : pipelineRuns s (sliceOf p) = false) (hd : flag s 0xF040 31 = false) :
    ∃ w : WakeEntry, receive s p bytes ended pre = enterFifo s (sliceOf p) w ∧ w.port = p ∧ w.bytes = bytes ∧ w.preemptable = pre ∧
      w.rx = rxStamp s p := by
  rw [receive_of_frame ended hu hb hr hc, traceDraw_of_disabled hd]
  exact ⟨_, if_neg (by rw [hrun]; exact Bool.false_ne_true), rfl, rfl, rfl, rfl⟩

/-- The end of an express frame that its slice has, as R133 and R147 judge it. -/
theorem receiveEnd_of_frame {s : State} {p i : Nat} (rest : List Byte) (fault : FrameFault) (n : Nat)
    (hi : (portAt s p).rxExpress = some i) (hr : (frameAt s i).rescue = false) (hc : (frameAt s i).control = false) :
    receiveEnd s p false rest fault n = (let u := setPort s p { portAt s p with rxExpress := none }
      let f := frameAt s i
      let mtu := portMtu u f.epoch p
      let bad := frameFault (f.bytes ++ rest) mtu fault
      let bytes := (f.bytes ++ rest).take (mtu + 1)
      finishFrame (countPortEnd (wakeSlice (setFrame u i { f with bytes }) f.slice) p bytes bad fault n) i bad) := by
  unfold receiveEnd
  simp only [Bool.false_eq_true, if_false, hi]
  exact if_neg (not_or.mpr ⟨Bool.eq_false_iff.mp hr, Bool.eq_false_iff.mp hc⟩)

/-- Settles O13: a frame enters its slice or the wake FIFO, or ends in its port, as `receive` and `receiveEnd` say for each kind. -/
theorem framesEnter : Obligations.FramesEnter := by
  refine ⟨fun s port bytes ended pre hu hb hr hc => ?_, fun s port bytes pre hu hb hr hc hrun hd => ?_,
    fun s port bytes ended pre hu hb hr hc hrun hd hw => ?_, fun s port bytes pre hu hb hk => ?_, fun s port bytes ended pre hu => ?_,
    fun s port rest fault n i hi hres hctl => ?_, fun s port bytes hu hc hb => ?_⟩
  · exact ⟨_, rfl, settled_execFrameReceive port bytes ended pre s _ rfl, receive_of_frame ended hu hb hr hc⟩
  · refine ⟨_, rfl, settled_execFrameReceive port bytes false pre s _ rfl, ?_⟩
    rw [receive_of_frame false hu hb hr hc, traceDraw_of_disabled hd]
    dsimp only
    rw [if_pos hrun, ← nextFrame_wakeSlice s (sliceOf port)]
    exact rx_enterSlice _ (w := { port := port, preemptable := pre, .. }) rfl
  · obtain ⟨w, ht, hport, hbytes, hpre, hrx⟩ := receive_asleep ended hu hb hr hc hrun hd
    obtain ⟨hst, hq⟩ := enterFifo_fits (hbytes ▸ hw : wakeBytes s (sliceOf port) + w.bytes.length ≤ 262144)
    refine ⟨_, w, rfl, settled_execFrameReceive port bytes ended pre s _ rfl, ?_⟩
    rw [ht]
    obtain ⟨hframes, hqueues⟩ := stored_iff.mp hst
    exact ⟨hframes, hqueues, hq, hport, hbytes, hpre, hrx⟩
  · refine ⟨_, rfl, settled_execFrameReceive port bytes true pre s _ rfl, ?_⟩
    rw [receive_of_mac hu hb hk]
    obtain ⟨hframes, hqueues⟩ := stored_iff.mp (stored_endInMac s port bytes (isRescue bytes) .none 0)
    exact ⟨hframes, hqueues, rfl⟩
  · exact congrArg done (if_pos (.inl (by rw [hu]; rfl)))
  · exact ⟨_, rfl, settled_execFrameEnd port false rest fault n s _ rfl, receiveEnd_of_frame rest fault n hi hres hctl⟩
  · have ht : exec (.macControlFrame port bytes) s = .next (endInMac s port bytes false .none 0) :=
      congrArg done (if_pos ⟨hu, hc, by rw [hb]; rfl⟩)
    obtain ⟨hframes, hqueues⟩ := stored_iff.mp (stored_endInMac s port bytes false .none 0)
    exact ⟨_, ht, settled_execMacControlFrame port bytes s _ ht, hframes, hqueues, rfl⟩

end Sys2Proof.Machine
end

section
/-! Views of what is not in a queue: the order check of a head (R170) and the exit from spill state (R155) leave them alone. -/

namespace Sys2Proof.Machine

/-- The view shows no queue either, and no register in which the spill path reports. -/
structure ShowsNoQueue {α : Type} (F : State → α) (as : List Nat) : Prop extends Shows F as where
  queues : ∀ s q, F { s with queues := q } = F s
  spill : 0x404010 ∉ as ∧ 0x404070 ∉ as ∧ 0x404074 ∉ as

namespace ShowsNoQueue

variable {α : Type} {F : State → α} {as : List Nat} (h : ShowsNoQueue F as)
include h

theorem raiseSpill (s : State) (k : Nat) : F (raise s (.spill 0) k) = F s := h.toShows.raise (p := .spill 0) h.spill.1 s k

theorem orderCheck (s : State) (q value next : Nat) : F (orderCheck s q value next) = F s := by
  obtain ⟨-, h70, h74⟩ := h.spill
  have reported : ∀ u detail, F (report (raise (Machine.count u 3927 1) (.spill 0) 2) 0x0407 (.spill 0) detail) = F u := fun u detail =>
    (h.report _ _ _ _).trans ((h.raiseSpill _ _).trans (h.count _ _ _))
  refine view_ite (h.queues s _) (view_ite ((reported _ _).trans (h.queues s _)) ?_)
  exact (h.word _ _ _ h74).trans ((h.word _ _ _ h70).trans ((reported _ _).trans (h.queues s _)))

theorem settleSkips (q : Nat) (l : List QItem) (s : State) : F (settleSkips s q l) = F s := by
  induction l generalizing s with
  | nil => rfl
  | cons x l ih =>
    cases x with
    | copy c => rfl
    | skip first last => exact (ih _).trans ((h.orderCheck _ _ _ _).trans (h.queues s _))

theorem settleHead (s : State) (q : Nat) : F (settleHead s q) = F s := view_ite (h.settleSkips _ _ _) rfl

theorem crossDown (s : State) (q : Nat) : F (crossDown s q) = F s := view_ite (h.queues s _) rfl

theorem spillExit (s : State) (q : Nat) : F (spillExit s q) = F s := by
  unfold Machine.spillExit
  dsimp only
  split
  · exact h.crossDown s q
  · exact view_ite ((h.settleHead _ _).trans (h.queues s _)) rfl

end ShowsNoQueue

end Sys2Proof.Machine
end

section
/-! Frames that leave (R204, R16, R131, R147, R148, R150). -/

namespace Sys2Proof.Machine

/-! ### The frames in transmission at a port -/

/-- What the two MACs of port `p` transmit. -/
def txs (p : Nat) (s : State) : Option Tx × Option Tx := ((portAt s p).txExpress, (portAt s p).txPreempt)

/-- The transmissions of a port are in no queue, register or counter. -/
theorem shows_txs (p : Nat) : ShowsNoQueue (txs p) [] where
  toShows := shows_of_rfl fun _ _ _ _ _ => rfl
  queues _ _ := rfl
  spill := ⟨List.not_mem_nil, List.not_mem_nil, List.not_mem_nil⟩

theorem txOf_eq_txs (s : State) (p : Nat) (express : Bool) : txOf s p express = if express then (txs p s).1 else (txs p s).2 := rfl

theorem txOf_setTx_same (s : State) (p : Nat) (express : Bool) (t : Option Tx) : txOf (setTx s p express t) p express = t := by
  cases express <;> simp [txOf, setTx]

/-- A port whose transmissions stay as they are. -/
theorem txs_setPort (p : Nat) (s : State) (i : Nat) {v : Port} (he : v.txExpress = (portAt s i).txExpress)
    (hp : v.txPreempt = (portAt s i).txPreempt) : txs p (setPort s i v) = txs p s := by
  unfold txs
  rw [portAt_setPort]
  split
  · next h => rw [he, hp, h]
  · rfl

/-! A port's flow-control frames pass between its frames (R54). -/

theorem txs_fcEmit (p i : Nat) (s : State) (d : Nat × Nat) : txs p (fcEmit i s d) = txs p s :=
  ((shows_txs p).emit _ _).trans (((shows_txs p).count _ _ _).trans (txs_setPort p s i rfl rfl))

theorem txs_fcFlush (p : Nat) (s : State) (i : Nat) : txs p (fcFlush s i) = txs p s :=
  view_ite rfl ((view_foldl (txs_fcEmit p i) _ _).trans (txs_setPort p s i rfl rfl))

theorem txs_fcSend (p : Nat) (s : State) (i k quanta : Nat) : txs p (fcSend s i k quanta) = txs p s :=
  (txs_fcFlush p _ i).trans (txs_setPort p s i rfl rfl)

theorem txs_fcFollow (p : Nat) (s : State) (i k : Nat) : txs p (fcFollow s i k) = txs p s :=
  view_ite rfl (view_ite (view_ite (txs_fcSend p _ _ _ _) rfl) (view_ite (txs_fcSend p _ _ _ _) rfl))

/-! What a copy lets go of. -/

theorem txs_returnLeaves (p : Nat) (s : State) (f : Frame) (n : Nat) : txs p (returnLeaves s f n) = txs p s :=
  view_ite rfl (txs_fcFollow p _ _ _)

theorem txs_returnDescriptor (p : Nat) (s : State) (c : Copy) : txs p (returnDescriptor s c) = txs p s := by
  unfold returnDescriptor
  split <;> rfl

theorem txs_releaseSharer (p : Nat) (s : State) (i phys : Nat) : txs p (releaseSharer s i phys) = txs p s := by
  have reaped : ∀ u, txs p (reapFrame u i) = txs p u := fun u => view_ite rfl rfl
  have sized : ∀ u n, txs p (sizeChain u i phys n) = txs p u := fun u n => rfl
  exact view_ite rfl ((reaped _).trans (view_ite ((sized _ _).trans (txs_returnLeaves p _ _ _)) rfl))

/-- A copy that leaves changes no transmission. -/
theorem txs_leaveCopy (p : Nat) (s : State) (c : Copy) : txs p (leaveCopy s c) = txs p s :=
  ((shows_txs p).spillExit _ _).trans ((txs_releaseSharer p _ _ _).trans (txs_returnDescriptor p _ c))

/-! ### Transmission -/

/-- Once its transmission has been taken off and its copy has left, the MAC is free. -/
theorem txOf_after_leave (s : State) (p : Nat) (express : Bool) (c : Copy) (v : Port)
    (he : v.txExpress = (portAt (setTx s p express none) p).txExpress) (hp : v.txPreempt = (portAt (setTx s p express none) p).txPreempt) :
    txOf (fcFlush (leaveCopy (setPort (setTx s p express none) p v) c) p) p express = none := by
  rw [txOf_eq_txs, txs_fcFlush, txs_leaveCopy, txs_setPort p _ p he hp, ← txOf_eq_txs, txOf_setTx_same]

theorem txOf_endTransmit (s : State) (p : Nat) (express : Bool) (t : Tx) : txOf (endTransmit s p express t) p express = none :=
  txOf_after_leave _ p express _ _ rfl rfl

theorem txOf_underrun {s : State} {p : Nat} {express : Bool} {x : Tx} (hx : onWire (txOf s p express) = some x) (hc : x.copy.cut = true)
    (he : (frameAt s x.copy.frame).ended = false) : txOf (underrun s p express) p express = none := by
  unfold underrun
  rw [hx]
  dsimp only
  rw [if_neg (by simp [hc, he])]
  exact txOf_after_leave _ p express _ _ rfl rfl

/-- A MAC whose frame has all its bytes ends its transmission. -/
theorem transmitEnd_of_ended {s : State} {p : Nat} {express : Bool} {x : Tx} (hx : onWire (txOf s p express) = some x)
    (he : (frameAt s x.copy.frame).ended = true) : transmitEnd s p express = endTransmit s p express x := by
  unfold transmitEnd
  rw [hx]
  exact if_pos he

section Start

variable {s u : State} {p : Nat} (hup : portUp s p = true) (ho : egressOpen s = true) (hr : egressRuns s p = true)
  (hs : egressSound s p = true) (hw : wireBusy s p = false) (hu : u = unifySelected (fcFlush s p) p)
include hup ho hr hs hw hu

/-- At a frame boundary of an open port whose egress runs, the selected copy has its turn where no suspended frame stands before it. -/
theorem transmitStart_of_selected {express : Bool} {c : Copy} (hx : express = true ∨ (portAt u p).txPreempt = none)
    (hc : selectedOf u p express = some c) (hm : mayStart u p c = true) : transmitStart s p express = startCopy u p express c := by
  have hfree : (if express then none else (portAt u p).txPreempt) = none := by
    rcases hx with h | h <;> simp [h]
  unfold transmitStart
  rw [if_neg (by simp [hup, ho, hr, hs, hw])]
  dsimp only
  rw [← hu, hfree, hc]
  exact if_pos hm

/-- Otherwise the suspended frame goes on, where no express frame waits. -/
theorem transmitStart_of_suspended {x : Tx} (hx : (portAt u p).txPreempt = some x) (hc : (portAt u p).selected = none) :
    transmitStart s p false = resumeFrame u p x := by
  unfold transmitStart
  rw [if_neg (by simp [hup, ho, hr, hs, hw])]
  dsimp only
  rw [← hu, if_neg Bool.false_ne_true, hx]
  exact if_neg (by simp [hc])

end Start

/-- The copy that passes the egress stages is the one transmitted. -/
theorem copy_startCopy {s : State} {p : Nat} {express : Bool} {c : Copy}
    (h : mirrorOf c.kind ≠ none ∨ egressCheck (takeCopy (setSelected s p express none) c)
      (frameAt (takeCopy (setSelected s p express none) c) c.frame) p false = 0) :
    (txOf (startCopy s p express c) p express).map (·.copy) = some c := by
  unfold startCopy
  dsimp only
  split
  · exact congrArg (Option.map (·.copy)) (txOf_setTx_same _ p express _)
  · next hm =>
    rw [h.resolve_left (not_not.mpr hm)]
    exact congrArg (Option.map (·.copy)) (txOf_setTx_same _ p express _)

/-- The suspended frame goes on where its fragment ended. -/
theorem tx_resumeFrame {s : State} {p : Nat} {x : Tx} (h : gatePasses s p (x.copy.queue % 8) (devNs s) (txLeft s x) = true) :
    (txOf (resumeFrame s p x) p false).map (fun y => (y.copy, y.suspended, y.sent)) = some (x.copy, false, x.sent) := by
  unfold resumeFrame
  rw [if_pos h, txOf_eq_txs, (shows_txs p).count, ← txOf_eq_txs, txOf_setTx_same]
  rfl

/-! ### Selection -/

theorem selectedOf_setSelected_same (s : State) (p : Nat) (express : Bool) (c : Option Copy) :
    selectedOf (setSelected s p express c) p express = c := by
  cases express <;> simp [selectedOf, setSelected]

/-- A fragment cut for an express frame leaves the selections as they are. -/
theorem selectedOf_preempt (s : State) (p : Nat) (express : Bool) : selectedOf (preempt s p) p express = selectedOf s p express := by
  unfold preempt
  split
  · rfl
  · split
    · rfl
    · split
      · rfl
      · cases express <;> simp only [selectedOf, cutFragment, setTx, portAt_setPort_same] <;> rfl

theorem selectedOf_settleSelection (s : State) {p : Nat} (hp : p ≠ 64) (express : Bool) (c : Copy) :
    selectedOf (settleSelection s p express c) p express = some c := by
  unfold settleSelection
  dsimp only
  rw [if_neg hp]
  split
  · rw [selectedOf_preempt, selectedOf_setSelected_same]
  · exact selectedOf_setSelected_same _ _ _ _

theorem waiting_settleSelection (s : State) (express : Bool) (c : Copy) : (settleSelection s 64 express c).host.waiting = some c := rfl

/-- Where no queue contends nothing is selected. -/
theorem selectFrame_of_none {s : State} {p : Nat} {express : Bool} {t : Nat} (h : pickQueue s p (contenders s p express t) = none)
    (n : Nat) : selectFrame n s p express t = s := by
  cases n with
  | zero => rfl
  | succ n => rw [selectFrame, h]

/-- A head that is neither stale nor too long for its gate is the selection. -/
theorem selectFrame_of_head {s : State} {p : Nat} {express : Bool} {t q : Nat} {sc : Sched} {c : Copy}
    (hq : pickQueue s p (contenders s p express t) = some (q, sc)) (hc : readyHead s q = some c)
    (hs : staleFrame s (frameAt s c.frame) = false)
    (hn : p = 64 ∨ neverPasses s p (q % 8) (gateLength (frameLen (frameAt s c.frame))) = false) (n : Nat) :
    selectFrame (n + 1) s p express t =
      settleSelection (spillExit (debitPath { s with sched := sc } q p (shapedLength s p (frameLen (frameAt s c.frame)))) q) p express c := by
  rw [selectFrame, hq]
  dsimp only
  rw [hc]
  dsimp only
  rw [if_neg (by simp [hs]), if_neg (by simpa [imp_iff_not_or] using hn)]

theorem foldl_add_ge {α : Type} (f : α → Nat) (l : List α) (n : Nat) : n ≤ l.foldl (fun n x => n + f x) n := by
  induction l generalizing n with
  | nil => exact Nat.le_refl n
  | cons x l ih => exact (Nat.le_add_right n (f x)).trans (ih _)

/-- A selection looks at one head at least. -/
theorem headItems_pos (s : State) : ∃ n, headItems s = n + 1 :=
  Nat.exists_eq_add_of_le' (foldl_add_ge (fun e : Nat × Queue => e.2.head.length) s.queues 1)

/-- A MAC that can start a frame selects one. -/
theorem portSelect_of_free {s : State} {p : Nat} {express : Bool} {wait : Nat} (h64 : p ≠ 64) (hu : portUp (unifySelected s p) p = true)
    (ho : egressOpen (unifySelected s p) = true) (hr : egressRuns s p = true) (hs : egressSound s p = true)
    (hsel : selectedOf (unifySelected s p) p express = none) (hx : express = true ∨ preemptActive (unifySelected s p) p = true)
    (hf : macFreeIn (unifySelected s p) p express = some wait) :
    portSelect s p express = selectFrame (headItems (unifySelected s p)) (unifySelected s p) p express
      (devNs (unifySelected s p) + wait) := by
  unfold portSelect
  rw [if_neg (by simp [hr, hs]), if_neg h64]
  dsimp only
  rw [if_neg (by simpa [hu, ho, hsel] using fun h => hx.resolve_left (Bool.eq_false_iff.mp h)), hf]

/-- The host port selects where host egress holds no copy. -/
theorem portSelect_host {s : State} (express : Bool) (hw : s.host.waiting = none) (hr : egressRuns s 64 = true) (hs : egressSound s 64 = true) :
    portSelect s 64 express = selectFrame (headItems s) s 64 true (devNs s) := by
  unfold portSelect
  rw [if_neg (by simp [hr, hs]), if_pos rfl, if_neg (by simp [hw])]

/-! ### Residence -/

theorem residenceScan_of_empty {s : State} {q : Nat} (h : headCopy s q = none) (n : Nat) : residenceScan n s q = s := by
  cases n with
  | zero => rfl
  | succ n => rw [residenceScan, h]

theorem residenceScan_of_fresh {s : State} {q : Nat} {c : Copy} (h : headCopy s q = some c)
    (hf : staleFrame s (frameAt s c.frame) = false) (n : Nat) : residenceScan n s q = s := by
  cases n with
  | zero => rfl
  | succ n =>
    rw [residenceScan, h]
    exact if_neg (by simp [hf])

/-- A stale head that no port has selected is discarded, and the scan goes on. -/
theorem residenceScan_of_stale {s : State} {q : Nat} {c : Copy} (h : headCopy s q = some c) (hq : (queueAt s q).cutHeld = 0)
    (he : (frameAt s c.frame).ended = true) (hf : staleFrame s (frameAt s c.frame) = true) (hx : selectedOf s c.port true ≠ some c)
    (hp : selectedOf s c.port false ≠ some c) (hw : s.host.waiting ≠ some c) (n : Nat) :
    residenceScan (n + 1) s q = residenceScan n (spillExit (dropStale (takeCopy s c) c) q) q := by
  rw [residenceScan, h]
  dsimp only
  rw [if_pos ⟨hq, he, hf⟩, if_neg hx, if_neg hp, if_neg hw]

/-! ### NODE_QUERY (R216) -/

/-- NODE_QUERY lies in a scheduler page, so a write that reaches it wakes no slice. -/
theorem atRegister_nodeQuery (s : State) (src : Source) : atRegister s src 0x500040 = dropHeld s src 0x500040 :=
  atRegister_eq s src 0x500040 fun i k => by rw [show pageAt 0x500040 = some .sched from rfl]; simp

/-- A query writes its index and its four result registers. -/
theorem regsBut_queryNode (s : State) (i : Nat) :
    RegsBut [0x500040, 0x500044, 0x500048, 0x50004C, 0x500050] s (queryNode s i) := by
  have start := (RegsBut.of_regs_eq [0x500040, 0x500044, 0x500048, 0x50004C, 0x500050] (rfl : s.regs = s.regs))
  exact ((((start.wr (by simp) _).wr (by simp) _).wr (by simp) _).wr (by simp) _).wr (by simp) _

theorem unsigned_lt (i : Int) (w : Nat) : unsigned i w < 2 ^ w := by
  have hw : (0 : Int) < 2 ^ w := by positivity
  have := Int.emod_lt_of_pos i hw
  unfold unsigned
  zify
  omega

theorem deficit_queryNode (s : State) (i : Nat) : rd (queryNode s i) 0x500048 = unsigned (deficitOf s.sched i) 20 := by
  unfold queryNode nodeQuery
  dsimp only
  rw [rd_wr_other _ _ (by decide), rd_wr_other _ _ (by decide), rd_wr_same, Nat.mod_eq_of_lt ((unsigned_lt _ _).trans (by decide))]
  rfl

/-- A word stored changes the registers alone. -/
theorem wr_regsOnly {s t : State} (h : t = { s with regs := t.regs }) (a v : Nat) : wr t a v = { s with regs := (wr t a v).regs } :=
  congrArg (fun x : State => { x with regs := (wr t a v).regs }) h

/-- A query changes the registers alone. -/
theorem queryNode_regsOnly (s : State) (i : Nat) : queryNode s i = { s with regs := (queryNode s i).regs } := by
  unfold queryNode nodeQuery
  exact wr_regsOnly (wr_regsOnly (wr_regsOnly (wr_regsOnly (wr_regsOnly rfl _ _) _ _) _ _) _ _) _ _

/-- Settles O15: the selection, the start and the end of a transmission and the residence scan, each by the rule of its operation. -/
theorem framesLeave : Obligations.FramesLeave := by
  refine ⟨fun s u port express wait h64 hu hup ho hr hs hsel hx hf => ?_, fun s express hw hr hs => ?_,
    fun s u w port express c hup ho hr hs hb hu hpre hsel hmay hw => ?_, fun s u port x hup ho hr hs hb hu hx hsel hg => ?_,
    fun s port express ho => ?_, fun s port express x hx he => ?_, fun s port express x hx hc he => ?_, fun s q hq => ?_,
    fun s u q c n hn hu hc hq he hf hx hp hw => ?_, fun s u q c hu hc hf => ?_, fun s src i ha => ?_⟩
  · subst hu
    have ht := portSelect_of_free h64 hup ho hr hs hsel hx hf
    refine ⟨⟨_, rfl, settled_execPortSelect port express s _ rfl, ht⟩, fun hn => ?_, fun q sc c hq hc hst hnp => ⟨_, rfl, ?_⟩⟩
    · exact congrArg done (ht.trans (selectFrame_of_none hn _))
    · obtain ⟨n, hn⟩ := headItems_pos (unifySelected s port)
      rw [ht, hn, selectFrame_of_head hq hc hst (.inr hnp), selectedOf_settleSelection _ h64]
  · have ht := portSelect_host express hw hr hs
    refine ⟨⟨_, rfl, settled_execPortSelect 64 express s _ rfl, ht⟩, fun q sc c hq hc hst => ⟨_, congrArg done ht, ?_⟩⟩
    obtain ⟨n, hn⟩ := headItems_pos s
    rw [hn, selectFrame_of_head hq hc hst (.inl rfl), waiting_settleSelection]
  · subst hw
    have ht : exec (.transmitStart port express) s = .next (startCopy u port express c) :=
      congrArg done (transmitStart_of_selected hup ho hr hs hb hu hpre hsel hmay)
    exact ⟨⟨_, ht, settled_execTransmitStart port express s _ ht, rfl⟩, fun h => ⟨_, ht, copy_startCopy h⟩⟩
  · have ht : exec (.transmitStart port false) s = .next (resumeFrame u port x) :=
      congrArg done (transmitStart_of_suspended hup ho hr hs hb hu hx hsel)
    exact ⟨_, ht, settled_execTransmitStart port false s _ ht, tx_resumeFrame hg⟩
  · exact congrArg done (if_pos (.inr (.inl (by rw [ho]; rfl))))
  · have ht : exec (.transmitEnd port express) s = .next (endTransmit s port express x) := congrArg done (transmitEnd_of_ended hx he)
    exact ⟨_, ht, settled_execTransmitEnd port express s _ ht, txOf_endTransmit s port express x, rfl⟩
  · exact ⟨_, rfl, settled_execCtUnderrun port express s _ rfl, txOf_underrun hx hc he⟩
  · have ht : exec (.residenceScan q) s = .next (dropHeldCut s q) := congrArg done (residenceScan_of_empty hq _)
    exact ⟨_, ht, settled_execResidenceScan q s _ ht, rfl⟩
  · have ht : exec (.residenceScan q) s = .next (residenceScan n (spillExit (dropStale (takeCopy u c) c) q) q) := by
      rw [← residenceScan_of_stale hc hq he hf hx hp hw, ← hn, hu]
      rfl
    exact ⟨_, ht, settled_execResidenceScan q s _ ht, rfl⟩
  · rw [← residenceScan_of_fresh hc hf (queueAt s q).head.length, hu]
    rfl
  · have ht : exec (.nodeQuery src i) s = .next (queryNode (dropHeld s src 0x500040) i) := by
      rw [← atRegister_nodeQuery]
      exact congrArg done (guarded_of_admitted ha _)
    have hregs := queryNode_regsOnly (dropHeld s src 0x500040) i
    have haccess : (queryNode (dropHeld s src 0x500040) i).access = (dropHeld s src 0x500040).access := by rw [hregs]
    refine ⟨_, ht, regsBut_queryNode (dropHeld s src 0x500040) i, deficit_queryNode (dropHeld s src 0x500040) i, ?_⟩
    rw [haccess]
    exact hregs

end Sys2Proof.Machine
end

section
/-! Views of what is not in the mailbox: a response (R351, R361) and a record for the mate (R271, R272) leave them alone. -/

namespace Sys2Proof.Machine

/-! ### The pages of the mailbox -/

theorem channelStatus_page {c : Nat} (h : c < 12) : channelStatus c / 0x1000 = 7 := by
  unfold channelStatus channelBase
  split <;> omega

theorem composing_page {c i : Nat} (h : c < 12) (hi : i < 16) : (channelBase c + i * 4) / 0x1000 = 7 := by
  unfold channelBase
  split <;> omega

/-- The view shows neither Kettle's window nor what has left the block. -/
structure ShowsNoKettle {α : Type} (F : State → α) : Prop where
  kettle : ∀ s x, F { s with kettle := x } = F s
  out : ∀ s o, F { s with out := o } = F s

namespace ShowsNoKettle

variable {α : Type} {F : State → α} (h : ShowsNoKettle F)
include h

theorem kettlePut (s : State) (head : Nat) (words : List Nat) : F (kettlePut s head words) = F s := (h.out _ _).trans (h.kettle s _)

theorem kettleFill (n : Nat) (s : State) : F (kettleFill n s) = F s := by
  induction n generalizing s with
  | zero => rfl
  | succ n ih =>
    unfold Machine.kettleFill
    split
    · split
      · rfl
      · exact (ih _).trans ((h.kettlePut _ _ _).trans (h.kettle s _))
    · rfl

theorem kettleSend (s : State) (type sub : Nat) (cp : Bool) (words : List Nat) : F (kettleSend s type sub cp words) = F s :=
  view_ite rfl (view_ite (h.kettlePut _ _ _) ((h.kettleFill _ _).trans (h.kettle s _)))

end ShowsNoKettle

/-- The view shows neither the mailbox with its page of registers, nor Kettle's window, nor what has left the block. -/
structure ShowsNoMail {α : Type} (F : State → α) : Prop extends ShowsNoKettle F where
  word : ∀ s a v, a / 0x1000 = 7 → F (wr s a v) = F s
  channels : ∀ s x, F { s with channels := x } = F s

/-- A register outside the mailbox page. -/
theorem showsNoMail_rd {a : Nat} (h : a / 0x1000 ≠ 7) : ShowsNoMail (fun s => rd s a) where
  word s _ v hb := rd_wr_other s v fun e => h (e ▸ hb)
  channels _ _ := rfl
  kettle _ _ := rfl
  out _ _ := rfl

/-- A view without registers. -/
theorem showsNoMail_of_rfl {α : Type} {F : State → α}
    (h : ∀ s regs channels kettle out, F { s with regs := regs, channels := channels, kettle := kettle, out := out } = F s) :
    ShowsNoMail F where
  word s _ _ _ := h s _ s.channels s.kettle s.out
  channels s x := h s s.regs x s.kettle s.out
  kettle s x := h s s.regs s.channels x s.out
  out s o := h s s.regs s.channels s.kettle o

namespace ShowsNoMail

variable {α : Type} {F : State → α} (h : ShowsNoMail F)
include h

theorem setFlag {a : Nat} (ha : a / 0x1000 = 7) (s : State) (k : Nat) (b : Bool) : F (setFlag s a k b) = F s := h.word s a _ ha

theorem raise (s : State) (k : Nat) : F (raise s .mailbox k) = F s := (h.word _ _ _ rfl).trans (h.out s _)

theorem channelMark {c : Nat} (hc : c < 12) (s : State) (k : Nat) : F (channelMark s c k) = F s :=
  (view_ite (h.raise _ _) rfl).trans (h.setFlag (channelStatus_page hc) s k true)

theorem setReceiverDown {c : Nat} (hc : c < 12) (s : State) : F (setReceiverDown s c) = F s :=
  (h.channelMark hc _ _).trans (h.channels s _)

theorem postMessage {c : Nat} (hc : c < 12) (s : State) (words : List Nat) : F (postMessage s c words) = F s := by
  refine (view_ite ?_ (view_ite (h.setReceiverDown hc _) rfl)).trans
    ((view_ite (h.raise _ _) rfl).trans ((h.setFlag (channelStatus_page hc) _ _ _).trans (h.channels s _)))
  exact (h.channels _ _).trans ((h.kettleSend _ _ _ _ _).trans (h.kettleSend _ _ _ _ _))

theorem channelGo {c : Nat} (hc : c < 12) (s : State) : F (channelGo s c) = F s :=
  view_ite (h.channelMark hc _ _) (h.postMessage hc _ _)

theorem compose {c : Nat} (hc : c < 12) (s : State) (words : List Nat) :
    F ((List.range 16).foldl (fun s i => wr s (channelBase c + i * 4) (nth words i)) s) = F s :=
  view_foldl_mem (fun u _ hi => h.word u _ _ (composing_page hc (List.mem_range.mp hi))) s

theorem answer {k : Nat} (hk : k < 6) (s : State) (head result detail : Nat) (results : List Nat) :
    F (answer s k head result detail results) = F s :=
  (h.channelGo (by omega) _).trans (h.compose (by omega) _ _)

theorem respond {c : FwCommand} (hc : c.channel < 6) (s : State) (result detail : Nat) (results : List Nat) :
    F (respond s c result detail results) =
      F { s with firmware := { s.firmware with commands := s.firmware.commands.filter fun d => d.channel != c.channel } } :=
  h.answer hc _ _ _ _ _

end ShowsNoMail

end Sys2Proof.Machine
end

section
/-! The response to a command (R361): what it posts, and what it leaves alone. -/

namespace Sys2Proof.Machine

/-- `s` with the mailbox, Kettle's window, firmware's commands and the output of `u`. -/
def withMailOf (u s : State) : State :=
  { s with regs := u.regs, channels := u.channels, kettle := u.kettle, firmware := u.firmware, out := u.out }

/-- A response changes the mailbox, Kettle's window, firmware's commands and the output alone. -/
theorem respond_frame {c : FwCommand} (hc : c.channel < 6) (s : State) (result detail : Nat) (results : List Nat) :
    respond s c result detail results = withMailOf (respond s c result detail results) s :=
  (showsNoMail_of_rfl fun _ _ _ _ _ => rfl : ShowsNoMail (withMailOf (respond s c result detail results))).respond hc s result detail results

/-- A response takes the command of its channel away. -/
theorem firmware_respond {c : FwCommand} (hc : c.channel < 6) (s : State) (result detail : Nat) (results : List Nat) :
    (respond s c result detail results).firmware =
      { s.firmware with commands := s.firmware.commands.filter fun d => d.channel != c.channel } :=
  (showsNoMail_of_rfl fun _ _ _ _ _ => rfl : ShowsNoMail State.firmware).respond hc s result detail results

theorem commandOf_respond {c : FwCommand} (hc : c.channel < 6) (s : State) (result detail : Nat) (results : List Nat) :
    commandOf (respond s c result detail results) c.channel = none := by
  rw [commandOf, firmware_respond hc]
  simp [List.find?_eq_none]

/-- A register outside the mailbox page. -/
theorem rd_respond {c : FwCommand} (hc : c.channel < 6) {a : Nat} (ha : a / 0x1000 ≠ 7) (s : State) (result detail : Nat)
    (results : List Nat) : rd (respond s c result detail results) a = rd s a :=
  (showsNoMail_rd ha).respond hc s result detail results

/-! ### The message posted -/

/-- The first `n` composing registers read what has been written into them. -/
theorem rd_compose (b : Nat) (words : List Nat) (s : State) (n j : Nat) :
    rd ((List.range n).foldl (fun s i => wr s (b + i * 4) (nth words i)) s) (b + j * 4) =
      if j < n then nth words j % 2 ^ 32 else rd s (b + j * 4) := by
  induction n with
  | zero => rfl
  | succ n ih =>
    rw [List.range_succ, List.foldl_append, List.foldl_cons, List.foldl_nil, rd_wr, ih]
    by_cases hj : j = n
    · subst hj
      simp
    · rw [if_neg (by omega)]
      exact if_congr (by omega) rfl rfl

theorem composed_compose (c : Nat) (words : List Nat) (s : State) :
    composed ((List.range 16).foldl (fun s i => wr s (channelBase c + i * 4) (nth words i)) s) c =
      (List.range 16).map fun i => nth words i % 2 ^ 32 :=
  List.map_congr_left fun i hi => (rd_compose _ words s 16 i).trans (if_pos (List.mem_range.mp hi))

/-- What the receiver of channel `c` finds: whether it is full, and the words posted. -/
def slotOfChannel (c : Nat) (s : State) : Bool × List Nat := (channelFull s c, (channelAt s c).posted)

theorem showsNoKettle_slot (c : Nat) : ShowsNoKettle (slotOfChannel c) := ⟨fun _ _ => rfl, fun _ _ => rfl⟩

/-- Another cause of the channel's status, or of the mailbox's interrupts, leaves the slot as it is. -/
theorem slot_setFlag {c a k : Nat} (b : Bool) (s : State) (hk : k < 32) (h : a ≠ channelStatus c ∨ k ≠ 31) :
    slotOfChannel c (setFlag s a k b) = slotOfChannel c s := by
  refine Prod.ext ?_ rfl
  rw [slotOfChannel, channelFull, flag_setFlag _ _ _ _ _ _ hk, if_neg (by omega)]
  rfl

theorem slot_setChannel {c : Nat} (s : State) {v : Channel} (h : v.posted = (channelAt s c).posted) :
    slotOfChannel c (setChannel s c v) = slotOfChannel c s :=
  Prod.ext rfl (by rw [slotOfChannel, channelAt_setChannel_same, h]; rfl)

theorem slot_setReceiverDown {c : Nat} (h : 6 ≤ c) (s : State) : slotOfChannel c (setReceiverDown s c) = slotOfChannel c s := by
  unfold setReceiverDown channelMark channelRaise
  rw [if_neg (by omega), slot_setFlag _ _ (by decide) (.inr (by decide))]
  refine slot_setChannel _ ?_
  rfl

/-- A message goes into an empty outbound channel, which then is full. -/
theorem slot_postMessage {c : Nat} (h : 6 ≤ c) (s : State) (words : List Nat) :
    slotOfChannel c (postMessage s c words) = (true, putBits (nth words 0) 7 0 (channelEpoch s c) :: words.drop 1) := by
  have hm : channelStatus c ≠ Page.mailbox.at_ 0x10 := by
    rw [channelStatus, channelBase, if_neg (by omega), Page.at_, Page.base]
    omega
  have raised : ∀ u : State, slotOfChannel c (raise u .mailbox (c + 2)) = slotOfChannel c u := fun u =>
    Prod.ext (congrArg (bitAt · 31) (rd_raise_other u .mailbox (c + 2) hm)) (by rw [slotOfChannel, channelAt, raise_channels]; rfl)
  have hk := showsNoKettle_slot c
  refine (view_ite ?_ (view_ite (slot_setReceiverDown h _) rfl)).trans ((view_ite (raised _) rfl).trans ?_)
  · refine (slot_setChannel _ ?_).trans ((hk.kettleSend _ _ _ _ _).trans (hk.kettleSend _ _ _ _ _))
    rfl
  · refine Prod.ext (flag_setFlag_same _ _ 31 true (by decide)) ?_
    rw [slotOfChannel, channelAt, setFlag_channels]
    exact congrArg Channel.posted (channelAt_setChannel_same s c _)

/-- Composing a message leaves the channel's status as it is. -/
theorem channelFull_compose (c : Nat) (words : List Nat) (s : State) :
    channelFull ((List.range 16).foldl (fun s i => wr s (channelBase c + i * 4) (nth words i)) s) c = channelFull s c :=
  view_foldl_mem (F := (channelFull · c)) (fun u i hi =>
    flag_wr_other u _ 31 (by have := List.mem_range.mp hi; simp only [channelStatus]; omega)) s

/-- A message composed for an empty outbound channel is what its receiver finds there (R351). -/
theorem slot_postOutbound {s : State} {k : Nat} (hs : channelFull s (k + 6) = false) (words : List Nat) :
    channelFull (postOutbound s k words) (k + 6) = true ∧
      ∀ i, i < 15 → nth (channelAt (postOutbound s k words) (k + 6)).posted (i + 1) = nth words (i + 1) % 2 ^ 32 := by
  have he := (channelFull_compose (k + 6) words s).trans hs
  have ht : postOutbound s k words = postMessage _ (k + 6) _ := if_neg (Bool.eq_false_iff.mp he)
  have hp := slot_postMessage (c := k + 6) (by omega)
    ((List.range 16).foldl (fun s i => wr s (channelBase (k + 6) + i * 4) (nth words i)) s)
    (composed ((List.range 16).foldl (fun s i => wr s (channelBase (k + 6) + i * 4) (nth words i)) s) (k + 6))
  rw [← ht, composed_compose] at hp
  refine ⟨congrArg Prod.fst hp, fun i hi => ?_⟩
  rw [show (channelAt (postOutbound s k words) (k + 6)).posted = _ from congrArg Prod.snd hp]
  simp [nth, List.getD_eq_getElem?_getD, List.getElem?_range (show i + 1 < 16 by omega)]

/-- A response into an empty outbound channel is what the requester finds there (R361). -/
theorem answers_respond {c : FwCommand} {k : Fin 6} (hc : c.channel = k) {s : State} (hs : channelFull s (k + 6) = false) {result : Nat}
    (hr : result < 256) (l : List Nat) : Answers (respond s c result 0 l) k result l := by
  have hsmall : c.channel < 6 := hc ▸ k.isLt
  obtain ⟨hfull, hword⟩ := slot_postOutbound (k := c.channel)
    (s := { s with firmware := { s.firmware with commands := s.firmware.commands.filter fun d => d.channel != c.channel } })
    (hc ▸ hs) ((2 ^ 28 + (1 + l.length) * 2 ^ 24 + (bits (nth c.words 0) 23 16 ||| 0x80) * 2 ^ 16 + bits (nth c.words 0) 15 8 * 2 ^ 8) ::
      (result * 2 ^ 24 + 0) :: l)
  rw [← hc]
  refine ⟨hfull, commandOf_respond hsmall s result 0 l, (hword 0 (by decide)).trans ?_, fun i hl hi => hword (i + 1) (by omega)⟩
  change (result * 2 ^ 24 + 0) % 2 ^ 32 = result * 2 ^ 24
  omega

end Sys2Proof.Machine
end

section
/-! Knob commits (R21, R37 to R41): what an accepted commit makes the current epoch's, and what it leaves alone. -/

namespace Sys2Proof.Machine

/-- Time, frames, ports, Colophon and the applied registers. -/
def applied (s : State) : Clock × Sparse Frame × Sparse Port × Colophon × Sparse Word32 :=
  (s.clock, s.frames, s.ports, s.colophon, s.regsCur)

theorem applied_iff {s : State} {clock : Clock} {frames : Sparse Frame} {ports : Sparse Port} {colophon : Colophon} {regs : Sparse Word32} :
    applied s = (clock, frames, ports, colophon, regs) ↔
      s.clock = clock ∧ s.frames = frames ∧ s.ports = ports ∧ s.colophon = colophon ∧ s.regsCur = regs := by
  simp only [applied, Prod.mk.injEq]

/-- What an accepted commit settles at once: what is applied, the commit itself and COMMIT_STATUS. -/
def committed (s : State) : (Clock × Sparse Frame × Sparse Port × Colophon × Sparse Word32) × Option Commit × Nat :=
  (applied s, s.commit, rd s 0x44)

theorem committed_iff {s t : State} :
    committed t = committed s ↔ applied t = applied s ∧ t.commit = s.commit ∧ rd t 0x44 = rd s 0x44 := by
  simp only [committed, Prod.mk.injEq]

theorem shows_committed : ShowsNoQueue committed [0x44] where
  word s a v ha := by
    have hne : 0x44 ≠ a := fun h => ha (h ▸ List.mem_singleton.mpr rfl)
    exact committed_iff.mpr ⟨rfl, rfl, rd_wr_other s v hne⟩
  counters _ _ := rfl
  errors _ _ := rfl
  out _ _ := rfl
  apart a ha := by rw [List.mem_singleton.mp ha]; decide
  queues _ _ := rfl
  spill := by decide

/-- Spill state that ends under R175 is in no view without queues. -/
theorem ShowsNoQueue.drainCheck {α : Type} {F : State → α} {as : List Nat} (h : ShowsNoQueue F as) (s : State) :
    F (drainCheck s) = F s := by
  refine view_foldl (fun u q => ?_) _ s
  unfold drainQueue
  dsimp only
  split
  · rfl
  · exact view_ite ((h.spillExit _ _).trans (h.queues u _)) rfl

/-! ### The steps of an accepted commit -/

theorem committed_settleAll (s : State) : committed (settleAll s) = committed s := by
  refine view_foldl (fun _ _ => ?_) _ s
  exact view_ite rfl rfl

theorem committed_commitNode (old s : State) (i : Nat) : committed (commitNode old s i) = committed s := by
  have shown : ∀ u, committed (showTransit u) = committed u := fun u => shows_committed.word u _ _ (by decide)
  refine view_ite (view_ite ?_ rfl) (view_ite (shown _) rfl)
  exact (shows_committed.raise (p := .sched) (by decide) _ _).trans (shown _)

theorem committed_schedCommit (old s : State) : committed (schedCommit old s) = committed s := by
  unfold schedCommit
  simp only [committed_settleAll, view_foldl (committed_commitNode old)]

theorem committed_setPower (s : State) (p : Power) : committed (setPower s p) = committed s := rfl

theorem committed_raiseVoltage (s : State) : committed (raiseVoltage s) = committed s := by
  have written : committed (writeVoltage s (wantedClock s)) = committed s :=
    (shows_committed.emit _ _).trans (shows_committed.setFld (a := 0x3050) (by decide) s _ _ _)
  exact view_ite rfl ((committed_setPower _ _).trans written)

theorem committed_showSteps (s : State) : committed (showSteps s) = committed s :=
  (shows_committed.setFld (by decide) _ _ _ _).trans (shows_committed.setFld (by decide) _ _ _ _)

theorem committed_govCommit (s : State) : committed (govCommit s) = committed s := by
  rw [govCommit, committed_raiseVoltage, committed_showSteps, committed_setPower]

theorem committed_wakeIfOff (s : State) : committed (wakeIfOff s) = committed s :=
  view_ite (view_foldl (fun _ _ => view_ite rfl (shows_committed.wakeSlice (fun _ _ => rfl) _ _)) _ s) rfl

theorem committed_slicesSwitched (s : State) : committed (slicesSwitched s) = committed s := by
  unfold slicesSwitched
  split
  · exact view_ite (shows_committed.word _ _ _ (by decide)) rfl
  · rfl

/-- What is staged becomes the current epoch's. -/
theorem applied_applyPending (s : State) :
    applied (applyPending s) = (s.clock, s.frames, s.ports, s.colophon, skeep (fun a => stagedMask a != 0) s.regs) :=
  view_foldl (F := applied) (f := fun u (e : Nat × Word32) => setFlag u e.1 29 false) (fun _ _ => rfl) _ _

/-- The state as a commit is accepted, before the units follow it. -/
def accepting (s : State) (preset : Nat) : State :=
  let u := setFld (applyPending s) 0x44 15 0 (currentEpoch s + 1)
  { u with commit := some { waiting := runningSlices u, knobsBefore := knobs s, preset }, twin := { u.twin with digestDue := true } }

/-- Scheduler, governor, spill path and slices follow a commit without a part in what it settles. -/
theorem committed_acceptCommit (s : State) (preset : Nat) : committed (acceptCommit s preset) = committed (accepting s preset) := by
  refine (committed_slicesSwitched _).trans ?_
  refine (view_ite rfl (committed_wakeIfOff _)).trans ?_
  refine (shows_committed.drainCheck _).trans ?_
  refine (view_ite (committed_setPower _ _) rfl).trans ?_
  exact (view_ite rfl (committed_govCommit _)).trans (committed_schedCommit s (accepting s preset))

/-- What is staged is applied, a commit is pending, and the epoch advances (R38, R39). -/
theorem acceptCommit_settles (s : State) (preset : Nat) :
    applied (acceptCommit s preset) = (s.clock, s.frames, s.ports, s.colophon, skeep (fun a => stagedMask a != 0) s.regs) ∧
      (acceptCommit s preset).commit.isSome = true ∧ currentEpoch (acceptCommit s preset) = (currentEpoch s + 1) % 65536 := by
  obtain ⟨happlied, hcommit, hepoch⟩ := committed_iff.mp (committed_acceptCommit s preset)
  refine ⟨happlied.trans (applied_applyPending s), by rw [hcommit]; rfl, ?_⟩
  rw [currentEpoch, fld, hepoch]
  exact fld_setFld_same _ 0x44 15 0 _ (by decide) (by decide)

/-! ### The envelope of a power command -/

theorem sget_skeep {α : Type} (d : Nat → α) (p : Nat → Bool) (m : Sparse α) {k : Nat} (h : p k = true) :
    sget d (skeep p m) k = sget d m k := by
  induction m with
  | nil => rfl
  | cons e m ih =>
    by_cases he : k = e.1
    · subst he
      simp [skeep, h, sget]
    · have hm : sget d (e :: m) k = sget d m k := if_neg he
      rw [hm, ← ih, skeep, List.filter_cons]
      split
      · exact if_neg he
      · rfl

/-- ENVELOPE is staged whole: the knobs in force take it from the applied word. -/
theorem envelope_of_applied {t : State} {regs : Sparse Word32} (h : t.regsCur = skeep (fun a => stagedMask a != 0) regs) :
    bits (knobs t) 8 0 = bits (sget resetWord regs 0x3040).toNat 8 0 := by
  have hmask : stagedMask 0x3040 = 0xFF0001FF := by decide
  have hin : (0xFF0001FF : Nat) % 2 ^ 9 = 2 ^ 9 - 1 := by decide
  have hout : (0xFFFFFFFF ^^^ 0xFF0001FF : Nat) % 2 ^ 9 = 0 := by decide
  simp only [bits, knobs, rdCur, mergeStaged, h, sget_skeep resetWord (fun a => stagedMask a != 0) regs (k := 0x3040) (by decide), hmask]
  rw [Nat.pow_zero, Nat.div_one, Nat.div_one, Nat.or_mod_two_pow, Nat.and_mod_two_pow, Nat.and_mod_two_pow, hout, hin,
    Nat.and_zero, Nat.zero_or, Nat.and_two_pow_sub_one_eq_mod, Nat.mod_mod]

end Sys2Proof.Machine
end

section
/-! What the steps of the acting commands keep. -/

namespace Sys2Proof.Machine

/-! ### The command that waits -/

/-- The command of a channel is one that came over it. -/
theorem channel_of_commandOf {s : State} {k : Nat} {c : FwCommand} (h : commandOf s k = some c) : c.channel = k := by
  simpa using List.find?_some h

/-- The command that waits under its opcode is carried out. -/
theorem commandStep_of_waits {s : State} {k op : Nat} {c : FwCommand} (h : CommandWaits s k op c) (act : FwCommand → State) :
    commandStep s k op act = act c := by
  obtain ⟨hc, hr, ho⟩ := h
  unfold commandStep
  rw [hc]
  exact if_pos ⟨hr, ho⟩

theorem channel_of_waits {s : State} {k : Fin 6} {op : Nat} {c : FwCommand} (h : CommandWaits s k op c) : c.channel = k ∧ c.channel < 6 := by
  have hc := channel_of_commandOf h.1
  exact ⟨hc, hc ▸ k.isLt⟩

/-! ### Bits of an operand -/

/-- A bit of a field. -/
theorem bitAt_bits (w : Nat) {hi lo k : Nat} (h : lo + k ≤ hi) : bitAt (bits w hi lo) k = bitAt w (lo + k) := by
  rw [bitAt_testBit, bitAt_testBit, bits, Nat.testBit_mod_two_pow, decide_eq_true (by omega), Bool.true_and, ← Nat.shiftRight_eq_div_pow,
    Nat.testBit_shiftRight]

theorem bits_zero_eq_mod (w hi : Nat) : bits w hi 0 = w % 2 ^ (hi + 1) := by rw [bits, Nat.pow_zero, Nat.div_one, Nat.sub_zero]

theorem mem_maskPorts {m p : Nat} : p ∈ maskPorts m ↔ p < 4 ∧ bitAt m p = true := by
  rw [maskPorts, List.mem_filter, List.mem_range]

theorem maskPorts_zero : maskPorts 0 = [] := by decide

/-! ### Clocks and applied configuration -/

/-- The clocks, the power state, the applied configuration and Colophon. -/
def basis (s : State) : (Clock × Power × Sparse Word32 × Sparse Image) × Colophon := ((s.clock, s.power, s.regsCur, s.tabsCur), s.colophon)

theorem basis_iff {s t : State} : basis t = basis s ↔
    (t.clock = s.clock ∧ t.power = s.power ∧ t.regsCur = s.regsCur ∧ t.tabsCur = s.tabsCur) ∧ t.colophon = s.colophon := by
  simp only [basis, Prod.mk.injEq]

theorem basis_of_settled {s t : State} (h : settled t = settled s) : basis t = basis s := by
  simp only [settled, Prod.mk.injEq] at h
  obtain ⟨-, hcolophon, hclock, hregs, -, htabs, -, -, -, -, -, hpower, -⟩ := h
  rw [basis, hclock, hpower, hregs, htabs, hcolophon, basis]

theorem showsNoMail_basis : ShowsNoMail basis := showsNoMail_of_rfl fun _ _ _ _ _ => rfl

/-- A response leaves time, power, the applied configuration and Colophon as they are. -/
theorem basis_respond {c : FwCommand} (hc : c.channel < 6) (s : State) (result detail : Nat) (results : List Nat) :
    basis (respond s c result detail results) = basis s := showsNoMail_basis.respond hc s result detail results

/-! ### SPILL_ENABLE -/

theorem settled_bringPort (c : FwCommand) (s : State) (p : Nat) : settled (bringPort c s p) = settled s := by
  simp only [bringPort, settled_clearPlace, settled_cxlEnable, settled_setPlace, settled_layoutPort, settled_ite, settled_mk, settled_fold,
    ite_self]

theorem basis_spillSettled {c : FwCommand} (hc : c.channel < 6) (s : State) : basis (spillSettled s c) = basis s :=
  view_ite (basis_respond hc _ _ _ _) (view_ite (basis_respond hc _ _ _ _) rfl)

theorem basis_spillEnable {c : FwCommand} (hc : c.channel < 6) (s : State) : basis (spillEnable s c) = basis s := by
  have cleared : ∀ (l : List Nat) u, basis (l.foldl clearPlace u) = basis u := fun l u =>
    view_foldl (fun v p => basis_of_settled (settled_clearPlace v p)) l u
  have brought : ∀ (l : List Nat) u, basis (l.foldl (bringPort c) u) = basis u := fun l u =>
    view_foldl (fun v p => basis_of_settled (settled_bringPort c v p)) l u
  refine view_ite (basis_spillSettled hc s) (view_ite (basis_respond hc _ _ _ _) (view_ite (basis_respond hc _ _ _ _)
    (view_ite (basis_respond hc _ _ _ _) (view_ite (basis_respond hc _ _ _ _) ?_))))
  exact (basis_spillSettled hc _).trans ((brought _ _).trans (cleared _ _))

/-- SPILL_CONTROL is in no queue, and the spill path reports elsewhere. -/
theorem shows_spillControl : ShowsNoQueue (fun s => rd s 0x404040) [0x404040] where
  toShows := shows_rd (by decide) (by decide)
  queues _ _ := rfl
  spill := by decide

/-- PLACE is written as given; what drains reports elsewhere. -/
theorem rd_setPlace (s : State) (mask : Nat) : rd (setPlace s mask) 0x404040 = rd (setFld s 0x404040 31 28 mask) 0x404040 := by
  refine (view_foldl (F := fun s => rd s 0x404040) (fun u c => ?_) _ _).trans (shows_spillControl.drainCheck _)
  exact view_ite (F := fun s => rd s 0x404040) (view_ite (F := fun s => rd s 0x404040) (shows_spillControl.raiseSpill _ _) rfl) rfl

theorem bitAt_sub_pow : ∀ n < 16, ∀ c < 4, ∀ p < 4, bitAt n c = true → bitAt (n - 2 ^ c) p = (bitAt n p && p != c) := by decide

/-- A port whose PLACE is cleared places no more; the others go on. -/
theorem place_clearPlace (s : State) {c p : Nat} (hc : c < 4) (hp : p < 4) :
    flag (clearPlace s c) 0x404040 (28 + p) = (flag s 0x404040 (28 + p) && p != c) := by
  have field : ∀ q < 4, bitAt (fld s 0x404040 31 28) q = flag s 0x404040 (28 + q) := fun q hq => bitAt_bits _ (by omega)
  unfold clearPlace
  split
  · next h =>
    rw [flag, rd_setPlace, ← flag, flag_setFld _ _ _ _ _ _ _ (by decide) (by decide), if_pos ⟨rfl, by omega, by omega⟩,
      Nat.add_sub_cancel_left, bitAt_sub_pow (fld s 0x404040 31 28) (Nat.mod_lt _ (by decide)) c hc p hp (by rw [field c hc, h]), field p hp]
  · next h =>
    by_cases hpc : p = c
    · subst hpc
      simpa using h
    · simp [hpc]

theorem place_foldl_clearPlace {l : List Nat} (hl : ∀ c ∈ l, c < 4) {p : Nat} (hp : p < 4) (s : State) :
    flag (l.foldl clearPlace s) 0x404040 (28 + p) = (flag s 0x404040 (28 + p) && !decide (p ∈ l)) := by
  induction l generalizing s with
  | nil => simp
  | cons c l ih =>
    rw [List.foldl_cons, ih (fun d hd => hl d (.tail c hd)), place_clearPlace s (hl c List.mem_cons_self) hp, Bool.and_assoc]
    congr 1
    by_cases hpc : p = c <;> simp [hpc]

/-- A command that enables no port has drained its ports when it answers. -/
theorem spillEnable_of_drain {s : State} {c : FwCommand} (hs : c.started = false) (ho : opRuns s c 4 = false) (he : enableMask c = 0) :
    ∃ result results, spillEnable s c = respond ((maskPorts (drainMask c)).foldl clearPlace (markStarted s c)) c result 0 results := by
  have blocked : layoutBlocked s c = 0 := by rw [layoutBlocked, he, maskPorts_zero]; rfl
  have fits : ∀ u, layoutMisfits u c = false := fun u => by rw [layoutMisfits, he, maskPorts_zero]; rfl
  unfold spillEnable
  rw [if_neg (by simp [hs]), if_neg (by simp [ho]), if_neg (by simp [he]), if_neg (by simp [blocked]), if_neg (by simp [fits])]
  dsimp only
  rw [he, maskPorts_zero, List.foldl_nil, spillSettled, if_neg (by simp [fits]), if_pos (by simp [he, maskPorts_zero])]
  exact ⟨_, _, rfl⟩

/-! ### Tables -/

/-- What a table flush keeps, whichever table it clears. -/
def beside (s : State) : Sparse Queue × Clock × Sparse Word32 := (s.queues, s.clock, s.regs)

theorem beside_iff {s t : State} : beside t = beside s ↔ t.queues = s.queues ∧ t.clock = s.clock ∧ t.regs = s.regs := by
  simp only [beside, Prod.mk.injEq]

theorem beside_count (s : State) (i n : Nat) : beside (count s i n) = beside s := by
  unfold count
  split
  · rfl
  · split <;> rfl

theorem beside_setCounter (s : State) (i v : Nat) : beside (setCounter s i v) = beside s :=
  view_ite rfl (view_ite (F := beside) rfl rfl)

/-- A view that shows neither counters nor slices. -/
theorem view_wakeTable {α : Type} {F : State → α} (hc : ∀ s i n, F (count s i n) = F s) (hs : ∀ s x, F { s with slices := x } = F s)
    (s : State) (t first n : Nat) : F (wakeTable s t first n) = F s := by
  refine view_foldl (fun u k => ?_) _ s
  exact view_ite (view_wakeSlice hc hs u k) rfl

theorem beside_wakeTable (s : State) (t first n : Nat) : beside (wakeTable s t first n) = beside s :=
  view_wakeTable beside_count (fun _ _ => rfl) s t first n

/-- A flush of a table reaches no queue, no clock and no register. -/
theorem beside_flushTable (s : State) (t : Nat) : beside (flushTable s t) = beside s := by
  refine Eq.trans ?_ (beside_wakeTable s t 0 (tableEntries t))
  unfold flushTable
  dsimp only
  split
  · rfl
  · exact view_ite rfl rfl
  · rfl
  · exact view_foldl (fun u i => beside_setCounter u i 0) _ _
  · rfl

/-- A table of entries held in memory loses them, and no other table does. -/
theorem tabs_flushTable (s : State) {t : Nat} (hp : t ≠ 0x0D) (hs : t ≠ 0x12) (hc : t ≠ 0x17) :
    (flushTable s t).tabs = skeep (fun i => i / 2 ^ 20 != t) s.tabs := by
  have hw : (wakeTable s t 0 (tableEntries t)).tabs = s.tabs :=
    view_wakeTable (F := State.tabs) (shows_of_rfl fun _ _ _ _ _ => rfl : Shows State.tabs []).count (fun _ _ => rfl) s t 0 _
  rw [← hw]
  unfold flushTable
  dsimp only
  split
  · rfl
  · exact absurd rfl hp
  · exact absurd rfl hs
  · exact absurd rfl hc
  · rfl

/-! ### Learning and flushes -/

/-- Queues, frames and the flushes in progress. -/
def walks (s : State) : Sparse Queue × Sparse Frame × List FlushJob := (s.queues, s.frames, s.fdb.flushes)

theorem walks_iff {s : State} {queues : Sparse Queue} {frames : Sparse Frame} {flushes : List FlushJob} :
    walks s = (queues, frames, flushes) ↔ s.queues = queues ∧ s.frames = frames ∧ s.fdb.flushes = flushes := by
  simp only [walks, Prod.mk.injEq]

theorem shows_walks : Shows walks [] := shows_of_rfl fun _ _ _ _ _ => rfl

theorem walks_sendDelta (s : State) (sub : Nat) (words : List Nat) : walks (sendDelta s sub words) = walks s := by
  have hk : ShowsNoKettle walks := ⟨fun _ _ => rfl, fun _ _ => rfl⟩
  exact view_ite rfl (hk.kettleSend _ _ _ _ _)

theorem walks_eventWrite (s : State) (e : Nat) (ws : List Nat) : walks (eventWrite s e ws) = walks s := by
  have signalled : ∀ u r itr, walks (signal u r itr) = walks u := fun u r itr => view_ite rfl (view_ite rfl rfl)
  exact (signalled _ _ _).trans (view_ite rfl rfl)

theorem walks_learnEvent (s : State) (type source slot fid mac new old port : Nat) :
    walks (learnEvent s type source slot fid mac new old port) = walks s :=
  view_ite rfl (view_ite (walks_eventWrite _ _ _) ((shows_walks.raise List.not_mem_nil _ _).trans (shows_walks.count _ _ _)))

theorem walks_fdbWrite (s : State) (slot entry : Nat) : walks (fdbWrite s slot entry) = walks s := walks_sendDelta _ _ _

/-- A counted and raised cause of the forwarding page. -/
theorem walks_raise_count (s : State) (i k : Nat) : walks (raise (count s i 1) (.fwd 0) k) = walks s :=
  (shows_walks.raise List.not_mem_nil _ _).trans (shows_walks.count _ _ _)

theorem walks_learnDecide (s : State) (r : LearnReq) : walks (learnDecide s r) = walks s := by
  have counted := shows_walks.count
  unfold learnDecide
  dsimp only
  split
  · split
    · rw [walks_learnEvent, walks_raise_count]
    · rw [walks_learnEvent, counted, walks_fdbWrite]
      exact view_ite ((walks_learnEvent _ _ _ _ _ _ _ _ _).trans (walks_raise_count _ _ _)) rfl
  · refine view_ite (view_ite rfl (walks_fdbWrite _ _ _)) (view_ite ?_ (view_ite ?_ ?_))
    · rw [walks_learnEvent, counted]
    · rw [walks_learnEvent, walks_raise_count]
    · rw [walks_learnEvent, counted, walks_fdbWrite]

theorem walks_settleLearning (s : State) : walks (settleLearning s) = walks s := by
  refine view_foldl (fun u _ => ?_) _ s
  unfold learnTake
  split
  · rfl
  · exact view_ite rfl (view_ite rfl (walks_learnDecide _ _))

/-- A flush that begins joins the flushes in progress, and stops the plough. -/
theorem flushBegin_joins (s : State) (filter value : Nat) (static : Bool) (tag channel : Option Nat) :
    walks (flushBegin s filter value static tag channel) =
        (s.queues, s.frames, s.fdb.flushes ++
          [({ filter := filter, value := value, static := static, tag := tag, channel := channel } : FlushJob)]) ∧
      (flushBegin s filter value static tag channel).fdb.stopped.isSome = true := by
  have h := walks_sendDelta s 3 [filter * 2 ^ 30 + bit static * 2 ^ 29 + value]
  refine ⟨?_, ?_⟩
  · obtain ⟨hqueues, hframes, hflushes⟩ := walks_iff.mp h
    exact walks_iff.mpr ⟨hqueues, hframes, congrArg (· ++ _) hflushes⟩
  · unfold flushBegin
    exact Option.isSome_or.trans (Bool.or_true _)

/-! ### TWIN_HANDOVER and SELFTEST_RUN -/

/-- What the twin and the self-tests leave alone. -/
def plant (s : State) : Clock × Sparse Queue × Sparse Image := (s.clock, s.queues, s.tabs)

theorem plant_iff {s t : State} : plant t = plant s ↔ t.clock = s.clock ∧ t.queues = s.queues ∧ t.tabs = s.tabs := by
  simp only [plant, Prod.mk.injEq]

theorem shows_plant : Shows plant [] := shows_of_rfl fun _ _ _ _ _ => rfl

theorem plant_respond {c : FwCommand} (hc : c.channel < 6) (s : State) (result detail : Nat) (results : List Nat) :
    plant (respond s c result detail results) = plant s :=
  (showsNoMail_of_rfl fun _ _ _ _ _ => rfl : ShowsNoMail plant).respond hc s result detail results

theorem plant_handoverStart (s : State) : plant (handoverStart s) = plant s := by
  unfold handoverStart
  split
  · exact view_ite (shows_plant.setFlag List.not_mem_nil _ _ _) rfl
  · exact (shows_plant.raise List.not_mem_nil _ _).trans (shows_plant.setFld List.not_mem_nil _ _ _ _)

theorem plant_twinHandover {c : FwCommand} (hc : c.channel < 6) (s : State) : plant (twinHandover s c) = plant s := by
  refine view_ite (view_ite (plant_respond hc _ _ _ _) rfl) (view_ite (plant_respond hc _ _ _ _) ?_)
  split
  · exact plant_handoverStart s
  · exact (plant_respond hc _ _ _ _).trans (plant_handoverStart s)

/-- A handover that nothing refuses is accepted (R282). -/
theorem handoverStart_of_free {s : State} (hr : handoverRefused s = 0) (hn : s.twin.handover = .none) :
    handoverStart s = setFlag { s with twin := { s.twin with handover := .accepted } } 0x6048 28 true := by
  unfold handoverStart
  rw [hr]
  exact if_pos hn

theorem plant_selftestRun {c : FwCommand} (hc : c.channel < 6) (s : State) (results : Nat) : plant (selftestRun s c results) = plant s := by
  have failed : ∀ u k, plant (selftestFail u k) = plant u := fun u k =>
    (shows_plant.report _ _ _ _).trans ((shows_plant.raise List.not_mem_nil _ _).trans ((shows_plant.tally List.not_mem_nil _).trans
      (shows_plant.setFlag List.not_mem_nil _ _ _)))
  refine view_ite (plant_respond hc _ _ _ _) (view_ite (plant_respond hc _ _ _ _) ?_)
  exact (plant_respond hc _ _ _ _).trans ((view_foldl failed _ _).trans (view_ite rfl rfl))

/-- The state in which a standby's self-tests have all passed. -/
def selftestPassed (s : State) (c : FwCommand) : State :=
  if bitAt (bits (nth c.words 1) 3 0) 0 then { s with twin := { s.twin with passed := 255 } } else s

/-- A run without a failure answers with the status as it is. -/
theorem selftestRun_of_pass {s : State} {c : FwCommand} (hw : bits (nth c.words 1) 3 0 ≠ 0) (hs : standsBy s = true) :
    selftestRun s c 0 = respond (selftestPassed s c) c 0 0 [rd s 0x6058] := by
  have none_failed : (selftestBits (bits (nth c.words 1) 3 0)).filter (fun k => bitAt 0 k) = [] := by
    simp [bitAt]
  have shown : rd (selftestPassed s c) 0x6058 = rd s 0x6058 := view_ite (F := fun s => rd s 0x6058) rfl rfl
  unfold selftestRun
  dsimp only
  rw [if_neg hw, if_neg (by simp [hs]), none_failed, ← shown]
  rfl

/-! ### LIFECYCLE_ADVANCE -/

/-- The view shows neither Kettle's link nor what follows it: mailbox, twin, registers, counters, reports. -/
structure ShowsNoLink {α : Type} (F : State → α) : Prop extends Shows F [] where
  mail : ShowsNoMail F
  twin : ∀ s x, F { s with twin := x } = F s

namespace ShowsNoLink

variable {α : Type} {F : State → α} (h : ShowsNoLink F)
include h

theorem anyWord (s : State) (a v : Nat) : F (wr s a v) = F s := h.word s a v List.not_mem_nil

theorem kettleEnter (s : State) (state : Nat) : F (kettleEnter s state) = F s := (h.mail.kettle _ _).trans (h.anyWord s _ _)

theorem discardMessage {c : Nat} (hc : c < 12) (s : State) (reason : Nat) : F (discardMessage s c reason) = F s :=
  (h.mail.channelMark hc _ _).trans ((h.anyWord _ _ _).trans ((h.anyWord _ _ _).trans (h.mail.channels s _)))

theorem mailboxKettleDown (s : State) : F (mailboxKettleDown s) = F s := by
  have down : ∀ u, F (receiversDown u [11]) = F u := fun u => view_ite (h.mail.setReceiverDown (by decide) _) rfl
  exact (down _).trans ((view_ite (h.discardMessage (by decide) _ _) (h.mail.channels _ _)).trans
    (view_ite (h.discardMessage (by decide) _ _) rfl))

theorem kettleLeave (s : State) (state cause : Nat) : F (kettleLeave s state cause) = F s := by
  have left : ∀ u : State, F (Machine.report (Machine.raise u .twin 4) 0x0601 .twin [fld u 0x6050 28 25]) = F u := fun u =>
    (h.report _ _ _ _).trans (h.raise List.not_mem_nil _ _)
  refine (view_ite ((h.mailboxKettleDown _).trans (left _)) rfl).trans ?_
  exact (h.twin _ _).trans ((h.kettleEnter _ _).trans ((h.mail.kettle _ _).trans ((h.anyWord _ _ _).trans
    (view_ite rfl (h.anyWord _ _ _)))))

theorem kettleRestart (s : State) (cause : Nat) : F (kettleRestart s cause) = F s :=
  (view_ite (h.kettleEnter _ _) rfl).trans (h.kettleLeave s 0 cause)

end ShowsNoLink

theorem showsNoLink_of_rfl {α : Type} {F : State → α}
    (h : ∀ s regs counters errors out channels kettle twin, F { s with
      regs := regs, counters := counters, errors := errors, out := out, channels := channels, kettle := kettle, twin := twin } = F s) :
    ShowsNoLink F where
  toShows := shows_of_rfl fun s regs counters errors out => h s regs counters errors out s.channels s.kettle s.twin
  mail := showsNoMail_of_rfl fun s regs channels kettle out => h s regs s.counters s.errors out channels kettle s.twin
  twin s x := h s s.regs s.counters s.errors s.out s.channels s.kettle x

/-- What a life-cycle advance keeps while its keys go: clocks, power, the applied configuration, queues and frames. -/
def bystanders (s : State) : (Clock × Power × Sparse Word32 × Sparse Image) × Sparse Queue × Sparse Frame :=
  ((s.clock, s.power, s.regsCur, s.tabsCur), s.queues, s.frames)

theorem bystanders_iff {s t : State} : bystanders t = bystanders s ↔
    (t.clock = s.clock ∧ t.power = s.power ∧ t.regsCur = s.regsCur ∧ t.tabsCur = s.tabsCur) ∧ t.queues = s.queues ∧
      t.frames = s.frames := by
  simp only [bystanders, Prod.mk.injEq]

theorem showsNoLink_bystanders : ShowsNoLink bystanders := showsNoLink_of_rfl fun _ _ _ _ _ _ _ _ => rfl

theorem bystanders_zeroiseKeys (s : State) : bystanders (zeroiseKeys s) = bystanders s :=
  view_ite (showsNoLink_bystanders.kettleRestart _ 0) rfl

/-- Zeroisation takes the spill key, and nothing else of Colophon. -/
theorem colophon_zeroiseKeys (s : State) : (zeroiseKeys s).colophon = { s.colophon with spillKey := false } := by
  have h : ShowsNoLink State.colophon := showsNoLink_of_rfl fun _ _ _ _ _ _ _ _ => rfl
  have hz : (zeroiseKeys s).colophon = { s with colophon := { s.colophon with spillKey := false } }.colophon :=
    view_ite (F := State.colophon) (h.kettleRestart _ 0) rfl
  exact hz

/-- OTP takes the state asked for, the spill key goes, and the reset follows 1 ms after the response (R398, R399). -/
theorem lifecycleWrite_writes {c : FwCommand} (hc : c.channel < 6) (s : State) (target : Nat) :
    bystanders (lifecycleWrite s c target) = bystanders s ∧ (lifecycleWrite s c target).colophon.lifecycle = target ∧
      (lifecycleWrite s c target).colophon.spillKey = false ∧ (lifecycleWrite s c target).errors.resetAt = some (now s + 1000000, 8) ∧
      commandOf (lifecycleWrite s c target) c.channel = none := by
  have hcol : ∀ u r l, (respond u c 0 r l).colophon = u.colophon :=
    fun u =>
    (showsNoMail_of_rfl fun _ _ _ _ _ => rfl : ShowsNoMail State.colophon).respond hc u 0
  have hby : bystanders (lifecycleWrite s c target) = bystanders s :=
    (showsNoLink_bystanders.mail.respond hc _ 0 0 _).trans (bystanders_zeroiseKeys s)
  refine ⟨hby, congrArg Colophon.lifecycle (hcol _ _ _), ?_, ?_, commandOf_respond hc _ 0 0 _⟩
  · exact (congrArg Colophon.spillKey (hcol _ _ _)).trans (congrArg Colophon.spillKey (colophon_zeroiseKeys s))
  · obtain ⟨⟨hclock, -⟩, -⟩ := bystanders_iff.mp hby
    exact congrArg (fun x : Clock => some (x.steady + 1000000, 8)) hclock

theorem settled_sanitizeRequests (s : State) (p : Nat) : settled (sanitizeRequests s p) = settled s := by
  unfold sanitizeRequests
  dsimp only
  split <;> simp only [settled_ite, settled_emit, settled_drawn, ite_self]

/-- The sanitisation of a port leaves what is settled as it is. -/
theorem settled_startSanitize (s : State) (p : Nat) : settled (startSanitize s p) = settled s := by
  simp only [startSanitize, settled_sanitizeRequests, settled_setCxlState, settled_forceDiscard, settled_ite, settled_mk, settled_fold,
    ite_self]

theorem bystanders_lifecycleFinish {c : FwCommand} (hc : c.channel < 6) (s : State) (target : Nat) (otpOk : Bool) :
    bystanders (lifecycleFinish s c target otpOk) = bystanders s :=
  view_ite rfl (view_ite (lifecycleWrite_writes hc s target).1 (showsNoLink_bystanders.mail.respond hc _ _ _ _))

/-- A life-cycle advance leaves clocks, power and the applied configuration as they are. -/
theorem basis_lifecycleAdvance {c : FwCommand} (hc : c.channel < 6) (s : State) (otpOk : Bool) :
    (basis (lifecycleAdvance s c otpOk)).1 = (basis s).1 := by
  have finished : ∀ u target, (basis (lifecycleFinish u c target otpOk)).1 = (basis u).1 := fun u target =>
    (congrArg Prod.fst (bystanders_lifecycleFinish hc u target otpOk) : (bystanders _).1 = (bystanders u).1)
  have answered : ∀ r d l, (basis (respond s c r d l)).1 = (basis s).1 := fun r d l => congrArg Prod.fst (basis_respond hc s r d l)
  refine view_ite (F := fun u => (basis u).1) (finished _ _) (view_ite (F := fun u => (basis u).1) (answered _ _ _)
    (view_ite (F := fun u => (basis u).1) (answered _ _ _) (view_ite (F := fun u => (basis u).1) (answered _ _ _)
    (view_ite (F := fun u => (basis u).1) (answered _ _ _) ((finished _ _).trans ?_)))))
  exact congrArg Prod.fst (view_ite (F := basis) (s := markStarted s c)
    (view_foldl (fun u p => basis_of_settled (settled_startSanitize u p)) _ _) rfl)

theorem lifecycle_respond (s : State) (c : FwCommand) (result detail : Nat) (results : List Nat) :
    (respond s c result detail results).colophon.lifecycle = s.colophon.lifecycle := by
  have h := kept_respond s c result detail results
  simp only [lastingOf, settled, Prod.mk.injEq] at h
  obtain ⟨-, hlife, -⟩ := h
  exact hlife

/-- The life cycle moves only to the state asked for, upwards, and where OTP takes it (R398, R399). -/
theorem lifecycle_lifecycleFinish {s u : State} (hu : u.colophon.lifecycle = s.colophon.lifecycle) (c : FwCommand) (target : Nat) (otpOk : Bool) :
    (lifecycleFinish u c target otpOk).colophon.lifecycle = s.colophon.lifecycle ∨
      (otpOk = true ∧ (lifecycleFinish u c target otpOk).colophon.lifecycle = target ∧ s.colophon.lifecycle < target) := by
  rw [← hu]
  unfold lifecycleFinish
  split
  · exact .inl rfl
  · split
    · next h => exact .inr ⟨h.1, lifecycle_respond _ _ _ _ _, h.2⟩
    · exact .inl (lifecycle_respond _ _ _ _ _)

theorem lifecycle_lifecycleAdvance (s : State) (c : FwCommand) (otpOk : Bool) :
    (lifecycleAdvance s c otpOk).colophon.lifecycle = s.colophon.lifecycle ∨
      (otpOk = true ∧ (lifecycleAdvance s c otpOk).colophon.lifecycle = bits (nth c.words 1) 2 0 ∧
        s.colophon.lifecycle < bits (nth c.words 1) 2 0) := by
  unfold lifecycleAdvance
  dsimp only
  split
  · exact lifecycle_lifecycleFinish rfl c _ otpOk
  split
  · exact .inl (lifecycle_respond _ _ _ _ _)
  split
  · exact .inl (lifecycle_respond _ _ _ _ _)
  split
  · exact .inl (lifecycle_respond _ _ _ _ _)
  split
  · exact .inl (lifecycle_respond _ _ _ _ _)
  refine lifecycle_lifecycleFinish ?_ c _ otpOk
  have started : basis (if 3 ≤ bits (nth c.words 1) 2 0 then (List.range 4).foldl startSanitize (markStarted s c) else markStarted s c) =
      basis (markStarted s c) := view_ite (view_foldl (fun u p => basis_of_settled (settled_startSanitize u p)) _ _) rfl
  obtain ⟨-, hcolophon⟩ := basis_iff.mp started
  exact congrArg Colophon.lifecycle hcolophon

end Sys2Proof.Machine
end

section
/-! The firmware commands that act (R20, R21, R107, R191, R282, R364). -/

namespace Sys2Proof.Machine

/-- A knob command without a commit in progress commits what it stages, and answers with the new epoch (R21). -/
theorem knobCommand_of_free {s : State} (h : s.commit = none) (c : FwCommand) (preset : Nat) (stage : State → State) :
    knobCommand s c preset stage = respond (acceptCommit (setFld (stage s) 0x40 15 0 ((currentEpoch s + 1) % 65536)) preset) c 0 0
      [(currentEpoch s + 1) % 65536] := by
  unfold knobCommand commitKnobs
  rw [h]
  rfl

/-- A knob command during a commit is answered COMMIT_BUSY (R364). -/
theorem knobCommand_of_busy {s : State} (h : s.commit.isSome = true) (c : FwCommand) (preset : Nat) (stage : State → State) :
    knobCommand s c preset stage = respond s c 7 0 [] := by
  unfold knobCommand commitKnobs
  rw [if_pos h]

/-- The response to a knob command leaves the commit that it reports. -/
theorem respond_acceptCommit {c : FwCommand} (hc : c.channel < 6) (v : State) (preset e : Nat) :
    (respond (acceptCommit v preset) c 0 0 [e]).commit.isSome = true ∧
      currentEpoch (respond (acceptCommit v preset) c 0 0 [e]) = (currentEpoch v + 1) % 65536 ∧
      applied (respond (acceptCommit v preset) c 0 0 [e]) =
        (v.clock, v.frames, v.ports, v.colophon, skeep (fun a => stagedMask a != 0) v.regs) := by
  have hcommit : (respond (acceptCommit v preset) c 0 0 [e]).commit = (acceptCommit v preset).commit :=
    (showsNoMail_of_rfl fun _ _ _ _ _ => rfl : ShowsNoMail State.commit).respond hc _ 0 0 [e]
  have happlied : applied (respond (acceptCommit v preset) c 0 0 [e]) = applied (acceptCommit v preset) :=
    (showsNoMail_of_rfl fun _ _ _ _ _ => rfl : ShowsNoMail applied).respond hc _ 0 0 [e]
  obtain ⟨happlies, hpending, hepoch⟩ := acceptCommit_settles v preset
  rw [hcommit, happlied, currentEpoch, fld, rd_respond hc (by decide)]
  exact ⟨hpending, hepoch, happlies⟩

/-- PROFILE_SET with a preset. -/
theorem profileSet_of_waits {s : State} {k : Fin 6} {c : FwCommand} (hw : CommandWaits s k 2 c) (h0 : bits (nth c.words 1) 1 0 ≠ 0) :
    exec (.profileSet k) s = .next (knobCommand s c (bits (nth c.words 1) 1 0) fun s => stagePreset s (bits (nth c.words 1) 1 0)) :=
  congrArg done ((commandStep_of_waits hw _).trans (if_neg h0))

/-- POWER_ENVELOPE_SET within the range of R363. -/
theorem powerEnvelopeSet_of_waits {s : State} {k : Fin 6} {c : FwCommand} (hw : CommandWaits s k 3 c)
    (h40 : 40 ≤ bits (nth c.words 1) 8 0) (h340 : bits (nth c.words 1) 8 0 ≤ 340) :
    exec (.powerEnvelopeSet k) s = .next (knobCommand s c 0 fun s => setFld s 0x3040 8 0 (bits (nth c.words 1) 8 0)) :=
  congrArg done ((commandStep_of_waits hw _).trans (if_neg (by omega)))

/-- The state on which a knob command commits, staged by `stage` and with SYS_COMMIT.EPOCH as the next epoch. -/
def staging (s : State) (stage : State → State) : State := setFld (stage s) 0x40 15 0 ((currentEpoch s + 1) % 65536)

theorem currentEpoch_staging {s : State} {stage : State → State} (h : currentEpoch (stage s) = currentEpoch s) :
    currentEpoch (staging s stage) = currentEpoch s :=
  (fld_setFld_other _ _ _ _ _ _ _ _ (by decide) (by decide) (.inl (by decide))).trans h

theorem currentEpoch_stagePreset (s : State) (p : Nat) : currentEpoch (stagePreset s p) = currentEpoch s :=
  fld_wr_other _ _ _ _ (by decide)

theorem currentEpoch_envelope (s : State) (v : Nat) : currentEpoch (setFld s 0x3040 8 0 v) = currentEpoch s :=
  fld_setFld_other _ _ _ _ _ _ _ _ (by decide) (by decide) (.inl (by decide))

/-- The envelope that a power command stages. -/
theorem envelope_staging (s : State) {v : Nat} (hv : v < 512) :
    bits (sget resetWord (staging s fun s => setFld s 0x3040 8 0 v).regs 0x3040).toNat 8 0 = v := by
  have h : fld (staging s fun s => setFld s 0x3040 8 0 v) 0x3040 8 0 = v := by
    rw [staging, fld_setFld_other _ _ _ _ _ _ _ _ (by decide) (by decide) (.inl (by decide)),
      fld_setFld_same _ _ _ _ _ (by decide) (by decide), Nat.mod_eq_of_lt (show v < 2 ^ (8 + 1 - 0) from hv)]
  exact h

/-- The response to a command that is refused or has nothing to do. -/
theorem answered_of_waits {s t : State} {k : Fin 6} {op : Nat} {c : FwCommand} (hw : CommandWaits s k op c) {result detail : Nat}
    {results : List Nat} {r : Res} (hr : r = .next t) (ht : t = respond s c result detail results) :
    ∃ t, r = .next t ∧ t = respond s c result detail results ∧
      t = { s with regs := t.regs, channels := t.channels, kettle := t.kettle, firmware := t.firmware, out := t.out } :=
  ⟨_, hr, ht, ht ▸ respond_frame (channel_of_waits hw).2 s result detail results⟩

/-- TABLE_FLUSH of a table that R345 lets a command write, the FDB apart. -/
theorem tableFlush_of_writable {s : State} {c : FwCommand} {n : Nat} (hn : bits (nth c.words 1) 7 0 = n) (h17 : n ≤ 0x17)
    (hr : tableReadOnly n = false) (h2 : n ≠ 2) : tableFlush s c = respond (flushTable s n) c 0 0 [tableEntries n] := by
  unfold tableFlush
  rw [hn]
  dsimp only
  rw [if_neg (by simp [hr]; omega), if_pos h2]

/-- FDB_FLUSH_PORT begins on an ACTIVE device (R107). -/
theorem flushPort_of_active {s : State} {c : FwCommand} {p : Nat} (hs : c.started = false) (hp : bits (nth c.words 1) 6 0 = p) (h63 : p ≤ 63)
    (hr : role s = 3) : flushPort s c =
      flushBegin (settleLearning (markStarted s c)) 0 (flushPortValue s p) false none (some c.channel) := by
  unfold flushPort
  rw [hp, if_neg (by simp [hs]), if_neg (by omega), if_neg (by simp [hr])]

/-- A life-cycle advance to state 2 on a standby, with nothing else under way, writes OTP at once (R398, R399). -/
theorem lifecycleAdvance_of_ready {s : State} {c : FwCommand} (hs : c.started = false)
    (hd : ∀ d ∈ s.firmware.commands, d.channel ≠ c.channel → d.started = false) (hx : nth c.words 1 ^^^ nth c.words 2 = 0xFFFFFFFF)
    (ht : bits (nth c.words 1) 2 0 = 2) (hl : s.colophon.lifecycle < 2) (hst : standsBy s = true) (hdb : s.colophon.debugByToken = false)
    (hcxl : ∀ p, p < 4 → cxlState s p ≠ 5) : lifecycleAdvance s c true = lifecycleWrite (markStarted s c) c 2 := by
  have free : s.firmware.commands.any (fun d => d.channel != c.channel && d.started && opcodeOf d ∈ [4, 9, 0xB, 0xC]) = false := by
    refine List.any_eq_false.mpr fun d hm => ?_
    by_cases he : d.channel = c.channel
    · simp [he]
    · simp [hd d hm he]
  have unsanitized : (List.range 4).any (fun p => cxlState (markStarted s c) p == 5) = false :=
    List.any_eq_false.mpr fun p hp => mt beq_iff_eq.mp (hcxl p (List.mem_range.mp hp))
  unfold lifecycleAdvance
  dsimp only
  rw [if_neg (by simp [hs]), if_neg (Bool.eq_false_iff.mp free), ht, if_neg (by omega), if_neg (by simp [hst]), if_neg (by simp [hdb]),
    if_neg (by decide), lifecycleFinish, if_neg (Bool.eq_false_iff.mp unsanitized), if_pos ⟨rfl, hl⟩]

/-- The response to a passed run changes the mailbox and TWIN's record of the run alone. -/
theorem respond_selftestPassed {c : FwCommand} (hc : c.channel < 6) {s t : State} {l : List Nat}
    (ht : t = respond (selftestPassed s c) c 0 0 l) :
    (bitAt (nth c.words 1) 0 = true → t.twin = { s.twin with passed := 255 }) ∧ t = { withMailOf t s with twin := t.twin } := by
  have htwin : (respond (selftestPassed s c) c 0 0 l).twin = (selftestPassed s c).twin :=
    (showsNoMail_of_rfl fun _ _ _ _ _ => rfl : ShowsNoMail State.twin).respond hc _ 0 0 l
  have hframe := (showsNoMail_of_rfl fun _ _ _ _ _ => rfl : ShowsNoMail fun x => { withMailOf t x with twin := t.twin }).respond hc
    (selftestPassed s c) 0 0 l
  have hpassed : { withMailOf t (selftestPassed s c) with twin := t.twin } = { withMailOf t s with twin := t.twin } := by
    unfold selftestPassed
    split <;> rfl
  rw [← ht] at htwin hframe
  refine ⟨fun hb => ?_, hframe.trans hpassed⟩
  rw [htwin, selftestPassed, if_pos ((bitAt_bits _ (by decide)).trans hb)]

/-- Settles O50: each acting command is carried out as its rule says, and its response leaves the rest as it was. -/
theorem actingCommandsAct : Obligations.ActingCommandsAct := by
  refine ⟨fun s u k c e p hw hp h0 hn he hu => ?_, fun s u k c e v hw hv h40 h340 hn he hu => ?_, fun s k c hw h0 => ?_,
    fun s k c hw h40 h340 hn => ?_, fun s k c hw => ?_, fun s k c hw hs ho he => ?_, fun s k c hw hs ho he => ?_,
    fun s k c n hw hn h17 hr h2 => ?_, fun s k c hw h17 => ?_, fun s k c p hw hs hp h63 hr => ?_, fun s k c hw => ?_,
    fun s k c hw hs ho hr hn => ?_, fun s k c hw hs hn => ?_, fun s k c w hw => ?_, fun s k c hw h0 hs => ?_, fun s k c ok hw => ?_,
    fun s k c hw hs hd hx ht hl hst hdb hcxl => ?_, lifecycle_lifecycleAdvance⟩
  · obtain ⟨hk, hc⟩ := channel_of_waits hw
    subst hp he hu
    obtain ⟨hcommit, hcur, happlied⟩ := respond_acceptCommit hc (staging s fun s => stagePreset s (bits (nth c.words 1) 1 0))
      (bits (nth c.words 1) 1 0) ((currentEpoch s + 1) % 65536)
    obtain ⟨hclock, hframes, hports, hcolophon, -⟩ := applied_iff.mp happlied
    exact ⟨_, (profileSet_of_waits hw h0).trans (congrArg done (knobCommand_of_free hn c _ _)), rfl, hcommit,
      hcur.trans (congrArg (fun e => (e + 1) % 65536) (currentEpoch_staging (currentEpoch_stagePreset s _))), hclock, hframes, hports,
      hcolophon, fun hf => answers_respond hk hf (by decide) _⟩
  · obtain ⟨hk, hc⟩ := channel_of_waits hw
    subst hv he hu
    obtain ⟨hcommit, hcur, happlied⟩ := respond_acceptCommit hc (staging s fun s => setFld s 0x3040 8 0 (bits (nth c.words 1) 8 0))
      0 ((currentEpoch s + 1) % 65536)
    obtain ⟨hclock, hframes, hports, -, hregs⟩ := applied_iff.mp happlied
    exact ⟨_, (powerEnvelopeSet_of_waits hw h40 h340).trans (congrArg done (knobCommand_of_free hn c _ _)), rfl, hcommit,
      hcur.trans (congrArg (fun e => (e + 1) % 65536) (currentEpoch_staging (currentEpoch_envelope s _))),
      (envelope_of_applied hregs).trans (envelope_staging s (by omega)), hclock, hframes, hports,
      fun hf => answers_respond hk hf (by decide) _⟩
  · exact answered_of_waits hw (congrArg done (commandStep_of_waits hw _)) (if_pos h0)
  · exact answered_of_waits hw (powerEnvelopeSet_of_waits hw h40 h340) (knobCommand_of_busy hn c _ _)
  · obtain ⟨⟨hclock, -, hregs, -⟩, hcolophon⟩ := basis_iff.mp (basis_spillEnable (channel_of_waits hw).2 s)
    exact ⟨_, congrArg done (commandStep_of_waits hw _), rfl, hclock, hcolophon, hregs⟩
  · obtain ⟨hk, hc⟩ := channel_of_waits hw
    obtain ⟨result, results, ht⟩ := spillEnable_of_drain hs ho he
    refine ⟨_, (congrArg done (commandStep_of_waits hw _)).trans (congrArg done ht), hk ▸ commandOf_respond hc _ _ _ _, fun p hp => ?_⟩
    rw [flag, rd_respond hc (by decide), ← flag, place_foldl_clearPlace (fun q hq => (mem_maskPorts.mp hq).1) hp]
    simp only [mem_maskPorts, hp, true_and, Bool.decide_eq_true]
    rfl
  · refine answered_of_waits hw (congrArg done (commandStep_of_waits hw _)) ?_
    unfold spillEnable
    rw [if_neg (by simp [hs]), if_neg (by simp [ho]), if_pos he]
  · obtain ⟨hk, hc⟩ := channel_of_waits hw
    have ht := tableFlush_of_writable (c := c) (s := s) ((bits_zero_eq_mod _ 7).trans hn.symm) h17 hr h2
    obtain ⟨hclock, hqueues, htabs⟩ := plant_iff.mp (plant_respond hc (flushTable s n) 0 0 [tableEntries n])
    obtain ⟨hqueues', hclock', hregs⟩ := beside_iff.mp (beside_flushTable s n)
    refine ⟨_, (congrArg done (commandStep_of_waits hw _)).trans (congrArg done ht), rfl, hqueues.trans hqueues', hclock.trans hclock',
      fun hp hs hc => htabs.trans (tabs_flushTable s hp hs hc), fun hf => answers_respond hk ?_ (by decide) _⟩
    rwa [channelFull, flag, rd, hregs]
  · refine answered_of_waits hw (congrArg done (commandStep_of_waits hw _)) ?_
    unfold tableFlush
    exact if_pos (.inl (by rwa [bits_zero_eq_mod]))
  · have ht := flushPort_of_active hs ((bits_zero_eq_mod _ 6).trans hp.symm) h63 hr
    obtain ⟨hwalks, hstopped⟩ := flushBegin_joins (settleLearning (markStarted s c)) 0 (flushPortValue s p) false none (some c.channel)
    obtain ⟨hqueues, hframes, hflushes⟩ := walks_iff.mp hwalks
    obtain ⟨hqueues', hframes', hflushes'⟩ := walks_iff.mp (walks_settleLearning (markStarted s c))
    obtain ⟨⟨hclock, -⟩, -⟩ := basis_iff.mp (basis_of_settled
      ((settled_flushBegin _ 0 (flushPortValue s p) false none (some c.channel)).trans (settled_settleLearning (markStarted s c))))
    exact ⟨_, (congrArg done (commandStep_of_waits hw _)).trans (congrArg done ht), rfl,
      hflushes.trans (congrArg (· ++ _) hflushes'), hstopped, hqueues.trans hqueues', hframes.trans hframes', hclock⟩
  · obtain ⟨hclock, hqueues, htabs⟩ := plant_iff.mp (plant_twinHandover (channel_of_waits hw).2 s)
    exact ⟨_, congrArg done (commandStep_of_waits hw _), rfl, hclock, hqueues, htabs⟩
  · have ht : twinHandover s c = markStarted (setFlag { s with twin := { s.twin with handover := .accepted } } 0x6048 28 true) c := by
      unfold twinHandover
      rw [if_neg (by simp [hs]), if_neg (by simp [ho]), hr]
      exact congrArg (markStarted · c) (handoverStart_of_free hr hn)
    exact ⟨_, (congrArg done (commandStep_of_waits hw _)).trans (congrArg done ht), rfl, flag_setFlag_same _ 0x6048 28 true (by decide),
      (RegsBut.of_regs_eq _ rfl).setFlag (by simp) 28 true, rfl⟩
  · exact answered_of_waits hw (congrArg done (commandStep_of_waits hw _)) ((if_pos hs).trans (if_pos hn))
  · obtain ⟨hclock, hqueues, htabs⟩ := plant_iff.mp (plant_selftestRun (channel_of_waits hw).2 s w.toNat)
    exact ⟨_, congrArg done (commandStep_of_waits hw _), rfl, hclock, hqueues, htabs⟩
  · obtain ⟨hk, hc⟩ := channel_of_waits hw
    have hfull : ∀ {i}, channelFull (selftestPassed s c) i = channelFull s i := fun {i} => view_ite (F := (channelFull · i)) rfl rfl
    obtain ⟨htwin, hframe⟩ := respond_selftestPassed hc (s := s) (l := [rd s 0x6058]) rfl
    exact ⟨_, (congrArg done (commandStep_of_waits hw _)).trans (congrArg done (selftestRun_of_pass h0 hs)),
      fun hf => answers_respond hk (hfull.trans hf) (by decide) _, htwin, hframe⟩
  · have h := basis_lifecycleAdvance (channel_of_waits hw).2 s ok
    simp only [basis, Prod.mk.injEq] at h
    obtain ⟨hclock, hpower, hregs, htabs⟩ := h
    exact ⟨_, congrArg done (commandStep_of_waits hw _), rfl, hclock, hpower, hregs, htabs⟩
  · obtain ⟨hk, hc⟩ := channel_of_waits hw
    obtain ⟨hby, hlife, hkey, hreset, hdone⟩ := lifecycleWrite_writes hc (markStarted s c) 2
    obtain ⟨-, hqueues, hframes⟩ := bystanders_iff.mp hby
    exact ⟨_, (congrArg done (commandStep_of_waits hw _)).trans (congrArg done
        (lifecycleAdvance_of_ready hs hd hx ht hl hst hdb hcxl)), hlife, hkey, hreset, hk ▸ hdone, hqueues, hframes⟩

end Sys2Proof.Machine
end

section
/-! Pages and refused accesses (R27, R31, R447): where the registers of a page lie, and what a recorded fault leaves. -/

namespace Sys2Proof.Machine

/-! ### Pages -/

/-- A page starts on a 4 KiB boundary. -/
theorem base_mod (p : Page) : p.base % 0x1000 = 0 := by
  cases p <;> simp only [Page.base] <;> omega

/-- The page at an address is the 4 KiB that hold it (R422). -/
theorem base_of_pageAt {a : Nat} {p : Page} (h : pageAt a = some p) : p.base = a / 0x1000 * 0x1000 := by
  unfold pageAt at h
  dsimp only at h
  split at h
  · have hq : a / 0x1000 < 16 := by omega
    interval_cases a / 0x1000 <;> cases h <;> rfl
  · (repeat' split at h) <;> cases h <;> simp only [Page.base] <;> omega

/-- Two registers of a page's header are one only at the same offset. -/
theorem at_ne {p : Page} {m n : Nat} (h : m ≠ n) : p.at_ m ≠ p.at_ n := fun e => h (Nat.add_left_cancel e)

/-- A register of a page's header is no block register. -/
theorem ne_at_of_block {a : Nat} (ha : 0x40 ≤ a % 0x1000) (p : Page) {n : Nat} (hn : n < 0x40) : a ≠ p.at_ n := by
  have hp := base_mod p
  simp only [Page.at_]
  omega

/-! ### Recorded faults -/

/-- What a fault record changes, and what it holds. -/
structure FaultRecorded (s t : State) (p : Page) (word : Nat) : Prop where
  frame : t = { s with regs := t.regs, out := s.out ++ vectors s p 31 }
  regs : RegsBut [p.at_ 0x10, p.at_ 0x1C] s t
  cause : flag t (p.at_ 0x10) 31 = true
  word : rd t (p.at_ 0x1C) = word

/-- A fault record reaches none of the registers that enable the page's messages. -/
theorem vectors_wr_accessFault (s : State) (p : Page) (v k : Nat) : vectors (wr s (p.at_ 0x1C) v) p k = vectors s p k :=
  vectors_congr (rd_wr_other s v (at_ne (by decide))) (rd_wr_other s v (ne_at_of_block (by decide) p (by decide))) k

/-- A fault in a page that is not held in reset is recorded there (R31). -/
theorem accessFault_records {s : State} {a : Nat} {p : Page} (hp : pageAt a = some p) (hr : heldInReset s p = false) (src : Source)
    {cause : Nat} (hc : cause < 16) :
    FaultRecorded s (accessFault s src a cause) p (cause * 2 ^ 28 + src.code * 2 ^ 25 + a % 0x1000 / 4 * 4) := by
  have he : accessFault s src a cause =
      raise (wr s (p.at_ 0x1C) (cause * 2 ^ 28 + src.code * 2 ^ 25 + a % 0x1000 / 4 * 4)) p 31 := by
    simp only [accessFault, hp, Option.getD_some, hr, Bool.false_eq_true, if_false]
  have hsrc : src.code < 8 := by cases src <;> decide
  rw [he]
  refine ⟨?_, ?_, ?_, ?_⟩
  · rw [← vectors_wr_accessFault s p (cause * 2 ^ 28 + src.code * 2 ^ 25 + a % 0x1000 / 4 * 4) 31]
    rfl
  · exact ((RegsBut.of_regs_eq _ rfl).wr (by simp) _).raise (by simp) 31
  · rw [flag_raise _ _ _ _ _ (by decide), if_pos ⟨rfl, rfl⟩]
  · rw [rd_raise_other _ _ _ (at_ne (by decide)), rd_wr_same]
    omega

/-! ### Writes that reach no register -/

/-- An access of another size than a word, or at no word address, is refused (R27). -/
theorem busWrite_of_misformed {s : State} {a size : Nat} (h : size ≠ 4 ∨ a % 4 ≠ 0) (src : Source) (v : Nat) (ok : Bool) :
    busWrite s src a size v ok = accessFault s src a 1 := by
  by_cases hs : size = 4
  · have ha : a % 4 ≠ 0 := h.resolve_left fun hn => hn hs
    rw [busWrite, if_neg fun hn => hn hs]
    exact if_pos ha
  · exact if_pos hs

/-- A write of a word meets the checks of R27 and R402, whatever it does after them. -/
theorem busWrite_word (s : State) (src : Source) (a v : Nat) (ok : Bool) : ∃ act, busWrite s src a 4 v ok = guarded s src a act :=
  ⟨_, if_neg fun h => h rfl⟩

/-- A write to a word address of a page at which no register is defined is refused (R27). -/
theorem guarded_of_undefined {s : State} {a : Nat} {p : Page} (h4 : a % 4 = 0) (hw : (windowAt a).isNone = true) (hp : pageAt a = some p)
    (hf : fieldsAt a = none) (src : Source) (act : State → State) : guarded s src a act = accessFault s src a 2 := by
  simp [guarded, h4, Option.isNone_iff_eq_none.mp hw, hp, hf]

/-- A write to a register of a page held in reset does nothing (R447). -/
theorem guarded_of_held {s : State} {a : Nat} {p : Page} (h4 : a % 4 = 0) (hw : (windowAt a).isNone = true) (hp : pageAt a = some p)
    (hf : (fieldsAt a).isSome = true) (hr : heldInReset s p = true) (src : Source) (act : State → State) : guarded s src a act = s := by
  obtain ⟨fs, hf⟩ := Option.isSome_iff_exists.mp hf
  simp [guarded, h4, Option.isNone_iff_eq_none.mp hw, hp, hf, hr]

/-- Settles O5: a misformed or misplaced write ends in the fault record of its page, and a page held in reset takes none. -/
theorem faultyWritesAreRecorded : Obligations.FaultyWritesAreRecorded := by
  refine ⟨fun s src a size v ok p hp hr => ⟨fun hm => ?_, fun h4 hw hf => ?_⟩, fun s src a v ok p h4 hw hp hf hr => ?_⟩
  · obtain ⟨hframe, hregs, hcause, hword⟩ := accessFault_records hp hr src (cause := 1) (by decide)
    exact ⟨_, congrArg done (busWrite_of_misformed hm src v.toNat ok), hframe, hregs, hcause, hword⟩
  · obtain ⟨hframe, hregs, hcause, hword⟩ := accessFault_records hp hr src (cause := 2) (by decide)
    obtain ⟨act, hact⟩ := busWrite_word s src a v.toNat ok
    exact ⟨_, congrArg done (hact.trans (guarded_of_undefined h4 hw hp hf src act)), hframe, hregs, hcause, hword⟩
  · obtain ⟨act, hact⟩ := busWrite_word s src a v.toNat ok
    exact congrArg done (hact.trans (guarded_of_held h4 hw hp hf hr src act))

end Sys2Proof.Machine
end

section
/-! Register writes (R33, R34): an admitted write meets the state at its register, and a register without an effect of its own takes the
word by its field types. -/

namespace Sys2Proof.Machine

/-- An admitted write of a word acts by its part in a pair (R30). -/
theorem busWrite_of_admitted {s : State} {src : Source} {a : Nat} {p : Page} (h : Admitted s src a) (hp : pageAt a = some p) (v : Nat) :
    busWrite s src a 4 v true = pairWrite (atRegister s src a) src (heldLo s src a) p a v := by
  refine (if_neg fun hn => hn rfl).trans ((guarded_of_admitted h _).trans ?_)
  simp only [hp, if_true]

/-- A word that is in no pair is written at once. -/
theorem pairWrite_of_single {p : Page} {a : Nat} (h : pairRole p a = .single) (s : State) (src : Source) (lo v : Nat) :
    pairWrite s src lo p a v = writeWord s src p a v := by simp only [pairWrite, h]

/-- A page whose block registers have no effect beside their fields' types. -/
def PlainPage (p : Page) : Prop := p = .power ∨ p = .mirror ∨ p = .tracer ∨ ∃ k, p = .police k

theorem writeWord_of_plain {p : Page} (h : PlainPage p) {a : Nat} (ha : 0x40 ≤ a % 0x1000) (s : State) (src : Source) (v : Nat) :
    writeWord s src p a v = fieldWrite s src a v := by
  refine (if_neg (by omega)).trans ?_
  obtain rfl | rfl | rfl | ⟨k, rfl⟩ := h <;> rfl

/-- A plain page is no slice page, so a write in it wakes no slice. -/
theorem atRegister_of_plain {p : Page} (h : PlainPage p) {a : Nat} (hp : pageAt a = some p) (s : State) (src : Source) :
    atRegister s src a = dropHeld s src a := by
  refine atRegister_eq s src a fun i k => ?_
  rw [hp]
  obtain rfl | rfl | rfl | ⟨k, rfl⟩ := h <;> simp

/-! ### The effect by field types -/

/-- A fault record changes registers and messages alone. -/
theorem accessFault_frame (s : State) (src : Source) (a cause : Nat) :
    accessFault s src a cause = { s with regs := (accessFault s src a cause).regs, out := (accessFault s src a cause).out } := by
  unfold accessFault
  dsimp only
  split <;> rfl

/-- A fault record reaches ACCESS_FAULT and INT_STATUS of the page alone. -/
theorem RegsBut.accessFault {as : List Nat} {s t : State} (h : RegsBut as s t) {a : Nat} {p : Page} (hp : pageAt a = some p)
    (hi : p.at_ 0x10 ∈ as) (hf : p.at_ 0x1C ∈ as) (src : Source) (cause : Nat) : RegsBut as s (accessFault t src a cause) := by
  simp only [Machine.accessFault, hp, Option.getD_some]
  split
  · exact h
  · exact (h.wr hf _).raise hi 31

/-- A WO1 field counts as written after the first write. -/
def noteOnce (s : State) (a : Nat) (fs : List Field) : State :=
  if fieldMask (· == .wo1) fs ≠ 0 ∧ a ∉ s.access.once then { s with access := { s.access with once := a :: s.access.once } } else s

theorem noteOnce_frame (s : State) (a : Nat) (fs : List Field) : noteOnce s a fs = { s with access := (noteOnce s a fs).access } := by
  unfold noteOnce
  split <;> rfl

/-- A staged field that is written makes its page's STAGED_PENDING 1 (R38). -/
def noteStaged (s : State) (a : Nat) (fs : List Field) : State :=
  if fieldMask (· == .stg) fs ≠ 0 then setFlag s (a / 0x1000 * 0x1000 + 8) 29 true else s

theorem noteStaged_frame (s : State) (a : Nat) (fs : List Field) : noteStaged s a fs = { s with regs := (noteStaged s a fs).regs } := by
  unfold noteStaged
  split <;> rfl

theorem RegsBut.noteStaged {as : List Nat} {s t : State} (h : RegsBut as s t) {a : Nat} {p : Page} (hp : pageAt a = some p)
    (h8 : p.at_ 0x08 ∈ as) (fs : List Field) : RegsBut as s (noteStaged t a fs) := by
  unfold Machine.noteStaged
  rw [← base_of_pageAt hp]
  split
  · exact h.setFlag h8 29 true
  · exact h

/-- The word that a write of fields leaves in its register, before STAGED_PENDING and a fault follow. -/
def taken (s : State) (a : Nat) (fs : List Field) (v : Nat) : State := wr (noteOnce s a fs) a (writtenWord s a fs v)

/-- A write of a register that is no wide counter: its word by the field types, then STAGED_PENDING and the fault of R34. -/
theorem fieldWrite_eq {a : Nat} {fs : List Field} (hf : fieldsAt a = some fs) (hw : wideAt a = none) (s : State) (src : Source) (v : Nat) :
    fieldWrite s src a v = (if barredCause s a fs v = 0 then noteStaged (taken s a fs v) a fs
      else accessFault (noteStaged (taken s a fs v) a fs) src a (barredCause s a fs v)) := by
  simp only [fieldWrite, hf, hw, noteStaged, taken, noteOnce]

section FieldWrite

variable {a : Nat} {fs : List Field} (hf : fieldsAt a = some fs) (hw : wideAt a = none)
include hf hw

/-- A write of fields leaves the rest of the device alone. -/
theorem fieldWrite_frame (s : State) (src : Source) (v : Nat) : fieldWrite s src a v =
    { s with regs := (fieldWrite s src a v).regs, out := (fieldWrite s src a v).out, access := (fieldWrite s src a v).access } := by
  have ht : noteStaged (taken s a fs v) a fs =
      { s with regs := (noteStaged (taken s a fs v) a fs).regs, access := (noteStaged (taken s a fs v) a fs).access } := by
    rw [noteStaged_frame, taken, noteOnce_frame]
    rfl
  rw [fieldWrite_eq hf hw]
  split
  · rw [ht]
  · rw [accessFault_frame, ht]

/-- Beside its own register, a write of fields reaches STAGED_PENDING and the fault record of its page alone. -/
theorem fieldWrite_beside {p : Page} (hp : pageAt a = some p) (s : State) (src : Source) (v : Nat) :
    RegsBut [p.at_ 0x08, p.at_ 0x10, p.at_ 0x1C] (taken s a fs v) (fieldWrite s src a v) := by
  have ht := (RegsBut.of_regs_eq [p.at_ 0x08, p.at_ 0x10, p.at_ 0x1C] (rfl : (taken s a fs v).regs = _)).noteStaged hp (by simp) fs
  rw [fieldWrite_eq hf hw]
  split
  · exact ht
  · exact ht.accessFault hp (by simp) (by simp) src _

theorem fieldWrite_regsBut {p : Page} (hp : pageAt a = some p) (s : State) (src : Source) (v : Nat) :
    RegsBut [a, p.at_ 0x08, p.at_ 0x10, p.at_ 0x1C] s (fieldWrite s src a v) := by
  intro b hb
  have hnote : rd (noteOnce s a fs) b = rd s b := by rw [noteOnce_frame]; rfl
  rw [fieldWrite_beside hf hw hp s src v b (List.not_mem_of_not_mem_cons hb), taken,
    rd_wr_other _ _ (List.ne_of_not_mem_cons hb), hnote]

/-- The word in a block register after a write (R33). -/
theorem rd_fieldWrite {p : Page} (hp : pageAt a = some p) (ha : 0x40 ≤ a % 0x1000) (s : State) (src : Source) (v : Nat) :
    rd (fieldWrite s src a v) a = writtenWord s a fs v % 2 ^ 32 := by
  have hne := fun {n} => ne_at_of_block ha p (n := n)
  rw [fieldWrite_beside hf hw hp s src v a (by simp [hne]), taken, rd_wr_same]

end FieldWrite

/-- What a source holds for _LO words is no part of the word that a write leaves. -/
theorem writtenWord_dropHeld (s : State) (src : Source) (a b : Nat) (fs : List Field) (v : Nat) :
    writtenWord (dropHeld s src a) b fs v = writtenWord s b fs v := rfl

/-- Settles O4: an admitted write of a plain register is a write by its field types. -/
theorem registerWriteActsByFieldType : Obligations.RegisterWriteActsByFieldType := by
  intro s src a v p fs h hp hpage ha hf hrole hw
  have ht : exec (.registerWrite src a 4 v true) s = .next (fieldWrite (dropHeld s src a) src a v.toNat) := by
    rw [← atRegister_of_plain hpage hp, ← writeWord_of_plain hpage ha, ← pairWrite_of_single hrole _ _ (heldLo s src a),
      ← busWrite_of_admitted h hp]
    rfl
  refine ⟨_, ht, fieldWrite_frame hf hw (dropHeld s src a) src v.toNat, ?_, fun f hmem k hlo hhi hk hone => ?_⟩
  · exact fieldWrite_regsBut hf hw hp (dropHeld s src a) src v.toNat
  · rw [flag, rd_fieldWrite hf hw hp ha, writtenWord_dropHeld, bitAt_mod_word _ hk]
    exact written_bit s a fs v f hmem k hlo hhi hk hone

end Sys2Proof.Machine
end

section
/-! Pairs and table windows (R30, R428): what a read latches, what a write of a _LO word holds, and what a wake leaves alone. -/

namespace Sys2Proof.Machine

/-! ### A slice that wakes -/

/-- A count changes the counters alone. -/
theorem view_count {α : Type} {F : State → α} (h : ∀ s c, F { s with counters := c } = F s) (s : State) (i n : Nat) :
    F (count s i n) = F s := by
  unfold count
  split
  · rfl
  · split <;> exact h s _

/-- A view of neither counters nor slices does not show that an access wakes a slice (R290). -/
theorem view_wakeForPage {α : Type} {F : State → α} (hc : ∀ s c, F { s with counters := c } = F s)
    (hs : ∀ s x, F { s with slices := x } = F s) (s : State) (a : Nat) : F (wakeForPage s a) = F s := by
  unfold wakeForPage
  split
  · exact view_ite (view_wakeSlice (view_count hc) hs s _) rfl
  · rfl

theorem wakeForPage_access (s : State) (a : Nat) : (wakeForPage s a).access = s.access :=
  view_wakeForPage (fun _ _ => rfl) (fun _ _ => rfl) s a

theorem wakeForPage_out (s : State) (a : Nat) : (wakeForPage s a).out = s.out :=
  view_wakeForPage (fun _ _ => rfl) (fun _ _ => rfl) s a

theorem atRegister_out (s : State) (src : Source) (a : Nat) : (atRegister s src a).out = s.out := wakeForPage_out _ _

/-- What a table access leaves alone. -/
def besideWake (s : State) : Sparse Word32 × Sparse Image × List Out := (s.regs, s.tabs, s.out)

theorem besideWake_wakeTable (s : State) (t first n : Nat) : besideWake (wakeTable s t first n) = besideWake s :=
  view_wakeTable (view_count fun _ _ => rfl) (fun _ _ => rfl) s t first n

/-! ### Reads -/

/-- A page that does nothing of its own when it is read. -/
def ReadsPlain (p : Page) : Prop := p ≠ .mailbox ∧ p ≠ .sequencer ∧ p ≠ .timeEvents

theorem readRegister_of_plain {p : Page} (h : ReadsPlain p) (s : State) (src : Source) (a : Nat) :
    readRegister s src p a = readPlain s src p a := by
  obtain ⟨hm, hs, ht⟩ := h
  unfold readRegister
  split
  · exact absurd rfl hm
  · exact absurd rfl hs
  · exact absurd rfl ht
  · rfl

/-- An admitted read of a page without read effects returns what its register shows, by its part in a pair. -/
theorem readAt_of_readable {s : State} {src : Source} {a : Nat} {p : Page} (h : Readable s src a) (hp : pageAt a = some p)
    (hpage : ReadsPlain p) : readAt s src a = readPlain (wakeForPage (dropWindow s src) a) src p a := by
  obtain ⟨h4, hw, hr, hf, hm⟩ := h
  obtain ⟨fs, hf⟩ := Option.isSome_iff_exists.mp hf
  have hr : heldInReset s p = false := by simpa [hp] using hr
  have hr : heldInReset (dropWindow s src) p = false := hr
  have hm : mayRead (dropWindow s src) src a = true := hm
  simp [readAt, h4, Option.isNone_iff_eq_none.mp hw, readMapped, hp, hf, hr, hm, readRegister_of_plain hpage]

theorem readPlain_of_lo {p : Page} {a : Nat} (h : pairRole p a = .lo) (s : State) (src : Source) :
    readPlain s src p a = readLo s src p a := by simp only [readPlain, h]

theorem readPlain_of_hi {p : Page} {a : Nat} (h : pairRole p a = .hi) (s : State) (src : Source) :
    readPlain s src p a = readHi s src p a := by simp only [readPlain, h]

/-- A read of a _HI word returns the latch if there is one, and the live word otherwise. -/
theorem readHi_fst (s : State) (src : Source) (p : Page) (a : Nat) :
    (readHi s src p a).1 = if latched s src a = 0 then shown s src p a else latched s src a - 1 := by
  unfold readHi
  dsimp only
  split <;> rfl

/-- A read of a _HI word leaves its latch empty, and registers and messages as they are. -/
theorem readHi_snd (s : State) (src : Source) (p : Page) (a : Nat) :
    latched (readHi s src p a).2 src a = 0 ∧ (readHi s src p a).2.regs = s.regs ∧ (readHi s src p a).2.out = s.out := by
  unfold readHi
  dsimp only
  split
  next hl => exact ⟨hl, rfl, rfl⟩
  next => exact ⟨sget_sset_same _ _ _ _, rfl, rfl⟩

/-- The first word of a table entry is read with the entry latched. -/
theorem readAt_of_window {s : State} {src : Source} {a : Nat} {w : Window} {e : Nat} (h4 : a % 4 = 0) (hw : windowAt a = some (w, e, 0))
    (hm : mayRead s src a = true) :
    readAt s src a = (imageWord (entryImage s (flag s 0xC 31) w.table e) 0,
      let t := wakeTable (dropWindow s src) w.table e 1
      { t with access := { t.access with
        window := (src.code, w.table, e, BitVec.ofNat 512 (entryImage s (flag s 0xC 31) w.table e)) :: t.access.window } }) := by
  simp [readAt, h4, hw, readWindow, hm]

/-! ### Writes -/

/-- A written _LO word is held for its source. -/
theorem pairWrite_of_lo {p : Page} {a : Nat} (h : pairRole p a = .lo) (hw : (wideAt a).isNone = true) (s : State) (src : Source)
    (lo v : Nat) : pairWrite s src lo p a v =
      { s with access := { s.access with held := sset zeroNat s.access.held (sourceKey src a) (v + 1) } } := by
  simp only [pairWrite, h, Option.isNone_iff_eq_none.mp hw]

/-- A written _HI word brings the held word with it. -/
theorem pairWrite_of_hi {p : Page} {a : Nat} (h : pairRole p a = .hi) (hw : (wideAt a).isNone = true) {lo : Nat} (hlo : 0 < lo) (s : State)
    (src : Source) (v : Nat) : pairWrite s src lo p a v = writeWord (writeWord s src p (a - 4) (lo - 1)) src p a v := by
  simp only [pairWrite, h, Option.isNone_iff_eq_none.mp hw, if_neg (Nat.ne_of_gt hlo)]

/-- Settles O6: each access of a pair or a table window is the operation of its part in the pair, or of the entry's first word. -/
theorem pairsAndWindowsAreLatched : Obligations.PairsAndWindowsAreLatched := by
  refine ⟨fun s src a p h hp hrole hm hq ht => ?_, fun s src a p h hp hrole hm hq ht => ?_, fun s src a v p h hp hrole hw => ?_,
    fun s src a v p h hp hrole hw hlo => ?_, fun s src a w e h4 hw hm => ?_⟩
  · have hread := (readAt_of_readable h hp ⟨hm, hq, ht⟩).trans (readPlain_of_lo hrole _ src)
    refine ⟨_, rfl, ?_⟩
    rw [readOut, hread]
    exact ⟨wakeForPage_regs _ _, congrArg (· ++ _) (wakeForPage_out _ _), sget_sset_same _ _ _ _⟩
  · have hread := (readAt_of_readable h hp ⟨hm, hq, ht⟩).trans (readPlain_of_hi hrole _ src)
    have hlatch : latched (wakeForPage (dropWindow s src) a) src a = latched s src a := by rw [latched, wakeForPage_access]; rfl
    obtain ⟨hempty, hregs, hout⟩ := readHi_snd (wakeForPage (dropWindow s src) a) src p a
    refine ⟨_, rfl, ?_⟩
    rw [readOut, hread, readHi_fst, hlatch]
    exact ⟨hregs.trans (wakeForPage_regs _ _), hempty, congrArg (· ++ _) (hout.trans (wakeForPage_out _ _))⟩
  · have hwrite := (busWrite_of_admitted h hp v.toNat).trans (pairWrite_of_lo hrole hw _ src _ _)
    exact ⟨_, congrArg done hwrite, atRegister_regs s src a, atRegister_out s src a, sget_sset_same _ _ _ _⟩
  · exact congrArg done ((busWrite_of_admitted h hp v.toNat).trans (pairWrite_of_hi hrole hw hlo _ src _))
  · obtain ⟨hregs, htabs, hout⟩ : _ ∧ _ ∧ _ := by
      simpa only [besideWake, Prod.mk.injEq] using besideWake_wakeTable (dropWindow s src) w.table e 1
    refine ⟨_, rfl, ?_⟩
    rw [readOut, readAt_of_window h4 hw hm]
    exact ⟨hregs, htabs, congrArg (· ++ _) hout, rfl⟩

end Sys2Proof.Machine
end

section
/-! The requests of a page's header (R33, R34, R36, R38). -/

namespace Sys2Proof.Machine

/-! ### The header -/

/-- An offset inside a page stays the offset within the page. -/
theorem inPage_mod (a : Nat) {off : Nat} (h : off < 0x1000) : inPage a off % 0x1000 = off := by
  unfold inPage
  omega

/-- A header's registers are in no pair. -/
theorem pairRole_of_header (p : Page) {a : Nat} (h : a % 0x1000 < 0x40) : pairRole p a = .single := by
  have hrows : ∀ r ∈ headerRows p, r.pair = .single := by simp [headerRows, reg]
  rw [pairRole, rowAt, if_pos h]
  cases hr : (headerRows p).find? (·.covers (a % 0x1000)) with
  | none => rfl
  | some r => exact hrows r (List.mem_of_find?_eq_some hr)

/-- No wide counter stands in a header. -/
theorem wideIndex_of_header {a : Nat} (h : a % 0x1000 < 0x40) : wideIndex a = none := by
  unfold wideIndex
  dsimp only
  split <;> simp <;> omega

/-- A word above the first of a header belongs to no wide counter. -/
theorem wideAt_of_header {a : Nat} (h4 : 4 ≤ a % 0x1000) (h : a % 0x1000 < 0x40) : wideAt a = none := by
  have hlo : wideIndex (a - 4) = none := wideIndex_of_header (by omega)
  simp [wideAt, wideIndex_of_header h, hlo]

/-- An admitted write has a page. -/
theorem page_of_admitted {s : State} {src : Source} {a : Nat} (h : Admitted s src a) : ∃ p, pageAt a = some p := by
  obtain ⟨-, -, hr, -⟩ := h
  obtain ⟨p, hp, -⟩ := Option.map_eq_some_iff.mp hr
  exact ⟨p, hp⟩

/-- An admitted write in a header acts there. -/
theorem busWrite_header {s : State} {src : Source} {a off : Nat} {p : Page} (h : Admitted s src (inPage a off)) (hoff : off < 0x40)
    (hp : pageAt (inPage a off) = some p) (v : Nat) :
    busWrite s src (inPage a off) 4 v true = writeHeader (atRegister s src (inPage a off)) src p (inPage a off) v := by
  have hmod : inPage a off % 0x1000 < 0x40 := by rwa [inPage_mod a (by omega)]
  exact ((busWrite_of_admitted h hp v).trans (pairWrite_of_single (pairRole_of_header p hmod) _ _ _ _)).trans (if_pos hmod)

theorem writeHeader_lock {a : Nat} (ho : a % 0x1000 = 0x28) (s : State) (src : Source) (p : Page) (v : Nat) :
    writeHeader s src p a v = fieldWrite s src a v := by
  rw [writeHeader, ho]
  rfl

theorem writeHeader_intForce {a : Nat} (ho : a % 0x1000 = 0x18) (s : State) (src : Source) (p : Page) (v : Nat) :
    writeHeader s src p a v = forceCauses s p v := by
  rw [writeHeader, ho]
  rfl

/-! ### LOCK -/

theorem fieldsAt_lock {a : Nat} {p : Page} (hp : pageAt a = some p) (ho : a % 0x1000 = 0x28) : fieldsAt a = some [w1s 0 0] := by
  simp [fieldsAt, hp, ho, rowAt, headerRows, Row.covers, reg]

/-- A write of LOCK meets no bar and has no record beside it. -/
theorem fieldWrite_lock {a : Nat} {p : Page} (hp : pageAt a = some p) (ho : a % 0x1000 = 0x28) (s : State) (src : Source) (v : Nat) :
    fieldWrite s src a v = wr s a (writtenWord s a [w1s 0 0] v) := by
  have once : fieldMask (· == .wo1) [w1s 0 0] = 0 := by decide
  have locked : fieldMask (· == .rwl) [w1s 0 0] = 0 := by decide
  have staged : fieldMask (· == .stg) [w1s 0 0] = 0 := by decide
  rw [fieldWrite_eq (fieldsAt_lock hp ho) (wideAt_of_header (by omega) (by omega)), if_pos (by simp [barredCause, once, locked])]
  simp [noteStaged, taken, noteOnce, once, staged]

/-- LOCK written 1 is set (R34). -/
theorem flag_lock (s : State) (a : Nat) : flag (wr s a (writtenWord s a [w1s 0 0] (1 : Word32).toNat)) a 0 = true := by
  rw [flag_wr_same _ _ _ (by decide), written_bit s a [w1s 0 0] 1 (w1s 0 0) (by simp) 0 (Nat.le_refl 0) (Nat.zero_le _) (by decide)
    (by simp)]
  simp [w1s]

/-! ### INT_FORCE -/

/-- A cause of page `p` that a write of `v` to INT_FORCE raises (R33). -/
def forced (p : Page) (v k : Nat) : Bool := bitAt v k && ((k < 16 && bitAt p.causes k) || k = 30 || k = 31)

/-- The causes of `l` that a write of `v` raises, one after the other. -/
def forceList (s : State) (p : Page) (v : Nat) (l : List Nat) : State := l.foldl (fun s k => if forced p v k then raise s p k else s) s

theorem forceCauses_eq (s : State) (p : Page) (v : Nat) : forceCauses s p v = forceList s p v (List.range 32) := rfl

theorem RegsBut.forceList {as : List Nat} {s t : State} (h : RegsBut as s t) {p : Page} (hp : p.at_ 0x10 ∈ as) (v : Nat) (l : List Nat) :
    RegsBut as s (forceList t p v l) := by
  induction l generalizing t with
  | nil => exact h
  | cons k l ih =>
    refine ih (t := if forced p v k then Machine.raise t p k else t) ?_
    split
    · exact h.raise hp k
    · exact h

/-- A cause that stands, or that is among those raised, stands after them. -/
theorem flag_forceList {p : Page} {v j : Nat} {l : List Nat} (hl : ∀ k ∈ l, k < 32) {s : State}
    (h : flag s (p.at_ 0x10) j = true ∨ (j ∈ l ∧ forced p v j = true)) : flag (forceList s p v l) (p.at_ 0x10) j = true := by
  induction l generalizing s with
  | nil => simpa [forceList] using h
  | cons k l ih =>
    refine ih (fun i hi => hl i (.tail k hi)) (s := if forced p v k then raise s p k else s) ?_
    obtain hs | ⟨hj, hf⟩ := h
    · left
      split
      · rw [flag_raise _ _ _ _ _ (hl k (.head l)), hs, ite_self]
      · exact hs
    · obtain rfl | hj := List.mem_cons.mp hj
      · left
        rw [if_pos hf, flag_raise _ _ _ _ _ (hl j (.head l)), if_pos ⟨rfl, rfl⟩]
      · exact .inr ⟨hj, hf⟩

/-! ### DISCARD_STAGED -/

/-- The staged bits of a merged word are the copy's, the others the live word's. -/
theorem testBit_mergeStaged (s : State) (m : Sparse Word32) (a j : Nat) :
    (mergeStaged s m a).testBit j = if (stagedMask a).testBit j then (sget resetWord m a).toNat.testBit j else (rd s a).testBit j := by
  have hones : (0xFFFFFFFF : Nat).testBit j = decide (j < 32) := Nat.testBit_two_pow_sub_one 32 j
  have hrd : 32 ≤ j → (rd s a).testBit j = false := fun h =>
    Nat.testBit_lt_two_pow (Nat.lt_of_lt_of_le (rd_lt s a) (Nat.pow_le_pow_right (by decide) h))
  simp only [mergeStaged, Nat.testBit_or, Nat.testBit_and, Nat.testBit_xor, hones]
  by_cases hj : j < 32
  · cases (stagedMask a).testBit j <;> simp [hj]
  · cases (stagedMask a).testBit j <;> simp [hj, hrd (by omega)]

theorem rdCur_lt (s : State) (a : Nat) : rdCur s a < 2 ^ 32 :=
  Nat.or_lt_two_pow (Nat.lt_of_le_of_lt Nat.and_le_left (rd_lt s a)) (Nat.lt_of_le_of_lt Nat.and_le_left (BitVec.isLt _))

/-- The register at `a` takes its applied value again. -/
def restore (s : State) (a : Nat) : State := wr s a (rdCur s a)

theorem rd_restore (s : State) (a b : Nat) : rd (restore s a) b = if b = a then rdCur s b else rd s b := by
  rw [restore, rd_wr]
  split
  next h => rw [h, Nat.mod_eq_of_lt (rdCur_lt s a)]
  next => rfl

/-- A restored register has the applied value that it had. -/
theorem rdCur_restore (s : State) (a b : Nat) : rdCur (restore s a) b = rdCur s b := by
  refine Nat.eq_of_testBit_eq fun j => ?_
  rw [rdCur, testBit_mergeStaged, rd_restore]
  by_cases hb : b = a
  · rw [if_pos hb, rdCur, testBit_mergeStaged]
    split <;> rfl
  · rw [if_neg hb, rdCur, testBit_mergeStaged]
    rfl

/-- The registers of a list take their applied values again, and no other register changes. -/
theorem rd_foldl_restore (l : List Nat) (s : State) (b : Nat) : rd (l.foldl restore s) b = if b ∈ l then rdCur s b else rd s b := by
  induction l generalizing s with
  | nil => rfl
  | cons a l ih =>
    rw [List.foldl_cons, ih, rdCur_restore, rd_restore]
    by_cases hl : b ∈ l <;> by_cases ha : b = a <;> simp [hl, ha]

/-- A key that a sparse map does not list has its default. -/
theorem sget_of_not_mem {α : Type} {d : Nat → α} {m : Sparse α} {k : Nat} (h : k ∉ m.map (·.1)) : sget d m k = d k := by
  induction m with
  | nil => rfl
  | cons e m ih =>
    rw [List.map_cons] at h
    exact (if_neg (List.ne_of_not_mem_cons h)).trans (ih (List.not_mem_of_not_mem_cons h))

/-- A register that neither copy lists has its applied value. -/
theorem rdCur_of_not_mem {s : State} {a : Nat} (hr : a ∉ s.regs.map (·.1)) (hc : a ∉ s.regsCur.map (·.1)) : rdCur s a = rd s a := by
  refine Nat.eq_of_testBit_eq fun j => ?_
  rw [rdCur, testBit_mergeStaged, rd, sget_of_not_mem hr, sget_of_not_mem hc, ite_self]

/-- The staged registers of page `p` that a map lists. -/
def stagedOf (p : Page) (m : Sparse Word32) : List Nat := (m.map (·.1)).filter fun a => a / 0x1000 == p.base / 0x1000 && stagedMask a != 0

theorem mem_stagedOf {p : Page} {m : Sparse Word32} {a : Nat} :
    a ∈ stagedOf p m ↔ a ∈ m.map (·.1) ∧ a / 0x1000 = p.base / 0x1000 ∧ stagedMask a ≠ 0 := by
  simp only [stagedOf, List.mem_filter, Bool.and_eq_true, beq_iff_eq, bne_iff_ne]

theorem discardStaged_eq (s : State) (p : Page) :
    discardStaged s p = setFlag ((stagedOf p s.regs ++ stagedOf p s.regsCur).foldl restore s) (p.base + 8) 29 false := rfl

/-- A discard brings back the staged registers of its page (R38). -/
theorem rd_discardStaged_staged (s : State) {p : Page} {b : Nat} (hb : b / 0x1000 = p.base / 0x1000) (h8 : b ≠ p.base + 8)
    (hs : stagedMask b ≠ 0) : rd (discardStaged s p) b = rdCur s b := by
  rw [discardStaged_eq, rd_setFlag_other _ _ _ h8, rd_foldl_restore]
  split
  next => rfl
  next hn =>
    rw [List.mem_append, not_or, mem_stagedOf, mem_stagedOf] at hn
    exact (rdCur_of_not_mem (fun h => hn.1 ⟨h, hb, hs⟩) fun h => hn.2 ⟨h, hb, hs⟩).symm

/-- A discard reaches no other page. -/
theorem rd_discardStaged_other (s : State) {p : Page} {b : Nat} (hb : b / 0x1000 ≠ p.base / 0x1000) :
    rd (discardStaged s p) b = rd s b := by
  have h8 : b ≠ p.base + 8 := by
    have := base_mod p
    omega
  rw [discardStaged_eq, rd_setFlag_other _ _ _ h8, rd_foldl_restore, if_neg]
  rw [List.mem_append, mem_stagedOf, mem_stagedOf]
  rintro (⟨-, h, -⟩ | ⟨-, h, -⟩) <;> exact hb h

theorem out_discardStaged (s : State) (p : Page) : (discardStaged s p).out = s.out :=
  view_foldl (F := State.out) (f := restore) (fun _ _ => rfl) _ s

/-- The applied copies at an admitted write are those before it. -/
theorem rdCur_atRegister (s : State) (src : Source) (a b : Nat) : rdCur (atRegister s src a) b = rdCur s b := by
  have hcur : (atRegister s src a).regsCur = s.regsCur := view_wakeForPage (F := State.regsCur) (fun _ _ => rfl) (fun _ _ => rfl) _ a
  rw [rdCur, rdCur, hcur, mergeStaged, mergeStaged, rd_atRegister]

/-- Settles O7: each request of a header is the operation that its rule names, on the state at the register. -/
theorem headerRequestsAct : Obligations.HeaderRequestsAct := by
  refine ⟨fun s src a h => ?_, fun s src a v p h hp => ?_, fun s src a p h hp hm => ?_, fun s src a p h hp => ?_, fun s src a p h hp => ?_⟩
  · obtain ⟨p, hp⟩ := page_of_admitted h
    have ho : inPage a 0x28 % 0x1000 = 0x28 := inPage_mod a (by decide)
    have ht : busWrite s src (inPage a 0x28) 4 1 true = wr (atRegister s src (inPage a 0x28)) (inPage a 0x28)
        (writtenWord (atRegister s src (inPage a 0x28)) (inPage a 0x28) [w1s 0 0] 1) := by
      rw [busWrite_header h (by decide) hp, writeHeader_lock ho, fieldWrite_lock hp ho]
    refine ⟨_, congrArg done ht, flag_lock _ _, ?_, atRegister_out _ _ _⟩
    exact (RegsBut.of_regs_eq _ (atRegister_regs _ _ _)).wr (by simp) _
  · have ht : busWrite s src (inPage a 0x18) 4 v.toNat true =
        forceList (atRegister s src (inPage a 0x18)) p v.toNat (List.range 32) := by
      rw [busWrite_header h (by decide) hp, writeHeader_intForce (inPage_mod a (by decide)), forceCauses_eq]
    refine ⟨_, congrArg done ht, (RegsBut.of_regs_eq _ (atRegister_regs _ _ _)).forceList (by simp) _ _, fun k hk hv hcause => ?_⟩
    refine flag_forceList (by simp) (.inr ⟨List.mem_range.mpr hk, ?_⟩)
    simpa [forced, bitAt_testBit, testBit_word, hv, or_assoc] using hcause
  · have ht : exec (.resume src a false) s = .next (setFlag (atRegister s src (inPage a 0xC)) (p.at_ 8) 31 false) := by
      refine congrArg done ((guarded_of_admitted h _).trans ?_)
      simp only [hp]
      exact if_neg (by rw [flag_atRegister]; exact ne_true_of_eq_false hm)
    refine ⟨_, ht, flag_setFlag_same _ _ _ _ (by decide), ?_, ?_⟩
    · exact (RegsBut.of_regs_eq _ (atRegister_regs _ _ _)).setFlag (by simp) 31 false
    · rw [setFlag_out, atRegister_out]
  · refine congrArg done ((guarded_of_admitted h _).trans ?_)
    simp only [hp]
    rfl
  · have ht : exec (.discardStaged src a) s = .next (discardStaged (atRegister s src (inPage a 0xC)) p) := by
      refine congrArg done ((guarded_of_admitted h _).trans ?_)
      simp only [hp]
    refine ⟨_, ht, flag_setFlag_same _ _ _ _ (by decide), ?_, fun b hb => ?_, fun b hb h8 hs => ?_⟩
    · rw [out_discardStaged, atRegister_out]
    · rw [rd_discardStaged_other _ hb, rd_atRegister]
    · rw [rd_discardStaged_staged _ hb h8 hs, rdCur_atRegister]

end Sys2Proof.Machine
end

section
/-! Commits (R37 to R41): what a commit in progress freezes, how slices switch, and how the commit ends. -/

namespace Sys2Proof.Machine

/-! ### The copies of an accepted commit -/

/-- The applied configuration of the current epoch and of the one before. -/
def copies (s : State) : Sparse Word32 × Sparse Word32 × Sparse Image × Sparse Image := (s.regsCur, s.regsOld, s.tabsCur, s.tabsOld)

theorem shows_copies : ShowsNoQueue copies [] where
  toShows := shows_of_rfl fun _ _ _ _ _ => rfl
  queues _ _ := rfl
  spill := by simp

theorem copies_settleAll (s : State) : copies (settleAll s) = copies s := by
  refine view_foldl (fun _ _ => ?_) _ s
  exact view_ite rfl rfl

theorem copies_schedCommit (old s : State) : copies (schedCommit old s) = copies s := by
  have hnode : ∀ u i, copies (commitNode old u i) = copies u := fun _ _ => view_ite (view_ite rfl rfl) (view_ite rfl rfl)
  unfold schedCommit
  simp only [copies_settleAll, view_foldl hnode]

theorem copies_govCommit (s : State) : copies (govCommit s) = copies s := view_ite rfl rfl

theorem copies_govOff (s : State) : copies (govOff s) = copies s := rfl

theorem copies_wakeIfOff (s : State) : copies (wakeIfOff s) = copies s :=
  view_ite (view_foldl (fun _ _ => view_ite rfl (shows_copies.wakeSlice (fun _ _ => rfl) _ _)) _ s) rfl

theorem copies_slicesSwitched (s : State) : copies (slicesSwitched s) = copies s := by
  unfold slicesSwitched
  split
  · exact view_ite rfl rfl
  · rfl

/-- An accepted commit freezes the pending copies, and keeps the applied ones as the previous epoch's (R38). -/
theorem copies_acceptCommit (s : State) (preset : Nat) : copies (acceptCommit s preset) =
    (skeep (fun a => stagedMask a != 0) s.regs, s.regsCur, skeep (fun k => tableStaged (k / 2 ^ 20)) s.tabs, s.tabsCur) := by
  have happly : copies (applyPending s) = _ := view_foldl (f := fun u (e : Nat × Word32) => setFlag u e.1 29 false) (fun _ _ => rfl) _ _
  refine (copies_slicesSwitched _).trans ?_
  refine (view_ite rfl (copies_wakeIfOff _)).trans ?_
  refine (shows_copies.drainCheck _).trans ?_
  refine (view_ite (copies_govOff _) rfl).trans ?_
  exact (view_ite rfl (copies_govCommit _)).trans ((copies_schedCommit s (accepting s preset)).trans happly)

/-! ### SYS_COMMIT -/

/-- SYS_COMMIT lies in the root page, so a write that reaches it wakes no slice. -/
theorem atRegister_sysCommit (s : State) (src : Source) : atRegister s src 0x40 = dropHeld s src 0x40 :=
  atRegister_eq s src 0x40 fun i k => by rw [show pageAt 0x40 = some .root from rfl]; simp

theorem exec_sysCommitGo {s : State} {src : Source} (h : Admitted s src 0x40) (e : BitVec 16) :
    exec (.sysCommitGo src e) s = .next (sysCommit (atRegister s src 0x40) src e.toNat) := congrArg done (guarded_of_admitted h _)

theorem sysCommit_of_pending {s : State} (h : s.commit.isSome = true) (src : Source) (e : Nat) :
    sysCommit s src e = accessFault s src 0x40 6 := if_pos h

theorem sysCommit_of_next {s : State} (h : s.commit = none) {e : Nat} (he : e = (currentEpoch s + 1) % 65536) (src : Source) :
    sysCommit s src e = acceptCommit (setFld s 0x40 15 0 e) 0 := by simp [sysCommit, h, he]

theorem sysCommit_of_other {s : State} (h : s.commit = none) {e : Nat} (he : e ≠ (currentEpoch s + 1) % 65536) (src : Source) :
    sysCommit s src e = accessFault s src 0x40 7 := by simp [sysCommit, h, he]

/-- SYS_COMMIT itself is not staged. -/
theorem stagedMask_sysCommit : stagedMask 0x40 = 0 := by decide

/-! ### Switches and the end of a commit -/

/-- Once a slice switches, PROFILE_STATUS alone may follow. -/
theorem slicesSwitched_frame (s : State) : (slicesSwitched s).commit = s.commit ∧ RegsBut [0x48] s (slicesSwitched s) ∧
    slicesSwitched s = { s with regs := (slicesSwitched s).regs } := by
  unfold slicesSwitched
  split
  · split
    · exact ⟨rfl, (RegsBut.of_regs_eq _ rfl).wr (by simp) _, rfl⟩
    · exact ⟨rfl, RegsBut.of_regs_eq _ rfl, rfl⟩
  · exact ⟨rfl, RegsBut.of_regs_eq _ rfl, rfl⟩

/-- A slice for which the commit waits switches (R39). -/
theorem switchSlice_of_waiting {s : State} {c : Commit} {i : Nat} (hc : s.commit = some c) (hi : i ∈ c.waiting) :
    switchSlice s i = slicesSwitched { s with commit := some { c with waiting := c.waiting.filter (· != i) } } := by
  simp [switchSlice, hc, hi]

/-- A commit for which no slice and no old frame is left ends (R41). -/
theorem commitEnd_of_switched {s : State} {c : Commit} (hc : s.commit = some c) (hw : c.waiting = []) (hf : oldFrames s = false) :
    commitEnd s = raise { s with commit := none } .root 0 := by
  simp [commitEnd, hc, hw, hf]

/-- Settles O8: a commit is refused or freezes the copies, slices switch one by one, and the last ends it. -/
theorem commitsAdvanceTheEpoch : Obligations.CommitsAdvanceTheEpoch := by
  refine ⟨fun s src e h hn he => ?_, fun s src e h hs => ?_, fun s src e h hn he => ?_, fun s i c hc hi => ?_, fun s c hc hw hf => ?_⟩
  · have ht : exec (.sysCommitGo src e) s = .next (acceptCommit (setFld (dropHeld s src 0x40) 0x40 15 0 e.toNat) 0) := by
      rw [exec_sysCommitGo h, atRegister_sysCommit, sysCommit_of_next (s := dropHeld s src 0x40) hn he]
    obtain ⟨-, hcommit, -⟩ := acceptCommit_settles (setFld (dropHeld s src 0x40) 0x40 15 0 e.toNat) 0
    have hcopies := copies_acceptCommit (setFld (dropHeld s src 0x40) 0x40 15 0 e.toNat) 0
    simp only [copies, Prod.mk.injEq] at hcopies
    obtain ⟨hcur, hold, htabs, htabsOld⟩ := hcopies
    refine ⟨_, ht, hcommit, fun a ha => ?_, hold, fun k hk => ?_, htabsOld⟩
    · have hne : a ≠ 0x40 := fun hn => ha (hn ▸ stagedMask_sysCommit)
      rw [hcur, sget_skeep _ (fun a => stagedMask a != 0) _ (bne_iff_ne.mpr ha)]
      exact sget_sset_other _ _ _ hne
    · rw [htabs, sget_skeep _ (fun k => tableStaged (k / 2 ^ 20)) _ hk]
      rfl
  · rw [exec_sysCommitGo h, sysCommit_of_pending]
    rwa [atRegister_sysCommit]
  · rw [exec_sysCommitGo h, atRegister_sysCommit, sysCommit_of_other (s := dropHeld s src 0x40) hn he]
  · have ht : exec (.sliceEpochSwitch i) s = _ := congrArg done (switchSlice_of_waiting hc hi)
    obtain ⟨hcommit, hregs, hframe⟩ := slicesSwitched_frame { s with commit := some { c with waiting := c.waiting.filter (· != i.val) } }
    exact ⟨_, ht, hcommit, hregs, by rw [hframe]⟩
  · have ht : exec .commitDone s = _ := congrArg done (commitEnd_of_switched hc hw hf)
    refine ⟨_, ht, rfl, ?_, (RegsBut.of_regs_eq _ rfl).raise (by decide) 0, rfl⟩
    rw [flag_raise _ _ _ _ _ (by decide), if_pos ⟨rfl, rfl⟩]

end Sys2Proof.Machine
end

section
/-! Time-event pins (R252, R253, R35): stamps of a capture pin, the arming of a single edge, and the edges of an output. -/

namespace Sys2Proof.Machine

/-! ### The registers of a pin -/

/-- TEV_CONFIG of a pin is no register of its page's header. -/
theorem tevBase_ne (n : Nat) : tevBase n ≠ 0x5010 := by
  unfold tevBase
  omega

theorem pageAt_tevBase (k : Fin 8) : pageAt (tevBase k) = some .timeEvents := by
  have hk := k.isLt
  have hlt : tevBase k < 0x10000 := by unfold tevBase; omega
  have hpage : tevBase k / 0x1000 = 5 := by unfold tevBase; omega
  rw [pageAt, if_pos hlt, hpage]
  rfl

/-- A write that reaches TEV_CONFIG wakes no slice. -/
theorem atRegister_tevBase (s : State) (src : Source) (k : Fin 8) : atRegister s src (tevBase k) = dropHeld s src (tevBase k) :=
  atRegister_eq s src _ fun i j => by rw [pageAt_tevBase]; simp

/-! ### Capture -/

/-- The selected edge of a capture pin with room is stamped (R252). -/
theorem tevEdge_of_room {s : State} {n : Nat} {falling : Bool} (hm : tevMode s n = 1) (he : fld s (tevBase n) 28 27 = bit falling)
    (hr : (tevAt s n).fifo.length < 16) :
    tevEdge s n falling =
      raise (setFld (setTev s n { tevAt s n with fifo := (tevAt s n).fifo ++ [(devSec s, devSub s, falling)] }) (tevBase n) 4 0
        ((tevAt s n).fifo.length + 1)) .timeEvents n := by
  have hr : ¬ 16 ≤ (tevAt s n).fifo.length := Nat.not_le.mpr hr
  cases falling <;> simp [tevEdge, hm, he, hr, bit]

/-- An edge of a pin that takes both finds no room: it is counted (R252). -/
theorem tevEdge_of_full {s : State} {n : Nat} (hm : tevMode s n = 1) (he : fld s (tevBase n) 28 27 = 2)
    (hr : 16 ≤ (tevAt s n).fifo.length) (falling : Bool) : tevEdge s n falling = tally s (0x5140 + n * 4) := by
  simp [tevEdge, hm, he, hr]

theorem tev_tally (s : State) (a : Nat) : (tally s a).tev = s.tev :=
  (shows_of_rfl fun _ _ _ _ _ => rfl : Shows State.tev []).tally List.not_mem_nil s

/-- A read of a pin's stamps that the source may make (R252). -/
theorem exec_tevCapRead {s : State} {src : Source} {k : Fin 8} (hm : mayRead s src (tevBase k + 0x18) = true) :
    exec (.tevCapRead src k) s =
      .next (emit (tevPop (dropWindow s src) src k).2 (.value src (tevBase k + 0x18) (tevPop (dropWindow s src) src k).1)) := by
  have hm : mayRead (dropWindow s src) src (tevBase k + 0x18) = true := hm
  refine if_neg ?_
  simp [hm]

/-- A read takes the oldest stamp, and gives its seconds to the source (R252). -/
theorem tevPop_of_cons {s : State} {n sec ns : Nat} {falling : Bool} {rest : List (Nat × Nat × Bool)}
    (h : (tevAt s n).fifo = (sec, ns, falling) :: rest) (src : Source) :
    tevPop s src n = (2 ^ 31 + bit falling * 2 ^ 30 + ns,
      setOwn (setFld (setTev s n { tevAt s n with fifo := rest }) (tevBase n) 4 0 rest.length) src (tevBase n + 0x1C) sec) := by
  simp only [tevPop, h]

theorem tevPop_of_nil {s : State} {n : Nat} (h : (tevAt s n).fifo = []) (src : Source) : tevPop s src n = (0, s) := by
  simp only [tevPop, h]

/-! ### Arming -/

/-- The start of a pin's schedule, in ns of device time (R253). -/
def tevStart (s : State) (n : Nat) : Nat :=
  (rd s (tevBase n + 8) + fld s (tevBase n + 0xC) 15 0 * 2 ^ 32) * 1000000000 + rd s (tevBase n + 4)

/-- A pin with the schedule of a single edge at time `start`, armed or not (R253). -/
def singleEdge (s : State) (n : Nat) (armed : Bool) (edge : Nat) : TevPin :=
  { tevAt s n with armed, start := tevStart s n, period := tevPeriod s n, width := max 4 (rd s (tevBase n + 0x14)), nextEdge := edge }

/-- A single edge nearer than 1 µs is late, and any other one is armed. -/
theorem armPin_of_single {s : State} {n : Nat} (hm : tevMode s n = 2) :
    armPin s n = if tevStart s n < devNs s + 1000 then raise (setTev s n (singleEdge s n false 0)) .timeEvents (8 + n)
      else setTev s n (singleEdge s n true (tevStart s n)) := by
  simp only [armPin, hm, if_true, Nat.reduceEqDiff, if_false]
  rfl

/-- TEV_CONFIG.ARM on the state at the register. -/
theorem exec_tevArm {s : State} {src : Source} {k : Fin 8} (h : Admitted s src (tevBase k)) :
    exec (.tevArm src k) s = .next (armPin (dropHeld s src (tevBase k)) k) := by
  rw [← atRegister_tevBase]
  exact congrArg done (guarded_of_admitted h _)

/-! ### Output -/

/-- A periodic output whose edge has come drives its active level for WIDTH (R253). -/
theorem tevOutput_of_periodic {s : State} {n : Nat} (ha : (tevAt s n).armed = true) (hm : tevMode s n = 3) (h0 : (tevAt s n).nextEdge ≠ 0)
    (hd : (tevAt s n).nextEdge ≤ devNs s) (hf : tevFrozen s = false) :
    tevOutput s n = emit (setTev s n { tevAt s n with
      activeUntil := some (now s + (tevAt s n).width), nextEdge := (tevAt s n).nextEdge + (tevAt s n).period })
      (.pin "TEV" n !flag s (tevBase n) 26) := by
  simp [tevOutput, ha, hm, h0, hf, Nat.not_lt.mpr hd]

/-- WIDTH after an edge the output returns to its inactive level (R253). -/
theorem tevEnd_of_due {s : State} {n w : Nat} (ha : (tevAt s n).activeUntil = some w) (hw : w ≤ now s) (hf : tevFrozen s = false) :
    tevEnd s n = emit (setTev s n { tevAt s n with activeUntil := none }) (.pin "TEV" n (flag s (tevBase n) 26)) := by
  simp [tevEnd, ha, hf, Nat.not_lt.mpr hw]

/-- A page in its fault-safe action holds the level (R35). -/
theorem tevEnd_of_frozen {s : State} (h : tevFrozen s = true) (n : Nat) : tevEnd s n = s := by
  unfold tevEnd
  split
  · rfl
  · exact if_pos (.inr h)

theorem tevOutput_of_frozen {s : State} (h : tevFrozen s = true) (n : Nat) : tevOutput s n = s := by
  simp [tevOutput, h]

/-- Settles O26: each event of a pin is the update of its case, on the state that meets it. -/
theorem timeEventPinsStampAndDrive : Obligations.TimeEventPinsStampAndDrive := by
  refine ⟨fun s k falling hm he hr => ?_, fun s k falling hm he hr => ?_, fun s src k sec ns falling rest hm hq => ?_,
    fun s src k hm hq => ?_, fun s src k h hm hl => ?_, fun s src k h hm hl => ?_, fun s k ha hm h0 hd hf => ?_, fun s k w ha hw hf => ?_,
    fun s k hf => ?_⟩
  · have hk := k.isLt
    have he : fld s (tevBase k) 28 27 = bit falling := he.trans (by cases falling <;> rfl)
    refine ⟨_, congrArg done (tevEdge_of_room hm he hr), congrArg TevPin.fifo (tevAt_setTev_same _ _ _), ?_, ?_, ?_, rfl⟩
    · rw [fld_raise_other _ _ _ _ _ (tevBase_ne k), fld_setFld_same _ _ _ _ _ (by decide) (by decide)]
      exact Nat.mod_eq_of_lt (by omega)
    · rw [flag_raise _ _ _ _ _ (by omega), if_pos ⟨rfl, rfl⟩]
    · exact ((RegsBut.of_regs_eq _ rfl).wr (by simp) _).raise (by simp [Page.at_, Page.base]) _
  · exact ⟨_, congrArg done (tevEdge_of_full hm he hr falling), rfl, tev_tally _ _⟩
  · have hpop := tevPop_of_cons (s := dropWindow s src) hq src
    refine ⟨_, exec_tevCapRead hm, ?_⟩
    rw [hpop]
    refine ⟨congrArg TevPin.fifo (tevAt_setTev_same _ _ _), fld_setFld_same _ _ _ _ _ (by decide) (by decide), ?_, rfl, ?_⟩
    · exact (congrArg BitVec.toNat (sget_sset_same _ _ _ _)).trans (BitVec.toNat_ofNat _ _)
    · exact (RegsBut.of_regs_eq _ rfl).wr (by simp) _
  · refine ⟨_, exec_tevCapRead hm, ?_⟩
    rw [tevPop_of_nil (s := dropWindow s src) hq]
    exact ⟨rfl, rfl, rfl⟩
  · have ht := (exec_tevArm h).trans (congrArg done ((armPin_of_single (s := dropHeld s src (tevBase k)) hm).trans
      (if_neg (Nat.not_lt.mpr hl))))
    exact ⟨_, ht, congrArg TevPin.armed (tevAt_setTev_same _ _ _), congrArg TevPin.nextEdge (tevAt_setTev_same _ _ _), rfl⟩
  · have hk := k.isLt
    have ht := (exec_tevArm h).trans (congrArg done ((armPin_of_single (s := dropHeld s src (tevBase k)) hm).trans (if_pos hl)))
    refine ⟨_, ht, congrArg TevPin.armed (tevAt_setTev_same _ _ _), ?_, ?_⟩
    · rw [flag_raise _ _ _ _ _ (by omega), if_pos ⟨rfl, rfl⟩]
    · exact (RegsBut.of_regs_eq _ rfl).raise (by simp [Page.at_, Page.base]) _
  · exact ⟨_, congrArg done (tevOutput_of_periodic ha hm h0 hd hf), rfl, tevAt_setTev_same _ _ _, rfl⟩
  · rw [tevEnd_of_due ha hw hf]
    exact ⟨rfl, tevAt_setTev_same _ _ _, rfl⟩
  · exact ⟨tevEnd_of_frozen hf k, congrArg done (tevOutput_of_frozen hf k)⟩

end Sys2Proof.Machine
end

section
/-! Views of what is not a port: the steps of a link that comes up or goes down (R47, R48, R59, R229) leave them alone. -/

namespace Sys2Proof.Machine

/-! ### The pages of ports and lanes -/

/-- A register in the first page of a front port (R422). -/
def OnFrontPage (a : Nat) : Prop := 0x200000 ≤ a ∧ a < 0x300000 ∧ a / 0x1000 % 4 = 0

theorem onFrontPage_portReg (port : Fin 64) {off : Nat} (h : off < 0x1000) : OnFrontPage (portReg port 0 off) := by
  have hp := port.isLt
  unfold OnFrontPage portReg
  omega

theorem pageAt_portReg (port : Fin 64) {k off : Nat} (hk : k < 4) (h : off < 0x1000) :
    pageAt (portReg port k off) = some (.port port k) := by
  have hp := port.isLt
  unfold pageAt portReg
  rw [if_neg (by omega), if_neg (by omega), if_pos (by omega)]
  simp only [Option.some.injEq, Page.port.injEq]
  omega

/-- A write that reaches a port's register wakes no slice. -/
theorem atRegister_portReg (s : State) (src : Source) (port : Fin 64) {off : Nat} (h : off < 0x1000) :
    atRegister s src (portReg port 0 off) = dropHeld s src (portReg port 0 off) :=
  atRegister_eq s src _ fun i k => by simp [pageAt_portReg port (by decide : 0 < 4) h]

/-- Two registers in one page of a port are one only at the same offset. -/
theorem portReg_ne (p k : Nat) {m n : Nat} (h : m ≠ n) : portReg p k m ≠ portReg p k n := fun e => h (Nat.add_left_cancel e)

theorem portReg_not_mem (p k : Nat) {m n : Nat} (h : m ≠ n) : portReg p k m ∉ [portReg p k n] :=
  List.mem_singleton.not.mpr (portReg_ne p k h)

/-! ### Views -/

/-- The view `F` shows no register but those at `as`, which lie in the first pages of front ports. -/
structure ShowsFront {α : Type} (F : State → α) (as : List Nat) : Prop extends Shows F as where
  front : ∀ a ∈ as, OnFrontPage a

/-- The view shows neither what a port does at run time nor pins. -/
structure ShowsNoPort {α : Type} (F : State → α) (as : List Nat) : Prop extends ShowsFront F as where
  ports : ∀ s x, F { s with ports := x } = F s
  pins : ∀ s x, F { s with pins := x } = F s

/-- What is read from a register in the first page of a front port. -/
theorem showsNoPort_word {α : Type} {a : Nat} (ha : OnFrontPage a) (g : Nat → α) : ShowsNoPort (fun s => g (rd s a)) [a] where
  word s _ v hb := congrArg g (rd_wr_other s v fun e => hb (by simp [e]))
  counters _ _ := rfl
  errors _ _ := rfl
  out _ _ := rfl
  apart b hb := by
    obtain ⟨hlo, hhi, -⟩ := ha
    rw [List.mem_singleton.mp hb]
    omega
  front b hb := List.mem_singleton.mp hb ▸ ha
  ports _ _ := rfl
  pins _ _ := rfl

/-- A view without registers. -/
theorem showsFront_of_shows {α : Type} {F : State → α} (h : Shows F []) : ShowsFront F [] where
  toShows := h
  front _ hb := absurd hb List.not_mem_nil

theorem showsNoPort_stored : ShowsNoPort stored [] where
  toShowsFront := showsFront_of_shows shows_stored
  ports _ _ := rfl
  pins _ _ := rfl

/-- What a port does at run time is in no register. -/
theorem showsFront_portAt (p : Nat) : ShowsFront (fun s => portAt s p) [] := showsFront_of_shows (shows_of_rfl fun _ _ _ _ _ => rfl)

/-- A view that no word of a lane page reaches. -/
theorem view_setLanes {α : Type} {F : State → α} (h : ∀ s l v, F (wr s (laneReg l 0x44) v) = F s) (s : State) (p hi lo v : Nat) :
    F (setLanes s p hi lo v) = F s := view_foldl (fun _ _ => h _ _ _) _ s

theorem view_showTraining {α : Type} {F : State → α} (h : ∀ s l v, F (wr s (laneReg l 0x44) v) = F s) (s : State) (p : Nat) :
    F (showTraining s p) = F s := view_ite ((h _ _ _).trans (view_setLanes h _ _ _ _ _)) (view_setLanes h _ _ _ _ _)

namespace ShowsFront

variable {α : Type} {F : State → α} {as : List Nat} (h : ShowsFront F as)
include h

theorem not_mem_lane (l off : Nat) : laneReg l off ∉ as := fun hm => by
  obtain ⟨-, hhi, -⟩ := h.front _ hm
  unfold laneReg at hhi
  omega

/-- No register of a port's other three pages is shown. -/
theorem not_mem_page (p : Nat) {k off : Nat} (hk : k % 4 ≠ 0) (ho : off < 0x1000) : portReg p k off ∉ as := fun hm => by
  obtain ⟨-, -, hpage⟩ := h.front _ hm
  unfold portReg at hpage
  omega

theorem laneWord (s : State) (l v : Nat) : F (wr s (laneReg l 0x44) v) = F s := h.word s _ v (h.not_mem_lane _ _)

theorem setLanes (s : State) (p hi lo v : Nat) : F (setLanes s p hi lo v) = F s := view_setLanes h.laneWord s p hi lo v

theorem lanesOff (s : State) (p : Nat) : F (lanesOff s p) = F s := view_foldl (fun _ _ => h.laneWord _ _ _) _ s

theorem showTraining (s : State) (p : Nat) : F (showTraining s p) = F s := view_showTraining h.laneWord s p

theorem followPreempt (s : State) (p : Nat) : F (followPreempt s p) = F s :=
  view_ite rfl ((h.raise (p := .port p 1) (h.not_mem_page p (k := 1) (by decide) (by decide)) _ _).trans
    (h.setFlag (h.not_mem_page p (by decide) (by decide)) _ _ _))

theorem showMode {p : Nat} (ha : portReg p 0 0x4C ∉ as) (s : State) (rate : Option Nat) : F (showMode s p rate) = F s :=
  (h.setFlag (h.not_mem_page p (by decide) (by decide)) _ _ _).trans ((h.setFld ha _ _ _ _).trans (h.setFld ha _ _ _ _))

theorem loseSignals (s : State) (p lanes : Nat) : F (loseSignals s p lanes) = F s :=
  view_foldl (fun _ l => view_ite ((h.raise (p := .lane l) (h.not_mem_lane l 0x10) _ _).trans
    (h.setFld (h.not_mem_lane _ _) _ _ _ _)) rfl) _ s

end ShowsFront

namespace ShowsNoPort

variable {α : Type} {F : State → α} {as : List Nat} (h : ShowsNoPort F as)
include h

theorem setPort (s : State) (p : Nat) (v : Port) : F (setPort s p v) = F s := h.ports s _

theorem lockLane (s : State) (l : Nat) : F (lockLane s l) = F s := view_ite rfl (h.pins s _)

theorem startVerify (s : State) (p : Nat) : F (startVerify s p) = F s :=
  (h.followPreempt _ _).trans ((h.setFld (h.not_mem_page p (by decide) (by decide)) _ _ _ _).trans (h.setPort _ _ _))

theorem fcEmit (p : Nat) (s : State) (d : Nat × Nat) : F (fcEmit p s d) = F s :=
  (h.emit _ _).trans ((h.count _ _ _).trans (h.setPort _ _ _))

theorem fcFlush (s : State) (p : Nat) : F (fcFlush s p) = F s := view_ite rfl ((view_foldl (h.fcEmit p) _ _).trans (h.setPort _ _ _))

theorem fcSend (s : State) (p k quanta : Nat) : F (fcSend s p k quanta) = F s := (h.fcFlush _ _).trans (h.setPort _ _ _)

theorem fcFollow (s : State) (p k : Nat) : F (fcFollow s p k) = F s := by
  have marked : ∀ j b, F (Machine.setFlag s (portReg p 1 0x5C) (8 + j) b) = F s := fun _ _ =>
    h.setFlag (h.not_mem_page p (by decide) (by decide)) _ _ _
  exact view_ite rfl (view_ite (view_ite ((h.fcSend _ _ _ _).trans (marked _ _)) rfl)
    (view_ite ((h.fcSend _ _ _ _).trans (marked _ _)) rfl))

theorem fcFollowAll (s : State) (p : Nat) : F (fcFollowAll s p) = F s := view_foldl (fun u k => h.fcFollow u p k) _ s

theorem showPause (s : State) (p : Nat) : F (showPause s p) = F s := h.setFld (h.not_mem_page p (by decide) (by decide)) _ _ _ _

theorem fcClear (s : State) (p : Nat) : F (fcClear s p) = F s :=
  (h.setPort _ _ _).trans (h.setFld (h.not_mem_page p (by decide) (by decide)) _ _ _ _)

end ShowsNoPort

/-! ### PORT_STATUS under the mode shown -/

/-- The mode shown leaves the bits of PORT_STATUS above it alone (R48). -/
theorem fld_showMode_status (s : State) (p : Nat) (rate : Option Nat) (hi : Nat) {lo : Nat} (h : 24 ≤ lo) :
    fld (showMode s p rate) (portReg p 0 0x4C) hi lo = fld s (portReg p 0 0x4C) hi lo := by
  have hne : portReg p 0 0x4C ≠ portReg p 1 0xD4 := by unfold portReg; omega
  unfold showMode
  rw [fld_setFlag_other _ _ _ _ _ _ _ (by decide) (.inl hne), fld_setFld_other _ _ _ _ _ _ _ _ (by decide) (by decide) (by omega),
    fld_setFld_other _ _ _ _ _ _ _ _ (by decide) (by decide) (by omega)]

theorem flag_showMode_status (s : State) (p : Nat) (rate : Option Nat) {k : Nat} (h : 24 ≤ k) :
    flag (showMode s p rate) (portReg p 0 0x4C) k = flag s (portReg p 0 0x4C) k := by
  have hne : portReg p 0 0x4C ≠ portReg p 1 0xD4 := by unfold portReg; omega
  unfold showMode
  rw [flag_setFlag _ _ _ _ _ _ (by decide), if_neg fun e => hne e.1, flag_setFld _ _ _ _ _ _ _ (by decide) (by decide), if_neg (by omega),
    flag_setFld _ _ _ _ _ _ _ (by decide) (by decide), if_neg (by omega)]

/-- PORT_STATUS shows the mode in force (R48). -/
theorem fld_showMode_mode (s : State) (p rate : Nat) : fld (showMode s p (some rate)) (portReg p 0 0x4C) 23 21 = rate % 8 := by
  have hne : portReg p 0 0x4C ≠ portReg p 1 0xD4 := by unfold portReg; omega
  unfold showMode
  rw [fld_setFlag_other _ _ _ _ _ _ _ (by decide) (.inl hne),
    fld_setFld_other _ _ _ _ _ _ _ _ (by decide) (by decide) (.inr (.inr (by decide))), fld_setFld_same _ _ _ _ _ (by decide) (by decide)]
  rfl

/-- The state of a port is a field of PORT_STATUS (R59). -/
theorem portState_eq_fld (s : State) (p : Nat) : portState s p = fld s (portReg p 0 0x4C) 31 29 := by
  unfold portState portReg
  congr 1
  omega

theorem portState_setPortState_same (s : State) (p : Nat) {v : Nat} (h : v < 8) : portState (setPortState s p v) p = v := by
  rw [portState_eq_fld, setPortState, fld_setFld_same _ _ _ _ _ (by decide) (by decide)]
  exact Nat.mod_eq_of_lt h

/-- Another bit of PORT_STATUS keeps the state. -/
theorem portState_setFlag_status (s : State) (p : Nat) {k : Nat} (h : k < 29) (b : Bool) :
    portState (setFlag s (portReg p 0 0x4C) k b) p = portState s p := by
  rw [portState_eq_fld, portState_eq_fld, fld_setFlag_other _ _ _ _ _ _ _ (by omega) (.inr (.inr h))]

theorem portState_showMode (s : State) (p : Nat) (rate : Option Nat) : portState (showMode s p rate) p = portState s p := by
  rw [portState_eq_fld, portState_eq_fld, fld_showMode_status _ _ _ _ (by decide)]

/-- The state of a port is in its PORT_STATUS alone. -/
theorem showsNoPort_portState (port : Fin 64) : ShowsNoPort (fun s => portState s port) [portReg port 0 0x4C] := by
  simp only [portState_eq_fld]
  exact showsNoPort_word (onFrontPage_portReg port (by decide)) (bits · 31 29)

/-- A bit of a register in the first page of a port. -/
theorem showsNoPort_flag (port : Fin 64) {off : Nat} (h : off < 0x1000) (k : Nat) :
    ShowsNoPort (fun s => flag s (portReg port 0 off) k) [portReg port 0 off] :=
  showsNoPort_word (onFrontPage_portReg port h) (bitAt · k)

/-! ### ENABLE written -/

/-- The state whose PORT_CONFIG.ENABLE of port `p` an admitted write of `src` has made `on`. -/
def enableWritten (s : State) (src : Source) (p : Nat) (on : Bool) : State :=
  setFlag (dropHeld s src (portReg p 0 0x40)) (portReg p 0 0x40) 31 on

theorem atRegister_enable (s : State) (src : Source) (port : Fin 64) (on : Bool) :
    setFlag (atRegister s src (portReg port 0 0x40)) (portReg port 0 0x40) 31 on = enableWritten s src port on := by
  rw [atRegister_portReg s src port (by decide), enableWritten]

theorem portState_enableWritten (s : State) (src : Source) (port : Fin 64) (on : Bool) :
    portState (enableWritten s src port on) port = portState s port :=
  (showsNoPort_portState port).setFlag (portReg_not_mem _ _ (by decide)) _ _ _

theorem flag_enableWritten (s : State) (src : Source) (p : Nat) (on : Bool) : flag (enableWritten s src p on) (portReg p 0 0x40) 31 = on :=
  flag_setFlag_same _ _ _ _ (by decide)

/-- The other bits of PORT_CONFIG are as they were. -/
theorem flag_enableWritten_other (s : State) (src : Source) (p : Nat) (on : Bool) {k : Nat} (h : k ≠ 31) :
    flag (enableWritten s src p on) (portReg p 0 0x40) k = flag s (portReg p 0 0x40) k :=
  (flag_setFlag _ _ _ _ _ _ (by decide)).trans (if_neg fun e => h e.2)

end Sys2Proof.Machine
end

section
/-! Ports that come up (R47, R48, R56, R59). -/

namespace Sys2Proof.Machine

/-! ### What is beside the registers -/

/-- The state but for its registers. -/
def besideRegs (s : State) : State := { s with regs := [] }

theorem eq_of_besideRegs {s t : State} (h : besideRegs t = besideRegs s) : t = { s with regs := t.regs } :=
  congrArg (fun u => { u with regs := t.regs }) h

/-- The state but for its registers and what its ports do at run time. -/
def besidePorts (s : State) : State := { s with regs := [], ports := [] }

theorem eq_of_besidePorts {s t : State} (h : besidePorts t = besidePorts s) : t = { s with regs := t.regs, ports := t.ports } :=
  congrArg (fun u => { u with regs := t.regs, ports := t.ports }) h

theorem besidePorts_showMode (s : State) (p : Nat) (rate : Option Nat) : besidePorts (showMode s p rate) = besidePorts s := rfl

/-! ### The enable (R47) -/

/-- A state with the same port states and widths has the same conflicts. -/
theorem laneConflict_congr {s t : State} (hs : ∀ q, portState t q = portState s q) (hp : t.ports = s.ports) (p w : Nat) :
    laneConflict t p w = laneConflict s p w := by
  unfold laneConflict
  congr 1
  funext q
  rw [hs q, portAt, portAt, hp]

theorem laneConflict_enableWritten (s : State) (src : Source) (p : Nat) (on : Bool) (q w : Nat) :
    laneConflict (enableWritten s src p on) q w = laneConflict s q w := by
  have hs : ∀ r, portState (enableWritten s src p on) r = portState s r := fun r =>
    fld_setFlag_other _ _ _ _ _ _ _ (by decide) (.inl (by unfold portReg; omega))
  exact laneConflict_congr hs rfl q w

/-- The other fields of PORT_CONFIG are as they were. -/
theorem fld_enableWritten_width (s : State) (src : Source) (p : Nat) (on : Bool) :
    fld (enableWritten s src p on) (portReg p 0 0x40) 26 25 = fld s (portReg p 0 0x40) 26 25 :=
  fld_setFlag_other _ _ _ _ _ _ _ (by decide) (.inr (.inl (by decide)))

theorem fld_enableWritten_lane (s : State) (src : Source) (port : Fin 64) (on : Bool) :
    fld (enableWritten s src port on) (laneReg port 0x40) 2 0 = fld s (laneReg port 0x40) 2 0 := by
  have hp := port.isLt
  exact fld_setFlag_other _ _ _ _ _ _ _ (by decide) (.inl (by unfold portReg laneReg; omega))

/-- An enable of a DISABLED port that is not shed is tried at once (R47, R60). -/
theorem exec_portEnable {s : State} {src : Source} {port : Fin 64} (h : Admitted s src (portReg port 0 0x40))
    (he : flag s (portReg port 0 0x40) 31 = false) (h0 : portState s port = 0) (hs : flag s (portReg port 0 0x4C) 27 = false) :
    exec (.portEnable src port) s = .next (enablePort (enableWritten s src port true) port) := by
  have h0 := (portState_enableWritten s src port true).trans h0
  have hs : flag (enableWritten s src port true) (portReg port 0 0x4C) 27 = false :=
    ((showsNoPort_flag port (by decide) 27).setFlag (portReg_not_mem _ _ (by decide)) _ _ _).trans hs
  refine congrArg done ((guarded_of_admitted h _).trans ?_)
  unfold writeEnable
  simp only [atRegister_enable, flag_atRegister, he, h0, hs, Bool.not_true, Bool.not_false, Bool.false_eq_true, and_self, if_true, if_false]

/-- The state of a port whose enable starts training at width `w` and lane rate `r`, before its lanes show it. -/
def enabledAs (s : State) (p w r : Nat) : State :=
  let u := setFlag (setPortState s p 1) (portReg p 0 0x4C) 26 false
  let u := setPort u p { portAt u p with width := w, enabledRate := r, reconfigure := false, idleSince := now u }
  showMode u p (if flag u (portReg p 0 0x40) 30 then none else some r)

/-- An enable in a legal configuration without conflict starts training (R47, R48). -/
theorem enablePort_of_legal {s : State} {p w r : Nat} (hb : s.colophon.lifecycle ≠ 0) (hx : s.colophon.lifecycle ≠ 4)
    (hw : widthOf (fld s (portReg p 0 0x40) 26 25) = w) (hr : fld s (laneReg p 0x40) 2 0 = r) (hp : p % w = 0)
    (hc : laneConflict s p w = false) (hm : modeSupported w r = true) :
    enablePort s p = showTraining (setLanes (enabledAs s p w r) p 31 31 1) p := by
  unfold enablePort
  simp only [hw, hr]
  rw [if_neg (by omega), if_neg (by simp [hp, hc, hm])]
  rfl

/-- A refused enable shows CONFLICT on a DISABLED port (R47). -/
theorem enablePort_of_conflict {s : State} {p : Nat} (hb : s.colophon.lifecycle ≠ 0) (hx : s.colophon.lifecycle ≠ 4)
    (hc : laneConflict s p (widthOf (fld s (portReg p 0 0x40) 26 25)) = true) :
    enablePort s p = setFlag (showMode (setPortState s p 0) p none) (portReg p 0 0x4C) 26 true := by
  unfold enablePort
  dsimp only
  rw [if_neg (by omega), if_pos (.inr (.inl hc))]

/-- What a port shows in TRAINING after an enable at width `w`. -/
structure Training (s t : State) (p w : Nat) : Prop where
  state : portState t p = 1
  conflict : flag t (portReg p 0 0x4C) 26 = false
  enable : flag t (portReg p 0 0x40) 31 = flag s (portReg p 0 0x40) 31
  width : (portAt t p).width = w
  beside : besidePorts t = besidePorts s

theorem enabledAs_training (s : State) (port : Fin 64) (w r : Nat) : Training s (enabledAs s port w r) port w := by
  have henable := showsNoPort_flag port (off := 0x40) (by decide) 31
  refine ⟨?_, ?_, ?_, ?_, besidePorts_showMode _ _ _⟩
  · rw [enabledAs, portState_showMode, (showsNoPort_portState port).setPort, portState_setFlag_status _ _ (by decide),
      portState_setPortState_same _ _ (by decide)]
  · rw [enabledAs, flag_showMode_status _ _ _ (by decide), (showsNoPort_flag port (by decide) 26).setPort,
      flag_setFlag_same _ _ _ _ (by decide)]
  · refine (henable.showMode (portReg_not_mem _ _ (by decide)) _ _).trans ((henable.setPort _ _ _).trans ?_)
    exact (henable.setFlag (portReg_not_mem _ _ (by decide)) _ _ _).trans (henable.setFld (portReg_not_mem _ _ (by decide)) _ _ _ _)
  · exact congrArg Port.width (((showsFront_portAt port).showMode List.not_mem_nil _ _).trans (portAt_setPort_same _ _ _))

/-- The lanes that train show nothing of their port. -/
theorem Training.lanes {s t : State} {port : Fin 64} {w : Nat} (h : Training s t port w) :
    Training s (showTraining (setLanes t port 31 31 1) port) port w := by
  have shown : ∀ {α : Type} {F : State → α} {as : List Nat}, ShowsFront F as →
      F (showTraining (setLanes t port 31 31 1) port) = F t := fun h => (h.showTraining _ _).trans (h.setLanes _ _ _ _ _)
  obtain ⟨hstate, hconflict, henable, hwidth, hbeside⟩ := h
  refine ⟨?_, ?_, ?_, ?_, ?_⟩
  · exact (shown (showsNoPort_portState port).toShowsFront).trans hstate
  · exact (shown (showsNoPort_flag port (by decide) 26).toShowsFront).trans hconflict
  · exact (shown (showsNoPort_flag port (by decide) 31).toShowsFront).trans henable
  · exact (congrArg Port.width (shown (showsFront_portAt port))).trans hwidth
  · exact ((view_showTraining (fun _ _ _ => rfl) _ _).trans (view_setLanes (fun _ _ _ => rfl) _ _ _ _ _)).trans hbeside

/-! ### An established link (R48, R59) -/

/-- The state of a port that has come UP, with its mode in force shown. -/
def linkMode (s : State) (p rate : Nat) : State :=
  showMode (setFlag (setPortState s p 2) (portReg p 0 0x4C) 28 true) p (some rate)

/-- The latencies, the lanes and the run-time state of a link that has come up. -/
def linkRecord (s : State) (p rxLat txLat : Nat) (lpi : Bool) : State :=
  let u := wr (wr s (portReg p 3 0x54) rxLat) (portReg p 3 0x58) txLat
  let u := (portLanes u p).foldl lockLane u
  let u := setLanes (setLanes u p 30 28 7) p 27 25 3
  setPort u p { portAt u p with lpiAgreed := lpi, idleSince := now u }

/-- The verify process and the flow control of a link that has come up (R229, R54). -/
def linkFollow (s : State) (p : Nat) : State := fcFollowAll (startVerify s p) p

namespace ShowsNoPort

variable {α : Type} {F : State → α} {as : List Nat} (h : ShowsNoPort F as)
include h

theorem linkMode {p : Nat} (hs : portReg p 0 0x4C ∉ as) (s : State) (rate : Nat) : F (linkMode s p rate) = F s :=
  (h.showMode hs _ _).trans ((h.setFlag hs _ _ _).trans (h.setFld hs _ _ _ _))

theorem linkRecord (s : State) (p rxLat txLat : Nat) (lpi : Bool) : F (linkRecord s p rxLat txLat lpi) = F s := by
  refine (h.setPort _ _ _).trans ((h.setLanes _ _ _ _ _).trans ((h.setLanes _ _ _ _ _).trans ((view_foldl h.lockLane _ _).trans ?_)))
  exact (h.word _ _ _ (h.not_mem_page p (by decide) (by decide))).trans (h.word _ _ _ (h.not_mem_page p (by decide) (by decide)))

theorem linkFollow (s : State) (p : Nat) : F (linkFollow s p) = F s := (h.fcFollowAll _ _).trans (h.startVerify _ _)

end ShowsNoPort

/-- A port that trains comes UP with a link of its width, at the rate of the enable or, negotiated, a lower one (R48, R59). -/
theorem linkUp_of_training {s : State} {p rate : Nat} (h : portState s p = 1) (hm : modeSupported (portAt s p).width rate = true)
    (hr : rate ≤ (portAt s p).enabledRate) (ha : flag s (portReg p 0 0x40) 30 = false → rate = (portAt s p).enabledRate)
    (rxLat txLat : Nat) (lpi : Bool) : linkUp s p rate rxLat txLat lpi =
      linkFollow (raise (linkRecord (linkMode s p rate) p rxLat txLat (lpi && flag s (portReg p 0 0x40) 30)) (.port p 0) 0) p := by
  refine (if_neg ?_).trans ?_
  · rintro (⟨hn, -⟩ | hn | hn | ⟨hn, hne⟩ | ⟨hn, -⟩)
    · exact hn h
    · simp [hm] at hn
    · omega
    · exact hne (ha (by simpa using hn))
    · omega
  · simp only [h, if_true]
    rfl

/-- The modes of R45 have rates below 5. -/
theorem rate_lt_of_modeSupported {w r : Nat} (h : modeSupported w r = true) : r < 5 := by
  unfold modeSupported at h
  split at h <;> simp only [Bool.and_eq_true, decide_eq_true_eq, Bool.false_eq_true] at h <;> omega

/-- Once its mode is shown, a port that comes UP writes INT_STATUS alone of its first page (R59). -/
theorem ShowsNoPort.linkShown {α : Type} {F : State → α} {as : List Nat} (h : ShowsNoPort F as) {p : Nat} (hi : portReg p 0 0x10 ∉ as)
    (s : State) (rxLat txLat : Nat) (lpi : Bool) :
    F (Machine.linkFollow (Machine.raise (Machine.linkRecord s p rxLat txLat lpi) (.port p 0) 0) p) = F s :=
  (h.linkFollow _ _).trans ((h.raise (p := .port p 0) hi _ _).trans (h.linkRecord _ _ _ _ _))

/-- The tables are in no register or port. -/
theorem showsNoPort_tabs : ShowsNoPort State.tabs [] where
  toShowsFront := showsFront_of_shows (shows_of_rfl fun _ _ _ _ _ => rfl)
  ports _ _ := rfl
  pins _ _ := rfl

/-! ### The lanes of a failed training (R48) -/

/-- The causes and the state that a failed training shows. -/
theorem exec_trainingFailed {s : State} {port : Fin 64} (h : portState s port = 1 ∨ portState s port = 3) (cause : Fin 8) :
    exec (.trainingFailed port cause) s = .next (raise (raise
      (setFld s (laneReg (port.val + cause.val % (portAt s port).width) 0x44) 27 25 4)
      (.lane (port.val + cause.val % (portAt s port).width)) 1) (.port port 0) 5) := congrArg done (if_pos h)

/-- A lane's status is in no page's header. -/
theorem laneStatus_ne (l : Nat) (p : Page) : laneReg l 0x44 ≠ p.at_ 0x10 :=
  ne_at_of_block (by unfold laneReg; omega) p (by decide)

/-! ### Low Power Idle (R56) -/

/-- A port that may use Low Power Idle and has been idle for its time enters it (R56). -/
theorem exec_lpiEntry {s : State} {port : Fin 64} (hu : lpiUsable s port = true) (hn : nothingToSend s port = true)
    (ht : (portAt s port).idleSince + fld s (portReg port 1 0x60) 15 0 * 1000 ≤ now s) :
    exec (.lpiEntry port) s = .next (setLanes (setFlag s (portReg port 0 0x4C) 25 true) port 24 24 1) :=
  congrArg done (if_pos ⟨hu, hn, ht⟩)

/-- Settles O10: an enable trains or conflicts, a link of the port's width brings it UP, and a failure or an idle time shows its bits. -/
theorem portsComeUp : Obligations.PortsComeUp := by
  refine ⟨fun s src port h he h0 hs hb hx hp hc hm => ?_, fun s src port h he h0 hs hb hx hc => ?_,
    fun s port mode rx tx lpi h hm hr ha => ?_, fun s port cause h => ?_, fun s port hu hl hg hc hq hp hn ht => ?_⟩
  · have htrain := enablePort_of_legal (s := enableWritten s src port true) (p := port) hb hx
      (congrArg widthOf (fld_enableWritten_width s src port true)) (fld_enableWritten_lane s src port true) hp
      ((laneConflict_enableWritten _ _ _ _ _ _).trans hc) hm
    obtain ⟨hstate, hconflict, henable, hwidth, hbeside⟩ := (enabledAs_training (enableWritten s src port true) port
      (widthOf (fld s (portReg port 0 0x40) 26 25)) (fld s (laneReg port 0x40) 2 0)).lanes
    refine ⟨_, (exec_portEnable h he h0 hs).trans (congrArg done htrain), hstate, henable.trans (flag_enableWritten _ _ _ _), hconflict,
      hwidth, ?_⟩
    rw [eq_of_besidePorts hbeside]
    rfl
  · have hrefused := enablePort_of_conflict (s := enableWritten s src port true) (p := port) hb hx
      (by rwa [fld_enableWritten_width, laneConflict_enableWritten])
    refine ⟨_, (exec_portEnable h he h0 hs).trans (congrArg done hrefused), ?_, flag_setFlag_same _ _ _ _ (by decide)⟩
    rw [portState_setFlag_status _ _ (by decide), portState_showMode, portState_setPortState_same _ _ (by decide)]
  · have ht := congrArg done (linkUp_of_training h hm hr ha rx tx lpi)
    have hmode := showsNoPort_word (onFrontPage_portReg port (off := 0x4C) (by decide)) (bits · 23 21)
    have hcause := portReg_not_mem port 0 (m := 0x10) (n := 0x4C) (by decide)
    refine ⟨_, ht, ?_, ?_, ?_, ?_, ?_, ?_⟩
    · refine ((showsNoPort_portState port).linkShown hcause _ _ _ _).trans ((portState_showMode _ _ _).trans ?_)
      exact (portState_setFlag_status _ _ (by decide) _).trans (portState_setPortState_same _ _ (by decide))
    · refine ((showsNoPort_flag port (by decide) 28).linkShown hcause _ _ _ _).trans ((flag_showMode_status _ _ _ (by decide)).trans ?_)
      exact flag_setFlag_same _ _ _ _ (by decide)
    · refine (hmode.linkShown hcause _ _ _ _).trans ((fld_showMode_mode _ _ _).trans (Nat.mod_eq_of_lt ?_))
      exact (rate_lt_of_modeSupported hm).trans (by decide)
    · refine ((showsNoPort_flag port (off := 0x10) (by decide) 0).linkFollow _ _).trans ((flag_raise _ _ _ _ _ (by decide)).trans ?_)
      exact if_pos ⟨rfl, rfl⟩
    · exact (showsNoPort_tabs.linkShown List.not_mem_nil _ _ _ _).trans (showsNoPort_tabs.linkMode List.not_mem_nil _ _)
    · obtain ⟨-, hqueues⟩ := stored_iff.mp ((showsNoPort_stored.linkShown List.not_mem_nil (linkMode s port mode) rx tx
        (lpi && flag s (portReg port 0 0x40) 30)).trans (showsNoPort_stored.linkMode List.not_mem_nil _ _))
      exact hqueues
  · refine ⟨_, exec_trainingFailed h cause, ?_, ?_, rfl⟩
    · rw [flag_raise _ _ _ _ _ (by decide), if_pos ⟨rfl, rfl⟩]
    · refine (fld_raise_other _ _ _ _ _ (laneStatus_ne _ _)).trans ((fld_raise_other _ _ _ _ _ (laneStatus_ne _ _)).trans ?_)
      exact fld_setFld_same _ _ _ _ _ (by decide) (by decide)
  · have husable : lpiUsable s port = true := by simp [lpiUsable, hu, hl, hg, hc, hq, hp]
    refine ⟨_, exec_lpiEntry husable hn ht, ?_, ?_⟩
    · exact ((showsNoPort_flag port (by decide) 25).setLanes _ _ _ _ _).trans (flag_setFlag_same _ _ _ _ (by decide))
    · exact eq_of_besideRegs (view_setLanes (fun _ _ _ => rfl) _ _ _ _ _)

end Sys2Proof.Machine
end

section
/-! Ports that go down (R58, R59, R61, R62). -/

namespace Sys2Proof.Machine

/-! ### Entry to the flush of an empty port -/

/-- LINK_DOWN and its count, for a port that was UP or in HOLD (R59). -/
def noteDown (s : State) (p : Nat) (down : Bool) : State :=
  if down then tally (raise s (.port p 0) 2) (portReg p 2 0x90) else s

/-- The state in which an empty port has entered FLUSHING. -/
def flushEntry (s : State) (p : Nat) (down reconfigure : Bool) : State :=
  noteDown (setPort (setFlag (setPortState s p 4) (portReg p 0 0x54) 31 true) p { portAt s p with reconfigure }) p down

/-- What follows a flush's entry: the lanes go off where a new configuration waits, and preemption ends (R49, R228). -/
def linkFollows (s : State) (p : Nat) (reconfigure : Bool) : State := followPreempt (if reconfigure then lanesOff s p else s) p

namespace ShowsFront

variable {α : Type} {F : State → α} {as : List Nat} (h : ShowsFront F as)
include h

theorem noteDown {p : Nat} (hi : portReg p 0 0x10 ∉ as) (s : State) (down : Bool) : F (noteDown s p down) = F s :=
  view_ite ((h.tally (h.not_mem_page p (by decide) (by decide)) _).trans (h.raise (p := .port p 0) hi _ _)) rfl

theorem linkFollows (s : State) (p : Nat) (reconfigure : Bool) : F (linkFollows s p reconfigure) = F s :=
  (h.followPreempt _ _).trans (view_ite (h.lanesOff _ _) rfl)

end ShowsFront

namespace ShowsNoPort

variable {α : Type} {F : State → α} {as : List Nat} (h : ShowsNoPort F as)
include h

theorem flushEntry {p : Nat} (hi : portReg p 0 0x10 ∉ as) (hs : portReg p 0 0x4C ∉ as) (hb : portReg p 0 0x54 ∉ as) (s : State)
    (down reconfigure : Bool) : F (flushEntry s p down reconfigure) = F s :=
  (h.noteDown hi _ _).trans ((h.setPort _ _ _).trans ((h.setFlag hb _ _ _).trans (h.setFld hs _ _ _ _)))

end ShowsNoPort

theorem portAt_flushEntry (s : State) (p : Nat) (down reconfigure : Bool) :
    portAt (flushEntry s p down reconfigure) p = { portAt s p with reconfigure } :=
  ((showsFront_portAt p).noteDown List.not_mem_nil _ _).trans (portAt_setPort_same _ _ _)

/-- The queues under a port's node are in no register, counter or port (R204). -/
theorem showsNoPort_portQueues (p : Nat) : ShowsNoPort (fun s => portQueues s p) [] where
  toShowsFront := showsFront_of_shows (shows_of_rfl fun _ _ _ _ _ => rfl)
  ports _ _ := rfl
  pins _ _ := rfl

/-- A MAC without a selection has nothing to flush. -/
theorem flushSelected_of_none {s : State} {p : Nat} {express : Bool} (h : selectedOf s p express = none) :
    flushSelected s p express = s := by
  simp only [flushSelected, h]

/-- The flush of an empty port that asks for no FDB flush (R62, R63). -/
theorem startFlush_of_empty {s : State} {port : Fin 64} (he : PortEmpty s port) (hf : flag s (portReg port 0 0x40) 27 = false)
    (down reconfigure : Bool) :
    startFlush s port down reconfigure = linkFollows (flushEntry s port down reconfigure) port reconfigure := by
  obtain ⟨hq, hsel, hselp, -⟩ := he
  have hsel : ∀ x, selectedOf (flushEntry s port down reconfigure) port x = none := fun x => by
    cases x <;> simp only [selectedOf, portAt_flushEntry, hsel, hselp, ite_self]
  have hq : portQueues (flushEntry s port down reconfigure) port = [] :=
    ((showsNoPort_portQueues port).flushEntry List.not_mem_nil List.not_mem_nil List.not_mem_nil _ _ _).trans hq
  have hauto := showsNoPort_flag port (off := 0x40) (by decide) 27
  have hf : flag (linkFollows (flushEntry s port down reconfigure) port reconfigure) (portReg port 0 0x40) 27 = false :=
    (hauto.linkFollows _ _ _).trans ((hauto.flushEntry (portReg_not_mem _ _ (by decide)) (portReg_not_mem _ _ (by decide))
      (portReg_not_mem _ _ (by decide)) _ _ _).trans hf)
  have hstart : startFlush s port down reconfigure =
      (let u := flushSelected (flushSelected (flushEntry s port down reconfigure) port true) port false
      let u := linkFollows ((portQueues u port).foldl (fun s q => flushQueue s port q) u) port reconfigure
      if flag u (portReg port 0 0x40) 27 ∧ u.firmware.running ∧ !standsBy u then flushBegin u 0 (flushPortValue u port) false none none
      else u) := rfl
  simp only [hstart, flushSelected_of_none (hsel _), hq, List.foldl_nil, hf, Bool.false_eq_true, false_and, if_false]

/-- What an empty port shows in FLUSHING, and what stays. -/
structure Flushing (s t : State) (p : Nat) (reconfigure : Bool) : Prop where
  state : portState t p = 4
  busy : flag t (portReg p 0 0x54) 31 = true
  runtime : portAt t p = { portAt s p with reconfigure }
  enable : flag t (portReg p 0 0x40) 31 = flag s (portReg p 0 0x40) 31
  stored : stored t = stored s

theorem startFlush_flushing {s : State} {port : Fin 64} (he : PortEmpty s port) (hf : flag s (portReg port 0 0x40) 27 = false)
    (down reconfigure : Bool) : Flushing s (startFlush s port down reconfigure) port reconfigure := by
  rw [startFlush_of_empty he hf]
  have hstate := showsNoPort_portState port
  have hbusy := showsNoPort_flag port (off := 0x54) (by decide) 31
  have henable := showsNoPort_flag port (off := 0x40) (by decide) 31
  refine ⟨?_, ?_, ?_, ?_, ?_⟩
  · refine (hstate.linkFollows _ _ _).trans ((hstate.noteDown (portReg_not_mem _ _ (by decide)) _ _).trans ?_)
    refine (hstate.setPort _ _ _).trans ((hstate.setFlag (portReg_not_mem _ _ (by decide)) _ _ _).trans ?_)
    exact portState_setPortState_same _ _ (by decide)
  · refine (hbusy.linkFollows _ _ _).trans ((hbusy.noteDown (portReg_not_mem _ _ (by decide)) _ _).trans ((hbusy.setPort _ _ _).trans ?_))
    exact flag_setFlag_same _ _ _ _ (by decide)
  · exact ((showsFront_portAt port).linkFollows _ _ _).trans (portAt_flushEntry _ _ _ _)
  · exact (henable.linkFollows _ _ _).trans (henable.flushEntry (portReg_not_mem _ _ (by decide)) (portReg_not_mem _ _ (by decide))
      (portReg_not_mem _ _ (by decide)) _ _ _)
  · exact (showsNoPort_stored.linkFollows _ _ _).trans
      (showsNoPort_stored.flushEntry List.not_mem_nil List.not_mem_nil List.not_mem_nil _ _ _)

/-- A port that trains or holds off is flushed (R59). -/
theorem takeDown_of_linkless {s : State} {p : Nat} (h : portState s p = 1 ∨ portState s p = 3) :
    takeDown s p = startFlush s p (portState s p == 3) true := by
  obtain h | h := h <;> simp [takeDown, h]

theorem takeDown_flushing {s : State} {port : Fin 64} (hs : portState s port = 1 ∨ portState s port = 3) (he : PortEmpty s port)
    (hf : flag s (portReg port 0 0x40) 27 = false) : Flushing s (takeDown s port) port true := by
  rw [takeDown_of_linkless hs]
  exact startFlush_flushing he hf _ _

theorem takeDown_of_disabled {s : State} {p : Nat} (h : portState s p = 0) : takeDown s p = s := by simp only [takeDown, h]

/-! ### The wipe of a port reset -/

theorem ShowsNoPort.wipePort {α : Type} {F : State → α} {as : List Nat} (h : ShowsNoPort F as)
    (hs : ∀ s x, F { s with slices := x } = F s) (s : State) (p : Nat) : F (wipePort s p) = F s := by
  have page : ∀ {off}, off < 0x1000 → portReg p 1 off ∉ as := fun ho => h.not_mem_page p (by decide) ho
  refine (h.followPreempt _ _).trans ((h.setFld (page (by decide)) _ _ _ _).trans ((h.word _ _ _ (page (by decide))).trans ?_))
  exact (h.setPort _ _ _).trans ((h.setPort _ _ _).trans (hs _ _))

theorem gate_dropGates (s : State) (p : Nat) : (portAt (dropGates s p) p).gate = {} := by
  rw [dropGates, showGate, (showsFront_portAt p).word _ _ _ List.not_mem_nil, portAt_setPort_same]

/-- A port reset drops the gate lists (R410). -/
theorem gate_wipePort (s : State) (p : Nat) : (portAt (wipePort s p) p).gate = {} := by
  unfold wipePort
  rw [(showsFront_portAt p).followPreempt, (showsFront_portAt p).setFld List.not_mem_nil, gate_dropGates]

/-- PREEMPT_STATUS.ACTIVE lies beside the verify state. -/
theorem fld_followPreempt_verify (s : State) (p : Nat) :
    fld (followPreempt s p) (portReg p 1 0xD4) 29 27 = fld s (portReg p 1 0xD4) 29 27 := by
  unfold followPreempt
  dsimp only
  split
  · rfl
  · rw [fld_raise_other _ (.port p 1) _ _ _ (portReg_ne p 1 (by decide)),
      fld_setFlag_other _ _ _ _ _ _ _ (by decide) (.inr (.inl (by decide)))]

/-- A port reset puts the verify process at its start (R229). -/
theorem verify_wipePort (s : State) (p : Nat) : fld (wipePort s p) (portReg p 1 0xD4) 29 27 = 0 :=
  (fld_followPreempt_verify _ _).trans (fld_setFld_same _ _ _ _ _ (by decide) (by decide))

/-! ### A lost link -/

theorem truncate_of_none {s : State} {p : Nat} {express : Bool} (h : txOf s p express = none) : truncate s p express = s := by
  simp only [truncate, h]

/-- A MAC that receives nothing, with nothing in the wake FIFO, has no reception to end. -/
theorem receiveEnd_of_none {s : State} {p : Nat} {pre : Bool}
    (h : (if pre then (portAt s p).rxPreempt else (portAt s p).rxExpress) = none) (hw : (sliceAt s (sliceOf p)).wakeFifo = [])
    (rest : List Byte) (fault : FrameFault) (n : Nat) : receiveEnd s p pre rest fault n = s := by
  simp only [receiveEnd, h, hw, List.find?_nil]

/-- An empty port that leaves UP has nothing to cut off: its pauses, its flow control and Low Power Idle end (R53, R54, R56). -/
theorem leaveUp_of_empty {s : State} {p : Nat} (he : PortEmpty s p) : leaveUp s p =
    (let u := fcClear (showPause (setPort s p { portAt s p with pauseEnd := List.replicate 8 0 }) p) p
    setLanes (setLanes (setFlag (setFlag u (portReg p 0 0x4C) 25 false) (portReg p 0 0x4C) 24 false) p 24 23 0) p 28 28 0) := by
  obtain ⟨-, -, -, htx, htxp, hrx, hrxp, hw⟩ := he
  have htx : truncate s p true = s := truncate_of_none (express := true) htx
  have htxp : truncate s p false = s := truncate_of_none (express := false) htxp
  have hrx : receiveEnd s p false [] .symbol 0 = s := receiveEnd_of_none (pre := false) hrx hw _ _ _
  have hrxp : receiveEnd s p true [] .symbol 0 = s := receiveEnd_of_none (pre := true) hrxp hw _ _ _
  simp only [leaveUp, cutReception, htx, htxp, hrx, hrxp]

theorem ShowsNoPort.leaveUp {α : Type} {F : State → α} {as : List Nat} (h : ShowsNoPort F as) {s : State} {p : Nat}
    (hs : portReg p 0 0x4C ∉ as) (he : PortEmpty s p) : F (leaveUp s p) = F s := by
  rw [leaveUp_of_empty he]
  refine (h.setLanes _ _ _ _ _).trans ((h.setLanes _ _ _ _ _).trans ((h.setFlag hs _ _ _).trans ((h.setFlag hs _ _ _).trans ?_)))
  exact (h.fcClear _ _).trans ((h.showPause _ _).trans (h.setPort _ _ _))

theorem loseLink_of_up {s : State} {p : Nat} (h : portState s p = 2) : loseLink s p =
    (let u := setFlag (leaveUp s p) (portReg p 0 0x4C) 28 false
    let ms := min 1000 (fld u (portReg p 0 0x48) 9 0)
    if ms = 0 then startFlush u p true false
    else followPreempt (raise (setPort (setPortState u p 3) p { portAt u p with holdEnd := now u + ms * 1000000 }) (.port p 0) 1) p) :=
  if_neg fun hn => hn h

/-- What an empty port shows in HOLD, and what stays. -/
structure Holding (s t : State) (port : Fin 64) : Prop where
  state : portState t port = 3
  link : flag t (portReg port 0 0x4C) 28 = false
  expiry : (portAt t port).holdEnd = now s + min 1000 (fld s (portReg port 0 0x48) 9 0) * 1000000
  stored : stored t = stored s

/-- Steady time is in no register or port. -/
theorem showsNoPort_now : ShowsNoPort now [] where
  toShowsFront := showsFront_of_shows (shows_of_rfl fun _ _ _ _ _ => rfl)
  ports _ _ := rfl
  pins _ _ := rfl

/-- An empty port with a hold-off time that loses its link holds off (R59). -/
theorem loseLink_holding {s : State} {port : Fin 64} (h : portState s port = 2) (he : PortEmpty s port)
    (hh : fld s (portReg port 0 0x48) 9 0 ≠ 0) : Holding s (loseLink s port) port := by
  have left : ∀ {α : Type} {F : State → α} {as : List Nat}, ShowsNoPort F as → portReg port 0 0x4C ∉ as →
      F (setFlag (leaveUp s port) (portReg port 0 0x4C) 28 false) = F s := fun h ha => (h.setFlag ha _ _ _).trans (h.leaveUp ha he)
  have htime : fld (setFlag (leaveUp s port) (portReg port 0 0x4C) 28 false) (portReg port 0 0x48) 9 0 = fld s (portReg port 0 0x48) 9 0 :=
    left (showsNoPort_word (onFrontPage_portReg port (by decide)) (bits · 9 0)) (portReg_not_mem _ _ (by decide))
  rw [loseLink_of_up h]
  dsimp only
  rw [htime, if_neg (by omega)]
  have hport := showsFront_portAt port
  have hstate := showsNoPort_portState port
  have hlink := showsNoPort_flag port (off := 0x4C) (by decide) 28
  have hst := showsNoPort_stored
  have cause : ∀ off, off ≠ 0x10 → (Page.port port 0).at_ 0x10 ∉ [portReg port 0 off] := fun off ho =>
    portReg_not_mem port 0 ho.symm
  refine ⟨?_, ?_, ?_, ?_⟩
  · refine (hstate.followPreempt _ _).trans ((hstate.raise (cause _ (by decide)) _ _).trans ((hstate.setPort _ _ _).trans ?_))
    exact portState_setPortState_same _ _ (by decide)
  · refine (hlink.followPreempt _ _).trans ((hlink.raise (cause _ (by decide)) _ _).trans ((hlink.setPort _ _ _).trans ?_))
    rw [setPortState, flag_setFld _ _ _ _ _ _ _ (by decide) (by decide), if_neg (by omega)]
    exact flag_setFlag_same _ _ _ _ (by decide)
  · refine congrArg Port.holdEnd ((hport.followPreempt _ _).trans ((hport.raise List.not_mem_nil _ _).trans (portAt_setPort_same _ _ _)))
      |>.trans ?_
    rw [← left showsNoPort_now List.not_mem_nil]
  · refine (hst.followPreempt _ _).trans ((hst.raise List.not_mem_nil _ _).trans ((hst.setPort _ _ _).trans ?_))
    exact (hst.setFld List.not_mem_nil _ _ _ _).trans (left hst List.not_mem_nil)

/-- No lane of a port has lost its signal. -/
theorem loseSignals_zero (s : State) (p : Nat) : loseSignals s p 0 = s := by simp [loseSignals, bitAt]

/-- Signals of an UP port are lost with its link (R59). -/
theorem exec_linkLoss {s : State} {port : Fin 64} (h : portState s port = 2) (lanes : BitVec 8) :
    exec (.linkLoss port lanes) s = .next (loseLink (loseSignals s port lanes.toNat) port) := by
  have hup : portState (loseSignals s port lanes.toNat) port = 2 := ((showsNoPort_portState port).loseSignals _ _ _).trans h
  exact congrArg (fun u => done (loseLink u port)) (if_neg (by omega))

/-! ### The end of a flush -/

/-- The queues of a port at the end of its flush: without spill contexts, their catchwords aligned (R62). -/
def alignQueues (s : State) (p : Nat) : State :=
  (portQueues s p).foldl (fun s q =>
    let s := freeContext s q
    setQueue s q { queueAt s q with expected := (queueAt s q).next }) s

/-- A view of no queues does not show their alignment. -/
theorem view_alignQueues {α : Type} {F : State → α} (h : ∀ s q, F { s with queues := q } = F s) (s : State) (p : Nat) :
    F (alignQueues s p) = F s := by
  refine view_foldl (fun u q => (h _ _).trans ?_) _ s
  unfold freeContext
  split
  · exact view_ite (h u _) rfl
  · rfl

/-- The flush of a port that is not enabled ends with the port DISABLED (R62). -/
theorem finishFlush_of_disabled {s : State} {port : Fin 64} (h : flag s (portReg port 0 0x40) 31 = false) : finishFlush s port =
    (let u := raise (setFlag (alignQueues s port) (portReg port 0 0x54) 31 false) (.port port 0) 4
    showMode (setPortState (lanesOff u port) port 0) port none) := by
  have hen := showsNoPort_flag port (off := 0x40) (by decide) 31
  refine if_neg fun hn => absurd hn.1 ?_
  refine Bool.eq_false_iff.mp ((hen.raise (p := .port port 0) (portReg_not_mem _ _ (by decide)) _ _).trans ?_)
  exact (hen.setFlag (portReg_not_mem _ _ (by decide)) _ _ _).trans
    ((view_alignQueues (F := fun s => flag s (portReg port 0 0x40) 31) (fun _ _ => rfl) s port).trans h)

/-- The flush of a port that is not enabled leaves it DISABLED, and reaches no frame. -/
theorem finishFlush_disabled {s : State} {port : Fin 64} (h : flag s (portReg port 0 0x40) 31 = false) :
    portState (finishFlush s port) port = 0 ∧ flag (finishFlush s port) (portReg port 0 0x54) 31 = false ∧
      (finishFlush s port).frames = s.frames := by
  have hbusy := showsNoPort_flag port (off := 0x54) (by decide) 31
  have hframes : ShowsFront State.frames [] := showsFront_of_shows (shows_of_rfl fun _ _ _ _ _ => rfl)
  rw [finishFlush_of_disabled h]
  refine ⟨?_, ?_, ?_⟩
  · rw [portState_showMode, portState_setPortState_same _ _ (by decide)]
  · refine (hbusy.showMode (portReg_not_mem _ _ (by decide)) _ _).trans ((hbusy.setFld (portReg_not_mem _ _ (by decide)) _ _ _ _).trans ?_)
    refine (hbusy.lanesOff _ _).trans ((hbusy.raise (p := .port port 0) (portReg_not_mem _ _ (by decide)) _ _).trans ?_)
    exact flag_setFlag_same _ _ _ _ (by decide)
  · refine (hframes.showMode List.not_mem_nil _ _).trans ((hframes.setFld List.not_mem_nil _ _ _ _).trans ?_)
    refine (hframes.lanesOff _ _).trans ?_
    refine (hframes.raise List.not_mem_nil _ _).trans ((hframes.setFlag List.not_mem_nil _ _ _).trans ?_)
    exact view_alignQueues (fun _ _ => rfl) s port

theorem exec_flushDone {s : State} {port : Fin 64} (h : flushComplete s port = true) :
    exec (.flushDone port) s = .next (finishFlush s port) := congrArg done (if_pos h)

/-! ### The commands -/

theorem exec_portDisable {s : State} {src : Source} {port : Fin 64} (h : Admitted s src (portReg port 0 0x40)) :
    exec (.portDisable src port) s = .next (takeDown (enableWritten s src port false) port) := by
  rw [← atRegister_enable]
  exact congrArg done (guarded_of_admitted h _)

theorem exec_portReset {s : State} {src : Source} {port : Fin 64} (h : Admitted s src (portReg port 0 0x50)) (hs : portState s port ≠ 0) :
    exec (.portReset src port) s = .next (wipePort (takeDown (atRegister s src (portReg port 0 0x50)) port) port) := by
  have hs : portState (atRegister s src (portReg port 0 0x50)) port ≠ 0 := by rwa [portState, fld_atRegister]
  exact congrArg done ((guarded_of_admitted h _).trans (if_neg hs))

theorem exec_retrain {s : State} {src : Source} {port : Fin 64} (h : Admitted s src (portReg port 0 0x50)) :
    exec (.retrain src port) s = .next (loseLink (atRegister s src (portReg port 0 0x50)) port) := congrArg done (guarded_of_admitted h _)

theorem exec_holdoffExpiry {s : State} {port : Fin 64} (h : portState s port = 3) (hn : (portAt s port).holdEnd ≤ now s) :
    exec (.holdoffExpiry port) s = .next (startFlush s port true false) := congrArg done (if_pos ⟨h, hn⟩)

/-- Settles O11: each event that takes a port down is the step its rule names, and an empty port shows the state it enters. -/
theorem portsGoDown : Obligations.PortsGoDown := by
  refine ⟨fun s src port h => ?_, fun s src port h h0 => ?_, fun s src port h hs he hf => ?_, fun s src port h hs => ?_,
    fun s src port h hs he hf => ?_, fun s src port h _ => ?_, fun s src port h hs he hh => ?_, fun s port lanes hs => ?_,
    fun s port hs he hh => ?_, fun s port hs hn => ?_, fun s port hs hn he hf => ?_, fun s port hc hd => ?_⟩
  · exact ⟨_, exec_portDisable h, settled_execPortDisable src port s _ (exec_portDisable h), by rw [atRegister_enable]⟩
  · have hdown : portState (enableWritten s src port false) port = 0 := (portState_enableWritten _ _ _ _).trans h0
    have ht := exec_portDisable h
    rw [takeDown_of_disabled hdown] at ht
    exact ⟨_, ht, flag_enableWritten _ _ _ _, hdown, (RegsBut.of_regs_eq _ rfl).setFlag (by simp) _ _, rfl⟩
  · obtain ⟨hstate, hbusy, hport, hen, hst⟩ := takeDown_flushing (s := enableWritten s src port false)
      (by rwa [portState_enableWritten]) he (by rwa [flag_enableWritten_other _ _ _ _ (by decide)])
    obtain ⟨hframes, hqueues⟩ := stored_iff.mp hst
    exact ⟨_, exec_portDisable h, hen.trans (flag_enableWritten _ _ _ _), hstate, hbusy, congrArg Port.reconfigure hport,
      hframes, hqueues⟩
  · exact ⟨_, exec_portReset h hs, settled_execPortReset src port s _ (exec_portReset h hs), rfl⟩
  · have ht := exec_portReset h (by omega)
    rw [atRegister_portReg s src port (by decide)] at ht
    obtain ⟨hstate, hbusy, -, -, hst⟩ := takeDown_flushing (s := dropHeld s src (portReg port 0 0x50)) hs he hf
    obtain ⟨hframes, hqueues⟩ := stored_iff.mp ((showsNoPort_stored.wipePort (fun _ _ => rfl) _ port).trans hst)
    refine ⟨_, ht, ?_, ?_, gate_wipePort _ _, verify_wipePort _ _, hframes, hqueues⟩
    · exact ((showsNoPort_portState port).wipePort (fun _ _ => rfl) _ port).trans hstate
    · exact ((showsNoPort_flag port (by decide) 31).wipePort (fun _ _ => rfl) _ port).trans hbusy
  · exact ⟨_, exec_retrain h, settled_execRetrain src port s _ (exec_retrain h), rfl⟩
  · have ht := exec_retrain h
    rw [atRegister_portReg s src port (by decide)] at ht
    obtain ⟨hstate, hlink, hexp, hst⟩ := loseLink_holding (s := dropHeld s src (portReg port 0 0x50)) hs he hh
    obtain ⟨hframes, hqueues⟩ := stored_iff.mp hst
    exact ⟨_, ht, hstate, hlink, hexp, hframes, hqueues⟩
  · exact ⟨_, exec_linkLoss hs lanes, settled_execLinkLoss port lanes s _ (exec_linkLoss hs lanes), rfl⟩
  · have ht : exec (.linkLoss port 0) s = .next (loseLink s port) :=
      (exec_linkLoss hs 0).trans (congrArg (fun u => done (loseLink u port)) (loseSignals_zero s port))
    obtain ⟨hstate, hlink, hexp, hst⟩ := loseLink_holding hs he hh
    obtain ⟨hframes, hqueues⟩ := stored_iff.mp hst
    exact ⟨_, ht, hstate, hlink, hexp, hframes, hqueues⟩
  · exact ⟨_, exec_holdoffExpiry hs hn, settled_execHoldoffExpiry port s _ (exec_holdoffExpiry hs hn), rfl⟩
  · obtain ⟨hstate, hbusy, hport, -, hst⟩ := startFlush_flushing he hf true false
    obtain ⟨hframes, hqueues⟩ := stored_iff.mp hst
    exact ⟨_, exec_holdoffExpiry hs hn, hstate, hbusy, congrArg Port.reconfigure hport, hframes, hqueues⟩
  · obtain ⟨hstate, hbusy, hframes⟩ := finishFlush_disabled hd
    exact ⟨_, exec_flushDone hc, settled_execFlushDone port s _ (exec_flushDone hc), hstate, hbusy, hframes⟩

end Sys2Proof.Machine
end

section
/-! Pauses and generated flow control (R53, R54), and the peak of the shared buffer. -/

namespace Sys2Proof.Machine

/-! ### Pause timers -/

/-- A pause timer that has run out stops, and the classes paused are shown anew (R53). -/
theorem exec_pauseTimerExpiry {s : State} {port : Fin 64} {prio : Fin 8} (hr : nth (portAt s port).pauseEnd prio ≠ 0)
    (hn : nth (portAt s port).pauseEnd prio ≤ now s) : exec (.pauseTimerExpiry port prio) s =
      .next (showPause (setPort s port { portAt s port with pauseEnd := setNth (portAt s port).pauseEnd prio 0 }) port) :=
  congrArg done (if_pos ⟨hr, hn⟩)

theorem fld_showPause (s : State) (p : Nat) : fld (showPause s p) (portReg p 1 0x5C) 7 0 = pausedClasses s p % 256 :=
  fld_setFld_same _ _ _ _ _ (by decide) (by decide)

/-! ### Flow-control frames -/

/-- A port that is UP, with a free wire and nothing due, sends a flow-control frame at once (R54). -/
theorem fcSend_of_free {s : State} {p : Nat} (hu : portUp s p = true) (ho : egressOpen s = true) (hw : wireBusy s p = false)
    (hd : (portAt s p).fcDue = []) (k quanta : Nat) : fcSend s p k quanta =
      fcEmit p (setPort (setPort s p { portAt s p with fcDue := [(k, quanta)] }) p { portAt s p with fcDue := [] }) (k, quanta) := by
  have hport := portAt_setPort_same s p { portAt s p with fcDue := [(k, quanta)] }
  have hw : wireBusy (setPort s p { portAt s p with fcDue := [(k, quanta)] }) p = false := by rw [wireBusy, hport]; exact hw
  have hu : portUp (setPort s p { portAt s p with fcDue := [(k, quanta)] }) p = true := hu
  have ho : egressOpen (setPort s p { portAt s p with fcDue := [(k, quanta)] }) = true := ho
  simp only [fcSend, fcFlush, hd, List.filter_nil, List.nil_append, hu, ho, hw, hport, Bool.not_true, Bool.false_eq_true, or_self, if_false,
    List.foldl_cons, List.foldl_nil]

theorem regs_fcEmit (p : Nat) (s : State) (d : Nat × Nat) : (fcEmit p s d).regs = s.regs := by
  simp only [fcEmit, emit_regs, count_regs, setPort_regs]

/-- A flow-control frame leaves with the mode and the quanta of its port (R54). -/
theorem out_fcEmit (p : Nat) (s : State) (d : Nat × Nat) :
    (fcEmit p s d).out = s.out ++ [.control p (fcPayload (fcMode s p) d.1 d.2)] := by
  have hout : ∀ u, (count u (portCounter p 3) 1).out = u.out := fun u => view_count (fun _ _ => rfl) u _ _
  rw [fcEmit, emit_out, hout]
  rfl

/-- The time of a flow-control frame is kept for its priority (R54). -/
theorem fcSent_fcEmit (p : Nat) (s : State) (d : Nat × Nat) :
    (portAt (fcEmit p s d) p).fcSent = setNth (portAt s p).fcSent d.1 (now s + 1) :=
  congrArg Port.fcSent ((view_count (F := (portAt · p)) (fun _ _ => rfl) _ _ _).trans (portAt_setPort_same _ _ _))

/-- A flow-control state in force is refreshed when its interval has passed (R54). -/
theorem exec_fcRefresh {s : State} {port : Fin 64} {prio : Fin 8} (hf : fcInForce s port prio = true) (hg : fcGenerates s port prio = true)
    (hl : fcXon s port < fcLevel s port prio) (hu : portUp s port = true)
    (hn : nth (portAt s port).fcSent prio + ceilDiv (fld s (portReg port 1 0x58) 31 16 * 512) (max 1 (portGbps s port)) ≤ now s + 1) :
    exec (.fcRefresh port prio) s = .next (fcSend s port prio (fld s (portReg port 1 0x58) 15 0)) :=
  congrArg done (if_pos ⟨hu, hf, hg, hl, hn⟩)

/-! ### BUF_PEAK -/

/-- A write that reaches BUF_PEAK wakes no slice. -/
theorem atRegister_bufPeak (s : State) (src : Source) : atRegister s src 0x400058 = dropHeld s src 0x400058 :=
  atRegister_eq s src 0x400058 fun i k => by rw [show pageAt 0x400058 = some (.buffer 0) from rfl]; simp

theorem exec_bufPeakClear {s : State} {src : Source} (h : Admitted s src 0x400058) :
    exec (.bufPeakClear src) s = .next (setFld (dropHeld s src 0x400058) 0x400058 18 0 s.buffer.sharedUsed) := by
  rw [← atRegister_bufPeak]
  refine (congrArg done (guarded_of_admitted h clearPeak)).trans ?_
  rw [atRegister_bufPeak]
  rfl

/-- Settles O14: each event is the update of its register and of the port's timers, which the clauses read back. -/
theorem pausesAndFlowControl : Obligations.PausesAndFlowControl := by
  refine ⟨fun s port prio hr hn => ?_, fun s port prio hf hg hl hu ho hw hd hn => ?_, fun s src h => ?_⟩
  · exact ⟨_, exec_pauseTimerExpiry hr hn, congrArg Port.pauseEnd (portAt_setPort_same _ _ _), fld_showPause _ _,
      (RegsBut.of_regs_eq _ rfl).wr (by simp) _, rfl⟩
  · have hsend := fcSend_of_free hu ho hw hd prio (fld s (portReg port 1 0x58) 15 0)
    refine ⟨_, (exec_fcRefresh hf hg hl hu hn).trans (congrArg done hsend), regs_fcEmit _ _ _, out_fcEmit _ _ _, ?_⟩
    rw [fcSent_fcEmit, portAt_setPort_same]
    rfl
  · exact ⟨_, exec_bufPeakClear h, fld_setFld_same _ _ _ _ _ (by decide) (by decide), (RegsBut.of_regs_eq _ rfl).wr (by simp) _, rfl⟩

end Sys2Proof.Machine
end

section
/-! What a ring of the host and the stream of FDB changes leave alone (R108, R276, R342, R346): the step of each shows in the registers, in
what has left the block and in its own bookkeeping. -/

namespace Sys2Proof.Machine

/-! ### Rings of the host -/

/-- All that a ring of the host leaves alone. -/
def besideRing (s : State) : State := { s with regs := [], host := {}, out := [] }

theorem eq_of_besideRing {s t : State} (h : besideRing t = besideRing s) : t = { s with regs := t.regs, host := t.host, out := t.out } :=
  congrArg (fun u : State => { u with regs := t.regs, host := t.host, out := t.out }) h

theorem besideRing_signal (s : State) (r itr : Nat) : besideRing (signal s r itr) = besideRing s := view_ite rfl (view_ite rfl rfl)

theorem besideRing_eventWrite (s : State) (e : Nat) (ws : List Nat) : besideRing (eventWrite s e ws) = besideRing s :=
  (besideRing_signal _ _ _).trans (view_ite rfl rfl)

theorem besideRing_advanceHead (s : State) (r n : Nat) : besideRing (advanceHead s r n) = besideRing s :=
  (besideRing_signal _ _ _).trans (view_ite rfl rfl)

theorem besideRing_host (s : State) (x : HostIf) : besideRing { s with host := x } = besideRing s := rfl

theorem besideRing_writeCompletion (s : State) (c : Completion) : besideRing (writeCompletion s c) = besideRing s := by
  rw [writeCompletion, besideRing_host, besideRing_eventWrite]

/-- A completion is written to ring 6 or waits for it (R347). -/
theorem besideRing_complete (s : State) (op st tag r d : Nat) : besideRing (complete s op st tag r d) = besideRing s := by
  rw [complete]
  exact view_ite (besideRing_writeCompletion s _) (besideRing_host s _)

theorem regs_signal (s : State) (r itr : Nat) : (signal s r itr).regs = s.regs := view_ite rfl (view_ite rfl rfl)

/-- A write-back and a vector are in no register (R335). -/
theorem rd_signalled (s : State) (c : Prop) [Decidable c] (o : Out) (r itr b : Nat) :
    rd (signal (if c then s else emit s o) r itr) b = rd s b := by
  rw [rd, regs_signal]
  split <;> rfl

/-- Only HEAD of the ring moves among the registers (R336). -/
theorem regsBut_advanceHead (s : State) (r n : Nat) : RegsBut [ringBase r + 0xC] s (advanceHead s r n) :=
  fun b hb => (rd_signalled _ _ _ _ _ b).trans (rd_wr_other s _ fun e => hb (by simp [e]))

/-- Only TAIL of the event ring moves among the registers (R342). -/
theorem regsBut_eventWrite (s : State) (e : Nat) (ws : List Nat) : RegsBut [0xC050 + e * 0x20] s (eventWrite s e ws) :=
  fun b hb => (rd_signalled _ _ _ _ _ b).trans (rd_wr_other _ _ fun h => hb (by simp; omega))

theorem rd_host (s : State) (x : HostIf) (b : Nat) : rd { s with host := x } b = rd s b := rfl

/-- A completion moves TAIL of ring 6, or no register (R347). -/
theorem regsBut_complete (s : State) (op st tag r d : Nat) : RegsBut [0xC110] s (complete s op st tag r d) := by
  intro b hb
  unfold complete
  dsimp only
  split
  · rw [writeCompletion, rd_host]
    exact regsBut_eventWrite s 6 _ b hb
  · exact rd_host s _ b

theorem eventRingSize_bounds (s : State) (e : Nat) : 0 < eventRingSize s e ∧ eventRingSize s e < 2 ^ 32 :=
  ⟨Nat.two_pow_pos _, Nat.pow_lt_pow_right (by decide) (by omega)⟩

theorem ringHead_advanceHead (s : State) (n : Nat) : ringHead (advanceHead s 135 n) 135 = (ringHead s 135 + n) % ringSize s 135 := by
  obtain ⟨hpos, hlt⟩ := eventRingSize_bounds s 7
  refine (rd_signalled _ _ _ _ _ _).trans ((rd_wr_same s _ _).trans (Nat.mod_eq_of_lt ?_))
  exact (Nat.mod_lt _ hpos).trans hlt

theorem ringHead_complete (s : State) (op st tag r d : Nat) : ringHead (complete s op st tag r d) 135 = ringHead s 135 :=
  regsBut_complete s op st tag r d _ (by decide)

end Sys2Proof.Machine
end

section
/-! Learning, the plough and entries that the code cannot correct (R96, R99 to R105, R109). -/

namespace Sys2Proof.Machine

/-! ### Changes of the FDB -/

/-- All that an event, an error report and the stream of FDB changes leave alone: among others the tables, the learn queue and the
frames. -/
def besideEvents (s : State) : State :=
  { s with
    regs := [], host := {}, out := [], counters := {}, errors := {}, kettle := {}, twin := {}, fdb := { s.fdb with eventSeq := 0 } }

theorem shows_besideEvents : Shows besideEvents [] := shows_of_rfl fun _ _ _ _ _ => rfl

theorem showsNoKettle_besideEvents : ShowsNoKettle besideEvents := ⟨fun _ _ => rfl, fun _ _ => rfl⟩

theorem besideEvents_of_besideRing {s t : State} (h : besideRing t = besideRing s) : besideEvents t = besideEvents s :=
  (congrArg besideEvents h :)

theorem besideEvents_raise_count (s : State) (i : Nat) (p : Page) (k : Nat) : besideEvents (raise (count s i 1) p k) = besideEvents s :=
  (shows_besideEvents.raise List.not_mem_nil _ _).trans (shows_besideEvents.count _ _ _)

theorem besideEvents_sendDelta (s : State) (sub : Nat) (words : List Nat) : besideEvents (sendDelta s sub words) = besideEvents s :=
  view_ite rfl (showsNoKettle_besideEvents.kettleSend _ _ _ _ _)

theorem besideEvents_eventSeq (s : State) (n : Nat) : besideEvents { s with fdb := { s.fdb with eventSeq := n } } = besideEvents s := rfl

theorem besideEvents_learnEvent (s : State) (type source slot fid mac new old port : Nat) :
    besideEvents (learnEvent s type source slot fid mac new old port) = besideEvents s := by
  refine view_ite rfl (Eq.trans ?_ (besideEvents_eventSeq s ((s.fdb.eventSeq + 1) % 2 ^ 32)))
  exact view_ite (besideEvents_of_besideRing (besideRing_eventWrite _ _ _)) (besideEvents_raise_count _ _ _ _)

theorem besideEvents_evictEvent (s : State) (source slot new port : Nat) :
    besideEvents (evictEvent s source slot new port) = besideEvents s :=
  (besideEvents_learnEvent _ _ _ _ _ _ _ _ _).trans (besideEvents_raise_count _ _ _ _)

/-- A slot of the FDB is written, and the mate is told (R276). -/
theorem besideEvents_fdbWrite (s : State) (slot entry : Nat) :
    besideEvents (fdbWrite s slot entry) = besideEvents (setTab s 2 slot (BitVec.ofNat 512 entry)) := besideEvents_sendDelta _ _ _

theorem besideEvents_fdbRemove (s : State) (slot : Nat) : besideEvents (fdbRemove s slot) = besideEvents (setTab s 2 slot 0) :=
  besideEvents_sendDelta _ _ _

theorem besideEvents_setTab {s t : State} (h : besideEvents t = besideEvents s) (n i : Nat) (v : Image) :
    besideEvents (setTab t n i v) = besideEvents (setTab s n i v) := (congrArg (setTab · n i v) h :)

/-- An entry's stamp is device time (R100). -/
theorem freshEntry_congr {s t : State} (h : besideEvents t = besideEvents s) (flags fid mac dest : Nat) :
    freshEntry t flags fid mac dest = freshEntry s flags fid mac dest := by
  have hclock : t.clock = s.clock := (congrArg State.clock h :)
  rw [freshEntry, freshEntry, moveStamp, moveStamp, devNs, devNs, hclock]

/-! ### The learn serialiser (R99 to R101) -/

/-- The oldest request is taken; a standby discards it (R267). -/
theorem exec_learnRequest {s u : State} {r : LearnReq} {rest : List LearnReq} (hc : coreRuns s = true) (hq : s.fdb.learnQ = r :: rest)
    (hu : u = { s with fdb := { s.fdb with learnQ := rest } }) :
    exec .learnRequest s = .next (if standsBy s then u else learnDecide u r) := by
  subst hu
  refine congrArg done ?_
  rw [learnTake, hq]
  exact if_neg (by simp [hc])

/-- A key that no entry holds gets a fresh entry in the slot chosen (R100). -/
theorem learnDecide_of_absent {s : State} {r : LearnReq} {slot : Nat} {evicts : Bool} (hf : fdbFind s r.fid r.mac = none)
    (hp : fdbPlace s r.fid r.mac = some (slot, evicts)) : besideEvents (learnDecide s r) =
      besideEvents (setTab s 2 slot (BitVec.ofNat 512 (freshEntry s (2 ^ 127) r.fid r.mac r.dest))) := by
  have hevict : besideEvents (if evicts then evictEvent s r.slice slot r.dest r.port else s) = besideEvents s :=
    view_ite (besideEvents_evictEvent _ _ _ _ _) rfl
  simp only [learnDecide, hf, hp]
  rw [besideEvents_learnEvent, shows_besideEvents.count, besideEvents_fdbWrite, besideEvents_setTab hevict, freshEntry_congr hevict]

/-- An entry of the same destination starts to age again (R100). -/
theorem learnDecide_of_known {s : State} {r : LearnReq} {slot : Nat} (hf : fdbFind s r.fid r.mac = some slot)
    (hd : fdbDest (fdbEntry s slot) = r.dest) (hx : (fdbStatic (fdbEntry s slot) || fdbLocked (fdbEntry s slot)) = false) :
    learnDecide s r = fdbWrite s slot (putBits (fdbEntry s slot) 47 40 0) := by
  simp only [learnDecide, hf, hd, hx, if_true, Bool.false_eq_true, if_false]

/-- What a write of a table entry shows, and what it leaves of the learn queue and the frames. -/
theorem written_of_besideEvents {s t : State} {n i : Nat} {v : Image} (h : besideEvents t = besideEvents (setTab s n i v)) :
    t.fdb.learnQ = s.fdb.learnQ ∧ t.frames = s.frames ∧ tab t n i = v :=
  ⟨(congrArg (fun u : State => u.fdb.learnQ) h :), (congrArg State.frames h :),
    (congrArg (fun u : State => tab u n i) h :).trans (tab_setTab_same s n i v)⟩

/-! ### The plough (R102, R103) -/

/-- The slot that the plough visits next and the passes it has made. -/
def ploughPlace (s : State) : Nat × Nat := (s.fdb.slot, s.fdb.passes)

theorem ploughPlace_of_besideEvents {s t : State} (h : besideEvents t = besideEvents s) : ploughPlace t = ploughPlace s :=
  (congrArg ploughPlace h :)

/-- The swap of the visit before leaves the pass where it is. -/
theorem ploughPlace_ploughSwap (s : State) : ploughPlace (ploughSwap s) = ploughPlace s := by
  unfold ploughSwap
  split
  · rfl
  · next w _ =>
    refine view_ite rfl ?_
    split
    · rfl
    · refine (ploughPlace_of_besideEvents (besideEvents_learnEvent _ _ _ _ _ _ _ _ _)).trans ?_
      refine (ploughPlace_of_besideEvents (shows_besideEvents.count _ _ _)).trans ?_
      exact (ploughPlace_of_besideEvents (besideEvents_fdbRemove _ _)).trans rfl

/-- The visit of the next slot: the swap of the one before, and the slot's entry read for the swap to come. -/
def ploughMarked (s : State) : State :=
  { ploughSwap s with fdb := { (ploughSwap s).fdb with swap := ploughRead (ploughSwap s) s.fdb.slot } }

theorem ploughPlace_ploughMarked (s : State) : ploughPlace (ploughMarked s) = ploughPlace s := ploughPlace_ploughSwap s

theorem exec_ploughVisit {s : State} (hc : coreRuns s = true) (hf : s.fdb.flushes = []) (hd : ploughDue s ≤ now s) :
    exec .ploughVisit s = .next (if s.fdb.slot + 1 < 524288 then
      { ploughMarked s with fdb := { (ploughMarked s).fdb with slot := s.fdb.slot + 1 } } else ploughPass (ploughMarked s)) := by
  have hslot : (ploughSwap s).fdb.slot = s.fdb.slot := congrArg Prod.fst (ploughPlace_ploughSwap s)
  refine congrArg done ?_
  rw [ploughVisit, if_neg (by simp [hc, hf, hd])]
  dsimp only
  rw [hslot]
  rfl

/-! ### Entries that the code cannot correct (R109) -/

/-- An error of a table entry is counted, raised and reported beside whatever shows none of that. -/
theorem besideEvents_reportEntry (s : State) (n i : Nat) : besideEvents (reportEntry s n i) = besideEvents s := by
  rw [reportEntry, shows_besideEvents.report, shows_besideEvents.raise List.not_mem_nil, shows_besideEvents.tally List.not_mem_nil]

/-- INT_STATUS of the forwarding page shows the lost entry. -/
theorem flag_reportEntry (s : State) (n i : Nat) : flag (reportEntry s n i) 0x600010 4 = true := by
  rw [reportEntry, flag, (shows_rd (by decide) (by decide)).report, ← flag, flag_raise _ _ _ _ _ (by decide)]
  exact if_pos ⟨rfl, rfl⟩

theorem execTableEntryEcc_of_table {s : State} {n i : Nat} (hc : coreRuns s = true) (hn : n ≤ 0x0B) :
    exec (.tableEntryEcc n i) s = .next (entryEcc s n i) := by
  refine congrArg done ?_
  unfold eccError
  rw [if_neg (by simp [hc]), if_neg (by omega), if_neg (by omega), if_pos (by omega)]

/-- A correctable error is named by 0x100 more than its table (log 19). -/
theorem execTableEntryEcc_of_corrected {s : State} {n i : Nat} (hc : coreRuns s = true) (hn : n < 0x100) (hi : i < tableEntries n) :
    exec (.tableEntryEcc (0x100 + n) i) s = .next (report s 0x0101 (.fwd 0) [n, i]) := by
  refine congrArg done ?_
  unfold eccError
  rw [if_neg (by simp [hc]), if_neg (by omega), if_neg (by omega), if_neg (by omega), if_pos (by omega), Nat.add_sub_cancel_left,
    if_neg (by omega), correctedEcc]

theorem entryEcc_of_plain {s : State} {n i : Nat} (hi : i < tableEntries n) (hf : n ≠ 2) (hp : n ≠ 0x0C) :
    entryEcc s n i = invalidateEntry (reportEntry s n i) (eccTable n) i := by
  rw [entryEcc, if_neg (by omega), if_neg hf, if_neg hp]

theorem entryEcc_of_fdb {s : State} {i : Nat} (hi : i < tableEntries 2) {x : State}
    (hx : x = learnEvent (fdbRemove (reportEntry s 2 i) i) 8 0xA i 0 0 0 (fdbDest (fdbEntry (reportEntry s 2 i) i)) 0x7F) :
    entryEcc s 2 i = if standsBy x then loseSync x else x := by
  rw [entryEcc, if_neg (by omega), if_pos rfl, hx]

/-- All that an invalidated entry leaves alone. -/
def besideTables (s : State) : State := { s with tabs := [], tabsCur := [], tabsOld := [] }

theorem besideTables_invalidateEntry (s : State) (n i : Nat) : besideTables (invalidateEntry s n i) = besideTables s := view_ite rfl rfl

theorem tab_invalidateEntry (s : State) (n i : Nat) :
    tab (invalidateEntry s n i) n i = BitVec.ofNat 512 (invalidated n i (tabN s n i)) := by
  unfold invalidateEntry
  dsimp only
  split <;> exact tab_setTab_same s n i _

/-! ### Link aggregation (R96) -/

theorem exec_lagRedistribute {s : State} (hc : coreRuns s = true) (g : Fin 32) : exec (.lagRedistribute g) s =
    .next { s with fdb := { s.fdb with lag := sset (fun _ => []) s.fdb.lag g (lagEffective s g) } } :=
  congrArg done (if_pos hc)

/-- Settles O16: every change of the FDB is a write of its table beside events and the stream to the mate; the other clauses are the
updates of their commands read back. -/
theorem learningPloughAndEntryErrors : Obligations.LearningPloughAndEntryErrors := by
  refine ⟨?_, fun s hc hf hd hi => ?_, fun s hc hf hd hi => ?_, fun s g hc => ?_, fun s n i hc hn hi h2 => ?_, fun s u i hc hi hu => ?_,
    fun s n i hc hn hi => ?_⟩
  · intro s u r rest hc hq hu
    have ht := exec_learnRequest hc hq hu
    refine ⟨fun hs => ?_, fun hs => ?_, fun slot evicts hs hf hp => ?_, fun slot hs hf hd hx => ?_⟩
    · rw [ht, if_pos hs]
    all_goals rw [if_neg (by simp [hs])] at ht
    · exact ⟨_, ht, settled_execLearnRequest s _ ht, rfl⟩
    all_goals subst hu
    · exact ⟨_, ht, written_of_besideEvents (learnDecide_of_absent (s := { s with fdb := { s.fdb with learnQ := rest } }) hf hp)⟩
    · rw [learnDecide_of_known (s := { s with fdb := { s.fdb with learnQ := rest } }) hf hd hx] at ht
      exact ⟨_, ht, written_of_besideEvents (besideEvents_fdbWrite _ _ _)⟩
  · have ht := exec_ploughVisit hc hf hd
    have hpasses : (ploughMarked s).fdb.passes = s.fdb.passes := congrArg Prod.snd (ploughPlace_ploughMarked s)
    rw [if_pos hi] at ht
    exact ⟨_, ht, settled_execPloughVisit s _ ht, rfl, rfl, hpasses⟩
  · have ht := exec_ploughVisit hc hf hd
    have hpasses : (ploughMarked s).fdb.passes = s.fdb.passes := congrArg Prod.snd (ploughPlace_ploughMarked s)
    rw [if_neg (by omega)] at ht
    exact ⟨_, ht, settled_execPloughVisit s _ ht, rfl, congrArg (fun n => (n + 1) % 256) hpasses⟩
  · exact ⟨_, exec_lagRedistribute hc g, rfl, sget_sset_same _ _ _ _, fun h hh => sget_sset_other _ _ _ hh⟩
  · have hreport := besideEvents_reportEntry s n i
    have hentry : tabN (reportEntry s n i) (eccTable n) i = tabN s (eccTable n) i := (congrArg (tabN · (eccTable n) i) hreport :)
    have hbeside := besideTables_invalidateEntry (reportEntry s n i) (eccTable n) i
    refine ⟨_, execTableEntryEcc_of_table hc hn, entryEcc_of_plain hi h2 (by omega), ?_⟩
    rw [entryEcc_of_plain hi h2 (by omega), tab_invalidateEntry, hentry]
    exact ⟨rfl, (congrArg (flag · 0x600010 4) hbeside :).trans (flag_reportEntry s n i),
      (congrArg State.frames hbeside :).trans (congrArg State.frames hreport :),
      (congrArg State.queues hbeside :).trans (congrArg State.queues hreport :)⟩
  · subst hu
    exact ⟨_, rfl, (execTableEntryEcc_of_table hc (by decide)).trans (congrArg done (entryEcc_of_fdb hi rfl))⟩
  · have hreport := shows_besideEvents.report s 0x0101 (.fwd 0) [n, i]
    exact ⟨_, execTableEntryEcc_of_corrected hc hn hi, settled_report _ _ _ _, rfl, (congrArg State.tabs hreport :),
      (congrArg State.frames hreport :), (congrArg State.queues hreport :)⟩

end Sys2Proof.Machine
end

section
/-! The shadow compare (R110 to R113). -/

namespace Sys2Proof.Machine

/-! ### ONE_PASS -/

/-- SHADOW_CONTROL lies in a forwarding page, so a write that reaches it wakes no slice. -/
theorem atRegister_shadowControl (s : State) (src : Source) : atRegister s src 0x603040 = dropHeld s src 0x603040 :=
  atRegister_eq s src 0x603040 fun i k => by rw [show pageAt 0x603040 = some (.fwd 3) from rfl]; simp

theorem exec_shadowOnePass {s : State} {src : Source} (h : Admitted s src 0x603040) (he : flag s 0x603040 31 = false) :
    exec (.shadowOnePass src) s = .next (shadowStart (dropHeld s src 0x603040)) := by
  refine (congrArg done (guarded_of_admitted h shadowOnce)).trans ?_
  rw [atRegister_shadowControl]
  exact congrArg done (if_neg (by rw [show flag (dropHeld s src 0x603040) 0x603040 31 = flag s 0x603040 31 from rfl, he]; simp))

theorem flag_shadowStart (s : State) : flag (shadowStart s) 0x603040 29 = true := by
  rw [shadowStart, showShadow, flag_wr_other _ _ _ (by decide)]
  exact flag_setFlag_same s _ _ true (by decide)

/-! ### A visit -/

/-- What the engine's move to another entry leaves alone: the tables, the frames, the time of the next visit and the differences noted. -/
def shadowCompared (s : State) : Sparse Image × Sparse Frame × Nat × List ShadowDiff := (s.tabs, s.frames, s.shadow.due, s.shadow.diffs)

theorem shows_shadowCompared : Shows shadowCompared [] := shows_of_rfl fun _ _ _ _ _ => rfl

theorem shadowCompared_shadowPassDone (s : State) : shadowCompared (shadowPassDone s) = shadowCompared s := rfl

theorem shadowCompared_shadowAdvance (s : State) : shadowCompared (shadowAdvance s) = shadowCompared s := by
  unfold shadowAdvance
  dsimp only
  refine view_ite rfl ?_
  split <;> rfl

/-- Within a table the engine moves to the next entry, and nothing leaves the block (R111). -/
theorem shadowAdvance_of_more {s : State} (h : s.shadow.index + 1 < shadowEntries s.shadow.table) :
    (shadowAdvance s).shadow = { s.shadow with index := s.shadow.index + 1 } ∧ (shadowAdvance s).out = s.out := by
  rw [shadowAdvance, if_pos h]
  exact ⟨rfl, rfl⟩

theorem flag_showShadow (s : State) : flag (showShadow s) 0x603010 2 = flag s 0x603010 2 := flag_wr_other _ _ _ (by decide)

/-- The end of a pass raises its own cause alone. -/
theorem flag_shadowPassDone (s : State) : flag (shadowPassDone s) 0x603010 2 = flag s 0x603010 2 := by
  rw [shadowPassDone, flag_showShadow, flag_raise _ _ _ _ _ (by decide), if_neg (by decide), flag_setFlag _ _ _ _ _ _ (by decide),
    if_neg (by decide), flag_wr_other _ _ _ (by decide)]
  rfl

theorem flag_shadowAdvance (s : State) : flag (shadowAdvance s) 0x603010 2 = flag s 0x603010 2 := by
  unfold shadowAdvance
  refine view_ite (F := fun u => flag u 0x603010 2) (flag_showShadow _) ?_
  split
  · exact flag_showShadow _
  · exact flag_shadowPassDone s

theorem shadowCompared_shadowReadError (s : State) (t i : Nat) : shadowCompared (shadowReadError s t i) = shadowCompared s :=
  (shows_shadowCompared.report _ _ _ _).trans (shows_shadowCompared.raise List.not_mem_nil _ _)

/-- An entry that the host does not answer for is raised (R113). -/
theorem flag_shadowReadError (s : State) (t i : Nat) : flag (shadowReadError s t i) 0x603010 2 = true := by
  rw [shadowReadError, flag, (shows_rd (by decide) (by decide)).report, ← flag, flag_raise _ _ _ _ _ (by decide)]
  exact if_pos ⟨rfl, rfl⟩

/-- The differences that a visit finds: of the pending copy, and of the applied one where no change to it waits (R111, R112). -/
def shadowNoted (s : State) (t i : Nat) (sw : List Image) : State :=
  { s with shadow := { s.shadow with diffs := s.shadow.diffs ++ (shadowFind s t i false sw ++
      (if ((t = 0 ∨ t = 5) && tableSettled s t) = true then shadowFind s t i true sw else [])) } }

/-- What a visit makes of the shadow as read: an entry that the host does not answer for is reported (R113). -/
def shadowVisited (s : State) (t i : Nat) : Option (List Image) → State
  | none => shadowReadError s t i
  | some sw => shadowNoted s t i sw

/-- The operand of a visit holds the one image of an entry or the three of a classifier rule (R110). -/
theorem exec_shadowVisit {sw : List Image} (h : sw.length = 1 ∨ sw.length = 3) (s : State) :
    exec (.shadowVisit (some sw)) s = .next (shadowVisit s (some sw)) :=
  if_pos (by simpa using h)

/-- A visit at its instant compares the entry, and the engine moves on (R111). -/
theorem shadowVisit_of_due {s u : State} (hc : coreRuns s = true) (hr : shadowRuns s = true) (hd : s.shadow.due ≤ now s)
    (ht : shadowNextTable s s.shadow.table = some s.shadow.table)
    (hu : u = shadowFetch { s with shadow := { s.shadow with due := now s + shadowPace s } } s.shadow.table s.shadow.index)
    (shadow : Option (List Image)) : shadowVisit s shadow = shadowAdvance (shadowVisited u s.shadow.table s.shadow.index shadow) := by
  subst hu
  rw [shadowVisit, if_neg (by simp [hc, hr, hd]), ht]
  simp only [if_true]
  cases shadow <;> rfl

/-! ### A re-read -/

theorem shadowReread_of_due {s u : State} {d : ShadowDiff} {rest : List ShadowDiff} (hc : coreRuns s = true)
    (hq : s.shadow.diffs = d :: rest) (hd : d.at_ + 125000 ≤ now s)
    (hu : u = { shadowFetch s d.table d.index with shadow := { s.shadow with diffs := rest } }) (v : Image) :
    exec (.shadowReread (some v)) s = .next (if shadowHw u d.table d.part d.index d.applied = d.hw ∧
      shadowDiffers d.table d.part d.index (shadowHw u d.table d.part d.index d.applied) v.toNat
      then shadowReport u d (shadowHw u d.table d.part d.index d.applied) v.toNat else u) := by
  subst hu
  refine congrArg done ?_
  rw [shadowReread, hq]
  exact if_neg (by simp [hc, hd])

/-- An image is shown in the sixteen words from its base. -/
theorem rd_showImage (s : State) {base a : Nat} (v : Nat) (h : a < base ∨ base + 64 ≤ a) : rd (showImage s base v) a = rd s a :=
  view_foldl_mem (F := fun u => rd u a) (fun u n hn => rd_wr_other u _ (by have := List.mem_range.mp hn; omega)) s

/-- A mismatch that its re-read confirms, counted, raised and reported (R113). -/
def mismatchReported (s : State) (d : ShadowDiff) : State :=
  report (raise (count s 3958 1) (.fwd 3) 0) 0x0203 (.fwd 3) [shadowPart d.table d.part, d.index]

theorem rd_mismatchReported (s : State) (d : ShadowDiff) {a : Nat} (h2 : a / 0x1000 ≠ 2) (hd : a ≠ 0xD010) (hi : a ≠ 0x603010) :
    rd (mismatchReported s d) a = rd s a := by
  have hs := shows_rd h2 hd
  rw [mismatchReported, hs.report, rd_raise_other _ _ _ hi, hs.count]

theorem flag_mismatchReported (s : State) (d : ShadowDiff) : flag (mismatchReported s d) 0x603010 0 = true := by
  rw [mismatchReported, flag, (shows_rd (by decide) (by decide)).report, ← flag, flag_raise _ _ _ _ _ (by decide)]
  exact if_pos ⟨rfl, rfl⟩

/-- The word of SHADOW_MISMATCH that names a difference. -/
def mismatchWord (d : ShadowDiff) : Nat := 2 ^ 31 + d.table * 2 ^ 27 + bit d.applied * 2 ^ 26 + d.part * 2 ^ 24 + d.index

/-- A reported mismatch in its record: what differs, and both images. -/
def mismatchRecorded (s : State) (d : ShadowDiff) (hw sw : Nat) : State :=
  showImage (showImage (wr (mismatchReported s d) 0x603090 (mismatchWord d)) 0x6030A0 hw) 0x6030E0 sw

theorem rd_mismatchRecorded (s : State) (d : ShadowDiff) (hw sw : Nat) {a : Nat} (h : a < 0x6030A0) :
    rd (mismatchRecorded s d hw sw) a = rd (wr (mismatchReported s d) 0x603090 (mismatchWord d)) a := by
  rw [mismatchRecorded, rd_showImage _ _ (by omega), rd_showImage _ _ (by omega)]

/-- Without REPAIR and with its record free, a mismatch is reported and recorded, and nothing is written. -/
theorem shadowReport_of_unrepaired {s : State} {d : ShadowDiff} (hr : flag s 0x603040 30 = false) (hf : flag s 0x603090 31 = false)
    (hw sw : Nat) : shadowReport s d hw sw = mismatchRecorded s d hw sw := by
  have hfree : flag (mismatchReported s d) 0x603090 31 = false := by
    rw [flag, rd_mismatchReported s d (by decide) (by decide) (by decide), ← flag, hf]
  have hkeep : flag (mismatchRecorded s d hw sw) 0x603040 30 = false := by
    rw [flag, rd_mismatchRecorded _ _ _ _ (by decide), rd_wr_other _ _ (by decide),
      rd_mismatchReported s d (by decide) (by decide) (by decide), ← flag, hr]
  unfold mismatchReported at hfree
  unfold mismatchRecorded mismatchReported mismatchWord at hkeep ⊢
  simp only [shadowReport, hfree, Bool.not_false, if_true, hkeep, true_or]

/-- The engine's own state and the tables. -/
def shadowEngine (s : State) : Shadow × Sparse Image := (s.shadow, s.tabs)

theorem shows_shadowEngine : Shows shadowEngine [] := shows_of_rfl fun _ _ _ _ _ => rfl

theorem shadowEngine_showImage (s : State) (base v : Nat) : shadowEngine (showImage s base v) = shadowEngine s := by
  unfold showImage
  exact view_foldl (fun u _ => shows_shadowEngine.word u _ _ List.not_mem_nil) _ s

theorem shadowEngine_mismatchRecorded (s : State) (d : ShadowDiff) (hw sw : Nat) :
    shadowEngine (mismatchRecorded s d hw sw) = shadowEngine s := by
  rw [mismatchRecorded, shadowEngine_showImage, shadowEngine_showImage, shows_shadowEngine.word _ _ _ List.not_mem_nil, mismatchReported,
    shows_shadowEngine.report, shows_shadowEngine.raise List.not_mem_nil, shows_shadowEngine.count]

/-- Settles O17: a visit and a re-read are the notes that they take, and the reports and moves after them reach neither those notes nor the
tables. -/
theorem shadowCompareRereads : Obligations.ShadowCompareRereads := by
  refine ⟨fun s src h he => ?_, fun s u sw hc hr hd ht hl hu => ?_, fun s u hc hr hd ht hu => ?_, fun s u d rest v hc hq hd hu => ?_⟩
  · exact ⟨_, exec_shadowOnePass h he, flag_shadowStart _, rfl, ((RegsBut.of_regs_eq _ rfl).setFlag (by simp) _ _).wr (by simp) _, rfl⟩
  · have hexec := (exec_shadowVisit hl s).trans (congrArg done (shadowVisit_of_due hc hr hd ht hu (some sw)))
    have hcompared := shadowCompared_shadowAdvance (shadowNoted u s.shadow.table s.shadow.index sw)
    simp only [shadowCompared, Prod.mk.injEq] at hcompared
    obtain ⟨htabs, hframes, hdue, hdiffs⟩ := hcompared
    have hshadow : u.shadow = { s.shadow with due := now s + shadowPace s } := by rw [hu]; rfl
    have hsettled : tableSettled u s.shadow.table = tableSettled s s.shadow.table := by rw [hu]; rfl
    have hplain : u.tabs = s.tabs ∧ u.frames = s.frames := by rw [hu]; exact ⟨rfl, rfl⟩
    refine ⟨_, hexec, htabs.trans hplain.1, hframes.trans hplain.2, hdue.trans (congrArg Shadow.due hshadow), ?_, fun hi => ?_⟩
    · rw [shadowVisited, hdiffs, shadowNoted, hshadow, hsettled]
    · have hindex : (shadowNoted u s.shadow.table s.shadow.index sw).shadow.index = s.shadow.index := (congrArg Shadow.index hshadow :)
      have htable : (shadowNoted u s.shadow.table s.shadow.index sw).shadow.table = s.shadow.table := (congrArg Shadow.table hshadow :)
      obtain ⟨hmoved, hout⟩ := shadowAdvance_of_more (s := shadowNoted u s.shadow.table s.shadow.index sw)
        (by rw [hindex, htable]; exact hi)
      rw [shadowVisited, hmoved, hindex, htable]
      exact ⟨rfl, rfl, hout⟩
  · refine ⟨_, congrArg done (shadowVisit_of_due hc hr hd ht hu none), rfl, ?_⟩
    have hcompared :=
      (shadowCompared_shadowAdvance (shadowReadError u s.shadow.table s.shadow.index)).trans (shadowCompared_shadowReadError _ _ _)
    simp only [shadowCompared, Prod.mk.injEq] at hcompared
    obtain ⟨htabs, -, -, hdiffs⟩ := hcompared
    refine ⟨(flag_shadowAdvance _).trans (flag_shadowReadError _ _ _), hdiffs.trans ?_, htabs.trans ?_⟩
    all_goals rw [hu]; rfl
  · have hexec := shadowReread_of_due hc hq hd hu v
    have hregs : u.regs = s.regs := by rw [hu]; rfl
    refine ⟨fun hne => ?_, fun hsame => ?_, fun heq hdiff hr hf => ?_⟩
    · rw [hexec, if_neg fun h => hne h.1]
    · rw [hexec, if_neg]
      rintro ⟨heq, hdiff⟩
      rw [heq, hsame] at hdiff
      exact Bool.false_ne_true hdiff
    · rw [if_pos ⟨heq, by rw [heq, hdiff]⟩, heq] at hexec
      have hflag : ∀ a k, flag u a k = flag s a k := fun a k => by rw [flag, rd, hregs, ← rd, ← flag]
      have hreport := shadowReport_of_unrepaired (d := d) ((hflag _ _).trans hr) ((hflag _ _).trans hf) d.hw v.toNat
      have hengine := shadowEngine_mismatchRecorded u d d.hw v.toNat
      simp only [shadowEngine, Prod.mk.injEq] at hengine
      obtain ⟨hshadow, htabs⟩ := hengine
      refine ⟨_, hexec, rfl, ?_⟩
      rw [hreport, htabs, hshadow, flag, rd_mismatchRecorded _ _ _ _ (by decide), rd_mismatchRecorded _ _ _ _ (by decide), rd_wr_same,
        rd_wr_other _ _ (by decide), ← flag, flag_mismatchReported, hu]
      exact ⟨rfl, rfl, rfl, rfl⟩

end Sys2Proof.Machine
end

section
/-! The commands of the table DMA engine (R106, R107, R345 to R347). -/

namespace Sys2Proof.Machine

/-! ### Completions (R346, R347) -/

theorem complete_of_room {s : State} (hc : s.host.completions = []) (hr : eventRoom s 6 32 = true) (op st tag r d : Nat) :
    complete s op st tag r d = writeCompletion s { opcode := op, status := st, tag := tag, result := r, done := d } := by
  rw [complete, hc, hr]
  rfl

theorem completions_signal (s : State) (r itr : Nat) : (signal s r itr).host.completions = s.host.completions :=
  view_ite (F := fun u : State => u.host.completions) rfl (view_ite (F := fun u : State => u.host.completions) rfl rfl)

theorem completions_eventWrite (s : State) (e : Nat) (ws : List Nat) : (eventWrite s e ws).host.completions = s.host.completions :=
  (completions_signal _ _ _).trans (view_ite (F := fun u : State => u.host.completions) rfl rfl)

/-- What has left the block stays the first part of what has left it after a vector. -/
theorem out_signal (s : State) (r itr : Nat) : s.out <+: (signal s r itr).out := by
  unfold signal
  split
  · exact List.prefix_append _ _
  · split <;> exact List.prefix_rfl

/-- The record itself leaves first, then what follows it (R342). -/
theorem out_eventWrite (s : State) (e : Nat) (ws : List Nat) : s.out ++ [.record e ws] <+: (eventWrite s e ws).out := by
  refine List.IsPrefix.trans ?_ (out_signal _ _ _)
  split
  · exact List.prefix_rfl
  · exact List.prefix_append _ _

/-- The number of the next completion moves on (R346). -/
def completionNumbered (s : State) : State := { s with host := { s.host with completionSeq := (s.host.completionSeq + 1) % 2 ^ 32 } }

theorem writeCompletion_eq (s : State) (c : Completion) :
    writeCompletion s c = completionNumbered (eventWrite s 6 (completionWords s c)) := rfl

theorem completions_completionNumbered (s : State) : (completionNumbered s).host.completions = s.host.completions := rfl

theorem out_completionNumbered (s : State) : (completionNumbered s).out = s.out := rfl

theorem completions_writeCompletion (s : State) (c : Completion) : (writeCompletion s c).host.completions = s.host.completions := by
  rw [writeCompletion_eq, completions_completionNumbered, completions_eventWrite]

/-- The completion's record is the first to leave the block (R346). -/
theorem out_writeCompletion (s : State) (c : Completion) :
    (writeCompletion s c).out.take (s.out.length + 1) = s.out ++ [.record 6 (completionWords s c)] := by
  have h := List.prefix_iff_eq_take.mp (out_eventWrite s 6 (completionWords s c))
  rw [List.length_append] at h
  rw [writeCompletion_eq, out_completionNumbered]
  exact h.symm

/-- The completion waits when ring 6 has no room (R347). -/
theorem complete_of_full {s : State} (hr : eventRoom s 6 32 = false) (op st tag r d : Nat) : complete s op st tag r d =
    { s with host := { s.host with
      completions := s.host.completions ++ [{ opcode := op, status := st, tag := tag, result := r, done := d }] } } := by
  rw [complete, hr, Bool.and_false]
  rfl

/-! ### Commands taken from ring 7 -/

/-- A command completes with the status, the RESULT and the DONE_COUNT that its effect gives. -/
def completeWith (op tag : Nat) (r : (Nat × Nat × Nat) × State) : State := complete r.2 op r.1.1 tag r.1.2.1 r.1.2.2

theorem besideRing_completeWith (op tag : Nat) (r : (Nat × Nat × Nat) × State) : besideRing (completeWith op tag r) = besideRing r.2 :=
  besideRing_complete _ _ _ _ _ _

/-- The role is in no register that a ring's HEAD is in. -/
theorem role_advanceHead (s : State) (n : Nat) : role (advanceHead s 135 n) = role s := by
  rw [role, fld, regsBut_advanceHead s 135 n 0x604C (by decide), ← fld, ← role]

/-! ### Effects -/

theorem walks_of_besideRing {s t : State} (h : besideRing t = besideRing s) : walks t = walks s := (congrArg walks h :)

theorem walks_fdbRemove (s : State) (slot : Nat) : walks (fdbRemove s slot) = walks s := walks_sendDelta _ _ _

theorem walks_fdbInsert (s : State) (v : Nat) : walks (fdbInsert s v).2 = walks s := by
  unfold fdbInsert
  dsimp only
  split
  · exact walks_fdbWrite _ _ _
  · split
    · rfl
    · exact walks_fdbWrite _ _ _
    · exact (walks_fdbWrite _ _ _).trans ((walks_learnEvent _ _ _ _ _ _ _ _ _).trans (walks_raise_count _ _ _))

theorem walks_fdbDelete (s : State) (v : Nat) : walks (fdbDelete s v).2 = walks s := by
  unfold fdbDelete
  split
  · rfl
  · exact walks_fdbRemove _ _

theorem walks_fdbLock (s : State) (v : Nat) (lock : Bool) : walks (fdbLock s v lock).2 = walks s := by
  unfold fdbLock
  split
  · rfl
  · exact walks_fdbWrite _ _ _

/-- An insertion in the subscriber map reaches its table alone (R71). -/
theorem mapInsert_writes (s : State) (v : Nat) : (mapInsert s v).2 = { s with tabs := (mapInsert s v).2.tabs } := by
  unfold mapInsert
  dsimp only
  split
  · rfl
  · split <;> rfl

/-- What a write of a table entry leaves alone: the applied configuration, the queues and Colophon. -/
def besideEntry (s : State) : Sparse Word32 × Sparse Image × Sparse Queue × Colophon := (s.regsCur, s.tabsCur, s.queues, s.colophon)

theorem besideEntry_forgetDebits (s : State) (k : Nat) : besideEntry (forgetDebits s k) = besideEntry s := by
  unfold forgetDebits
  refine view_foldl (fun u e => ?_) _ s
  exact view_ite rfl rfl

theorem besideEntry_writePolicer (s : State) (k : Nat) (v : Image) : besideEntry (writePolicer s k v) = besideEntry s :=
  view_ite rfl (besideEntry_forgetDebits _ k)

theorem besideEntry_switchStream (s : State) (g : Nat) : besideEntry (switchStream s g) = besideEntry s := by
  unfold switchStream
  split <;> rfl

theorem besideEntry_acceptStream (s : State) (g : Nat) : besideEntry (acceptStream s g) = besideEntry s :=
  view_ite (F := besideEntry) (besideEntry_switchStream s g) rfl

theorem besideEntry_writeShaper (s : State) (i v : Nat) : besideEntry (writeShaper s i v) = besideEntry s := by
  have hb : ∀ u : State, besideEntry (if tierOf i = 1 then setBucketB u i (signed (bits v 91 46) 46) else u) = besideEntry u := fun u =>
    view_ite rfl rfl
  exact view_ite (hb _) (hb _)

theorem besideEntry_writeEntry (s : State) (t i : Nat) (v : Image) : besideEntry (writeEntry s t i v) = besideEntry s := by
  unfold writeEntry
  split
  · exact (congrArg besideEntry (besideEvents_fdbWrite s i v.toNat) :)
  · exact besideEntry_writePolicer s i v
  · exact view_ite rfl rfl
  · exact view_ite (besideEntry_acceptStream _ i) rfl
  · exact besideEntry_writeShaper s i _
  · exact view_ite rfl (view_ite (F := besideEntry) rfl rfl)
  · rfl

/-! ### READ and WRITE -/

/-- A table that no slice holds wakes none (R290). -/
theorem wakeTable_of_shared {t first : Nat} (h : tableSlice t first = none) (s : State) (n : Nat) : wakeTable s t first n = s := by
  unfold wakeTable
  rw [h]
  exact view_foldl (F := id) (fun _ _ => rfl) _ s

/-- What is sent and does not depend on what was sent before. -/
theorem foldl_emit {β : Type} {f : State → β → Out} (hf : ∀ s o, f (emit s o) = f s) (l : List β) (s : State) :
    l.foldl (fun u k => emit u (f u k)) s = { s with out := s.out ++ l.map (f s) } := by
  induction l generalizing s with
  | nil => simp
  | cons k l ih =>
    rw [List.foldl_cons, ih, hf, List.map_cons]
    simp only [emit, List.append_assoc, List.singleton_append]

/-- The image of an entry does not show what has left the block. -/
theorem entryImage_emit (s : State) (o : Out) (applied : Bool) (t i : Nat) :
    entryImage (emit s o) applied t i = entryImage s applied t i := rfl

/-- The images of entries written one after another to host memory (R345). -/
def imagesWritten (s : State) (applied : Bool) (t first n addr : Nat) : State :=
  { s with out := s.out ++ (List.range n).map fun k =>
    .hostWrite (addr + k * tableBytes t) (leBytes (tableBytes t) (entryImage s applied t (first + k))) }

theorem readEntries_of_shared {s : State} {t first n : Nat} (ht : t ≤ 0x19) (h2 : t ≠ 2) (hs : tableSlice t first = none)
    (hn : first + n ≤ entriesOf s t) (applied : Bool) (addr : Nat) :
    readEntries s t applied first n addr true = ((0, 0, n), imagesWritten s applied t first n addr) := by
  rw [readEntries, if_neg (by omega), if_neg (by omega), if_neg h2, wakeTable_of_shared hs]
  exact congrArg (Prod.mk (0, 0, n)) (foldl_emit
    (f := fun u k => .hostWrite (addr + k * tableBytes t) (leBytes (tableBytes t) (entryImage u applied t (first + k))))
    (fun u o => by simp only [entryImage_emit]) _ s)

theorem readEntries_of_beyond {s : State} {t first n : Nat} (ht : t ≤ 0x19) (hn : entriesOf s t < first + n) (applied ok : Bool)
    (addr : Nat) : readEntries s t applied first n addr ok = refuses 8 s := by
  rw [readEntries, if_neg (by omega), if_pos hn]

theorem tableWrite_of_readOnly {t : Nat} (h : tableReadOnly t = true) (s : State) (first : Nat) (images : List Image) (ok : Bool) :
    tableWrite s t first images ok = refuses 7 s :=
  if_pos (.inr h)

theorem tableWrite_of_shared {s : State} {t first : Nat} (ht : t ≤ 0x19) (h2 : t ≠ 2) (hr : tableReadOnly t = false)
    (hs : tableSlice t first = none) (hi : first < entriesOf s t) (v : Image) :
    tableWrite s t first [v] true = ((0, 0, 1), writeEntry s t first v) := by
  have hf : fdbStandby s t = false := by simp [fdbStandby, h2]
  rw [tableWrite, if_neg (by rw [hr]; simp; omega), if_neg (by rw [List.length_singleton]; omega), if_neg (by simp [hf]), if_neg h2,
    wakeTable_of_shared hs]
  simp only [writeEntries, h2, if_false]
  rfl

theorem exec_write {t tag i n : Nat} {l : List Image} {ok : Bool} (h : l.length = countOf n) (s : State) :
    exec (.write t tag i n l ok) s = .next (tableCommand s 2 tag fun u => tableWrite u t i l ok) :=
  if_pos (by simp [h])

/-! ### Commands by key -/

theorem keyed_of_active {s : State} (h : role s = 3) (fdb : State → (Nat × Nat × Nat) × State)
    (map : Option (State → (Nat × Nat × Nat) × State)) : keyed s 2 true fdb map = fdb (settleLearning s) := by
  have hf : fdbStandby s 2 = false := by simp [fdbStandby, h]
  unfold keyed
  rw [if_pos rfl, if_neg (by simp [hf])]
  rfl

theorem keyed_of_standby {s : State} (h : role s ≠ 3) (ok : Bool) (fdb : State → (Nat × Nat × Nat) × State)
    (map : Option (State → (Nat × Nat × Nat) × State)) : keyed s 2 ok fdb map = refuses 6 s := by
  have hf : fdbStandby s 2 = true := by simp [fdbStandby, h]
  unfold keyed
  rw [if_pos rfl, if_pos hf]

theorem settleLearning_of_empty {s : State} (h : s.fdb.learnQ = []) : settleLearning s = s := by rw [settleLearning, h]; rfl

theorem mapDelete_of_absent {s : State} {v : Nat} (h : mapSlot s (bits v 62 30) = none) : mapDelete s v = refuses 5 s := by
  rw [mapDelete, h]

theorem fdbLock_of_found {s : State} {v slot : Nat} (h : fdbFind s (fdbFid v) (fdbMac v) = some slot) (lock : Bool) :
    fdbLock s v lock = ((0, 0, 1), fdbWrite s slot (putBits (fdbEntry s slot) 125 125 (bit lock))) := by
  rw [fdbLock, h]

/-! ### The engine -/

/-- The engine takes a command (R345). -/
theorem besideRing_taken {s h : State} (hh : h = advanceHead s 135 32) : besideRing h = besideRing s := by rw [hh, besideRing_advanceHead]

section Ready

variable {s h : State} (hr : commandReady s = true) (hh : h = advanceHead s 135 32)
include hr hh

/-- A command is taken from ring 7 and completes (R345). -/
theorem tableCommand_of_ready (op tag : Nat) (act : State → (Nat × Nat × Nat) × State) :
    tableCommand s op tag act = completeWith op tag (act h) := by
  subst hh
  exact if_neg (by simp [hr])

theorem done_of_taken {op tag : Nat} {act : State → (Nat × Nat × Nat) × State} {st r d : Nat} {u : State}
    (ha : act h = ((st, r, d), u)) : done (tableCommand s op tag act) = .next (complete u op st tag r d) := by
  rw [tableCommand_of_ready hr hh, ha]
  rfl

/-- A command by key on the FDB of an ACTIVE device, after the learn requests taken before it (R99, R106). -/
theorem done_of_keyed {fdb : State → (Nat × Nat × Nat) × State} (hw : ∀ u, walks (fdb u).2 = walks u)
    (hf : ∀ u, settled (fdb u).2 = settled u) (ha : role s = 3) (op tag : Nat) (map : Option (State → (Nat × Nat × Nat) × State)) :
    ∃ t, done (tableCommand s op tag fun u => keyed u 2 true fdb map) = .next t ∧ settled t = settled s ∧ t.frames = s.frames ∧
      t.queues = s.queues ∧ t = completeWith op tag (fdb (settleLearning h)) := by
  have hring := besideRing_taken hh
  have hactive : role h = 3 := by rw [hh, role_advanceHead, ha]
  have hwalks : walks (completeWith op tag (fdb (settleLearning h))) = walks s := by
    rw [walks_of_besideRing (besideRing_completeWith op tag _), hw, walks_settleLearning, walks_of_besideRing hring]
  have hsettled : settled (completeWith op tag (fdb (settleLearning h))) = settled s := by
    rw [completeWith, settled_complete, hf, settled_settleLearning, hh, settled_advanceHead]
  obtain ⟨hqueues, hframes, -⟩ := walks_iff.mp hwalks
  refine ⟨_, congrArg done ?_, hsettled, hframes, hqueues, rfl⟩
  rw [tableCommand_of_ready hr hh, keyed_of_active hactive]

/-- A flush of an ACTIVE device begins its walk after the learn requests taken before it (R106, R107). -/
theorem flushCommand_of_active (ha : role h = 3) {filter : Nat} (hf : filter ≠ 3) (tag : Nat) (static : Bool) (value : Nat) :
    flushCommand s 2 tag static filter value = flushBegin (settleLearning h) filter value static (some tag) none := by
  subst hh
  have hs : fdbStandby (advanceHead s 135 32) 2 = false := by simp [fdbStandby, ha]
  unfold flushCommand
  rw [if_neg (by simp [hr])]
  dsimp only
  rw [if_neg (by simp [hf]), if_neg (by simp [hs])]

end Ready

/-- Settles O43: a command taken from ring 7 is the completion of its effect, and the effect of each command is read back from it. -/
theorem tableCommandsComplete : Obligations.TableCommandsComplete := by
  refine ⟨fun s op st tag r d hc hr => ?_, fun s op st tag r d hr => complete_of_full hr op st tag r d, fun s h tag hr hh => ?_⟩
  · rw [complete_of_room hc hr]
    exact ⟨(completions_writeCompletion s _).trans hc, out_writeCompletion s _⟩
  have hring : besideRing h = besideRing s := besideRing_taken hh
  have hrole : role h = role s := by rw [hh, role_advanceHead]
  have hcomplete : ∀ op st r d, besideRing (complete h op st tag r d) = besideRing s := fun op st r d =>
    (besideRing_complete h op st tag r d).trans hring
  have htabs : ∀ op st r d, (complete h op st tag r d).tabs = s.tabs := fun op st r d => (congrArg State.tabs (hcomplete op st r d) :)
  refine ⟨?nop, ?readBeyond, ?read, ?writeReadOnly, ?write, ?insert, ?mapInsert, ?delete, ?mapDelete, ?lock, ?unlock, ?locked, ?standby,
    ?flush⟩
  case nop =>
    have he : exec (.nop tag) s = .next (complete h 0x0A 0 tag 0 0) := done_of_taken hr hh rfl
    refine ⟨_, he, rfl, settled_execNop tag s _ he, ?_, eq_of_besideRing (hcomplete _ _ _ _)⟩
    rw [ringHead_complete, hh, ringHead_advanceHead]
  case readBeyond =>
    intro t i n a applied ok ht hn
    have he : exec (.read t tag applied i n a ok) s = .next (complete h 1 8 tag 0 0) :=
      done_of_taken hr hh (readEntries_of_beyond ht hn applied ok a)
    exact ⟨_, he, rfl, settled_execRead _ _ _ _ _ _ _ s _ he, htabs _ _ _ _⟩
  case read =>
    intro t i n a applied ht h2 hs hn
    have he : exec (.read t tag applied i n a true) s =
        .next (complete (imagesWritten h applied t i (countOf n) a) 1 0 tag 0 (countOf n)) :=
      done_of_taken hr hh (readEntries_of_shared ht h2 hs hn applied a)
    have hbeside := (besideRing_complete (imagesWritten h applied t i (countOf n) a) 1 0 tag 0 (countOf n)).trans hring
    exact ⟨_, _, he, rfl, settled_execRead _ _ _ _ _ _ _ s _ he, (congrArg State.tabs hbeside :), rfl, rfl⟩
  case writeReadOnly =>
    intro t i n l ok hl ht
    have he : exec (.write t tag i n l ok) s = .next (complete h 2 7 tag 0 0) :=
      (exec_write hl s).trans (done_of_taken hr hh (tableWrite_of_readOnly ht h i l ok))
    exact ⟨_, he, rfl, htabs _ _ _ _, (congrArg State.regsCur (hcomplete _ _ _ _) :)⟩
  case write =>
    intro t i v ht h2 hro hs hi
    have he : exec (.write t tag i 1 [v] true) s = .next (complete (writeEntry h t i v) 2 0 tag 0 1) :=
      (exec_write rfl s).trans (done_of_taken hr hh (tableWrite_of_shared ht h2 hro hs hi v))
    have hbeside : besideEntry (complete (writeEntry h t i v) 2 0 tag 0 1) = besideEntry s := calc
      _ = besideEntry (writeEntry h t i v) := (congrArg besideEntry (besideRing_complete _ _ _ _ _ _) :)
      _ = besideEntry h := besideEntry_writeEntry h t i v
      _ = besideEntry s := (congrArg besideEntry hring :)
    simp only [besideEntry, Prod.mk.injEq] at hbeside
    exact ⟨_, he, rfl, hbeside⟩
  case insert => exact fun v ha => done_of_keyed hr hh (walks_fdbInsert · v.toNat) (settled_fdbInsert · v.toNat) ha 3 tag _
  case mapInsert =>
    intro v
    have he : exec (.insert 6 tag v true) s = .next (completeWith 3 tag (mapInsert h v.toNat)) :=
      congrArg done (tableCommand_of_ready hr hh _ _ _)
    have hbeside : besideTables (besideRing (completeWith 3 tag (mapInsert h v.toNat))) = besideTables (besideRing s) := by
      rw [besideRing_completeWith, mapInsert_writes, ← hring]
      rfl
    exact ⟨_, he, settled_execInsert _ _ _ _ s _ he, (congrArg State.frames hbeside :), (congrArg State.queues hbeside :), rfl,
      (congrArg State.fdb hbeside :), (congrArg State.slices hbeside :)⟩
  case delete => exact fun v ha => done_of_keyed hr hh (walks_fdbDelete · v.toNat) (settled_fdbDelete · v.toNat) ha 4 tag _
  case mapDelete =>
    intro v hm
    have he : exec (.delete 6 tag v true) s = .next (complete h 4 5 tag 0 0) := done_of_taken hr hh (mapDelete_of_absent hm)
    exact ⟨_, he, rfl, htabs _ _ _ _⟩
  case lock => exact fun v ha => done_of_keyed hr hh (walks_fdbLock · v.toNat true) (settled_fdbLock · v.toNat true) ha 5 tag _
  case unlock => exact fun v ha => done_of_keyed hr hh (walks_fdbLock · v.toNat false) (settled_fdbLock · v.toNat false) ha 6 tag _
  case locked =>
    intro v slot on ha hq hf
    have hempty : h.fdb.learnQ = [] := (congrArg (fun u : State => u.fdb.learnQ) hring :).trans hq
    obtain ⟨t, ht, -, hframes, -, rfl⟩ :=
      done_of_keyed hr hh (walks_fdbLock · v.toNat on) (settled_fdbLock · v.toNat on) ha (if on then 5 else 6) tag none
    have he : exec (if on then .lockEntry 2 tag v true else .unlock 2 tag v true) s =
        done (tableCommand s (if on then 5 else 6) tag fun u => keyed u 2 true (fun u => fdbLock u v.toNat on) none) := by
      cases on <;> rfl
    refine ⟨_, he.trans ht, ?_, hframes⟩
    rw [settleLearning_of_empty hempty, fdbLock_of_found hf]
    exact (congrArg State.tabs (besideRing_completeWith _ _ _) :)
  case standby =>
    intro v ok ha
    have he : exec (.insert 2 tag v ok) s = .next (complete h 3 6 tag 0 0) :=
      done_of_taken hr hh (keyed_of_standby (by rw [hrole]; exact ha) ok _ _)
    exact ⟨_, he, rfl, htabs _ _ _ _⟩
  case flush =>
    intro static f v ha hf
    have he : exec (.flush 2 tag static f v) s = .next (flushBegin (settleLearning h) f v.toNat static (some tag) none) :=
      congrArg done (flushCommand_of_active hr hh (hrole.trans ha) hf tag static v.toNat)
    have hwalks : walks (settleLearning h) = walks s := (walks_settleLearning h).trans (walks_of_besideRing hring)
    obtain ⟨hqueues, hframes, hflushes⟩ := walks_iff.mp hwalks
    obtain ⟨hjoins, hstopped⟩ := flushBegin_joins (settleLearning h) f v.toNat static (some tag) none
    rw [hqueues, hframes, hflushes] at hjoins
    obtain ⟨hqueues, hframes, hflushes⟩ := walks_iff.mp hjoins
    exact ⟨_, he, settled_execFlush _ _ _ _ _ s _ he, hframes, hqueues, rfl, hstopped, hflushes⟩

end Sys2Proof.Machine
end

section
/-! Policers and stream gates (R117 to R122, R125): a refill instant, the token buckets, the colours and the change of a gate. -/

namespace Sys2Proof.Machine

/-! ### A refill instant (R120 to R122) -/

/-- All that a refill instant leaves alone: everything but the policers' own state. -/
def besidePolicing (s : State) : State := { s with policing := {} }

theorem eq_of_besidePolicing {s t : State} (h : besidePolicing t = besidePolicing s) : t = { s with policing := t.policing } :=
  (congrArg (fun u : State => { u with policing := t.policing }) h :)

theorem besidePolicing_refillPolicer (s : State) (k : Nat) : besidePolicing (refillPolicer s k) = besidePolicing s := view_ite rfl rfl

theorem besidePolicing_trueUp (s : State) (d : Debit × Int) : besidePolicing (trueUp s d) = besidePolicing s := view_ite rfl rfl

theorem besidePolicing_refillPolicers (s : State) : besidePolicing (refillPolicers s) = besidePolicing s :=
  (view_foldl besidePolicing_trueUp _ _).trans (view_foldl besidePolicing_refillPolicer _ s)

/-- The instants counted, which neither a refill nor a true-up touches. -/
def refillsDone (s : State) : Nat := s.policing.refills

theorem refillsDone_refillPolicer (s : State) (k : Nat) : refillsDone (refillPolicer s k) = refillsDone s := view_ite rfl rfl

theorem refillsDone_trueUp (s : State) (d : Debit × Int) : refillsDone (trueUp s d) = refillsDone s := view_ite rfl rfl

theorem refills_refillPolicers (s : State) : (refillPolicers s).policing.refills = s.policing.refills + 1 :=
  congrArg (· + 1) ((view_foldl refillsDone_trueUp _ _).trans (view_foldl refillsDone_refillPolicer _ s))

theorem trueUps_refillPolicers (s : State) : (refillPolicers s).policing.trueUps = [] := rfl

theorem exec_policerRefill_due {s : State} (hc : coreRuns s = true) (hd : (s.policing.refills + 1) * 256 ≤ now s) :
    exec .policerRefill s = .next (refillPolicers s) := congrArg done (if_pos ⟨hc, hd⟩)

theorem exec_policerRefill_early {s : State} (hd : now s < (s.policing.refills + 1) * 256) : exec .policerRefill s = .next s :=
  congrArg done (if_neg fun ⟨_, h⟩ => absurd hd (Nat.not_lt.mpr h))

/-! ### The token buckets (R117, R118) -/

theorem refillBuckets_fst (e : Nat) (a b : Int) : (refillBuckets e a b).1 = min (policerSizeA e) (a + policerRateA e) := by
  unfold refillBuckets
  split <;> rfl

theorem refillBuckets_snd_le (e : Nat) (a b : Int) : (refillBuckets e a b).2 ≤ policerSizeB e := by
  unfold refillBuckets
  split <;> exact min_le_left _ _

/-- In the first mode bucket B gets what bucket A cannot hold, and nothing else. -/
theorem refillBuckets_snd_of_singleRate {e : Nat} (h : bits e 126 125 = 0) (a b : Int) :
    (refillBuckets e a b).2 = min (policerSizeB e) (b + max 0 (a + policerRateA e - policerSizeA e)) := by
  simp only [refillBuckets, h]

/-! ### The colours (R117) -/

/-- The colour with which a frame enters policer `e`: green where the policer is colour-blind. -/
def entryColour (e c : Nat) : Nat := if bitAt e 124 then c else 0

theorem entryColour_le {e c : Nat} (h : c ≤ 2) : entryColour e c ≤ 2 := by
  unfold entryColour
  split
  · exact h
  · exact Nat.zero_le 2

/-- All that a meter can answer: red, which debits nothing; yellow, which debits a bucket B that holds the frame; or green, on a frame
that entered green, which debits a bucket A that holds the frame, and bucket B beside it in the second mode. -/
theorem meterColour_cases (e : Nat) (a b L : Int) {c : Nat} (h : c ≤ 2) :
    meterColour e a b L c = (2, false, false) ∨
    (meterColour e a b L c = (1, false, true) ∧ entryColour e c ≤ 1 ∧ L ≤ b) ∨
    (meterColour e a b L c = (0, true, decide (bits e 126 125 = 1)) ∧ entryColour e c = 0 ∧ L ≤ a ∧ (bits e 126 125 = 1 → L ≤ b)) := by
  have hle : entryColour e c ≤ 2 := entryColour_le h
  rw [meterColour, ← entryColour]
  by_cases hred : entryColour e c = 2
  · exact .inl (if_pos hred)
  rw [if_neg hred]
  split
  next hmode =>
    by_cases hb : b < L
    · exact .inl (if_pos hb)
    rw [if_neg hb]
    by_cases hy : entryColour e c = 1 ∨ a < L
    · exact .inr (.inl ⟨if_pos hy, by omega, by omega⟩)
    · exact .inr (.inr ⟨by simp [hy, hmode], by omega, by omega, fun _ => by omega⟩)
  next hmode =>
    by_cases hg : entryColour e c = 0 ∧ L ≤ a
    · exact .inr (.inr ⟨by rw [if_pos hg, decide_eq_false hmode], hg.1, hg.2, fun h1 => absurd h1 hmode⟩)
    rw [if_neg hg]
    by_cases hb : L ≤ b
    · exact .inr (.inl ⟨if_pos hb, by omega, hb⟩)
    · exact .inl (if_neg hb)

/-! ### The change of a stream gate (R125) -/

/-- A bit below the width of an image is one of the image's own. -/
theorem bitAt_toNat_ofNat {w k : Nat} (h : k < w) (n : Nat) : bitAt (BitVec.ofNat w n).toNat k = bitAt n k := by
  rw [BitVec.toNat_ofNat, bitAt_testBit, bitAt_testBit, Nat.testBit_mod_two_pow, decide_eq_true h, Bool.true_and]

theorem exec_streamGateChange_due {s : State} {g : Fin 1024} {L : GateList} {C ta : Nat} (hp : (gateAt s g).pending = some (L, C, ta))
    (hd : C ≤ devNs s) : exec (.streamGateChange g) s = .next (switchStream s g) := by
  refine congrArg done (if_pos ?_)
  rw [streamDue, hp]
  exact decide_eq_true hd

/-- The gate runs its new list, and what ran before stays with it for the frames received before the change. -/
theorem switchStream_of_pending {s : State} {g : Nat} {L : GateList} {C ta : Nat} (hp : (gateAt s g).pending = some (L, C, ta)) :
    switchStream s g = setTab (setGate s g { pending := none, oper := some L, former := some ((gateAt s g).oper, C, ta) }) 0x0F g
      (BitVec.ofNat 512 (putBits (tabN s 0x0F g) 251 251 0)) := by
  rw [switchStream, hp]
  rfl

/-- CONFIG_CHANGE, bit 251 of the gate's entry, clears. -/
theorem configChange_switchStream {s : State} {g : Nat} {L : GateList} {C ta : Nat} (hp : (gateAt s g).pending = some (L, C, ta)) :
    bitAt (tabN (switchStream s g) 0x0F g) 251 = false := by
  rw [switchStream_of_pending hp, tabN, tab_setTab_same, bitAt_toNat_ofNat (by decide), bitAt_putBits _ _ _ _ _ le_rfl]
  rfl

/-- Settles O18: a refill instant and a gate's change touch their own state alone, and the buckets and the debits are read off the cases
of `refillBuckets` and `meterColour`. -/
theorem policersAndStreamGates : Obligations.PolicersAndStreamGates := by
  refine ⟨fun s hc hd => ?_, fun s hd => exec_policerRefill_early hd, fun s g L C ta hp hd => ?_, fun e a b => ?_,
    fun e a b L c hc _ => ?_⟩
  · exact ⟨_, exec_policerRefill_due hc hd, trueUps_refillPolicers s, refills_refillPolicers s,
      eq_of_besidePolicing (besidePolicing_refillPolicers s), rfl⟩
  · refine ⟨_, exec_streamGateChange_due hp hd, ?_, configChange_switchStream hp, ?_⟩
    · rw [switchStream_of_pending hp]
      exact gateAt_setGate_same s g _
    · rw [switchStream_of_pending hp]
      rfl
  · have hfst := refillBuckets_fst e a b
    refine ⟨hfst, hfst.trans_le (min_le_left _ _), refillBuckets_snd_le e a b, fun hmode hroom => ?_⟩
    rw [refillBuckets_snd_of_singleRate hmode, max_eq_left (by omega), add_zero]
  · have haware : bitAt e 124 = true → entryColour e c = c := fun h => if_pos h
    obtain hr | ⟨hr, hentry, hb⟩ | ⟨hr, hentry, ha, hb⟩ := meterColour_cases e a b L hc
    all_goals rw [hr]
    · exact ⟨le_rfl, fun _ => hc, fun _ => rfl, nofun, nofun⟩
    · exact ⟨one_le_two, fun h => haware h ▸ hentry, nofun, nofun, fun _ => hb⟩
    · exact ⟨Nat.zero_le 2, fun h => (haware h ▸ hentry).le, nofun, fun _ => ⟨ha, rfl⟩, fun h => hb (of_decide_eq_true h)⟩

end Sys2Proof.Machine
end

section
/-! Sheets (R154, R160 to R171): batches that close and are placed, prefetch, the blocks that return and the release of a sheet. -/

namespace Sys2Proof.Machine

/-! ### Batches that close (R154) -/

/-- A queue with sheets, or with a batch that waits for one, stays in spill state (R155). -/
theorem spillExit_of_outstanding {s : State} {q : Nat} {c : SpillCtx} (hs : (queueAt s q).spill = some c)
    (ho : c.index ≠ [] ∨ c.waiting ≠ none) : spillExit s q = s := by
  unfold spillExit
  simp only [hs]
  refine if_neg ?_
  rcases ho with h | h <;> simp [h]

section Close

variable {s : State} {q : Nat} {c : SpillCtx} (hs : (queueAt s q).spill = some c) (hsub : c.sub = .spilling) (hw : c.waiting = none)
  (hb : batchPrefix s [] (queueAt s q).tail ≠ [])
  (hd : batchDue s (queueAt s q) c (batchPrefix s [] (queueAt s q).tail) = true) {rest : List QItem}
  (hrest : rest = (queueAt s q).tail.drop (batchPrefix s [] (queueAt s q).tail).length)
include hs hsub hw hb hd hrest

/-- A due batch of a queue that has sheets waits for one. -/
theorem closeBatch_of_index (hi : c.index ≠ []) : closeBatch s q = setQueue s q { queueAt s q with
    tail := rest
    spill := some { c with
      opened := if rest.isEmpty then none else some (now s)
      waiting := some (batchPrefix s [] (queueAt s q).tail), refused := none } } := by
  have ht : (queueAt s q).tail ≠ [] := fun h => hb (by rw [h]; rfl)
  subst hrest
  unfold closeBatch
  simp only [hs]
  rw [if_neg (by simp [hsub, hw, ht]), if_neg (by simp [hb, hd]), if_pos (.inl (by simp [hi]))]

/-- A due batch of a queue without sheets joins the head where there is room for it. -/
theorem closeBatch_of_room (hi : c.index = []) (hl : linkedLeaves s q ≤ spillOn s q) :
    closeBatch s q = settleHead (setQueue s q { queueAt s q with
      head := (queueAt s q).head ++ batchPrefix s [] (queueAt s q).tail
      tail := rest
      spill := some { c with opened := if rest.isEmpty then none else some (now s) } }) q := by
  have ht : (queueAt s q).tail ≠ [] := fun h => hb (by rw [h]; rfl)
  subst hrest
  unfold closeBatch
  simp only [hs]
  rw [if_neg (by simp [hsub, hw, ht]), if_neg (by simp [hb, hd]), if_neg (by simp [hi, hl])]

end Close

theorem settled_batchClosed (s : State) (q : Nat) : settled (spillExit (closeBatch s q) q) = settled s :=
  (settled_spillExit _ q).trans (settled_closeBatch s q)

/-! ### Batches that are placed (R162 to R165) -/

/-- What the way into a sheet does not touch until the queue's context is written: the clocks, the tables and the queues. -/
def untilPlaced (s : State) : Clock × Sparse Image × Sparse Queue := (s.clock, s.tabs, s.queues)

theorem untilPlaced_drawSpillKey (s : State) : untilPlaced (drawSpillKey s) = untilPlaced s := view_ite rfl rfl

theorem untilPlaced_appendEntry (s : State) (b : IndexBlock) (sh : Sheet) : untilPlaced (appendEntry s b sh).2 = untilPlaced s := by
  unfold appendEntry
  dsimp only
  split
  · refine view_foldl (F := untilPlaced) ?_ b.copies s
    exact fun _ _ => rfl
  · rfl

theorem untilPlaced_moveTraces (s : State) (rs : List SheetRecord) : untilPlaced (moveTraces s rs) = untilPlaced s := by
  refine view_foldl (fun u r => ?_) rs s
  cases r with
  | frame c f => exact view_ite rfl rfl
  | skip first last => rfl

/-- What a placed batch leaves: the queue spills with nothing waiting, under its next serial, and its head is as it was. -/
structure BatchPlaced (s t : State) (q : Nat) : Prop where
  clock : t.clock = s.clock
  tabs : t.tabs = s.tabs
  context : (queueAt t q).spill.map (fun x => (x.sub, x.waiting, x.refused)) = some (.spilling, none, none)
  serial : (queueAt t q).serial = (queueAt s q).serial + 1
  head : (queueAt t q).head = (queueAt s q).head

theorem queueAt_of_untilPlaced {s t : State} (h : untilPlaced t = untilPlaced s) (q : Nat) : queueAt t q = queueAt s q :=
  congrArg (fun x : Clock × Sparse Image × Sparse Queue => sget (fun _ => ({} : Queue)) x.2.2 q) h

/-- The last steps of a placement: the context is written, the traces move along and the header's write leaves. -/
theorem batchPlaced_of_context {s u : State} (hu : untilPlaced u = untilPlaced s) {q : Nat} {v : Queue}
    (hc : v.spill.map (fun x => (x.sub, x.waiting, x.refused)) = some (.spilling, none, none))
    (hserial : v.serial = (queueAt s q).serial + 1) (hhead : v.head = (queueAt s q).head) (rs : List SheetRecord) (x : Spill) (o : Out) :
    BatchPlaced s (emit { moveTraces (setQueue u q v) rs with spill := x } o) q := by
  have hm := untilPlaced_moveTraces (setQueue u q v) rs
  have hq : queueAt (moveTraces (setQueue u q v) rs) q = v := (queueAt_of_untilPlaced hm q).trans (queueAt_setQueue_same u q v)
  simp only [untilPlaced, Prod.mk.injEq] at hm hu
  obtain ⟨hclock, htabs, -⟩ := hm
  obtain ⟨huclock, hutabs, -⟩ := hu
  refine ⟨hclock.trans huclock, htabs.trans hutabs, ?_, ?_, ?_⟩
  · exact (congrArg (fun w : Queue => w.spill.map fun x => (x.sub, x.waiting, x.refused)) hq).trans hc
  · exact (congrArg Queue.serial hq).trans hserial
  · exact (congrArg Queue.head hq).trans hhead

theorem batchPlaced_placeBatch {s : State} {q : Nat} {c : SpillCtx} (hs : (queueAt s q).spill = some c) (p k : Nat) (batch : List QItem) :
    BatchPlaced s (placeBatch s q p k batch) q := by
  have hu : untilPlaced (takeSheet (drawSpillKey s) p k).2 = untilPlaced s := untilPlaced_drawSpillKey s
  have hq := queueAt_of_untilPlaced hu q
  unfold placeBatch
  dsimp only
  simp only [hq, hs]
  cases c.indexBlocks.getLast? with
  | none => refine batchPlaced_of_context hu ?_ ?_ ?_ _ _ _ <;> rfl
  | some b => refine batchPlaced_of_context ((untilPlaced_appendEntry _ b _).trans hu) ?_ ?_ ?_ _ _ _ <;> rfl

section Choice

variable {s : State} {q : Nat} {c : SpillCtx} {batch : List QItem} (hs : (queueAt s q).spill = some c) (hw : c.waiting = some batch)
  (ho : waitOver s c.refused = false) (hk : keyGone s = false) (hi : indexFull c = false)
include hs hw ho hk hi

/-- Where no partition has a sheet that holds the batch, the queue is blocked (R163). -/
theorem sheetChoice_of_none (h : chooseSheet s (contentBlocks (batch.map (itemRecord s))) [] = none) :
    sheetChoice s q = setCtx s q { c with sub := .blocked, refused := c.refused.or (some (now s)) } := by
  unfold sheetChoice
  simp only [hs, hw, ho, hk, hi, h, Bool.false_eq_true, if_false]

/-- Otherwise the batch goes to the sheet chosen. -/
theorem sheetChoice_of_some {k p : Nat} (h : chooseSheet s (contentBlocks (batch.map (itemRecord s))) [] = some (k, p)) :
    sheetChoice s q = placeBatch s q p k batch := by
  unfold sheetChoice
  simp only [hs, hw, ho, hk, hi, h, Bool.false_eq_true, if_false]

end Choice

/-! ### Writes that complete -/

/-- The write of a sheet of the queue's index completes (R165). -/
theorem sheetWritten_of_find {s : State} {q n : Nat} {c : SpillCtx} {sh : Sheet} (hs : (queueAt s q).spill = some c)
    (hf : c.index.find? (fun x => x.owner == q && x.serial == n && x.writing) = some sh) :
    sheetWritten s q n = releaseWritten (writeDone (setCtx s q { c with
      index := c.index.map fun x => if x.owner == q && x.serial == n && x.writing then { x with writing := false } else x }) sh)
      sh.records := by
  unfold sheetWritten
  simp only [hs, hf]

/-! ### Prefetch (R167) -/

/-- What a prefetch changes in its reservation alone: the tables, the frames and the shared leaves in use. -/
def onChip (s : State) : Sparse Image × Sparse Frame × Nat := (s.tabs, s.frames, s.buffer.sharedUsed)

theorem onChip_issueQueue (s : State) (q : Nat) : onChip (issueQueue s q) = onChip s := by
  unfold issueQueue
  split <;> rfl

theorem onChip_issueReads (s : State) : onChip (issueReads s) = onChip s := view_foldl onChip_issueQueue _ s

theorem onChip_followPeak (s : State) : onChip (followPeak s) = onChip s := view_ite rfl rfl

theorem onChip_readEntry (s : State) (q k : Nat) : onChip (readEntry s q k) = onChip s := by
  unfold readEntry
  (repeat' split) <;> rfl

theorem onChip_emit (s : State) (o : Out) : onChip (emit s o) = onChip s := rfl

theorem onChip_chargeCopy (s : State) (c : Copy) (n : Nat) : onChip (chargeCopy s c n) = onChip s := rfl

theorem onChip_reserve (s : State) (r : Nat) :
    onChip (followPeak (setBuffer s { s.buffer with sharedUsed := s.buffer.sharedUsed + r })) =
      (s.tabs, s.frames, s.buffer.sharedUsed + r) := onChip_followPeak _

/-- The prefetch engine reserves the leaves of the oldest unread sheet. -/
theorem onChip_prefetch {s : State} {q : Nat} {c : SpillCtx} {sh : Sheet} (hs : (queueAt s q).spill = some c)
    (hf : c.index.find? (fun x => x.reading.isNone) = some sh) (hw : wantsPrefetch s q = true) (hn : prefetchSheets s < 64)
    (hr : s.buffer.sharedUsed + prefetchReserve sh ≤ globalLimit s 0) (ho : olderNeed s q (c.needSince.getD (now s)) = false) :
    onChip (prefetch s q) = (s.tabs, s.frames, s.buffer.sharedUsed + prefetchReserve sh) := by
  have hroom : ¬(64 ≤ prefetchSheets s ∨ globalLimit s 0 < s.buffer.sharedUsed + prefetchReserve sh ∨
      olderNeed s q (c.needSince.getD (now s)) = true) := by simp [ho]; omega
  have hentry := onChip_readEntry s q (c.index.findIdx fun sh => sh.reading.isNone)
  unfold prefetch
  simp only [hs, hf, hw, Bool.not_true, Bool.false_eq_true, if_false, hroom]
  rw [onChip_issueReads, onChip_emit, onChip_chargeCopy, onChip_reserve]
  exact congrArg (fun x : Sparse Image × Sparse Frame × Nat => (x.1, x.2.1, x.2.2 + prefetchReserve sh)) hentry

/-! ### Blocks that return (R168) -/

/-- What a good block makes of a record that waits for it. -/
def received (block : Nat) : RecordState → RecordState
  | .waiting bs => (match bs.erase block with | [] => .complete | l => .waiting l)
  | st => st

/-- A block that passes its checks comes off the records that wait for it, and the timeouts of its port count from 0 again (R192). -/
theorem blockReturn_good {block : Nat} {sh : Sheet} {s : State} {sts : List RecordState} (ha : awaits sh block = true)
    (hp : block ∉ sh.poison) (hk : keyGone s = false) (he : sh.keyEpoch = rd s 0x404054) (hr : sh.reading = some sts) :
    (blockReturn block .good sh s).1 =
      { unawait sh block with reading := some (sts.map (received block)), headerOk := sh.headerOk || block == 0 } ∧
    sget zeroNat (blockReturn block .good sh s).2.spill.timeouts sh.port = 0 := by
  have hp : block ∉ (unawait sh block).poison := hp
  have he : (unawait sh block).keyEpoch = rd s 0x404054 := he
  have hr : (unawait sh block).reading = some sts := hr
  unfold blockReturn
  simp only [ha, Bool.not_true, Bool.false_eq_true, if_false, hp, hk, he, hr, ne_eq, not_true, or_self, and_false]
  exact ⟨rfl, sget_sset_same _ _ _ _⟩

/-! ### Sheets that are released (R166) -/

theorem Shows.drainedCheck {α : Type} {F : State → α} {as : List Nat} (h : Shows F as) (hi : 0x404010 ∉ as) (s : State) (c : Nat) :
    F (drainedCheck s c) = F s := view_ite (h.raise (p := .spill 0) hi s 5) rfl

/-- The spill engine, the frames and the queues, which a record of an event does not touch. -/
def stock (s : State) : Spill × Sparse Frame × Sparse Queue := (s.spill, s.frames, s.queues)

theorem stock_iff {s t : State} : stock t = stock s ↔ t.spill = s.spill ∧ t.frames = s.frames ∧ t.queues = s.queues := by
  simp only [stock, Prod.mk.injEq]

theorem shows_stock : Shows stock [] := shows_of_rfl fun _ _ _ _ _ => rfl

theorem stock_refuseRelease (s : State) (q port address owner : Nat) : stock (refuseRelease s q port address owner) = stock s :=
  (shows_stock.report _ _ _ _).trans ((shows_stock.raise List.not_mem_nil _ _).trans (shows_stock.tally List.not_mem_nil _))

/-- A sheet given back lies behind the others in its partition's cache. -/
theorem stock_giveSheet (s : State) (c k address : Nat) :
    stock (giveSheet s c k address) = stock (setPart s c k { partAt s c k with cache := (partAt s c k).cache ++ [address] }) :=
  shows_stock.count _ _ _

/-- A refused release shows RELEASE_REFUSED, whatever is reported after it. -/
theorem flag_drainedCheck_refuseRelease (s : State) (q port address owner c : Nat) :
    flag (drainedCheck (refuseRelease s q port address owner) c) 0x404010 3 = true := by
  have hrefused : flag (refuseRelease s q port address owner) 0x404010 3 = true := by
    rw [refuseRelease, flag, (shows_rd (a := 0x404010) (by decide) (by decide)).report, ← flag, flag_raise _ _ _ _ _ (by decide),
      if_pos (by decide)]
  unfold drainedCheck
  split
  · rw [flag_raise _ _ _ _ _ (by decide), if_neg (by decide), hrefused]
  · exact hrefused

theorem partAt_setPart_same (s : State) (c k : Nat) (v : Partition) : partAt (setPart s c k v) c k = v := sget_sset_same _ _ _ _

/-- The pool manager has taken the request `e` from its list. -/
def takeRequest (s : State) (e : Nat × Sheet) : State := { s with spill := { s.spill with releasing := s.spill.releasing.erase e } }

section Release

variable {s : State} {q n : Nat} {e : Nat × Sheet}
  (hf : s.spill.releasing.find? (fun e => e.2.owner == q && e.2.serial == n && !e.2.writing && e.2.outstanding.isEmpty) = some e)
include hf

/-- A request whose header can be read gives its sheet back where header, owner and key agree, and is refused otherwise. -/
theorem poolRelease_of_find (headerOk ownerOk : Bool) : poolRelease s q n headerOk ownerOk false =
    drainedCheck (if headerOk && ownerOk && !keyGone s && e.2.keyEpoch == rd s 0x404054 then
        emit (giveSheet (takeRequest s e) e.2.port e.2.pool e.2.address) (cxlRequest e.2.port e.2.address 0 (sheetHeader e.2 true))
      else refuseRelease (takeRequest s e) q e.2.port e.2.address e.2.owner) e.2.port := by
  unfold poolRelease
  dsimp only
  rw [hf]
  rfl

/-- A sheet whose header, owner and key agree lies behind the others in its partition's cache. -/
theorem stock_poolRelease_of_agrees (hk : keyGone s = false) (he : e.2.keyEpoch = rd s 0x404054) :
    stock (poolRelease s q n true true false) = stock (setPart (takeRequest s e) e.2.port e.2.pool
      { partAt s e.2.port e.2.pool with cache := (partAt s e.2.port e.2.pool).cache ++ [e.2.address] }) := by
  rw [poolRelease_of_find hf, if_pos (by simp [hk, he]), shows_stock.drainedCheck List.not_mem_nil, shows_stock.emit, stock_giveSheet]
  rfl

theorem poolRelease_of_badHeader (ownerOk : Bool) : poolRelease s q n false ownerOk false =
    drainedCheck (refuseRelease (takeRequest s e) q e.2.port e.2.address e.2.owner) e.2.port := by
  rw [poolRelease_of_find hf, if_neg (by simp)]

/-- A request whose header fails its check is only taken from the list. -/
theorem stock_poolRelease_of_badHeader (ownerOk : Bool) : stock (poolRelease s q n false ownerOk false) = stock (takeRequest s e) := by
  rw [poolRelease_of_badHeader hf, shows_stock.drainedCheck List.not_mem_nil, stock_refuseRelease]

end Release

/-! ### Age (R171) -/

theorem ageScan_of_disabled {s : State} (h : flag s 0x400060 31 = false) (fuel q : Nat) : ageScan fuel s q = s := by
  cases fuel with
  | zero => rfl
  | succ fuel =>
    unfold ageScan
    split
    · rfl
    · split
      · rfl
      · exact if_pos (.inr (.inl (by simp [h])))

/-- Settles O19: each command is its step by definition, and each clause reads off the case of that step which its premises select. -/
theorem spillWritesAndReadsSheets : Obligations.SpillWritesAndReadsSheets := by
  refine ⟨fun s q c rest hs hsub hw hb hd hi hrest => ?_, fun s q c rest hs hsub hw hb hd hi hl hrest => ?_,
    fun s q c batch hs hw ho hk hi => ⟨fun hn => ?_, fun k p hc => ?_⟩, fun s q c batch w _ _ _ _ => ?_, fun s q n c sh hs hf => ?_,
    fun s q c sh hs hf hw hn hr ho => ?_, fun s q n block st => ?_, fun block sh s sts ha hp hk he hr => ?_, fun s q n r => ?_,
    fun s q n e hf hk he => ?_, fun s q n ownerOk e hf => ?_, fun s q => ?_⟩
  · refine ⟨_, rfl, settled_batchClosed s q, ?_⟩
    rw [closeBatch_of_index hs hsub hw hb hd hrest hi]
    exact spillExit_of_outstanding (congrArg Queue.spill (queueAt_setQueue_same _ _ _)) (.inl hi)
  · refine ⟨_, rfl, settled_batchClosed s q, ?_⟩
    rw [closeBatch_of_room hs hsub hw hb hd hrest hi hl]
  · exact ⟨_, congrArg done (sheetChoice_of_none hs hw ho hk hi hn), settled_setCtx _ _ _, rfl⟩
  · obtain ⟨hclock, htabs, hcontext, hserial, hhead⟩ := batchPlaced_placeBatch hs p k batch
    exact ⟨_, congrArg done (sheetChoice_of_some hs hw ho hk hi hc), rfl, hclock, htabs, hcontext, hserial, hhead⟩
  · exact ⟨_, rfl, settled_sheetWaitOver s q, rfl⟩
  · exact ⟨_, rfl, settled_sheetWritten s q n, sheetWritten_of_find hs hf⟩
  · have h := onChip_prefetch hs hf hw hn hr ho
    simp only [onChip, Prod.mk.injEq] at h
    exact ⟨_, rfl, settled_prefetch s q, h⟩
  · exact ⟨_, rfl, settled_readReturn s q n block st, rfl⟩
  · exact blockReturn_good ha hp hk he hr
  · exact ⟨_, rfl, (settled_failTimedOut _).trans (settled_readTimeout s q n r), rfl⟩
  · obtain ⟨hspill, hframes, hqueues⟩ := stock_iff.mp (stock_poolRelease_of_agrees hf hk he)
    refine ⟨_, rfl, settled_poolRelease s q n true true false, ?_, congrArg Spill.releasing hspill, hframes, hqueues⟩
    rw [partAt, hspill]
    exact congrArg Partition.cache (partAt_setPart_same _ _ _ _)
  · obtain ⟨hspill, hframes, -⟩ := stock_iff.mp (stock_poolRelease_of_badHeader hf ownerOk)
    refine ⟨_, rfl, settled_poolRelease s q n false ownerOk false, hspill, ?_, hframes⟩
    rw [poolRelease_of_badHeader hf ownerOk, flag_drainedCheck_refuseRelease]
  · exact ⟨_, rfl, settled_ageScan _ s q, rfl, fun h => ageScan_of_disabled h _ q⟩

end Sys2Proof.Machine
end

section
/-! SPILL_QUERY (R156) in a state that no run reaches. -/

namespace Sys2Proof.Machine

/-- A context with 16 sheets in prefetch, twice the most that R167 lets a queue have: one more than IN_PREFETCH can show. -/
def crowdedCtx : SpillCtx :=
  { index := List.replicate 16
      { port := 0, pool := 0, address := 0, owner := 0, serial := 0, first := 0, last := 0, blocks := 1, oldest := 0, keyEpoch := 0,
        records := [], reading := some [] } }

/-- A powered device whose queue 0 has that context. -/
def crowdedState : State :=
  setQueue { State.reset with startup := { aonUp := true, railsUp := true, island := true } } 0 { spill := some crowdedCtx }

theorem admitted_crowdedState : Admitted crowdedState .pf0 0x404078 := by decide +kernel

/-- The number in IN_PREFETCH carries into STATE, which shows BLOCKED for a queue that is SPILLING. -/
theorem shownState_crowdedState : fld (spillQuery (atRegister crowdedState .pf0 0x404078) 0) 0x40407C 31 30 = 2 := by decide +kernel

/-- Refutes O20: its clause on SPILL_QUERY of a queue in spill state fails where 16 sheets are in prefetch, a number that exceeds the four
bits of IN_PREFETCH and reaches STATE. The clause lacks the premise that a queue has at most 8 (R167). -/
theorem not_spillIsControlled : ¬ Obligations.SpillIsControlled := by
  rintro ⟨-, -, -, -, -, -, hquery, -⟩
  obtain ⟨t, ht, hstate, -⟩ := hquery crowdedState .pf0 0 crowdedCtx admitted_crowdedState (by decide +kernel)
  have hexec : exec (.spillQuery .pf0 0) crowdedState = .next (spillQuery (atRegister crowdedState .pf0 0x404078) 0) :=
    congrArg done (guarded_of_admitted admitted_crowdedState fun s => spillQuery s 0)
  cases hexec.symm.trans ht
  exact absurd (shownState_crowdedState.symm.trans hstate) (by decide)

end Sys2Proof.Machine
end

section
/-! The pages of the CXL ports, and views of what is not in the spill engine: the reset of a port (R182), its training (R184) and the discard
of its sheets (R177) leave them alone. -/

namespace Sys2Proof.Machine

/-! ### Registers of a port -/

theorem cxlReg_ne (c : Nat) {m n : Nat} (h : m ≠ n) : cxlReg c m ≠ cxlReg c n := fun e => h (Nat.add_left_cancel e)

theorem cxlReg_not_mem (c : Nat) {m n : Nat} (h : m ≠ n) : cxlReg c m ∉ [cxlReg c n] := List.mem_singleton.not.mpr (cxlReg_ne c h)

/-- The registers of a port lie above those of the spill engine and of the always-on page. -/
theorem lt_cxlReg (c off : Nat) : 0x407FFF < cxlReg c off := by unfold cxlReg; omega

theorem pageAt_cxlReg (c : Fin 4) {off : Nat} (h : off < 0x1000) : pageAt (cxlReg c off) = some (.cxl c) := by
  have hc := c.isLt
  unfold pageAt cxlReg
  rw [if_neg (by omega), if_neg (by omega), if_neg (by omega), if_neg (by omega), if_pos (by omega)]
  dsimp only
  rw [if_neg (by omega), if_neg (by omega), if_neg (by omega)]
  simp only [Option.some.injEq, Page.cxl.injEq]
  omega

/-- A write that reaches a port's register wakes no slice. -/
theorem atRegister_cxlReg (s : State) (src : Source) (c : Fin 4) {off : Nat} (h : off < 0x1000) :
    atRegister s src (cxlReg c off) = dropHeld s src (cxlReg c off) :=
  atRegister_eq s src _ fun i k => by simp [pageAt_cxlReg c h]

/-- CXL_PORT_STATUS as the spill path writes its address. -/
theorem cxlReg_status (c : Nat) : 0x408048 + c * 0x1000 = cxlReg c 0x48 := by unfold cxlReg; omega

/-- The counter of failures as the spill path writes its address. -/
theorem cxlReg_failures (c : Nat) : 0x4080AC + c * 0x1000 = cxlReg c 0xAC := by unfold cxlReg; omega

theorem cxlState_eq (s : State) (c : Nat) : cxlState s c = fld s (cxlReg c 0x48) 31 28 := by rw [cxlState, cxlReg_status]

theorem cxlState_congr {s t : State} {c : Nat} (h : rd t (cxlReg c 0x48) = rd s (cxlReg c 0x48)) : cxlState t c = cxlState s c := by
  rw [cxlState_eq, cxlState_eq, fld, fld, h]

theorem cxlState_setCxlState (s : State) (c : Nat) {v : Nat} (h : v < 16) : cxlState (setCxlState s c v) c = v := by
  rw [cxlState_eq, setCxlState, fld_setFld_same _ _ _ _ _ (by decide) (by decide)]
  exact Nat.mod_eq_of_lt h

/-- A field of CXL_PORT_STATUS below STATE. -/
theorem cxlState_setFld (s : State) (c lo v : Nat) {hi : Nat} (h : lo ≤ hi) (hh : hi < 28) :
    cxlState (setFld s (cxlReg c 0x48) hi lo v) c = cxlState s c := by
  rw [cxlState_eq, cxlState_eq, fld_setFld_other _ _ _ _ _ _ _ _ h (by omega) (.inr (.inr hh))]

/-- A register that is not CXL_PORT_STATUS. -/
theorem cxlState_wr_other (s : State) (c v : Nat) {off : Nat} (h : 0x48 ≠ off) : cxlState (wr s (cxlReg c off) v) c = cxlState s c :=
  cxlState_congr (rd_wr_other _ _ (cxlReg_ne c h))

theorem flag_setCxlState (s : State) (c v : Nat) {k : Nat} (h : k < 28) :
    flag (setCxlState s c v) (cxlReg c 0x48) k = flag s (cxlReg c 0x48) k := by
  rw [setCxlState, flag_setFld _ _ _ _ _ _ _ (by decide) (by decide), if_neg (by omega)]

theorem fld_setCxlState (s : State) (c v lo : Nat) {hi : Nat} (h : hi < 28) :
    fld (setCxlState s c v) (cxlReg c 0x48) hi lo = fld s (cxlReg c 0x48) hi lo :=
  fld_setFld_other _ _ _ _ _ _ _ _ (by decide) (by decide) (.inr (.inl h))

theorem cxlLinkAt_setCxlLink (s : State) (c : Nat) (v : CxlLink) : cxlLinkAt (setCxlLink s c v) c = v := sget_sset_same _ _ _ _

/-! A link is in no register. -/

theorem rd_setCxlLink (s : State) (c : Nat) (v : CxlLink) (a : Nat) : rd (setCxlLink s c v) a = rd s a := rfl

theorem flag_setCxlLink (s : State) (c : Nat) (v : CxlLink) (a k : Nat) : flag (setCxlLink s c v) a k = flag s a k := by
  rw [flag, rd_setCxlLink, flag]

theorem cxlState_setCxlLink (s : State) (c : Nat) (v : CxlLink) (d : Nat) : cxlState (setCxlLink s c v) d = cxlState s d :=
  cxlState_congr (rd_setCxlLink s c v _)

theorem RegsBut.setCxlLink {as : List Nat} {s t : State} (h : RegsBut as s t) (c : Nat) (v : CxlLink) :
    RegsBut as s (setCxlLink t c v) := fun a ha => (rd_setCxlLink t c v a).trans (h a ha)

theorem RegsBut.emit {as : List Nat} {s t : State} (h : RegsBut as s t) (o : Out) : RegsBut as s (emit t o) :=
  fun a ha => (rd_emit t o a).trans (h a ha)

/-! ### The reset pin -/

/-- A device that is reset has forgotten its link. -/
def resetLink (s : State) (c : Nat) (asserted : Bool) : State := if asserted then setCxlLink s c {} else s

theorem rd_resetLink (s : State) (c : Nat) (asserted : Bool) (a : Nat) : rd (resetLink s c asserted) a = rd s a := by
  cases asserted <;> rfl

theorem flag_resetLink (s : State) (c : Nat) (asserted : Bool) (a k : Nat) : flag (resetLink s c asserted) a k = flag s a k := by
  rw [flag, rd_resetLink, flag]

theorem setPerst_eq (s : State) (c : Nat) (asserted : Bool) : setPerst s c asserted =
    if flag s (cxlReg c 0x48) 23 = asserted then resetLink s c asserted
    else emit (setFlag (resetLink s c asserted) (cxlReg c 0x48) 23 asserted) (.pin "CXL_PERST_N" c !asserted) := by
  rw [← flag_resetLink s c asserted, setPerst, cxlReg_status]
  rfl

/-- A reset that is asserted is released. -/
theorem setPerst_release {s : State} {c : Nat} (h : flag s (cxlReg c 0x48) 23 = true) :
    setPerst s c false = emit (setFlag s (cxlReg c 0x48) 23 false) (.pin "CXL_PERST_N" c true) := by
  rw [setPerst_eq, if_neg (by simp [h])]
  rfl

theorem flag_setPerst (s : State) (c : Nat) (asserted : Bool) : flag (setPerst s c asserted) (cxlReg c 0x48) 23 = asserted := by
  rw [setPerst_eq]
  split
  · next h => rw [flag_resetLink, h]
  · exact flag_setFlag_same (resetLink s c asserted) _ _ _ (by decide)

/-- The other fields of CXL_PORT_STATUS do not follow the reset pin. -/
theorem fld_setPerst (s : State) (c lo : Nat) (asserted : Bool) {hi : Nat} (h : hi < 23 ∨ 23 < lo) :
    fld (setPerst s c asserted) (cxlReg c 0x48) hi lo = fld s (cxlReg c 0x48) hi lo := by
  have hlink : fld (resetLink s c asserted) (cxlReg c 0x48) hi lo = fld s (cxlReg c 0x48) hi lo := by rw [fld, rd_resetLink, fld]
  rw [setPerst_eq]
  split
  · exact hlink
  · exact (fld_setFlag_other (resetLink s c asserted) _ _ _ _ _ _ (by decide) (.inr h)).trans hlink

theorem cxlState_setPerst (s : State) (c : Nat) (asserted : Bool) : cxlState (setPerst s c asserted) c = cxlState s c := by
  rw [cxlState_eq, cxlState_eq, fld_setPerst _ _ _ _ (.inr (by decide))]

/-! ### Views without the spill engine -/

/-- The view shows nothing of the spill engine but the sheets on their way to release. -/
structure ShowsNoEngine {α : Type} (F : State → α) (as : List Nat) : Prop extends Shows F as where
  engine : ∀ s x, x.releasing = s.spill.releasing → F { s with spill := x } = F s

theorem showsNoEngine_rd {a : Nat} (h2 : a / 0x1000 ≠ 2) (hd : a ≠ 0xD010) : ShowsNoEngine (fun s => rd s a) [a] where
  toShows := shows_rd h2 hd
  engine _ _ _ := rfl

/-- A register of a port. -/
theorem showsNoEngine_cxlReg (c off : Nat) : ShowsNoEngine (fun s => rd s (cxlReg c off)) [cxlReg c off] :=
  showsNoEngine_rd (by have := lt_cxlReg c off; omega) (by have := lt_cxlReg c off; omega)

/-- The queues, the sheets on their way to release and the frames. -/
def traffic (s : State) : Sparse Queue × List (Nat × Sheet) × Sparse Frame := (s.queues, s.spill.releasing, s.frames)

theorem traffic_iff {s t : State} : traffic t = traffic s ↔
    t.queues = s.queues ∧ t.spill.releasing = s.spill.releasing ∧ t.frames = s.frames := by
  simp only [traffic, Prod.mk.injEq]

theorem showsNoEngine_traffic : ShowsNoEngine traffic [] where
  toShows := shows_of_rfl fun _ _ _ _ _ => rfl
  engine _ _ h := traffic_iff.mpr ⟨rfl, h, rfl⟩

theorem showsNoEngine_firmware : ShowsNoEngine State.firmware [] where
  toShows := shows_of_rfl fun _ _ _ _ _ => rfl
  engine _ _ _ := rfl

theorem noSpill_of_traffic {s t : State} (h : traffic t = traffic s) (hn : NoSpill s) : NoSpill t := by
  obtain ⟨hqueues, hreleasing, -⟩ := traffic_iff.mp h
  exact ⟨hqueues ▸ hn.1, hreleasing.trans hn.2⟩

/-! ### PLACE and the discard (R176, R177) -/

theorem spilling_of_noSpill {s : State} (h : ∀ e ∈ s.queues, e.2.spill = none) : (s.queues.filter fun e => e.2.spill.isSome) = [] :=
  List.filter_eq_nil_iff.mpr fun e he => by simp [h e he]

theorem drainCheck_of_noSpill {s : State} (h : ∀ e ∈ s.queues, e.2.spill = none) : drainCheck s = s := by
  rw [drainCheck, spilling_of_noSpill h]
  rfl

/-- A write of PLACE lets queues drain, and raises PORT_DRAINED. -/
theorem Shows.setPlace {α : Type} {F : State → α} {as : List Nat} (h : Shows F as) (hi : 0x404010 ∉ as) (s : State) (mask : Nat) :
    F (setPlace s mask) = F (drainCheck (Machine.setFld s 0x404040 31 28 mask)) :=
  view_foldl (fun u c => view_ite (h.drainedCheck hi u c) rfl) _ _

/-- Where no queue spills, a write of PLACE changes its field alone. -/
theorem Shows.setPlace_of_noSpill {α : Type} {F : State → α} {as : List Nat} (h : Shows F as) (hi : 0x404010 ∉ as) {s : State}
    (hn : ∀ e ∈ s.queues, e.2.spill = none) (mask : Nat) : F (Machine.setPlace s mask) = F (Machine.setFld s 0x404040 31 28 mask) :=
  (h.setPlace hi s mask).trans (congrArg F (drainCheck_of_noSpill hn))

/-- PLACE without the bit of port `c`. -/
def placeWithout (s : State) (c : Nat) : Nat := fld s 0x404040 31 28 &&& (15 ^^^ 2 ^ c)

/-- What the spill engine holds once the sheets of port `c` are discarded, none being on its way to release. -/
def forgetSheets (x : Spill) (c : Nat) : Spill :=
  { x with releasing := [], quarantined := x.quarantined.filter fun e => e.1 != c, writing := sset zeroNat x.writing c 0 }

/-- The partitions of port `c` are cleared. -/
def clearParts (s : State) (c : Nat) : State := (List.range 4).foldl (fun s k => setPart s c k {}) s

theorem traffic_setPlace {s : State} (hn : NoSpill s) (mask : Nat) : traffic (setPlace s mask) = traffic s :=
  (showsNoEngine_traffic.setPlace_of_noSpill List.not_mem_nil hn.1 _).trans (showsNoEngine_traffic.setFld List.not_mem_nil _ _ _ _)

/-- Where no queue spills and no sheet is being released, the discard finds no sheet to abandon. -/
theorem forceDiscard_of_noSpill {s : State} (hn : NoSpill s) (c : Nat) : forceDiscard s c =
    (let u := setPlace s (placeWithout s c)
    drainedCheck (clearParts { u with spill := forgetSheets u.spill c } c) c) := by
  obtain ⟨hspill, hreleasing⟩ := noSpill_of_traffic (traffic_setPlace hn (placeWithout s c)) hn
  unfold placeWithout at hspill hreleasing
  simp only [forceDiscard, placeWithout, hreleasing, List.filter_nil, List.foldl_nil, spilling_of_noSpill hspill, List.map_nil, forgetSheets,
    clearParts]

theorem bitAt_place_without : ∀ n < 16, ∀ c < 4, bitAt (n &&& (15 ^^^ 2 ^ c)) c = false := by decide

/-- Partitions that are cleared one after the other. -/
theorem partAt_foldl_clear (c k : Nat) (l : List Nat) (s : State) :
    partAt (l.foldl (fun s k => setPart s c k {}) s) c k = if k ∈ l then {} else partAt s c k := by
  induction l generalizing s with
  | nil => rfl
  | cons j l ih =>
    have hset : partAt (setPart s c j {}) c k = if k = j then {} else partAt s c k :=
      (sget_sset _ _ _ _ _).trans (by simp only [Nat.add_left_cancel_iff, partAt])
    rw [List.foldl_cons, ih, hset]
    by_cases hj : k = j <;> simp [hj]

theorem partAt_forceDiscard {s : State} (hn : NoSpill s) (c : Nat) {k : Nat} (hk : k < 4) : partAt (forceDiscard s c) c k = {} := by
  have h : Shows (fun s => partAt s c k) [] := shows_of_rfl fun _ _ _ _ _ => rfl
  rw [forceDiscard_of_noSpill hn]
  refine (h.drainedCheck List.not_mem_nil _ _).trans ?_
  rw [clearParts, partAt_foldl_clear, if_pos (List.mem_range.mpr hk)]

namespace ShowsNoEngine

variable {α : Type} {F : State → α} {as : List Nat} (h : ShowsNoEngine F as)
include h

theorem setCxlLink (s : State) (c : Nat) (v : CxlLink) : F (setCxlLink s c v) = F s := h.engine s _ rfl

theorem setPart (s : State) (c k : Nat) (v : Partition) : F (setPart s c k v) = F s := h.engine s _ rfl

theorem clearParts (s : State) (c : Nat) : F (clearParts s c) = F s := view_foldl (fun u k => h.setPart u c k {}) _ s

theorem resetLink (s : State) (c : Nat) (asserted : Bool) : F (resetLink s c asserted) = F s := view_ite (h.setCxlLink s c {}) rfl

theorem setPerst {c : Nat} (ha : cxlReg c 0x48 ∉ as) (s : State) (asserted : Bool) : F (setPerst s c asserted) = F s := by
  rw [setPerst_eq]
  exact view_ite (h.resetLink _ _ _) ((h.emit _ _).trans ((h.setFlag ha _ _ _).trans (h.resetLink _ _ _)))

theorem cxlTrain {c : Nat} (ha : cxlReg c 0x48 ∉ as) (s : State) : F (cxlTrain s c) = F s :=
  view_ite ((h.setCxlLink _ _ _).trans (h.setFld ha _ _ _ _)) rfl

/-- A port that holds no sheet only loses its PLACE and its partitions. -/
theorem forceDiscard (hi : 0x404010 ∉ as) {s : State} (hn : NoSpill s) (c : Nat) :
    F (forceDiscard s c) = F (Machine.setFld s 0x404040 31 28 (placeWithout s c)) := by
  obtain ⟨-, hreleasing⟩ := noSpill_of_traffic (traffic_setPlace hn (placeWithout s c)) hn
  rw [forceDiscard_of_noSpill hn]
  refine (h.drainedCheck hi _ _).trans ((h.clearParts _ _).trans ?_)
  exact (h.engine _ _ hreleasing.symm).trans (h.setPlace_of_noSpill hi hn.1 _)

end ShowsNoEngine

/-- A discarded port places no sheets. -/
theorem place_forceDiscard {s : State} (hn : NoSpill s) {c : Nat} (hc : c < 4) : flag (forceDiscard s c) 0x404040 (28 + c) = false := by
  have h : rd (forceDiscard s c) 0x404040 = _ := (showsNoEngine_rd (by decide) (by decide)).forceDiscard (by decide) hn c
  rw [flag, h, ← flag, flag_setFld _ _ _ _ _ _ _ (by decide) (by decide), if_pos ⟨rfl, by omega, by omega⟩, Nat.add_sub_cancel_left]
  exact bitAt_place_without _ (Nat.mod_lt _ (by decide)) c hc

theorem rd_forceDiscard_cxlReg {s : State} (hn : NoSpill s) (c d off : Nat) :
    rd (forceDiscard s c) (cxlReg d off) = rd s (cxlReg d off) := by
  have hlt := lt_cxlReg d off
  exact ((showsNoEngine_cxlReg d off).forceDiscard (by simp; omega) hn c).trans (rd_setFld_other _ _ _ _ (by omega))

theorem traffic_forceDiscard {s : State} (hn : NoSpill s) (c : Nat) : traffic (forceDiscard s c) = traffic s :=
  (showsNoEngine_traffic.forceDiscard List.not_mem_nil hn c).trans (showsNoEngine_traffic.setFld List.not_mem_nil _ _ _ _)

end Sys2Proof.Machine
end

section
/-! CXL ports that are enabled, train and are switched off (R182 to R185, R193). -/

namespace Sys2Proof.Machine

/-! ### Training (R184) -/

theorem cxlTrain_of_off {s : State} {c : Nat} (he : cxlEnabled s c = true) (h0 : cxlState s c = 0) (hr : s.firmware.running = true) :
    cxlTrain s c = setCxlLink (setCxlState s c 1) c { t0 := now s } := if_pos ⟨he, h0, hr⟩

theorem cxlTrain_of_on {s : State} {c : Nat} (h : cxlState s c ≠ 0) : cxlTrain s c = s := if_neg fun hn => h hn.2.1

/-- A port that is OFF starts to train where it is enabled and firmware runs. -/
theorem cxlState_cxlTrain {s : State} {c : Nat} (h0 : cxlState s c = 0) :
    cxlState (cxlTrain s c) c = if cxlEnabled s c ∧ s.firmware.running then 1 else 0 := by
  by_cases h : cxlEnabled s c ∧ s.firmware.running
  · rw [cxlTrain_of_off h.1 h0 h.2, if_pos h, cxlState_setCxlLink, cxlState_setCxlState _ _ (by decide)]
  · rw [cxlTrain, if_neg fun hn => h ⟨hn.1, hn.2.2⟩, if_neg h, h0]

theorem perst_cxlTrain (s : State) (c : Nat) : flag (cxlTrain s c) (cxlReg c 0x48) 23 = flag s (cxlReg c 0x48) 23 := by
  unfold cxlTrain
  split
  · rw [flag_setCxlLink, flag_setCxlState _ _ _ (by decide)]
  · rfl

/-! ### A port without a link -/

/-- The port is OFF, and CXL_PORT_STATUS shows no link. -/
def linkOff (s : State) (c : Nat) : State := setFld (setCxlState s c 0) (cxlReg c 0x48) 22 16 0

theorem cxlState_linkOff (s : State) (c : Nat) : cxlState (linkOff s c) c = 0 :=
  (cxlState_setFld _ _ _ _ (by decide) (by decide)).trans (cxlState_setCxlState _ _ (by decide))

theorem link_linkOff (s : State) (c : Nat) : fld (linkOff s c) (cxlReg c 0x48) 22 16 = 0 :=
  fld_setFld_same _ _ _ _ _ (by decide) (by decide)

theorem perst_linkOff (s : State) (c : Nat) : flag (linkOff s c) (cxlReg c 0x48) 23 = flag s (cxlReg c 0x48) 23 := by
  rw [linkOff, flag_setFld _ _ _ _ _ _ _ (by decide) (by decide), if_neg (by omega), flag_setCxlState _ _ _ (by decide)]

theorem ShowsNoEngine.linkOff {α : Type} {F : State → α} {as : List Nat} (h : ShowsNoEngine F as) {c : Nat} (ha : cxlReg c 0x48 ∉ as)
    (s : State) : F (linkOff s c) = F s := (h.setFld ha _ _ _ _).trans (h.setFld ha _ _ _ _)

/-! ### ENABLE written -/

/-- The state but for its registers, the links of its CXL ports and what a bus access leaves. -/
def besideLinks (s : State) : State := { s with regs := [], spill := { s.spill with links := [] }, access := {} }

theorem eq_of_besideLinks {s t : State} (h : besideLinks t = besideLinks s) :
    t = { s with regs := t.regs, spill := { s.spill with links := t.spill.links }, access := t.access } :=
  congrArg (fun u => { u with regs := t.regs, spill := { u.spill with links := t.spill.links }, access := t.access }) h

theorem besideLinks_setFld (s : State) (a hi lo v : Nat) : besideLinks (setFld s a hi lo v) = besideLinks s := rfl

theorem besideLinks_setCxlLink (s : State) (c : Nat) (v : CxlLink) : besideLinks (setCxlLink s c v) = besideLinks s := rfl

/-- What a write of ENABLE by `src` leaves before the port follows it. -/
def cxlEnableWritten (s : State) (src : Source) (c : Nat) (on : Bool) : State :=
  setFlag (dropHeld s src (cxlReg c 0x40)) (cxlReg c 0x40) 31 on

theorem cxlEnabled_cxlEnableWritten (s : State) (src : Source) (c : Nat) (on : Bool) :
    cxlEnabled (cxlEnableWritten s src c on) c = on := flag_setFlag_same _ _ _ _ (by decide)

theorem cxlState_cxlEnableWritten (s : State) (src : Source) (c : Nat) (on : Bool) :
    cxlState (cxlEnableWritten s src c on) c = cxlState s c := cxlState_wr_other _ _ _ (by decide)

theorem besideLinks_cxlEnableWritten (s : State) (src : Source) (c : Nat) (on : Bool) :
    besideLinks (cxlEnableWritten s src c on) = besideLinks s := besideLinks_setFld _ _ _ _ _

theorem regsBut_cxlEnableWritten (s : State) (src : Source) (c : Nat) (on : Bool) {as : List Nat} (ha : cxlReg c 0x40 ∈ as) :
    RegsBut as s (cxlEnableWritten s src c on) := (RegsBut.of_regs_eq as (t := dropHeld s src (cxlReg c 0x40)) rfl).setFlag ha _ _

section Enable

variable {s : State} {src : Source} {c : Fin 4} (h : Admitted s src (cxlReg c 0x40))
include h

theorem exec_cxlPortEnable : exec (.cxlPortEnable src c) s = .next (cxlTrain (cxlEnableWritten s src c true) c) := by
  refine congrArg done ((guarded_of_admitted h _).trans ?_)
  rw [atRegister_cxlReg s src c (by decide)]
  rfl

theorem exec_cxlPortEnable_of_on (h0 : cxlState s c ≠ 0) :
    exec (.cxlPortEnable src c) s = .next (cxlEnableWritten s src c true) := by
  rw [exec_cxlPortEnable h, cxlTrain_of_on (by rwa [cxlState_cxlEnableWritten])]

theorem exec_cxlPortDisable_of_off (h0 : cxlState s c = 0) :
    exec (.cxlPortDisable src c) s = .next (cxlEnableWritten s src c false) := by
  refine congrArg done ((guarded_of_admitted h _).trans ?_)
  rw [atRegister_cxlReg s src c (by decide)]
  exact if_pos ((cxlState_cxlEnableWritten s src c false).trans h0)

/-- A port in use that is disabled loses its sheets, its link and its device (log 22). -/
theorem exec_cxlPortDisable_of_on (h0 : cxlState s c ≠ 0) : exec (.cxlPortDisable src c) s =
    .next (setPerst (linkOff (forceDiscard (setFlag (atRegister s src (cxlReg c 0x40)) (cxlReg c 0x40) 31 false) c) c) c true) := by
  refine congrArg done ((guarded_of_admitted h _).trans ?_)
  rw [atRegister_cxlReg s src c (by decide)]
  exact if_neg ((cxlState_cxlEnableWritten s src c false).trans_ne h0)

/-- CXL_PORT_ENABLE of a port that is OFF (R184). -/
theorem cxlPortEnable_trains (h0 : cxlState s c = 0) (hr : s.firmware.running = true) :
    ∃ t, exec (.cxlPortEnable src c) s = .next t ∧ settled t = settled s ∧ flag t (cxlReg c 0x40) 31 = true ∧ cxlState t c = 1 ∧
      cxlLinkAt t c = { t0 := now s } ∧ RegsBut [cxlReg c 0x40, cxlReg c 0x48] s t ∧
      t = { s with regs := t.regs, spill := { s.spill with links := t.spill.links }, access := t.access } := by
  have hexec := exec_cxlPortEnable h
  have htrain := cxlTrain_of_off (cxlEnabled_cxlEnableWritten s src c true) ((cxlState_cxlEnableWritten s src c true).trans h0) hr
  rw [htrain] at hexec
  refine ⟨_, hexec, settled_execCxlPortEnable src c s _ hexec, ?_, ?_, cxlLinkAt_setCxlLink _ _ _, ?_, eq_of_besideLinks ?_⟩
  · rw [flag_setCxlLink, setCxlState, setFld, flag_wr_other _ _ _ (cxlReg_ne c (by decide))]
    exact cxlEnabled_cxlEnableWritten s src c true
  · rw [cxlState_setCxlLink, cxlState_setCxlState _ _ (by decide)]
  · exact ((regsBut_cxlEnableWritten s src c true (by simp)).wr (by simp) _).setCxlLink _ _
  · exact (besideLinks_setCxlLink _ _ _).trans ((besideLinks_setFld _ _ _ _ _).trans (besideLinks_cxlEnableWritten s src c true))

/-- CXL_PORT_DISABLE of a port in use (R182, R193). -/
theorem cxlPortDisable_switchesOff (h0 : cxlState s c ≠ 0) {u : State}
    (hu : u = forceDiscard (setFlag (atRegister s src (cxlReg c 0x40)) (cxlReg c 0x40) 31 false) c) :
    ∃ t, exec (.cxlPortDisable src c) s = .next t ∧ t = setPerst (linkOff u c) c true ∧ cxlState t c = 0 ∧
      flag t (cxlReg c 0x48) 23 = true ∧ fld t (cxlReg c 0x48) 22 16 = 0 ∧ t.clock = s.clock ∧ t.regsCur = s.regsCur ∧
      t.tabsCur = s.tabsCur := by
  have hexec := exec_cxlPortDisable_of_on h h0
  rw [← hu] at hexec
  obtain ⟨⟨hclock, -, hregs, htabs⟩, -⟩ := basis_iff.mp (basis_of_settled (settled_execCxlPortDisable src c s _ hexec))
  refine ⟨_, hexec, rfl, ?_, flag_setPerst _ _ _, ?_, hclock, hregs, htabs⟩
  · rw [cxlState_setPerst, cxlState_linkOff]
  · rw [fld_setPerst _ _ _ _ (.inl (by decide)), link_linkOff]

end Enable

/-! ### Time passes for a port that trains (R182, R184) -/

/-- The reset of a port that is due for it is released. -/
theorem cxlPerstRelease_of_due {s : State} {c : Nat} (h1 : cxlState s c = 1) (hp : flag s (cxlReg c 0x48) 23 = true)
    (ht : (cxlLinkAt s c).t0 + 100000 ≤ now s) (hs : 100000000 ≤ now s) :
    cxlPerstRelease s c = setCxlLink (emit (setFlag s (cxlReg c 0x48) 23 false) (.pin "CXL_PERST_N" c true)) c
      { cxlLinkAt s c with released := now s } := by
  rw [← setPerst_release hp]
  exact if_pos ⟨h1, hp, ht, hs⟩

/-- Before the bound of 100 ms the release is all that a tick does. -/
theorem cxlTick_of_due {s : State} {c : Nat} (h1 : cxlState s c = 1) (hp : flag s (cxlReg c 0x48) 23 = true)
    (ht : (cxlLinkAt s c).t0 + 100000 ≤ now s) (hs : 100000000 ≤ now s) (hl : now s < (cxlLinkAt s c).t0 + 100000000) :
    cxlTick s c = setCxlLink (emit (setFlag s (cxlReg c 0x48) 23 false) (.pin "CXL_PERST_N" c true)) c
      { cxlLinkAt s c with released := now s } := by
  rw [cxlTick, cxlPerstRelease_of_due h1 hp ht hs]
  refine if_neg fun hn => ?_
  obtain ⟨-, hbound⟩ := hn
  rw [cxlLinkAt_setCxlLink] at hbound
  exact Nat.not_lt.mpr hbound hl

/-- Without a link 100 ms after t0 the port fails with LINK_DOWN. -/
theorem cxlTick_of_late {s : State} {c : Nat} (h1 : cxlState s c = 1) (hp : flag s (cxlReg c 0x48) 23 = false)
    (ht : (cxlLinkAt s c).t0 + 100000000 ≤ now s) : cxlTick s c = cxlFail s c 1 := by
  have hreleased : cxlPerstRelease s c = s := if_neg fun hn => by simp [hp] at hn
  rw [cxlTick, hreleased]
  exact if_pos ⟨h1, ht⟩

/-! ### The link (R180, R184) -/

section Link

variable {s : State} {c : Nat} (h1 : cxlState s c = 1) (hp : flag s (cxlReg c 0x48) 23 = false) (x8 : Bool) (rate : Nat) (cxl2 : Bool)
include h1 hp

/-- The port trains with its reset released, so it waits for the link. -/
theorem awaits_link : ¬(cxlState s c ≠ 1 ∨ flag s (cxlReg c 0x48) 23 = true) := by simp [h1, hp]

/-- A wide link to a memory device: the port enumerates, and shows the generation, the width and the rate. -/
theorem cxlLinked_of_memory : ∃ width speed, cxlLinked s c x8 rate cxl2 true true =
    setCxlState (setFld (setFld (setFld s (cxlReg c 0x48) 22 21 (if cxl2 then 2 else 1)) (cxlReg c 0x48) 20 19 width)
      (cxlReg c 0x48) 18 16 speed) c 2 := ⟨_, _, if_neg (awaits_link h1 hp)⟩

theorem cxlLinked_of_narrow (mem : Bool) : cxlLinked s c x8 rate cxl2 false mem = cxlFail s c 2 := if_neg (awaits_link h1 hp)

theorem cxlLinked_of_other : cxlLinked s c x8 rate cxl2 true false = cxlFail s c 3 := if_neg (awaits_link h1 hp)

end Link

/-- CXL_LINK_UP of a wide memory link (R184). -/
theorem cxlLinkUp_enumerates {s : State} {c : Fin 4} (h1 : cxlState s c = 1) (hp : flag s (cxlReg c 0x48) 23 = false) (x8 : Bool)
    (rate : Fin 4) (cxl2 : Bool) : ∃ t, exec (.cxlLinkUp c x8 rate cxl2 true true) s = .next t ∧ cxlState t c = 2 ∧
      fld t (cxlReg c 0x48) 22 21 = (if cxl2 then 2 else 1) ∧ RegsBut [cxlReg c 0x48] s t ∧ t = { s with regs := t.regs } := by
  obtain ⟨width, speed, hlinked⟩ := cxlLinked_of_memory h1 hp x8 rate cxl2
  refine ⟨_, congrArg done hlinked, cxlState_setCxlState _ _ (by decide), ?_, ?_, rfl⟩
  · rw [fld_setCxlState _ _ _ _ (by decide), fld_setFld_other _ _ _ _ _ _ _ _ (by decide) (by decide) (.inr (.inr (by decide))),
      fld_setFld_other _ _ _ _ _ _ _ _ (by decide) (by decide) (.inr (.inr (by decide))),
      fld_setFld_same _ _ _ _ _ (by decide) (by decide)]
    cases cxl2 <;> rfl
  · exact ((((RegsBut.of_regs_eq _ rfl).wr (by simp) _).wr (by simp) _).wr (by simp) _).wr (by simp) _

end Sys2Proof.Machine
end

section
/-! CXL ports that fail, are reset and end a sanitisation (R184, R191 to R194). -/

namespace Sys2Proof.Machine

/-! ### Failure (R193) -/

/-- A sanitisation that ran when the port failed has failed (R191). -/
def sanitizeLost (s : State) (c : Nat) : State :=
  if cxlState s c = 5 then { s with firmware := { s.firmware with sanitized := sset zeroNat s.firmware.sanitized c 2 } } else s

/-- CXL_PORT_STATUS of a port that has failed, and its reset. -/
def failedLink (s : State) (c cause : Nat) : State :=
  setPerst (setFld (setFld (setFld (sanitizeLost s c) (cxlReg c 0x48) 31 28 4) (cxlReg c 0x48) 27 24 cause) (cxlReg c 0x48) 22 16 0) c true

/-- The read timeouts of port `c` count from 0 again. -/
def timeoutsOver (s : State) (c : Nat) : State := { s with spill := { s.spill with timeouts := sset zeroNat s.spill.timeouts c 0 } }

/-- A port that has failed, before its sheets are discarded. -/
def cxlFailed (s : State) (c cause : Nat) : State :=
  report (timeoutsOver (raise (tally (failedLink s c cause) (cxlReg c 0xAC)) (.cxl c) 1) c) 0x040B (.cxl c) [cause]

theorem cxlFail_eq (s : State) (c cause : Nat) : cxlFail s c cause = forceDiscard (cxlFailed s c cause) c := by
  rw [cxlFail, cxlReg_status, cxlReg_failures]
  rfl

theorem ShowsNoEngine.timeoutsOver {α : Type} {F : State → α} {as : List Nat} (h : ShowsNoEngine F as) (s : State) (c : Nat) :
    F (timeoutsOver s c) = F s := h.engine s _ rfl

theorem ShowsNoEngine.cxlFailed {α : Type} {F : State → α} {as : List Nat} (h : ShowsNoEngine F as) {c : Nat} (ha : cxlReg c 0xAC ∉ as)
    (hi : cxlReg c 0x10 ∉ as) (s : State) (cause : Nat) : F (cxlFailed s c cause) = F (failedLink s c cause) :=
  (h.report _ _ _ _).trans ((h.timeoutsOver _ c).trans ((h.raise (p := .cxl c) hi _ _).trans (h.tally ha _)))

theorem rd_cxlFailed_status (s : State) (c cause : Nat) :
    rd (cxlFailed s c cause) (cxlReg c 0x48) = rd (failedLink s c cause) (cxlReg c 0x48) :=
  (showsNoEngine_cxlReg c 0x48).cxlFailed (cxlReg_not_mem c (by decide)) (cxlReg_not_mem c (by decide)) s cause

theorem traffic_failedLink (s : State) (c cause : Nat) : traffic (failedLink s c cause) = traffic s := by
  have h := showsNoEngine_traffic
  have hlost : traffic (sanitizeLost s c) = traffic s := view_ite rfl rfl
  refine (h.setPerst List.not_mem_nil _ _).trans ((h.setFld List.not_mem_nil _ _ _ _).trans ?_)
  exact (h.setFld List.not_mem_nil _ _ _ _).trans ((h.setFld List.not_mem_nil _ _ _ _).trans hlost)

theorem traffic_cxlFailed (s : State) (c cause : Nat) : traffic (cxlFailed s c cause) = traffic s :=
  (showsNoEngine_traffic.cxlFailed List.not_mem_nil List.not_mem_nil s cause).trans (traffic_failedLink s c cause)

theorem cxlState_failedLink (s : State) (c cause : Nat) : cxlState (failedLink s c cause) c = 4 := by
  rw [failedLink, cxlState_setPerst, cxlState_setFld _ _ _ _ (by decide) (by decide), cxlState_setFld _ _ _ _ (by decide) (by decide)]
  exact cxlState_setCxlState _ _ (by decide)

theorem cause_failedLink (s : State) (c : Nat) {cause : Nat} (h : cause < 16) :
    fld (failedLink s c cause) (cxlReg c 0x48) 27 24 = cause := by
  rw [failedLink, fld_setPerst _ _ _ _ (.inr (by decide)),
    fld_setFld_other _ _ _ _ _ _ _ _ (by decide) (by decide) (.inr (.inr (by decide))),
    fld_setFld_same _ _ _ _ _ (by decide) (by decide)]
  exact Nat.mod_eq_of_lt h

/-- What a port that held no sheet shows once it has failed, and what its failure leaves alone. -/
theorem cxlFail_of_noSpill {s : State} (hn : NoSpill s) {c cause : Nat} (hc : c < 4) (h : cause < 16) :
    cxlState (cxlFail s c cause) c = 4 ∧ fld (cxlFail s c cause) (cxlReg c 0x48) 27 24 = cause ∧
      flag (cxlFail s c cause) (cxlReg c 0x48) 23 = true ∧ flag (cxlFail s c cause) 0x404040 (28 + c) = false ∧
      (∀ k, k < 4 → partAt (cxlFail s c cause) c k = {}) ∧ (cxlFail s c cause).queues = s.queues ∧
      (cxlFail s c cause).frames = s.frames := by
  have hfailed := noSpill_of_traffic (traffic_cxlFailed s c cause) hn
  have hstatus := (rd_forceDiscard_cxlReg hfailed c c 0x48).trans (rd_cxlFailed_status s c cause)
  obtain ⟨hqueues, -, hframes⟩ := traffic_iff.mp ((traffic_forceDiscard hfailed c).trans (traffic_cxlFailed s c cause))
  rw [cxlFail_eq]
  refine ⟨?_, ?_, ?_, place_forceDiscard hfailed hc, fun k => partAt_forceDiscard hfailed c, hqueues, hframes⟩
  · rw [cxlState_congr hstatus, cxlState_failedLink]
  · rw [fld, hstatus, ← fld, cause_failedLink s c h]
  · rw [flag, hstatus, ← flag]
    exact flag_setPerst _ _ _

/-! ### Causes (R184, R192) -/

theorem cxlStepFails_of_enumerating {s : State} {c : Nat} (h : cxlState s c = 2) (cause : Nat) : cxlStepFails s c cause =
    if cause = 3 ∨ cause = 5 ∨ (cause = 4 ∧ (cxlLinkAt s c).released + 1000000000 ≤ now s) then cxlFail s c cause
    else if 6 ≤ cause ∧ cause ≤ 8 then cxlFail (identify s c) c cause else s := by
  simp only [cxlStepFails, h]

section InUse

variable {s : State} {c : Nat} (h : cxlState s c = 1 ∨ cxlState s c = 2 ∨ cxlState s c = 3 ∨ cxlState s c = 5)
include h

theorem inUse_not_idle : ¬(cxlState s c ≠ 1 ∧ cxlState s c ≠ 2 ∧ cxlState s c ≠ 3 ∧ cxlState s c ≠ 5) := by omega

/-- LINK_DOWN, UNCORRECTABLE and TIMEOUTS fail a port in use. -/
theorem cxlError_of_fatal {cause : Nat} (hc : cause = 1 ∨ cause = 9 ∨ cause = 10) : cxlError s c cause = cxlFail s c cause := by
  obtain rfl | rfl | rfl := hc <;> exact if_neg (inUse_not_idle h)

/-- A retrain without loss of link is counted and reported (log 22). -/
theorem cxlError_of_retrain : cxlError s c 12 = report (tally s (cxlReg c 0xA8)) 0x040A (.cxl c) [] := if_neg (inUse_not_idle h)

end InUse

/-- CXL_PORT_FAILURE with a retrain: the port stays READY, and the spill engine as it is. -/
theorem cxlPortFailure_retrain {s : State} {c : Fin 4} (h : cxlState s c = 3) :
    ∃ t, exec (.cxlPortFailure c 12) s = .next t ∧ settled t = settled s ∧ cxlState t c = 3 ∧ t.spill = s.spill := by
  have hstatus := showsNoEngine_cxlReg c 0x48
  have hspill : Shows State.spill [] := shows_of_rfl fun _ _ _ _ _ => rfl
  have hexec : exec (.cxlPortFailure c 12) s = _ := congrArg done (cxlError_of_retrain (.inr (.inr (.inl h))))
  refine ⟨_, hexec, settled_execCxlPortFailure c 12 s _ hexec, ?_, ?_⟩
  · rw [← h]
    exact cxlState_congr ((hstatus.report _ _ _ _).trans (hstatus.tally (cxlReg_not_mem c (by decide)) _))
  · exact (hspill.report _ _ _ _).trans (hspill.tally List.not_mem_nil _)

/-! ### Reset (R194) -/

/-- A port whose sheets are discarded, which is OFF and in reset. -/
def cxlInReset (s : State) (c : Nat) : State := linkOff (setPerst (forceDiscard s c) c true) c

theorem ShowsNoEngine.cxlInReset {α : Type} {F : State → α} {as : List Nat} (h : ShowsNoEngine F as) {c : Nat} (ha : cxlReg c 0x48 ∉ as)
    (hp : 0x404040 ∉ as) (hi : 0x404010 ∉ as) {s : State} (hn : NoSpill s) : F (cxlInReset s c) = F s :=
  (h.linkOff ha _).trans ((h.setPerst ha _ _).trans ((h.forceDiscard hi hn c).trans (h.setFld hp _ _ _ _)))

theorem perst_cxlInReset (s : State) (c : Nat) : flag (cxlInReset s c) (cxlReg c 0x48) 23 = true :=
  (perst_linkOff _ _).trans (flag_setPerst _ _ _)

/-- A port that held no sheet starts again where it is enabled and firmware runs. -/
theorem cxlReset_of_noSpill {s : State} (hn : NoSpill s) (c : Nat) :
    cxlState (cxlReset s c) c = (if cxlEnabled s c ∧ s.firmware.running then 1 else 0) ∧
      flag (cxlReset s c) (cxlReg c 0x48) 23 = true ∧ (cxlReset s c).queues = s.queues ∧ (cxlReset s c).frames = s.frames := by
  have hlt := lt_cxlReg c 0x40
  have hconfig : rd (cxlInReset s c) (cxlReg c 0x40) = rd s (cxlReg c 0x40) :=
    (showsNoEngine_cxlReg c 0x40).cxlInReset (cxlReg_not_mem c (by decide)) (by simp; omega) (by simp; omega) hn
  have hfirmware : (cxlInReset s c).firmware = s.firmware :=
    showsNoEngine_firmware.cxlInReset List.not_mem_nil List.not_mem_nil List.not_mem_nil hn
  have htraffic : traffic (cxlReset s c) = traffic s := (showsNoEngine_traffic.cxlTrain List.not_mem_nil _).trans
    (showsNoEngine_traffic.cxlInReset List.not_mem_nil List.not_mem_nil List.not_mem_nil hn)
  obtain ⟨hqueues, -, hframes⟩ := traffic_iff.mp htraffic
  refine ⟨?_, (perst_cxlTrain _ _).trans (perst_cxlInReset s c), hqueues, hframes⟩
  have hstate := cxlState_cxlTrain (s := cxlInReset s c) (c := c) (cxlState_linkOff _ _)
  rwa [cxlEnabled, flag, hconfig, ← flag, ← cxlEnabled, hfirmware] at hstate

theorem exec_cxlPortReset {s : State} {src : Source} {c : Fin 4} (h : Admitted s src (cxlReg c 0x44)) :
    exec (.cxlPortReset src c) s = .next (cxlReset (atRegister s src (cxlReg c 0x44)) c) :=
  congrArg done (guarded_of_admitted h fun s => cxlReset s c)

/-- CXL_PORT_RESET (R194). -/
theorem cxlPortReset_restarts {s u : State} {src : Source} {c : Fin 4} (h : Admitted s src (cxlReg c 0x44))
    (hu : u = setPerst (forceDiscard (atRegister s src (cxlReg c 0x44)) c) c true) :
    ∃ t, exec (.cxlPortReset src c) s = .next t ∧ settled t = settled s ∧
      t = cxlTrain (setFld (setCxlState u c 0) (cxlReg c 0x48) 22 16 0) c ∧
      (NoSpill s → cxlState t c = (if cxlEnabled s c ∧ s.firmware.running then 1 else 0) ∧ flag t (cxlReg c 0x48) 23 = true ∧
        t.queues = s.queues ∧ t.frames = s.frames) := by
  have hexec := exec_cxlPortReset h
  refine ⟨_, hexec, settled_execCxlPortReset src c s _ hexec, hu ▸ rfl, fun hn => ?_⟩
  rw [atRegister_cxlReg s src c (by decide)]
  exact cxlReset_of_noSpill (s := dropHeld s src (cxlReg c 0x44)) hn c

/-! ### Sanitisation (R191) -/

/-- Firmware has recorded how the sanitisation of port `c` ended. -/
def sanitizeRecorded (s : State) (c : Nat) (ok : Bool) : State :=
  { s with firmware := { s.firmware with sanitized := sset zeroNat s.firmware.sanitized c (if ok then 1 else 2) } }

theorem rd_sanitizeRecorded (s : State) (c : Nat) (ok : Bool) (a : Nat) : rd (sanitizeRecorded s c ok) a = rd s a := rfl

theorem sanitizeEnd_of_running {s : State} {c : Nat} (h : cxlState s c = 5) (ok : Bool) :
    sanitizeEnd s c ok = raise (sanitizeRecorded (setFlag (setCxlState s c 3) (cxlReg c 0x50) 28 ok) c ok) (.cxl c) 4 :=
  if_neg fun hn => hn h

/-- What a register but INT_STATUS reads once the end of a sanitisation is recorded and raised. -/
theorem rd_raise_sanitizeRecorded (s : State) (c : Nat) (ok : Bool) {off : Nat} (h : off ≠ 0x10) :
    rd (raise (sanitizeRecorded s c ok) (.cxl c) 4) (cxlReg c off) = rd s (cxlReg c off) :=
  (rd_raise_other _ _ _ (cxlReg_ne c h)).trans (rd_sanitizeRecorded _ _ _ _)

/-- SANITIZE_DONE: the port is READY again (log 22). -/
theorem sanitizeDone_readies {s : State} {c : Fin 4} (h : cxlState s c = 5) (ok : Bool) :
    ∃ t, exec (.sanitizeDone c ok) s = .next t ∧ cxlState t c = 3 ∧ flag t (cxlReg c 0x50) 28 = ok ∧
      flag t ((Page.cxl c).at_ 0x10) 4 = true ∧ t = { s with regs := t.regs, out := t.out, firmware := t.firmware } := by
  refine ⟨_, congrArg done (sanitizeEnd_of_running h ok), ?_, ?_, ?_, rfl⟩
  · rw [cxlState_congr (rd_raise_sanitizeRecorded _ _ _ (by decide)), setFlag, setFld, cxlState_wr_other _ _ _ (by decide),
      cxlState_setCxlState _ _ (by decide)]
  · rw [flag, rd_raise_sanitizeRecorded _ _ _ (by decide)]
    exact flag_setFlag_same _ _ _ _ (by decide)
  · rw [flag_raise _ _ _ _ _ (by decide), if_pos ⟨rfl, rfl⟩]

end Sys2Proof.Machine
end

section
/-! CXL ports that become ready (R184, R185), and firmware's watch over their devices (R187, R190). -/

namespace Sys2Proof.Machine

/-! ### Identification and decoders (R184, R185) -/

/-- A view without requests and draws does not show that a device is identified. -/
theorem view_identify {α : Type} {F : State → α} (ho : ∀ s o, F { s with out := o } = F s) (hd : ∀ s n, F { s with freeCount := n } = F s)
    (s : State) (c : Nat) : F (identify s c) = F s :=
  (hd _ _).trans ((view_ite (ho _ _) rfl).trans (view_foldl (fun _ _ => ho _ _) _ s))

/-- A port that has no layout keeps its partitions and its PLACE as they are. -/
theorem layoutPort_of_none {s : State} {c : Nat} (h : sget (fun _ => []) s.firmware.layouts c = []) : layoutPort s c = s :=
  if_pos (.inl h)

/-- The decoders of a device with `n` units of 256 MiB are programmed, and its capacity is shown. -/
def cxlDecoded (s : State) (c n : Nat) : State :=
  wr (programDecoder (setTimestamp (identify s c) c) c (min n 1024)) (cxlReg c 0x4C) (min n 0xFFFF * 2 ^ 16 + min n 1024)

/-- The state but for its registers, the links of its CXL ports, requests and draws. -/
def besideDevices (s : State) : State := { s with regs := [], spill := { s.spill with links := [] }, out := [], freeCount := 0 }

theorem eq_of_besideDevices {s t : State} (h : besideDevices t = besideDevices s) : t =
    { s with regs := t.regs, spill := { s.spill with links := t.spill.links }, out := t.out, freeCount := t.freeCount } :=
  congrArg (fun u : State => { u with
    regs := t.regs, spill := { u.spill with links := t.spill.links }, out := t.out, freeCount := t.freeCount }) h

theorem besideDevices_wr (s : State) (a v : Nat) : besideDevices (wr s a v) = besideDevices s := rfl

theorem besideDevices_raise (s : State) (p : Page) (k : Nat) : besideDevices (raise s p k) = besideDevices s := rfl

theorem firmware_of_besideDevices {s t : State} (h : besideDevices t = besideDevices s) : t.firmware = s.firmware :=
  (congrArg State.firmware h :)

theorem besideDevices_programDecoder (s : State) (c n : Nat) : besideDevices (programDecoder s c n) = besideDevices s := rfl

theorem besideDevices_setTimestamp (s : State) (c : Nat) : besideDevices (setTimestamp s c) = besideDevices s := rfl

theorem besideDevices_cxlDecoded (s : State) (c n : Nat) : besideDevices (cxlDecoded s c n) = besideDevices s :=
  (besideDevices_wr _ _ _).trans ((besideDevices_programDecoder _ _ _).trans ((besideDevices_setTimestamp _ _).trans
    (view_identify (fun _ _ => rfl) (fun _ _ => rfl) s c)))

theorem regs_programDecoder (s : State) (c n : Nat) : (programDecoder s c n).regs = s.regs := rfl

theorem regs_setTimestamp (s : State) (c : Nat) : (setTimestamp s c).regs = s.regs := rfl

theorem regs_identify (s : State) (c : Nat) : (identify s c).regs = s.regs :=
  view_identify (F := State.regs) (fun _ _ => rfl) (fun _ _ => rfl) s c

theorem regsBut_cxlDecoded (s : State) (c n : Nat) {as : List Nat} (ha : cxlReg c 0x4C ∈ as) : RegsBut as s (cxlDecoded s c n) :=
  (RegsBut.of_regs_eq as ((regs_programDecoder _ _ _).trans ((regs_setTimestamp _ _).trans (regs_identify s c)))).wr ha _

/-- HDM decoder 0 of port `c` with `n` units of 256 MiB (R185). -/
def portDecoder (c n : Nat) : HdmDecoder := { base := c * 2 ^ 38, size := n * 2 ^ 28 }

theorem cxlLinkAt_programDecoder (s : State) (c n : Nat) : cxlLinkAt (programDecoder s c n) c =
    { cxlLinkAt s c with decoder := some (portDecoder c n), root := some (portDecoder c n), memEnable := true, polledAt := now s } :=
  cxlLinkAt_setCxlLink _ _ _

theorem cxlLinkAt_wr (s : State) (a v c : Nat) : cxlLinkAt (wr s a v) c = cxlLinkAt s c := rfl

theorem cxlLinkAt_raise (s : State) (p : Page) (k c : Nat) : cxlLinkAt (raise s p k) c = cxlLinkAt s c := rfl

/-- Both capacities fit their fields of CXL_CAPACITY. -/
theorem bits_capacity {total used : Nat} (ht : total < 2 ^ 16) (hu : used < 2 ^ 11) :
    bits (total * 2 ^ 16 + used) 31 16 = total ∧ bits (total * 2 ^ 16 + used) 10 0 = used := by
  simp only [bits]
  omega

/-- The port is READY once its device has `n` units of 256 MiB in use, and the cause of it is raised. -/
def cxlReadied (s : State) (c n : Nat) : State := raise (setCxlState (cxlDecoded s c n) c 3) (.cxl c) 0

theorem besideDevices_cxlReadied (s : State) (c n : Nat) : besideDevices (cxlReadied s c n) = besideDevices s :=
  (besideDevices_raise _ _ _).trans ((besideDevices_wr _ _ _).trans (besideDevices_cxlDecoded s c n))

/-- A device with volatile capacity makes its port READY. -/
theorem cxlComplete_of_capacity {s : State} {c n : Nat} (h2 : cxlState s c = 2) (hn : n ≠ 0)
    (hl : sget (fun _ => []) s.firmware.layouts c = []) : cxlComplete s c n = cxlReadied s c n := by
  rw [← firmware_of_besideDevices (besideDevices_cxlReadied s c n)] at hl
  exact (if_neg fun h => h h2).trans ((if_neg hn).trans (layoutPort_of_none hl))

theorem rd_cxlReadied_other (s : State) (c n : Nat) {off : Nat} (h : off ≠ 0x10) :
    rd (cxlReadied s c n) (cxlReg c off) = rd (setCxlState (cxlDecoded s c n) c 3) (cxlReg c off) :=
  rd_raise_other _ _ _ (cxlReg_ne c h)

theorem cxlState_cxlReadied (s : State) (c n : Nat) : cxlState (cxlReadied s c n) c = 3 :=
  (cxlState_congr (rd_cxlReadied_other s c n (by decide))).trans (cxlState_setCxlState _ _ (by decide))

/-- CXL_CAPACITY of a READY port. -/
theorem capacity_cxlReadied (s : State) (c n : Nat) : fld (cxlReadied s c n) (cxlReg c 0x4C) 31 16 = min n 0xFFFF ∧
    fld (cxlReadied s c n) (cxlReg c 0x4C) 10 0 = min n 1024 := by
  have hfield : ∀ hi lo, hi < 32 → fld (cxlReadied s c n) (cxlReg c 0x4C) hi lo =
      bits (min n 0xFFFF * 2 ^ 16 + min n 1024) hi lo := fun hi lo hhi => by
    rw [fld, rd_cxlReadied_other _ _ _ (by decide), setCxlState, setFld, rd_wr_other _ _ (cxlReg_ne c (by decide))]
    exact fld_wr_same _ _ _ lo hhi
  rw [hfield 31 16 (by decide), hfield 10 0 (by decide)]
  exact bits_capacity (by omega) (by omega)

/-- The decoders of a READY port and its device (R185). -/
theorem link_cxlReadied (s : State) (c n : Nat) : (cxlLinkAt (cxlReadied s c n) c).decoder = some (portDecoder c (min n 1024)) ∧
    (cxlLinkAt (cxlReadied s c n) c).root = some (portDecoder c (min n 1024)) ∧ (cxlLinkAt (cxlReadied s c n) c).memEnable = true := by
  rw [cxlReadied, cxlLinkAt_raise, setCxlState, setFld, cxlLinkAt_wr, cxlDecoded, cxlLinkAt_wr, cxlLinkAt_programDecoder]
  exact ⟨rfl, rfl, rfl⟩

/-- CXL_READY of a device with volatile capacity, on a port without a layout. -/
theorem cxlReady_programs {s : State} {c : Fin 4} {n : Nat} (h2 : cxlState s c = 2) (hn : n ≠ 0)
    (hl : sget (fun _ => []) s.firmware.layouts c = []) :
    ∃ t, exec (.cxlReady c n) s = .next t ∧ settled t = settled s ∧ cxlState t c = 3 ∧
      fld t (cxlReg c 0x4C) 31 16 = min n 0xFFFF ∧ fld t (cxlReg c 0x4C) 10 0 = min n 1024 ∧
      flag t ((Page.cxl c).at_ 0x10) 0 = true ∧ RegsBut [cxlReg c 0x48, cxlReg c 0x4C, (Page.cxl c).at_ 0x10] s t ∧
      (cxlLinkAt t c).decoder = some { base := c * 2 ^ 38, size := min n 1024 * 2 ^ 28 } ∧
      (cxlLinkAt t c).root = (cxlLinkAt t c).decoder ∧ (cxlLinkAt t c).memEnable = true ∧
      t = { s with regs := t.regs, spill := { s.spill with links := t.spill.links }, out := t.out, freeCount := t.freeCount } := by
  have hexec : exec (.cxlReady c n) s = .next (cxlReadied s c n) := congrArg done (cxlComplete_of_capacity h2 hn hl)
  obtain ⟨htotal, hused⟩ := capacity_cxlReadied s c n
  obtain ⟨hdecoder, hroot, hmem⟩ := link_cxlReadied s c n
  refine ⟨_, hexec, settled_execCxlReady c n s _ hexec, cxlState_cxlReadied s c n, htotal, hused, ?_, ?_, hdecoder,
    hroot.trans hdecoder.symm, hmem, eq_of_besideDevices (besideDevices_cxlReadied s c n)⟩
  · rw [cxlReadied, flag_raise _ _ _ _ _ (by decide), if_pos ⟨rfl, rfl⟩]
  · exact ((regsBut_cxlDecoded s c n (by simp)).wr (by simp) _).raise (by simp) _

/-! ### Health (R190) -/

/-- Firmware has issued Get Health Info to the device of port `c`. -/
def polled (s : State) (c : Nat) : State :=
  emit (setCxlLink s c { cxlLinkAt s c with polledAt := now s, signalled := false }) (.cxl c [0x4200])

theorem cxlLinkAt_polled (s : State) (c : Nat) :
    cxlLinkAt (polled s c) c = { cxlLinkAt s c with polledAt := now s, signalled := false } := cxlLinkAt_setCxlLink s c _

/-- The failures in a row of the mailbox of port `c`'s device are `n`. -/
def mailboxFailing (s : State) (c n : Nat) : State :=
  { s with firmware := { s.firmware with mailboxFails := sset zeroNat s.firmware.mailboxFails c n } }

/-- The life used of a device passes 90 % for the first time. -/
def firstWorn (s : State) (c : Nat) (h : Health) : Bool :=
  (90 < h.lifeUsed.toNat && h.lifeUsed.toNat ≠ 0xFF) && !(c ∈ s.firmware.lifeRaised)

/-- Firmware has recorded that the mailbox answered, and whether the device's life used is to be raised for the first time. -/
def healthRecorded (s : State) (c : Nat) (first : Bool) : State :=
  { s with firmware := { s.firmware with
    mailboxFails := sset zeroNat s.firmware.mailboxFails c 0,
    lifeRaised := if first then c :: s.firmware.lifeRaised else s.firmware.lifeRaised } }

/-- CXL_HEALTH as an answer shows it; SANITIZED stays. -/
def healthWord (s : State) (c : Nat) (h : Health) : Nat :=
  bit h.replace * 2 ^ 31 + bit h.degraded * 2 ^ 30 + bit h.maintenance * 2 ^ 29 +
    fld s (cxlReg c 0x50) 28 28 * 2 ^ 28 + h.temperature.toNat * 2 ^ 16 + h.lifeUsed.toNat

section Poll

variable {s : State} {c : Nat} {h : Health} (hd : pollDue s c = true)
include hd

/-- Fewer than three failures in a row are only counted. -/
theorem cxlPoll_of_mailboxFailed (hf : h.mailboxFailed = true) (hn : sget zeroNat s.firmware.mailboxFails c + 1 < 3)
    (ev : List (Nat × List Nat)) :
    cxlPoll s c h ev = mailboxFailing (polled s c) c (sget zeroNat s.firmware.mailboxFails c + 1) := by
  unfold cxlPoll
  rw [if_neg (by simp [hd])]
  exact (if_pos hf).trans (if_neg (Nat.not_le.mpr hn))

/-- An answer is shown in CXL_HEALTH, may clear PLACE and raise its cause, and the event records are read. -/
theorem cxlPoll_of_answered (hf : h.mailboxFailed = false) (ev : List (Nat × List Nat)) : cxlPoll s c h ev =
    (let u := wr (healthRecorded (polled s c) c (firstWorn s c h)) (cxlReg c 0x50) (healthWord s c h)
    let u := if h.replace || h.critical then clearPlace u c else u
    let u := if h.replace || h.degraded || h.maintenance || h.critical || firstWorn s c h then raise u (.cxl c) 2 else u
    readEvents u c ev) := by
  unfold cxlPoll
  rw [if_neg (by simp [hd])]
  exact if_neg (by simp [hf])

/-- A device in good health raises nothing. -/
theorem cxlPoll_of_healthy (hf : h.mailboxFailed = false) (hr : h.replace = false) (hc : h.critical = false) (hg : h.degraded = false)
    (hm : h.maintenance = false) (hl : h.lifeUsed.toNat ≤ 90) : cxlPoll s c h [] =
    emit (wr (healthRecorded (polled s c) c false) (cxlReg c 0x50) (healthWord s c h)) (.cxl c [0x0100]) := by
  have hw : firstWorn s c h = false := by simp [firstWorn]; omega
  rw [cxlPoll_of_answered hd hf, hr, hc, hg, hm, hw]
  rfl

end Poll

/-- Temperature and life used of a device in good health, as CXL_HEALTH shows them. -/
theorem bits_healthWord (s : State) (c : Nat) {h : Health} (hr : h.replace = false) (hg : h.degraded = false)
    (hm : h.maintenance = false) :
    bits (healthWord s c h) 23 16 = h.temperature.toNat ∧ bits (healthWord s c h) 7 0 = h.lifeUsed.toNat := by
  have ht := h.temperature.isLt
  have hl := h.lifeUsed.isLt
  simp only [healthWord, hr, hg, hm, bit, bits]
  omega

/-! ### Event records (R190) -/

namespace ShowsNoQueue

variable {α : Type} {F : State → α} (h : ShowsNoQueue F [])
include h

theorem setPlace (s : State) (mask : Nat) : F (setPlace s mask) = F s :=
  (h.toShows.setPlace List.not_mem_nil s mask).trans ((h.drainCheck _).trans (h.setFld List.not_mem_nil _ _ _ _))

theorem clearPlace (s : State) (c : Nat) : F (clearPlace s c) = F s := view_ite (h.setPlace _ _) rfl

theorem cxlEvent (c : Nat) (s : State) (e : Nat × List Nat) : F (cxlEvent c s e) = F s :=
  (view_ite ((h.raise List.not_mem_nil _ _).trans (h.clearPlace _ _)) rfl).trans
    ((h.reportAs _ _ _ _ _).trans ((h.raise List.not_mem_nil _ _).trans (h.tally List.not_mem_nil _)))

theorem readEvents (s : State) (c : Nat) (events : List (Nat × List Nat)) : F (readEvents s c events) = F s :=
  (view_ite rfl (h.emit _ _)).trans ((view_foldl (h.cxlEvent c) _ _).trans (h.emit _ _))

end ShowsNoQueue

/-- The frames and the tables are in no queue, register, counter or report. -/
theorem showsNoQueue_framesTabs : ShowsNoQueue (fun s => (s.frames, s.tabs)) [] where
  toShows := shows_of_rfl fun _ _ _ _ _ => rfl
  queues _ _ := rfl
  spill := ⟨List.not_mem_nil, List.not_mem_nil, List.not_mem_nil⟩

/-- The device of port `c` has signalled a record. -/
def signalled (s : State) (c : Nat) : State := setCxlLink s c { cxlLinkAt s c with signalled := true }

theorem pollDue_signalled {s : State} {c : Nat} (h3 : cxlState s c = 3) (hr : s.firmware.running = true) (o : Out) :
    pollDue (emit (signalled s c) o) c = true := by
  have hstate : cxlState (emit (signalled s c) o) c = 3 := h3
  have hlink : (cxlLinkAt (emit (signalled s c) o) c).signalled = true := congrArg CxlLink.signalled (cxlLinkAt_setCxlLink s c _)
  have hrunning : (emit (signalled s c) o).firmware.running = true := hr
  rw [pollDue, hstate, hlink, hrunning]
  rfl

/-- CXL_EVENT_SIGNAL at a READY port. -/
theorem cxlEventSignal_reads {s : State} {c : Fin 4} (h3 : cxlState s c = 3) (hr : s.firmware.running = true)
    (ev : List (Nat × List Nat)) :
    ∃ t, exec (.cxlEventSignal c ev) s = .next t ∧ settled t = settled s ∧ t.frames = s.frames ∧ t.tabs = s.tabs ∧
      t = readEvents (signalled s c) c ev ∧
      (ev = [] → t.out = s.out ++ [.cxl c [0x0100]] ∧ t.regs = s.regs ∧ pollDue t c = true) := by
  have hexec : exec (.cxlEventSignal c ev) s = .next (readEvents (signalled s c) c ev) := congrArg done (if_pos ⟨h3, hr⟩)
  have hread := showsNoQueue_framesTabs.readEvents (signalled s c) c ev
  obtain ⟨hframes, htabs⟩ := Prod.mk.inj hread
  refine ⟨_, hexec, settled_execCxlEventSignal c ev s _ hexec, hframes, htabs, rfl, ?_⟩
  rintro rfl
  exact ⟨rfl, rfl, pollDue_signalled h3 hr _⟩

/-! ### Timestamps (R187) -/

/-- The state but for what has left the block. -/
def besideOut (s : State) : State := { s with out := [] }

theorem eq_of_besideOut {s t : State} (h : besideOut t = besideOut s) : t = { s with out := t.out } :=
  congrArg (fun u => { u with out := t.out }) h

theorem besideOut_setTimestamp (s : State) (c : Nat) : besideOut (setTimestamp s c) = besideOut s := rfl

/-- A round sets the timestamp of every READY port's device, and the time of the round. -/
theorem timestampRound_of_running {s : State} (hr : s.firmware.running = true) :
    ∃ out, timestampRound s = { s with startup := { s.startup with lastTimestamp := now s }, out := out } := by
  have hbeside : besideOut ((List.range 4).foldl (fun s c => if cxlState s c = 3 then setTimestamp s c else s) s) = besideOut s :=
    view_foldl (fun u c => view_ite (besideOut_setTimestamp u c) rfl) _ s
  have hround := eq_of_besideOut hbeside
  unfold timestampRound
  rw [if_neg (by simp [hr])]
  dsimp only
  rw [hround]
  exact ⟨_, rfl⟩

/-- Settles O21: each command is the update of its state, read back; a failure, a reset and a disable are the discard of the port's sheets
around it. -/
theorem cxlPortsFollowTheirStates : Obligations.CxlPortsFollowTheirStates := by
  refine ⟨fun s src c h h0 hr => cxlPortEnable_trains h h0 hr, fun s src c h h0 => ?_, fun s c h1 hp ht hs hl => ?_,
    fun s c => cxlTick_of_late, fun s src c h h0 => ?_, fun s u src c h h0 hu => cxlPortDisable_switchesOff h h0 hu,
    fun s c x8 rate cxl2 h1 hp => cxlLinkUp_enumerates h1 hp x8 rate cxl2, fun s c x8 rate cxl2 mem h1 hp => ⟨?_, ?_⟩,
    fun s c cause h2 hc => ?_, fun s c cause h2 h6 h8 => ?_, fun s c n => cxlReady_programs, fun s c n h2 => ?_,
    fun s c cause hs hc => ?_, fun s c => cxlPortFailure_retrain, fun s u src c h hu => cxlPortReset_restarts h hu,
    fun s c ok h => sanitizeDone_readies h ok, fun s c h hd hf hr hc hg hm hl => ?_, fun s c h ev hd hf hn => ?_,
    fun s c ev h3 hr => cxlEventSignal_reads h3 hr ev, fun s hr ht => ?_⟩
  · exact ⟨_, exec_cxlPortEnable_of_on h h0, cxlEnabled_cxlEnableWritten s src c true,
      regsBut_cxlEnableWritten s src c true (by simp), rfl⟩
  · rw [cxlTick_of_due h1 hp ht hs hl]
    refine ⟨?_, rfl, congrArg CxlLink.released (cxlLinkAt_setCxlLink _ _ _), ?_⟩
    · exact (flag_setCxlLink _ _ _ _ _).trans (flag_setFlag_same s _ _ _ (by decide))
    · exact (((RegsBut.of_regs_eq _ (t := s) rfl).setFlag (by simp) _ _).emit _).setCxlLink _ _
  · exact ⟨_, exec_cxlPortDisable_of_off h h0, cxlEnabled_cxlEnableWritten s src c false,
      regsBut_cxlEnableWritten s src c false (by simp), rfl⟩
  · have hexec : exec (.cxlLinkUp c x8 rate cxl2 false mem) s = _ := congrArg done (cxlLinked_of_narrow h1 hp x8 rate cxl2 mem)
    exact ⟨_, hexec, settled_execCxlLinkUp c x8 rate cxl2 false mem s _ hexec, rfl⟩
  · have hexec : exec (.cxlLinkUp c x8 rate cxl2 true false) s = _ := congrArg done (cxlLinked_of_other h1 hp x8 rate cxl2)
    exact ⟨_, hexec, settled_execCxlLinkUp c x8 rate cxl2 true false s _ hexec, rfl⟩
  · exact ⟨_, rfl, settled_cxlStepFails s c cause, (cxlStepFails_of_enumerating h2 cause).trans (if_pos hc)⟩
  · refine ⟨_, rfl, settled_cxlStepFails s c cause, (cxlStepFails_of_enumerating h2 cause).trans ?_⟩
    rw [if_neg (by omega), if_pos ⟨h6, h8⟩]
  · exact ⟨_, rfl, settled_cxlComplete s c n, fun h0 => (if_neg fun h => h h2).trans (if_pos h0)⟩
  · have hexec : exec (.cxlPortFailure c cause) s = _ := congrArg done (cxlError_of_fatal hs hc)
    exact ⟨_, hexec, settled_execCxlPortFailure c cause s _ hexec, rfl, fun hn => cxlFail_of_noSpill hn c.isLt cause.isLt⟩
  · have hexec : exec (.cxlHealthPoll c h []) s = _ := congrArg done (cxlPoll_of_healthy hd hf hr hc hg hm hl)
    obtain ⟨htemperature, hlife⟩ := bits_healthWord s c hr hg hm
    refine ⟨_, hexec, ?_, ?_, ?_, rfl, ?_⟩
    · exact (fld_wr_same _ _ _ _ (by decide)).trans htemperature
    · exact (fld_wr_same _ _ _ _ (by decide)).trans hlife
    · exact (RegsBut.of_regs_eq _ (t := healthRecorded (polled s c) c false) rfl).wr (by simp) _
    · exact congrArg CxlLink.polledAt (cxlLinkAt_polled s c)
  · exact ⟨_, congrArg done (cxlPoll_of_mailboxFailed hd hf hn ev), rfl, sget_sset_same _ _ _ _⟩
  · obtain ⟨out, hround⟩ := timestampRound_of_running hr
    refine ⟨_, congrArg done ((if_pos ht).trans hround), rfl, rfl⟩

end Sys2Proof.Machine
end

section
/-! Shapers and gates (R207 to R227): a refill instant, the end of a transit, the lists of a port's gates, and the wake before a window. -/

namespace Sys2Proof.Machine

/-! ### A refill instant (R207, R211) -/

/-- The state but for its scheduler. -/
def besideSched (s : State) : State := { s with sched := {} }

theorem eq_of_besideSched {s t : State} (h : besideSched t = besideSched s) : t = { s with sched := t.sched } :=
  (congrArg (fun u : State => { u with sched := t.sched }) h :)

/-- A view without buckets shows of a refill instant the entries that take effect and the count of instants. -/
theorem view_refillTier {α : Type} {F : State → α} (ha : ∀ s i v, F (setBucketA s i v) = F s)
    (hb : ∀ s i v, F (setBucketB s i v) = F s) (s : State) (t : Nat) :
    ∃ entries, F (refillTier s t) = F { s with sched := { s.sched with
      shaping := entries, refills := s.sched.refills.set t (nth s.sched.refills t + 1) } } := by
  refine ⟨_, view_foldl (fun u i => ?_) _ _⟩
  exact view_ite ((hb _ _ _).trans (ha _ _ _)) (ha _ _ _)

theorem besideSched_refillTier (s : State) (t : Nat) : besideSched (refillTier s t) = besideSched s := by
  obtain ⟨_, h⟩ := view_refillTier (F := besideSched) (fun _ _ _ => rfl) (fun _ _ _ => rfl) s t
  exact h

/-- What a refill of a bucket leaves alone in the scheduler: the instants counted and the deficits. -/
def refillsAndDeficits (s : State) : List Nat × Sparse Int := (s.sched.refills, s.sched.deficit)

theorem refillsAndDeficits_refillTier (s : State) (t : Nat) :
    refillsAndDeficits (refillTier s t) = (s.sched.refills.set t (nth s.sched.refills t + 1), s.sched.deficit) := by
  obtain ⟨_, h⟩ := view_refillTier (F := refillsAndDeficits) (fun _ _ _ => rfl) (fun _ _ _ => rfl) s t
  exact h

theorem nth_set_same {l : List Nat} {k : Nat} (h : k < l.length) (v : Nat) : nth (l.set k v) k = v := by
  rw [nth, List.getD_eq_getElem _ _ (by rwa [List.length_set]), List.getElem_set_self]

theorem exec_shaperRefill_due {s : State} {n : Fin 4} (hc : coreRuns s = true)
    (hd : (nth s.sched.refills n + 1) * tierInterval n ≤ now s) : exec (.shaperRefill n) s = .next (refillTier s n) :=
  congrArg done (if_pos ⟨hc, hd⟩)

theorem exec_shaperRefill_early {s : State} {n : Fin 4} (hd : now s < (nth s.sched.refills n + 1) * tierInterval n) :
    exec (.shaperRefill n) s = .next s := congrArg done (if_neg fun ⟨_, h⟩ => absurd hd (Nat.not_lt.mpr h))

theorem refillOne_of_off (wasOn : Bool) (rate interval : Nat) (burst v : Int) : refillOne wasOn false rate interval burst v = v := rfl

/-- A shaper that becomes enabled finds its bucket full (R211). -/
theorem refillOne_of_enabled (rate interval : Nat) (burst v : Int) : refillOne false true rate interval burst v = burst := rfl

theorem refillOne_le (wasOn isOn : Bool) (rate interval : Nat) {burst v : Int} (h : v ≤ burst) :
    refillOne wasOn isOn rate interval burst v ≤ burst := by
  cases isOn with
  | false => exact h
  | true =>
    cases wasOn with
    | false => exact le_rfl
    | true => exact min_le_left _ _

/-! ### The end of a transit (R213, R214) -/

/-- A view that shows no deficit does not show that deficits of idle children are cleared. -/
theorem view_settleAll {α : Type} {F : State → α} (h : ∀ s x, F { s with sched := { s.sched with deficit := x } } = F s) (s : State) :
    F (settleAll s) = F s := view_foldl (fun u _ => view_ite rfl (h u _)) _ s

theorem exec_transitEnd_of_empty {s : State} {n : Nat} (ht : n ∈ s.sched.transit) (hh : subtreeHeld s n = false) :
    exec (.transitEnd n) s = .next (raise (settleAll (leaveTransit s n)) .sched 0) := congrArg done (if_pos ⟨ht, by rw [hh]; rfl⟩)

theorem not_mem_transit_leaveTransit (s : State) (n : Nat) : n ∉ (settleAll (leaveTransit s n)).sched.transit := by
  rw [view_settleAll (F := fun u => u.sched.transit) fun _ _ => rfl]
  exact fun hm => bne_iff_ne.mp (List.mem_filter.mp hm).2 rfl

/-- The end of a transit writes SCHED_TRANSIT and INT_STATUS of the scheduler. -/
theorem regsBut_transitEnd (s : State) (n : Nat) :
    RegsBut [0x500010, 0x500054] s (raise (settleAll (leaveTransit s n)) .sched 0) := by
  have hleave : RegsBut [0x500010, 0x500054] s (leaveTransit s n) := RegsBut.wr (.of_regs_eq _ rfl) (by simp) _
  have hsettle : (settleAll (leaveTransit s n)).regs = (leaveTransit s n).regs := view_settleAll (fun _ _ => rfl) _
  refine RegsBut.raise (fun a ha => ?_) (by simp [Page.at_, Page.base]) 0
  rw [rd, hsettle, ← rd, hleave a ha]

/-! ### The steps of a gate's lists (R219 to R222) -/

/-- The gate of a port whose pending list `L` takes force at `C`: what ran before stays with it for the instants before `C`. -/
def switchedGate (g : GateRt) (L : GateList) (C ta : Nat) : GateRt :=
  { pending := none, oper := some L, former := some (g.oper, C, ta) }

/-- A pending change that is due is applied before anything else happens to the gate (R222). -/
def dueApplied (s : State) (p : Nat) : State := if gateDue s p then switchGate s p else s

theorem gateDue_of_pending {s : State} {p : Nat} {L : GateList} {C ta : Nat} (hp : (portAt s p).gate.pending = some (L, C, ta)) :
    gateDue s p = decide (C ≤ devNs s) := by
  rw [gateDue, hp]

namespace ShowsFront

variable {α : Type} {F : State → α} {as : List Nat} (h : ShowsFront F as)
include h

/-- The gate registers lie in the second page of their port, which the view does not show. -/
theorem gateWord {a p off : Nat} (ha : a = portReg p 1 off) (ho : off < 0x1000) (s : State) (v : Nat) : F (wr s a v) = F s :=
  h.word _ _ _ (ha ▸ h.not_mem_page p (by decide) ho)

theorem showGate (s : State) (p : Nat) : F (showGate s p) = F s := h.gateWord rfl (by decide) _ _

theorem wrGateTime (s : State) (p : Nat) {off : Nat} (ho : off + 8 < 0x1000) (t : Nat) : F (wrTime s (portReg p 1 off) t) = F s :=
  (h.gateWord (off := off + 8) (Nat.add_assoc _ _ _) ho _ _).trans
    ((h.gateWord (off := off + 4) (Nat.add_assoc _ _ _) (by omega) _ _).trans (h.gateWord rfl (by omega) _ _))

theorem raiseGate (s : State) (p k : Nat) : F (raise s (.port p 1) k) = F s :=
  h.raise (p := .port p 1) (h.not_mem_page p (k := 1) (off := 0x10) (by decide) (by decide)) s k

/-- Of a switch the view shows the port's new gate. -/
theorem switchGate {s : State} {p : Nat} {L : GateList} {C ta : Nat} (hp : (portAt s p).gate.pending = some (L, C, ta)) :
    F (switchGate s p) = F (setPort s p { portAt s p with gate := switchedGate (portAt s p).gate L C ta }) := by
  rw [Machine.switchGate, hp]
  refine (h.raiseGate _ p 0).trans ((h.showGate _ p).trans ?_)
  refine (h.gateWord rfl (by decide) _ _).trans ((h.gateWord rfl (by decide) _ _).trans ((h.gateWord rfl (by decide) _ _).trans ?_))
  exact h.wrGateTime _ p (by decide) _

/-- Of an accepted change the view shows the port's pending list, after a change that was due. -/
theorem acceptGate (s : State) (p : Nat) :
    ∃ change, F (acceptGate s p) = F (setPort (dueApplied s p) p
      { portAt (dueApplied s p) p with gate := { (portAt (dueApplied s p) p).gate with pending := some change } }) := by
  refine ⟨_, (h.showGate _ p).trans (view_ite (h.wrGateTime _ p (by decide) _) ?_)⟩
  refine (h.raiseGate _ p 1).trans ((h.tally (h.not_mem_page p (by decide) (by decide)) _).trans ?_)
  exact (h.gateWord rfl (by decide) _ _).trans (h.wrGateTime _ p (by decide) _)

end ShowsFront

/-! What a port's gate is after the steps of its lists. -/

theorem gate_switchGate {s : State} {p : Nat} {L : GateList} {C ta : Nat} (hp : (portAt s p).gate.pending = some (L, C, ta)) :
    (portAt (switchGate s p) p).gate = switchedGate (portAt s p).gate L C ta := by
  rw [(showsFront_portAt p).switchGate hp, portAt_setPort_same]

theorem gate_acceptGate (s : State) (p : Nat) :
    (portAt (acceptGate s p) p).gate.pending.isSome = true ∧
      (portAt (acceptGate s p) p).gate.oper = (portAt (dueApplied s p) p).gate.oper := by
  obtain ⟨_, h⟩ := (showsFront_portAt p).acceptGate s p
  rw [h, portAt_setPort_same]
  exact ⟨rfl, rfl⟩

theorem oper_dueApplied_of_notDue {s : State} {p : Nat} (h : gateDue s p = false) :
    (portAt (dueApplied s p) p).gate.oper = (portAt s p).gate.oper := by
  rw [dueApplied, h]
  rfl

/-- A list that is due takes force. -/
theorem oper_dueApplied_of_pending {s : State} {p : Nat} {L : GateList} {C ta : Nat} (hp : (portAt s p).gate.pending = some (L, C, ta))
    (hd : C ≤ devNs s) : (portAt (dueApplied s p) p).gate.oper = some L := by
  rw [dueApplied, if_pos ((gateDue_of_pending hp).trans (decide_eq_true hd)), gate_switchGate hp]
  rfl

/-- What the steps of a gate's lists leave alone of the memories: the tables and the queues. -/
def tabsAndQueues (s : State) : Sparse Image × Sparse Queue := (s.tabs, s.queues)

theorem tabsAndQueues_iff {s t : State} : tabsAndQueues t = tabsAndQueues s ↔ t.tabs = s.tabs ∧ t.queues = s.queues := by
  simp only [tabsAndQueues, Prod.mk.injEq]

theorem showsFront_tabsAndQueues : ShowsFront tabsAndQueues [] := showsFront_of_shows (shows_of_rfl fun _ _ _ _ _ => rfl)

theorem tabsAndQueues_switchGate {s : State} {p : Nat} {L : GateList} {C ta : Nat}
    (hp : (portAt s p).gate.pending = some (L, C, ta)) : tabsAndQueues (switchGate s p) = tabsAndQueues s :=
  showsFront_tabsAndQueues.switchGate hp

theorem tabsAndQueues_dueApplied (s : State) (p : Nat) : tabsAndQueues (dueApplied s p) = tabsAndQueues s := by
  refine view_ite ?_ rfl
  cases hp : (portAt s p).gate.pending with
  | none => rw [switchGate, hp]
  | some c => exact tabsAndQueues_switchGate hp

theorem tabsAndQueues_acceptGate (s : State) (p : Nat) : tabsAndQueues (acceptGate s p) = tabsAndQueues s := by
  obtain ⟨_, h⟩ := showsFront_tabsAndQueues.acceptGate s p
  exact h.trans (tabsAndQueues_dueApplied s p)

/-! ### The commands of a port's gate -/

/-- A write that reaches a register on any page of a port wakes no slice. -/
theorem atRegister_portPage (s : State) (src : Source) (port : Fin 64) {k off : Nat} (hk : k < 4) (h : off < 0x1000) :
    atRegister s src (portReg port k off) = dropHeld s src (portReg port k off) :=
  atRegister_eq s src _ fun i j => by simp [pageAt_portReg port hk h]

theorem exec_gateConfigChange {s : State} {src : Source} {port : Fin 64} (h : Admitted s src (portReg port 1 0x80))
    (he : gateEnabled s port = true) :
    exec (.gateConfigChange src port) s = .next (acceptGate (dropHeld s src (portReg port 1 0x80)) port) := by
  refine congrArg done ((guarded_of_admitted h _).trans ?_)
  rw [atRegister_portPage s src port (by decide) (by decide)]
  exact if_pos he

theorem exec_gateChangeTime {s : State} {port : Fin 64} (h : gateDue s port = true) :
    exec (.gateChangeTime port) s = .next (switchGate s port) := congrArg done (if_pos h)

theorem exec_gateDisable {s : State} {src : Source} {port : Fin 64} (h : Admitted s src (portReg port 1 0x80)) :
    exec (.gateDisable src port) s =
      .next (dropGates (setFlag (dropHeld s src (portReg port 1 0x80)) (portReg port 1 0x80) 31 false) port) := by
  rw [← atRegister_portPage s src port (by decide) (by decide)]
  exact congrArg done (guarded_of_admitted h _)

/-- A change of the gate raises cause 0 of its page. -/
theorem flag_switchGate {s : State} {p : Nat} {L : GateList} {C ta : Nat} (hp : (portAt s p).gate.pending = some (L, C, ta)) :
    flag (switchGate s p) ((Page.port p 1).at_ 0x10) 0 = true := by
  rw [switchGate, hp]
  exact (flag_raise _ _ _ _ _ (by decide)).trans (if_pos ⟨rfl, rfl⟩)

theorem gateEnabled_dropGates {s : State} {p : Nat} (h : flag s (portReg p 1 0x80) 31 = false) :
    gateEnabled (dropGates s p) p = false := by
  have hflag : flag (dropGates s p) (portReg p 1 0x80) 31 = false := (flag_wr_other _ _ _ (portReg_ne p 1 (by decide))).trans h
  rw [gateEnabled, hflag, Bool.and_false]

/-- A fragment cut at a gate's close (R232) is in no register. -/
theorem holdAtClose_regs (s : State) (p : Nat) : (holdAtClose s p).regs = s.regs := by
  unfold holdAtClose
  split
  · rfl
  · refine view_ite rfl ?_
    split
    · exact view_ite rfl (count_regs _ _ _)
    · rfl

/-! ### The wake before a window (R227) -/

/-- Within `w` ns a gate of slice `sl` opens for a queue that holds a frame. -/
def windowNears (s : State) (sl w : Nat) : Bool :=
  (List.range 8).any fun k => gateEnabled s (8 * sl + k) && (busyQueues s).any fun q =>
    queuePort s q == some (8 * sl + k) && opensWithin s (8 * sl + k) (q % 8) w

/-- How deep a slice sleeps. -/
def sleepOf (deep : Bool) : SleepState := if deep then .deep else .light

/-- How long before a window a slice wakes that sleeps so deep: 20 µs or 1 µs. -/
def wakeLead (deep : Bool) : Nat := if deep then 20000 else 1000

theorem gateWakes_eq (s : State) (sl : Nat) :
    ∃ w, (∀ deep, (sliceAt s sl).sleep = sleepOf deep → w = wakeLead deep) ∧
      gateWakes s sl = if windowNears s sl w then wakeSlice s sl else s := by
  refine ⟨_, fun deep h => ?_, rfl⟩
  rw [h]
  cases deep <;> rfl

theorem windowNears_of_opens {s : State} {port q w : Nat} (he : gateEnabled s port = true) (hq : q ∈ busyQueues s)
    (hp : queuePort s q = some port) (ho : opensWithin s port (q % 8) w = true) : windowNears s (port / 8) w = true := by
  refine List.any_eq_true.mpr ⟨port % 8, List.mem_range.mpr (Nat.mod_lt _ (by decide)), ?_⟩
  rw [Nat.div_add_mod, he, Bool.true_and]
  exact List.any_eq_true.mpr ⟨q, hq, by rw [hp, ho]; simp⟩

theorem windowNears_of_disabled {s : State} {sl : Nat} (h : ∀ p, p / 8 = sl → gateEnabled s p = false) (w : Nat) :
    windowNears s sl w = false := by
  refine List.any_eq_false.mpr fun k hk => ?_
  have hk := List.mem_range.mp hk
  rw [h (8 * sl + k) (by omega), Bool.false_and]
  exact Bool.false_ne_true

theorem sleep_wakeSlice {s : State} {i : Nat} {deep : Bool} (h : (sliceAt s i).sleep = sleepOf deep) :
    (sliceAt (wakeSlice s i) i).sleep = .waking deep := by
  have counted : ∀ u, (sliceAt (count u (6 + i) 1) i).sleep = (sliceAt u i).sleep := fun u =>
    view_count (F := fun u => (sliceAt u i).sleep) (fun _ _ => rfl) u _ _
  unfold wakeSlice
  cases deep with
  | false => simp only [h, sleepOf, Bool.false_eq_true, if_false, counted, sliceAt_setSlice_same]
  | true => simp only [h, sleepOf, if_true, counted, sliceAt_setSlice_same]

/-- A sleeping slice wakes when a window of its ports nears for a frame that waits. -/
theorem gateWake_wakes {s : State} {port : Fin 64} {q : Nat} {deep : Bool} (he : gateEnabled s port = true) (hq : q ∈ busyQueues s)
    (hp : queuePort s q = some port.val) (hs : (sliceAt s (port.val / 8)).sleep = sleepOf deep)
    (ho : opensWithin s port (q % 8) (wakeLead deep) = true) :
    ∃ t, exec (.gateWake ⟨port.val / 8, by omega⟩) s = .next t ∧ settled t = settled s ∧
      (sliceAt t (port.val / 8)).sleep = .waking deep ∧ t.regs = s.regs ∧ t.queues = s.queues := by
  obtain ⟨w, hw, heq⟩ := gateWakes_eq s (port.val / 8)
  rw [hw deep hs, if_pos (windowNears_of_opens he hq hp ho)] at heq
  have hqueues := (stored_iff.mp (stored_wakeSlice s (port.val / 8))).2
  exact ⟨_, congrArg done heq, settled_wakeSlice _ _, sleep_wakeSlice hs, wakeSlice_regs _ _, hqueues⟩

/-- Settles O22: a refill, a transit's end and the steps of a gate's lists are read through views of what each leaves alone; the wakes of
both depths are one case. -/
theorem shapersAndGatesKeepTheirTimes : Obligations.ShapersAndGatesKeepTheirTimes := by
  refine ⟨fun s n hc hl hd => ?_, fun s n hd => exec_shaperRefill_early hd, fun s n ht hh => ?_,
    fun wasOn isOn rate interval burst v hv => ?_, fun s src port h he => ?_, fun s port L C ta hp hd => ?_, fun s port => ?_,
    fun s src port h => ?_, fun s port q he hq hp hs ho => gateWake_wakes (deep := false) he hq hp hs ho,
    fun s port q he hq hp hs ho => gateWake_wakes (deep := true) he hq hp hs ho, fun s i h => ?_⟩
  · obtain ⟨hrefills, hdeficit⟩ := Prod.ext_iff.mp (refillsAndDeficits_refillTier s n)
    refine ⟨_, exec_shaperRefill_due hc hd, rfl, eq_of_besideSched (besideSched_refillTier s n), ?_, hdeficit⟩
    exact (congrArg (nth · n) hrefills).trans (nth_set_same (by omega) _)
  · refine ⟨_, exec_transitEnd_of_empty ht hh, not_mem_transit_leaveTransit s n, ?_, regsBut_transitEnd s n, ?_⟩
    · exact (flag_raise _ _ _ _ _ (by decide)).trans (if_pos ⟨rfl, rfl⟩)
    · rw [eq_of_besideSched (view_settleAll (F := besideSched) (fun _ _ => rfl) (leaveTransit s n))]
      rfl
  · refine ⟨refillOne_le wasOn isOn rate interval hv, fun hon hoff => ?_, fun hoff => ?_⟩
    · rw [hon, hoff, refillOne_of_enabled]
    · rw [hoff, refillOne_of_off]
  · obtain ⟨hpending, hoper⟩ := gate_acceptGate (dropHeld s src (portReg port 1 0x80)) port
    obtain ⟨htabs, hqueues⟩ := tabsAndQueues_iff.mp (tabsAndQueues_acceptGate (dropHeld s src (portReg port 1 0x80)) port)
    have hexec := exec_gateConfigChange h he
    exact ⟨_, hexec, settled_execGateConfigChange src port s _ hexec, hpending,
      fun hnone => hoper.trans (oper_dueApplied_of_notDue hnone), fun L C ta hp hd => hoper.trans (oper_dueApplied_of_pending hp hd),
      htabs, hqueues⟩
  · obtain ⟨htabs, hqueues⟩ := tabsAndQueues_iff.mp (tabsAndQueues_switchGate hp)
    exact ⟨_, exec_gateChangeTime ((gateDue_of_pending hp).trans (decide_eq_true hd)), gate_switchGate hp, flag_switchGate hp, htabs,
      hqueues⟩
  · have hexec : exec (.gateEntryChange port) s = .next (holdAtClose (showGate s port) port) := rfl
    have hregs := holdAtClose_regs (showGate s port) port
    refine ⟨_, hexec, settled_execGateEntryChange port s _ hexec, rfl, ?_, fun a ha => ?_⟩
    · rw [rd, hregs, ← rd, showGate, rd_wr_same]
    · rw [rd, hregs, ← rd, showGate, rd_wr_other _ _ (List.mem_singleton.not.mp ha)]
  · refine ⟨_, exec_gateDisable h, gate_dropGates _ _, gateEnabled_dropGates (flag_setFlag_same _ _ _ _ (by decide)), rfl⟩
  · obtain ⟨w, -, heq⟩ := gateWakes_eq s i
    rw [windowNears_of_disabled h] at heq
    exact congrArg done heq

end Sys2Proof.Machine
end

section
/-! Instants on a grid (R220, R239, R253, R254): the first whole number of steps that reaches an instant gives a gate list's change time, an
output edge and the end of a re-phased cycle. -/

namespace Sys2Proof.Machine

/-- The multiple of `k` at or above `n` lies less than one step ahead. -/
theorem ceilDiv_mul_bounds (n : Nat) {k : Nat} (h : 0 < k) : n ≤ ceilDiv n k * k ∧ ceilDiv n k * k < n + k := by
  rw [ceilDiv, if_neg h.ne']
  have hle := Nat.div_mul_le_self (n + k - 1) k
  have hlt := Nat.lt_div_mul_add (a := n + k - 1) h
  omega

/-! ### The change time of a gate list (R220) and the grid of an output (R253, R254) -/

theorem changeTime_of_ahead {base ta : Nat} (h : ta + 10000 ≤ base) (cycle : Nat) : changeTime base cycle ta = (base, 0) := if_pos h

theorem changeTime_of_past {base ta : Nat} (h : base < ta + 10000) (cycle : Nat) :
    changeTime base cycle ta = (base + ceilDiv (ta + 10000 - base) cycle * cycle, ceilDiv (ta + 10000 - base) cycle) :=
  if_neg (Nat.not_le.mpr h)

theorem changeTime_onGrid (base ta : Nat) {cycle : Nat} (h : 0 < cycle) :
    (changeTime base cycle ta).1 = base + (changeTime base cycle ta).2 * cycle ∧ ta + 10000 ≤ (changeTime base cycle ta).1 ∧
      ((changeTime base cycle ta).2 ≠ 0 → (changeTime base cycle ta).1 < ta + 10000 + cycle) := by
  by_cases hb : ta + 10000 ≤ base
  · rw [changeTime_of_ahead hb]
    exact ⟨by rw [Nat.zero_mul, Nat.add_zero], hb, fun hn => absurd rfl hn⟩
  · obtain ⟨hle, hlt⟩ := ceilDiv_mul_bounds (ta + 10000 - base) h
    rw [changeTime_of_past (Nat.lt_of_not_le hb)]
    exact ⟨rfl, by dsimp only; omega, fun _ => by dsimp only; omega⟩

theorem gridFrom_of_le {start t : Nat} (h : t ≤ start) (period : Nat) : gridFrom start period t = start := if_pos h

theorem gridFrom_of_lt {start t : Nat} (h : start < t) (period : Nat) :
    gridFrom start period t = start + ceilDiv (t - start) period * period := if_neg (Nat.not_le.mpr h)

theorem gridFrom_onGrid (start t : Nat) {period : Nat} (h : 0 < period) :
    t ≤ gridFrom start period t ∧ start ≤ gridFrom start period t ∧ (gridFrom start period t - start) % period = 0 ∧
      (start < t → gridFrom start period t < t + period) := by
  by_cases hs : t ≤ start
  · rw [gridFrom_of_le hs, Nat.sub_self]
    exact ⟨hs, le_rfl, Nat.zero_mod _, fun hlt => absurd hs (Nat.not_le.mpr hlt)⟩
  · obtain ⟨hle, hlt⟩ := ceilDiv_mul_bounds (t - start) h
    rw [gridFrom_of_lt (Nat.lt_of_not_le hs), Nat.add_sub_cancel_left]
    exact ⟨by omega, Nat.le_add_right _ _, Nat.mul_mod_left _ _, fun _ => by omega⟩

/-! ### The cycle after a step (R239) -/

/-- The multiple of 125,000 ns at or after device time, whose fraction counts. -/
def cycleMark (s : State) : Nat := ceilDiv s.clock.dev (125000 * 2 ^ 40) * 125000

/-- What the cycle in progress would last in steady time if it ended at `m`. -/
def cycleLength (s : State) (m : Nat) : Nat := s.clock.steady + ticksUntil s m - s.clock.cycleStart

/-- Where the cycle in progress ends once it is re-phased. -/
def rephasedEnd (s : State) : Nat := if cycleLength s (cycleMark s) < 62500 then cycleMark s + 125000 else cycleMark s

theorem cycleMark_bounds (s : State) :
    s.clock.dev ≤ cycleMark s * 2 ^ 40 ∧ cycleMark s * 2 ^ 40 < s.clock.dev + 125000 * 2 ^ 40 := by
  have h := ceilDiv_mul_bounds s.clock.dev (k := 125000 * 2 ^ 40) (by decide)
  rwa [← Nat.mul_assoc] at h

theorem cycleMark_mod (s : State) : cycleMark s % 125000 = 0 := by rw [cycleMark, Nat.mul_mod_left]

/-- Less than one cycle ahead of device time lies one multiple only. -/
theorem eq_cycleMark {s : State} {m : Nat} (hm : m % 125000 = 0) (hle : s.clock.dev ≤ m * 2 ^ 40)
    (hlt : m * 2 ^ 40 < s.clock.dev + 125000 * 2 ^ 40) : m = cycleMark s := by
  have hmod := cycleMark_mod s
  have hbounds := cycleMark_bounds s
  omega

theorem rephasedEnd_mod (s : State) : rephasedEnd s % 125000 = 0 := by
  have hmod := cycleMark_mod s
  unfold rephasedEnd
  split <;> omega

theorem dev_le_rephasedEnd (s : State) : s.clock.dev ≤ rephasedEnd s * 2 ^ 40 := by
  have hmark : cycleMark s ≤ rephasedEnd s := by
    unfold rephasedEnd
    split <;> omega
  exact (cycleMark_bounds s).1.trans (Nat.mul_le_mul_right _ hmark)

theorem Shows.narrowShared {α : Type} {F : State → α} {as : List Nat} (h : Shows F as) {a : Nat} (ha : a ∉ as) (s : State) :
    F (rephase.narrowShared s a) = F s := by
  have cause : Page.counters.at_ 0x10 ∉ as := fun hm => (h.apart _ hm).2 rfl
  exact view_ite rfl (view_ite ((h.report _ _ _ _).trans ((h.raise cause _ _).trans (h.setFld ha _ _ _ _))) (h.setFld ha _ _ _ _))

/-- The cycle ends at its new end, and the numbers of the cycle in progress and of the next one are recorded. -/
def cyclesRecorded (s : State) : State :=
  wr (wr { s with clock := { s.clock with cycleEnd := rephasedEnd s } } 0x4080 (s.clock.cycleNumber % 2 ^ 32)) 0x4084
    (cycleOf (rephasedEnd s) % 2 ^ 32)

theorem rephase_eq (s : State) : rephase s = raise (rephase.narrowShared (cyclesRecorded s) 0x4078) .time 0 := rfl

/-- A view of neither the count of re-phased cycles nor the cause it raises shows of a re-phasing the record alone. -/
theorem Shows.rephase {α : Type} {F : State → α} {as : List Nat} (h : Shows F as) (hn : 0x4078 ∉ as) (hi : 0x4010 ∉ as) (s : State) :
    F (rephase s) = F (cyclesRecorded s) := (h.raise (p := .time) hi _ _).trans (h.narrowShared hn _)

theorem clock_rephase (s : State) : (rephase s).clock = { s.clock with cycleEnd := rephasedEnd s } :=
  (shows_of_rfl (F := fun u => u.clock) fun _ _ _ _ _ => rfl).rephase List.not_mem_nil List.not_mem_nil s

theorem rd_rephase_ended (s : State) : rd (rephase s) 0x4080 = s.clock.cycleNumber % 2 ^ 32 := by
  rw [(shows_rd (a := 0x4080) (by decide) (by decide)).rephase (by decide) (by decide), cyclesRecorded, rd_wr_other _ _ (by decide),
    rd_wr_same, Nat.mod_mod]

theorem rd_rephase_next (s : State) : rd (rephase s) 0x4084 = rephasedEnd s / 125000 % 2 ^ 32 := by
  rw [(shows_rd (a := 0x4084) (by decide) (by decide)).rephase (by decide) (by decide), cyclesRecorded, rd_wr_same, Nat.mod_mod, cycleOf]

theorem flag_rephase_cause (s : State) : flag (rephase s) 0x4010 0 = true :=
  (flag_raise _ .time 0 _ _ (by decide)).trans (if_pos ⟨rfl, rfl⟩)

/-- Settles O23: each of the three times is the first multiple of its step that reaches an instant; the multiple less than one cycle ahead
of device time is the one that re-phasing takes. -/
theorem timesFallOnTheirGrids : Obligations.TimesFallOnTheirGrids := by
  refine ⟨fun base cycle ta h => changeTime_onGrid base ta h, fun start period t h => gridFrom_onGrid start t h, fun s => ?_⟩
  have hend : (rephase s).clock.cycleEnd = rephasedEnd s := congrArg Clock.cycleEnd (clock_rephase s)
  rw [hend]
  refine ⟨rephasedEnd_mod s, dev_le_rephasedEnd s, fun m hm hle hlt => ?_, rd_rephase_ended s, rd_rephase_next s, flag_rephase_cause s,
    clock_rephase s⟩
  rw [eq_cycleMark hm hle hlt]
  rfl

end Sys2Proof.Machine
end

section
/-! The verify process (R229) while front egress is open (R262). -/

namespace Sys2Proof.Machine

/-- The verify process has asked once more, and waits for the answer. -/
def verifyAsked (s : State) (p : Nat) : State :=
  emit (setPort (setFld s (portReg p 1 0xD4) 29 27 2) p
    { portAt s p with verifySent := (portAt s p).verifySent + 1, verifyAt := now s }) (.control p [smdVerify])

/-- The verify process has failed: its third question went unanswered. -/
def verifyFailed (s : State) (p : Nat) : State := raise (setFld s (portReg p 1 0xD4) 29 27 4) (.port p 1) 4

/-! ### A question -/

/-- A port whose egress is closed sends nothing (R262). -/
theorem verifySend_of_closed {s : State} (h : egressOpen s = false) (p : Nat) : verifySend s p = s :=
  if_pos (.inr (.inr (.inl (by rw [h]; rfl))))

section Asking

variable {s : State} {p : Nat} (he : preemptEnabled s p = true) (hu : portUp s p = true) (ho : egressOpen s = true)
  (hf : flag s (portReg p 1 0xD0) 30 = false)
include he hu ho hf

theorem verify_runs : ¬(!preemptEnabled s p ∨ !portUp s p ∨ !egressOpen s ∨ flag s (portReg p 1 0xD0) 30) := by simp [he, hu, ho, hf]

theorem verifySend_of_initial (h1 : fld s (portReg p 1 0xD4) 29 27 = 1) : verifySend s p = verifyAsked s p := by
  simp only [verifySend, if_neg (verify_runs he hu ho hf), h1]
  rfl

variable (h2 : fld s (portReg p 1 0xD4) 29 27 = 2)
  (hd : (portAt s p).verifyAt + (fld s (portReg p 1 0xD0) 29 23 + 1) * 1000000 ≤ now s)
include h2 hd

theorem verifySend_of_waited :
    verifySend s p = if (portAt s p).verifySent < 3 then verifyAsked s p else verifyFailed s p := by
  simp only [verifySend, if_neg (verify_runs he hu ho hf), h2, if_neg (Nat.not_lt.mpr hd)]
  rfl

theorem verifySend_of_unanswered (hn : (portAt s p).verifySent < 3) : verifySend s p = verifyAsked s p :=
  (verifySend_of_waited he hu ho hf h2 hd).trans (if_pos hn)

theorem verifySend_of_spent (hn : 3 ≤ (portAt s p).verifySent) : verifySend s p = verifyFailed s p :=
  (verifySend_of_waited he hu ho hf h2 hd).trans (if_neg (Nat.not_lt.mpr hn))

end Asking

/-! ### The verify state that each step leaves -/

theorem fld_setVerify (s : State) (p : Nat) {v : Nat} (h : v < 8) :
    fld (setFld s (portReg p 1 0xD4) 29 27 v) (portReg p 1 0xD4) 29 27 = v :=
  (fld_setFld_same _ _ _ _ _ (by decide) (by decide)).trans (Nat.mod_eq_of_lt h)

theorem fld_verifyAsked (s : State) (p : Nat) : fld (verifyAsked s p) (portReg p 1 0xD4) 29 27 = 2 := fld_setVerify s p (by decide)

theorem portAt_verifyAsked (s : State) (p : Nat) :
    portAt (verifyAsked s p) p = { portAt s p with verifySent := (portAt s p).verifySent + 1, verifyAt := now s } :=
  portAt_setPort_same _ _ _

theorem settled_verifyAsked (s : State) (p : Nat) : settled (verifyAsked s p) = settled s := rfl

theorem regsBut_verifyAsked (s : State) (p : Nat) : RegsBut [portReg p 1 0xD4] s (verifyAsked s p) :=
  (RegsBut.of_regs_eq _ (t := s) rfl).wr (List.mem_singleton_self _) _

theorem fld_verifyFailed (s : State) (p : Nat) : fld (verifyFailed s p) (portReg p 1 0xD4) 29 27 = 4 :=
  (fld_raise_other _ (.port p 1) _ _ _ (portReg_ne p 1 (by decide))).trans (fld_setVerify s p (by decide))

theorem flag_verifyFailed (s : State) (p : Nat) : flag (verifyFailed s p) ((Page.port p 1).at_ 0x10) 4 = true :=
  (flag_raise _ _ _ _ _ (by decide)).trans (if_pos ⟨rfl, rfl⟩)

/-! ### An answer -/

/-- SUPPORTED lies beside the verify state (PREEMPT_STATUS). -/
theorem preemptEnabled_setVerify (s : State) (p v : Nat) :
    preemptEnabled (setFld s (portReg p 1 0xD4) 29 27 v) p = preemptEnabled s p := by
  unfold preemptEnabled
  rw [flag_setFld _ _ _ _ _ _ _ (by decide) (by decide), flag_setFld _ _ _ _ _ _ _ (by decide) (by decide),
    if_neg fun e => portReg_ne p 1 (by decide) e.1, if_neg fun e => absurd e.2.2 (by decide)]

theorem portUp_setVerify (s : State) (port : Fin 64) (v : Nat) :
    portUp (setFld s (portReg port 1 0xD4) 29 27 v) port = portUp s port :=
  congrArg (· == 2) ((showsNoPort_portState port).setFld ((showsNoPort_portState port).not_mem_page port (by decide) (by decide)) _ _ _ _)

/-- Preemption is active on a port that is UP with it once the verify process has succeeded. -/
theorem flag_followPreempt_of_verified {s : State} {port : Fin 64} (he : preemptEnabled s port = true) (hu : portUp s port = true)
    (h3 : fld s (portReg port 1 0xD4) 29 27 = 3) : flag (followPreempt s port) (portReg port 1 0xD4) 31 = true := by
  unfold followPreempt
  simp only [he, hu, h3, beq_self_eq_true, Bool.or_true, Bool.and_true]
  split
  case isTrue h =>
    rw [preemptActive, decide_eq_true port.isLt, Bool.true_and] at h
    exact (beq_iff_eq.mp h).symm
  case isFalse =>
    rw [flag_raise _ _ _ _ _ (by decide), if_neg fun e => portReg_ne port 1 (by decide) e.1, flag_setFlag_same _ _ _ _ (by decide)]

/-- The state but for its registers and what has left the block. -/
def besideRegsOut (s : State) : State := { s with regs := [], out := [] }

theorem eq_of_besideRegsOut {s t : State} (h : besideRegsOut t = besideRegsOut s) : t = { s with regs := t.regs, out := t.out } :=
  congrArg (fun u : State => { u with regs := t.regs, out := t.out }) h

theorem besideRegsOut_followPreempt (s : State) (p : Nat) : besideRegsOut (followPreempt s p) = besideRegsOut s := view_ite rfl rfl

theorem verifySucceeds_of_waiting {s : State} {p : Nat} (h2 : fld s (portReg p 1 0xD4) 29 27 = 2) :
    verifySucceeds s p = followPreempt (setFld s (portReg p 1 0xD4) 29 27 3) p := if_pos h2

/-- Settles O24: a question that is due is sent or is one too many, and an answer makes preemption active. -/
theorem verifyAsksThreeTimes : Obligations.VerifyAsksThreeTimes := by
  refine ⟨fun s port he hu ho hf hdue => ?_, fun s port h => congrArg done (verifySend_of_closed h port),
    fun s port he hu ho hf h2 hn hd => ?_, fun s port h2 he hu => ?_⟩
  · have hsend : verifySend s port = verifyAsked s port := by
      obtain h1 | ⟨h2, hn, hd⟩ := hdue
      · exact verifySend_of_initial he hu ho hf h1
      · exact verifySend_of_unanswered he hu ho hf h2 hd hn
    have hport := portAt_verifyAsked s port
    exact ⟨_, congrArg done hsend, settled_verifyAsked s port, fld_verifyAsked s port, rfl, congrArg Port.verifySent hport,
      congrArg Port.verifyAt hport, regsBut_verifyAsked s port, rfl⟩
  · exact ⟨_, congrArg done (verifySend_of_spent he hu ho hf h2 hd hn), fld_verifyFailed s port, flag_verifyFailed s port, rfl⟩
  · have h3 := fld_setVerify s port (v := 3) (by decide)
    have hactive := flag_followPreempt_of_verified ((preemptEnabled_setVerify s port 3).trans he) ((portUp_setVerify s port 3).trans hu) h3
    exact ⟨_, congrArg done (verifySucceeds_of_waiting h2), (fld_followPreempt_verify _ _).trans h3, hactive,
      eq_of_besideRegsOut (besideRegsOut_followPreempt _ port)⟩

end Sys2Proof.Machine
end

section
/-! Twin operation: the registers of its page, and the views that a resynchronisation (R283), a change of role (R266) and the end of front
egress (R262) leave alone. -/

namespace Sys2Proof.Machine

/-! ### The twin page -/

theorem atRegister_twin (s : State) (src : Source) {a : Nat} (h : pageAt a = some .twin) : atRegister s src a = dropHeld s src a :=
  atRegister_eq s src a fun i k => by simp [h]

/-- A command whose operands have their fixed size completes. -/
theorem sized_of {p : Prop} [Decidable p] (h : p) (s : State) : sized (decide p) s = .next s := if_pos (decide_eq_true h)

theorem RegsBut.trans {as : List Nat} {s t u : State} (h : RegsBut as t u) (hs : RegsBut as s t) : RegsBut as s u := fun a ha =>
  (h a ha).trans (hs a ha)

theorem rd_of_regs_eq {s t : State} (h : t.regs = s.regs) (a : Nat) : rd t a = rd s a := by rw [rd, h, rd]

theorem flag_of_regs_eq {s t : State} (h : t.regs = s.regs) (a k : Nat) : flag t a k = flag s a k := congrArg (bitAt · k) (rd_of_regs_eq h a)

theorem fld_of_regs_eq {s t : State} (h : t.regs = s.regs) (a hi lo : Nat) : fld t a hi lo = fld s a hi lo :=
  congrArg (bits · hi lo) (rd_of_regs_eq h a)

/-! ### Resynchronisation (R283) -/

/-- The view shows neither what a resynchronisation changes of the copy (SYNCED, the staged deltas, the bulk, the tables) nor Kettle's window. -/
structure ShowsNoResync {α : Type} (F : State → α) (as : List Nat) : Prop extends Shows F as, ShowsNoKettle F where
  unsynced : ∀ s, F (setFlag s 0x604C 23 false) = F s
  copy : ∀ s b l x, F { s with twin := { s.twin with bulk := b, staged := l }, tabs := x } = F s

theorem ShowsNoResync.startResync {α : Type} {F : State → α} {as : List Nat} (h : ShowsNoResync F as) (ha : 0x6128 ∉ as) (s : State) :
    F (startResync s) = F s :=
  (h.kettleSend _ _ _ _ _).trans ((h.copy _ .requested [] _).trans ((h.tally ha _).trans (h.unsynced s)))

/-- What is read from a register but TWIN_STATUS. -/
theorem showsNoResync_word {α : Type} {a : Nat} (h2 : a / 0x1000 ≠ 2) (hd : a ≠ 0xD010) (hs : a ≠ 0x604C) (g : Nat → α) :
    ShowsNoResync (fun s => g (rd s a)) [a] where
  word s _ v hb := congrArg g (rd_wr_other s v fun e => hb (by simp [e]))
  counters _ _ := rfl
  errors _ _ := rfl
  out _ _ := rfl
  apart b hb := by rw [List.mem_singleton.mp hb]; exact ⟨h2, hd⟩
  kettle _ _ := rfl
  unsynced s := congrArg g (rd_setFlag_other s 23 false hs)
  copy _ _ _ _ := rfl

/-- A field of TWIN_STATUS beside SYNCED. -/
theorem showsNoResync_status {hi lo : Nat} (h : hi < 23 ∨ 23 < lo) : ShowsNoResync (fun s => fld s 0x604C hi lo) [0x604C] where
  word s _ v hb := fld_wr_other s v hi lo fun e => hb (by simp [e])
  counters _ _ := rfl
  errors _ _ := rfl
  out _ _ := rfl
  apart b hb := by rw [List.mem_singleton.mp hb]; decide
  kettle _ _ := rfl
  unsynced s := fld_setFlag_other s 0x604C 23 false 0x604C hi lo (by decide) (.inr h)
  copy _ _ _ _ := rfl

/-- A bit of TWIN_STATUS beside SYNCED. -/
theorem showsNoResync_statusBit {k : Nat} (h : k ≠ 23) : ShowsNoResync (fun s => flag s 0x604C k) [0x604C] where
  word s _ v hb := flag_wr_other s v k fun e => hb (by simp [e])
  counters _ _ := rfl
  errors _ _ := rfl
  out _ _ := rfl
  apart b hb := by rw [List.mem_singleton.mp hb]; decide
  kettle _ _ := rfl
  unsynced s := (flag_setFlag s 0x604C 23 false 0x604C k (by decide)).trans (if_neg fun e => h e.2)
  copy _ _ _ _ := rfl

/-- What the twin holds beside the staged deltas and the bulk. -/
theorem showsNoResync_twin {α : Type} {g : Twin → α} (h : ∀ x b l, g { x with bulk := b, staged := l } = g x) :
    ShowsNoResync (fun s => g s.twin) [] where
  toShows := shows_of_rfl fun _ _ _ _ _ => rfl
  kettle _ _ := rfl
  unsynced _ := rfl
  copy s b l _ := h s.twin b l

/-! ### The role (R266) -/

theorem role_setRole (s : State) {r : Nat} (h : r < 8) : role (setRole s r) = r := by
  unfold setRole
  split
  · assumption
  · exact (fld_raise_other _ .twin 0 31 29 (by decide)).trans
      ((fld_setFld_same s 0x604C 31 29 r (by decide) (by decide)).trans (Nat.mod_eq_of_lt h))

/-- Another role raises ROLE_CHANGE. -/
theorem setRole_of_ne {s : State} {r : Nat} (h : role s ≠ r) : setRole s r = raise (setFld s 0x604C 31 29 r) .twin 0 := if_neg h

/-- A view of neither ROLE nor the interrupts of the page does not show a change of role. -/
theorem view_setRole {α : Type} {F : State → α} (hs : ∀ s v, F (setFld s 0x604C 31 29 v) = F s) (hr : ∀ s, F (raise s .twin 0) = F s)
    (s : State) (r : Nat) : F (setRole s r) = F s := view_ite rfl ((hr _).trans (hs s r))

theorem flag_setRole (s : State) (r : Nat) {a k : Nat} (hs : a ≠ 0x604C ∨ k < 29) (hr : a ≠ 0x6010 ∨ k ≠ 0) :
    flag (setRole s r) a k = flag s a k :=
  view_setRole (F := fun s => flag s a k) (fun u v => (flag_setFld u 0x604C 31 29 v a k (by decide) (by decide)).trans (if_neg (by omega)))
    (fun u => (flag_raise u .twin 0 a k (by decide)).trans (if_neg fun e => by
      rcases hr with h | h
      · exact h e.1
      · exact h e.2)) s r

theorem twin_setRole (s : State) (r : Nat) : (setRole s r).twin = s.twin := view_setRole (F := State.twin) (fun _ _ => rfl) (fun _ => rfl) s r

/-! ### Front egress stops (R262) -/

theorem showsNoQueue_twin : ShowsNoQueue State.twin [] where
  toShows := shows_of_rfl fun _ _ _ _ _ => rfl
  queues _ _ := rfl
  spill := ⟨List.not_mem_nil, List.not_mem_nil, List.not_mem_nil⟩

theorem showsNoPort_twin : ShowsNoPort State.twin [] where
  toShowsFront := showsFront_of_shows showsNoQueue_twin.toShows
  ports _ _ := rfl
  pins _ _ := rfl

theorem twin_count (s : State) (i n : Nat) : (count s i n).twin = s.twin := showsNoQueue_twin.count s i n

theorem twin_countBoth (s : State) (first i bytes : Nat) : (countBoth s first i bytes).twin = s.twin :=
  (twin_count _ _ _).trans (twin_count _ _ _)

theorem twin_releaseSharer (s : State) (i phys : Nat) : (releaseSharer s i phys).twin = s.twin := by
  have reaped : ∀ u, (reapFrame u i).twin = u.twin := fun u => view_ite rfl rfl
  have returned : ∀ u f n, (returnLeaves u f n).twin = u.twin := fun u f n => view_ite rfl (showsNoPort_twin.fcFollow _ _ _)
  exact view_ite rfl ((reaped _).trans (view_ite (returned _ _ _) rfl))

theorem twin_releaseCopy (s : State) (c : Copy) : (releaseCopy s c).twin = s.twin := by
  have described : ∀ u, (returnDescriptor u c).twin = u.twin := fun u => by
    unfold returnDescriptor
    split <;> rfl
  exact (twin_releaseSharer _ _ _).trans (described _)

theorem twin_refuseMirror (s : State) (n : Nat) : (refuseMirror s n).twin = s.twin := twin_count _ _ _

theorem twin_countQueueDrop (s : State) (q len : Nat) : (countQueueDrop s q len).twin = s.twin := by
  have counted : ∀ i, (countQueue s q i len).twin = s.twin := fun i => by
    unfold countQueue
    split
    · rfl
    · exact twin_countBoth _ _ _ _
  exact (twin_countBoth _ _ _ _).trans (counted 4)

theorem twin_makeCapture (s : State) (f : Frame) (i : CaptureInfo) (bytes : List Byte) : (makeCapture s f i bytes).twin = s.twin :=
  view_ite (F := State.twin) (twin_count _ _ _) (twin_count _ _ _)

theorem twin_dropCaptures (s : State) (f : Frame) (c : Copy) (reason spill len : Nat) (bytes : List Byte) :
    (dropCaptures s f c reason spill len bytes).twin = s.twin :=
  view_foldl (F := State.twin) (fun _ _ => view_ite (twin_makeCapture _ _ _ _) rfl) _ s

theorem twin_releaseMirrorsOf (s : State) (home p : Nat) : (releaseMirrorsOf s home p).twin = s.twin := by
  refine (view_foldl (F := State.twin) (fun u m => ?_) _ _).trans (view_ite rfl rfl)
  split
  · exact (twin_refuseMirror _ _).trans (view_ite (F := State.twin) (twin_releaseSharer _ _ _) (twin_releaseCopy _ _))
  · rfl

theorem twin_traceDrop (s : State) (i reason : Nat) (c : Copy) : (traceDrop s i reason c).twin = s.twin := by
  have ended : ∀ f, (traceEnd s f reason (some c)).2.twin = s.twin := fun f => by
    unfold traceEnd
    split
    · rfl
    · exact view_ite (F := State.twin) rfl rfl
  exact view_ite (F := State.twin) (ended _) rfl

/-- A copy that is dropped on chip changes nothing of the twin. -/
theorem twin_dropCopy (s : State) (c : Copy) (reason : Nat) : (dropCopy s c reason).twin = s.twin := by
  have mirror : ∀ session len, (dropMirror s c session len).twin = s.twin := fun session len =>
    (twin_refuseMirror _ _).trans ((twin_releaseCopy _ _).trans (twin_countQueueDrop _ _ _))
  unfold dropCopy
  dsimp only
  split
  · exact mirror _ _
  · exact mirror _ _
  · exact mirror _ _
  · exact (twin_releaseCopy _ _).trans ((twin_traceDrop _ _ _ _).trans ((twin_releaseMirrorsOf _ _ _).trans
      ((twin_dropCaptures _ _ _ _ _ _ _).trans ((twin_countQueueDrop _ _ _).trans (showsNoQueue_twin.countDrop s _ 1)))))

theorem twin_truncateAs (s : State) (p : Nat) (express : Bool) (t : Tx) (bytes : List Byte) :
    (truncateAs s p express t bytes).twin = s.twin := by
  have sent : ∀ u, (countSent u p bytes false).twin = u.twin := fun u => view_ite (F := State.twin) (twin_count _ _ _) rfl
  exact (showsNoQueue_twin.spillExit _ _).trans ((twin_dropCopy _ _ _).trans ((sent _).trans (twin_count _ _ _)))

theorem twin_cutStomped (s : State) (p : Nat) (express : Bool) : (cutStomped s p express).twin = s.twin := by
  unfold cutStomped
  split
  · rfl
  · exact twin_truncateAs _ _ _ _ _

/-- The end of front egress changes nothing of the twin. -/
theorem twin_stopEgress (s : State) : (stopEgress s).twin = s.twin :=
  view_foldl (F := State.twin) (fun _ _ => (twin_cutStomped _ _ _).trans (twin_cutStomped _ _ _)) _ _

theorem FrontsIdle.of_ports {s t : State} (h : FrontsIdle s) (hp : t.ports = s.ports) : FrontsIdle t := fun p => by
  unfold portAt
  rw [hp]
  exact h p

/-- With no transmission under way the end of front egress is EGRESS_ALLOWED alone. -/
theorem stopEgress_of_idle {s : State} (h : FrontsIdle s) : stopEgress s = setFlag s 0x604C 25 false := by
  have idle : ∀ u p express, FrontsIdle u → cutStomped u p express = u := fun u p express hu => by
    obtain ⟨he, hp⟩ := hu p
    unfold cutStomped txOf
    cases express
    · rw [if_neg Bool.false_ne_true, hp]
    · rw [if_pos rfl, he]
  have hi : FrontsIdle (setFlag s 0x604C 25 false) := h
  exact foldl_of_fixed fun p _ => by rw [idle _ p true hi, idle _ p false hi]

end Sys2Proof.Machine
end

section
/-! The interlock (R257 to R268): the release of the claim line, a conflict, and the way from a claim to ACTIVE. -/

namespace Sys2Proof.Machine

/-! ### The claim line is released (R261, R264) -/

/-- The claim line is released, and the resynchronisation of a standby that is not SYNCED still to come. -/
def claimDropped (s : State) : State :=
  let u := driveClaim (handoverDone s) false
  setRole (endHandover { u with twin := { u.twin with confirmed := false, conflicted := false, releaseAt := none } }) 0

theorem ShowsNoResync.dropClaim {α : Type} {F : State → α} {as : List Nat} (h : ShowsNoResync F as) (ha : 0x6128 ∉ as) (s : State) :
    F (dropClaim s) = F (claimDropped s) := view_ite (s := claimDropped s) (h.startResync ha _) rfl

theorem twin_claimDropped (s : State) : (claimDropped s).twin =
    { s.twin with confirmed := false, conflicted := false, releaseAt := none, handover := .none } := by
  have done : (handoverDone s).twin = s.twin := view_ite (F := State.twin) rfl rfl
  refine (twin_setRole _ _).trans ?_
  exact congrArg (fun x : Twin => { x with confirmed := false, conflicted := false, releaseAt := none, handover := .none }) done

theorem role_dropClaim (s : State) : role (dropClaim s) = 0 :=
  ((showsNoResync_status (.inr (by decide))).dropClaim (by decide) s).trans (role_setRole _ (by decide))

theorem claims_dropClaim (s : State) : claims (dropClaim s) = false := by
  refine ((showsNoResync_statusBit (by decide)).dropClaim (by decide) s).trans ?_
  rw [claimDropped, flag_setRole _ _ (.inr (by decide)) (.inl (by decide))]
  exact (flag_setFlag _ 0x6048 28 false 0x604C 28 (by decide)).trans (flag_setFlag_same _ 0x604C 28 false (by decide))

/-- ARM stays as it is. -/
theorem armed_dropClaim (s : State) : armed (dropClaim s) = armed s := by
  have done : rd (handoverDone s) 0x6048 = rd s 0x6048 :=
    view_ite (F := fun u => rd u 0x6048) (rd_raise_other s .twin 7 (by decide)) rfl
  refine ((showsNoResync_word (by decide) (by decide) (by decide) (bitAt · 31)).dropClaim (by decide) s).trans ?_
  refine (flag_setRole (a := 0x6048) (k := 31) _ _ (.inl (by decide)) (.inl (by decide))).trans ?_
  refine (flag_setFlag _ 0x6048 28 false 0x6048 31 (by decide)).trans ((if_neg (by decide)).trans ?_)
  exact congrArg (bitAt · 31) ((rd_setFlag_other (handoverDone s) 28 false (by decide)).trans done)

theorem confirmed_dropClaim (s : State) : (dropClaim s).twin.confirmed = false :=
  ((showsNoResync_twin (g := Twin.confirmed) fun _ _ _ => rfl).dropClaim List.not_mem_nil s).trans
    (congrArg Twin.confirmed (twin_claimDropped s))

theorem releaseAt_dropClaim (s : State) : (dropClaim s).twin.releaseAt = none :=
  ((showsNoResync_twin (g := Twin.releaseAt) fun _ _ _ => rfl).dropClaim List.not_mem_nil s).trans
    (congrArg Twin.releaseAt (twin_claimDropped s))

theorem handover_dropClaim (s : State) : (dropClaim s).twin.handover = .none :=
  ((showsNoResync_twin (g := Twin.handover) fun _ _ _ => rfl).dropClaim List.not_mem_nil s).trans
    (congrArg Twin.handover (twin_claimDropped s))

theorem handoverBit_dropClaim (s : State) : flag (dropClaim s) 0x6048 28 = false := by
  refine ((showsNoResync_word (by decide) (by decide) (by decide) (bitAt · 28)).dropClaim (by decide) s).trans ?_
  refine (flag_setRole (a := 0x6048) (k := 28) _ _ (.inl (by decide)) (.inl (by decide))).trans ?_
  exact flag_setFlag_same _ 0x6048 28 false (by decide)

/-- The release that ends a handover raises HANDOVER_DONE (R282). -/
theorem handoverDone_dropClaim {s : State} (h : s.twin.handover = .releasing) : flag (dropClaim s) 0x6010 7 = true := by
  refine ((showsNoResync_word (by decide) (by decide) (by decide) (bitAt · 7)).dropClaim (by decide) s).trans ?_
  refine (flag_setRole (a := 0x6010) (k := 7) _ _ (.inl (by decide)) (.inr (by decide))).trans ?_
  have raised : flag (handoverDone s) 0x6010 7 = true := by
    rw [handoverDone, if_pos h, flag_raise _ _ _ _ _ (by decide), if_pos ⟨rfl, rfl⟩]
  have driven : rd (driveClaim (handoverDone s) false) 0x6010 = rd (handoverDone s) 0x6010 := rd_setFlag_other _ 28 false (by decide)
  exact (congrArg (bitAt · 7) ((rd_setFlag_other _ 28 false (by decide)).trans driven)).trans raised

/-! ### Samples (R260) -/

/-- A view of neither CLAIM_IN does not show the samples. -/
theorem view_showClaimIn {α : Type} {F : State → α} (h : ∀ s b, F (setFlag s 0x604C 27 b) = F s) (s : State) (l : List Bool) :
    F (showClaimIn s l) = F s := by
  unfold showClaimIn
  split
  · exact h s _
  · rfl

theorem flag_showClaimIn (s : State) (l : List Bool) {k : Nat} (h : k ≠ 27) : flag (showClaimIn s l) 0x604C k = flag s 0x604C k :=
  view_showClaimIn (F := fun u => flag u 0x604C k) (fun u b => (flag_setFlag u 0x604C 27 b 0x604C k (by decide)).trans
    (if_neg fun e => h e.2)) s l

theorem role_showClaimIn (s : State) (l : List Bool) : role (showClaimIn s l) = role s :=
  view_showClaimIn (fun u b => fld_setFlag_other u 0x604C 27 b 0x604C 31 29 (by decide) (.inr (.inr (by decide)))) s l

theorem besideRegs_showClaimIn (s : State) (l : List Bool) : besideRegs (showClaimIn s l) = besideRegs s :=
  view_showClaimIn (fun _ _ => rfl) s l

theorem regsBut_showClaimIn (s : State) (l : List Bool) {as : List Nat} (ha : 0x604C ∈ as) : RegsBut as s (showClaimIn s l) := by
  unfold showClaimIn
  split
  · exact (RegsBut.of_regs_eq as (t := s) rfl).setFlag ha _ _
  · exact RegsBut.of_regs_eq as rfl

/-! ### A claim (R260) -/

/-- The claim line is driven for a claim that is neither confirmed nor in conflict. -/
def claimDriven (s : State) : State :=
  let u := driveClaim s true
  { u with twin := { u.twin with confirmed := false, conflicted := false } }

/-- The device claims. -/
def claimed (s : State) : State := setRole (claimDriven s) 1

theorem role_claimed (s : State) : role (claimed s) = 1 := role_setRole _ (by decide)

theorem claims_claimed (s : State) : claims (claimed s) = true :=
  (flag_setRole _ _ (.inr (by decide)) (.inl (by decide))).trans (flag_setFlag_same s 0x604C 28 true (by decide))

theorem twin_claimed (s : State) : (claimed s).twin = { s.twin with confirmed := false, conflicted := false } := twin_setRole _ _

theorem RegsBut.setRole {as : List Nat} {s t : State} (h : RegsBut as s t) (hs : 0x604C ∈ as) (hi : 0x6010 ∈ as) (r : Nat) :
    RegsBut as s (setRole t r) := by
  unfold Machine.setRole
  split
  · exact h
  · exact (h.wr hs _).raise (p := .twin) hi 0

/-- What the claim of a standby sends: the line low, and the vector of ROLE_CHANGE. -/
theorem out_claimed {s : State} (h : role s = 0) : (claimed s).out = s.out ++ [.pin "TWIN_CLAIM_OUT" 0 false] ++ vectors s .twin 0 := by
  have kept : role (claimDriven s) = 0 :=
    (fld_setFlag_other s 0x604C 28 true 0x604C 31 29 (by decide) (.inr (.inr (by decide)))).trans h
  have vector : vectors (setFld (claimDriven s) 0x604C 31 29 1) .twin 0 = vectors s .twin 0 :=
    vectors_congr ((rd_setFld_other _ 31 29 1 (by decide)).trans (rd_setFlag_other s 28 true (by decide)))
      ((rd_setFld_other _ 31 29 1 (by decide)).trans (rd_setFlag_other s 28 true (by decide))) 0
  rw [claimed, setRole_of_ne fun e => absurd (kept.symm.trans e) (by decide), ← vector]
  rfl

/-! ### A conflict (R261) -/

/-- The mate's claim is shown, counted and raised. -/
def conflictShown (s : State) : State := raise (tally (setFlag (setFlag s 0x604C 27 true) 0x604C 26 true) 0x6120) .twin 8

theorem claimConflict_of_claims {s u : State} (h : claims s = true) (hu : u = stopEgress (conflictShown s)) : claimConflict s =
    if flag s 0x604C 24 then dropClaim u else if s.twin.confirmed then u
    else { u with twin := { u.twin with conflicted := true } } := by
  unfold claimConflict
  rw [if_neg (by simp [h]), hu, conflictShown]

theorem claimConflict_of_released {s : State} (h : claims s = false) : claimConflict s = s := if_pos (by simp [h])

/-- A view that shows neither TWIN_STATUS nor the count and the cause of a conflict. -/
theorem Shows.conflictShown {α : Type} {F : State → α} {as : List Nat} (h : Shows F as) (hs : 0x604C ∉ as) (hc : 0x6120 ∉ as)
    (hi : 0x6010 ∉ as) (s : State) : F (conflictShown s) = F s :=
  (h.raise (p := .twin) hi _ 8).trans ((h.tally hc _).trans ((h.setFlag hs _ 26 true).trans (h.setFlag hs s 27 true)))

theorem twin_conflictShown (s : State) : (conflictShown s).twin = s.twin :=
  showsNoQueue_twin.conflictShown List.not_mem_nil List.not_mem_nil List.not_mem_nil s

theorem status_conflictShown (s : State) :
    rd (conflictShown s) 0x604C = rd (setFlag (setFlag s 0x604C 27 true) 0x604C 26 true) 0x604C :=
  (rd_raise_other _ .twin 8 (by decide)).trans ((shows_rd (a := 0x604C) (by decide) (by decide)).tally (by decide) _)

/-! ### ACTIVE (R268) -/

/-- What the twin holds is shown by no change of a register, a counter or a report. -/
theorem shows_twin : Shows State.twin [] := showsNoQueue_twin.toShows

/-- The complete staged deltas are applied, and nothing is staged any more. -/
def deltasApplied (s : State) : State :=
  let u := applyStaged s.twin.staged.length s
  { u with twin := { u.twin with staged := [], bulk := .none, takeover := false } }

/-- The transition to ACTIVE is counted where it is a takeover, and raised where the copy was not SYNCED (R269). -/
def takeoverCounted (s : State) (takeover : Bool) : State :=
  let u := if takeover then tally s 0x611C else s
  if takeover ∧ !synced u then raise u .twin 9 else u

theorem becomeActive_eq (s : State) : becomeActive s = setRole (setFlag (takeoverCounted (deltasApplied s)
    (applyStaged s.twin.staged.length s).twin.takeover) 0x604C 23 false) 3 := rfl

theorem twin_takeoverCounted (s : State) (takeover : Bool) : (takeoverCounted s takeover).twin = s.twin :=
  (view_ite (F := State.twin) (shows_twin.raise (p := .twin) List.not_mem_nil _ 9) rfl).trans
    (view_ite (F := State.twin) (shows_twin.tally List.not_mem_nil s) rfl)

theorem role_becomeActive (s : State) : role (becomeActive s) = 3 := role_setRole _ (by decide)

theorem staged_becomeActive (s : State) : (becomeActive s).twin.staged = [] := by
  rw [becomeActive_eq, twin_setRole]
  exact congrArg Twin.staged (twin_takeoverCounted (deltasApplied s) _)

theorem discardOpen_of_none {s : State} (h : s.twin.staged = []) : discardOpen s = s := by
  have kept : { s with twin := { s.twin with staged := [] } } = s := by rw [← h]
  simp only [discardOpen, h, List.filter_nil, List.length_nil, if_true, kept]

/-- The claim is recorded as confirmed. -/
def claimConfirmed (s : State) : State :=
  { setFlag s 0x604C 25 true with twin := { s.twin with
    confirmed := true, conflicted := false, confirmedAt := now s, takeover := flag s 0x604C 26 || flag s 0x6044 31 } }

/-- With nothing staged and no final delta applied the device takes over (R268). -/
theorem confirmClaim_of_unstaged {s : State} (hs : s.twin.staged = []) (hf : s.twin.finalApplied = false) :
    confirmClaim s = setRole (claimConfirmed s) 2 := by
  have mate : flag (setFlag s 0x604C 25 true) 0x604C 26 = flag s 0x604C 26 :=
    (flag_setFlag s 0x604C 25 true 0x604C 26 (by decide)).trans (if_neg (by decide))
  have kettle : flag (setFlag s 0x604C 25 true) 0x6044 31 = flag s 0x6044 31 :=
    (flag_setFlag s 0x604C 25 true 0x6044 31 (by decide)).trans (if_neg (by decide))
  have twin : (setRole (claimConfirmed s) 2).twin = (claimConfirmed s).twin := twin_setRole _ _
  have staged : (setRole (claimConfirmed s) 2).twin.staged = [] := (congrArg Twin.staged twin).trans hs
  have final : (setRole (claimConfirmed s) 2).twin.finalApplied = false := (congrArg Twin.finalApplied twin).trans hf
  have steps : confirmClaim s = (let u := discardOpen (setRole (claimConfirmed s) 2)
      let u := applyStaged u.twin.staged.length u
      if u.twin.finalApplied then becomeActive u else u) := by
    unfold confirmClaim
    dsimp only
    rw [mate, kettle]
    rfl
  rw [steps, discardOpen_of_none staged]
  dsimp only
  rw [staged, List.length_nil, applyStaged, final]
  exact if_neg Bool.false_ne_true

end Sys2Proof.Machine
end

section
/-! Claims (R260, R261, R265): arming, disarming, the samples of a claim and the return of front egress. -/

namespace Sys2Proof.Machine

/-! ### Arming (R260, R265) -/

theorem guarded_twin {s : State} {src : Source} {a : Nat} (h : Admitted s src a) (hp : pageAt a = some .twin) (act : State → State) :
    guarded s src a act = act (dropHeld s src a) :=
  (guarded_of_admitted h act).trans (congrArg act (atRegister_twin s src hp))

/-- The state that a write of ARM leaves. -/
def armWritten (s : State) (src : Source) (on : Bool) : State := setFlag (dropHeld s src 0x6048) 0x6048 31 on

theorem armed_armWritten (s : State) (src : Source) (on : Bool) : armed (armWritten s src on) = on :=
  flag_setFlag_same _ 0x6048 31 on (by decide)

theorem role_armWritten (s : State) (src : Source) (on : Bool) : role (armWritten s src on) = role s :=
  fld_setFlag_other (dropHeld s src 0x6048) 0x6048 31 on 0x604C 31 29 (by decide) (.inl (by decide))

theorem regsBut_armWritten (s : State) (src : Source) (on : Bool) : RegsBut [0x6048] s (armWritten s src on) :=
  (RegsBut.of_regs_eq _ (t := dropHeld s src 0x6048) rfl).setFlag (by simp) 31 on

theorem exec_twinArm {s : State} {src : Source} (h : Admitted s src 0x6048) : exec (.twinArm src) s = .next (armWritten s src true) :=
  congrArg done (guarded_twin h rfl _)

theorem exec_twinDisarm {s : State} {src : Source} (h : Admitted s src 0x6048) : exec (.twinDisarm src) s =
    .next (if role s = 1 then dropClaim (armWritten s src false) else armWritten s src false) := by
  rw [← role_armWritten s src false]
  exact congrArg done (guarded_twin h rfl _)

/-! ### Samples of a claim (R260, R261) -/

/-- The state but for its registers, the twin and what was sent. -/
def besideTwin (s : State) : State := { s with regs := [], twin := {}, out := [] }

theorem eq_of_besideTwin {s t : State} (h : besideTwin t = besideTwin s) : t = { s with regs := t.regs, out := t.out, twin := t.twin } :=
  congrArg (fun u : State => { u with regs := t.regs, out := t.out, twin := t.twin }) h

theorem exec_claimAssert_of_free {s : State} {l : List Bool} (hl : l.length = 50) (hr : s.startup.railsUp = true) (ha : armed s = true)
    (h0 : role s = 0) (hc : claims s = false) (hs : l.any id = false) :
    exec (.claimAssert l) s = .next (claimed (showClaimIn s l)) :=
  (sized_of hl _).trans (congrArg done (if_pos ⟨hr, ha, h0, by simp [hc], by simp [hs]⟩))

theorem exec_claimAssert_of_bound {s : State} {l : List Bool} (hl : l.length = 50)
    (h : s.startup.railsUp = false ∨ armed s = false ∨ role s ≠ 0 ∨ claims s = true ∨ l.any id = true) :
    exec (.claimAssert l) s = .next (showClaimIn s l) := by
  refine (sized_of hl _).trans (congrArg done (if_neg fun ⟨hr, ha, h0, hc, hs⟩ => ?_))
  simp_all

theorem regsBut_claimed (s : State) (l : List Bool) : RegsBut [0x604C, 0x6010] s (claimed (showClaimIn s l)) := by
  have driven : RegsBut [0x604C, 0x6010] s (claimDriven (showClaimIn s l)) :=
    (RegsBut.of_regs_eq _ rfl).trans ((regsBut_showClaimIn s l (by decide)).setFlag (by decide) 28 true)
  exact driven.setRole (by decide) (by decide) 1

/-- What the claim of a standby sends: the line low, and the vector of ROLE_CHANGE. -/
theorem claimed_showClaimIn {s : State} (h : role s = 0) (l : List Bool) : claimed (showClaimIn s l) = { s with
    regs := (claimed (showClaimIn s l)).regs, out := s.out ++ [.pin "TWIN_CLAIM_OUT" 0 false] ++ vectors s .twin 0,
    twin := (claimed (showClaimIn s l)).twin } := by
  have shown := regsBut_showClaimIn s l (as := [0x604C]) (by decide)
  have vector : vectors (showClaimIn s l) .twin 0 = vectors s .twin 0 := vectors_congr (shown _ (by decide)) (shown _ (by decide)) 0
  have sent : (claimed (showClaimIn s l)).out = s.out ++ [.pin "TWIN_CLAIM_OUT" 0 false] ++ vectors s .twin 0 := by
    rw [out_claimed ((role_showClaimIn s l).trans h), vector, view_showClaimIn (F := State.out) (fun _ _ => rfl) s l]
  have beside : besideTwin (claimed (showClaimIn s l)) = besideTwin s :=
    (view_setRole (F := besideTwin) (fun _ _ => rfl) (fun _ => rfl) (claimDriven (showClaimIn s l)) 1).trans
      (view_showClaimIn (F := besideTwin) (fun _ _ => rfl) s l)
  rw [← sent]
  exact eq_of_besideTwin beside

/-- What the samples of the check and the mate's presence show. -/
def checked (s : State) (l : List Bool) (mate : Bool) : State := setFlag (showClaimIn s l) 0x604C 26 mate

/-- The check meets a claim that is not being released. -/
theorem claim_open {s : State} (h1 : role s = 1) (hc : claims s = true) (hn : s.twin.releaseAt = none) :
    ¬(role s ≠ 1 ∨ !claims s ∨ s.twin.releaseAt.isSome) := by simp [h1, hc, hn]

theorem exec_claimConfirm_of_released {s : State} {l : List Bool} (hl : l.length = 25) (h1 : role s = 1) (hc : claims s = true)
    (hn : s.twin.releaseAt = none) (hf : s.twin.conflicted = false) (hs : l.any id = false) (mate : Bool) :
    exec (.claimConfirm l mate) s = .next (confirmClaim (checked s l mate)) :=
  (sized_of hl _).trans (congrArg done ((if_neg (claim_open h1 hc hn)).trans ((if_neg (by simp [hs])).trans (if_neg (by simp [hf])))))

theorem exec_claimConfirm_of_active {s : State} {l : List Bool} (hl : l.length = 25) (h1 : role s = 1) (hc : claims s = true)
    (hn : s.twin.releaseAt = none) (hs : l.any id = true) (mate : Bool) :
    exec (.claimConfirm l mate) s = .next (claimConflict (checked s l mate)) :=
  (sized_of hl _).trans (congrArg done ((if_neg (claim_open h1 hc hn)).trans (if_pos hs)))

theorem flag_checked_mate (s : State) (l : List Bool) (mate : Bool) : flag (checked s l mate) 0x604C 26 = mate :=
  flag_setFlag_same _ 0x604C 26 mate (by decide)

theorem regsBut_checked (s : State) (l : List Bool) (mate : Bool) {as : List Nat} (ha : 0x604C ∈ as) : RegsBut as s (checked s l mate) :=
  (regsBut_showClaimIn s l ha).setFlag ha 26 mate

theorem twin_checked (s : State) (l : List Bool) (mate : Bool) : (checked s l mate).twin = s.twin :=
  view_showClaimIn (F := State.twin) (fun _ _ => rfl) s l

theorem now_checked (s : State) (l : List Bool) (mate : Bool) : now (checked s l mate) = now s :=
  view_showClaimIn (F := now) (fun _ _ => rfl) s l

/-- Kettle's ENABLE is beside the samples. -/
theorem kettleOn_checked (s : State) (l : List Bool) (mate : Bool) : flag (checked s l mate) 0x6044 31 = flag s 0x6044 31 :=
  congrArg (bitAt · 31) (regsBut_checked s l mate (as := [0x604C]) (by decide) 0x6044 (by decide))

/-- The twin after a confirmation (R268). -/
theorem twin_claimConfirmed_checked (s : State) (l : List Bool) (mate : Bool) : (claimConfirmed (checked s l mate)).twin = { s.twin with
    confirmed := true, conflicted := false, confirmedAt := now s, takeover := mate || flag s 0x6044 31 } := by
  unfold claimConfirmed
  rw [flag_checked_mate, kettleOn_checked, twin_checked, now_checked]

/-- A claim that is confirmed with nothing staged. -/
def takenOver (s : State) (l : List Bool) (mate : Bool) : State := setRole (claimConfirmed (checked s l mate)) 2

theorem confirmClaim_checked {s : State} (hs : s.twin.staged = []) (hf : s.twin.finalApplied = false) (l : List Bool) (mate : Bool) :
    confirmClaim (checked s l mate) = takenOver s l mate :=
  confirmClaim_of_unstaged ((congrArg Twin.staged (twin_checked s l mate)).trans hs)
    ((congrArg Twin.finalApplied (twin_checked s l mate)).trans hf)

theorem role_takenOver (s : State) (l : List Bool) (mate : Bool) : role (takenOver s l mate) = 2 := role_setRole _ (by decide)

theorem regs_claimConfirmed (s : State) : (claimConfirmed s).regs = (setFlag s 0x604C 25 true).regs := rfl

theorem flag_claimConfirmed (s : State) (a k : Nat) : flag (claimConfirmed s) a k = flag (setFlag s 0x604C 25 true) a k :=
  flag_of_regs_eq (regs_claimConfirmed s) a k

theorem egress_takenOver (s : State) (l : List Bool) (mate : Bool) : flag (takenOver s l mate) 0x604C 25 = true :=
  (flag_setRole _ _ (.inr (by decide)) (.inl (by decide))).trans
    ((flag_claimConfirmed _ _ _).trans (flag_setFlag_same _ 0x604C 25 true (by decide)))

theorem mate_takenOver (s : State) (l : List Bool) (mate : Bool) : flag (takenOver s l mate) 0x604C 26 = mate :=
  (flag_setRole _ _ (.inr (by decide)) (.inl (by decide))).trans
    ((flag_claimConfirmed _ _ _).trans ((flag_setFlag _ 0x604C 25 true 0x604C 26 (by decide)).trans
      ((if_neg (by decide)).trans (flag_checked_mate s l mate))))

theorem twin_takenOver (s : State) (l : List Bool) (mate : Bool) : (takenOver s l mate).twin = { s.twin with
    confirmed := true, conflicted := false, confirmedAt := now s, takeover := mate || flag s 0x6044 31 } :=
  (twin_setRole _ _).trans (twin_claimConfirmed_checked s l mate)

theorem regsBut_takenOver (s : State) (l : List Bool) (mate : Bool) : RegsBut [0x604C, 0x6010] s (takenOver s l mate) := by
  have confirmed : RegsBut [0x604C, 0x6010] s (claimConfirmed (checked s l mate)) :=
    (RegsBut.of_regs_eq _ (regs_claimConfirmed _)).trans ((regsBut_checked s l mate (by decide)).setFlag (by decide) 25 true)
  exact confirmed.setRole (by decide) (by decide) 2

theorem besideTwin_takenOver (s : State) (l : List Bool) (mate : Bool) : besideTwin (takenOver s l mate) = besideTwin s :=
  (view_setRole (F := besideTwin) (fun _ _ => rfl) (fun _ => rfl) (claimConfirmed (checked s l mate)) 2).trans
    (view_showClaimIn (F := besideTwin) (fun _ _ => rfl) s l)

/-! ### Front egress returns (R261) -/

theorem egress_open {s : State} (hc : claims s = true) (hn : s.twin.releaseAt = none) : ¬(!claims s ∨ s.twin.releaseAt.isSome) := by
  simp [hc, hn]

theorem exec_egressAllowed_of_released {s : State} {l : List Bool} (hl : l.length = 50) (hc : claims s = true)
    (hn : s.twin.releaseAt = none) (hf : s.twin.conflicted = false) (hy : s.twin.confirmed = true) (hs : l.any id = false) :
    exec (.egressAllowed l) s = .next (fcFlushAll (setFlag (showClaimIn s l) 0x604C 25 true)) :=
  (sized_of hl _).trans (congrArg done ((if_neg (egress_open hc hn)).trans ((if_neg (by simp [hs])).trans
    ((if_neg (by simp [hf])).trans (if_pos hy)))))

theorem exec_egressAllowed_of_silent {s : State} {l : List Bool} (hl : l.length = 50) (hc : claims s = false) :
    exec (.egressAllowed l) s = .next (showClaimIn s l) :=
  (sized_of hl _).trans (congrArg done (if_pos (.inl (by simp [hc]))))

theorem ShowsNoPort.fcFlushAll {α : Type} {F : State → α} {as : List Nat} (h : ShowsNoPort F as) (s : State) : F (fcFlushAll s) = F s :=
  view_foldl (fun u p => h.fcFlush u p) _ s

/-- A port that is not up sends no flow-control frame. -/
theorem fcFlushAll_of_down {s : State} (h : ∀ p, p < 64 → portUp s p = false) : fcFlushAll s = s :=
  foldl_of_fixed fun p hp => if_pos (.inl (by simp [h p (List.mem_range.mp hp)]))

theorem portUp_egress (s : State) (l : List Bool) (p : Nat) : portUp (setFlag (showClaimIn s l) 0x604C 25 true) p = portUp s p := by
  have word : rd (setFlag (showClaimIn s l) 0x604C 25 true) (0x20004C + p * 0x4000) = rd s (0x20004C + p * 0x4000) :=
    ((regsBut_showClaimIn s l (as := [0x604C]) (by simp)).setFlag (by simp) 25 true) _ (by simp; omega)
  simp only [portUp, portState, fld, word]

/-- Front egress is allowed again, and every front port that is up announces its flow control. -/
def egressReturned (s : State) (l : List Bool) : State := setFlag (showClaimIn s l) 0x604C 25 true

theorem stored_egressReturned (s : State) (l : List Bool) : stored (fcFlushAll (egressReturned s l)) = stored s :=
  (showsNoPort_stored.fcFlushAll _).trans (view_showClaimIn (F := stored) (fun _ _ => rfl) s l)

theorem twin_egressReturned (s : State) (l : List Bool) : (fcFlushAll (egressReturned s l)).twin = s.twin :=
  (showsNoPort_twin.fcFlushAll _).trans (view_showClaimIn (F := State.twin) (fun _ _ => rfl) s l)

theorem regsBut_egressReturned (s : State) (l : List Bool) : RegsBut [0x604C] s (egressReturned s l) :=
  (regsBut_showClaimIn s l (by decide)).setFlag (by decide) 25 true

theorem fcFlushAll_egressReturned {s : State} (h : ∀ p, p < 64 → portUp s p = false) (l : List Bool) :
    fcFlushAll (egressReturned s l) = egressReturned s l := fcFlushAll_of_down fun p hp => (portUp_egress s l p).trans (h p hp)

theorem besideRegs_egressReturned (s : State) (l : List Bool) : besideRegs (egressReturned s l) = besideRegs s := besideRegs_showClaimIn s l

/-- Settles O27: each command is the update of its state, read back. -/
theorem armedDevicesClaimOnReleasedSamples : Obligations.ArmedDevicesClaimOnReleasedSamples := by
  refine ⟨fun s src h => ?_, fun s src h h1 => ?_, fun s src h h1 => ?_, fun s l hl hr ha h0 hc hs => ?_, fun s l hl h => ?_,
    fun s l mate hl h1 hc hn hf hs => ?_, fun s l mate hl h1 hc hn hs => ?_, fun s l hl hc hn hf hy hs => ?_, fun s l hl hc => ?_⟩
  · exact ⟨_, exec_twinArm h, armed_armWritten s src true, regsBut_armWritten s src true, rfl⟩
  · exact ⟨_, (exec_twinDisarm h).trans (congrArg done (if_neg h1)), armed_armWritten s src false, regsBut_armWritten s src false, rfl⟩
  · have hexec := (exec_twinDisarm h).trans (congrArg done (if_pos h1))
    exact ⟨_, hexec, settled_execTwinDisarm src s _ hexec, (armed_dropClaim _).trans (armed_armWritten s src false), claims_dropClaim _,
      role_dropClaim _⟩
  · exact ⟨_, exec_claimAssert_of_free hl hr ha h0 hc hs, claims_claimed _, role_claimed _, congrArg Twin.confirmed (twin_claimed _),
      regsBut_claimed s l, claimed_showClaimIn h0 l⟩
  · exact ⟨_, exec_claimAssert_of_bound hl h, flag_showClaimIn s l (by decide), role_showClaimIn s l, regsBut_showClaimIn s l (by decide),
      eq_of_besideRegs (besideRegs_showClaimIn s l)⟩
  · have hexec := exec_claimConfirm_of_released hl h1 hc hn hf hs mate
    refine ⟨_, hexec, settled_execClaimConfirm l mate s _ hexec, rfl, fun hst hfin => ?_⟩
    rw [confirmClaim_checked hst hfin]
    exact ⟨role_takenOver s l mate, egress_takenOver s l mate, mate_takenOver s l mate, twin_takenOver s l mate, regsBut_takenOver s l mate,
      eq_of_besideTwin (besideTwin_takenOver s l mate)⟩
  · have hexec := exec_claimConfirm_of_active hl h1 hc hn hs mate
    exact ⟨_, hexec, settled_execClaimConfirm l mate s _ hexec, rfl⟩
  · have hexec := exec_egressAllowed_of_released hl hc hn hf hy hs
    obtain ⟨hframes, hqueues⟩ := stored_iff.mp (stored_egressReturned s l)
    refine ⟨_, hexec, settled_execEgressAllowed l s _ hexec, rfl, hqueues, hframes, twin_egressReturned s l, fun hdown => ?_⟩
    rw [show fcFlushAll (setFlag (showClaimIn s l) 0x604C 25 true) = _ from fcFlushAll_egressReturned hdown l]
    exact ⟨flag_setFlag_same _ 0x604C 25 true (by decide), regsBut_egressReturned s l, eq_of_besideRegs (besideRegs_egressReturned s l)⟩
  · exact ⟨_, exec_egressAllowed_of_silent hl hc, flag_showClaimIn s l (by decide), regsBut_showClaimIn s l (by decide),
      eq_of_besideRegs (besideRegs_showClaimIn s l)⟩

end Sys2Proof.Machine
end

section
/-! Conflicts, release and takeover (R261, R264, R268). -/

namespace Sys2Proof.Machine

/-! ### A release begins (R264) -/

/-- ARM is cleared. -/
def armCleared (s : State) : State := setFlag s 0x6048 31 false

theorem claims_armCleared (s : State) : claims (armCleared s) = claims s :=
  congrArg (bitAt · 28) (rd_setFlag_other s 31 false (by decide))

/-- The claim line is to be released 200 ns after `n`. -/
def releaseTimed (s : State) (n : Nat) : State := { s with twin := { s.twin with releaseAt := some (n + 200) } }

theorem regs_releaseTimed (s : State) (n : Nat) : (releaseTimed s n).regs = s.regs := rfl

theorem handover_releaseTimed (s : State) (n : Nat) : (releaseTimed s n).twin.handover = s.twin.handover := rfl

theorem releaseAt_releaseTimed (s : State) (n : Nat) : (releaseTimed s n).twin.releaseAt = some (n + 200) := rfl

/-- A release cause clears ARM; a device that claims stops front egress, and times the release once. -/
theorem startRelease_eq (s : State) : startRelease s =
    if !claims (armCleared s) then armCleared s
    else if (armCleared s).twin.releaseAt.isSome then stopEgress (armCleared s)
    else releaseTimed (stopEgress (armCleared s)) (now (armCleared s)) := by
  unfold startRelease
  dsimp only
  rw [← armCleared]
  generalize stopEgress (armCleared s) = u
  rfl

theorem startRelease_of_claims {s : State} (hc : claims s = true) (hn : s.twin.releaseAt = none) :
    startRelease s = releaseTimed (stopEgress (armCleared s)) (now s) := by
  have kept : (armCleared s).twin.releaseAt = none := hn
  rw [startRelease_eq, claims_armCleared, hc, kept]
  rfl

theorem startRelease_of_released {s : State} (hc : claims s = false) : startRelease s = armCleared s := by
  rw [startRelease_eq, claims_armCleared, hc]
  rfl

/-- What a release shows while no front port transmits: ARM clears, and front egress ends for a device that claims. -/
def releaseShown (s : State) : State := if claims s then setFlag (armCleared s) 0x604C 25 false else armCleared s

theorem regs_startRelease {s : State} (h : FrontsIdle s) : (startRelease s).regs = (releaseShown s).regs := by
  have stopped : stopEgress (armCleared s) = setFlag (armCleared s) 0x604C 25 false := stopEgress_of_idle h
  rw [startRelease_eq, releaseShown, claims_armCleared, stopped]
  cases claims s
  · rfl
  · exact view_ite (F := State.regs) (s := setFlag (armCleared s) 0x604C 25 false) (c := (armCleared s).twin.releaseAt.isSome = true) rfl rfl

theorem armed_releaseShown (s : State) : armed (releaseShown s) = false :=
  (view_ite (F := armed) (s := armCleared s) (congrArg (bitAt · 31) (rd_setFlag_other (armCleared s) 25 false (by decide))) rfl).trans
    (flag_setFlag_same s 0x6048 31 false (by decide))

/-- The fields of TWIN_STATUS beside EGRESS_ALLOWED stay as they are. -/
theorem status_releaseShown (s : State) {hi lo : Nat} (h : hi < 25 ∨ 25 < lo) : fld (releaseShown s) 0x604C hi lo = fld s 0x604C hi lo :=
  view_ite (F := fun u => fld u 0x604C hi lo)
    ((fld_setFlag_other (armCleared s) 0x604C 25 false 0x604C hi lo (by decide) (.inr h)).trans
      (fld_setFlag_other s 0x6048 31 false 0x604C hi lo (by decide) (.inl (by decide))))
    (fld_setFlag_other s 0x6048 31 false 0x604C hi lo (by decide) (.inl (by decide)))

theorem claims_releaseShown (s : State) : claims (releaseShown s) = claims s :=
  view_ite (F := claims) ((flag_setFlag (armCleared s) 0x604C 25 false 0x604C 28 (by decide)).trans
    ((if_neg (by decide)).trans (claims_armCleared s))) (claims_armCleared s)

theorem egress_releaseShown {s : State} (h : claims s = true) : flag (releaseShown s) 0x604C 25 = false := by
  rw [releaseShown, if_pos h]
  exact flag_setFlag_same _ 0x604C 25 false (by decide)

theorem regsBut_releaseShown (s : State) : RegsBut [0x6048, 0x604C] s (releaseShown s) := by
  have cleared : RegsBut [0x6048, 0x604C] s (armCleared s) := (RegsBut.of_regs_eq _ (t := s) rfl).setFlag (by decide) 31 false
  unfold releaseShown
  split
  · exact cleared.setFlag (by decide) 25 false
  · exact cleared

theorem exec_twinRelease {s : State} {src : Source} (h : Admitted s src 0x6048) :
    exec (.twinRelease src) s = .next (startRelease (dropHeld s src 0x6048)) := congrArg done (guarded_twin h rfl _)

theorem exec_claimRelease_of_due {s : State} {r : Nat} (hr : s.twin.releaseAt = some r) (h : r ≤ now s) :
    exec .claimRelease s = .next (dropClaim s) := by
  show execClaimRelease s = _
  unfold execClaimRelease
  rw [hr]
  exact congrArg done (if_pos h)

theorem exec_claimRelease_of_none {s : State} (h : s.twin.releaseAt = none) : exec .claimRelease s = .next s := by
  show execClaimRelease s = _
  unfold execClaimRelease
  rw [h]
  rfl

/-! ### Takeover (R268) -/

theorem exec_takeoverActive_of_due {s : State} (h2 : role s = 2)
    (h : s.twin.finalApplied = true ∨ s.twin.confirmedAt + 10000 ≤ s.clock.cycleStart) :
    exec .takeoverActive s = .next (becomeActive s) := by
  have due : takeoverDue s = true := by
    unfold takeoverDue
    rw [h2]
    rcases h with h | h
    · simp [h]
    · simp [decide_eq_true h]
  exact congrArg done (if_pos due)

theorem exec_takeoverActive_of_early {s : State} (hf : s.twin.finalApplied = false)
    (h : s.clock.cycleStart < s.twin.confirmedAt + 10000) : exec .takeoverActive s = .next s := by
  have early : takeoverDue s = false := by
    unfold takeoverDue
    rw [hf, decide_eq_false (Nat.not_le.mpr h)]
    exact Bool.and_false _
  exact congrArg done (if_neg (by rw [early]; exact Bool.false_ne_true))

/-! ### A conflict of a confirmed claim (R261) -/

/-- A conflict of a claim with no transmission under way ends front egress. -/
def conflictMet (s : State) : State := setFlag (conflictShown s) 0x604C 25 false

theorem stopEgress_conflictShown {s : State} (h : FrontsIdle s) : stopEgress (conflictShown s) = conflictMet s := by
  have ports : (conflictShown s).ports = s.ports :=
    (shows_of_rfl (F := State.ports) fun _ _ _ _ _ => rfl).conflictShown List.not_mem_nil List.not_mem_nil List.not_mem_nil s
  exact stopEgress_of_idle (h.of_ports ports)

theorem flag_conflictMet (s : State) {k : Nat} (h : k ≠ 25) :
    flag (conflictMet s) 0x604C k = flag (setFlag (setFlag s 0x604C 27 true) 0x604C 26 true) 0x604C k :=
  (flag_setFlag (conflictShown s) 0x604C 25 false 0x604C k (by decide)).trans
    ((if_neg fun e => h e.2).trans (congrArg (bitAt · k) (status_conflictShown s)))

theorem mate_conflictMet (s : State) : flag (conflictMet s) 0x604C 26 = true :=
  (flag_conflictMet s (by decide)).trans (flag_setFlag_same _ 0x604C 26 true (by decide))

theorem claimIn_conflictMet (s : State) : flag (conflictMet s) 0x604C 27 = true :=
  (flag_conflictMet s (by decide)).trans ((flag_setFlag _ 0x604C 26 true 0x604C 27 (by decide)).trans
    ((if_neg (by decide)).trans (flag_setFlag_same s 0x604C 27 true (by decide))))

theorem claims_conflictMet (s : State) : claims (conflictMet s) = claims s :=
  (flag_conflictMet s (by decide)).trans ((flag_setFlag _ 0x604C 26 true 0x604C 28 (by decide)).trans
    ((if_neg (by decide)).trans ((flag_setFlag s 0x604C 27 true 0x604C 28 (by decide)).trans (if_neg (by decide)))))

theorem role_conflictMet (s : State) : role (conflictMet s) = role s :=
  (fld_setFlag_other (conflictShown s) 0x604C 25 false 0x604C 31 29 (by decide) (.inr (.inr (by decide)))).trans
    ((congrArg (bits · 31 29) (status_conflictShown s)).trans
      ((fld_setFlag_other _ 0x604C 26 true 0x604C 31 29 (by decide) (.inr (.inr (by decide)))).trans
        (fld_setFlag_other s 0x604C 27 true 0x604C 31 29 (by decide) (.inr (.inr (by decide))))))

theorem raised_conflictMet (s : State) : flag (conflictMet s) 0x6010 8 = true :=
  (flag_setFlag (conflictShown s) 0x604C 25 false 0x6010 8 (by decide)).trans ((if_neg (by decide)).trans
    ((flag_raise _ .twin 8 0x6010 8 (by decide)).trans (if_pos ⟨rfl, rfl⟩)))

theorem stored_conflictMet (s : State) : stored (conflictMet s) = stored s :=
  (shows_stored.setFlag List.not_mem_nil _ 25 false).trans
    (shows_stored.conflictShown List.not_mem_nil List.not_mem_nil List.not_mem_nil s)

theorem exec_claimConflict {s u : State} (h : claims s = true) (hu : u = stopEgress (conflictShown s)) : exec .claimConflict s = .next
    (if flag s 0x604C 24 then dropClaim u else if s.twin.confirmed then u else { u with twin := { u.twin with conflicted := true } }) :=
  congrArg done (claimConflict_of_claims h hu)

/-- What a register shows of a release is read off the words it leaves. -/
theorem releasing_of_regs {s t : State} {src : Source} (h : t.regs = (releaseShown (dropHeld s src 0x6048)).regs) (hc : claims s = true) :
    armed t = false ∧ flag t 0x604C 25 = false ∧ claims t = true ∧ role t = role s ∧ RegsBut [0x6048, 0x604C] s t :=
  ⟨(flag_of_regs_eq h _ _).trans (armed_releaseShown _), (flag_of_regs_eq h _ _).trans (egress_releaseShown hc),
    (flag_of_regs_eq h _ _).trans ((claims_releaseShown _).trans hc),
    (fld_of_regs_eq h _ _ _).trans (status_releaseShown _ (.inr (by decide))),
    (RegsBut.of_regs_eq _ h).trans (regsBut_releaseShown (dropHeld s src 0x6048))⟩

/-- Settles O28: the seat and the confirmation decide a conflict, a release is timed from the end of egress, and a takeover waits its time. -/
theorem claimsAreContestedReleasedAndTakenOver : Obligations.ClaimsAreContestedReleasedAndTakenOver := by
  refine ⟨fun s u hc hu => ⟨fun hb => ?_, fun ha hy => ?_, fun ha hn => ?_⟩, fun s hc ha hy hidle => ?_, fun s hc => ?_,
    fun s u src h hc hn hu => ?_, fun s src h hc => ?_, fun s r hr hd => ?_, fun s h => exec_claimRelease_of_none h,
    fun s h2 h => ?_, fun s _ hf h => exec_takeoverActive_of_early hf h⟩
  · have hexec := (exec_claimConflict hc hu).trans (congrArg done (if_pos hb))
    exact ⟨_, hexec, settled_execClaimConflict s _ hexec, rfl, claims_dropClaim u, role_dropClaim u, confirmed_dropClaim u⟩
  · have hexec := (exec_claimConflict hc hu).trans (congrArg done ((if_neg (by simp [ha])).trans (if_pos hy)))
    have twin : u.twin = s.twin := hu ▸ (twin_stopEgress _).trans (twin_conflictShown s)
    exact ⟨_, hexec, settled_execClaimConflict s _ hexec, rfl, twin⟩
  · have hexec := (exec_claimConflict hc hu).trans (congrArg done ((if_neg (by simp [ha])).trans (if_neg (by simp [hn]))))
    have twin : u.twin = s.twin := hu ▸ (twin_stopEgress _).trans (twin_conflictShown s)
    exact ⟨_, hexec, settled_execClaimConflict s _ hexec, rfl, congrArg (fun x : Twin => { x with conflicted := true }) twin⟩
  · have hexec := (exec_claimConflict hc (stopEgress_conflictShown hidle).symm).trans
      (congrArg done ((if_neg (by simp [ha])).trans (if_pos hy)))
    obtain ⟨hframes, hqueues⟩ := stored_iff.mp (stored_conflictMet s)
    exact ⟨_, hexec, flag_setFlag_same _ 0x604C 25 false (by decide), mate_conflictMet s, claimIn_conflictMet s,
      (claims_conflictMet s).trans hc, role_conflictMet s, raised_conflictMet s, hqueues, hframes⟩
  · exact congrArg done (claimConflict_of_released hc)
  · rw [atRegister_twin s src rfl] at hu
    have hexec := (exec_twinRelease h).trans (congrArg done (startRelease_of_claims hc hn))
    rw [← armCleared] at hu
    rw [← hu] at hexec
    have twin : u.twin = s.twin := hu ▸ twin_stopEgress _
    refine ⟨_, hexec, settled_execTwinRelease src s _ hexec, rfl,
      congrArg (fun x : Twin => { x with releaseAt := some (now s + 200) }) twin, fun hidle => ?_⟩
    have regs : (releaseTimed u (now s)).regs = (releaseShown (dropHeld s src 0x6048)).regs := by
      rw [← regs_startRelease (s := dropHeld s src 0x6048) hidle, startRelease_of_claims (s := dropHeld s src 0x6048) hc hn]
      rw [regs_releaseTimed, regs_releaseTimed, hu]
    exact releasing_of_regs regs hc
  · have hc' : claims (dropHeld s src 0x6048) = false := hc
    have hexec := (exec_twinRelease h).trans (congrArg done (startRelease_of_released hc'))
    exact ⟨_, hexec, armed_armWritten s src false, regsBut_armWritten s src false, rfl⟩
  · have hexec := exec_claimRelease_of_due hr hd
    exact ⟨_, hexec, settled_execClaimRelease s _ hexec, claims_dropClaim s, role_dropClaim s, releaseAt_dropClaim s, confirmed_dropClaim s⟩
  · have hexec := exec_takeoverActive_of_due h2 h
    exact ⟨_, hexec, settled_execTakeoverActive s _ hexec, role_becomeActive s, staged_becomeActive s⟩

end Sys2Proof.Machine
end

section
/-! The graceful handover (R264, R282). -/

namespace Sys2Proof.Machine

/-! ### The request -/

theorem exec_handover {s : State} {src : Source} (h : Admitted s src 0x6048) :
    exec (.handover src) s = .next (handoverStart (dropHeld s src 0x6048)) := congrArg done (guarded_twin h rfl _)

/-- A request that is refused with its cause in LAST_HANDOVER (R282). -/
def handoverDenied (s : State) (cause : Nat) : State := raise (setFld s 0x604C 22 20 cause) .twin 7

theorem handoverStart_of_refused {s : State} {c : Nat} (h : handoverRefused s = c) (hc : c ≠ 0) : handoverStart s = handoverDenied s c := by
  unfold handoverStart
  rw [h]
  split
  · exact absurd rfl hc
  · rfl

theorem twin_handoverDenied (s : State) (c : Nat) : (handoverDenied s c).twin = s.twin :=
  (shows_twin.raise (p := .twin) List.not_mem_nil _ 7).trans (shows_twin.setFld List.not_mem_nil s 22 20 c)

theorem cause_handoverDenied (s : State) {c : Nat} (h : c < 8) : fld (handoverDenied s c) 0x604C 22 20 = c :=
  (fld_raise_other _ .twin 7 22 20 (by decide)).trans
    ((fld_setFld_same s 0x604C 22 20 c (by decide) (by decide)).trans (Nat.mod_eq_of_lt h))

theorem raised_handoverDenied (s : State) (c : Nat) : flag (handoverDenied s c) 0x6010 7 = true :=
  (flag_raise _ .twin 7 0x6010 7 (by decide)).trans (if_pos ⟨rfl, rfl⟩)

theorem regsBut_handoverDenied (s : State) (c : Nat) : RegsBut [0x604C, 0x6010] s (handoverDenied s c) :=
  ((RegsBut.of_regs_eq _ (t := s) rfl).wr (by decide) _).raise (p := .twin) (by decide) 7

/-- A refused request changes nothing but LAST_HANDOVER and its interrupt. -/
theorem exec_handover_of_refused {s : State} {src : Source} {c : Nat} (h : Admitted s src 0x6048) (hr : handoverRefused s = c) (hc : c ≠ 0)
    (h8 : c < 8) : ∃ t, exec (.handover src) s = .next t ∧ t.twin = s.twin ∧ fld t 0x604C 22 20 = c ∧ flag t 0x6010 7 = true ∧
      RegsBut [0x604C, 0x6010] s t := by
  have refused : handoverRefused (dropHeld s src 0x6048) = c := hr
  refine ⟨_, (exec_handover h).trans (congrArg done (handoverStart_of_refused refused hc)), twin_handoverDenied _ _,
    cause_handoverDenied _ h8, raised_handoverDenied _ _, ?_⟩
  exact (regsBut_handoverDenied (dropHeld s src 0x6048) c).trans (RegsBut.of_regs_eq _ rfl)

theorem handoverRefused_of_healthy {s : State} (h3 : role s = 3) (hk : kettleUp s = true) (ha : s.twin.mateArm = true)
    (hs : s.twin.mateSynced = true) (hf : s.twin.mateFailed = false) : handoverRefused s = 0 := by
  simp [handoverRefused, h3, hk, ha, hs, hf]

theorem handoverRefused_of_role {s : State} (h : role s ≠ 3) : handoverRefused s = 2 := if_pos h

theorem handoverRefused_of_down {s : State} (h3 : role s = 3) (hk : kettleUp s = false) : handoverRefused s = 3 :=
  (if_neg (not_not_intro h3)).trans (if_pos (by rw [hk]; rfl))

/-! ### The drain ends -/

theorem handoverDrainEnd_of_due {s : State} {b : Nat} (hd : s.twin.handover = .draining b) (h : b + drainNs s ≤ now s) :
    (handoverDrainEnd s).twin.handover = .final b := by
  unfold handoverDrainEnd
  rw [hd]
  dsimp only
  rw [if_neg fun e => absurd e.1 (Nat.not_lt.mpr h)]

theorem handoverDrainEnd_of_busy {s : State} {b : Nat} (hd : s.twin.handover = .draining b) (h : now s < b + drainNs s)
    (hb : busyQueues s ≠ []) : handoverDrainEnd s = s := by
  unfold handoverDrainEnd
  rw [hd]
  exact if_pos ⟨h, hb⟩

/-! ### The release -/

/-- Step 6 begins: LAST_HANDOVER says whether every END was acknowledged. -/
def handoverEnded (s : State) : State :=
  { setFld s 0x604C 22 20 (if endsAcked s then 1 else 6) with twin := { s.twin with handover := .releasing } }

theorem regs_handoverEnded (s : State) : (handoverEnded s).regs = (setFld s 0x604C 22 20 (if endsAcked s then 1 else 6)).regs := rfl

theorem handoverRelease_of_due {s : State} {b : Nat} (hf : s.twin.handover = .final b) (h : endsAcked s = true ∨ b + 110000 ≤ now s) :
    handoverRelease s = startRelease (handoverEnded s) := by
  have due : ¬(!endsAcked s ∧ now s < b + 110000) := by
    rintro ⟨he, hn⟩
    rcases h with h | h
    · rw [h] at he
      exact Bool.false_ne_true he
    · exact absurd hn (Nat.not_lt.mpr h)
  unfold handoverRelease
  rw [hf]
  exact if_neg due

theorem handoverRelease_of_waiting {s : State} {b : Nat} (hf : s.twin.handover = .final b) (he : endsAcked s = false)
    (h : now s < b + 110000) : handoverRelease s = s := by
  unfold handoverRelease
  rw [hf]
  exact if_pos ⟨by rw [he]; rfl, h⟩

theorem handover_startRelease (s : State) : (startRelease s).twin.handover = s.twin.handover := by
  have stopped : (stopEgress (armCleared s)).twin.handover = s.twin.handover := congrArg Twin.handover (twin_stopEgress _)
  have timed : ∀ n, (releaseTimed (stopEgress (armCleared s)) n).twin.handover = s.twin.handover := fun n =>
    (handover_releaseTimed _ n).trans stopped
  rw [startRelease_eq]
  exact view_ite (F := fun u => u.twin.handover) rfl (view_ite (F := fun u => u.twin.handover) stopped (timed _))

theorem claims_handoverEnded (s : State) : claims (handoverEnded s) = claims s :=
  (flag_of_regs_eq (regs_handoverEnded s) 0x604C 28).trans ((flag_setFld s 0x604C 22 20 _ 0x604C 28 (by decide) (by decide)).trans
    (if_neg (by decide)))

theorem role_handoverEnded (s : State) : role (handoverEnded s) = role s :=
  (fld_of_regs_eq (regs_handoverEnded s) 0x604C 31 29).trans
    (fld_setFld_other s 0x604C 22 20 _ 0x604C 31 29 (by decide) (by decide) (.inr (.inr (by decide))))

theorem outcome_handoverEnded (s : State) : fld (handoverEnded s) 0x604C 22 20 = if endsAcked s then 1 else 6 :=
  (fld_of_regs_eq (regs_handoverEnded s) 0x604C 22 20).trans ((fld_setFld_same s 0x604C 22 20 _ (by decide) (by decide)).trans
    (Nat.mod_eq_of_lt (by split <;> decide)))

theorem regsBut_handoverEnded (s : State) : RegsBut [0x6048, 0x604C] s (handoverEnded s) :=
  (RegsBut.of_regs_eq _ (regs_handoverEnded s)).trans ((RegsBut.of_regs_eq _ (t := s) rfl).wr (by decide) _)

theorem releaseAt_handoverRelease {s : State} (hc : claims s = true) (hn : s.twin.releaseAt = none) :
    (startRelease (handoverEnded s)).twin.releaseAt = some (now s + 200) := by
  have clock : now (handoverEnded s) = now s := rfl
  rw [startRelease_of_claims ((claims_handoverEnded s).trans hc) hn, releaseAt_releaseTimed, clock]

/-- What the release of a handover shows while no front port transmits. -/
theorem shown_handoverRelease {s : State} (h : FrontsIdle s) : armed (startRelease (handoverEnded s)) = false ∧
    claims (startRelease (handoverEnded s)) = claims s ∧ role (startRelease (handoverEnded s)) = role s ∧
    fld (startRelease (handoverEnded s)) 0x604C 22 20 = (if endsAcked s then 1 else 6) ∧
    (claims s = true → flag (startRelease (handoverEnded s)) 0x604C 25 = false) ∧
    RegsBut [0x6048, 0x604C] s (startRelease (handoverEnded s)) := by
  have regs := regs_startRelease (s := handoverEnded s) h
  exact ⟨(flag_of_regs_eq regs _ _).trans (armed_releaseShown _),
    (flag_of_regs_eq regs _ _).trans ((claims_releaseShown _).trans (claims_handoverEnded s)),
    (fld_of_regs_eq regs _ _ _).trans ((status_releaseShown _ (.inr (by decide))).trans (role_handoverEnded s)),
    (fld_of_regs_eq regs _ _ _).trans ((status_releaseShown _ (.inl (by decide))).trans (outcome_handoverEnded s)),
    fun hc => (flag_of_regs_eq regs _ _).trans (egress_releaseShown ((claims_handoverEnded s).trans hc)),
    (RegsBut.of_regs_eq _ regs).trans ((regsBut_releaseShown _).trans (regsBut_handoverEnded s))⟩

/-- Settles O32: the request by what refuses it, and each later step by its phase. -/
theorem handoversAreGraceful : Obligations.HandoversAreGraceful := by
  refine ⟨fun s src h hn h3 hk ha hs hf => ?_, fun s src h h3 => ?_, fun s src h h3 hk => ?_, fun s b hd hb => ?_,
    fun s b hd hb hq => congrArg done (handoverDrainEnd_of_busy hd hb hq), fun s b hf hb => ?_, fun s r hd hr hb => ?_,
    fun s b hf he hb => congrArg done (handoverRelease_of_waiting hf he hb)⟩
  · have free : handoverRefused (dropHeld s src 0x6048) = 0 := handoverRefused_of_healthy (s := dropHeld s src 0x6048) h3 hk ha hs hf
    refine ⟨_, (exec_handover h).trans (congrArg done (handoverStart_of_free free hn)), rfl, flag_setFlag_same _ 0x6048 28 true (by decide), ?_⟩
    exact (RegsBut.of_regs_eq _ rfl).setFlag (by decide) 28 true
  · exact exec_handover_of_refused h (handoverRefused_of_role h3) (by decide) (by decide)
  · exact exec_handover_of_refused h (handoverRefused_of_down h3 hk) (by decide) (by decide)
  · exact ⟨_, rfl, settled_execHandoverDrainEnd s _ rfl, handoverDrainEnd_of_due hd hb⟩
  · have hexec : exec .handoverRelease s = .next (startRelease (handoverEnded s)) := congrArg done (handoverRelease_of_due hf hb)
    exact ⟨_, hexec, settled_execHandoverRelease s _ hexec, handover_startRelease _, releaseAt_handoverRelease, shown_handoverRelease⟩
  · exact ⟨_, exec_claimRelease_of_due hr hb, handover_dropClaim s, handoverBit_dropClaim s, handoverDone_dropClaim hd, role_dropClaim s⟩

end Sys2Proof.Machine
end

section
/-! The self-tests of a standby (R286). -/

namespace Sys2Proof.Machine

/-! ### A failure -/

/-- A view that shows neither the failure bits, their count nor their interrupt. -/
theorem Shows.selftestFail {α : Type} {F : State → α} {as : List Nat} (h : Shows F as) (hf : 0x6058 ∉ as) (hc : 0x6124 ∉ as)
    (hi : 0x6010 ∉ as) (s : State) (k : Nat) : F (selftestFail s k) = F s :=
  (h.report _ _ _ _).trans ((h.raise (p := .twin) hi _ 6).trans ((h.tally hc _).trans (h.setFlag hf s k true)))

/-- The bit of the test that failed shows. -/
theorem failed_selftestFail (s : State) {k : Nat} (h : k < 32) : flag (selftestFail s k) 0x6058 k = true := by
  have reported := rd_report_other (raise (tally (setFlag s 0x6058 k true) 0x6124) .twin 6) 0x0605 .twin [k] (a := 0x6058)
    (by decide) (by decide)
  have raised := rd_raise_other (tally (setFlag s 0x6058 k true) 0x6124) .twin 6 (b := 0x6058) (by decide)
  have tallied := (shows_rd (a := 0x6058) (by decide) (by decide)).tally (a := 0x6124) (by decide) (setFlag s 0x6058 k true)
  exact (congrArg (bitAt · k) (reported.trans (raised.trans tallied))).trans (flag_setFlag_same s 0x6058 k true h)

theorem raised_selftestFail (s : State) (k : Nat) : flag (selftestFail s k) 0x6010 6 = true :=
  (congrArg (bitAt · 6) (rd_report_other _ 0x0605 .twin [k] (a := 0x6010) (by decide) (by decide))).trans
    ((flag_raise _ .twin 6 0x6010 6 (by decide)).trans (if_pos ⟨rfl, rfl⟩))

theorem twin_selftestFail (s : State) (k : Nat) : (selftestFail s k).twin = s.twin :=
  shows_twin.selftestFail List.not_mem_nil List.not_mem_nil List.not_mem_nil s k

/-! ### The synthetic frame -/

/-- The next synthetic frame of slice `i` is due after INTERVAL, and the slice wakes for the present one. -/
def frameTaken (s : State) (i : Nat) : State :=
  wakeSlice { s with twin := { s.twin with
    frameDue := setNth s.twin.frameDue i (s.twin.boundaries + max 1 (fld s 0x6054 31 24)) } } i

theorem twin_frameTaken (s : State) (i : Nat) : (frameTaken s i).twin = { s.twin with
    frameDue := setNth s.twin.frameDue i (s.twin.boundaries + max 1 (fld s 0x6054 31 24)) } :=
  shows_twin.wakeSlice (fun _ _ => rfl) _ i

theorem regs_frameTaken (s : State) (i : Nat) : (frameTaken s i).regs = s.regs := wakeSlice_regs _ i

/-- The slice's bit says whether the frame passed. -/
def frameJudged (s : State) (i : Nat) (ok : Bool) : State :=
  { frameTaken s i with twin := { (frameTaken s i).twin with passed := putBits (frameTaken s i).twin.passed i i (bit ok) } }

theorem passed_frameJudged (s : State) (i : Nat) (ok : Bool) : bitAt (frameJudged s i ok).twin.passed i = ok := by
  have put := bitAt_putBits (frameTaken s i).twin.passed i i (bit ok) i (Nat.le_refl i)
  rw [if_pos ⟨Nat.le_refl i, Nat.le_refl i⟩, Nat.sub_self] at put
  exact put.trans (bitAt_bit ok)

theorem exec_selftestFrame_of_due {s : State} {i : Fin 8} (h : selftests s = true) (hd : nth s.twin.frameDue i ≤ s.twin.boundaries)
    (content sequence : Bool) (ns : Nat) : exec (.selftestFrame i content sequence ns) s =
      .next (selftestFrame (frameTaken s i) i (content && sequence && ns < 10000)) := congrArg done (if_pos ⟨h, hd⟩)

theorem exec_selftestFrame_of_idle {s : State} {i : Fin 8} (h : selftests s = false ∨ s.twin.boundaries < nth s.twin.frameDue i)
    (content sequence : Bool) (ns : Nat) : exec (.selftestFrame i content sequence ns) s = .next s := by
  refine congrArg done (if_neg fun ⟨hs, hd⟩ => ?_)
  rcases h with h | h
  · exact Bool.false_ne_true (h.symm.trans hs)
  · exact absurd hd (Nat.not_le.mpr h)

/-- A frame that is wrong, out of sequence or late does not pass. -/
theorem judged_of_fault {content sequence : Bool} {ns : Nat} (h : content = false ∨ sequence = false ∨ 10000 ≤ ns) :
    (content && sequence && decide (ns < 10000)) = false := by
  rcases h with h | h | h
  · simp [h]
  · simp [h]
  · simp [h]

theorem frameDue_frameJudged {s : State} (i : Fin 8) (ok : Bool) (h : s.twin.frameDue.length = 8) :
    nth (frameJudged s i ok).twin.frameDue i = s.twin.boundaries + max 1 (fld s 0x6054 31 24) := by
  have due : (frameJudged s i ok).twin.frameDue = (frameTaken s i).twin.frameDue := rfl
  rw [due, twin_frameTaken]
  exact nth_set_same (i.isLt.trans_eq h.symm) _

/-! ### The reserved sheet -/

theorem exec_selftestSpill_of_due {s : State} {c : Fin 4} (h : selftests s = true) (hr : cxlState s c = 3)
    (hd : nth s.twin.spillDue c ≤ s.twin.boundaries) (same : Bool) : exec (.selftestSpill c same) s =
      .next (if same then spillTest s c else selftestFail (spillTest s c) 23) := congrArg done (if_pos ⟨h, hr, hd⟩)

theorem spill_spillTest (s : State) (c : Nat) : (spillTest s c).spill = s.spill := by
  unfold spillTest
  split <;> rfl

/-- The reserved sheet is written and read: two requests of 4 KiB. -/
theorem spillTest_of_reserved {s : State} {c a : Nat} (h : s.firmware.reserved.find? (fun e => e.1 == c) = some (c, a)) :
    spillTest s c = emit (emit { s with twin := { s.twin with spillDue := setNth s.twin.spillDue c (s.twin.boundaries + 64) } }
      (.cxl c [1, c * 2 ^ 38 + a * 4096, 4096])) (.cxl c [0, c * 2 ^ 38 + a * 4096, 4096]) := by
  unfold spillTest
  rw [h]

/-! ### The eyes -/

/-- The state but for its registers and the twin. -/
def besideShown (s : State) : State := { s with regs := [], twin := {} }

theorem eq_of_besideShown {s t : State} (h : besideShown t = besideShown s) : t = { s with regs := t.regs, twin := t.twin } :=
  congrArg (fun u : State => { u with regs := t.regs, twin := t.twin }) h

/-- The heights are shown for each running front lane, and for Kettle. -/
def eyesMeasured (s : State) (heights : List Nat) : State :=
  let u := (eyeLanes s).foldl (fun s l => if l < 64 then setFld s (laneReg l 0x50) 15 8 (nth heights l) else s) s
  if 64 ∈ eyeLanes s then setFld u 0x6050 15 8 (min (nth heights 64) (nth heights 65)) else u

theorem besideShown_eyesMeasured (s : State) (l : List Nat) : besideShown (eyesMeasured s l) = besideShown s := by
  have shown : ∀ u k, besideShown (setFld u (laneReg k 0x50) 15 8 (nth l k)) = besideShown u := fun _ _ => rfl
  have lanes : besideShown ((eyeLanes s).foldl (fun s k => if k < 64 then setFld s (laneReg k 0x50) 15 8 (nth l k) else s) s) =
      besideShown s :=
    view_foldl (fun u k => view_ite (shown u k) rfl) (eyeLanes s) s
  unfold eyesMeasured
  dsimp only
  split
  · exact lanes
  · exact lanes

theorem besideShown_showEyes (s : State) (l : List Nat) : besideShown (showEyes s l) = besideShown s := by
  unfold showEyes
  dsimp only
  split
  · exact besideShown_eyesMeasured s l
  · exact besideShown_eyesMeasured s l

theorem queues_showEyes (s : State) (l : List Nat) : (showEyes s l).queues = s.queues :=
  (congrArg (fun u : State => u.queues) (besideShown_showEyes s l) :)

theorem exec_selftestEye {s : State} {l : List Nat} (hl : l.length = 66) (hc : coreRuns s = true) : exec (.selftestEye l) s =
    .next (if selftests s ∧ eyeFails (showEyes s l) then selftestFail (showEyes s l) 21 else showEyes s l) :=
  (sized_of hl _).trans (congrArg done (if_neg (by rw [hc]; decide)))

theorem coreRuns_of_selftests {s : State} (h : selftests s = true) : coreRuns s = true := by
  simp only [selftests, Bool.and_eq_true] at h
  exact h.1.1

/-! ### The scrub -/

/-- The corrections of a pass are counted and reported. -/
def scrubbed (s : State) (n : Nat) : State :=
  (List.range n).foldl (fun s _ => report s 0x0101 .root [])
    { s with twin := { s.twin with scrubCorrections := s.twin.scrubCorrections + n } }

theorem twin_scrubbed (s : State) (n : Nat) : (scrubbed s n).twin = { s.twin with scrubCorrections := s.twin.scrubCorrections + n } :=
  view_foldl (F := State.twin) (fun u _ => shows_twin.report u _ _ _) _ _

theorem stored_scrubbed (s : State) (n : Nat) : stored (scrubbed s n) = stored s :=
  view_foldl (F := stored) (fun u _ => shows_stored.report u _ _ _) _ _

theorem exec_selftestScrub {s : State} (h : selftests s = true) (n : Nat) (uncorrectable : Bool) : exec (.selftestScrub n uncorrectable) s =
    .next (if uncorrectable then selftestFail (scrubbed s n) 22 else scrubbed s n) := congrArg done (if_pos h)

/-- Settles O33: each self-test is its step, and a failure shows its bit. -/
theorem selfTestsShowWhatFails : Obligations.SelfTestsShowWhatFails := by
  refine ⟨fun s i ns h hd hn => ?_, fun s i content sequence ns h hd hf => ?_, fun s i content sequence ns h => ?_,
    fun s c h hr hd => ?_, fun s c a h hr hd ha => ?_, fun s l hl hc he => ?_, fun s l hl h he => ?_, fun s n h => ?_, fun s h => ?_,
    fun s => ⟨failed_selftestFail s (by decide), failed_selftestFail s (by decide), failed_selftestFail s (by decide)⟩⟩
  · have ok : (true && true && decide (ns < 10000)) = true := by simp [hn]
    have hexec : exec (.selftestFrame i true true ns) s = .next (frameJudged s i true) := by
      rw [exec_selftestFrame_of_due h hd, ok]
      rfl
    exact ⟨_, hexec, settled_execSelftestFrame i true true ns s _ hexec, passed_frameJudged s i true, regs_frameTaken s i,
      frameDue_frameJudged i true⟩
  · have hexec : exec (.selftestFrame i content sequence ns) s = .next (selftestFail (frameJudged s i false) (24 + i)) := by
      rw [exec_selftestFrame_of_due h hd, judged_of_fault hf]
      rfl
    refine ⟨_, hexec, settled_execSelftestFrame i content sequence ns s _ hexec, ?_, failed_selftestFail _ (by omega)⟩
    rw [twin_selftestFail]
    exact passed_frameJudged s i false
  · exact exec_selftestFrame_of_idle h content sequence ns
  · have hexec := exec_selftestSpill_of_due h hr hd false
    exact ⟨_, hexec, settled_execSelftestSpill c false s _ hexec, rfl, failed_selftestFail _ (by decide),
      ((shows_of_rfl fun _ _ _ _ _ => rfl : Shows State.spill []).selftestFail List.not_mem_nil List.not_mem_nil List.not_mem_nil _ _).trans
        (spill_spillTest s c)⟩
  · exact ⟨_, (exec_selftestSpill_of_due h hr hd true).trans (congrArg done (spillTest_of_reserved ha)), rfl, rfl⟩
  · have hexec := (exec_selftestEye hl hc).trans (congrArg done (if_neg fun e => by rw [he] at e; exact Bool.false_ne_true e.2))
    exact ⟨_, hexec, settled_execSelftestEye l s _ hexec, rfl, eq_of_besideShown (besideShown_showEyes s l)⟩
  · have hexec := (exec_selftestEye hl (coreRuns_of_selftests h)).trans (congrArg done (if_pos ⟨h, he⟩))
    exact ⟨_, hexec, settled_execSelftestEye l s _ hexec, rfl, failed_selftestFail _ (by decide),
      ((shows_of_rfl fun _ _ _ _ _ => rfl : Shows State.queues []).selftestFail List.not_mem_nil List.not_mem_nil List.not_mem_nil _ _).trans
        (queues_showEyes s l)⟩
  · have hexec := exec_selftestScrub h n false
    obtain ⟨hframes, hqueues⟩ := stored_iff.mp (stored_scrubbed s n)
    exact ⟨_, hexec, settled_execSelftestScrub n false s _ hexec, twin_scrubbed s n, hqueues, hframes⟩
  · exact ⟨_, exec_selftestScrub h 0 true, failed_selftestFail _ (by decide), raised_selftestFail _ _,
      (twin_selftestFail _ _).trans (twin_scrubbed s 0)⟩

end Sys2Proof.Machine
end

section
/-! The mate's reset, the digests and the resynchronisation (R275, R281, R283). -/

namespace Sys2Proof.Machine

/-! ### The mate's reset (R275) -/

theorem exec_mateResetPulseEnd_of_due {s : State} {r : Nat} (hr : s.twin.mateResetUntil = some r) (h : r ≤ now s) :
    exec .mateResetPulseEnd s = .next (emit { s with twin := { s.twin with mateResetUntil := none }, pins := { s.pins with mateReset := false } }
      (.pin "TWIN_MATE_RESET_OUT_N" 0 true)) := by
  show execMateResetPulseEnd s = _
  unfold execMateResetPulseEnd
  rw [hr]
  exact congrArg done (if_pos h)

theorem exec_mateResetDisarm {s : State} {src : Source} (h : Admitted s src 0x6048) :
    exec (.mateResetDisarm src) s = .next (setFlag (dropHeld s src 0x6048) 0x6040 29 false) := congrArg done (guarded_twin h rfl _)

/-! ### Digests (R281) -/

/-- A view that shows neither the digests nor what a divergence raises. -/
theorem Shows.divergent {α : Type} {F : State → α} {as : List Nat} (h : Shows F as) (hd : 0x6064 ∉ as) (hi : 0x6010 ∉ as) (s : State)
    (e : Nat) : F (divergent s e) = F s :=
  (h.report _ _ _ _).trans ((h.raise (p := .twin) hi _ 2).trans (h.setFld hd s 15 0 e))

theorem Shows.compareDigests {α : Type} {F : State → α} {as : List Nat} (h : Shows F as) (hd : 0x6064 ∉ as) (hi : 0x6010 ∉ as) (s : State) :
    F (compareDigests s) = F s := by
  unfold Machine.compareDigests
  split
  · exact view_ite (h.divergent hd hi s _) rfl
  · rfl

/-- Whether the digest is due, and the epoch of the one shown. -/
def digestState (s : State) : Bool × Nat := (s.twin.digestDue, s.twin.digestEpoch)

theorem shows_digestState : Shows digestState [] := shows_of_rfl fun _ _ _ _ _ => rfl

theorem digestState_kettleSend (s : State) (type sub : Nat) (cp : Bool) (ws : List Nat) :
    digestState (kettleSend s type sub cp ws) = digestState s :=
  (⟨fun _ _ => rfl, fun _ _ => rfl⟩ : ShowsNoKettle digestState).kettleSend s type sub cp ws

/-- The configuration's digest in the registers that show it. -/
def digestShown (s : State) : State :=
  let d := (Config.configDigest (currentEpoch s) (stagedValues s.regsCur) s.tabsCur).toNat
  (List.range 12).foldl (fun s n => wr s (0x6068 + 4 * n) (bits d (383 - 32 * n) (352 - 32 * n))) s

theorem currentEpoch_digestShown (s : State) : currentEpoch (digestShown s) = currentEpoch s :=
  view_foldl (fun u n => fld_wr_other u _ 15 0 (by omega)) _ s

/-- The digest is shown, and due no more. -/
def digestMarked (s : State) : State :=
  { s with twin := { s.twin with digestDue := false, digestEpoch := currentEpoch s + 1 } }

/-- A digest record goes to the mate, by the way that the role gives it. -/
def digestSent (s : State) (sub : Nat) (ws : List Nat) : State :=
  if standsBy s then kettleSend s 3 sub (s.clock.cycleNumber % 2 == 1) (padded ws) else sendDelta s sub ws

theorem digestState_digestSent (s : State) (sub : Nat) (ws : List Nat) : digestState (digestSent s sub ws) = digestState s :=
  view_ite (digestState_kettleSend _ _ _ _ _) (view_ite rfl (digestState_kettleSend _ _ _ _ _))

/-- Firmware shows its digest, sends it in two records and compares it. -/
def digestPublished (s : State) : State :=
  let u := digestSent s 6 (currentEpoch s :: (ownDigest s).take 10)
  compareDigests (digestSent u 7 (currentEpoch u :: (ownDigest u).drop 10))

theorem digestState_digestPublished (s : State) : digestState (digestPublished s) = digestState s :=
  (shows_digestState.compareDigests List.not_mem_nil List.not_mem_nil _).trans
    ((digestState_digestSent _ _ _).trans (digestState_digestSent s _ _))

theorem configDigest_of_due {s : State} (hd : s.twin.digestDue = true) (hr : s.firmware.running = true) :
    configDigest s = digestPublished (digestMarked (digestShown s)) := if_neg (by rw [hd, hr]; decide)

theorem configDigest_of_idle {s : State} (h : s.twin.digestDue = false ∨ s.firmware.running = false) : configDigest s = s :=
  if_pos (h.imp (fun e => by rw [e]; rfl) (fun e => by rw [e]; rfl))

theorem digestState_configDigest {s : State} (hd : s.twin.digestDue = true) (hr : s.firmware.running = true) :
    digestState (configDigest s) = (false, currentEpoch s + 1) := by
  rw [configDigest_of_due hd hr, digestState_digestPublished, ← currentEpoch_digestShown s]
  rfl

/-! ### The copy is applied (R279) -/

theorem stored_copySlot (s : State) (slot entry : Nat) : stored (copySlot s slot entry) = stored s := view_ite rfl rfl

theorem stored_loadCounter (s : State) (i v : Nat) : stored (loadCounter s i v) = stored s := view_ite (F := stored) rfl rfl

theorem stored_takeDigest (s : State) (sub : Nat) (ws : List Nat) : stored (takeDigest s sub ws) = stored s := by
  unfold takeDigest
  dsimp only
  split
  · rfl
  · split
    · exact view_ite (shows_stored.compareDigests List.not_mem_nil List.not_mem_nil _) rfl
    · rfl

theorem stored_applyRecord (s : State) (r : StagedRecord) : stored (applyRecord s r) = stored s := by
  have policer : ∀ u k a b, stored (setPolicer u k a b) = stored u := fun _ _ _ _ => rfl
  unfold applyRecord
  split
  · exact view_foldl (fun u _ => stored_copySlot u _ _) _ s
  · exact view_foldl (fun u _ => view_ite (stored_copySlot u _ _) rfl) _ s
  · rfl
  · exact view_foldl (fun u _ => policer u _ _ _) _ s
  · exact view_foldl (fun u _ => view_ite (stored_loadCounter u _ _) rfl) _ s
  · exact stored_takeDigest s 6 _
  · exact stored_takeDigest s 7 _
  · rfl

theorem stored_applyDelta (s : State) (d : StagedDelta) : stored (applyDelta s d) = stored s := by
  unfold applyDelta
  split
  · rfl
  · exact view_foldl stored_applyRecord d.records s

/-- The copy touches neither frames nor queues. -/
theorem stored_applyStaged (n : Nat) (s : State) : stored (applyStaged n s) = stored s := by
  induction n generalizing s with
  | zero => rfl
  | succ n ih =>
    unfold applyStaged
    split
    · rfl
    · exact view_ite ((ih _).trans (stored_applyDelta _ _)) rfl

/-! ### Resynchronisation (R283) -/

/-- SYNCED is cleared. -/
def unsynced (s : State) : State := setFlag s 0x604C 23 false

/-- The copy is lost, and a bulk is to be asked for. -/
def resyncBegun (s : State) : State :=
  let u := tally (unsynced s) 0x6128
  { u with twin := { u.twin with bulk := .requested, staged := [] }, tabs := u.tabs.filter fun e => e.1 / 2 ^ 20 != 2 }

theorem startResync_eq (s : State) : startResync s = kettleSend (resyncBegun s) 4 0 false (padded []) := rfl

theorem regs_resyncBegun (s : State) : (resyncBegun s).regs = (tally (unsynced s) 0x6128).regs := rfl

theorem twin_resyncBegun (s : State) : (resyncBegun s).twin = { s.twin with bulk := .requested, staged := [] } := by
  have counted : (tally (unsynced s) 0x6128).twin = s.twin := shows_twin.tally List.not_mem_nil _
  unfold resyncBegun
  dsimp only
  rw [counted]

theorem synced_unsynced (s : State) : synced (unsynced s) = false := flag_setFlag_same s 0x604C 23 false (by decide)

theorem synced_resyncBegun (s : State) : synced (resyncBegun s) = false :=
  (flag_of_regs_eq (regs_resyncBegun s) 0x604C 23).trans
    ((congrArg (bitAt · 23) ((shows_rd (a := 0x604C) (by decide) (by decide)).tally (by decide) (unsynced s))).trans (synced_unsynced s))

theorem twin_startResync (s : State) : (startResync s).twin = { s.twin with bulk := .requested, staged := [] } := by
  rw [startResync_eq, (⟨fun _ _ => rfl, fun _ _ => rfl⟩ : ShowsNoKettle State.twin).kettleSend, twin_resyncBegun]

theorem synced_startResync (s : State) : synced (startResync s) = false := by
  rw [startResync_eq, (⟨fun _ _ => rfl, fun _ _ => rfl⟩ : ShowsNoKettle synced).kettleSend, synced_resyncBegun]

theorem role_unsynced (s : State) : role (unsynced s) = role s :=
  fld_setFlag_other s 0x604C 23 false 0x604C 31 29 (by decide) (.inr (.inr (by decide)))

theorem kettleUp_unsynced (s : State) : kettleUp (unsynced s) = kettleUp s :=
  congrArg (fun w => bits w 31 29 == 3) (rd_setFlag_other s 23 false (by decide))

theorem loseSync_of_up {s : State} (h0 : role s = 0) (hk : kettleUp s = true) : loseSync s = startResync (unsynced s) :=
  if_pos ⟨(role_unsynced s).trans h0, (kettleUp_unsynced s).trans hk⟩

theorem loseSync_of_down {s : State} (hk : kettleUp s = false) : loseSync s = unsynced s :=
  if_neg fun ⟨_, h⟩ => Bool.false_ne_true (hk.symm.trans ((kettleUp_unsynced s).symm.trans h))

theorem synced_loseSync (s : State) : synced (loseSync s) = false := by
  unfold loseSync
  dsimp only
  split
  · exact synced_startResync _
  · exact flag_setFlag_same s 0x604C 23 false (by decide)

theorem exec_resync {s : State} {src : Source} (h : Admitted s src 0x6048) :
    exec (.resync src) s = .next (requestResync (dropHeld s src 0x6048)) := congrArg done (guarded_twin h rfl _)

/-- The copy is applied as far as its deltas are complete, and SYNCED. -/
def syncedUp (s : State) : State :=
  let u := applyStaged s.twin.staged.length s
  raise (setFlag { u with twin := { u.twin with bulk := .none } } 0x604C 23 true) .twin 5

theorem syncDone_of_applying {s : State} {k : Nat} (h : s.twin.bulk = .applying k) : syncDone s = syncedUp s := by
  unfold syncDone
  rw [h]
  rfl

theorem syncDone_of_other {s : State} (h : ∀ k, s.twin.bulk ≠ .applying k) : syncDone s = s := by
  unfold syncDone
  split
  next k hk => exact absurd hk (h k)
  next => rfl

theorem synced_syncedUp (s : State) : synced (syncedUp s) = true :=
  (congrArg (bitAt · 23) (rd_raise_other _ .twin 5 (by decide))).trans (flag_setFlag_same _ 0x604C 23 true (by decide))

theorem bulk_syncedUp (s : State) : (syncedUp s).twin.bulk = .none := by
  rw [syncedUp, shows_twin.raise (p := .twin) List.not_mem_nil _ 5, shows_twin.setFlag List.not_mem_nil]

theorem raised_syncedUp (s : State) : flag (syncedUp s) 0x6010 5 = true :=
  (flag_raise _ .twin 5 0x6010 5 (by decide)).trans (if_pos ⟨rfl, rfl⟩)

theorem stored_syncedUp (s : State) : stored (syncedUp s) = stored s :=
  (shows_stored.raise (p := .twin) List.not_mem_nil _ 5).trans
    ((shows_stored.setFlag List.not_mem_nil _ 23 true).trans (stored_applyStaged _ s))

/-- Settles O31: each end of a wait is its update; a lost copy is asked for again while Kettle is UP. -/
theorem mateResetsDigestsAndResyncs : Obligations.MateResetsDigestsAndResyncs := by
  refine ⟨fun s r hr hb => ⟨_, exec_mateResetPulseEnd_of_due hr hb, rfl, rfl, rfl⟩, fun s src h => ?_, fun s hd hr => ?_,
    fun s h => congrArg done (configDigest_of_idle h), fun s src h h0 => ?_, fun s src h h0 => ?_, fun s k hk => ?_,
    fun s h => congrArg done (syncDone_of_other h)⟩
  · exact ⟨_, exec_mateResetDisarm h, flag_setFlag_same _ 0x6040 29 false (by decide), (RegsBut.of_regs_eq _ rfl).setFlag (by decide) 29 false,
      rfl⟩
  · have hdigest := digestState_configDigest hd hr
    exact ⟨_, rfl, settled_execConfigDigest s _ rfl, congrArg Prod.fst hdigest, congrArg Prod.snd hdigest⟩
  · have hexec := (exec_resync h).trans (congrArg done (if_pos h0))
    rw [atRegister_twin s src rfl]
    refine ⟨_, hexec, settled_execResync src s _ hexec, rfl, synced_loseSync _, fun hk => ?_, fun hk => ?_⟩
    · rw [loseSync_of_up (s := dropHeld s src 0x6048) h0 hk, twin_startResync]
      exact ⟨rfl, rfl⟩
    · rw [loseSync_of_down (s := dropHeld s src 0x6048) hk]
      exact ⟨(RegsBut.of_regs_eq _ rfl).setFlag (by decide) 23 false, rfl⟩
  · exact ⟨_, (exec_resync h).trans (congrArg done (if_neg h0)), rfl, rfl⟩
  · have hexec : exec .syncDone s = .next (syncedUp s) := congrArg done (syncDone_of_applying hk)
    obtain ⟨hframes, hqueues⟩ := stored_iff.mp (stored_syncedUp s)
    exact ⟨_, hexec, settled_execSyncDone s _ hexec, synced_syncedUp s, bulk_syncedUp s, raised_syncedUp s, hqueues, hframes⟩

end Sys2Proof.Machine
end

section
/-! Kettle's bring-up and its end (R271, R273). -/

namespace Sys2Proof.Machine

/-! ### A state of the link is entered -/

theorem regs_kettleEnter (s : State) (r : Nat) : (kettleEnter s r).regs = (setFld s 0x6050 31 29 r).regs := rfl

theorem kettleState_kettleEnter (s : State) {r : Nat} (h : r < 8) : kettleState (kettleEnter s r) = r :=
  (fld_of_regs_eq (regs_kettleEnter s r) 0x6050 31 29).trans
    ((fld_setFld_same s 0x6050 31 29 r (by decide) (by decide)).trans (Nat.mod_eq_of_lt h))

/-- The other fields of KETTLE_STATUS stay as they are. -/
theorem status_kettleEnter (s : State) (r : Nat) {hi lo : Nat} (h : hi < 29) : fld (kettleEnter s r) 0x6050 hi lo = fld s 0x6050 hi lo :=
  (fld_of_regs_eq (regs_kettleEnter s r) 0x6050 hi lo).trans
    (fld_setFld_other s 0x6050 31 29 r 0x6050 hi lo (by decide) (by decide) (.inr (.inl h)))

theorem regsBut_kettleEnter (s : State) (r : Nat) : RegsBut [0x6050] s (kettleEnter s r) :=
  (RegsBut.of_regs_eq _ (regs_kettleEnter s r)).trans ((RegsBut.of_regs_eq _ (t := s) rfl).wr (by decide) _)

/-- What decides whether Kettle may train is beside KETTLE_STATUS. -/
theorem kettleOn_of_words {s t : State} (he : rd t 0x6044 = rd s 0x6044) (hc : rd t 0x1040 = rd s 0x1040) : kettleOn t = kettleOn s := by
  rw [kettleOn, flag, flag, he, hc, kettleOn, flag, flag]

/-! ### Enabled, trained -/

theorem exec_kettleEnable {s : State} {src : Source} (h : Admitted s src 0x6044) :
    exec (.kettleEnable src) s = .next (kettleSwitch (dropHeld s src 0x6044) true) := congrArg done (guarded_twin h rfl _)

/-- Kettle is enabled, and trains. -/
def kettleEnabled (s : State) : State := kettleEnter (setFlag s 0x6044 31 true) 1

theorem kettleSwitch_of_down {s : State} (h0 : kettleState s = 0) (hc : flag s 0x1040 27 = false) :
    kettleSwitch s true = kettleEnabled s := by
  have down : kettleState (setFlag s 0x6044 31 true) = 0 :=
    (congrArg (bits · 31 29) (rd_setFlag_other s 31 true (by decide))).trans h0
  have sound : flag (setFlag s 0x6044 31 true) 0x1040 27 = false :=
    (congrArg (bitAt · 27) (rd_setFlag_other s 31 true (by decide))).trans hc
  have on : kettleOn (setFlag s 0x6044 31 true) = true := by
    rw [kettleOn, flag_setFlag_same s 0x6044 31 true (by decide), sound]
    rfl
  unfold kettleSwitch
  dsimp only
  rw [if_pos rfl, if_pos ⟨down, on⟩, kettleEnabled]

theorem regsBut_kettleEnabled (s : State) : RegsBut [0x6044, 0x6050] s (kettleEnabled s) :=
  (RegsBut.of_regs_eq _ (regs_kettleEnter _ 1)).trans (((RegsBut.of_regs_eq _ (s := s) rfl).setFlag (by decide) 31 true).wr (by decide) _)

theorem flag_kettleEnabled (s : State) : flag (kettleEnabled s) 0x6044 31 = true :=
  (congrArg (bitAt · 31) (regsBut_kettleEnter (setFlag s 0x6044 31 true) 1 0x6044 (by decide))).trans
    (flag_setFlag_same s 0x6044 31 true (by decide))

theorem kettleState_kettleEnabled (s : State) : kettleState (kettleEnabled s) = 1 := kettleState_kettleEnter _ (by decide)

theorem since_kettleEnabled (s : State) : (kettleEnabled s).kettle.since = now s := rfl

theorem kettleEnabled_frame (s : State) : kettleEnabled s = { s with regs := (kettleEnabled s).regs, kettle := (kettleEnabled s).kettle } := rfl

/-- The first HELLO carries no words of SPDM. -/
theorem out_sendHello_kettleEnter (s : State) : (sendHello (kettleEnter s 2) []).out =
    s.out ++ [.kettle (2 ^ 28) (openRecord (2 ^ 28) (padded [fld s 0x604C 24 24, 2]))] := by
  have seat : fld (kettleEnter s 2) 0x604C 24 24 = fld s 0x604C 24 24 := congrArg (bits · 24 24) (regsBut_kettleEnter s 2 0x604C (by decide))
  rw [← seat]
  rfl

/-! ### The link is left -/

/-- The cause is shown, unless it is 0. -/
def causeShown (s : State) (cause : Nat) : State := if cause = 0 then s else setFld s 0x6050 28 25 cause

theorem regsBut_causeShown (s : State) (cause : Nat) : RegsBut [0x6050] s (causeShown s cause) := by
  unfold causeShown
  split
  · exact RegsBut.of_regs_eq _ rfl
  · exact (RegsBut.of_regs_eq _ (t := s) rfl).wr (by decide) _

/-- The version goes, with the windows, the bulk and what the mate said of itself, and the next state is entered. -/
def linkEnded (s : State) (state : Nat) : State :=
  let u := kettleEnter { (setFld s 0x6050 7 0 0) with kettle := {} } state
  { u with twin := { u.twin with
    bulk := .none, serve := false, staged := if u.twin.bulk = .none then u.twin.staged else []
    finalApplied := false, mateArm := false, mateSynced := false } }

/-- The link is left. -/
def linkLeft (s : State) (state cause : Nat) : State := linkEnded (causeShown s cause) state

/-- KETTLE_DOWN is raised and reported. -/
def downReported (s : State) : State := report (raise s .twin 4) 0x0601 .twin [fld s 0x6050 28 25]

/-- A link that was UP takes the mailbox along. -/
def linkLost (s : State) : State := mailboxKettleDown (downReported s)

theorem kettleLeave_eq (s : State) (state cause : Nat) :
    kettleLeave s state cause = if kettleUp s then linkLost (linkLeft s state cause) else linkLeft s state cause := rfl

theorem kettleLeave_of_down {s : State} (h : kettleState s ≠ 3) (state cause : Nat) : kettleLeave s state cause = linkLeft s state cause :=
  (kettleLeave_eq s state cause).trans (if_neg (by rw [kettleUp, beq_iff_eq]; exact h))

theorem regs_linkEnded (s : State) (state : Nat) : (linkEnded s state).regs = (setFld (setFld s 0x6050 7 0 0) 0x6050 31 29 state).regs := rfl

theorem kettleState_linkLeft (s : State) {state : Nat} (cause : Nat) (h : state < 8) : kettleState (linkLeft s state cause) = state :=
  (fld_of_regs_eq (regs_linkEnded _ state) 0x6050 31 29).trans
    ((fld_setFld_same _ 0x6050 31 29 state (by decide) (by decide)).trans (Nat.mod_eq_of_lt h))

theorem cause_linkLeft (s : State) (state : Nat) {cause : Nat} (h0 : cause ≠ 0) (h : cause < 16) :
    fld (linkLeft s state cause) 0x6050 28 25 = cause := by
  refine (fld_of_regs_eq (regs_linkEnded _ state) 0x6050 28 25).trans ?_
  rw [causeShown, if_neg h0, fld_setFld_other _ 0x6050 31 29 state 0x6050 28 25 (by decide) (by decide) (.inr (.inl (by decide))),
    fld_setFld_other _ 0x6050 7 0 0 0x6050 28 25 (by decide) (by decide) (.inr (.inr (by decide))),
    fld_setFld_same s 0x6050 28 25 cause (by decide) (by decide)]
  exact Nat.mod_eq_of_lt h

theorem version_linkLeft (s : State) (state cause : Nat) : fld (linkLeft s state cause) 0x6050 7 0 = 0 :=
  (fld_of_regs_eq (regs_linkEnded _ state) 0x6050 7 0).trans
    ((fld_setFld_other _ 0x6050 31 29 state 0x6050 7 0 (by decide) (by decide) (.inr (.inl (by decide)))).trans
      (fld_setFld_same _ 0x6050 7 0 0 (by decide) (by decide)))

theorem regsBut_linkLeft (s : State) (state cause : Nat) : RegsBut [0x6050] s (linkLeft s state cause) :=
  (RegsBut.of_regs_eq _ (regs_linkEnded _ state)).trans (((regsBut_causeShown s cause).wr (by decide) _).wr (by decide) _)

theorem kettle_linkEnded (s : State) (state : Nat) : (linkEnded s state).kettle = { since := now s } := rfl

theorem kettle_linkLeft (s : State) (state cause : Nat) : (linkLeft s state cause).kettle = { since := now s } := by
  have clock : now (causeShown s cause) = now s := view_ite (F := now) rfl rfl
  rw [linkLeft, kettle_linkEnded, clock]

/-- The state but for its registers, Kettle and the twin. -/
def besideLink (s : State) : State := { s with regs := [], kettle := {}, twin := {} }

theorem eq_of_besideLink {s t : State} (h : besideLink t = besideLink s) : t = { s with regs := t.regs, kettle := t.kettle, twin := t.twin } :=
  congrArg (fun u : State => { u with regs := t.regs, kettle := t.kettle, twin := t.twin }) h

theorem besideLink_linkEnded (s : State) (state : Nat) : besideLink (linkEnded s state) = besideLink s := rfl

theorem besideLink_linkLeft (s : State) (state cause : Nat) : besideLink (linkLeft s state cause) = besideLink s :=
  (besideLink_linkEnded _ state).trans (view_ite (F := besideLink) rfl rfl)

theorem out_linkLeft (s : State) (state cause : Nat) : (linkLeft s state cause).out = s.out :=
  (congrArg (fun u : State => u.out) (besideLink_linkLeft s state cause) :)

theorem kettleOn_linkLeft (s : State) (state cause : Nat) : kettleOn (linkLeft s state cause) = kettleOn s :=
  kettleOn_of_words (regsBut_linkLeft s state cause 0x6044 (by decide)) (regsBut_linkLeft s state cause 0x1040 (by decide))

/-- A bring-up step that fails shows its cause in state FAILED (R273). -/
theorem kettleFail_of_down {s : State} (h : kettleState s ≠ 3) {cause : Nat} (h0 : cause ≠ 0) (hc : cause < 16) :
    kettleState (kettleFail s cause) = 4 ∧ fld (kettleFail s cause) 0x6050 28 25 = cause ∧ RegsBut [0x6050] s (kettleFail s cause) ∧
      (kettleFail s cause).out = s.out := by
  rw [kettleFail, kettleLeave_of_down h]
  exact ⟨kettleState_linkLeft s cause (by decide), cause_linkLeft s 4 h0 hc, regsBut_linkLeft s 4 cause, out_linkLeft s 4 cause⟩

/-! ### HELLO -/

/-- The versions agree, and the mate has said HELLO. -/
def helloTaken (s : State) : State :=
  let u := setFld s 0x6050 7 0 1
  { u with kettle := { u.kettle with helloDone := true } }

theorem takeHello_of_good {s : State} {seatB : Bool} {versions : Nat} (h2 : kettleState s = 2) (hv : bitAt versions 1 = true)
    (hs : flag s 0x604C 24 = !seatB) (spdm : List Nat) : takeHello s seatB versions spdm =
      if (!s.kettle.helloDone ∧ !flag (helloTaken s) 0x604C 24) ∨ spdm ≠ [] then sendSpdm (helloTaken s) else helloTaken s :=
  (if_neg (not_not_intro h2)).trans ((if_neg (by rw [hv]; decide)).trans (if_neg (by rw [hs]; cases seatB <;> decide)))

theorem takeHello_of_version {s : State} {versions : Nat} (h2 : kettleState s = 2) (hv : bitAt versions 1 = false) (seatB : Bool)
    (spdm : List Nat) : takeHello s seatB versions spdm = kettleFail s 2 :=
  (if_neg (not_not_intro h2)).trans (if_pos (by rw [hv]; rfl))

theorem takeHello_of_seat {s : State} {seatB : Bool} {versions : Nat} (h2 : kettleState s = 2) (hv : bitAt versions 1 = true)
    (hs : flag s 0x604C 24 = seatB) (spdm : List Nat) : takeHello s seatB versions spdm = kettleFail s 4 :=
  (if_neg (not_not_intro h2)).trans ((if_neg (by rw [hv]; decide)).trans (if_pos (by rw [hs]; exact beq_self_eq_true seatB)))

/-- An SPDM message changes neither the registers nor Kettle's window. -/
theorem regsKettle_sendSpdm (s : State) : ((sendSpdm s).regs, (sendSpdm s).kettle) = (s.regs, s.kettle) := by
  have said : ∀ (u : State) ws, ((sendHello u ws).regs, (sendHello u ws).kettle) = (u.regs, u.kettle) := fun _ _ => rfl
  exact view_foldl (F := fun u : State => (u.regs, u.kettle)) (fun u _ => said u _) _ s

theorem regs_helloTaken (s : State) : (helloTaken s).regs = (setFld s 0x6050 7 0 1).regs := rfl

/-- What a good HELLO leaves, whether or not an SPDM message follows. -/
theorem takeHello_good {s : State} {seatB : Bool} {versions : Nat} (h2 : kettleState s = 2) (hv : bitAt versions 1 = true)
    (hs : flag s 0x604C 24 = !seatB) (spdm : List Nat) :
    (takeHello s seatB versions spdm).regs = (setFld s 0x6050 7 0 1).regs ∧ (takeHello s seatB versions spdm).kettle.helloDone = true := by
  have view : ((takeHello s seatB versions spdm).regs, (takeHello s seatB versions spdm).kettle) =
      ((helloTaken s).regs, (helloTaken s).kettle) := by
    rw [takeHello_of_good h2 hv hs]
    exact view_ite (F := fun u : State => (u.regs, u.kettle)) (regsKettle_sendSpdm _) rfl
  obtain ⟨regs, kettle⟩ := Prod.mk.inj view
  exact ⟨regs.trans (regs_helloTaken s), (congrArg Kettle.helloDone kettle).trans rfl⟩

/-! ### UP -/

/-- Kettle reaches UP: a session with empty windows. -/
def sessionOpened (s : State) : State :=
  kettleEnter { s with
    kettle := { s.kettle with
      nextSeq := 0, expected := 0, unacked := [], waiting := [], session := true, key := s.freeCount, sent := 0, acks := 0,
      mailHalf := [] }
    freeCount := s.freeCount + 1 } 3

/-- KETTLE_UP is raised. -/
def upRaised (s : State) : State := raise (sessionOpened s) .twin 3

theorem kettleReachUp_eq (s : State) (same : Bool) : kettleReachUp s same =
    (let u := mailboxKettleUp (upRaised s)
     let u := if same then u else divergent u (currentEpoch u)
     if role u = 0 ∧ !synced u then startResync u else u) := rfl

/-- The view shows nothing of what follows KETTLE_UP: a held M_0 message, a divergence, a resynchronisation. -/
structure ShowsNoUp {α : Type} (F : State → α) : Prop where
  mail : ∀ s, F (mailboxKettleUp s) = F s
  divergent : ∀ s e, F (divergent s e) = F s
  resync : ∀ s, F (startResync s) = F s

theorem ShowsNoUp.kettleReachUp {α : Type} {F : State → α} (h : ShowsNoUp F) (s : State) (same : Bool) :
    F (kettleReachUp s same) = F (upRaised s) :=
  (view_ite (h.resync _) rfl).trans ((view_ite rfl (h.divergent _ _)).trans (h.mail (upRaised s)))

theorem view_mailboxKettleUp {α : Type} {F : State → α} (hk : ∀ s type sub cp ws, F (kettleSend s type sub cp ws) = F s)
    (hc : ∀ s x, F { s with channels := x } = F s) (s : State) : F (mailboxKettleUp s) = F s :=
  view_ite ((hc _ _).trans ((hk _ _ _ _ _).trans (hk _ _ _ _ _))) rfl

/-- Kettle's state is none of it. -/
theorem showsNoUp_kettleState : ShowsNoUp kettleState := by
  have h := showsNoResync_word (a := 0x6050) (by decide) (by decide) (by decide) (bits · 31 29)
  exact ⟨view_mailboxKettleUp h.kettleSend fun _ _ => rfl, h.divergent (by decide) (by decide), h.startResync (by decide)⟩

/-- The cause KETTLE_UP stays raised. -/
theorem showsNoUp_raised : ShowsNoUp fun s => flag s 0x6010 3 := by
  have h := showsNoResync_word (a := 0x6010) (by decide) (by decide) (by decide) (bitAt · 3)
  refine ⟨view_mailboxKettleUp (F := fun s => flag s 0x6010 3) h.kettleSend fun _ _ => rfl, fun s e => ?_, h.startResync (by decide)⟩
  exact (h.report _ _ _ _).trans ((flag_raise (setFld s 0x6064 15 0 e) .twin 2 0x6010 3 (by decide)).trans
    ((if_neg (by decide)).trans (congrArg (bitAt · 3) (rd_setFld_other s 15 0 e (by decide)))))

/-- A record that is sent stays in the session. -/
theorem session_kettleSend (s : State) (type sub : Nat) (cp : Bool) (ws : List Nat) :
    (kettleSend s type sub cp ws).kettle.session = s.kettle.session := by
  have put : ∀ u head ws, (kettlePut u head ws).kettle.session = u.kettle.session := fun _ _ _ => rfl
  have fill : ∀ n u, (kettleFill n u).kettle.session = u.kettle.session := by
    intro n
    induction n with
    | zero => exact fun _ => rfl
    | succ n ih =>
      intro u
      unfold kettleFill
      split
      · split
        · rfl
        · exact (ih _).trans (put _ _ _)
      · rfl
  exact view_ite (F := fun u : State => u.kettle.session) rfl (view_ite (F := fun u : State => u.kettle.session) (put _ _ _) (fill _ _))

theorem shows_session : Shows (fun s => s.kettle.session) [] := shows_of_rfl fun _ _ _ _ _ => rfl

theorem showsNoUp_session : ShowsNoUp fun s => s.kettle.session :=
  ⟨view_mailboxKettleUp (F := fun s => s.kettle.session) session_kettleSend fun _ _ => rfl,
    shows_session.divergent List.not_mem_nil List.not_mem_nil,
    fun s => (session_kettleSend (resyncBegun s) 4 0 false (padded [])).trans (shows_session.tally List.not_mem_nil (unsynced s))⟩

/-- The clock, the frames and the queues. -/
def clockStored (s : State) : Clock × Sparse Frame × Sparse Queue := (s.clock, s.frames, s.queues)

theorem shows_clockStored : Shows clockStored [] := shows_of_rfl fun _ _ _ _ _ => rfl

theorem showsNoUp_clockStored : ShowsNoUp clockStored := by
  have sent := (⟨fun _ _ => rfl, fun _ _ => rfl⟩ : ShowsNoKettle clockStored).kettleSend
  exact ⟨view_mailboxKettleUp sent fun _ _ => rfl, shows_clockStored.divergent List.not_mem_nil List.not_mem_nil,
    fun s => (sent (resyncBegun s) 4 0 false (padded [])).trans (shows_clockStored.tally List.not_mem_nil (unsynced s))⟩

theorem rd_upRaised (s : State) {a : Nat} (h : a ≠ 0x6050) (hr : a ≠ 0x6010) : rd (upRaised s) a = rd s a :=
  (rd_raise_other _ .twin 3 hr).trans (regsBut_kettleEnter _ 3 a (by simp [h]))

theorem kettleState_upRaised (s : State) : kettleState (upRaised s) = 3 :=
  (fld_raise_other _ .twin 3 31 29 (by decide)).trans (kettleState_kettleEnter _ (by decide))

theorem raised_upRaised (s : State) : flag (upRaised s) 0x6010 3 = true :=
  (flag_raise _ .twin 3 0x6010 3 (by decide)).trans (if_pos ⟨rfl, rfl⟩)

theorem regsBut_upRaised (s : State) : RegsBut [0x6050, 0x6010] s (upRaised s) := fun a ha => by
  simp only [List.mem_cons, List.not_mem_nil, or_false, not_or] at ha
  exact rd_upRaised s ha.1 ha.2

/-- An active device with no held message and the mate's image does no more than open the session. -/
theorem kettleReachUp_of_active {s : State} (h3 : role s = 3) (hf : channelFull s 11 = false) : kettleReachUp s true = upRaised s := by
  have empty : channelFull (upRaised s) 11 = false := (congrArg (bitAt · 31) (rd_upRaised s (by decide) (by decide))).trans hf
  have active : role (upRaised s) = 3 := (congrArg (bits · 31 29) (rd_upRaised s (by decide) (by decide))).trans h3
  have quiet : mailboxKettleUp (upRaised s) = upRaised s := if_neg fun e => by rw [empty] at e; exact Bool.false_ne_true e.1
  rw [kettleReachUp_eq, quiet]
  exact if_neg fun e => absurd (active.symm.trans e.1) (by decide)

theorem exec_kettleUp_of_good {s : State} (h2 : kettleState s = 2) (hd : s.kettle.helloDone = true) (same : Bool) :
    exec (.kettleUp true true same) s = .next (kettleReachUp s same) :=
  congrArg done ((if_neg (by rw [hd]; simp [h2])).trans (if_neg (by decide)))

theorem exec_kettleUp_of_bad {s : State} {chain owner : Bool} (h2 : kettleState s = 2) (hd : s.kettle.helloDone = true)
    (h : (chain && owner) = false) (same : Bool) : exec (.kettleUp chain owner same) s = .next (kettleFail s 3) := by
  have bad : !chain ∨ !owner := by cases chain <;> simp_all
  exact congrArg done ((if_neg (by rw [hd]; simp [h2])).trans (if_pos bad))

/-! ### Down -/

theorem view_mailboxKettleDown {α : Type} {F : State → α} (hw : ∀ s a v, a / 0x1000 = 7 → F (wr s a v) = F s)
    (hc : ∀ s x, F { s with channels := x } = F s) (ho : ∀ s o, F { s with out := o } = F s) (s : State) :
    F (mailboxKettleDown s) = F s := by
  have mark : ∀ u c k, c < 12 → F (channelMark u c k) = F u := fun u c k h =>
    (view_ite ((hw _ _ _ rfl).trans (ho _ _)) rfl).trans (hw u _ _ (channelStatus_page h))
  have discard : ∀ u c reason, c < 12 → F (discardMessage u c reason) = F u := fun u c reason h =>
    (mark _ _ _ h).trans ((hw _ _ _ (channelStatus_page h)).trans ((hw _ _ _ (channelStatus_page h)).trans (hc _ _)))
  have down : ∀ u, F (receiversDown u [11]) = F u := fun u => view_ite ((mark _ _ _ (by decide)).trans (hc _ _)) rfl
  exact (down _).trans ((view_ite (discard _ _ _ (by decide)) (hc _ _)).trans (view_ite (discard _ _ _ (by decide)) rfl))

theorem rd_downReported (s : State) {a : Nat} (h2 : a / 0x1000 ≠ 2) (hd : a ≠ 0xD010) : rd (downReported s) a = rd (raise s .twin 4) a :=
  rd_report_other _ _ _ _ h2 hd

/-- A register outside the mailbox page is beside what the mailbox does. -/
theorem rd_mailboxKettleDown (s : State) {a : Nat} (h : a / 0x1000 ≠ 7) : rd (mailboxKettleDown s) a = rd s a :=
  view_mailboxKettleDown (F := fun s => rd s a) (showsNoMail_rd h).word (fun _ _ => rfl) (fun _ _ => rfl) s

theorem rd_linkLost (s : State) {a : Nat} (h7 : a / 0x1000 ≠ 7) (h2 : a / 0x1000 ≠ 2) (hd : a ≠ 0xD010) (hi : a ≠ 0x6010) :
    rd (linkLost s) a = rd s a :=
  (rd_mailboxKettleDown _ h7).trans ((rd_downReported s h2 hd).trans (rd_raise_other s .twin 4 hi))

theorem raised_linkLost (s : State) : flag (linkLost s) 0x6010 4 = true :=
  (congrArg (bitAt · 4) ((rd_mailboxKettleDown _ (by decide)).trans (rd_downReported s (by decide) (by decide)))).trans
    ((flag_raise s .twin 4 0x6010 4 (by decide)).trans (if_pos ⟨rfl, rfl⟩))

/-- Kettle, the twin and the clock. -/
def linkState (s : State) : Kettle × Twin × Clock := (s.kettle, s.twin, s.clock)

theorem linkState_iff {s t : State} : linkState t = linkState s ↔ t.kettle = s.kettle ∧ t.twin = s.twin ∧ t.clock = s.clock := by
  simp only [linkState, Prod.mk.injEq]

theorem shows_linkState : Shows linkState [] := shows_of_rfl fun _ _ _ _ _ => rfl

theorem linkState_linkLost (s : State) : linkState (linkLost s) = linkState s :=
  (view_mailboxKettleDown (F := linkState) (fun _ _ _ _ => rfl) (fun _ _ => rfl) (fun _ _ => rfl) _).trans
    ((shows_linkState.report _ _ _ _).trans (shows_linkState.raise (p := .twin) List.not_mem_nil s 4))

theorem kettleOn_linkLost (s : State) : kettleOn (linkLost s) = kettleOn s :=
  kettleOn_of_words (rd_linkLost s (by decide) (by decide) (by decide) (by decide)) (rd_linkLost s (by decide) (by decide) (by decide) (by decide))

theorem kettleState_linkLost (s : State) : kettleState (linkLost s) = kettleState s :=
  congrArg (bits · 31 29) (rd_linkLost s (by decide) (by decide) (by decide) (by decide))

/-- Kettle trains again while it is enabled. -/
def trainedAgain (s : State) : State := if kettleOn s then kettleEnter s 1 else s

theorem kettleRestart_of_down {s : State} (h : kettleState s ≠ 3) (cause : Nat) : kettleRestart s cause = trainedAgain (linkLeft s 0 cause) := by
  rw [kettleRestart, kettleLeave_of_down h]
  rfl

theorem kettleRestart_of_up {s : State} (h : kettleState s = 3) (cause : Nat) :
    kettleRestart s cause = trainedAgain (linkLost (linkLeft s 0 cause)) := by
  have left := (kettleLeave_eq s 0 cause).trans (if_pos (by rw [kettleUp, h]; rfl))
  rw [kettleRestart, left]
  rfl

theorem kettleState_trainedAgain {s : State} (h : kettleState s = 0) : kettleState (trainedAgain s) = if kettleOn s then 1 else 0 := by
  unfold trainedAgain
  split
  · exact kettleState_kettleEnter s (by decide)
  · exact h

theorem kettle_trainedAgain {s : State} {n : Nat} (h : s.kettle = { since := n }) (hn : now s = n) : (trainedAgain s).kettle = { since := n } := by
  unfold trainedAgain
  split
  · have entered : (kettleEnter s 1).kettle = { s.kettle with since := now s } := rfl
    rw [entered, h, hn]
  · exact h

theorem twin_trainedAgain (s : State) : (trainedAgain s).twin = s.twin := view_ite (F := State.twin) rfl rfl

theorem version_trainedAgain (s : State) : fld (trainedAgain s) 0x6050 7 0 = fld s 0x6050 7 0 :=
  view_ite (F := fun u => fld u 0x6050 7 0) (status_kettleEnter s 1 (by decide)) rfl

theorem regsBut_trainedAgain (s : State) : RegsBut [0x6050] s (trainedAgain s) := by
  unfold trainedAgain
  split
  · exact regsBut_kettleEnter s 1
  · exact RegsBut.of_regs_eq _ rfl

theorem besideLink_trainedAgain (s : State) : besideLink (trainedAgain s) = besideLink s := view_ite (F := besideLink) rfl rfl

theorem exec_kettleDown_of_on {s : State} (h : kettleState s ≠ 0 ∧ kettleState s ≠ 4) : exec .kettleDown s = .next (kettleRestart s 0) :=
  congrArg done (if_neg (not_or.mpr h))

/-- A record that is bad is counted and reported (R271). -/
def badRecord (s : State) : State := report (count s 24 1) 0x0602 .twin []

theorem kettleState_badRecord (s : State) : kettleState (badRecord s) = kettleState s :=
  (congrArg (bits · 31 29) (rd_report_other (count s 24 1) _ _ _ (by decide) (by decide))).trans (fld_of_regs_eq (count_regs s 24 1) _ _ _)

theorem linkState_badRecord (s : State) : linkState (badRecord s) = linkState s :=
  (shows_linkState.report _ _ _ _).trans (shows_linkState.count s 24 1)

/-- What a link that was not UP shows after its loss. -/
theorem kettleDown_of_bringUp {s : State} (h : kettleState s ≠ 3) : kettleState (kettleRestart s 0) = (if kettleOn s then 1 else 0) ∧
    fld (kettleRestart s 0) 0x6050 7 0 = 0 ∧ (kettleRestart s 0).kettle = { since := now s } ∧ RegsBut [0x6050] s (kettleRestart s 0) ∧
    besideLink (kettleRestart s 0) = besideLink s := by
  have beside := besideLink_linkLeft s 0 0
  have clock : now (linkLeft s 0 0) = now s := (congrArg (fun u : State => now u) beside :)
  rw [kettleRestart_of_down h, kettleState_trainedAgain (kettleState_linkLeft s 0 (by decide)), kettleOn_linkLeft]
  exact ⟨rfl, (version_trainedAgain _).trans (version_linkLeft s 0 0), kettle_trainedAgain (kettle_linkLeft s 0 0) clock,
    (regsBut_trainedAgain _).trans (regsBut_linkLeft s 0 0), (besideLink_trainedAgain _).trans beside⟩

/-- What a link that was UP shows after its loss. -/
theorem kettleDown_of_up {s : State} (h : kettleState s = 3) : kettleState (kettleRestart s 0) = (if kettleOn s then 1 else 0) ∧
    flag (kettleRestart s 0) 0x6010 4 = true ∧ (kettleRestart s 0).kettle = { since := now s } ∧
    (kettleRestart s 0).twin.mateSynced = false ∧ (kettleRestart s 0).twin.finalApplied = false := by
  obtain ⟨kettle, twin, clock⟩ := linkState_iff.mp (linkState_linkLost (linkLeft s 0 0))
  have left : now (linkLeft s 0 0) = now s := (congrArg (fun u : State => now u) (besideLink_linkLeft s 0 0) :)
  have down := (kettleState_linkLost (linkLeft s 0 0)).trans (kettleState_linkLeft s 0 (by decide))
  rw [kettleRestart_of_up h, kettleState_trainedAgain down, kettleOn_linkLost, kettleOn_linkLeft, twin_trainedAgain, twin]
  exact ⟨rfl, (congrArg (bitAt · 4) (regsBut_trainedAgain _ 0x6010 (by decide))).trans (raised_linkLost _),
    kettle_trainedAgain (kettle.trans (kettle_linkLeft s 0 0)) ((congrArg Clock.steady clock).trans left), rfl, rfl⟩

theorem clockStored_upRaised (s : State) : clockStored (upRaised s) = clockStored s :=
  shows_clockStored.raise (p := .twin) List.not_mem_nil (sessionOpened s) 3

theorem kettle_upRaised (s : State) : (upRaised s).kettle = (sessionOpened s).kettle :=
  (shows_of_rfl fun _ _ _ _ _ => rfl : Shows State.kettle []).raise (p := .twin) List.not_mem_nil (sessionOpened s) 3

/-- The state but for its registers, Kettle, the draws and what was sent. -/
def besideSession (s : State) : State := { s with regs := [], kettle := {}, freeCount := 0, out := [] }

theorem eq_of_besideSession {s t : State} (h : besideSession t = besideSession s) :
    t = { s with regs := t.regs, kettle := t.kettle, out := t.out, freeCount := t.freeCount } :=
  congrArg (fun u : State => { u with regs := t.regs, kettle := t.kettle, out := t.out, freeCount := t.freeCount }) h

theorem besideSession_upRaised (s : State) : besideSession (upRaised s) = besideSession s :=
  rfl

/-- Settles O29: each step of the bring-up is the entry of its state, and each end the loss of the link. -/
theorem kettleComesUp : Obligations.KettleComesUp := by
  refine ⟨fun s src h h0 hc => ?_, fun s h1 => ?_, fun s h1 hb => ?_, fun s seatB v l h2 hv hs => ?_, fun s seatB v l h2 hv => ?_,
    fun s l v seatB h2 hv hs => ?_, fun s same h2 hd => ?_, fun s h2 hd h3 hf => ?_, fun s chain owner same h2 hd hb => ?_,
    fun s h4 ho hb => ?_, fun s h => ?_, fun s h3 => ?_, fun s h => congrArg done (if_pos h), fun s h => ?_⟩
  · have hexec := (exec_kettleEnable h).trans (congrArg done (kettleSwitch_of_down (s := dropHeld s src 0x6044) h0 hc))
    exact ⟨_, hexec, flag_kettleEnabled _, kettleState_kettleEnabled _, since_kettleEnabled _,
      (regsBut_kettleEnabled _).trans (RegsBut.of_regs_eq _ rfl), kettleEnabled_frame _⟩
  · have hexec : exec .kettleTrained s = .next (sendHello (kettleEnter s 2) []) := congrArg done (if_pos h1)
    have regs : (sendHello (kettleEnter s 2) []).regs = (kettleEnter s 2).regs := rfl
    exact ⟨_, hexec, (fld_of_regs_eq regs _ _ _).trans (kettleState_kettleEnter s (by decide)),
      (RegsBut.of_regs_eq _ regs).trans (regsBut_kettleEnter s 2), out_sendHello_kettleEnter s⟩
  · exact ⟨_, congrArg done (if_pos ⟨h1, hb⟩), kettleFail_of_down (by rw [h1]; decide) (by decide) (by decide)⟩
  · have bit : bitAt v.toNat 1 = true := by rw [bitAt_testBit, testBit_word, hv]
    obtain ⟨regs, kettle⟩ := takeHello_good h2 bit hs l
    exact ⟨_, rfl, kettle, (fld_of_regs_eq regs 0x6050 7 0).trans (fld_setFld_same s 0x6050 7 0 1 (by decide) (by decide)),
      (fld_of_regs_eq regs 0x6050 31 29).trans
        ((fld_setFld_other s 0x6050 7 0 1 0x6050 31 29 (by decide) (by decide) (.inr (.inr (by decide)))).trans h2),
      (RegsBut.of_regs_eq _ regs).trans ((RegsBut.of_regs_eq _ (t := s) rfl).wr (by decide) _)⟩
  · have bit : bitAt v.toNat 1 = false := by rw [bitAt_testBit, testBit_word, hv]
    obtain ⟨state, cause, regs, -⟩ := kettleFail_of_down (s := s) (by rw [h2]; decide) (cause := 2) (by decide) (by decide)
    exact ⟨_, congrArg done (takeHello_of_version h2 bit seatB l), state, cause, regs⟩
  · have bit : bitAt v.toNat 1 = true := by rw [bitAt_testBit, testBit_word, hv]
    obtain ⟨state, cause, regs, -⟩ := kettleFail_of_down (s := s) (by rw [h2]; decide) (cause := 4) (by decide) (by decide)
    exact ⟨_, congrArg done (takeHello_of_seat h2 bit hs l), state, cause, regs⟩
  · have stored := (showsNoUp_clockStored.kettleReachUp s same).trans (clockStored_upRaised s)
    simp only [clockStored, Prod.mk.injEq] at stored
    obtain ⟨clock, frames, queues⟩ := stored
    exact ⟨_, exec_kettleUp_of_good h2 hd same, rfl, (showsNoUp_kettleState.kettleReachUp s same).trans (kettleState_upRaised s),
      (showsNoUp_raised.kettleReachUp s same).trans (raised_upRaised s),
      (showsNoUp_session.kettleReachUp s same).trans (congrArg Kettle.session (kettle_upRaised s)), clock, queues, frames⟩
  · have kettle := kettle_upRaised s
    exact ⟨_, (exec_kettleUp_of_good h2 hd true).trans (congrArg done (kettleReachUp_of_active h3 hf)), congrArg Kettle.unacked kettle,
      congrArg Kettle.waiting kettle, congrArg Kettle.nextSeq kettle, congrArg Kettle.expected kettle, regsBut_upRaised s,
      eq_of_besideSession (besideSession_upRaised s)⟩
  · obtain ⟨state, cause, regs, -⟩ := kettleFail_of_down (s := s) (by rw [h2]; decide) (cause := 3) (by decide) (by decide)
    exact ⟨_, exec_kettleUp_of_bad h2 hd hb same, state, cause, regs⟩
  · have hexec : exec .kettleFailedRetry s = .next (kettleEnter s 1) := congrArg done (if_pos ⟨h4, ho, hb⟩)
    exact ⟨_, hexec, settled_execKettleFailedRetry s _ hexec, kettleState_kettleEnter s (by decide), regsBut_kettleEnter s 1⟩
  · obtain ⟨state, version, kettle, regs, beside⟩ := kettleDown_of_bringUp (s := s) (by omega)
    exact ⟨_, exec_kettleDown_of_on (by omega), state, version, kettle, regs, eq_of_besideLink beside⟩
  · obtain ⟨state, raised, kettle, synced, final⟩ := kettleDown_of_up h3
    obtain ⟨-, queues, frames⟩ := bystanders_iff.mp (showsNoLink_bystanders.kettleRestart s 0)
    exact ⟨_, exec_kettleDown_of_on (by omega), rfl, state, raised, kettle, synced, final, queues, frames⟩
  · have hexec : exec .kettleRecordBad s = .next (badRecord s) := congrArg done (if_pos h)
    obtain ⟨kettle, twin, -⟩ := linkState_iff.mp (linkState_badRecord s)
    exact ⟨_, hexec, settled_execKettleRecordBad s _ hexec, rfl, kettle, twin, kettleState_badRecord s⟩

end Sys2Proof.Machine
end

section
/-! The windows of Kettle and the records of the mate (R271, R272, R274, R279, R283, R285, R359). -/

namespace Sys2Proof.Machine

/-! ### Acceptance (R272) -/

/-- The record expected has come, and is acknowledged. -/
def accepted (s : State) (seq : Nat) : State :=
  sendAck { s with kettle := { s.kettle with expected := (seq + 1) % 2 ^ 23 } } false

theorem kettleAccept_of_expected {s : State} {seq : Nat} (hk : kettleUp s = true) (h : seq = s.kettle.expected) (act : State → State) :
    kettleAccept s seq act = act (accepted s seq) := (if_neg (by rw [hk]; decide)).trans (if_pos h)

theorem kettleAccept_of_gap {s : State} {seq : Nat} (h : seq ≠ s.kettle.expected) (act : State → State) : kettleAccept s seq act =
    if !kettleUp s then s else sendAck s ((seq + 2 ^ 23 - s.kettle.expected) % 2 ^ 23 < 2 ^ 22) := by
  unfold kettleAccept
  rw [if_neg h]

/-- A record that comes out of order is acted upon by nothing. -/
theorem view_kettleAccept_of_gap {α : Type} {F : State → α} (ha : ∀ s nak, F (sendAck s nak) = F s) {s : State} {seq : Nat}
    (h : seq ≠ s.kettle.expected) (act : State → State) : F (kettleAccept s seq act) = F s := by
  rw [kettleAccept_of_gap h]
  exact view_ite rfl (ha s _)

/-- What an acknowledgement leaves alone: the next record expected, the registers, the tables and the twin. -/
def unanswered (s : State) : Nat × Sparse Word32 × Sparse Image × Twin := (s.kettle.expected, s.regs, s.tabs, s.twin)

theorem unanswered_iff {s t : State} : unanswered t = unanswered s ↔
    t.kettle.expected = s.kettle.expected ∧ t.regs = s.regs ∧ t.tabs = s.tabs ∧ t.twin = s.twin := by
  simp only [unanswered, Prod.mk.injEq]

theorem unanswered_sendAck (s : State) (nak : Bool) : unanswered (sendAck s nak) = unanswered s := rfl

theorem regs_accepted (s : State) (seq : Nat) : (accepted s seq).regs = s.regs := rfl

theorem expected_accepted (s : State) (seq : Nat) : (accepted s seq).kettle.expected = (seq + 1) % 2 ^ 23 := rfl

theorem standsBy_accepted (s : State) (seq : Nat) : standsBy (accepted s seq) = standsBy s := by
  have kept : role (accepted s seq) = role s := fld_of_regs_eq (regs_accepted s seq) 0x604C 31 29
  rw [standsBy, kept, standsBy]

/-- A record of the mate that is in order is its action on the accepted state. -/
theorem done_kettleAccept {s u : State} {seq : Nat} {ws : List Nat} (hl : ws.length = 12) (hk : kettleUp s = true)
    (h : seq = s.kettle.expected) (hu : u = accepted s seq) (act : State → State) :
    sized (decide (ws.length = 12)) (kettleAccept s seq act) = .next (act u) :=
  (sized_of hl _).trans (congrArg done ((kettleAccept_of_expected hk h act).trans (congrArg act hu.symm)))

/-! ### Acknowledgement -/

/-- The first `n` unacknowledged records are acknowledged. -/
def freed (s : State) (n : Nat) : State := { s with kettle := { s.kettle with unacked := s.kettle.unacked.drop n } }

/-- The first `n` records are acknowledged: the END among them shows its cycle, and waiting records take the free slots. -/
def acknowledgedFirst (s : State) (n : Nat) (nak : Bool) : State :=
  let u := (s.kettle.unacked.take n).foldl (fun s r => if r.head / 2 ^ 24 = 0x3F then wr s 0x605C (nth r.words 0) else s) (freed s n)
  let u := if nak then retransmit u else u
  kettleFill u.kettle.waiting.length u

theorem acknowledge_of_found {s : State} {upTo k : Nat} (hk : kettleUp s = true)
    (h : s.kettle.unacked.findIdx? (fun r => r.seq == upTo) = some k) (nak : Bool) :
    acknowledge s upTo nak = acknowledgedFirst s (k + 1) nak := by
  unfold acknowledge
  rw [if_neg (by rw [hk]; decide), h]
  rfl

theorem acknowledge_of_unknown {s : State} {upTo : Nat} (hk : kettleUp s = true)
    (h : s.kettle.unacked.findIdx? (fun r => r.seq == upTo) = none) (nak : Bool) : acknowledge s upTo nak = acknowledgedFirst s 0 nak := by
  unfold acknowledge
  rw [if_neg (by rw [hk]; decide), h]
  rfl

/-- With no END among the records acknowledged and none waiting, an ACK frees the records it names. -/
theorem acknowledgedFirst_of_plain {s : State} {n : Nat} (hw : s.kettle.waiting = [])
    (hp : ∀ r ∈ s.kettle.unacked.take n, r.head / 2 ^ 24 ≠ 0x3F) : acknowledgedFirst s n false = freed s n := by
  have ends : (s.kettle.unacked.take n).foldl (fun s r => if r.head / 2 ^ 24 = 0x3F then wr s 0x605C (nth r.words 0) else s) (freed s n) =
      freed s n := foldl_of_fixed fun r hr => if_neg (hp r hr)
  have none_waits : (freed s n).kettle.waiting.length = 0 := congrArg List.length hw
  unfold acknowledgedFirst
  dsimp only
  rw [ends, if_neg Bool.false_ne_true, none_waits, kettleFill]

/-! ### Retransmission -/

/-- Every unacknowledged record goes out again. -/
def sentAgain (s : State) : List KettleRecord := s.kettle.unacked.map fun r => { r with sends := r.sends + 1, sentAt := now s }

def retransmitted (s : State) : State :=
  count { s with
    kettle := { s.kettle with unacked := sentAgain s },
    out := s.out ++ (sentAgain s).map fun r => .kettle (r.head + r.seq) r.words } 23 (sentAgain s).length

theorem retransmit_eq (s : State) :
    retransmit s = if (sentAgain s).any fun r => 16 ≤ r.sends then kettleRestart (retransmitted s) 5 else retransmitted s := rfl

theorem retransmit_of_few {s : State} (h : ∀ x ∈ s.kettle.unacked, x.sends + 1 < 16) : retransmit s = retransmitted s := by
  have few : ((sentAgain s).any fun r => decide (16 ≤ r.sends)) = false := by
    rw [List.any_eq_false]
    intro r hr
    obtain ⟨x, hx, rfl⟩ := List.mem_map.mp hr
    have := h x hx
    simp only [decide_eq_true_eq]
    omega
  rw [retransmit_eq, few]
  rfl

theorem unacked_retransmitted (s : State) : (retransmitted s).kettle.unacked = sentAgain s :=
  view_count (F := fun u => u.kettle.unacked) (fun _ _ => rfl) _ _ _

theorem out_retransmitted (s : State) :
    (retransmitted s).out = s.out ++ s.kettle.unacked.map fun x => .kettle (x.head + x.seq) x.words := by
  have words : (sentAgain s).map (fun r => Out.kettle (r.head + r.seq) r.words) =
      s.kettle.unacked.map fun x => .kettle (x.head + x.seq) x.words := List.map_map
  rw [← words]
  exact view_count (F := State.out) (fun _ _ => rfl) _ _ _

theorem regs_retransmitted (s : State) : (retransmitted s).regs = s.regs := count_regs _ _ _

theorem exec_kettleRetransmitTimer_of_due {s : State} {r : KettleRecord} {rest : List KettleRecord} (hr : s.kettle.unacked = r :: rest)
    (hk : kettleUp s = true) (hd : r.sentAt + 10000 ≤ now s) : exec .kettleRetransmitTimer s = .next (retransmit s) := by
  show execKettleRetransmitTimer s = _
  unfold execKettleRetransmitTimer
  rw [hr]
  exact congrArg done (if_pos ⟨hk, hd⟩)

/-! ### Heartbeats (R274) -/

/-- The state but for its registers, Kettle, the twin and what was sent. -/
def besideRecord (s : State) : State := { s with regs := [], kettle := {}, twin := {}, out := [] }

theorem eq_of_besideRecord {s t : State} (h : besideRecord t = besideRecord s) :
    t = { s with regs := t.regs, kettle := t.kettle, twin := t.twin, out := t.out } :=
  congrArg (fun u : State => { u with regs := t.regs, kettle := t.kettle, twin := t.twin, out := t.out }) h

theorem besideRecord_accepted (s : State) (seq : Nat) : besideRecord (accepted s seq) = besideRecord s := rfl

/-- The clock offset, where every time of the exchange is known. -/
def offsetShown (s : State) (ws : List Nat) : State :=
  let sent := (nth ws 1, nth ws 2)
  let got := (nth ws 3, nth ws 4)
  let own := pairedSent s
  let off := (timeDiff sent s.twin.heardAt + timeDiff got own) / 2
  if s.twin.heardAt ≠ (0, 0) ∧ own ≠ (0, 0) ∧ got ≠ (0, 0) then
    wr s 0x6060 (unsigned (clampInt (-(2 ^ 31)) (2 ^ 31 - 1) off) 32) else s

/-- What a heartbeat says: no beat is missed, the mate's epoch, ARM and SYNCED; the open deltas grow older. -/
def beaten (s : State) (ws : List Nat) (rx : Nat × Nat) : State :=
  let u := setFld (setFld s 0x604C 19 18 0) 0x6064 31 16 (bits (nth ws 5) 15 0)
  { u with twin := { u.twin with
    heard := true, heardAt := rx, mateArm := bitAt (nth ws 5) 28, mateSynced := bitAt (nth ws 5) 27
    staged := u.twin.staged.map fun d => { d with age := d.age + 1 } } }

theorem takeHeartbeat_eq (s : State) (ws : List Nat) (rx : Nat × Nat) : takeHeartbeat s ws rx = beaten (offsetShown s ws) ws rx := rfl

theorem regs_beaten (s : State) (ws : List Nat) (rx : Nat × Nat) :
    (beaten s ws rx).regs = (setFld (setFld s 0x604C 19 18 0) 0x6064 31 16 (bits (nth ws 5) 15 0)).regs := rfl

theorem besideRecord_beaten (s : State) (ws : List Nat) (rx : Nat × Nat) : besideRecord (beaten s ws rx) = besideRecord s := rfl

theorem kettle_beaten (s : State) (ws : List Nat) (rx : Nat × Nat) : (beaten s ws rx).kettle = s.kettle := rfl

theorem heard_takeHeartbeat (s : State) (ws : List Nat) (rx : Nat × Nat) : (takeHeartbeat s ws rx).twin.heard = true := rfl

theorem heardAt_takeHeartbeat (s : State) (ws : List Nat) (rx : Nat × Nat) : (takeHeartbeat s ws rx).twin.heardAt = rx := rfl

theorem regsBut_takeHeartbeat (s : State) (ws : List Nat) (rx : Nat × Nat) :
    RegsBut [0x604C, 0x6060, 0x6064] s (takeHeartbeat s ws rx) := by
  have offset : RegsBut [0x604C, 0x6060, 0x6064] s (offsetShown s ws) := by
    unfold offsetShown
    dsimp only
    split
    · exact (RegsBut.of_regs_eq _ (t := s) rfl).wr (by decide) _
    · exact RegsBut.of_regs_eq _ rfl
  rw [takeHeartbeat_eq]
  exact (RegsBut.of_regs_eq _ (regs_beaten _ ws rx)).trans ((offset.wr (by decide) _).wr (by decide) _)

theorem missed_takeHeartbeat (s : State) (ws : List Nat) (rx : Nat × Nat) : fld (takeHeartbeat s ws rx) 0x604C 19 18 = 0 := by
  rw [takeHeartbeat_eq, fld_of_regs_eq (regs_beaten _ ws rx) 0x604C 19 18,
    fld_setFld_other _ 0x6064 31 16 _ 0x604C 19 18 (by decide) (by decide) (.inl (by decide)),
    fld_setFld_same _ 0x604C 19 18 0 (by decide) (by decide), Nat.zero_mod]

theorem besideRecord_takeHeartbeat (s : State) (ws : List Nat) (rx : Nat × Nat) :
    besideRecord (takeHeartbeat s ws rx) = besideRecord s := by
  rw [takeHeartbeat_eq, besideRecord_beaten]
  exact view_ite (F := besideRecord) rfl rfl

theorem kettle_takeHeartbeat (s : State) (ws : List Nat) (rx : Nat × Nat) : (takeHeartbeat s ws rx).kettle = s.kettle := by
  rw [takeHeartbeat_eq, kettle_beaten]
  exact view_ite (F := State.kettle) rfl rfl

/-! ### Messages (R359) -/

/-- The twin and the clock. -/
def twinClock (s : State) : Twin × Clock := (s.twin, s.clock)

theorem showsNoMail_twinClock : ShowsNoMail twinClock := showsNoMail_of_rfl fun _ _ _ _ _ => rfl

theorem ShowsNoMail.emptySlot {α : Type} {F : State → α} (h : ShowsNoMail F) {c : Nat} (hc : c < 12) (s : State) :
    F (emptySlot s c) = F s := (h.word _ _ _ (channelStatus_page hc)).trans (h.channels s _)

theorem ShowsNoMail.discardMessage {α : Type} {F : State → α} (h : ShowsNoMail F) {c : Nat} (hc : c < 12) (s : State) (reason : Nat) :
    F (discardMessage s c reason) = F s :=
  (h.channelMark hc _ _).trans ((h.word _ _ _ (channelStatus_page hc)).trans (h.emptySlot hc s))

theorem ShowsNoMail.deliverMate {α : Type} {F : State → α} (h : ShowsNoMail F) (s : State) (words : List Nat) :
    F (deliverMate s words) = F s := (h.postMessage (c := 5) (by decide) _ _).trans (h.word _ _ _ (channelStatus_page (c := 5) (by decide)))

theorem ShowsNoMail.takeMailHalf {α : Type} {F : State → α} (h : ShowsNoMail F) (s : State) (sub : Nat) (ws : List Nat) :
    F (takeMailHalf s sub ws) = F s :=
  view_ite (h.kettle s _) (view_ite rfl ((h.deliverMate _ _).trans (h.kettle s _)))

theorem ShowsNoMail.takeMail {α : Type} {F : State → α} (h : ShowsNoMail F) (s : State) (sub : Nat) (ws : List Nat) :
    F (takeMail s sub ws) = F s := by
  unfold Machine.takeMail
  split
  · exact h.takeMailHalf s 0 ws
  · exact h.takeMailHalf s 1 ws
  · exact view_ite ((view_ite (h.channelMark (by decide) _ _) rfl).trans (h.emptySlot (by decide) s)) rfl
  · exact view_ite ((h.kettleSend _ _ _ _ _).trans (h.emptySlot (by decide) s)) rfl
  · exact view_ite (h.discardMessage (by decide) s _) rfl
  · rfl

/-! ### Health records (R285) -/

/-- What the mate says of its health. -/
def mateHealth (s : State) (ws : List Nat) : State :=
  { s with twin := { s.twin with mateFailed := bits (nth ws 6) 23 16 ≠ 0 || bits (nth ws 6) 15 13 ≠ 0 } }

/-- Kettle, and whether the mate has failed. -/
def healthSeen (s : State) : Kettle × Bool := (s.kettle, s.twin.mateFailed)

/-- The next SEQUENCE of a health record is taken. -/
def healthNumbered (s : State) : State := { s with twin := { s.twin with healthSeq := (s.twin.healthSeq + 1) % 2 ^ 32 } }

theorem healthToHost_of_on {s : State} (h : flag s 0x6040 28 = true) (mate : Bool) (body : List Nat) : healthToHost s mate body =
    if eventRoom (healthNumbered s) 4 64 then
      eventWrite (healthNumbered s) 4 ((2 ^ 28 + bit mate * 2 ^ 27) :: body ++ [devSub s, devSec s, s.twin.healthSeq])
    else healthNumbered s := if_neg (by rw [h]; decide)

theorem healthToHost_of_off {s : State} (h : flag s 0x6040 28 = false) (mate : Bool) (body : List Nat) : healthToHost s mate body = s :=
  if_pos (by rw [h]; rfl)

theorem healthSeen_numbered (s : State) : healthSeen (healthNumbered s) = healthSeen s := rfl

theorem healthSeen_of_besideRing {s t : State} (h : besideRing t = besideRing s) : healthSeen t = healthSeen s :=
  (congrArg (fun u : State => (u.kettle, u.twin.mateFailed)) h :)

theorem healthSeen_healthToHost (s : State) (mate : Bool) (body : List Nat) : healthSeen (healthToHost s mate body) = healthSeen s := by
  cases h : flag s 0x6040 28
  · rw [healthToHost_of_off h]
  · rw [healthToHost_of_on h]
    split
    · exact (healthSeen_of_besideRing (besideRing_eventWrite _ 4 _)).trans (healthSeen_numbered s)
    · exact healthSeen_numbered s

/-! ### The commands -/

/-- Settles O30: a window frees and repeats what it holds, and a record in order is its action on the accepted state. -/
theorem kettleDeliversRecordsInOrder : Obligations.KettleDeliversRecordsInOrder := by
  refine ⟨fun s act hk => kettleAccept_of_expected hk rfl act, fun s seq act h => ?_, fun s n hk hw hn => ?_, fun s n k hk hw hp hn => ?_,
    fun s r rest hr hk hd hf => ?_, fun s u seq ws hl hk h hu => ⟨fun a b => ?_, fun cp sub => ?_, fun cp => ?_, fun sub => ?_, ?_,
      fun sub => ?_⟩⟩
  · obtain ⟨expected, regs, tabs, twin⟩ := unanswered_iff.mp (view_kettleAccept_of_gap unanswered_sendAck h act)
    exact ⟨_, rfl, expected, regs, tabs, twin⟩
  · exact congrArg done ((acknowledge_of_unknown hk hn false).trans
      (acknowledgedFirst_of_plain (n := 0) hw fun _ hr => absurd hr List.not_mem_nil))
  · exact ⟨_, congrArg done ((acknowledge_of_found hk hn false).trans
      (acknowledgedFirst_of_plain hw fun r hr => hp r (List.mem_of_mem_take hr))), rfl, rfl⟩
  · exact ⟨_, (exec_kettleRetransmitTimer_of_due hr hk hd).trans (congrArg done (retransmit_of_few hf)), unacked_retransmitted s,
      out_retransmitted s, regs_retransmitted s⟩
  · have hexec : exec (.heartbeat seq ws a b) s = .next (takeHeartbeat u ws (a, b)) := done_kettleAccept hl hk h hu _
    have regs : u.regs = s.regs := hu ▸ regs_accepted s seq
    have beside : besideRecord u = besideRecord s := hu ▸ besideRecord_accepted s seq
    have expected : u.kettle.expected = (seq + 1) % 2 ^ 23 := hu ▸ expected_accepted s seq
    exact ⟨_, hexec, settled_execHeartbeat seq ws a b s _ hexec, rfl, (congrArg Kettle.expected (kettle_takeHeartbeat _ _ _)).trans expected,
      heard_takeHeartbeat _ _ _, heardAt_takeHeartbeat _ _ _, missed_takeHeartbeat _ _ _,
      (regsBut_takeHeartbeat _ _ _).trans (RegsBut.of_regs_eq _ regs), eq_of_besideRecord ((besideRecord_takeHeartbeat _ _ _).trans beside)⟩
  · have hexec : exec (.delta seq cp sub ws) s = .next (takeDelta u cp sub ws) := done_kettleAccept hl hk h hu _
    have stands : standsBy u = standsBy s := hu ▸ standsBy_accepted s seq
    exact ⟨_, hexec, settled_execDelta seq cp sub ws s _ hexec, rfl, fun hs h6 h7 =>
      (if_neg (by rw [stands, hs]; exact Bool.false_ne_true)).trans (if_neg (not_or.mpr ⟨h6, h7⟩))⟩
  · have hexec : exec (.endRecord seq cp ws) s = .next (if standsBy u then stageEnd u cp (nth ws 0) (bitAt (nth ws 1) 31) (nth ws 2) else u) :=
      done_kettleAccept hl hk h hu fun s => if standsBy s then stageEnd s cp (nth ws 0) (bitAt (nth ws 1) 31) (nth ws 2) else s
    have stands : standsBy u = standsBy s := hu ▸ standsBy_accepted s seq
    rw [stands] at hexec
    exact ⟨_, hexec, settled_execEndRecord seq cp ws s _ hexec, rfl⟩
  · have hexec : exec (.mailboxRecord seq sub ws) s = .next (takeMail u sub ws) := done_kettleAccept hl hk h hu _
    have seen : twinClock u = twinClock s := hu ▸ rfl
    obtain ⟨twin, clock⟩ := Prod.mk.inj ((showsNoMail_twinClock.takeMail u sub ws).trans seen)
    refine ⟨_, hexec, rfl, twin, clock, fun h0 => ?_⟩
    rw [h0, hu]
    exact ⟨rfl, rfl, rfl⟩
  · have hexec : exec (.health seq ws) s = .next (takeHealth u ws) := done_kettleAccept hl hk h hu _
    have seen : healthSeen (takeHealth u ws) = healthSeen (mateHealth u ws) := healthSeen_healthToHost _ _ _
    obtain ⟨kettle, failed⟩ := Prod.mk.inj seen
    have expected : u.kettle.expected = (seq + 1) % 2 ^ 23 := hu ▸ expected_accepted s seq
    refine ⟨_, hexec, settled_execHealth seq ws s _ hexec, rfl, failed, (congrArg Kettle.expected kettle).trans expected, fun hoff => ?_⟩
    have off : flag (mateHealth u ws) 0x6040 28 = false := (flag_of_regs_eq (hu ▸ regs_accepted s seq : u.regs = s.regs) _ _).trans hoff
    have quiet : takeHealth u ws = mateHealth u ws := healthToHost_of_off off true ws
    rw [quiet, hu]
    rfl
  · have hexec : exec (.bulk seq sub ws) s = .next (takeBulk u sub ws) := done_kettleAccept hl hk h hu _
    refine ⟨_, hexec, settled_execBulk seq sub ws s _ hexec, rfl, fun h0 => ?_⟩
    have served : takeBulk u sub ws = { u with twin := { u.twin with serve := true } } := if_pos h0
    rw [served, hu]
    exact ⟨rfl, rfl⟩

end Sys2Proof.Machine
end

section
/-! What every step keeps: the commands that wait, and the life cycle and the owner slot of OTP, which only move forward (R392, R398). -/

namespace Sys2Proof.Machine

/-- The waiting commands stay, and OTP moves only forward. -/
def Forward (s t : State) : Prop := t.pending = s.pending ∧ OtpForward s t

/-- The command, if it answers a next state, leaves the waiting commands alone and moves OTP only forward. -/
def ResForward (s : State) (r : Res) : Prop := ∀ t, r = .next t → Forward s t

theorem lastingOf_settled (s : State) :
    lastingOf (settled s) = (s.pending, s.colophon.lifecycle, s.colophon.ownerDigest, s.colophon.ownerSpent) := rfl

/-- A life cycle that does not fall, with the same waiting commands and owner slot. -/
theorem forward_of_lasting {s t : State} {n : Nat} (hn : s.colophon.lifecycle ≤ n)
    (h : lastingOf (settled t) = (s.pending, n, s.colophon.ownerDigest, s.colophon.ownerSpent)) : Forward s t := by
  simp only [lastingOf_settled, Prod.mk.injEq] at h
  obtain ⟨pending, lifecycle, digest, spent⟩ := h
  exact ⟨pending, lifecycle ▸ hn, fun _ => digest, fun hs => spent.trans hs⟩

theorem forward_of_kept {s t : State} (h : lastingOf (settled t) = lastingOf (settled s)) : Forward s t := forward_of_lasting le_rfl h

/-- What changes nothing that lasts moves nothing back. -/
theorem resForward_of_kept {s : State} {r : Res} (h : KeepsRes s r) : ResForward s r := fun t ht => forward_of_kept (h t ht)

theorem Forward.trans {s t u : State} (h : Forward s t) (h' : Forward t u) : Forward s u := by
  obtain ⟨pending, lifecycle, digest, spent⟩ := h
  obtain ⟨pending', lifecycle', digest', spent'⟩ := h'
  refine ⟨pending'.trans pending, lifecycle.trans lifecycle', fun hs => ?_, fun hs => spent' (spent hs)⟩
  exact (digest' (digest hs ▸ hs)).trans (digest hs)

/-! ### The owner's enrolment (R392) -/

/-- A slot that holds a digest, or is spent, is refused; a free one is written or spent. -/
theorem enrol_forward (s : State) (onCurve otpOk : Bool) (digest : List Word32) : Forward s (enrol s onCurve otpOk digest) := by
  unfold enrol
  dsimp only
  split
  · exact forward_of_kept rfl
  · split
    · exact forward_of_kept (congrArg lastingOf (settled_setFld _ _ _ _ _))
    · next free =>
      have none : s.colophon.ownerDigest.isSome = false := by simpa using fun h => free (.inr (.inl h))
      split
      · exact forward_of_kept (congrArg lastingOf (settled_setFld _ _ _ _ _))
      · split
        · exact ⟨rfl, le_rfl, fun _ => rfl, fun _ => rfl⟩
        · exact ⟨rfl, le_rfl, fun h => absurd h (by simp [none]), fun h => h⟩

/-- An access that reaches its register is preceded and refused by steps that last leaves alone. -/
theorem guarded_forward (s : State) (src : Source) (a : Nat) {act : State → State} (h : ∀ u, Forward u (act u)) :
    Forward s (guarded s src a act) := by
  have faulted : ∀ cause, Forward s (accessFault s src a cause) := fun cause =>
    forward_of_kept (congrArg lastingOf (settled_accessFault s src a cause))
  have met : Forward s (wakeForPage (dropHeld s src a) a) :=
    forward_of_kept (congrArg lastingOf ((settled_wakeForPage _ _).trans (settled_dropHeld s src a)))
  unfold guarded
  split
  · exact faulted 1
  · split
    · exact faulted 5
    · split
      · split
        · exact forward_of_kept rfl
        · split
          · exact faulted 5
          · dsimp only
            split
            · exact met
            · exact met.trans (h _)
      · exact faulted 2

theorem ownerEnrol_forward (src : Source) (onCurve otpOk : Bool) (digest : List Word32) (s : State) :
    ResForward s (execOwnerEnrol src onCurve otpOk digest s) := by
  intro t ht
  unfold execOwnerEnrol sized at ht
  split at ht <;> cases ht
  exact guarded_forward s src _ fun u => enrol_forward u onCurve otpOk digest

/-! ### The life cycle (R398) -/

theorem lasting_lifecycleWrite (s : State) (c : FwCommand) (target : Nat) :
    lastingOf (settled (lifecycleWrite s c target)) = (s.pending, target, s.colophon.ownerDigest, s.colophon.ownerSpent) := by
  have keys := kept_zeroiseKeys s
  simp only [lastingOf_settled, Prod.mk.injEq] at keys
  obtain ⟨pending, -, digest, spent⟩ := keys
  refine (kept_respond _ c 0 0 _).trans ?_
  rw [lastingOf_settled, pending, digest, spent]

theorem lifecycleFinish_forward (s : State) (c : FwCommand) (target : Nat) (otpOk : Bool) :
    Forward s (lifecycleFinish s c target otpOk) := by
  unfold lifecycleFinish
  split
  · exact forward_of_kept rfl
  · split
    · next h => exact forward_of_lasting h.2.le (lasting_lifecycleWrite s c target)
    · exact forward_of_kept (kept_respond ..)

theorem commandLifecycle_forward (s : State) (c : FwCommand) (otpOk : Bool) : Forward s (lifecycleAdvance s c otpOk) := by
  have refused : ∀ result detail, Forward s (respond s c result detail []) := fun _ _ => forward_of_kept (kept_respond ..)
  have begun : Forward s (let u := markStarted s c
      if 3 ≤ bits (nth c.words 1) 2 0 then (List.range 4).foldl startSanitize u else u) := by
    have started : Forward s (markStarted s c) := forward_of_kept (kept_markStarted s c)
    dsimp only
    split
    · exact started.trans (forward_of_kept (congrArg lastingOf (settled_foldl _ settled_startSanitize _ _)))
    · exact started
  unfold lifecycleAdvance
  dsimp only
  split
  · exact lifecycleFinish_forward ..
  · split
    · exact refused 6 0
    · split
      · exact refused 4 0
      · split
        · exact refused 8 1
        · split
          · exact refused 8 2
          · exact begun.trans (lifecycleFinish_forward ..)

theorem lifecycleAdvance_forward (k : Fin 6) (otpOk : Bool) (s : State) : ResForward s (execLifecycleAdvance k otpOk s) := by
  intro t ht
  obtain rfl := Host.Outcome.next.inj ht
  unfold commandStep
  split
  · exact forward_of_kept rfl
  · split
    · exact commandLifecycle_forward s _ otpOk
    · exact forward_of_kept rfl

/-! ### Every command -/

theorem exec_forward (c : Instr) (s : State) : ResForward s (exec c s) :=
  match c with
  | .registerWrite .. => resForward_of_kept (kept_execRegisterWrite _ _ _ _ _ s)
  | .pairLoRead .. => resForward_of_kept (kept_execPairLoRead _ _ s)
  | .pairHiRead .. => resForward_of_kept (kept_execPairHiRead _ _ s)
  | .pairLoWrite .. => resForward_of_kept (kept_execPairLoWrite _ _ _ s)
  | .pairHiWrite .. => resForward_of_kept (kept_execPairHiWrite _ _ _ s)
  | .intForce .. => resForward_of_kept (kept_execIntForce _ _ _ s)
  | .lock .. => resForward_of_kept (kept_execLock _ _ s)
  | .resume .. => resForward_of_kept (keepsRes_of_settled (settled_execResume _ _ _ s))
  | .discardStaged .. => resForward_of_kept (keepsRes_of_settled (settled_execDiscardStaged _ _ s))
  | .sysCommitGo .. => resForward_of_kept (kept_execSysCommitGo _ _ s)
  | .sliceEpochSwitch .. => resForward_of_kept (kept_execSliceEpochSwitch _ s)
  | .commitDone => resForward_of_kept (kept_execCommitDone s)
  | .fenceGo .. => resForward_of_kept (kept_execFenceGo _ _ s)
  | .fenceDone => resForward_of_kept (kept_execFenceDone s)
  | .cycleBoundary .. => resForward_of_kept (kept_execCycleBoundary _ _ s)
  | .frameReceive .. => resForward_of_kept (keepsRes_of_settled (settled_execFrameReceive _ _ _ _ s))
  | .macControlFrame .. => resForward_of_kept (keepsRes_of_settled (settled_execMacControlFrame _ _ s))
  | .frameEnd .. => resForward_of_kept (keepsRes_of_settled (settled_execFrameEnd _ _ _ _ _ s))
  | .portSelect .. => resForward_of_kept (keepsRes_of_settled (settled_execPortSelect _ _ s))
  | .transmitStart .. => resForward_of_kept (keepsRes_of_settled (settled_execTransmitStart _ _ s))
  | .transmitEnd .. => resForward_of_kept (keepsRes_of_settled (settled_execTransmitEnd _ _ s))
  | .ctUnderrun .. => resForward_of_kept (keepsRes_of_settled (settled_execCtUnderrun _ _ s))
  | .residenceScan .. => resForward_of_kept (keepsRes_of_settled (settled_execResidenceScan _ s))
  | .bufPeakClear .. => resForward_of_kept (keepsRes_of_settled (settled_execBufPeakClear _ s))
  | .portEnable .. => resForward_of_kept (keepsRes_of_settled (settled_execPortEnable _ _ s))
  | .portDisable .. => resForward_of_kept (keepsRes_of_settled (settled_execPortDisable _ _ s))
  | .portReset .. => resForward_of_kept (keepsRes_of_settled (settled_execPortReset _ _ s))
  | .retrain .. => resForward_of_kept (keepsRes_of_settled (settled_execRetrain _ _ s))
  | .linkEstablished .. => resForward_of_kept (keepsRes_of_settled (settled_execLinkEstablished _ _ _ _ _ s))
  | .linkLoss .. => resForward_of_kept (keepsRes_of_settled (settled_execLinkLoss _ _ s))
  | .holdoffExpiry .. => resForward_of_kept (keepsRes_of_settled (settled_execHoldoffExpiry _ s))
  | .flushDone .. => resForward_of_kept (keepsRes_of_settled (settled_execFlushDone _ s))
  | .trainingFailed .. => resForward_of_kept (keepsRes_of_settled (settled_execTrainingFailed _ _ s))
  | .pauseTimerExpiry .. => resForward_of_kept (keepsRes_of_settled (settled_execPauseTimerExpiry _ _ s))
  | .fcRefresh .. => resForward_of_kept (keepsRes_of_settled (settled_execFcRefresh _ _ s))
  | .lpiEntry .. => resForward_of_kept (keepsRes_of_settled (settled_execLpiEntry _ s))
  | .learnRequest => resForward_of_kept (keepsRes_of_settled (settled_execLearnRequest s))
  | .ploughVisit => resForward_of_kept (keepsRes_of_settled (settled_execPloughVisit s))
  | .tableEntryEcc .. => resForward_of_kept (kept_execTableEntryEcc _ _ s)
  | .lagRedistribute .. => resForward_of_kept (keepsRes_of_settled (settled_execLagRedistribute _ s))
  | .shadowVisit .. => resForward_of_kept (kept_execShadowVisit _ s)
  | .shadowReread .. => resForward_of_kept (kept_execShadowReread _ s)
  | .shadowOnePass .. => resForward_of_kept (kept_execShadowOnePass _ s)
  | .policerRefill => resForward_of_kept (keepsRes_of_settled (settled_execPolicerRefill s))
  | .streamGateChange .. => resForward_of_kept (kept_execStreamGateChange _ s)
  | .batchClose .. => resForward_of_kept (keepsRes_of_settled (settled_execBatchClose _ s))
  | .sheetChoice .. => resForward_of_kept (kept_execSheetChoice _ s)
  | .sheetWaitExpiry .. => resForward_of_kept (keepsRes_of_settled (settled_execSheetWaitExpiry _ s))
  | .sheetWriteDone .. => resForward_of_kept (keepsRes_of_settled (settled_execSheetWriteDone _ _ s))
  | .prefetchStart .. => resForward_of_kept (keepsRes_of_settled (settled_execPrefetchStart _ s))
  | .spillReadReturn .. => resForward_of_kept (keepsRes_of_settled (settled_execSpillReadReturn _ _ _ _ s))
  | .spillReadTimeout .. => resForward_of_kept (keepsRes_of_settled (settled_execSpillReadTimeout _ _ _ s))
  | .sheetRelease .. => resForward_of_kept (keepsRes_of_settled (settled_execSheetRelease _ _ _ _ _ s))
  | .sheetAgeScan .. => resForward_of_kept (keepsRes_of_settled (settled_execSheetAgeScan _ s))
  | .spillPlaceWrite .. => resForward_of_kept (keepsRes_of_settled (settled_execSpillPlaceWrite _ _ s))
  | .forceDiscard .. => resForward_of_kept (keepsRes_of_settled (settled_execForceDiscard _ _ s))
  | .poolInit .. => resForward_of_kept (keepsRes_of_settled (settled_execPoolInit _ _ _ _ s))
  | .spillQuery .. => resForward_of_kept (keepsRes_of_settled (settled_execSpillQuery _ _ s))
  | .cxlPortEnable .. => resForward_of_kept (keepsRes_of_settled (settled_execCxlPortEnable _ _ s))
  | .cxlLinkUp .. => resForward_of_kept (keepsRes_of_settled (settled_execCxlLinkUp _ _ _ _ _ _ s))
  | .cxlEnumerationTimeout .. => resForward_of_kept (keepsRes_of_settled (settled_execCxlEnumerationTimeout _ _ s))
  | .cxlReady .. => resForward_of_kept (keepsRes_of_settled (settled_execCxlReady _ _ s))
  | .cxlHealthPoll .. => resForward_of_kept (keepsRes_of_settled (settled_execCxlHealthPoll _ _ _ s))
  | .cxlEventSignal .. => resForward_of_kept (keepsRes_of_settled (settled_execCxlEventSignal _ _ s))
  | .cxlPortFailure .. => resForward_of_kept (keepsRes_of_settled (settled_execCxlPortFailure _ _ s))
  | .cxlPortReset .. => resForward_of_kept (keepsRes_of_settled (settled_execCxlPortReset _ _ s))
  | .sanitizeDone .. => resForward_of_kept (keepsRes_of_settled (settled_execSanitizeDone _ _ s))
  | .shaperRefill .. => resForward_of_kept (keepsRes_of_settled (settled_execShaperRefill _ s))
  | .transitEnd .. => resForward_of_kept (keepsRes_of_settled (settled_execTransitEnd _ s))
  | .nodeQuery .. => resForward_of_kept (keepsRes_of_settled (settled_execNodeQuery _ _ s))
  | .gateConfigChange .. => resForward_of_kept (keepsRes_of_settled (settled_execGateConfigChange _ _ s))
  | .gateChangeTime .. => resForward_of_kept (keepsRes_of_settled (settled_execGateChangeTime _ s))
  | .gateEntryChange .. => resForward_of_kept (keepsRes_of_settled (settled_execGateEntryChange _ s))
  | .gateDisable .. => resForward_of_kept (keepsRes_of_settled (settled_execGateDisable _ _ s))
  | .gateWake .. => resForward_of_kept (keepsRes_of_settled (settled_execGateWake _ s))
  | .verifySend .. => resForward_of_kept (keepsRes_of_settled (settled_execVerifySend _ s))
  | .verifyResponse .. => resForward_of_kept (keepsRes_of_settled (settled_execVerifyResponse _ s))
  | .timeCapture .. => resForward_of_kept (kept_execTimeCapture _ s)
  | .timeStep .. => resForward_of_kept (kept_execTimeStep _ s)
  | .timeSlew .. => resForward_of_kept (kept_execTimeSlew _ s)
  | .slewAbort .. => resForward_of_kept (kept_execSlewAbort _ s)
  | .slewDone => resForward_of_kept (kept_execSlewDone s)
  | .tevEdgeCapture .. => resForward_of_kept (kept_execTevEdgeCapture _ _ s)
  | .tevCapRead .. => resForward_of_kept (kept_execTevCapRead _ _ s)
  | .tevArm .. => resForward_of_kept (kept_execTevArm _ _ s)
  | .tevOutputEdge .. => resForward_of_kept (kept_execTevOutputEdge _ s)
  | .rclkSquelch .. => resForward_of_kept (keepsRes_of_settled (settled_execRclkSquelch _ s))
  | .rclkRestart .. => resForward_of_kept (keepsRes_of_settled (settled_execRclkRestart _ s))
  | .pllUnlock => resForward_of_kept (keepsRes_of_settled (settled_execPllUnlock s))
  | .twinArm .. => resForward_of_kept (keepsRes_of_settled (settled_execTwinArm _ s))
  | .twinDisarm .. => resForward_of_kept (keepsRes_of_settled (settled_execTwinDisarm _ s))
  | .claimAssert .. => resForward_of_kept (keepsRes_of_settled (settled_execClaimAssert _ s))
  | .claimConfirm .. => resForward_of_kept (keepsRes_of_settled (settled_execClaimConfirm _ _ s))
  | .claimConflict => resForward_of_kept (keepsRes_of_settled (settled_execClaimConflict s))
  | .egressAllowed .. => resForward_of_kept (keepsRes_of_settled (settled_execEgressAllowed _ s))
  | .claimRelease => resForward_of_kept (keepsRes_of_settled (settled_execClaimRelease s))
  | .twinRelease .. => resForward_of_kept (keepsRes_of_settled (settled_execTwinRelease _ s))
  | .takeoverActive => resForward_of_kept (keepsRes_of_settled (settled_execTakeoverActive s))
  | .kettleEnable .. => resForward_of_kept (kept_execKettleEnable _ s)
  | .kettleTrained => resForward_of_kept (keepsRes_of_settled (settled_execKettleTrained s))
  | .hello .. => resForward_of_kept (kept_execHello _ _ _ s)
  | .kettleUp .. => resForward_of_kept (kept_execKettleUp _ _ _ s)
  | .kettleDown => resForward_of_kept (kept_execKettleDown s)
  | .kettleFailedRetry => resForward_of_kept (keepsRes_of_settled (settled_execKettleFailedRetry s))
  | .heartbeat .. => resForward_of_kept (keepsRes_of_settled (settled_execHeartbeat _ _ _ _ s))
  | .mateResetPulseEnd => resForward_of_kept (keepsRes_of_settled (settled_execMateResetPulseEnd s))
  | .mateResetDisarm .. => resForward_of_kept (keepsRes_of_settled (settled_execMateResetDisarm _ s))
  | .delta .. => resForward_of_kept (keepsRes_of_settled (settled_execDelta _ _ _ _ s))
  | .endRecord .. => resForward_of_kept (keepsRes_of_settled (settled_execEndRecord _ _ _ s))
  | .mailboxRecord .. => resForward_of_kept (kept_execMailboxRecord _ _ _ s)
  | .health .. => resForward_of_kept (keepsRes_of_settled (settled_execHealth _ _ s))
  | .ack .. => resForward_of_kept (kept_execAck _ _ s)
  | .kettleRetransmitTimer => resForward_of_kept (kept_execKettleRetransmitTimer s)
  | .kettleRecordBad => resForward_of_kept (keepsRes_of_settled (settled_execKettleRecordBad s))
  | .configDigest => resForward_of_kept (keepsRes_of_settled (settled_execConfigDigest s))
  | .handover .. => resForward_of_kept (keepsRes_of_settled (settled_execHandover _ s))
  | .handoverDrainEnd => resForward_of_kept (keepsRes_of_settled (settled_execHandoverDrainEnd s))
  | .handoverRelease => resForward_of_kept (keepsRes_of_settled (settled_execHandoverRelease s))
  | .resync .. => resForward_of_kept (keepsRes_of_settled (settled_execResync _ s))
  | .bulk .. => resForward_of_kept (keepsRes_of_settled (settled_execBulk _ _ _ s))
  | .syncDone => resForward_of_kept (keepsRes_of_settled (settled_execSyncDone s))
  | .selftestFrame .. => resForward_of_kept (keepsRes_of_settled (settled_execSelftestFrame _ _ _ _ s))
  | .selftestSpill .. => resForward_of_kept (keepsRes_of_settled (settled_execSelftestSpill _ _ s))
  | .selftestEye .. => resForward_of_kept (keepsRes_of_settled (settled_execSelftestEye _ s))
  | .selftestScrub .. => resForward_of_kept (keepsRes_of_settled (settled_execSelftestScrub _ _ s))
  | .wdKick .. => resForward_of_kept (kept_execWdKick _ _ s)
  | .watchdogExpired => resForward_of_kept (kept_execWatchdogExpired s)
  | .delayedWarmReset => resForward_of_kept (kept_execDelayedWarmReset s)
  | .sliceSleepEntry .. => resForward_of_kept (keepsRes_of_settled (settled_execSliceSleepEntry _ s))
  | .sliceDeepSleep .. => resForward_of_kept (keepsRes_of_settled (settled_execSliceDeepSleep _ s))
  | .sliceWakeTrigger .. => resForward_of_kept (keepsRes_of_settled (settled_execSliceWakeTrigger _ s))
  | .sliceAwake .. => resForward_of_kept (keepsRes_of_settled (settled_execSliceAwake _ s))
  | .govRelax => resForward_of_kept (kept_execGovRelax s)
  | .fastEstimate .. => resForward_of_kept (kept_execFastEstimate _ s)
  | .pmbusAlert .. => resForward_of_kept (kept_execPmbusAlert _ s)
  | .voltageConfirmed => resForward_of_kept (kept_execVoltageConfirmed s)
  | .pmbusError => resForward_of_kept (kept_execPmbusError s)
  | .agingMonitorRead .. => resForward_of_kept (kept_execAgingMonitorRead _ s)
  | .standby .. => resForward_of_kept (kept_execStandby _ s)
  | .wake .. => resForward_of_kept (kept_execWake _ s)
  | .thermalSample .. => resForward_of_kept (kept_execThermalSample _ s)
  | .thermalAutoRestart => resForward_of_kept (kept_execThermalAutoRestart s)
  | .quiet .. => resForward_of_kept (keepsRes_of_settled (settled_execQuiet _ _ s))
  | .resetReq .. => resForward_of_kept (kept_execResetReq _ s)
  | .snapshot .. => resForward_of_kept (keepsRes_of_settled (settled_execSnapshot _ s))
  | .dumpCounterRead => resForward_of_kept (keepsRes_of_settled (settled_execDumpCounterRead s))
  | .dumpDone => resForward_of_kept (keepsRes_of_settled (settled_execDumpDone s))
  | .counterSaturated .. => resForward_of_kept (keepsRes_of_settled (settled_execCounterSaturated _ s))
  | .pf1Read .. => resForward_of_kept (kept_execPf1Read _ s)
  | .captureRecord => resForward_of_kept (keepsRes_of_settled (settled_execCaptureRecord s))
  | .traceRecord => resForward_of_kept (keepsRes_of_settled (settled_execTraceRecord s))
  | .perstN .. => resForward_of_kept (kept_execPerstN _ s)
  | .hotReset => resForward_of_kept (kept_execHotReset s)
  | .flrPf0 => resForward_of_kept (kept_execFlrPf0 s)
  | .flrPf1 => resForward_of_kept (keepsRes_of_settled (settled_execFlrPf1 s))
  | .doorbell .. => resForward_of_kept (keepsRes_of_settled (settled_execDoorbell _ _ s))
  | .txFrameFetch .. => resForward_of_kept (keepsRes_of_settled (settled_execTxFrameFetch _ _ _ _ s))
  | .rxDeliver .. => resForward_of_kept (keepsRes_of_settled (settled_execRxDeliver _ _ s))
  | .itrExpiry .. => resForward_of_kept (keepsRes_of_settled (settled_execItrExpiry _ s))
  | .ringEnable .. => resForward_of_kept (keepsRes_of_settled (settled_execRingEnable _ _ s))
  | .ringDisable .. => resForward_of_kept (keepsRes_of_settled (settled_execRingDisable _ _ s))
  | .ringIdle .. => resForward_of_kept (keepsRes_of_settled (settled_execRingIdle _ _ s))
  | .read .. => resForward_of_kept (keepsRes_of_settled (settled_execRead _ _ _ _ _ _ _ s))
  | .write .. => resForward_of_kept (kept_execWrite _ _ _ _ _ _ s)
  | .insert .. => resForward_of_kept (keepsRes_of_settled (settled_execInsert _ _ _ _ s))
  | .delete .. => resForward_of_kept (keepsRes_of_settled (settled_execDelete _ _ _ _ s))
  | .lockEntry .. => resForward_of_kept (keepsRes_of_settled (settled_execLockEntry _ _ _ _ s))
  | .unlock .. => resForward_of_kept (keepsRes_of_settled (settled_execUnlock _ _ _ _ s))
  | .flush .. => resForward_of_kept (keepsRes_of_settled (settled_execFlush _ _ _ _ _ s))
  | .fdbFlushComplete => resForward_of_kept (kept_execFdbFlushComplete s)
  | .regRead .. => resForward_of_kept (kept_execRegRead _ _ _ _ _ s)
  | .regWrite .. => resForward_of_kept (kept_execRegWrite _ _ _ s)
  | .nop .. => resForward_of_kept (keepsRes_of_settled (settled_execNop _ s))
  | .tableCompletion => resForward_of_kept (keepsRes_of_settled (settled_execTableCompletion s))
  | .tableWindowRead .. => resForward_of_kept (kept_execTableWindowRead _ _ s)
  | .qspiRead .. => resForward_of_kept (keepsRes_of_settled (settled_execQspiRead _ _ s))
  | .qspiProgram .. => resForward_of_kept (keepsRes_of_settled (settled_execQspiProgram _ _ s))
  | .qspiErase .. => resForward_of_kept (keepsRes_of_settled (settled_execQspiErase _ _ s))
  | .qspiDone .. => resForward_of_kept (keepsRes_of_settled (settled_execQspiDone _ _ s))
  | .gpioEvent .. => resForward_of_kept (keepsRes_of_settled (settled_execGpioEvent _ _ s))
  | .mailboxGo .. => resForward_of_kept (kept_execMailboxGo _ _ s)
  | .take .. => resForward_of_kept (kept_execTake _ _ s)
  | .withdraw .. => resForward_of_kept (kept_execWithdraw _ _ s)
  | .mailboxTimeout .. => resForward_of_kept (kept_execMailboxTimeout _ s)
  | .receiverDown .. => resForward_of_kept (kept_execReceiverDown _ s)
  | .senderReset .. => resForward_of_kept (kept_execSenderReset _ _ s)
  | .firmwareTakeCommand => resForward_of_kept (kept_execFirmwareTakeCommand s)
  | .fwVersion .. => resForward_of_kept (kept_execFwVersion _ s)
  | .profileSet .. => resForward_of_kept (kept_execProfileSet _ s)
  | .powerEnvelopeSet .. => resForward_of_kept (kept_execPowerEnvelopeSet _ s)
  | .spillEnable .. => resForward_of_kept (kept_execSpillEnable _ s)
  | .cxlStatus .. => resForward_of_kept (kept_execCxlStatus _ s)
  | .tableFlush .. => resForward_of_kept (kept_execTableFlush _ s)
  | .fdbFlushPort .. => resForward_of_kept (kept_execFdbFlushPort _ s)
  | .twinStatus .. => resForward_of_kept (kept_execTwinStatus _ s)
  | .twinHandover .. => resForward_of_kept (kept_execTwinHandover _ s)
  | .healthGet .. => resForward_of_kept (kept_execHealthGet _ s)
  | .selftestRun .. => resForward_of_kept (kept_execSelftestRun _ _ s)
  | .lifecycleAdvance .. => lifecycleAdvance_forward _ _ s
  | .rostalInstruction => resForward_of_kept (kept_execRostalInstruction s)
  | .mov .. => resForward_of_kept (kept_execMov _ _ s)
  | .sub .. => resForward_of_kept (kept_execSub _ _ _ s)
  | .ldi .. => resForward_of_kept (kept_execLdi _ _ s)
  | .bnz .. => resForward_of_kept (kept_execBnz _ s)
  | .halt => resForward_of_kept (kept_execHalt s)
  | .customerInstruction => resForward_of_kept (kept_execCustomerInstruction s)
  | .uopNop .. => resForward_of_kept (kept_execUopNop _ s)
  | .uopMov .. => resForward_of_kept (kept_execUopMov _ s)
  | .uopAlu .. => resForward_of_kept (kept_execUopAlu _ _ s)
  | .uopShift .. => resForward_of_kept (kept_execUopShift _ _ s)
  | .uopAddi .. => resForward_of_kept (kept_execUopAddi _ s)
  | .uopLdi .. => resForward_of_kept (kept_execUopLdi _ s)
  | .uopBranch .. => resForward_of_kept (kept_execUopBranch _ _ s)
  | .jmpt .. => resForward_of_kept (kept_execJmpt _ s)
  | .uopLoop .. => resForward_of_kept (kept_execUopLoop _ s)
  | .dld .. => resForward_of_kept (kept_execDld _ s)
  | .dst .. => resForward_of_kept (kept_execDst _ s)
  | .rrd .. => resForward_of_kept (kept_execRrd _ s)
  | .rwr .. => resForward_of_kept (kept_execRwr _ s)
  | .trd .. => resForward_of_kept (kept_execTrd _ s)
  | .twr .. => resForward_of_kept (kept_execTwr _ s)
  | .uopDma .. => resForward_of_kept (kept_execUopDma _ s)
  | .poll .. => resForward_of_kept (kept_execPoll _ _ s)
  | .commit .. => resForward_of_kept (kept_execCommit _ s)
  | .uopEnd .. => resForward_of_kept (kept_execUopEnd _ s)
  | .fault .. => resForward_of_kept (kept_execFault _ s)
  | .waitTimeout => resForward_of_kept (kept_execWaitTimeout s)
  | .seqInterrupt => resForward_of_kept (kept_execSeqInterrupt s)
  | .microFault .. => resForward_of_kept (kept_execMicroFault _ s)
  | .taskGo .. => resForward_of_kept (kept_execTaskGo _ _ s)
  | .taskAbort .. => resForward_of_kept (kept_execTaskAbort _ s)
  | .ucodeLoad .. => resForward_of_kept (kept_execUcodeLoad _ _ _ _ _ s)
  | .seqDramAccess .. => resForward_of_kept (kept_execSeqDramAccess _ _ s)
  | .seqEccError .. => resForward_of_kept (kept_execSeqEccError _ _ _ s)
  | .zeroise .. => resForward_of_kept (kept_execZeroise _ s)
  | .ownerEnrol .. => ownerEnrol_forward _ _ _ _ s
  | .debugToken .. => resForward_of_kept (kept_execDebugToken _ _ _ _ s)
  | .debugClose .. => resForward_of_kept (kept_execDebugClose _ s)
  | .entropyFailure => resForward_of_kept (kept_execEntropyFailure s)
  | .firmwareBoot .. => resForward_of_kept (kept_execFirmwareBoot _ _ _ _ _ _ s)
  | .confirm .. => resForward_of_kept (kept_execConfirm _ s)
  | .bootFailure => resForward_of_kept (keepsRes_of_settled (settled_execBootFailure s))
  | .getVersion => resForward_of_kept (kept_execGetVersion s)
  | .getCapabilities => resForward_of_kept (keepsRes_of_settled (settled_execGetCapabilities s))
  | .negotiateAlgorithms => resForward_of_kept (kept_execNegotiateAlgorithms s)
  | .getDigests .. => resForward_of_kept (keepsRes_of_settled (settled_execGetDigests _ s))
  | .getCertificate .. => resForward_of_kept (keepsRes_of_settled (settled_execGetCertificate _ _ _ s))
  | .challenge .. => resForward_of_kept (keepsRes_of_settled (settled_execChallenge _ _ s))
  | .getMeasurements .. => resForward_of_kept (keepsRes_of_settled (settled_execGetMeasurements _ _ _ s))
  | .unsupportedRequest .. => resForward_of_kept (keepsRes_of_settled (settled_execUnsupportedRequest _ s))
  | .statusRead .. => resForward_of_kept (keepsRes_of_settled (settled_execStatusRead _ s))
  | .deviceReset .. => resForward_of_kept (kept_execDeviceReset _ s)
  | .rescueTwinHandover .. => resForward_of_kept (keepsRes_of_settled (settled_execRescueTwinHandover _ s))
  | .slotSelect .. => resForward_of_kept (keepsRes_of_settled (settled_execSlotSelect _ s))
  | .powerUp .. => resForward_of_kept (kept_execPowerUp _ _ s)
  | .coreRailsInRange .. => resForward_of_kept (kept_execCoreRailsInRange _ _ s)
  | .sysResetN .. => resForward_of_kept (kept_execSysResetN _ s)
  | .warmReset .. => resForward_of_kept (kept_execWarmReset _ _ _ s)
  | .coldReset .. => resForward_of_kept (kept_execColdReset _ _ s)
  | .sliceReset .. => resForward_of_kept (kept_execSliceReset _ _ s)
  | .supplyLoss .. => resForward_of_kept (kept_execSupplyLoss _ s)
  | .sentinelWedge => resForward_of_kept (kept_execSentinelWedge s)
  | .deviceFatal .. => resForward_of_kept (kept_execDeviceFatal _ s)
  | .errorLogRecord => resForward_of_kept (keepsRes_of_settled (settled_execErrorLogRecord s))
  | .cxlPortDisable .. => resForward_of_kept (keepsRes_of_settled (settled_execCxlPortDisable _ _ s))
  | .kettleTrainingTimeout => resForward_of_kept (kept_execKettleTrainingTimeout s)
  | .pllLock => resForward_of_kept (keepsRes_of_settled (settled_execPllLock s))
  | .setTimestamp => resForward_of_kept (keepsRes_of_settled (settled_execSetTimestamp s))
  | .estimateCalibration .. => resForward_of_kept (kept_execEstimateCalibration _ _ s)
  | .freeRingTransfer .. => resForward_of_kept (kept_execFreeRingTransfer _ _ _ s)
  | .wdConfigWrite .. => resForward_of_kept (kept_execWdConfigWrite _ _ s)

/-- Settles O2: a command takes itself from the queue, an idle step nothing, and both move OTP only forward. -/
theorem stepsKeepQueueAndOtp : Obligations.StepsKeepQueueAndOtp := by
  intro s t hq ht
  have kept : t.pending = s.pending.tail ∧ OtpForward s t := by
    cases hp : s.pending with
    | nil =>
      obtain rfl := Host.Outcome.next.inj ((step_of_nil hp).symm.trans ht)
      obtain ⟨pending, otp⟩ := forward_of_kept (kept_tick s)
      exact ⟨pending.trans hp, otp⟩
    | cons c rest => exact exec_forward c { s with pending := rest } t ((step_of_cons hp).symm.trans ht)
  exact ⟨kept.1, fun c hc => hq c (List.mem_of_mem_tail (kept.1 ▸ hc)), kept.2⟩

/-- Settles O3: the reset state lists no command and no byte of data RAM. -/
theorem resetKeepsTheInvariants : Obligations.ResetKeepsTheInvariants :=
  ⟨fun _ h => absurd h List.not_mem_nil, reset_ram_wf, le_rfl, fun _ => rfl, id⟩

end Sys2Proof.Machine
end

section
/-! The channels of the mailbox (R350 to R359): what a command finds at CONTROL, what a mark of STATUS changes, and what posting, taking,
withdrawing and the end of a wait make of a channel. -/

namespace Sys2Proof.Machine

/-! ### CONTROL -/

theorem atRegister_channelControl (s : State) (src : Source) (c : Fin 12) :
    atRegister s src (channelBase c + 0x40) = dropHeld s src (channelBase c + 0x40) := by
  have hp : pageAt (channelBase c + 0x40) = some .mailbox := by revert c; decide
  exact atRegister_eq s src _ fun i k => by rw [hp]; simp

/-- The sender's admitted write of CONTROL acts. -/
theorem guarded_bySender_of_eq {s : State} {src : Source} {c : Fin 12} (ha : Admitted s src (channelBase c + 0x40))
    (hs : channelSender c = acts src) (act : State → State) :
    guarded s src (channelBase c + 0x40) (fun s => bySender s src c act) = act (dropHeld s src (channelBase c + 0x40)) := by
  rw [guarded_of_admitted ha, atRegister_channelControl]
  exact if_pos hs

/-- Another source's admitted write of CONTROL is a fault. -/
theorem guarded_bySender_of_ne {s : State} {src : Source} {c : Fin 12} (ha : Admitted s src (channelBase c + 0x40))
    (hs : channelSender c ≠ acts src) (act : State → State) :
    guarded s src (channelBase c + 0x40) (fun s => bySender s src c act) =
      accessFault (atRegister s src (channelBase c + 0x40)) src (channelBase c + 0x40) 5 := by
  rw [guarded_of_admitted ha]
  exact if_neg hs

/-- Only the sequencer may write CONTROL of outbound M_0. -/
theorem channelSender_of_admitted_eleven {s : State} {src : Source} (ha : Admitted s src (channelBase 11 + 0x40)) :
    channelSender 11 = acts src := by
  obtain ⟨-, -, -, -, hm, -⟩ := ha
  cases src with
  | seq | task => rfl
  | _ => simp [mayWrite, channelOf, channelBase, pageAt, channelSender, acts] at hm

/-! ### STATUS -/

theorem channelStatus_ne_causes (c : Nat) : channelStatus c ≠ Page.mailbox.at_ 0x10 := by
  rw [channelStatus, channelBase, Page.at_, Page.base]
  split <;> omega

theorem RegsBut.channelMark {as : List Nat} {s t : State} (h : RegsBut as s t) {c : Nat} (hs : channelStatus c ∈ as) (hi : 0x7010 ∈ as)
    (k : Nat) : RegsBut as s (channelMark t c k) := by
  unfold Machine.channelMark channelRaise
  split
  · exact (h.setFlag hs k true).raise (p := .mailbox) hi c
  · exact h.setFlag hs k true

/-- A mark of STATUS changes no word of STATUS but its own bit. -/
theorem rd_channelMark_status (s : State) (c k : Nat) :
    rd (channelMark s c k) (channelStatus c) = rd (setFlag s (channelStatus c) k true) (channelStatus c) := by
  unfold channelMark channelRaise
  split
  · exact rd_raise_other _ _ _ (channelStatus_ne_causes c)
  · rfl

theorem flag_channelMark (s : State) (c : Nat) {k : Nat} (hk : k < 32) (j : Nat) :
    flag (channelMark s c k) (channelStatus c) j = if j = k then true else flag s (channelStatus c) j := by
  rw [flag, rd_channelMark_status, ← flag, flag_setFlag _ _ _ _ _ _ hk]
  exact if_congr (by simp) rfl rfl

theorem fld_channelMark (s : State) (c : Nat) {k hi lo : Nat} (hk : k < 32) (h : hi < k ∨ k < lo) :
    fld (channelMark s c k) (channelStatus c) hi lo = fld s (channelStatus c) hi lo := by
  rw [fld, rd_channelMark_status, ← fld, fld_setFlag_other _ _ _ _ _ _ _ hk (.inr h)]

@[simp] theorem channelMark_channels (s : State) (c k : Nat) : (channelMark s c k).channels = s.channels := by
  unfold channelMark channelRaise
  split <;> simp

/-- A mark other than FULL leaves FULL. -/
theorem channelFull_channelMark (s : State) (c : Nat) {k : Nat} (hk : k < 31) : channelFull (channelMark s c k) c = channelFull s c := by
  rw [channelFull, flag_channelMark s c (by omega), if_neg (by omega), channelFull]

/-! ### The end of a wait (R353, R355) -/

/-- The state after mark `k` of channel `c` with its posted message put to `v`. -/
def channelNoted (s : State) (c k : Nat) (v : Channel) : State := channelMark (setChannel s c v) c k

theorem channelNoted_marks (s : State) (c : Nat) {k : Nat} (hk : k < 31) (v : Channel) :
    flag (channelNoted s c k v) (channelStatus c) k = true ∧ channelFull (channelNoted s c k v) c = channelFull s c ∧
      channelAt (channelNoted s c k v) c = v ∧ RegsBut [channelStatus c, 0x7010] s (channelNoted s c k v) := by
  refine ⟨(flag_channelMark _ c (by omega) k).trans (if_pos rfl), (channelFull_channelMark _ c hk).trans rfl, ?_, ?_⟩
  · rw [channelAt, channelNoted, channelMark_channels]
    exact channelAt_setChannel_same s c v
  · exact (RegsBut.of_regs_eq _ (t := setChannel s c v) rfl).channelMark (by simp) (by simp) k

/-- Settles O47: the timeout notes the message once it is due, and neither again nor before. -/
theorem untakenMessagesTimeOutOnce : Obligations.UntakenMessagesTimeOutOnce := by
  refine ⟨fun s c hf ht hd => ?_, fun s c ht => ?_, fun s c hd => ?_, by decide⟩
  · have he : exec (.mailboxTimeout c) s = .next (channelNoted s c 30 { channelAt s c with timed := true }) :=
      congrArg done (if_pos ⟨hf, by simpa using ht, hd⟩)
    obtain ⟨hm, hk, hv, hr⟩ := channelNoted_marks s c (k := 30) (by decide) { channelAt s c with timed := true }
    exact ⟨_, he, hm, hk.trans hf, hv, hr⟩
  · exact congrArg done (if_neg (by simp [ht]))
  · exact congrArg done (if_neg (by omega))

/-! ### Removal (R354) -/

theorem channelFull_emptySlot (s : State) (c : Nat) : channelFull (emptySlot s c) c = false :=
  flag_setFlag_same (setChannel s c {}) (channelStatus c) 31 false (by decide)

theorem channelAt_emptySlot (s : State) (c : Nat) : channelAt (emptySlot s c) c = {} := by
  rw [channelAt, emptySlot, setFlag_channels]
  exact channelAt_setChannel_same s c {}

/-- A discarded message leaves an empty channel and its reason. -/
theorem discardMessage_shows (s : State) (c : Nat) {reason : Nat} (hr : reason < 8) :
    channelFull (discardMessage s c reason) c = false ∧ channelAt (discardMessage s c reason) c = {} ∧
      flag (discardMessage s c reason) (channelStatus c) 28 = true ∧ fld (discardMessage s c reason) (channelStatus c) 27 25 = reason ∧
      RegsBut [channelStatus c, 0x7010] s (discardMessage s c reason) := by
  refine ⟨(channelFull_channelMark _ c (by decide)).trans ?_, ?_, (flag_channelMark _ c (by decide) 28).trans (if_pos rfl),
    (fld_channelMark _ c (by decide) (.inl (by decide))).trans ?_, ?_⟩
  · rw [channelFull, flag_setFld _ _ _ _ _ _ _ (by decide) (by decide), if_neg (by omega)]
    exact channelFull_emptySlot s c
  · rw [channelAt, discardMessage, channelMark_channels, setFld_channels]
    exact channelAt_emptySlot s c
  · rw [fld_setFld_same _ _ _ _ _ (by decide) (by decide)]
    exact Nat.mod_eq_of_lt hr
  · have emptied : RegsBut [channelStatus c, 0x7010] s (emptySlot s c) :=
      (RegsBut.of_regs_eq _ (t := setChannel s c {}) rfl).setFlag (by simp) 31 false
    exact (emptied.wr (by simp) _).channelMark (by simp) (by simp) 28

theorem channelWithdraw_of_posted {s : State} {c : Nat} (hf : channelFull s c = true) (hc : c ≠ 11 ∨ (channelAt s c).sent = false) :
    channelWithdraw s c = discardMessage s c 3 := by
  rw [channelWithdraw, if_neg (by simp [hf]), if_neg fun h => hc.elim (· h.1) fun e => absurd h.2 (by simp [e])]

theorem channelWithdraw_of_empty {s : State} {c : Nat} (hf : channelFull s c = false) : channelWithdraw s c = channelMark s c 23 := by
  rw [channelWithdraw, if_pos (by simp [hf])]

/-- A mark of STATUS, at a write that reaches CONTROL. -/
theorem channelMark_shows (s : State) (src : Source) (a c : Nat) {k : Nat} (hk : k < 32) :
    flag (channelMark (dropHeld s src a) c k) (channelStatus c) k = true ∧ (channelMark (dropHeld s src a) c k).channels = s.channels ∧
      RegsBut [channelStatus c, 0x7010] s (channelMark (dropHeld s src a) c k) :=
  ⟨(flag_channelMark _ c hk k).trans (if_pos rfl), channelMark_channels _ c k,
    (RegsBut.of_regs_eq _ (t := dropHeld s src a) rfl).channelMark (by simp) (by simp) k⟩

/-- A message under way over Kettle stays posted while the mate is asked. -/
theorem channelWithdraw_of_sent {s : State} (hf : channelFull s 11 = true) (hs : (channelAt s 11).sent = true) :
    channelFull (channelWithdraw s 11) 11 = true ∧ (channelAt (channelWithdraw s 11) 11).withdrawing = true := by
  have hk : ∀ {α : Type} {F : State → α}, ShowsNoKettle F →
      F (channelWithdraw s 11) = F (setChannel s 11 { channelAt s 11 with withdrawing := true }) := fun h => by
    rw [channelWithdraw, if_neg (by simp [hf]), if_pos ⟨rfl, hs⟩]
    exact h.kettleSend _ _ _ _ _
  refine ⟨(hk (F := (channelFull · 11)) ⟨fun _ _ => rfl, fun _ _ => rfl⟩).trans hf, ?_⟩
  rw [hk (F := (channelAt · 11)) ⟨fun _ _ => rfl, fun _ _ => rfl⟩, channelAt_setChannel_same]

/-- Settles O48: the slot of a message is emptied with its reason, or WITHDRAW_FAILED is marked. -/
theorem withdrawsRemoveOrFail : Obligations.WithdrawsRemoveOrFail := by
  refine ⟨fun s src c ha hs hf hc => ?_, fun s src c ha hs hf => ?_, fun s src ha hf hsent => ?_, fun s src c ha hs => ?_⟩
  · have he : exec (.withdraw src c) s = .next (channelWithdraw (dropHeld s src (channelBase c + 0x40)) c) :=
      congrArg done (guarded_bySender_of_eq ha hs _)
    rw [channelWithdraw_of_posted (s := dropHeld s src (channelBase c + 0x40)) hf (hc.imp id id)] at he
    exact ⟨_, he, discardMessage_shows (dropHeld s src (channelBase c + 0x40)) c (by decide)⟩
  · have he : exec (.withdraw src c) s = .next (channelWithdraw (dropHeld s src (channelBase c + 0x40)) c) :=
      congrArg done (guarded_bySender_of_eq ha hs _)
    rw [channelWithdraw_of_empty (s := dropHeld s src (channelBase c + 0x40)) hf] at he
    exact ⟨_, he, channelMark_shows s src _ c (by decide)⟩
  · exact ⟨_, congrArg done (guarded_bySender_of_eq (c := 11) ha (channelSender_of_admitted_eleven ha) _),
      channelWithdraw_of_sent (s := dropHeld s src (channelBase 11 + 0x40)) hf hsent⟩
  · exact congrArg done (guarded_bySender_of_ne ha hs _)

/-! ### Delivery (R352) -/

/-- The held words of channel `c` after a read of TAKE of `words`. -/
def heldCopied (s : State) (c : Nat) (words : List Nat) : State :=
  (List.range 15).foldl (fun s i => wr s (channelBase c + 0x4C + i * 4) (nth words (i + 1))) s

/-- Each of HELD_01 to HELD_15 reads the word copied into it. -/
theorem rd_heldCopied (s : State) (c : Nat) (words : List Nat) {i : Nat} (hi : i < 15) :
    rd (heldCopied s c words) (channelBase c + 0x4C + i * 4) = nth words (i + 1) % 2 ^ 32 := by
  have hd : ∀ j, nth words (j + 1) = nth (words.drop 1) j := fun j => by simp [nth, List.getD_eq_getElem?_getD]
  unfold heldCopied
  simp only [hd]
  exact (rd_compose _ _ s 15 i).trans (if_pos hi)

/-- The header of a posted message, and what Kettle shows of the state after it is taken. -/
theorem channelTake_of_full {s : State} {c : Nat} (hf : channelFull s c = true) {α : Type} {F : State → α} (h : ShowsNoKettle F) :
    (channelTake s c).1 = nth (channelAt s c).posted 0 ∧
      F (channelTake s c).2 = F (emptySlot (heldCopied s c (channelAt s c).posted) c) := by
  rw [channelTake, if_neg (by simp [hf])]
  exact ⟨rfl, view_ite (h.kettleSend _ _ _ _ _) rfl⟩

/-- The slot of a taken message, and the words of its receiver. -/
def takenFrom (c : Nat) (s : State) : Bool × Channel × (Nat → Nat) :=
  (channelFull s c, channelAt s c, fun i => rd s (channelBase c + 0x4C + i * 4))

theorem showsNoKettle_takenFrom (c : Nat) : ShowsNoKettle (takenFrom c) := ⟨fun _ _ => rfl, fun _ _ => rfl⟩

/-- A taken message: the channel is empty and the held words are its words. -/
theorem channelTake_delivers {s : State} {c : Nat} (hf : channelFull s c = true) :
    channelFull (channelTake s c).2 c = false ∧ channelAt (channelTake s c).2 c = {} ∧
      ∀ i, i < 15 → rd (channelTake s c).2 (channelBase c + 0x4C + i * 4) = nth (channelAt s c).posted (i + 1) % 2 ^ 32 := by
  have hk := (channelTake_of_full hf (showsNoKettle_takenFrom c)).2
  have hw : ∀ i, rd (channelTake s c).2 (channelBase c + 0x4C + i * 4) =
      rd (emptySlot (heldCopied s c (channelAt s c).posted) c) (channelBase c + 0x4C + i * 4) := fun i => congrArg (fun x => x.2.2 i) hk
  refine ⟨(congrArg Prod.fst hk).trans (channelFull_emptySlot _ c),
    (congrArg (fun x => x.2.1) hk).trans (channelAt_emptySlot _ c), fun i hi => (hw i).trans ?_⟩
  have hne : channelBase c + 0x4C + i * 4 ≠ channelStatus c := by simp only [channelStatus]; omega
  rw [emptySlot, rd_setFlag_other _ 31 false hne, rd_setChannel, rd_heldCopied s c _ hi]

/-- A receiver's read of TAKE. -/
theorem exec_take_of_mayRead {s : State} {src : Source} {c : Fin 12} (hr : heldInReset s .mailbox = false)
    (hm : mayRead s src (channelBase c + 0x48) = true) :
    exec (.take src c) s = .next (emit (channelTake (dropWindow s src) c).2
      (.value src (channelBase c + 0x48) (channelTake (dropWindow s src) c).1)) :=
  (if_neg (Bool.eq_false_iff.mp hr)).trans (if_neg (by
    have : mayRead (dropWindow s src) src (channelBase c + 0x48) = true := hm
    simp [this]))

/-- Settles O46: a read of TAKE empties a full channel into the held words, and returns 0 from an empty one. -/
theorem takesDeliverTheMessageOnce : Obligations.TakesDeliverTheMessageOnce := by
  refine ⟨fun s src c hr hm hf => ?_, fun s src c hr hm hf => ?_⟩
  · obtain ⟨he, hv, hw⟩ := channelTake_delivers (s := dropWindow s src) (c := c) hf
    have h0 := (channelTake_of_full (s := dropWindow s src) (c := c) hf (F := State.ports) ⟨fun _ _ => rfl, fun _ _ => rfl⟩).1
    refine ⟨_, exec_take_of_mayRead hr hm, he, hv, ?_, hw⟩
    rw [h0, emit_out, List.getLast?_append]
    rfl
  · have h0 : channelTake (dropWindow s src) c = (0, dropWindow s src) :=
      if_pos (by have : channelFull (dropWindow s src) c = false := hf; simp [this])
    refine ⟨_, exec_take_of_mayRead hr hm, ?_⟩
    rw [h0]
    exact ⟨rfl, rfl, rfl⟩

/-! ### Posting (R351) and resets of the sender (R356) -/

/-- The channel of a message just posted. -/
def postedChannel (s : State) (c : Nat) (words : List Nat) : Channel :=
  { posted := putBits (nth words 0) 7 0 (channelEpoch s c) :: words.drop 1, postedAt := now s, timed := false, sent := false,
    inReceiverReset := receiverInReset s c }

/-- FULL with the posted message, and what tells the receiver of it. -/
def slotFilled (s : State) (c : Nat) (words : List Nat) : State :=
  let s := setFlag (setChannel s c (postedChannel s c words)) (channelStatus c) 31 true
  if 6 ≤ c then raise s .mailbox (c + 2) else s

theorem channelFull_slotFilled (s : State) (c : Nat) (words : List Nat) : channelFull (slotFilled s c words) c = true := by
  refine (view_ite (F := (channelFull · c)) ?_ rfl).trans (flag_setFlag_same _ (channelStatus c) 31 true (by decide))
  exact congrArg (bitAt · 31) (rd_raise_other _ _ _ (channelStatus_ne_causes c))

theorem slotFilled_channels (s : State) (c : Nat) (words : List Nat) :
    (slotFilled s c words).channels = (setChannel s c (postedChannel s c words)).channels :=
  (view_ite (F := State.channels) (raise_channels _ _ _) rfl).trans (setFlag_channels _ _ _ _)

/-- A message on another channel than outbound M_0 is posted, and its receiver is perhaps down. -/
theorem postMessage_of_local (s : State) {c : Nat} (hc : c ≠ 11) (words : List Nat) :
    postMessage s c words = slotFilled s c words ∨ postMessage s c words = setReceiverDown (slotFilled s c words) c := by
  have h : postMessage s c words =
      if receiverIsDown (slotFilled s c words) c then setReceiverDown (slotFilled s c words) c else slotFilled s c words :=
    if_neg fun h => hc h.1
  rw [h]
  split
  · exact .inr rfl
  · exact .inl rfl

/-- What a posted message leaves: a full channel that holds it, and the other channels as they were. -/
theorem postMessage_posts (s : State) {c : Nat} (hc : c ≠ 11) (words : List Nat) :
    channelFull (postMessage s c words) c = true ∧ (channelAt (postMessage s c words) c).postedAt = now s ∧
      (channelAt (postMessage s c words) c).posted = putBits (nth words 0) 7 0 (channelEpoch s c) :: words.drop 1 ∧
      ∀ d, d ≠ c → channelAt (postMessage s c words) d = channelAt s d := by
  have filled : ∀ d, channelAt (slotFilled s c words) d = if d = c then postedChannel s c words else channelAt s d := fun d => by
    rw [channelAt, slotFilled_channels]
    exact channelAt_setChannel s c d _
  have down : ∀ d, channelAt (setReceiverDown (slotFilled s c words) c) d =
      if d = c then { postedChannel s c words with timed := true, down := true } else channelAt s d := fun d => by
    rw [channelAt, setReceiverDown, channelMark_channels, ← channelAt, channelAt_setChannel, filled, filled, if_pos rfl]
    split <;> rfl
  rcases postMessage_of_local s hc words with h | h <;> rw [h]
  · rw [filled, if_pos rfl]
    exact ⟨channelFull_slotFilled s c words, rfl, rfl, fun d hd => (filled d).trans (if_neg hd)⟩
  · rw [down, if_pos rfl]
    exact ⟨(channelFull_channelMark _ c (by decide)).trans (channelFull_slotFilled s c words), rfl, rfl,
      fun d hd => (down d).trans (if_neg hd)⟩

theorem channelGo_of_empty {s : State} {c : Nat} (hf : channelFull s c = false) : channelGo s c = postMessage s c (composed s c) :=
  if_neg (Bool.eq_false_iff.mp hf)

theorem channelGo_of_full {s : State} {c : Nat} (hf : channelFull s c = true) : channelGo s c = channelMark s c 24 := if_pos hf

/-- The words posted by GO are those composed. -/
theorem drop_composed (s : State) (c : Nat) : (composed s c).drop 1 = (List.range 15).map fun i => rd s (channelBase c + (i + 1) * 4) := by
  simp [composed, List.range_succ]

/-- A sender reset clears what was composed and advances the epoch, and leaves the message posted. -/
theorem senderReset_clears (s : State) (c : Nat) :
    (∀ i, i < 16 → rd (senderReset s c) (channelBase c + i * 4) = 0) ∧
      channelEpoch (senderReset s c) c = (channelEpoch s c + 1) % 256 ∧ channelFull (senderReset s c) c = channelFull s c ∧
      (senderReset s c).channels = s.channels := by
  have hrd : ∀ u : State, rd ((List.range 16).foldl (fun s i => wr s (channelBase c + i * 4) 0) u) (channelStatus c) =
    rd u (channelStatus c) :=
    fun u => view_foldl_mem (F := (rd · (channelStatus c))) (fun v i hi =>
      rd_wr_other v 0 (by have := List.mem_range.mp hi; simp only [channelStatus]; omega)) u
  refine ⟨fun i hi => ?_, ?_, ?_, ?_⟩
  · exact (rd_setFld_other _ _ _ _ (by simp only [channelStatus]; omega)).trans ((rd_compose _ [] s 16 i).trans (if_pos hi))
  · refine (fld_setFld_same _ _ _ _ _ (by decide) (by decide)).trans ?_
    rw [channelEpoch, fld, hrd]
    rfl
  · rw [channelFull, senderReset, flag_setFld _ _ _ _ _ _ _ (by decide) (by decide), if_neg (by omega), flag, hrd]
    rfl
  · rw [senderReset, setFld_channels]
    exact view_foldl (F := State.channels) (fun u i => wr_channels u (channelBase c + i * 4) 0) _ s

theorem guarded_channelReset {s : State} {src : Source} {c : Fin 12} (ha : Admitted s src (channelBase c + 0x40)) :
    exec (.senderReset src c) s = .next (channelReset (dropHeld s src (channelBase c + 0x40)) src c) := by
  rw [← atRegister_channelControl]
  exact congrArg done (guarded_of_admitted ha _)

/-- Settles O45: GO fills an empty channel and marks a full one; resets and absent receivers show in STATUS. -/
theorem mailboxMessagesArePosted : Obligations.MailboxMessagesArePosted := by
  refine ⟨fun s src c ha hs hf hc => ?_, fun s src c ha hs hf => ?_, fun s src c ha hs => ?_, fun s ha => ?_, fun s src c ha hn => ?_,
    fun s c hf hr hd => ?_, fun s c hf => ?_⟩
  · have he : exec (.mailboxGo src c) s = .next (channelGo (dropHeld s src (channelBase c + 0x40)) c) :=
      congrArg done (guarded_bySender_of_eq ha hs _)
    rw [channelGo_of_empty (s := dropHeld s src (channelBase c + 0x40)) hf] at he
    obtain ⟨hfull, hat, hw, ho⟩ := postMessage_posts (dropHeld s src (channelBase c + 0x40)) hc
      (composed (dropHeld s src (channelBase c + 0x40)) c)
    exact ⟨_, he, hfull, hat, hw.trans (congrArg _ (drop_composed _ c)), ho⟩
  · have he : exec (.mailboxGo src c) s = .next (channelGo (dropHeld s src (channelBase c + 0x40)) c) :=
      congrArg done (guarded_bySender_of_eq ha hs _)
    rw [channelGo_of_full (s := dropHeld s src (channelBase c + 0x40)) hf] at he
    exact ⟨_, he, channelMark_shows s src _ c (by decide)⟩
  · exact congrArg done (guarded_bySender_of_ne ha hs _)
  · exact ⟨_, guarded_channelReset (c := 4) ha, senderReset_clears (dropHeld s .i2c (channelBase 4 + 0x40)) 4⟩
  · have hk : channelReset (dropHeld s src (channelBase c + 0x40)) src c = dropHeld s src (channelBase c + 0x40) := by
      rw [channelReset, if_neg fun h => hn.elim (· h.1) (·.1 h.2), if_neg fun h => hn.elim (· h.1) (·.2 h.2)]
    exact ⟨_, (guarded_channelReset ha).trans (congrArg _ hk), rfl⟩
  · have he : exec (.receiverDown c) s = .next (channelNoted s c 29 { channelAt s c with timed := true, down := true }) :=
      congrArg done (if_pos ⟨hf, .inl hr, by simp [hd]⟩)
    obtain ⟨hm, hk, hv, hb⟩ := channelNoted_marks s c (k := 29) (by decide) { channelAt s c with timed := true, down := true }
    exact ⟨_, he, hm, hk.trans hf, hv, hb⟩
  · exact congrArg done (if_neg (by simp [hf]))

end Sys2Proof.Machine
end

section
/-! Attestation over DOE (R397): what a request that needs the negotiation is answered. -/

namespace Sys2Proof.Machine

section Served

variable {s : State} (hd : doeServes s = true)
include hd

/-- Before the negotiation every such request is an UnexpectedRequest. -/
theorem negotiatedAnswer_of_early (hn : s.colophon.negotiated = false) (needsKey good : Bool) (code : Nat) (words : State → List Nat) :
    negotiatedAnswer s needsKey good code words = doeError s 4 :=
  (if_neg (by simp [hd])).trans (if_pos (by simp [hn]))

variable (hn : s.colophon.negotiated = true)
include hn

/-- Without the identity key nothing is signed. -/
theorem negotiatedAnswer_of_keyless (hk : s.colophon.identity = false) (good : Bool) (code : Nat) (words : State → List Nat) :
    negotiatedAnswer s true good code words = doeError s 5 :=
  (if_neg (by simp [hd])).trans ((if_neg (by simp [hn])).trans (if_pos (.inr ⟨rfl, by simp [hk]⟩)))

variable (he : colophonError s = false) (hk : s.colophon.identity = true)
include he hk

/-- A device that may sign answers a good request, with a payload of its own draw. -/
theorem negotiatedAnswer_of_good (needsKey : Bool) (code : Nat) (words : State → List Nat) :
    negotiatedAnswer s needsKey true code words = doeAnswer (drawn s) code (words s) :=
  (if_neg (by simp [hd])).trans ((if_neg (by simp [hn])).trans ((if_neg (by simp [he, hk])).trans (if_neg (by simp))))

/-- A device that may sign refuses any other request. -/
theorem negotiatedAnswer_of_bad (needsKey : Bool) (code : Nat) (words : State → List Nat) :
    negotiatedAnswer s needsKey false code words = doeError s 1 :=
  (if_neg (by simp [hd])).trans ((if_neg (by simp [hn])).trans ((if_neg (by simp [he, hk])).trans (if_pos rfl)))

end Served

/-- Settles O58: each request by the order of its checks. -/
theorem attestationAnswers : Obligations.AttestationAnswers := by
  refine ⟨fun s hd => ⟨⟨_, congrArg done (if_pos hd), rfl, rfl, List.length_append⟩,
    ⟨_, congrArg done (if_pos hd), rfl, rfl, List.length_append⟩,
      ⟨_, congrArg done (if_pos hd), rfl, rfl, List.length_append⟩, fun code => congrArg done (if_pos hd)⟩,
    fun s slot a b i signed n hd hn => ?_, fun s a b n hd hn he hk => ?_, fun s slot n hd hn he hk h0 => ?_, fun s n hd hn hk => ?_⟩
  · have early := negotiatedAnswer_of_early hd hn
    exact ⟨_, rfl, congrArg done (early _ _ _ _), congrArg done (early _ _ _ _), congrArg done (early _ _ _ _),
      congrArg done (early _ _ _ _)⟩
  · have good := negotiatedAnswer_of_good hd hn he hk
    exact ⟨⟨_, spdmPayload s 0x81 0, congrArg done (good _ _ _), rfl⟩, ⟨_, spdmPayload s 0x82 a, congrArg done (good _ _ _), rfl⟩,
      ⟨_, spdmPayload s 0x83 0, congrArg done (good _ _ _), rfl⟩, congrArg done (good _ _ _)⟩
  · have hs : decide (slot = 0) = false := decide_eq_false h0
    exact congrArg done ((congrArg (negotiatedAnswer s true · _ _) hs).trans (negotiatedAnswer_of_bad hd hn he hk _ _ _))
  · exact congrArg done (negotiatedAnswer_of_keyless hd hn hk _ _ _)

end Sys2Proof.Machine
end

section
/-! Firmware takes commands and answers them (R360, R361, R363): what the taking of a command leaves, and what an answer posts. -/

namespace Sys2Proof.Machine

/-! ### Answers -/

/-- An answer into an empty outbound channel is what the requester finds there. -/
theorem answer_posts {s : State} {k : Nat} (hs : channelFull s (k + 6) = false) (head result detail : Nat) (results : List Nat) :
    channelFull (answer s k head result detail results) (k + 6) = true ∧
      nth (channelAt (answer s k head result detail results) (k + 6)).posted 1 = (result * 2 ^ 24 + detail) % 2 ^ 32 ∧
      ∀ i, i < 14 → nth (channelAt (answer s k head result detail results) (k + 6)).posted (i + 2) = nth results i % 2 ^ 32 := by
  obtain ⟨hfull, hword⟩ := slot_postOutbound hs
    ((2 ^ 28 + (1 + results.length) * 2 ^ 24 + (bits head 23 16 ||| 0x80) * 2 ^ 16 + bits head 15 8 * 2 ^ 8) ::
      (result * 2 ^ 24 + detail) :: results)
  exact ⟨hfull, hword 0 (by decide), fun i hi => hword (i + 1) (by omega)⟩

/-- The commands of the other channels stay. -/
theorem commandOf_respond_other {c : FwCommand} (hc : c.channel < 6) (s : State) (result detail : Nat) (results : List Nat) {k : Nat}
    (hk : k ≠ c.channel) : commandOf (respond s c result detail results) k = commandOf s k := by
  rw [commandOf, firmware_respond hc, commandOf, List.find?_filter]
  congr 1
  funext d
  by_cases h : d.channel = k <;> simp [h, hk]

/-- A register of the mailbox beside the status and the composing words of the channel that an answer goes to. -/
theorem rd_postMessage {a c : Nat} (ha : a ≠ channelStatus c) (hi : a ≠ Page.mailbox.at_ 0x10) (s : State) (words : List Nat) :
    rd (postMessage s c words) a = rd s a := by
  have hk : ShowsNoKettle (rd · a) := ⟨fun _ _ => rfl, fun _ _ => rfl⟩
  have hm : ∀ u k, rd (channelMark u c k) a = rd u a := fun u k =>
    (view_ite (F := (rd · a)) (rd_raise_other _ _ _ hi) rfl).trans (rd_setFlag_other u k true ha)
  have hd : ∀ u, rd (setReceiverDown u c) a = rd u a := fun u => (hm _ _).trans (rd_setChannel u c _ a)
  refine (view_ite (F := (rd · a)) ?_ (view_ite (F := (rd · a)) (hd _) rfl)).trans
    ((view_ite (F := (rd · a)) (rd_raise_other _ _ _ hi) rfl).trans ((rd_setFlag_other _ 31 true ha).trans (rd_setChannel s c _ a)))
  exact (rd_setChannel _ c _ a).trans ((hk.kettleSend _ _ _ _ _).trans (hk.kettleSend _ _ _ _ _))

/-- An answer leaves the status of its inbound channel as it is. -/
theorem channelFull_answer_same {s : State} {k : Nat} (hk : k < 6) (hs : channelFull s (k + 6) = false) (head result detail : Nat)
    (results : List Nat) : channelFull (answer s k head result detail results) k = channelFull s k := by
  have hne : channelStatus k ≠ channelStatus (k + 6) := by
    simp only [channelStatus, channelBase, if_pos hk, if_neg (show ¬ k + 6 < 6 by omega)]
    omega
  have hword : ∀ i, i < 16 → channelStatus k ≠ channelBase (k + 6) + i * 4 := fun i hi => by
    simp only [channelStatus, channelBase, if_pos hk, if_neg (show ¬ k + 6 < 6 by omega)]
    omega
  refine congrArg (bitAt · 31) ?_
  rw [answer, postOutbound, channelGo_of_empty ((channelFull_compose (k + 6) _ s).trans hs),
    rd_postMessage hne (channelStatus_ne_causes k)]
  exact view_foldl_mem (F := (rd · (channelStatus k))) (fun u i hi => rd_wr_other u _ (hword i (List.mem_range.mp hi))) s

/-! ### Taking a command -/

theorem heldCopied_firmware (s : State) (c : Nat) (words : List Nat) : (heldCopied s c words).firmware = s.firmware :=
  view_foldl (F := State.firmware) (fun u i => wr_firmware u (channelBase c + 0x4C + i * 4) (nth words (i + 1))) _ s

/-- The status of a channel is none of the words that a read of TAKE fills. -/
theorem rd_heldCopied_status (s : State) {c d : Nat} (hc : c < 6) (hd : d = c ∨ d = c + 6) (words : List Nat) :
    rd (heldCopied s c words) (channelStatus d) = rd s (channelStatus d) := by
  refine view_foldl_mem (F := (rd · (channelStatus d))) (fun u i hi => rd_wr_other u (nth words (i + 1)) ?_) s
  have h15 := List.mem_range.mp hi
  rcases hd with rfl | rfl
  · simp only [channelStatus]
    omega
  · simp only [channelStatus, channelBase, if_pos hc, if_neg (show ¬ c + 6 < 6 by omega)]
    omega

/-- What a command's taking shows: firmware, whether its two channels are full, and the sender's epoch. -/
def takingOf (k : Nat) (s : State) : Firmware × Bool × Bool × Nat := (s.firmware, channelFull s k, channelFull s (k + 6), channelEpoch s k)

/-- Emptying the slot of channel `k` shows in FULL of that channel alone. -/
theorem takingOf_emptySlot (u : State) {k : Nat} (hk : k < 6) :
    takingOf k (emptySlot u k) = (u.firmware, false, channelFull u (k + 6), channelEpoch u k) := by
  have hne : channelStatus (k + 6) ≠ channelStatus k := by
    simp only [channelStatus, channelBase, if_pos hk, if_neg (show ¬ k + 6 < 6 by omega)]
    omega
  have hout : channelFull (emptySlot u k) (k + 6) = channelFull u (k + 6) := congrArg (bitAt · 31) (rd_setFlag_other _ 31 false hne)
  have hepoch : channelEpoch (emptySlot u k) k = channelEpoch u k :=
    fld_setFlag_other (setChannel u k {}) (channelStatus k) 31 false (channelStatus k) 7 0 (by decide) (.inr (.inl (by decide)))
  rw [takingOf, channelFull_emptySlot, hout, hepoch, emptySlot, setFlag_firmware, setChannel_firmware]

theorem takingOf_channelTake {s : State} {k : Nat} (hk : k < 6) (hf : channelFull s k = true) :
    takingOf k (channelTake s k).2 = (s.firmware, false, channelFull s (k + 6), channelEpoch s k) := by
  rw [(channelTake_of_full hf (F := takingOf k) ⟨fun _ _ => rfl, fun _ _ => rfl⟩).2, takingOf_emptySlot _ hk, heldCopied_firmware,
    channelFull,
    channelEpoch, flag, fld, rd_heldCopied_status s hk (.inr rfl), rd_heldCopied_status s hk (.inl rfl)]
  rfl

/-- A check of a command's words looks at the epoch of its channel alone. -/
theorem checkCommand_congr {s t : State} {k : Nat} (h : channelEpoch t k = channelEpoch s k) (words : List Nat) :
    checkCommand t k words = checkCommand s k words := by
  unfold checkCommand
  rw [h]

/-- The state in which a command taken from channel `k` is checked. -/
def commandTaken (s : State) (k : Nat) : State :=
  { (channelTake s k).2 with firmware := { (channelTake s k).2.firmware with nextChannel := (k + 1) % 6 } }

theorem commandTaken_shows {s : State} {k : Nat} (hk : k < 6) (hf : channelFull s k = true) :
    (commandTaken s k).firmware = { s.firmware with nextChannel := (k + 1) % 6 } ∧ channelFull (commandTaken s k) k = false ∧
      channelFull (commandTaken s k) (k + 6) = channelFull s (k + 6) ∧ channelEpoch (commandTaken s k) k = channelEpoch s k := by
  have h := takingOf_channelTake hk hf
  simp only [takingOf, Prod.mk.injEq] at h
  obtain ⟨hfw, hempty, hout, hepoch⟩ := h
  refine ⟨?_, hempty, hout, hepoch⟩
  rw [commandTaken, hfw]

/-- The channel served next is one of the six, is full and has room for the answer. -/
theorem served_of_find {s : State} {k : Nat}
    (h : ((List.range 6).map fun i => (s.firmware.nextChannel + i) % 6).find? (takeable s) = some k) :
    k < 6 ∧ channelFull s k = true ∧ channelFull s (k + 6) = false := by
  have ht := List.find?_some h
  obtain ⟨i, -, hi⟩ := List.mem_map.mp (List.mem_of_find?_eq_some h)
  simp only [takeable, Bool.and_eq_true, Bool.not_eq_true'] at ht
  exact ⟨by omega, ht.1.1, ht.1.2⟩

theorem exec_firmwareTakeCommand_of_find {s : State} {k : Nat} (hr : s.firmware.running = true)
    (h : ((List.range 6).map fun i => (s.firmware.nextChannel + i) % 6).find? (takeable s) = some k) :
    exec .firmwareTakeCommand s = .next (takeCommand s k) := by
  refine congrArg done ((if_neg (by simp [hr])).trans ?_)
  rw [h]

/-- A command that passes its checks waits. -/
theorem takeCommand_of_good {s : State} {k : Nat} (he : channelEpoch (commandTaken s k) k = channelEpoch s k)
    (hc : checkCommand s k (channelAt s k).posted = none) :
    takeCommand s k = { commandTaken s k with firmware := { (commandTaken s k).firmware with
      commands := (commandTaken s k).firmware.commands ++ [{ channel := k, words := (channelAt s k).posted }] } } := by
  rw [← checkCommand_congr he] at hc
  unfold takeCommand
  dsimp only
  rw [← commandTaken, hc]
  rfl

/-- A command that fails a check is answered with its first failure. -/
theorem takeCommand_of_bad {s : State} {k result detail : Nat} (he : channelEpoch (commandTaken s k) k = channelEpoch s k)
    (hc : checkCommand s k (channelAt s k).posted = some (result, detail)) :
    takeCommand s k = answer (commandTaken s k) k (nth (channelAt s k).posted 0) result detail [] := by
  rw [← checkCommand_congr he] at hc
  unfold takeCommand
  dsimp only
  rw [← commandTaken, hc]

/-! ### The commands that show something -/

/-- A command answered with its results posts them. -/
theorem shown_of_waits {s : State} {k : Fin 6} {op : Nat} {c : FwCommand} (hw : CommandWaits s k op c) {r : Res} {l : List Nat}
    (hr : r = done (commandStep s k op fun c => respond s c 0 0 l)) :
    ∃ t, r = .next t ∧ t = respond s c 0 0 l ∧
      t = { s with regs := t.regs, channels := t.channels, kettle := t.kettle, firmware := t.firmware, out := t.out } ∧
      (channelFull s (k + 6) = false → Answers t k 0 l) := by
  obtain ⟨hc, h6⟩ := channel_of_waits hw
  exact ⟨_, hr.trans (congrArg done (commandStep_of_waits hw _)), rfl, respond_frame h6 s 0 0 l,
    fun hs => answers_respond hc hs (by decide) l⟩

/-- No command waits: nothing is carried out. -/
theorem commandStep_of_none {s : State} {k op : Nat} (h : commandOf s k = none) (act : FwCommand → State) : commandStep s k op act = s := by
  rw [commandStep, h]

/-- Settles O49: commands are taken in rotation, checked, and answered on the outbound channel of their own. -/
theorem firmwareTakesAndAnswers : Obligations.FirmwareTakesAndAnswers := by
  refine ⟨fun s k hr hf hc => ?_, fun s k result detail hr hf hc => ?_, fun s hr => congrArg done (if_pos (by simp [hr])),
    fun s c result detail l hc hs => ?_, fun s k c hw => shown_of_waits hw rfl, fun s k c p hw hp => ?_,
    fun s k c hw => shown_of_waits hw rfl,
    fun s k c hw => shown_of_waits hw rfl, fun s k hn => ?_⟩
  · obtain ⟨h6, hfull, -⟩ := served_of_find hf
    obtain ⟨hfw, hempty, -, hepoch⟩ := commandTaken_shows h6 hfull
    refine ⟨_, (exec_firmwareTakeCommand_of_find hr hf).trans (congrArg _ (takeCommand_of_good hepoch hc)), hempty, ?_, ?_⟩
    · simp only [hfw]
    · simp only [hfw]
  · obtain ⟨h6, hfull, hroom⟩ := served_of_find hf
    obtain ⟨hfw, hempty, hout, hepoch⟩ := commandTaken_shows h6 hfull
    have hs := hout.trans hroom
    obtain ⟨hp, hw, -⟩ := answer_posts hs (nth (channelAt s k).posted 0) result detail []
    have hfirmware := (showsNoMail_of_rfl fun _ _ _ _ _ => rfl : ShowsNoMail State.firmware).answer h6 (commandTaken s k)
      (nth (channelAt s k).posted 0) result detail []
    refine ⟨_, (exec_firmwareTakeCommand_of_find hr hf).trans (congrArg _ (takeCommand_of_bad hepoch hc)),
      (channelFull_answer_same h6 hs _ _ _ _).trans hempty, ?_, hp, hw⟩
    rw [hfirmware, hfw]
  · obtain ⟨hp, hw, hl⟩ := answer_posts
      (s := { s with firmware := { s.firmware with commands := s.firmware.commands.filter fun d => d.channel != c.channel } }) hs
      (nth c.words 0) result detail l
    exact ⟨hp, commandOf_respond hc s result detail l, hw, fun i _ hi => hl i hi,
      fun k hk => commandOf_respond_other hc s result detail l hk⟩
  · subst hp
    have h4 : bits (nth c.words 1) 1 0 = nth c.words 1 % 4 := bits_zero_eq_mod _ _
    obtain ⟨hc, h6⟩ := channel_of_waits hw
    rw [← h4]
    exact ⟨_, congrArg done (commandStep_of_waits hw _), rfl, respond_frame h6 s 0 0 _, fun hs => answers_respond hc hs (by decide) _⟩
  · exact ⟨congrArg done (commandStep_of_none hn _), congrArg done (commandStep_of_none hn _), congrArg done (commandStep_of_none hn _),
      congrArg done (commandStep_of_none hn _)⟩

end Sys2Proof.Machine
end

section
/-! Slices sleep and wake (R289 to R292): what SLEEP_STATUS shows, and what a slice that runs again finds. -/

namespace Sys2Proof.Machine

/-! ### SLEEP_STATUS -/

/-- SLEEP_STATUS with the deep, light and awake bits of slice `i`. -/
def sleepShown (s : State) (i : Nat) (deep light awake : Bool) : State :=
  setFlag (setFlag (setFlag s 0x3058 (16 + i) deep) 0x3058 (8 + i) light) 0x3058 i awake

theorem showSleep_of_awake {s : State} {i : Nat} (h : (sliceAt s i).sleep = .awake) : showSleep s i = sleepShown s i false false true := by
  rw [showSleep, h]
  rfl

theorem showSleep_of_light {s : State} {i : Nat} (h : (sliceAt s i).sleep = .light) : showSleep s i = sleepShown s i false true false := by
  rw [showSleep, h]
  rfl

theorem showSleep_of_deep {s : State} {i : Nat} (h : (sliceAt s i).sleep = .deep) : showSleep s i = sleepShown s i true false false := by
  rw [showSleep, h]
  rfl

theorem flags_sleepShown (s : State) {i : Nat} (hi : i < 8) (deep light awake : Bool) :
    flag (sleepShown s i deep light awake) 0x3058 i = awake ∧ flag (sleepShown s i deep light awake) 0x3058 (8 + i) = light ∧
      flag (sleepShown s i deep light awake) 0x3058 (16 + i) = deep := by
  have h0 : i < 32 := by omega
  have h8 : 8 + i < 32 := by omega
  have h16 : 16 + i < 32 := by omega
  refine ⟨flag_setFlag_same _ _ _ _ h0, ?_, ?_⟩
  · rw [sleepShown, flag_setFlag _ _ _ _ _ _ h0, if_neg (by omega), flag_setFlag_same _ _ _ _ h8]
  · rw [sleepShown, flag_setFlag _ _ _ _ _ _ h0, if_neg (by omega), flag_setFlag _ _ _ _ _ _ h8, if_neg (by omega),
      flag_setFlag_same _ _ _ _ h16]

theorem RegsBut.sleepShown {as : List Nat} {s t : State} (h : RegsBut as s t) (ha : 0x3058 ∈ as) (i : Nat) (deep light awake : Bool) :
    RegsBut as s (sleepShown t i deep light awake) := ((h.setFlag ha _ deep).setFlag ha _ light).setFlag ha _ awake

theorem sliceAt_sleepShown (s : State) (i j : Nat) (deep light awake : Bool) :
    sliceAt (sleepShown s i deep light awake) j = sliceAt s j := by
  rw [sliceAt, sleepShown, setFlag_slices, setFlag_slices, setFlag_slices, sliceAt]

/-! ### A counted event -/

/-- A counted event changes the counters alone. -/
theorem count_frame (s : State) (i n : Nat) : count s i n = { s with counters := (count s i n).counters } := by
  unfold count
  split
  · rfl
  · split <;> rfl

theorem sliceAt_count (s : State) (i n j : Nat) : sliceAt (count s i n) j = sliceAt s j := by rw [sliceAt, count_frame, sliceAt]

/-- A trigger starts a sleeping slice, which its wake counter counts. -/
theorem wakeSlice_of_asleep {s : State} {i : Nat} {deep : Bool} (h : (sliceAt s i).sleep = sleepOf deep) :
    wakeSlice s i = count (setSlice s i { sliceAt s i with sleep := .waking deep }) (6 + i) 1 := by
  cases deep <;> rw [wakeSlice, h] <;> rfl

theorem wakeSlice_of_asleep_frame {s : State} {i : Nat} {deep : Bool} (h : (sliceAt s i).sleep = sleepOf deep) :
    (wakeSlice s i).regs = s.regs ∧
      wakeSlice s i = { s with slices := (wakeSlice s i).slices, counters := (wakeSlice s i).counters } := by
  rw [wakeSlice_of_asleep h, count_frame]
  exact ⟨rfl, rfl⟩

/-! ### A slice that runs again (R291) -/

/-- The time asleep of slice `i` is counted. -/
def sleepCounted (s : State) (i : Nat) : State := count s (14 + i) ((now s - (sliceAt s i).asleepSince) / 1000)

/-- A slice that runs again, its time asleep counted, before its wake FIFO drains. -/
def sliceStarted (s : State) (i : Nat) : State :=
  sleepShown (setSlice (sleepCounted s i) i { sliceAt s i with sleep := .awake, idleSince := now s }) i false false true

theorem sliceRuns_of_waking {s : State} {i : Nat} {deep : Bool} (h : (sliceAt s i).sleep = .waking deep) :
    sliceRuns s i = if s.power.stallUntil.isSome then sliceStarted s i else drainFifo (sliceStarted s i) i := by
  have hs : (sliceStarted s i).power = s.power := by
    rw [sliceStarted, sleepCounted, count_frame]
    rfl
  have hu : showSleep (setSlice (sleepCounted s i) i
      { sliceAt (sleepCounted s i) i with
        sleep := .awake
        idleSince := now (sleepCounted s i) }) i = sliceStarted s i := by
    rw [showSleep_of_awake (congrArg SliceRt.sleep (sliceAt_setSlice_same _ i _)), sliceStarted, sleepCounted, sliceAt_count, now,
      count_frame]
    rfl
  rw [← hs, ← hu]
  simp only [sliceRuns, h, sleepCounted]
  rfl

theorem sliceAt_sliceStarted (s : State) (i : Nat) :
    sliceAt (sliceStarted s i) i = { sliceAt s i with sleep := .awake, idleSince := now s } := by
  rw [sliceStarted, sliceAt_sleepShown, sliceAt_setSlice_same]

theorem regsBut_sliceStarted (s : State) (i : Nat) : RegsBut [0x3058] s (sliceStarted s i) :=
  (RegsBut.of_regs_eq _ (t := setSlice (sleepCounted s i) i _) (count_regs s _ _)).sleepShown (by simp) i _ _ _

theorem frames_sliceStarted (s : State) (i : Nat) : (sliceStarted s i).frames = s.frames := by
  rw [sliceStarted, sleepCounted, count_frame]
  rfl

/-- An empty wake FIFO drains at once. -/
theorem drainFifo_of_empty {s : State} {i : Nat} (h : (sliceAt s i).wakeFifo = []) :
    drainFifo s i = setSlice s i { sliceAt s i with wakeFifo := [] } := by
  rw [drainFifo, h]
  rfl

/-- A slice that runs with nothing in its wake FIFO. -/
theorem sliceRuns_of_empty {s : State} {i : Nat} {deep : Bool} (h : (sliceAt s i).sleep = .waking deep) (hf : (sliceAt s i).wakeFifo = []) :
    (sliceAt (sliceRuns s i) i).sleep = .awake ∧ (sliceAt (sliceRuns s i) i).idleSince = now s ∧
      (sliceRuns s i).regs = (sliceStarted s i).regs := by
  have ha := sliceAt_sliceStarted s i
  rw [sliceRuns_of_waking h]
  split
  · rw [ha]
    exact ⟨rfl, rfl, rfl⟩
  · rw [drainFifo_of_empty (ha ▸ hf), sliceAt_setSlice_same, ha]
    exact ⟨rfl, rfl, rfl⟩

/-- Settles O35: each command moves the slice's sleep and shows it. -/
theorem slicesSleepAndWake : Obligations.SlicesSleepAndWake := by
  refine ⟨fun s i hd ha ht hq => ?_, fun s i hd hl ht => ?_, fun s i hl => ?_, fun s i hl => ?_, fun s i deep hw hf => ?_,
    fun s i deep hw hst => ?_, fun s i => ?_⟩
  · have he : exec (.sliceSleepEntry i) s = .next (sleepShown (setSlice s i { sliceAt s i with sleep := .light, asleepSince := now s })
        i false true false) := by
      rw [← showSleep_of_light (congrArg SliceRt.sleep (sliceAt_setSlice_same s i _))]
      exact congrArg done (if_pos ⟨hd, ha, ht, hq⟩)
    obtain ⟨h0, h8, -⟩ := flags_sleepShown (setSlice s i { sliceAt s i with sleep := .light, asleepSince := now s }) i.isLt false true false
    refine ⟨_, he, ?_, ?_, h0, h8, (RegsBut.of_regs_eq _ (t := setSlice s i _) rfl).sleepShown (by simp) _ _ _ _, rfl⟩ <;>
      rw [sliceAt_sleepShown, sliceAt_setSlice_same]
  · have he : exec (.sliceDeepSleep i) s = .next (sleepShown (setSlice s i { sliceAt s i with sleep := .deep }) i true false false) := by
      rw [← showSleep_of_deep (congrArg SliceRt.sleep (sliceAt_setSlice_same s i _))]
      exact congrArg done (if_pos ⟨hd, hl, ht⟩)
    obtain ⟨-, -, h16⟩ := flags_sleepShown (setSlice s i { sliceAt s i with sleep := .deep }) i.isLt true false false
    refine ⟨_, he, ?_, h16, (RegsBut.of_regs_eq _ (t := setSlice s i _) rfl).sleepShown (by simp) _ _ _ _, rfl⟩
    rw [sliceAt_sleepShown, sliceAt_setSlice_same]
  · exact ⟨_, rfl, sleep_wakeSlice (deep := false) hl, wakeSlice_of_asleep_frame (deep := false) hl⟩
  · exact ⟨_, rfl, sleep_wakeSlice (deep := true) hl, wakeSlice_of_asleep_frame (deep := true) hl⟩
  · obtain ⟨hs, hi, hr⟩ := sliceRuns_of_empty hw hf
    obtain ⟨h0, h8, h16⟩ := flags_sleepShown (setSlice (sleepCounted s i) i
      { sliceAt s i with sleep := .awake, idleSince := now s }) i.isLt false false true
    exact ⟨_, rfl, hs, hi, (flag_of_regs_eq hr _ _).trans h0, (flag_of_regs_eq hr _ _).trans h8, (flag_of_regs_eq hr _ _).trans h16,
      (RegsBut.of_regs_eq _ hr).trans (regsBut_sliceStarted s i)⟩
  · have he : sliceRuns s i = sliceStarted s i := (sliceRuns_of_waking hw).trans (if_pos hst)
    have ha := sliceAt_sliceStarted s i
    refine ⟨_, rfl, settled_sliceRuns s i, ?_⟩
    rw [he, ha]
    exact ⟨rfl, rfl, frames_sliceStarted s i, regsBut_sliceStarted s i⟩
  · refine ⟨_, rfl, settled_sliceRuns s i, fun ha => ?_⟩
    rw [sliceRuns, ha]

end Sys2Proof.Machine
end

section
/-! The power governor (R293 to R298, R444): what an undone step, the emergency cap and the voltage's confirmation leave. -/

namespace Sys2Proof.Machine

/-- `s` with the registers, power, messages, counters and errors of `t`: all that the governor and its reports reach. -/
def withPowerOf (t s : State) : State :=
  { s with regs := t.regs, power := t.power, out := t.out, counters := t.counters, errors := t.errors }

/-- That of `s` which no step of power control touches, with the rest taken from `t`. -/
theorem shows_withPowerOf (t : State) : Shows (withPowerOf t) [] := shows_of_rfl fun _ _ _ _ _ => rfl

theorem shows_power : Shows State.power [] := shows_of_rfl fun _ _ _ _ _ => rfl

theorem flag_report {a : Nat} (h2 : a / 0x1000 ≠ 2) (hd : a ≠ 0xD010) (s : State) (code : Nat) (p : Page) (detail : List Nat) (k : Nat) :
    flag (report s code p detail) a k = flag s a k := congrArg (bitAt · k) (rd_report_other s code p detail h2 hd)

/-- A tally reaches no register but its own, those of reports, and INT_STATUS of the counters. -/
theorem rd_tally {a b : Nat} (hb : b ≠ a) (h2 : a / 0x1000 ≠ 2) (hd : a ≠ 0xD010) (s : State) : rd (tally s b) a = rd s a :=
  (shows_rd h2 hd).tally (by simpa using hb) s

/-! ### The governor's steps (R295) -/

/-- The governor's steps `l` in force and shown, and the change counted. -/
def stepsShown (s : State) (l : List GovStep) : State :=
  tally (raise (showSteps (setPower s { s.power with steps := l })) .power 0) 0x3084

theorem undoStep_of_cons {s : State} {g : GovStep} {l : List GovStep} (h : s.power.steps = g :: l) :
    undoStep s = raiseVoltage (if g.step = 4 then unshed (stepsShown s l) g.port else stepsShown s l) := by
  rw [undoStep, h]
  rfl

theorem power_stepsShown (s : State) (l : List GovStep) : (stepsShown s l).power = { s.power with steps := l } :=
  (shows_power.tally (by simp) _).trans ((raise_power _ _ _).trans ((setFld_power _ _ _ _ _).trans (setFld_power _ _ _ _ _)))

theorem rd_stepsShown {a : Nat} (ha : a ≠ 0x3084) (hi : a ≠ 0x3010) (h2 : a / 0x1000 ≠ 2) (hd : a ≠ 0xD010) (s : State) (l : List GovStep) :
    rd (stepsShown s l) a = rd (showSteps (setPower s { s.power with steps := l })) a :=
  (rd_tally (Ne.symm ha) h2 hd _).trans (rd_raise_other _ _ _ hi)

theorem flag_stepsShown_cause (s : State) (l : List GovStep) : flag (stepsShown s l) 0x3010 0 = true :=
  (congrArg (bitAt · 0) (rd_tally (by decide) (by decide) (by decide) _)).trans
    ((flag_raise _ .power 0 _ _ (by decide)).trans (if_pos (by decide)))

theorem fld_stepsShown_top (s : State) (l : List GovStep) : fld (stepsShown s l) 0x3050 28 26 = topStep (stepsShown s l) % 8 := by
  have ht : topStep (stepsShown s l) = topStep (setPower s { s.power with steps := l }) := by
    rw [topStep, power_stepsShown]
    rfl
  rw [ht, fld, rd_stepsShown (by decide) (by decide) (by decide) (by decide)]
  exact (fld_setFld_other _ _ _ _ _ _ _ _ (by decide) (by decide) (.inr (.inr (by decide)))).trans
    (fld_setFld_same _ _ _ _ _ (by decide) (by decide))

theorem withPowerOf_stepsShown (t s : State) (l : List GovStep) : withPowerOf t (stepsShown s l) = withPowerOf t s :=
  ((shows_withPowerOf t).tally (by simp) _).trans ((shows_withPowerOf t).raise (by simp) _ _)

/-! ### The voltage (R298) -/

/-- A higher voltage asked for: VOUT and the target, and nothing else of the governor. -/
theorem raiseVoltage_frame (s : State) :
    withPowerOf (raiseVoltage s) s = raiseVoltage s ∧ (raiseVoltage s).power.steps = s.power.steps ∧
      (raiseVoltage s).power.relaxSince = s.power.relaxSince ∧ RegsBut [0x3050] s (raiseVoltage s) ∧
      fld (raiseVoltage s) 0x3050 28 26 = fld s 0x3050 28 26 := by
  unfold raiseVoltage
  dsimp only
  split
  · exact ⟨rfl, rfl, rfl, fun _ _ => rfl, rfl⟩
  · refine ⟨rfl, rfl, rfl, ?_, fld_setFld_other s _ _ _ _ _ _ _ (by decide) (by decide) (.inr (.inr (by decide)))⟩
    exact RegsBut.wr (fun _ _ => rfl) (by simp) _

/-- A relaxed governor, beside a shed port. -/
theorem undoStep_relaxes {s : State} {g : GovStep} {l : List GovStep} (h : s.power.steps = g :: l) (h4 : g.step ≠ 4) :
    (undoStep s).power.steps = l ∧ (undoStep s).power.relaxSince = s.power.relaxSince ∧ flag (undoStep s) 0x3010 0 = true ∧
      fld (undoStep s) 0x3050 28 26 = topStep (undoStep s) % 8 ∧ undoStep s = withPowerOf (undoStep s) s := by
  have hu : undoStep s = raiseVoltage (stepsShown s l) := by rw [undoStep_of_cons h, if_neg h4]
  obtain ⟨hframe, hsteps, hrelax, hregs, hfld⟩ := raiseVoltage_frame (stepsShown s l)
  rw [← hu] at hframe hsteps hrelax hregs hfld
  rw [power_stepsShown] at hsteps hrelax
  refine ⟨hsteps, hrelax, (congrArg (bitAt · 0) (hregs 0x3010 (by simp))).trans (flag_stepsShown_cause s l), ?_, ?_⟩
  · rw [hfld, fld_stepsShown_top, topStep, power_stepsShown, topStep, hsteps]
  · exact (hframe.symm.trans (withPowerOf_stepsShown _ s l))

/-! ### The emergency cap (R297) -/

/-- The cap is shown and counted, before the clock steps down. -/
def capShown (s : State) : State :=
  report (tally (raise (setFlag (setPower s { s.power with calm := 0 }) 0x3050 29 true) .power 1) 0x3080) 0x0703 .alwaysOn []

theorem emergencyCap_of_calm {s : State} (h : emergency s = false) :
    emergencyCap s = if runClock (capShown s) < 2 then lowerClock (capShown s) 2 else capShown s :=
  if_neg (Bool.eq_false_iff.mp h)

theorem rd_capShown {a : Nat} (ha : a ≠ 0x3080) (hi : a ≠ 0x3010) (h2 : a / 0x1000 ≠ 2) (hd : a ≠ 0xD010) (s : State) :
    rd (capShown s) a = rd (setFlag s 0x3050 29 true) a :=
  (rd_report_other _ _ _ _ h2 hd).trans ((rd_tally (Ne.symm ha) h2 hd _).trans (rd_raise_other _ .power 1 hi))

theorem power_capShown (s : State) : (capShown s).power = { s.power with calm := 0 } :=
  (shows_power.report _ _ _ _).trans ((shows_power.tally (by simp) _).trans ((raise_power _ _ _).trans (setFlag_power _ _ _ _)))

theorem emergency_capShown (s : State) : emergency (capShown s) = true :=
  (congrArg (bitAt · 29) (rd_capShown (by decide) (by decide) (by decide) (by decide) s)).trans
    (flag_setFlag_same s 0x3050 29 true (by decide))

/-- A clock step changes no register but POWER_STATUS, where it leaves the flags and shows the new clock. -/
theorem setClock_shows (s : State) {code : Nat} (hc : code < 4) :
    RegsBut [0x3050] s (setClock s code) ∧ runClock (setClock s code) = code ∧ (setClock s code).power.calm = s.power.calm ∧
      emergency (setClock s code) = emergency s := by
  by_cases h : runClock s = code
  · rw [setClock, if_pos h]
    exact ⟨fun _ _ => rfl, h, rfl, rfl⟩
  · rw [setClock, if_neg h]
    refine ⟨RegsBut.wr (fun _ _ => rfl) (by simp) _, ?_, rfl, ?_⟩
    · exact (fld_setFld_same s 0x3050 31 30 code (by decide) (by decide)).trans (Nat.mod_eq_of_lt hc)
    · exact (flag_setFld s 0x3050 31 30 code 0x3050 29 (by decide) (by decide)).trans (if_neg (by decide))

theorem lowerClock_shows (s : State) {code : Nat} (hc : code < 4) :
    RegsBut [0x3050] s (lowerClock s code) ∧ runClock (lowerClock s code) = code ∧ (lowerClock s code).power.calm = s.power.calm ∧
      emergency (lowerClock s code) = emergency s := by
  obtain ⟨hregs, hclock, hcalm, hem⟩ := setClock_shows s hc
  refine ⟨hregs.wr (by simp) _, ?_, hcalm, ?_⟩
  · exact (fld_setFld_other (setClock s code) 0x3050 15 0 _ 0x3050 31 30 (by decide) (by decide) (by decide)).trans hclock
  · exact ((flag_setFld (setClock s code) 0x3050 15 0 _ 0x3050 29 (by decide) (by decide)).trans (if_neg (by decide))).trans hem

/-- The emergency cap: 0.8 GHz or below at once, and shown. -/
theorem emergencyCap_caps {s : State} (h : emergency s = false) :
    emergency (emergencyCap s) = true ∧ 2 ≤ runClock (emergencyCap s) ∧ (emergencyCap s).power.calm = 0 ∧
      fld (emergencyCap s) 0x3054 15 0 = fld s 0x3054 15 0 ∧ (emergencyCap s).power.alert = s.power.alert := by
  have hest : fld (capShown s) 0x3054 15 0 = fld s 0x3054 15 0 := congrArg (bits · 15 0)
    ((rd_capShown (by decide) (by decide) (by decide) (by decide) s).trans (rd_setFlag_other s 29 true (by decide)))
  have hp := power_capShown s
  rw [emergencyCap_of_calm h]
  split
  · obtain ⟨hregs, hclock, hcalm, hem⟩ := lowerClock_shows (capShown s) (code := 2) (by decide)
    refine ⟨hem.trans (emergency_capShown s), hclock.ge, hcalm.trans (by rw [hp]),
      (congrArg (bits · 15 0) (hregs 0x3054 (by simp))).trans hest, ?_⟩
    have ha : (lowerClock (capShown s) 2).power.alert = (capShown s).power.alert := by
      refine (view_ite (F := fun u : State => u.power.alert) rfl ?_ : (setClock (capShown s) 2).power.alert = _)
      rfl
    rw [ha, hp]
  · exact ⟨emergency_capShown s, by omega, by rw [hp], hest, by rw [hp]⟩

/-! ### The commands -/

theorem exec_govRelax_of_due {s : State} {g : GovStep} {l : List GovStep} (h : s.power.steps = g :: l) (hw : thermalWarn s = false)
    (ht : s.power.relaxSince + max 1 (fld s 0x3044 7 0) * 1000000 ≤ now s) :
    exec .govRelax s = .next (undoStep (setPower s { s.power with relaxSince := now s })) :=
  congrArg done (if_pos ⟨by simp [h], by simp [hw], ht⟩)

/-- The estimate is shown. -/
def estimateShown (s : State) (n : Nat) : State := setFld s 0x3054 15 0 (calibrated s n)

theorem fld_estimateShown (s : State) (n : Nat) : fld (estimateShown s n) 0x3054 15 0 = calibrated s n :=
  (fld_setFld_same s 0x3054 15 0 _ (by decide) (by decide)).trans (Nat.mod_eq_of_lt (by unfold calibrated; omega))

theorem hardCap_estimateShown (s : State) (n : Nat) : hardCap (estimateShown s n) = hardCap s := by
  rw [hardCap, estimateShown, fld, rd_setFld_other _ _ _ _ (by decide), ← fld, hardCap]

theorem exec_fastEstimate_of_powered {s : State} (h : s.startup.aonUp = true) (n : Nat) :
    exec (.fastEstimate n) s = .next (if coreRuns s ∧ (hardCap s < calibrated s n ∨ s.power.alert) then emergencyCap (estimateShown s n)
      else estimateShown s n) := by
  rw [← hardCap_estimateShown s n]
  exact congrArg done (if_neg (by simp [h]))

theorem exec_pmbusAlert_of_powered {s : State} (h : s.startup.aonUp = true) (b : Bool) :
    exec (.pmbusAlert b) s = .next (if b ∧ coreRuns s then emergencyCap (setPower s { s.power with alert := b })
      else setPower s { s.power with alert := b }) := congrArg done (if_neg (by simp [h]))

/-- The end of the 2 ms without a confirmation. -/
theorem exec_pmbusError_of_some {s : State} {r : Nat} (h : s.power.voltageAt = some r) :
    exec .pmbusError s = .next (if r + 2000000 ≤ now s then
      report (raise (setPower s { s.power with voltageAt := none, failed := true }) .power 2) 0x0704 .alwaysOn [] else s) := by
  change execPmbusError s = _
  unfold execPmbusError
  rw [h]
  rfl

theorem agingMonitorRead_keeps {s : State} (h : s.startup.aonUp = true) (n : Nat) :
    ∃ t, exec (.agingMonitorRead n) s = .next t ∧ t.power.uplift = max s.power.uplift (min 8 n) ∧
      t.power.agingWanted = (s.power.agingWanted || decide (8 < n)) ∧ RegsBut [0x3050] s t := by
  have he : ∀ t, (if s.power.uplift < min 8 n ∧ s.power.voltageAt.isNone then
      writeVoltage (setPower s { s.power with
        uplift := max s.power.uplift (min 8 n), agingWanted := s.power.agingWanted || decide (8 < n) })
        s.power.supported
      else setPower s { s.power with uplift := max s.power.uplift (min 8 n), agingWanted := s.power.agingWanted || decide (8 < n) }) = t →
      exec (.agingMonitorRead n) s = .next t := fun t ht => by
    rw [← ht]
    exact (if_neg (by simp [h])).trans rfl
  refine ⟨_, he _ rfl, ?_⟩
  split
  · exact ⟨rfl, rfl, RegsBut.wr (fun _ _ => rfl) (by simp) _⟩
  · exact ⟨rfl, rfl, fun _ _ => rfl⟩

/-- Settles O36: the governor's step, the emergency cap and the voltage by their commands. -/
theorem powerIsGoverned : Obligations.PowerIsGoverned := by
  refine ⟨fun s g l hl hw ht => ?_, fun s h => ?_, fun s n ha hn hc => ?_, fun s n ha hr hc he => ?_, fun s ha hr he => ?_, fun s ha => ?_,
    fun s n b ha => ?_, fun s hv => ?_, fun s hv => ?_, fun s r hv ht => ?_, fun s r hv ht => ?_, fun s n ha => agingMonitorRead_keeps ha n,
    fun s a b hr => ?_⟩
  · refine ⟨_, exec_govRelax_of_due hl hw ht, rfl, ?_, fun h4 => undoStep_relaxes (by exact hl) h4⟩
    exact congrArg Prod.fst (inForce_undoStep (setPower s { s.power with relaxSince := now s }))
  · refine congrArg done (if_neg fun ⟨hs, hn, _⟩ => ?_)
    exact h.elim (fun e => hs e) fun e => by simp [e] at hn
  · refine ⟨_, (exec_fastEstimate_of_powered ha n).trans (congrArg _ (if_neg fun h => ?_)), fld_estimateShown s n,
      RegsBut.wr (fun _ _ => rfl) (by simp) _, rfl⟩
    exact h.2.elim (by omega) (by simp [hn])
  · obtain ⟨hem, hclock, hcalm, hest, -⟩ := emergencyCap_caps (s := estimateShown s n)
      ((congrArg (bitAt · 29) (rd_setFld_other s 15 0 _ (by decide))).trans he)
    exact ⟨_, (exec_fastEstimate_of_powered ha n).trans (congrArg _ (if_pos ⟨hr, hc⟩)), hest.trans (fld_estimateShown s n), hem, hclock,
      hcalm⟩
  · obtain ⟨hem, hclock, -, -, halert⟩ := emergencyCap_caps (s := setPower s { s.power with alert := true }) he
    exact ⟨_, (exec_pmbusAlert_of_powered ha true).trans (congrArg _ (if_pos ⟨rfl, hr⟩)), hem, hclock, halert⟩
  · exact ⟨_, (exec_pmbusAlert_of_powered ha false).trans (congrArg _ (if_neg (by simp))), rfl⟩
  · exact ⟨congrArg done (if_pos (by simp [ha])), congrArg done (if_pos (by simp [ha]))⟩
  · exact ⟨_, congrArg done (if_pos hv), rfl⟩
  · exact congrArg done (if_neg (by simp [hv]))
  · refine ⟨_, (exec_pmbusError_of_some hv).trans (congrArg _ (if_pos ht)), ?_, ?_⟩
    · exact (shows_power.report _ _ _ _).trans (raise_power _ _ _)
    · exact (flag_report (by decide) (by decide) _ _ _ _ _).trans ((flag_raise _ .power 2 _ _ (by decide)).trans (if_pos (by decide)))
  · exact (exec_pmbusError_of_some hv).trans (congrArg _ (if_neg (by omega)))
  · exact ⟨_, congrArg done (if_pos hr), rfl⟩

end Sys2Proof.Machine
end

section
/-! What the end of front egress (R262), the discard of spilled sheets (R177) and the loss of Kettle (R273) leave of the device's
controllers: the always-on page but for what a report latches, the clocks, the power state, firmware, the sequencer,
Colophon, the pins and the host. -/

namespace Sys2Proof.Machine

/-! ### Views beside the traffic -/

/-- A register outside the always-on page, or one of its error latches (R418). -/
def BesideAlwaysOn (a : Nat) : Prop := a / 0x1000 ≠ 2 ∨ a = 0x209C ∨ a = 0x20A0 ∨ a = 0x20A4

/-- The view shows neither frames, queues, sheets and ports nor the twin link, the mailbox, records, counters and reports. -/
structure ShowsNoTraffic {α : Type} (F : State → α) : Prop where
  word : ∀ s a v, BesideAlwaysOn a → F (wr s a v) = F s
  faultLogged : ∀ s, F (setFlag s 0x2094 25 true) = F s
  counters : ∀ s x, F { s with counters := x } = F s
  errors : ∀ s x, F { s with errors := x } = F s
  out : ∀ s x, F { s with out := x } = F s
  queues : ∀ s x, F { s with queues := x } = F s
  frames : ∀ s x, F { s with frames := x } = F s
  nextFrame : ∀ s x, F { s with nextFrame := x } = F s
  ports : ∀ s x, F { s with ports := x } = F s
  slices : ∀ s x, F { s with slices := x } = F s
  buffer : ∀ s x, F { s with buffer := x } = F s
  spill : ∀ s x, F { s with spill := x } = F s
  captures : ∀ s x, F { s with captures := x } = F s
  captureSeq : ∀ s x, F { s with captureSeq := x } = F s
  traces : ∀ s x n, F { s with traces := x, traceSeq := n } = F s
  twin : ∀ s x, F { s with twin := x } = F s
  channels : ∀ s x, F { s with channels := x } = F s
  kettle : ∀ s x, F { s with kettle := x } = F s

/-- A view of the registers alone. -/
theorem showsNoTraffic_of_regs {α : Type} {G : Sparse Word32 → α} (hw : ∀ s a v, BesideAlwaysOn a → G (wr s a v).regs = G s.regs)
    (hf : ∀ s, G (setFlag s 0x2094 25 true).regs = G s.regs) : ShowsNoTraffic (fun s => G s.regs) where
  word := hw
  faultLogged := hf
  counters _ _ := rfl
  errors _ _ := rfl
  out _ _ := rfl
  queues _ _ := rfl
  frames _ _ := rfl
  nextFrame _ _ := rfl
  ports _ _ := rfl
  slices _ _ := rfl
  buffer _ _ := rfl
  spill _ _ := rfl
  captures _ _ := rfl
  captureSeq _ _ := rfl
  traces _ _ _ := rfl
  twin _ _ := rfl
  channels _ _ := rfl
  kettle _ _ := rfl

/-- A register of the always-on page that no report latches. -/
theorem showsNoTraffic_rd {a : Nat} (hp : a / 0x1000 = 2) (ha : a ≠ 0x2094 ∧ a ≠ 0x209C ∧ a ≠ 0x20A0 ∧ a ≠ 0x20A4) :
    ShowsNoTraffic (fun s => rd s a) := by
  obtain ⟨h94, h9C, hA0, hA4⟩ := ha
  refine showsNoTraffic_of_regs (G := fun regs => (sget resetWord regs a).toNat) (fun s b v hb => rd_wr_other s v ?_)
    fun s => rd_setFlag_other s 25 true h94
  unfold BesideAlwaysOn at hb
  omega

/-- A bit of FAULT_STATUS but the one of reports. -/
theorem showsNoTraffic_fault {k : Nat} (hk : k ≠ 25) : ShowsNoTraffic (fun s => flag s 0x2094 k) := by
  refine showsNoTraffic_of_regs (G := fun regs => bitAt (sget resetWord regs 0x2094).toNat k) (fun s b v hb => flag_wr_other s v k ?_)
    fun s => (flag_setFlag s 0x2094 25 true 0x2094 k (by decide)).trans (if_neg fun e => hk e.2)
  unfold BesideAlwaysOn at hb
  omega

/-- The controllers themselves: start-up, firmware, the clocks, the power state, the sequencer, Colophon, the pins and the host. -/
def controllers (s : State) : Startup × Firmware × Clock × Power × Seq × Colophon × Pins × HostIf :=
  (s.startup, s.firmware, s.clock, s.power, s.seq, s.colophon, s.pins, s.host)

theorem controllers_iff {s t : State} : controllers t = controllers s ↔ t.startup = s.startup ∧ t.firmware = s.firmware ∧
    t.clock = s.clock ∧ t.power = s.power ∧ t.seq = s.seq ∧ t.colophon = s.colophon ∧ t.pins = s.pins ∧ t.host = s.host := by
  simp only [controllers, Prod.mk.injEq]

theorem showsNoTraffic_controllers : ShowsNoTraffic controllers where
  word _ _ _ _ := rfl
  faultLogged _ := rfl
  counters _ _ := rfl
  errors _ _ := rfl
  out _ _ := rfl
  queues _ _ := rfl
  frames _ _ := rfl
  nextFrame _ _ := rfl
  ports _ _ := rfl
  slices _ _ := rfl
  buffer _ _ := rfl
  spill _ _ := rfl
  captures _ _ := rfl
  captureSeq _ _ := rfl
  traces _ _ _ := rfl
  twin _ _ := rfl
  channels _ _ := rfl
  kettle _ _ := rfl

namespace ShowsNoTraffic

variable {α : Type} {F : State → α} (h : ShowsNoTraffic F)
include h

/-! ### Registers, counters and reports -/

theorem setFld (s : State) {a : Nat} (hi lo v : Nat) (ha : a / 0x1000 ≠ 2) : F (setFld s a hi lo v) = F s := h.word s a _ (.inl ha)

theorem setFlag (s : State) {a : Nat} (k : Nat) (b : Bool) (ha : a / 0x1000 ≠ 2) : F (setFlag s a k b) = F s := h.word s a _ (.inl ha)

theorem raise (s : State) {p : Page} (k : Nat) (hp : p.at_ 0x10 / 0x1000 ≠ 2) : F (raise s p k) = F s :=
  (h.setFld _ k k 1 hp).trans (h.out s _)

theorem count (s : State) (i n : Nat) : F (count s i n) = F s := view_count h.counters s i n

theorem countDrop (s : State) (r n : Nat) : F (countDrop s r n) = F s := (h.count _ _ _).trans (h.counters s _)

theorem latchErr (s : State) (r : ErrRec) : F (latchErr s r) = F s := by
  have fault : ∀ u, F (setFault u 25) = F u := fun u => (h.faultLogged _).trans (view_ite (h.out u _) rfl)
  refine (view_ite (fault _) rfl).trans ((view_ite (h.errors _ _) rfl).trans ?_)
  exact (h.word _ 0x20A4 _ (by unfold BesideAlwaysOn; decide)).trans ((h.word _ 0x20A0 _ (by unfold BesideAlwaysOn; decide)).trans
    (h.word _ 0x209C _ (by unfold BesideAlwaysOn; decide)))

theorem reportAs (s : State) (cls code : Nat) (p : Page) (detail : List Nat) : F (reportAs s cls code p detail) = F s := by
  refine view_ite rfl ((view_ite (h.latchErr _ _) rfl).trans ?_)
  exact (view_ite rfl (h.errors _ _)).trans ((view_ite (h.count _ cls 1) rfl).trans (h.counters s _))

/-- A report latches its error and counts it. -/
theorem report (s : State) (code : Nat) (p : Page) (detail : List Nat) : F (report s code p detail) = F s := h.reportAs s _ _ _ _

/-- An event of a narrow counter whose register is not shown. -/
theorem tallyAt {a : Nat} (hw : ∀ u v, F (wr u a v) = F u) (s : State) : F (Machine.tally s a) = F s := by
  have saturated : ∀ u, F (saturate u a) = F u := fun u => (h.report _ _ _ _).trans ((h.raise _ _ (by decide)).trans (hw u _))
  exact view_ite (hw s _) (view_ite (hw s _) ((saturated _).trans (hw s _)))

/-- An event of a narrow counter outside the always-on page. -/
theorem tally (s : State) {a : Nat} (ha : a / 0x1000 ≠ 2) : F (tally s a) = F s := h.tallyAt (fun u v => h.word u a v (.inl ha)) s

theorem countBoth (s : State) (first i n : Nat) : F (countBoth s first i n) = F s := (h.count _ _ _).trans (h.count _ _ _)

theorem countQueueDrop (s : State) (q len : Nat) : F (countQueueDrop s q len) = F s := by
  have counted : ∀ i, F (countQueue s q i len) = F s := fun i => by
    unfold countQueue
    split
    · rfl
    · exact h.countBoth _ _ _ _
  exact (h.countBoth _ _ _ _).trans (counted 4)

/-! ### Slices and flow control -/

theorem wakeForQueue (s : State) (q : Nat) : F (wakeForQueue s q) = F s := by
  unfold Machine.wakeForQueue
  split
  · exact view_ite (view_wakeSlice h.count h.slices s _) rfl
  · rfl

theorem fcEmit (p : Nat) (s : State) (d : Nat × Nat) : F (fcEmit p s d) = F s := (h.out _ _).trans ((h.count _ _ _).trans (h.ports s _))

theorem fcFlush (s : State) (p : Nat) : F (fcFlush s p) = F s := view_ite rfl ((view_foldl (h.fcEmit p) _ _).trans (h.ports s _))

theorem fcSend (s : State) (p k quanta : Nat) : F (fcSend s p k quanta) = F s := (h.fcFlush _ p).trans (h.ports s _)

theorem fcFollow (s : State) (p k : Nat) : F (fcFollow s p k) = F s := by
  have page : portReg p 1 0x5C / 0x1000 ≠ 2 := by
    unfold portReg
    omega
  have marked : ∀ j b, F (Machine.setFlag s (portReg p 1 0x5C) j b) = F s := fun j b => h.setFlag s j b page
  exact view_ite rfl (view_ite (view_ite ((h.fcSend _ _ _ _).trans (marked _ _)) rfl)
    (view_ite ((h.fcSend _ _ _ _).trans (marked _ _)) rfl))

/-! ### Copies -/

theorem reapFrame (s : State) (i : Nat) : F (reapFrame s i) = F s := view_ite (h.frames s _) rfl

theorem sizeChain (s : State) (i phys n : Nat) : F (sizeChain s i phys n) = F s := (h.frames _ _).trans (h.buffer s _)

theorem returnLeaves (s : State) (f : Frame) (n : Nat) : F (returnLeaves s f n) = F s :=
  view_ite (h.buffer s _) ((h.fcFollow _ _ _).trans (h.buffer s _))

theorem returnCopy (s : State) (c : Copy) (n : Nat) : F (returnCopy s c n) = F s := (h.queues _ _).trans (h.buffer s _)

theorem returnDescriptor (s : State) (c : Copy) : F (returnDescriptor s c) = F s := by
  unfold Machine.returnDescriptor
  split
  · rfl
  · exact h.buffer s _

theorem releaseSharer (s : State) (i phys : Nat) : F (releaseSharer s i phys) = F s :=
  view_ite rfl ((h.reapFrame _ i).trans ((view_ite ((h.sizeChain _ _ _ _).trans (h.returnLeaves _ _ _)) rfl).trans (h.frames s _)))

theorem releaseCopy (s : State) (c : Copy) : F (releaseCopy s c) = F s :=
  (h.releaseSharer _ _ _).trans ((h.returnDescriptor _ c).trans (h.returnCopy s c _))

theorem refuseMirror (s : State) (n : Nat) : F (refuseMirror s n) = F s := (h.raise _ _ (by decide)).trans (h.count s _ _)

theorem makeCapture (s : State) (f : Frame) (i : CaptureInfo) (bytes : List Byte) : F (makeCapture s f i bytes) = F s := by
  have lost : ∀ u, F (captureLost u) = F u := fun u => (h.raise _ _ (by decide)).trans (h.count u _ _)
  exact view_ite ((lost _).trans (h.captureSeq s _)) ((h.count _ _ _).trans ((h.captures _ _).trans (h.captureSeq s _)))

theorem dropCaptures (s : State) (f : Frame) (c : Copy) (reason spill len : Nat) (bytes : List Byte) :
    F (dropCaptures s f c reason spill len bytes) = F s :=
  view_foldl (fun u _ => view_ite (h.makeCapture u _ _ _) rfl) _ s

theorem releaseMirrorsOf (s : State) (home p : Nat) : F (releaseMirrorsOf s home p) = F s := by
  refine (view_foldl (fun u m => ?_) _ _).trans (view_ite rfl (h.frames s _))
  split
  · exact (h.refuseMirror _ _).trans (view_ite (h.releaseSharer _ _ _) (h.releaseCopy _ _))
  · rfl

theorem traceEnd (s : State) (f : Frame) (reason : Nat) (c : Option Copy) : F (traceEnd s f reason c).2 = F s := by
  unfold Machine.traceEnd
  split
  · rfl
  · exact (view_ite rfl (h.slices _ _)).trans (h.traces s _ _)

theorem traceDrop (s : State) (i reason : Nat) (c : Copy) : F (traceDrop s i reason c) = F s :=
  view_ite ((h.frames _ _).trans (h.traceEnd s _ _ _)) rfl

/-- A copy that is dropped on chip. -/
theorem dropCopy (s : State) (c : Copy) (reason : Nat) : F (dropCopy s c reason) = F s := by
  have mirror : ∀ session len, F (dropMirror s c session len) = F s := fun session len =>
    (h.refuseMirror _ _).trans ((h.releaseCopy _ _).trans (h.countQueueDrop _ _ _))
  unfold Machine.dropCopy
  dsimp only
  split
  · exact mirror _ _
  · exact mirror _ _
  · exact mirror _ _
  · exact (h.releaseCopy _ _).trans ((h.traceDrop _ _ _ _).trans ((h.releaseMirrorsOf _ _ _).trans
      ((h.dropCaptures _ _ _ _ _ _ _).trans ((h.countQueueDrop _ _ _).trans (h.countDrop s _ 1)))))

/-! ### The order of a queue (R160) -/

theorem orderCheck (s : State) (q value next : Nat) : F (orderCheck s q value next) = F s := by
  have reported : ∀ u detail, F (Machine.report (Machine.raise (Machine.count u 3927 1) (.spill 0) 2) 0x0407 (.spill 0) detail) = F u :=
    fun u detail => (h.report _ _ _ _).trans ((h.raise _ _ (by decide)).trans (h.count _ _ _))
  refine view_ite (h.queues s _) (view_ite ((reported _ _).trans (h.queues s _)) ?_)
  exact (h.word _ _ _ (.inl (by decide))).trans ((h.word _ _ _ (.inl (by decide))).trans ((reported _ _).trans (h.queues s _)))

theorem settleSkips (q : Nat) (l : List QItem) (s : State) : F (settleSkips s q l) = F s := by
  induction l generalizing s with
  | nil => rfl
  | cons x l ih =>
    cases x with
    | copy c => rfl
    | skip first last => exact (ih _).trans ((h.orderCheck _ _ _ _).trans (h.queues s _))

theorem settleHead (s : State) (q : Nat) : F (settleHead s q) = F s := view_ite (h.settleSkips _ _ _) rfl

theorem spillExit (s : State) (q : Nat) : F (spillExit s q) = F s := by
  unfold Machine.spillExit
  dsimp only
  split
  · exact view_ite (h.queues s _) rfl
  · exact view_ite ((h.settleHead _ _).trans (h.queues s _)) rfl

/-! ### Front egress (R262) and the claim (R264) -/

theorem cutStomped (s : State) (p : Nat) (express : Bool) : F (cutStomped s p express) = F s := by
  have sent : ∀ u bytes, F (countSent u p bytes false) = F u := fun u bytes => view_ite (h.count _ _ _) rfl
  have truncated : ∀ u t bytes, F (truncateAs u p express t bytes) = F u := fun u t bytes =>
    (h.spillExit _ _).trans ((h.dropCopy _ _ _).trans ((sent _ _).trans ((h.count _ _ _).trans (h.ports u _))))
  unfold Machine.cutStomped
  split
  · rfl
  · exact (truncated _ _ _).trans (h.out s _)

theorem stopEgress (s : State) : F (stopEgress s) = F s :=
  (view_foldl (fun _ _ => (h.cutStomped _ _ _).trans (h.cutStomped _ _ _)) _ _).trans (h.setFlag s 25 false (by decide))

/-- A release of the claim line begins. -/
theorem startRelease (s : State) : F (startRelease s) = F s := by
  have disarmed : F (Machine.setFlag s 0x6048 31 false) = F s := h.setFlag s 31 false (by decide)
  have stopped := (h.stopEgress (Machine.setFlag s 0x6048 31 false)).trans disarmed
  exact view_ite disarmed (view_ite stopped ((h.twin _ _).trans stopped))

/-! ### Kettle and the mailbox -/

theorem mail : ShowsNoMail F where
  word s a v ha := h.word s a v (.inl (by omega))
  channels := h.channels
  kettle := h.kettle
  out := h.out

theorem receiversDown {cs : List Nat} (hc : ∀ c ∈ cs, c < 12) (s : State) : F (receiversDown s cs) = F s :=
  view_foldl_mem (fun u c hm => view_ite (h.mail.setReceiverDown (hc c hm) u) rfl) s

theorem mailboxKettleDown (s : State) : F (mailboxKettleDown s) = F s :=
  (h.receiversDown (by decide) _).trans ((view_ite (h.mail.discardMessage (c := 5) (by decide) _ 2) (h.channels _ _)).trans
    (view_ite (h.mail.discardMessage (c := 11) (by decide) s 2) rfl))

/-- Kettle leaves its state. -/
theorem kettleLeave (s : State) (state cause : Nat) : F (kettleLeave s state cause) = F s := by
  have left : ∀ u : State, F (Machine.report (Machine.raise u .twin 4) 0x0601 .twin [fld u 0x6050 28 25]) = F u := fun u =>
    (h.report _ _ _ _).trans (h.raise u 4 (by decide))
  have shown : ∀ (u : State) hi lo v, F (Machine.setFld u 0x6050 hi lo v) = F u := fun u hi lo v => h.setFld u hi lo v (by decide)
  have entered : ∀ u n, F (kettleEnter u n) = F u := fun u n => (h.kettle _ _).trans (shown u _ _ _)
  refine (view_ite ((h.mailboxKettleDown _).trans (left _)) rfl).trans ((h.twin _ _).trans ((entered _ _).trans ((h.kettle _ _).trans ?_)))
  exact (shown _ _ _ _).trans (view_ite rfl (shown _ _ _ _))

theorem kettleRestart (s : State) (cause : Nat) : F (kettleRestart s cause) = F s := by
  have entered : ∀ u n, F (kettleEnter u n) = F u := fun u n => (h.kettle _ _).trans (h.setFld u _ _ _ (by decide))
  exact (view_ite (entered _ _) rfl).trans (h.kettleLeave s 0 cause)

/-! ### Discarded sheets (R177) -/

theorem drainedCheck (s : State) (c : Nat) : F (drainedCheck s c) = F s := view_ite (h.raise _ _ (by decide)) rfl

theorem drainQueue (s : State) (q : Nat) : F (drainQueue s q) = F s := by
  unfold Machine.drainQueue
  dsimp only
  split
  · rfl
  · exact view_ite ((h.spillExit _ _).trans (h.queues s _)) rfl

theorem setPlace (s : State) (mask : Nat) : F (setPlace s mask) = F s :=
  (view_foldl (fun u c => view_ite (h.drainedCheck u c) rfl) _ _).trans
    ((view_foldl (fun u q => h.drainQueue u q) _ _).trans (h.setFld s _ _ _ (by decide)))

theorem releaseWritten (s : State) (rs : List SheetRecord) : F (releaseWritten s rs) = F s :=
  view_foldl (fun u r => by
    cases r with
    | frame c f => exact h.releaseCopy u c
    | skip first last => rfl) _ s

theorem dropRecord (s : State) (q reason len : Nat) (c : Copy) (f : Frame) : F (dropRecord s q reason len c f) = F s := by
  have mirror : ∀ n, F (Machine.refuseMirror (Machine.countQueueDrop s q f.bytes.length) n) = F s := fun n =>
    (h.refuseMirror _ _).trans (h.countQueueDrop _ _ _)
  unfold Machine.dropRecord
  dsimp only
  split
  · exact mirror _
  · exact mirror _
  · exact mirror _
  · exact (view_ite (h.traceEnd _ _ _ _) rfl).trans ((h.releaseMirrorsOf _ _ _).trans
      ((h.dropCaptures _ _ _ _ _ _ _).trans ((h.countQueueDrop _ _ _).trans (h.countDrop s _ 1))))

theorem loseRecord (s : State) (sh : Sheet) (cause len : Nat) (r : SheetRecord) : F (loseRecord s sh cause len r) = F s := by
  cases r with
  | skip first last => rfl
  | frame c f =>
    exact (view_ite rfl (h.report _ _ _ _)).trans ((h.raise _ _ (by decide)).trans ((h.count _ _ _).trans (h.dropRecord _ _ _ _ _ _)))

theorem loseRecords (s : State) (sh : Sheet) (cause : Nat) (p : RecordState → Bool) (headerRead : Bool) :
    F (loseRecords s sh cause p headerRead).2 = F s := by
  unfold Machine.loseRecords
  dsimp only
  split
  · rfl
  · exact (h.word _ _ _ (.inl (by decide))).trans ((h.word _ _ _ (.inl (by decide))).trans
      (view_foldl (fun u (e : SheetRecord × RecordState) => h.loseRecord u sh cause _ e.1) _ s))

theorem returnReserved (s : State) (q n : Nat) : F (returnReserved s q n) = F s := (h.returnCopy _ _ _).trans (h.buffer s _)

theorem abandonSheet (s : State) (q cause : Nat) (sh : Sheet) : F (abandonSheet s q cause sh) = F s := by
  have returned : F (Machine.returnReserved (if sh.writing then
      Machine.releaseWritten (Machine.loseRecords s sh cause (fun _ => true) false).2
      sh.records else (Machine.loseRecords s sh cause (fun _ => true) false).2) q sh.reserved) = F s :=
    (h.returnReserved _ _ _).trans ((view_ite (h.releaseWritten _ _) rfl).trans (h.loseRecords s _ _ _ _))
  unfold Machine.abandonSheet
  dsimp only
  split
  · exact returned
  · exact (h.queues _ _).trans returned

theorem toHead (s : State) (q : Nat) (x : QItem) : F (toHead s q x) = F s :=
  (h.settleHead _ _).trans ((h.wakeForQueue _ _).trans (h.queues s _))

theorem returnFrame (s : State) (q : Nat) (c : Copy) (f : Frame) : F (returnFrame s q c f) = F s :=
  (h.toHead _ _ _).trans ((h.buffer _ _).trans ((h.sizeChain _ _ _ _).trans ((h.frames _ _).trans (h.nextFrame s _))))

theorem collateRecord {s u : State} {q n : Nat} {r : SheetRecord} {st : RecordState} (hc : collateRecord s q r st = some (n, u)) :
    F u = F s := by
  have skipped : ∀ v x, some (0, Machine.toHead v q x) = some (n, u) → F u = F v := fun v x e => by
    obtain ⟨-, rfl⟩ := Prod.mk.inj (Option.some.inj e)
    exact h.toHead v q x
  cases st with
  | released =>
    obtain ⟨-, rfl⟩ := Prod.mk.inj (Option.some.inj hc)
    rfl
  | waiting _ => exact absurd hc (by simp [Machine.collateRecord])
  | lost _ => exact skipped s _ hc
  | complete =>
    cases r with
    | skip first last => exact skipped s _ hc
    | frame c f =>
      simp only [Machine.collateRecord] at hc
      split at hc
      · exact (skipped _ _ hc).trans ((h.raise _ _ (by decide)).trans ((h.count _ _ _).trans (h.dropRecord s _ _ _ _ _)))
      · obtain ⟨-, rfl⟩ := Prod.mk.inj (Option.some.inj hc)
        exact h.returnFrame s q c f

theorem collateSheet (q : Nat) (l : List (SheetRecord × RecordState)) (s : State) : F (collateSheet s q l).2.2 = F s := by
  induction l generalizing s with
  | nil => rfl
  | cons e l ih =>
    obtain ⟨r, st⟩ := e
    simp only [Machine.collateSheet]
    split
    · rfl
    · next n u hc => exact (ih u).trans (h.collateRecord hc)

theorem quarantine (s : State) (sh : Sheet) : F (quarantine s sh) = F s :=
  (h.drainedCheck _ _).trans ((h.report _ _ _ _).trans ((h.raise _ _ (by decide)).trans ((h.tally _ (by decide)).trans (h.spill s _))))

theorem requestRelease (s : State) (port : Nat) (sh : Sheet) : F (requestRelease s port sh) = F s := h.spill s _

theorem releaseIndexBlocks (s : State) (q port : Nat) (all : Bool) : F (releaseIndexBlocks s q port all) = F s := by
  unfold Machine.releaseIndexBlocks
  split
  · rfl
  · exact (view_foldl (fun u b => view_foldl (fun v a => h.requestRelease v port (indexSheet q b a)) _ u) _ _).trans (h.queues s _)

theorem collate (fuel : Nat) (s : State) (q : Nat) : F (collate fuel s q) = F s := by
  induction fuel generalizing s with
  | zero => rfl
  | succ fuel ih =>
    simp only [Machine.collate]
    split
    · rfl
    · split
      · rfl
      · split
        · rfl
        · have collated := fun l => h.collateSheet q l s
          refine view_ite ?_ ((h.queues _ _).trans (collated _))
          refine (ih _).trans ((h.spillExit _ _).trans ((h.releaseIndexBlocks _ _ _ _).trans ?_))
          refine (view_ite rfl (view_ite (h.requestRelease _ _ _) (h.quarantine _ _))).trans ?_
          exact (h.queues _ _).trans ((h.returnReserved _ _ _).trans (collated _))

theorem collateAll (s : State) (q : Nat) : F (collateAll s q) = F s := by
  unfold Machine.collateAll
  split
  · rfl
  · exact h.collate _ s q

theorem loseCopies (s : State) (q : Nat) (lost : IndexBlock → Nat → Bool) : F (loseCopies s q lost) = F s := by
  unfold Machine.loseCopies
  split
  · rfl
  · exact (h.collateAll _ _).trans ((view_foldl (fun u sh => h.abandonSheet u q 7 sh) _ _).trans (h.queues s _))

theorem discardQueue (s : State) (p q : Nat) : F (discardQueue s p q) = F s := by
  unfold Machine.discardQueue
  split
  · rfl
  · exact (h.loseCopies _ _ _).trans (view_foldl (fun u sh => h.abandonSheet u q 6 sh) _ s)

theorem forceDiscard (s : State) (p : Nat) : F (forceDiscard s p) = F s := by
  refine (h.drainedCheck _ _).trans ((view_foldl (fun u k => h.spill u _) _ _).trans ?_)
  refine (view_foldl (fun u q => h.discardQueue u p q) _ _).trans ?_
  refine (view_foldl (fun u (e : Nat × Sheet) => view_ite (h.releaseWritten u e.2.records) rfl) _ _).trans ?_
  exact (h.spill _ _).trans (h.setPlace s _)

/-- The discard of every port's sheets. -/
theorem discardAll (s : State) : F (discardAll s) = F s := view_foldl (fun u p => h.forceDiscard u p) _ s

end ShowsNoTraffic

end Sys2Proof.Machine
end

section
/-! Temperatures (R300) and the end of deep standby (R299): which sensors read hot, what a sample shows, and what is left after a wake. -/

namespace Sys2Proof.Machine

/-! ### Which sensors read hot -/

theorem celsius_eq_toInt (b : Byte) : celsius b = b.toInt := by
  have hb := b.isLt
  rw [celsius, signed, BitVec.toInt_eq_toNat_cond, Nat.mod_eq_of_lt hb]
  split <;> split <;> omega

/-- The mask of the sensors below `n`, bit by bit. -/
theorem testBit_sum_pow (p : Nat → Bool) (n : Nat) :
    (List.range n).foldl (fun m k => if p k then m + 2 ^ k else m) 0 < 2 ^ n ∧
      ∀ j, ((List.range n).foldl (fun m k => if p k then m + 2 ^ k else m) 0).testBit j = (decide (j < n) && p j) := by
  induction n with
  | zero => simp
  | succ n ih =>
    obtain ⟨hlt, hbit⟩ := ih
    rw [List.range_succ, List.foldl_append, List.foldl_cons, List.foldl_nil]
    have hpow : 2 ^ (n + 1) = 2 ^ n + 2 ^ n := by rw [Nat.pow_succ]; omega
    by_cases hp : p n
    · rw [if_pos hp, Nat.add_comm]
      refine ⟨by omega, fun j => ?_⟩
      rcases Nat.lt_trichotomy j n with hj | rfl | hj
      · rw [Nat.testBit_two_pow_add_gt hj, hbit]
        simp [hj, show j < n + 1 by omega]
      · rw [Nat.testBit_two_pow_add_eq, hbit]
        simp [hp]
      · rw [Nat.testBit_lt_two_pow (Nat.lt_of_lt_of_le (show _ < 2 ^ (n + 1) by omega) (Nat.pow_le_pow_right (by decide) hj))]
        simp [show ¬ j < n + 1 by omega]
    · rw [if_neg hp]
      refine ⟨by omega, fun j => ?_⟩
      rw [hbit]
      by_cases hj : j = n
      · simp [hj, hp]
      · simp [show j < n + 1 ↔ j < n by omega]

theorem testBit_hotMask (ts : List Byte) (limit : Int) (k : Nat) :
    (hotMask ts limit).testBit k = (decide (k < ts.length) && decide (limit ≤ (ts.getD k 0).toInt)) := by
  have h := (testBit_sum_pow (fun k => decide (limit ≤ celsius (ts.getD k 0))) ts.length).2 k
  simp only [decide_eq_true_eq, celsius_eq_toInt] at h
  rw [← h, hotMask]
  simp only [celsius_eq_toInt]

/-- No sensor reads so hot. -/
theorem hotMask_eq_zero {ts : List Byte} {limit : Int} (h : ∀ b ∈ ts, b.toInt < limit) : hotMask ts limit = 0 := by
  refine Nat.zero_of_testBit_eq_false fun k => ?_
  rw [testBit_hotMask]
  by_cases hk : k < ts.length
  · have := h _ (List.getElem_mem hk)
    simp [List.getElem?_eq_getElem hk]
    omega
  · simp [hk]

/-- A sensor reads so hot. -/
theorem hotMask_ne_zero {ts : List Byte} {limit : Int} (h : ∃ b ∈ ts, limit ≤ b.toInt) : hotMask ts limit ≠ 0 := by
  obtain ⟨b, hb, hl⟩ := h
  obtain ⟨k, hk, rfl⟩ := List.mem_iff_getElem.mp hb
  intro h0
  have := testBit_hotMask ts limit k
  simp [h0, List.getElem?_eq_getElem hk] at this
  omega

/-! ### What a sample shows -/

/-- Words stored one after another read back. -/
theorem rd_storeWords (b : Nat) (f : Nat → Nat) (s : State) (n j : Nat) :
    rd ((List.range n).foldl (fun s i => wr s (b + 4 * i) (f i)) s) (b + 4 * j) = if j < n then f j % 2 ^ 32 else rd s (b + 4 * j) := by
  induction n with
  | zero => rfl
  | succ n ih =>
    rw [List.range_succ, List.foldl_append, List.foldl_cons, List.foldl_nil, rd_wr, ih]
    by_cases hj : j = n
    · subst hj
      simp
    · rw [if_neg (by omega)]
      exact if_congr (by omega) rfl rfl

theorem leNat_lt (bs : List Byte) : leNat bs < 256 ^ bs.length := by
  induction bs with
  | nil => decide
  | cons b bs ih =>
    have hb : b.toNat < 256 := b.isLt
    rw [leNat, List.length_cons, Nat.pow_succ]
    omega

/-- Four bytes make a word. -/
theorem leNat_slice_four (bs : List Byte) (off : Nat) : leNat (slice bs off 4) < 2 ^ 32 :=
  Nat.lt_of_lt_of_le (leNat_lt _)
    ((Nat.pow_le_pow_right (n := 256) (by decide) (by rw [slice, List.length_take]; omega)).trans (by decide : 256 ^ 4 ≤ 2 ^ 32))

/-- Each of THERMAL_0 to THERMAL_3 shows its four sensors. -/
theorem rd_showTemps (s : State) (ts : List Byte) {n : Nat} (hn : n < 4) :
    rd (showTemps s ts) (0x2058 + 4 * n) = leNat (slice ts (4 * n) 4) := by
  unfold showTemps
  dsimp only
  rw [rd_setFld_other _ _ _ _ (by omega), rd_setFld_other _ _ _ _ (by omega), rd_storeWords 0x2058 (fun i => leNat (slice ts (4 * i) 4)),
    if_pos hn, Nat.mod_eq_of_lt (leNat_slice_four ts _)]

theorem regsBut_showTemps (s : State) (ts : List Byte) : RegsBut [0x2054, 0x2058, 0x205C, 0x2060, 0x2064] s (showTemps s ts) := by
  have stored : RegsBut [0x2054, 0x2058, 0x205C, 0x2060, 0x2064] s
      ((List.range 4).foldl (fun s i => wr s (0x2058 + 4 * i) (leNat (slice ts (4 * i) 4))) s) := fun a ha => by
    refine view_foldl_mem (F := fun s => rd s a) (fun u i hi => rd_wr_other u _ fun e => ha ?_) s
    have h4 := List.mem_range.mp hi
    subst e
    interval_cases i <;> simp
  exact (stored.wr (by simp) _).wr (by simp) _

theorem thermalWarn_showTemps (s : State) (ts : List Byte) : thermalWarn (showTemps s ts) = thermalWarn s := by
  unfold thermalWarn showTemps
  dsimp only
  rw [flag_setFld _ _ _ _ _ _ _ (by decide) (by decide), if_neg (by decide), flag_setFld _ _ _ _ _ _ _ (by decide) (by decide),
    if_neg (by decide)]
  refine view_foldl_mem (F := fun s => flag s 0x2054 30) (fun u i hi => flag_wr_other u _ 30 ?_) s
  omega

/-- The power state is in no temperature register. -/
theorem power_showTemps (s : State) (ts : List Byte) : (showTemps s ts).power = s.power := by
  unfold showTemps
  dsimp only
  rw [setFld_power, setFld_power]
  exact view_foldl (F := State.power) (fun u i => wr_power u _ _) _ s

/-! ### Warnings and trips -/

/-- A warning is raised. -/
def warned (s : State) (ts : List Byte) : State :=
  report (raise (setFlag (showTemps s ts) 0x2054 30 true) .alwaysOn 1) 0x0701 .alwaysOn [hottest ts]

theorem followWarn_of_cool {s : State} {ts : List Byte} (h : ∀ b ∈ ts, b.toInt < 95) :
    followWarn (showTemps s ts) ts = setFlag (showTemps s ts) 0x2054 30 false := by
  have below : ∀ limit : Int, 95 ≤ limit → hotMask ts limit = 0 := fun limit hl => hotMask_eq_zero fun b hb => by
    have := h b hb
    omega
  rw [followWarn, if_neg (by simp [below 110 (by decide)]), if_pos (below 105 (by decide))]

theorem followWarn_of_hot {s : State} {ts : List Byte} (h : ∃ b ∈ ts, 110 ≤ b.toInt) (hw : thermalWarn s = false) :
    followWarn (showTemps s ts) ts = warned s ts := by
  rw [followWarn, if_pos (hotMask_ne_zero h), thermalWarn_showTemps, hw]
  exact if_neg Bool.false_ne_true

theorem warned_shows (s : State) (ts : List Byte) : flag (warned s ts) 0x2054 30 = true ∧ flag (warned s ts) 0x2010 1 = true := by
  have shown : ∀ {a : Nat}, a / 0x1000 = 2 → (a ≠ 0x2094 ∧ a ≠ 0x209C ∧ a ≠ 0x20A0 ∧ a ≠ 0x20A4) → ∀ k,
      flag (warned s ts) a k = flag (raise (setFlag (showTemps s ts) 0x2054 30 true) .alwaysOn 1) a k := fun hp ha k =>
    congrArg (bitAt · k) ((showsNoTraffic_rd hp ha).report _ 0x0701 .alwaysOn _)
  rw [shown (a := 0x2054) (by decide) (by decide), shown (a := 0x2010) (by decide) (by decide), flag_raise _ _ _ _ _ (by decide),
    flag_raise _ _ _ _ _ (by decide),
    if_neg (by decide), if_pos (by decide), flag_setFlag_same _ _ _ _ (by decide)]
  exact ⟨rfl, rfl⟩

/-- The power state that a sample leaves: what is hot now, and since when nothing reads 95 °C. -/
def sampled (u : State) (ts : List Byte) : State :=
  setPower u { u.power with
    hot := hotMask ts 120
    coolSince := if hotMask ts 95 ≠ 0 then 0 else if u.power.coolSince = 0 then now u + 1 else u.power.coolSince }

theorem sampled_regs (u : State) (ts : List Byte) : (sampled u ts).regs = u.regs := rfl

theorem thermalSample_of_followWarn {s u : State} {ts : List Byte} (hu : followWarn (showTemps s ts) ts = u) :
    thermalSample s ts = if (hotMask ts 120 &&& u.power.hot ≠ 0 : Bool) ∧ !u.power.inStandby then thermalTrip (sampled u ts) ts
      else sampled u ts := by
  subst hu
  rfl

/-- Without a sensor at 120 °C nothing trips. -/
theorem thermalSample_of_mild {s u : State} {ts : List Byte} (hu : followWarn (showTemps s ts) ts = u) (h : ∀ b ∈ ts, b.toInt < 120) :
    thermalSample s ts = sampled u ts ∧ (sampled u ts).power.hot = 0 := by
  have h0 := hotMask_eq_zero h
  exact ⟨(thermalSample_of_followWarn hu).trans (if_neg (by simp [h0])), h0⟩

theorem exec_thermalSample_of_powered {s : State} {ts : List Byte} (hl : ts.length = 16) (ha : s.startup.aonUp = true) :
    exec (.thermalSample ts) s = .next (thermalSample s ts) := by
  refine (congrArg (fun b => sized b _) (decide_eq_true hl)).trans ?_
  exact congrArg done (if_pos ha)

/-- A sample warns or not, and leaves the power state as it is. -/
theorem power_followWarn (s : State) (ts : List Byte) : (followWarn (showTemps s ts) ts).power = s.power := by
  have reported : ∀ u : State, (report (raise (setFlag u 0x2054 30 true) .alwaysOn 1) 0x0701 .alwaysOn [hottest ts]).power = u.power :=
    fun u => ((showsNoTraffic_controllers.report _ _ _ _ |> controllers_iff.mp).2.2.2.1).trans
      ((raise_power _ _ _).trans (setFlag_power u _ _ _))
  refine (view_ite (F := State.power) (view_ite (F := State.power) rfl (reported _))
    (view_ite (F := State.power) (setFlag_power _ _ _ _) rfl)).trans (power_showTemps s ts)

/-- The junction trip ends in deep standby. -/
theorem thermalTrip_trips (s : State) (ts : List Byte) :
    (thermalTrip s ts).power.tripped = true ∧ (thermalTrip s ts).power.inStandby = true := ⟨rfl, rfl⟩

/-! ### The end of deep standby (R299) -/

/-- What a wake leaves of the reset cause, the power state and the core's supply. -/
theorem leaveStandby_wakes {s : State} (h : s.power.inStandby = true) {cause : Nat} (hc : cause < 2 ^ 32) :
    rd (leaveStandby s cause) 0x2090 = cause ∧ (leaveStandby s cause).power = wipedPower s.power ∧
      (leaveStandby s cause).pins = { s.pins with corePower := true } ∧ (leaveStandby s cause).startup = s.startup ∧
      (leaveStandby s cause).clock = s.clock ∧ (leaveStandby s cause).colophon = s.colophon := by
  have hk := controllers_iff.mp (showsNoTraffic_controllers.tallyAt (a := 0x20A8) (fun _ _ => rfl) (wr s 0x2090 cause))
  obtain ⟨hstartup, -, hclock, -, -, hcolophon, hpins, -⟩ := hk
  have hrd : rd (tally (wr s 0x2090 cause) 0x20A8) 0x2090 = cause :=
    ((showsNoTraffic_rd (a := 0x2090) (by decide) (by decide)).tallyAt (a := 0x20A8)
      (fun u v => rd_wr_other u v (by decide)) _).trans ((rd_wr_same s _ _).trans (Nat.mod_eq_of_lt hc))
  have hkept : ∀ u keep, keep 0x2090 = true → sget resetWord (keptRegs u keep) 0x2090 = sget resetWord u.regs 0x2090 :=
    fun u keep hkeep => by
    rw [keptRegs, sget_sset_other _ _ _ (by decide), sget_sset_other _ _ _ (by decide), sget_skeep _ _ _ hkeep]
  rw [leaveStandby, if_neg (by simp [h])]
  refine ⟨?_, rfl, congrArg (fun x : Pins => { x with corePower := true }) hpins, hstartup, hclock, hcolophon⟩
  exact (congrArg BitVec.toNat (hkept _ _ (by decide))).trans hrd

theorem leaveStandby_of_awake {s : State} (h : s.power.inStandby = false) (cause : Nat) : leaveStandby s cause = s :=
  if_pos (by simp [h])

/-- Settles O38: a sample is shown, warns and trips by its hottest sensor, and a tripped device wakes once it is cool. -/
theorem temperaturesWarnAndTrip : Obligations.TemperaturesWarnAndTrip := by
  refine ⟨fun s l hl ha hc hw => ?_, fun s l hl ha hh hm hw => ?_, fun s l k hl ha hk hh hb hs => ?_, fun s ht hs hf hc h1 => ?_,
    fun s hf => ?_, fun s l hl ha => ?_⟩
  · obtain ⟨he, hhot⟩ := thermalSample_of_mild (followWarn_of_cool hc) fun b hb => Int.lt_trans (hc b hb) (by decide)
    have hr := sampled_regs (setFlag (showTemps s l) 0x2054 30 false) l
    refine ⟨_, (exec_thermalSample_of_powered hl ha).trans (congrArg _ he), fun n hn => ?_, ?_, hhot, ?_⟩
    · rw [rd_of_regs_eq hr, rd_setFlag_other _ 30 false (by omega), rd_showTemps s l hn]
    · rw [flag_of_regs_eq hr, flag_setFlag_same _ _ _ _ (by decide)]
    · exact RegsBut.trans (RegsBut.of_regs_eq _ hr) ((regsBut_showTemps s l).setFlag (by simp) 30 false)
  · obtain ⟨he, hhot⟩ := thermalSample_of_mild (followWarn_of_hot hh hw) hm
    obtain ⟨h54, h10⟩ := warned_shows s l
    exact ⟨_, (exec_thermalSample_of_powered hl ha).trans (congrArg _ he), h54, h10, hhot⟩
  · have hp := power_followWarn s l
    have hbit : (hotMask l 120 &&& (followWarn (showTemps s l) l).power.hot).testBit k = true := by
      rw [hp, Nat.testBit_and, testBit_hotMask, ← bitAt_testBit, hb]
      simp only [hl, hk, hh, decide_true, Bool.and_self]
    have hne : hotMask l 120 &&& (followWarn (showTemps s l) l).power.hot ≠ 0 := fun e => by simp [e] at hbit
    have he := (thermalSample_of_followWarn (s := s) (ts := l) rfl).trans
      (if_pos ⟨by simp [hne], by simp [hp, hs]⟩)
    exact ⟨_, (exec_thermalSample_of_powered hl ha).trans (congrArg _ he), thermalTrip_trips _ l⟩
  · obtain ⟨hcause, hpower, -⟩ := leaveStandby_wakes hs (cause := 0xA) (by decide)
    refine ⟨_, congrArg done (if_pos ⟨ht, hs, hf, hc, h1⟩), ?_, ?_, hcause⟩ <;> rw [hpower] <;> rfl
  · exact congrArg done (if_neg (by simp [hf]))
  · refine (congrArg (fun b => sized b _) (decide_eq_true hl)).trans ?_
    exact congrArg done (if_neg (by simp [ha]))

end Sys2Proof.Machine
end

section
/-! The secure boot (R393 to R396): what starts firmware, what a failed boot leaves, and what CONFIRM keeps. -/

namespace Sys2Proof.Machine

/-! ### Firmware starts -/

theorem ShowsNoMail.senderReset {α : Type} {F : State → α} (h : ShowsNoMail F) {c : Nat} (hc : c < 12) (s : State) :
    F (senderReset s c) = F s :=
  (h.word _ _ _ (channelStatus_page hc)).trans
    (view_foldl_mem (fun u _ hi => h.word u _ _ (composing_page hc (List.mem_range.mp hi))) s)

theorem ShowsNoMail.receiverReset {α : Type} {F : State → α} (h : ShowsNoMail F) {c : Nat} (hc : c < 12) (s : State) :
    F (receiverReset s c) = F s := view_ite (h.discardMessage hc s 1) rfl

/-- A firmware restart reaches the mailbox alone. -/
theorem ShowsNoMail.firmwareRestartChannels {α : Type} {F : State → α} (h : ShowsNoMail F) (s : State) :
    F (firmwareRestartChannels s) = F s :=
  (view_foldl_mem (fun u k hk => h.senderReset (by have := List.mem_range.mp hk; omega) u) _).trans
    (view_foldl_mem (fun u k hk => h.receiverReset (by have := List.mem_range.mp hk; omega) u) s)

/-- The ports trusted at a boot are in their pages and the colophon's. -/
theorem view_trustPorts {α : Type} {F : State → α} (hw : ∀ s a v, 0x200000 ≤ a ∨ a = 0x1028 → F (wr s a v) = F s) (s : State)
    (trusted : Nat) :
    F (trustPorts s trusted) = F s := by
  have page : ∀ p off, 0x200000 ≤ portReg p 0 off := fun p off => by
    unfold portReg
    omega
  exact (hw _ _ _ (.inr rfl)).trans (view_foldl (fun u p => (hw _ _ _ (.inl (page p 0x28))).trans (hw u _ _ (.inl (page p 0x40)))) _ s)

/-- BOOT_CONTROL and SEQ_STATUS of a boot from `slot`, before the ports are trusted. -/
def bootShown (u : State) (slot : Bool) : State :=
  setFlag (setFld (firmwareRestartChannels (setFld (setFlag u 0x8040 28 false) 0x8040 31 30 1)) 0x2080 28 27 1) 0x2080 29 slot

theorem rd_bootShown_seq (u : State) (slot : Bool) :
    rd (bootShown u slot) 0x8040 = rd (setFld (setFlag u 0x8040 28 false) 0x8040 31 30 1) 0x8040 := by
  rw [bootShown, rd_setFlag_other _ _ _ (by decide), rd_setFld_other _ _ _ _ (by decide)]
  exact (showsNoMail_rd (by decide)).firmwareRestartChannels _

theorem bootState_bootShown (u : State) (slot : Bool) : bootState (bootShown u slot) = 1 :=
  (fld_setFlag_other _ 0x2080 29 slot 0x2080 28 27 (by decide) (by decide)).trans (fld_setFld_same _ 0x2080 28 27 1 (by decide) (by decide))

theorem seqInReset_bootShown (u : State) (slot : Bool) : seqInReset (bootShown u slot) = false := by
  rw [seqInReset, fld, rd_bootShown_seq, ← fld, fld_setFld_same _ _ _ _ _ (by decide) (by decide)]
  rfl

theorem firmware_bootShown (u : State) (slot : Bool) : (bootShown u slot).firmware = u.firmware := by
  have hm : ShowsNoMail State.firmware := showsNoMail_of_rfl fun _ _ _ _ _ => rfl
  rw [bootShown, setFlag_firmware, setFld_firmware, hm.firmwareRestartChannels, setFld_firmware, setFlag_firmware]

/-- Firmware runs from its slot, awaiting confirmation. -/
theorem firmwareStart_shows (s : State) (slot : Bool) (image : ImageCheck) (v pv : Nat) (patch entries : List Word32) (trusted : Nat) :
    (firmwareStart s slot image v pv patch entries trusted).firmware.running = true ∧
      (firmwareStart s slot image v pv patch entries trusted).firmware.svn = image.svn ∧
      bootState (firmwareStart s slot image v pv patch entries trusted) = 1 ∧
      flag (firmwareStart s slot image v pv patch entries trusted) 0x2080 29 = slot ∧
      seqInReset (firmwareStart s slot image v pv patch entries trusted) = false := by
  have hrd : ∀ (u : State) {a : Nat}, a < 0x200000 → a ≠ 0x1028 → rd (trustPorts u trusted) a = rd u a := fun u a ha hn =>
    view_trustPorts (F := fun s => rd s a) (fun s b v hb => rd_wr_other s v (by omega)) u trusted
  have hfw : ∀ u, (trustPorts u trusted).firmware = u.firmware := fun u =>
    view_trustPorts (F := State.firmware) (fun s b v _ => wr_firmware s b v) u trusted
  have he : ∃ u, firmwareStart s slot image v pv patch entries trusted = trustPorts (bootShown u slot) trusted ∧
      u.firmware.running = true ∧ u.firmware.svn = image.svn := ⟨_, rfl, rfl, rfl⟩
  obtain ⟨u, he, hrun, hsvn⟩ := he
  rw [he, hfw, firmware_bootShown]
  refine ⟨hrun, hsvn, ?_, ?_, ?_⟩
  · exact (congrArg (bits · 28 27) (hrd _ (a := 0x2080) (by decide) (by decide))).trans (bootState_bootShown u slot)
  · exact (congrArg (bitAt · 29) (hrd _ (a := 0x2080) (by decide) (by decide))).trans (flag_setFlag_same _ 0x2080 29 slot (by decide))
  · exact (congrArg (bits · 31 30 == 3) (hrd _ (a := 0x8040) (by decide) (by decide))).trans (seqInReset_bootShown u slot)

theorem exec_firmwareBoot_of_due {s : State} {entries : List Word32} (hl : entries.length = 224) (hd : bootDue s = true)
    (image : ImageCheck)
    (v pv : Word32) (patch : List Word32) (trusted : BitVec 64) :
    exec (.firmwareBoot image v pv patch entries trusted) s =
      .next (bootFrom s image v.toNat pv.toNat patch entries trusted.toNat) := by
  refine (congrArg (fun b => sized b _) (beq_iff_eq.mpr hl)).trans ?_
  exact congrArg done (if_pos hd)

/-! ### Failed boots (R395) -/

/-- A failed boot is counted and reported, before the other slot or recovery is chosen. -/
def bootFailed (s : State) : State := report (tally s 0x2084) 0x0803 .alwaysOn [fld s 0x2080 30 30]

theorem controllers_bootFailed (s : State) : controllers (bootFailed s) = controllers s :=
  (showsNoTraffic_controllers.report _ _ _ _).trans (showsNoTraffic_controllers.tallyAt (fun _ _ => rfl) s)

/-- The first boot that fails leaves the other slot for the next warm reset. -/
theorem bootFails_of_first {s : State} (h : s.firmware.fellBack = false) :
    (bootFails s).firmware = { s.firmware with fellBack := true, bootFailed := true } ∧ (bootFails s).startup = s.startup := by
  obtain ⟨hstartup, hfirmware, -⟩ := controllers_iff.mp (controllers_bootFailed s)
  have he : bootFails s = { bootFailed s with firmware := { (bootFailed s).firmware with fellBack := true, bootFailed := true } } :=
    if_neg (by rw [← bootFailed, hfirmware, h]; decide)
  rw [he, hfirmware]
  exact ⟨rfl, hstartup⟩

/-- The second is recovery. -/
theorem bootFails_of_second {s : State} (h : s.firmware.fellBack = true) :
    (bootFails s).startup = { s.startup with recovery := true } ∧ (bootFails s).firmware.running = false ∧
      flag (bootFails s) 0x2094 27 = true ∧ bootState (bootFails s) = 3 := by
  obtain ⟨hstartup, hfirmware, -⟩ := controllers_iff.mp (controllers_bootFailed s)
  have he : ∃ u, bootFails s = { setFault (setFld u 0x2080 28 27 3) 27 with
      firmware := { (setFault (setFld u 0x2080 28 27 3) 27).firmware with running := false, bootFailed := false }
      startup := { (setFault (setFld u 0x2080 28 27 3) 27).startup with recovery := true } } ∧ u.startup = s.startup :=
    ⟨report (bootFailed s) 0x0804 .alwaysOn [], if_pos (by rw [← bootFailed, hfirmware, h]),
      (controllers_iff.mp (showsNoTraffic_controllers.report _ _ _ _)).1.trans hstartup⟩
  obtain ⟨u, he, hu⟩ := he
  have hs : (setFault (setFld u 0x2080 28 27 3) 27).startup = u.startup := by
    rw [setFault, setFlag_startup]
    exact view_ite (F := State.startup) rfl rfl
  rw [he, hs, hu]
  refine ⟨rfl, rfl, flag_setFlag_same _ 0x2094 27 true (by decide), ?_⟩
  have hb : rd (setFault (setFld u 0x2080 28 27 3) 27) 0x2080 = rd (setFld u 0x2080 28 27 3) 0x2080 :=
    (rd_setFlag_other _ 27 true (by decide)).trans (view_ite (F := fun s => rd s 0x2080) (rd_emit _ _ _) rfl)
  exact (congrArg (bits · 28 27) hb).trans (fld_setFld_same u 0x2080 28 27 3 (by decide) (by decide))

theorem running_bootFails {s : State} (hd : bootDue s = true) : (bootFails s).firmware.running = false := by
  have hr : s.firmware.running = false := by
    simp only [bootDue, Bool.and_eq_true, Bool.not_eq_true'] at hd
    exact hd.1.2
  by_cases h : s.firmware.fellBack = true
  · exact (bootFails_of_second h).2.1
  · rw [(bootFails_of_first (Bool.eq_false_iff.mpr h)).1]
    exact hr

/-! ### CONFIRM (R394) -/

theorem atRegister_bootControl (s : State) (src : Source) : atRegister s src 0x2080 = dropHeld s src 0x2080 :=
  atRegister_eq s src 0x2080 fun i k => by rw [show pageAt 0x2080 = some .alwaysOn from rfl]; simp

/-- BOOT_STATE is confirmed, and NEXT_SLOT is the slot of this boot. -/
def slotKept (s : State) : State := setFlag (setFld s 0x2080 28 27 2) 0x2080 30 (flag s 0x2080 29)

/-- CONFIRM of an unconfirmed boot keeps its slot. -/
theorem confirmBoot_of_unconfirmed {s : State} {src : Source} (hi : src ≠ .i2c) (h : bootState s = 1) :
    bootState (confirmBoot s src) = 2 ∧ flag (confirmBoot s src) 0x2080 30 = flag s 0x2080 29 ∧
      (confirmBoot s src).firmware.fellBack = false ∧
      (confirmBoot s src).colophon.antiRollback = max s.colophon.antiRollback (min 128 s.firmware.svn) ∧
      RegsBut [0x2080] s (confirmBoot s src) := by
  have he : confirmBoot s src = { slotKept s with
      firmware := { (slotKept s).firmware with fellBack := false }
      colophon := { (slotKept s).colophon with antiRollback := max s.colophon.antiRollback (min 128 s.firmware.svn) } } := by
    rw [confirmBoot, if_neg hi, if_neg (by simp [h])]
    rfl
  have hr : (confirmBoot s src).regs = (slotKept s).regs := by rw [he]
  refine ⟨?_, ?_, by rw [he], by rw [he], ?_⟩
  · rw [bootState, fld_of_regs_eq hr, slotKept, fld_setFlag_other _ _ _ _ _ _ _ (by decide) (by decide),
      fld_setFld_same _ _ _ _ _ (by decide) (by decide)]
    rfl
  · rw [flag_of_regs_eq hr, slotKept, flag_setFlag_same _ _ _ _ (by decide)]
  · exact RegsBut.trans (RegsBut.of_regs_eq _ hr) (RegsBut.setFlag (RegsBut.wr (fun _ _ => rfl) (by simp) _) (by simp) 30 _)

/-- Settles O57: an image in order starts firmware, any other fails the boot, and CONFIRM keeps the slot. -/
theorem bootsStartOnlyGoodFirmware : Obligations.BootsStartOnlyGoodFirmware := by
  refine ⟨fun s image v pv patch entries trusted hl hd hr ha hs hg hv => ?_, fun s slot image v pv patch entries trusted => ?_,
    fun s image v pv patch entries trusted hl hd hbad => ?_, fun s hd => ?_, fun s hd => ?_, fun s hf => ?_, fun s src ha hi hb => ?_⟩
  · obtain ⟨hrun, hsvn, hstate, hslot, hseq⟩ := firmwareStart_shows s (flag s 0x2080 30 != s.firmware.fellBack) image v.toNat pv.toNat patch
      entries trusted.toNat
    exact ⟨_, (exec_firmwareBoot_of_due hl hd image v pv patch trusted).trans (congrArg _ (if_pos ⟨hr, ha, hs, hg, hv⟩)), rfl, hrun, hstate,
      hslot, hseq, hsvn⟩
  · obtain ⟨hrun, -, hstate, hslot, hseq⟩ := firmwareStart_shows s slot image v pv patch entries trusted
    exact ⟨hrun, hstate, hslot, hseq⟩
  · have hn : ¬(image.readOk ∧ image.authentic ∧ image.signer ≤ 3 ∧ signerGood s image.signer ∧ s.colophon.antiRollback ≤ image.svn) := by
      rintro ⟨hr, ha, hs, -, hv⟩
      rcases hbad with h | h | h | h
      · simp [h] at hr
      · simp [h] at ha
      · omega
      · omega
    exact ⟨_, (exec_firmwareBoot_of_due hl hd image v pv patch trusted).trans (congrArg _ (if_neg hn)), rfl, running_bootFails hd,
      settled_bootFails s⟩
  · refine ⟨_, congrArg done (if_pos hd), rfl, running_bootFails hd, fun h => bootFails_of_first h, fun h => ?_, settled_bootFails s⟩
    obtain ⟨hstartup, -, hfault, -⟩ := bootFails_of_second h
    exact ⟨hstartup, hfault⟩
  · exact congrArg done (if_neg (by simp [hd]))
  · obtain ⟨hstartup, -, -, hstate⟩ := bootFails_of_second hf
    exact ⟨congrArg Startup.recovery hstartup, hstate⟩
  · have he : exec (.confirm src) s = .next (confirmBoot (dropHeld s src 0x2080) src) := by
      rw [← atRegister_bootControl]
      exact congrArg done (guarded_of_admitted ha _)
    exact ⟨_, he, confirmBoot_of_unconfirmed (s := dropHeld s src 0x2080) hi hb⟩

end Sys2Proof.Machine
end

section
/-! Device resets (R410 to R412): what a device keeps and what it loses when its core leaves service. -/

namespace Sys2Proof.Machine

theorem ShowsNoMail.receiversDown {α : Type} {F : State → α} (h : ShowsNoMail F) {cs : List Nat} (hc : ∀ c ∈ cs, c < 12) (s : State) :
    F (receiversDown s cs) = F s :=
  view_foldl_mem (fun u c hm => view_ite (h.setReceiverDown (hc c hm) u) rfl) s

theorem ShowsNoTraffic.setPerst {α : Type} {F : State → α} (h : ShowsNoTraffic F) (s : State) (c : Nat) (asserted : Bool) :
    F (setPerst s c asserted) = F s := by
  have link : F (resetLink s c asserted) = F s := view_ite (h.spill s _) rfl
  have page : cxlReg c 0x48 / 0x1000 ≠ 2 := by
    unfold cxlReg
    omega
  rw [setPerst_eq]
  exact view_ite link ((h.out _ _).trans ((h.setFlag _ 23 asserted page).trans link))

theorem ShowsNoTraffic.resetPins {α : Type} {F : State → α} (h : ShowsNoTraffic F) (s : State) : F (resetPins s) = F s :=
  (view_foldl (fun u _ => view_ite (h.out u _) rfl) _ _).trans
    ((view_ite (h.out _ _) rfl).trans (view_foldl (fun u c => h.setPerst u c true) _ s))

/-! ### The core leaves service -/

/-- The state as the core leaves service: the claim on its way to release, Kettle down, and the pins of R413 at their reset levels. -/
def servedOut (s : State) : State :=
  resetPins (if kettleState (startRelease s) = 0 then startRelease s else kettleLeave (startRelease s) 0 0)

theorem ShowsNoTraffic.servedOut {α : Type} {F : State → α} (h : ShowsNoTraffic F) (s : State) : F (servedOut s) = F s :=
  (h.resetPins _).trans ((view_ite rfl (h.kettleLeave _ 0 0)).trans (h.startRelease s))

theorem ShowsNoMail.leaveService {α : Type} {F : State → α} (h : ShowsNoMail F) (s : State) (keep : Nat → Bool) :
    F (leaveService s keep) = F (coreWiped (servedOut s) keep) :=
  h.receiversDown (fun _ hc => Nat.lt_trans (List.mem_range.mp hc) (by decide)) _

/-- After the wipe only the absence of firmware is marked, in the mailbox. -/
theorem leaveService_frame (s : State) (keep : Nat → Bool) :
    leaveService s keep = withMailOf (leaveService s keep) (coreWiped (servedOut s) keep) :=
  (showsNoMail_of_rfl fun _ _ _ _ _ => rfl : ShowsNoMail (withMailOf (leaveService s keep))).leaveService s keep

/-- Nothing of the core's work is left. -/
abbrev CoreEmpty (s : State) : Prop :=
  s.queues = [] ∧ s.frames = [] ∧ s.tabs = [] ∧ s.rescues = [] ∧ s.errors.resetAt = none

theorem coreEmpty_leaveService (s : State) (keep : Nat → Bool) : CoreEmpty (leaveService s keep) := by
  rw [leaveService_frame]
  exact ⟨rfl, rfl, rfl, rfl, rfl⟩

/-- The start-up state of a core that has left service. -/
def startupWiped (u : State) : Startup :=
  { aonUp := u.startup.aonUp, railsUp := u.startup.railsUp, island := u.startup.island, resetting := true,
    recovery := u.startup.recovery, lastDequeue := now u, lastTimestamp := now u }

theorem leaveService_leaves (s : State) (keep : Nat → Bool) :
    (leaveService s keep).startup = startupWiped s ∧ (leaveService s keep).clock = { s.clock with coreTenths := 0 } ∧
      (leaveService s keep).power = s.power ∧ (leaveService s keep).colophon = keptColophon s.colophon ∧
      (leaveService s keep).pins = { s.pins with rclkOn := [false, false], laneLock := [], mateReset := false } := by
  obtain ⟨hstartup, -, hclock, hpower, -, hcolophon, hpins, -⟩ := controllers_iff.mp (showsNoTraffic_controllers.servedOut s)
  have hw : startupWiped (servedOut s) = startupWiped s := by
    rw [startupWiped, now, hclock, hstartup]
    rfl
  rw [leaveService_frame, ← hw, ← hclock, ← hpower, ← hcolophon, ← hpins]
  exact ⟨rfl, rfl, rfl, rfl, rfl⟩

/-- A register that a wipe keeps as it stands. -/
theorem rd_coreWiped {u : State} {keep : Nat → Bool} {a : Nat} (hk : keep a = true) (ha : a ≠ 0x2080 ∧ a ≠ 0x604C) :
    rd (coreWiped u keep) a = rd u a := by
  have hr : sget resetWord (keptRegs u keep) a = sget resetWord u.regs a := by
    rw [keptRegs, sget_sset_other _ _ _ ha.2, sget_sset_other _ _ _ ha.1, sget_skeep _ _ _ hk]
  exact congrArg BitVec.toNat hr

/-- The reset cause outlives the core. -/
theorem rd_leaveService {keep : Nat → Bool} (hk : keep 0x2090 = true) (s : State) : rd (leaveService s keep) 0x2090 = rd s 0x2090 :=
  ((showsNoMail_rd (a := 0x2090) (by decide)).leaveService s keep).trans
    ((rd_coreWiped hk (by decide)).trans ((showsNoTraffic_rd (a := 0x2090) (by decide) (by decide)).servedOut s))

/-! ### A warm reset begins (R410, R412) -/

/-- The reset's cause is shown and counted. -/
def resetNoted (s : State) (cause : Nat) : State := tally (wr s 0x2090 cause) 0x20A8

theorem resetNoted_notes (s : State) (cause : Nat) :
    controllers (resetNoted s cause) = controllers s ∧ (cause < 2 ^ 32 → rd (resetNoted s cause) 0x2090 = cause) :=
  ⟨showsNoTraffic_controllers.tallyAt (a := 0x20A8) (fun _ _ => rfl) (wr s 0x2090 cause),
    fun hc => ((showsNoTraffic_rd (a := 0x2090) (by decide) (by decide)).tallyAt (a := 0x20A8)
      (fun u v => rd_wr_other u v (by decide)) _).trans ((rd_wr_same s _ _).trans (Nat.mod_eq_of_lt hc))⟩

theorem wipeDevice_leaves (s : State) :
    (wipeDevice s).startup = startupWiped s ∧ (wipeDevice s).clock = { s.clock with coreTenths := 0 } ∧ CoreEmpty (wipeDevice s) ∧
      rd (wipeDevice s) 0x2090 = rd s 0x2090 := by
  obtain ⟨hstartup, hclock, -⟩ := leaveService_leaves s keptAddr
  exact ⟨hstartup, hclock, coreEmpty_leaveService s keptAddr, rd_leaveService (keep := keptAddr) (by decide) s⟩

/-- RESET_REQ leaves recovery. -/
def leftRecovery (s : State) (cause : Nat) : State :=
  if cause = 4 then { s with startup := { s.startup with recovery := false } } else s

/-- A reset that begins: its cause is named, and the core's work is gone. -/
theorem beginReset_begins {s : State} (hs : s.power.inStandby = false) (hr : s.startup.resetting = false) (hu : s.startup.railsUp = true)
    (cause : Nat) :
    (beginReset s cause).startup = startupWiped (leftRecovery s cause) ∧ (beginReset s cause).clock = { s.clock with coreTenths := 0 } ∧
      CoreEmpty (beginReset s cause) ∧ (cause < 2 ^ 32 → rd (beginReset s cause) 0x2090 = cause) := by
  have he : beginReset s cause = wipeDevice (resetNoted (leftRecovery s cause) cause) := by
    rw [beginReset, if_neg (by simp [hs]), if_neg (by simp [hr, hu])]
    rfl
  obtain ⟨hcontrollers, hcause⟩ := resetNoted_notes (leftRecovery s cause) cause
  obtain ⟨hstartup, -, hclock, -⟩ := controllers_iff.mp hcontrollers
  obtain ⟨h1, h2, h3, h4⟩ := wipeDevice_leaves (resetNoted (leftRecovery s cause) cause)
  have hkept : (leftRecovery s cause).clock = s.clock := view_ite (F := State.clock) rfl rfl
  rw [he]
  refine ⟨h1.trans ?_, h2.trans (by rw [hclock, hkept]), h3, fun hc => h4.trans (hcause hc)⟩
  rw [startupWiped, hstartup, now, hclock]
  rfl

/-- Without a core, or with one that is already in reset, nothing begins. -/
theorem beginReset_of_down {s : State} (hs : s.power.inStandby = false) (hr : s.startup.resetting = true ∨ s.startup.railsUp = false)
    (cause : Nat) : beginReset s cause = s := by
  rw [beginReset, if_neg (by simp [hs]), if_pos (by simpa using hr)]

theorem coreRuns_iff {s : State} : coreRuns s = true ↔ s.startup.railsUp = true ∧ s.startup.resetting = false := by
  simp [coreRuns]

theorem coreRuns_eq_false {s : State} : coreRuns s = false ↔ s.startup.resetting = true ∨ s.startup.railsUp = false := by
  rw [← Bool.not_eq_true, coreRuns_iff, not_and_or, Bool.not_eq_true, Bool.not_eq_false, or_comm]

/-- A reset leaves no other one due. -/
theorem resetAt_beginReset (s : State) (h : s.errors.resetAt = none) (cause : Nat) : (beginReset s cause).errors.resetAt = none := by
  cases hs : s.power.inStandby
  case true =>
    rw [beginReset, if_pos hs, leaveStandby, if_neg (by simp [hs])]
    rfl
  case false =>
    by_cases hr : s.startup.resetting = true ∨ s.startup.railsUp = false
    · rw [beginReset_of_down hs hr, h]
    · simp only [not_or, Bool.not_eq_true, Bool.not_eq_false] at hr
      obtain ⟨-, -, ⟨-, -, -, -, hreset⟩, -⟩ := beginReset_begins hs hr.1 hr.2 cause
      exact hreset

end Sys2Proof.Machine
end

section
/-! The watchdog and delayed resets (R288, R398, R420, R445): what restarts the count, and what an expiry does. -/

namespace Sys2Proof.Machine

/-! ### Fields written whole (R33) -/

/-- An unlocked field takes what is written. -/
theorem writtenWord_field (s : State) (a : Nat) (fs : List Field) (v : Word32) {f : Field} (hf : f ∈ fs) (ht : f.ty = .rwl)
    (hl : pageLocked s a = false) (h32 : f.hi < 32) (hone : ∀ g ∈ fs, ∀ k, g.lo ≤ k → k ≤ g.hi → f.lo ≤ k → k ≤ f.hi → g = f) :
    bits (writtenWord s a fs v.toNat) f.hi f.lo = bits v.toNat f.hi f.lo := by
  refine Nat.eq_of_testBit_eq fun j => ?_
  simp only [bits, ← Nat.shiftRight_eq_div_pow, Nat.testBit_mod_two_pow, Nat.testBit_shiftRight]
  by_cases hj : j < f.hi + 1 - f.lo
  · have hbit := written_bit s a fs v f hf (f.lo + j) (by omega) (by omega) (by omega)
      fun g hg h1 h2 => hone g hg _ h1 h2 (by omega) (by omega)
    rw [bitAt_testBit, ht] at hbit
    rw [hbit]
    simp only [hl, Bool.false_eq_true, if_false, testBit_word]
  · simp [hj]

/-! ### The count -/

/-- WD_CONFIG as written. -/
theorem watchdogConfig_written {s : State} {src : Source} (hl : flag s 0x2028 0 = false) (v : Word32) :
    let t := fieldWrite (atRegister s src 0x2044) src 0x2044 v.toNat
    flag t 0x2044 31 = v.getLsbD 31 ∧ fld t 0x2044 15 0 = v.toNat % 2 ^ 16 ∧ t.power = s.power ∧ now t = now s := by
  have he : atRegister s src 0x2044 = dropHeld s src 0x2044 := atRegister_eq s src 0x2044 fun _ _ h => nomatch h
  have hf : fieldsAt 0x2044 = some [rwl 31 31, rwl 30 30, rwl 15 0] := by decide +kernel
  have hw : wideAt 0x2044 = none := by decide +kernel
  have hrd := rd_fieldWrite hf hw (a := 0x2044) (p := .alwaysOn) (by decide) (by decide) (dropHeld s src 0x2044) src v.toNat
  have hframe := fieldWrite_frame hf hw (dropHeld s src 0x2044) src v.toNat
  rw [writtenWord_dropHeld] at hrd
  rw [he]
  refine ⟨?_, ?_, by rw [hframe]; rfl, by rw [hframe]; rfl⟩
  · rw [flag, hrd, bitAt_mod_word _ (by decide), bitAt_testBit, ← bitAt_testBit]
    exact (written_bit s 0x2044 _ v (rwl 31 31) (by simp) 31 (by decide) (by decide) (by decide) (by decide)).trans
      (if_neg (by simp [pageLocked, hl]))
  · rw [fld, hrd, bits_mod_word _ _ (by decide)]
    refine (writtenWord_field s 0x2044 _ v (f := rwl 15 0) (by simp) rfl hl (by decide) ?_).trans (bits_zero_eq_mod _ _)
    simp only [List.mem_cons, List.not_mem_nil, or_false]
    rintro g (rfl | rfl | rfl) k h1 h2 h3 h4
    · exact absurd (Nat.le_trans h1 h4) (by decide)
    · exact absurd (Nat.le_trans h1 h4) (by decide)
    · rfl

/-- A watchdog that has not expired counts on from its period. -/
theorem watchdogRestart_of_enabled {s : State} (he : s.power.expired = false) (h : flag s 0x2044 31 = true) :
    watchdogRestart s = { s with power := { s.power with watchdog := some (now s + watchdogMs s * 1000000) } } := by
  rw [watchdogRestart, if_neg (by simp [he]), if_pos h]

theorem watchdogRestart_of_expired {s : State} (he : s.power.expired = true) : watchdogRestart s = s := if_pos he

/-- ENABLE is written over 0. -/
theorem watchdogConfigured_of_enabling {s : State} {old : Nat} (h : flag s 0x2044 31 = true) (ho : bitAt old 31 = false) :
    watchdogConfigured s old = watchdogRestart s := by
  rw [watchdogConfigured, if_pos h]
  exact if_pos (.inl ⟨h, by simp [ho]⟩)

theorem exec_watchdogExpired {s : State} {r : Nat} (h : s.power.watchdog = some r) :
    exec .watchdogExpired s = .next (if r ≤ now s then watchdogExpires s else s) := by
  have he : exec .watchdogExpired s = execWatchdogExpired s := rfl
  rw [he, execWatchdogExpired, h]
  rfl

theorem exec_delayedWarmReset {s : State} {r c : Nat} (h : s.errors.resetAt = some (r, c)) :
    exec .delayedWarmReset s =
      .next (if r ≤ now s then beginReset { s with errors := { s.errors with resetAt := none } } c else s) := by
  have he : exec .delayedWarmReset s = execDelayedWarmReset s := rfl
  rw [he, execDelayedWarmReset, h]
  rfl

theorem exec_wdKick {s : State} {src : Source} (h : Admitted s src 0x2048) (v : Word32) :
    exec (.wdKick src v) s = .next (watchdogKick (dropHeld s src 0x2048) v.toNat) := by
  rw [← atRegister_eq s src 0x2048 fun _ _ h => nomatch h]
  exact congrArg done (guarded_of_admitted h _)

/-! ### An expiry (R288, R395) -/

theorem ShowsNoTraffic.setFault {α : Type} {F : State → α} (h : ShowsNoTraffic F) {k : Nat}
    (hb : ∀ s, F (Machine.setFlag s 0x2094 k true) = F s) (s : State) : F (setFault s k) = F s := (hb _).trans (view_ite (h.out s _) rfl)

/-- A view of such a view. -/
theorem ShowsNoTraffic.of_view {α β : Type} {F : State → α} (h : ShowsNoTraffic F) (f : α → β) : ShowsNoTraffic fun s => f (F s) where
  word s a v ha := congrArg f (h.word s a v ha)
  faultLogged s := congrArg f (h.faultLogged s)
  counters s x := congrArg f (h.counters s x)
  errors s x := congrArg f (h.errors s x)
  out s x := congrArg f (h.out s x)
  queues s x := congrArg f (h.queues s x)
  frames s x := congrArg f (h.frames s x)
  nextFrame s x := congrArg f (h.nextFrame s x)
  ports s x := congrArg f (h.ports s x)
  slices s x := congrArg f (h.slices s x)
  buffer s x := congrArg f (h.buffer s x)
  spill s x := congrArg f (h.spill s x)
  captures s x := congrArg f (h.captures s x)
  captureSeq s x := congrArg f (h.captureSeq s x)
  traces s x n := congrArg f (h.traces s x n)
  twin s x := congrArg f (h.twin s x)
  channels s x := congrArg f (h.channels s x)
  kettle s x := congrArg f (h.kettle s x)

/-- What a failed boot leaves of a view that shows neither start-up nor firmware nor BOOT_CONTROL and its latch. -/
theorem ShowsNoTraffic.bootFails {α : Type} {F : State → α} (h : ShowsNoTraffic F)
    (hw : ∀ s a v, a = 0x2080 ∨ a = 0x2084 → F (wr s a v) = F s)
    (hb : ∀ s, F (Machine.setFlag s 0x2094 27 true) = F s) (hf : ∀ s x, F { s with firmware := x } = F s)
    (hs : ∀ s x y, F { s with firmware := x, startup := y } = F s) (s : State) : F (bootFails s) = F s := by
  have failed : F (bootFailed s) = F s := (h.report _ _ _ _).trans (h.tallyAt (a := 0x2084) (fun u v => hw u _ v (.inr rfl)) s)
  refine view_ite ?_ ((hf _ _).trans failed)
  exact (hs _ _ _).trans ((h.setFault hb _).trans ((hw _ _ _ (.inl rfl)).trans ((h.report _ _ _ _).trans failed)))

/-- The expiry, before it is reported. -/
def expiredShown (s : State) : State :=
  raise (setFlag { s with power := { s.power with watchdog := none, watchdogLeft := 0, expired := true } } 0x204C 31 true) .alwaysOn 0

/-- The expiry, before its action. -/
def expiryReported (s : State) : State :=
  let u := receiversDown (startRelease (setFault (report (expiredShown s) 0x0901 .alwaysOn []) 30)) (List.range 6)
  if bootState u = 1 then bootFails u else u

theorem watchdogExpires_eq (s : State) : watchdogExpires s = fatalAction (expiryReported s) (flag (expiryReported s) 0x2044 30) 5 := rfl

section
variable {α : Type} {F : State → α} (h : ShowsNoTraffic F) (hw : ∀ s a v, a = 0x2080 ∨ a = 0x2084 → F (wr s a v) = F s)
  (hb : ∀ s, F (setFlag s 0x2094 27 true) = F s) (hf : ∀ s x, F { s with firmware := x } = F s)
  (hs : ∀ s x y, F { s with firmware := x, startup := y } = F s)
include h hw hb hf hs

/-- After FAULT_STATUS is set, only the release, the mailbox and a failed boot follow. -/
theorem view_expiryReported (s : State) :
    F (expiryReported s) = F (setFault (report (expiredShown s) 0x0901 .alwaysOn []) 30) :=
  (view_ite (h.bootFails hw hb hf hs _) rfl).trans ((h.receiversDown (by decide) _).trans (h.startRelease _))

end

theorem rd_expiryReported (s : State) {a : Nat} (hp : a / 0x1000 = 2) (ha : a ≠ 0x2094 ∧ a ≠ 0x209C ∧ a ≠ 0x20A0 ∧ a ≠ 0x20A4)
    (hn : a ≠ 0x2080 ∧ a ≠ 0x2084) : rd (expiryReported s) a = rd (expiredShown s) a := by
  have h := showsNoTraffic_rd hp ha
  refine (view_expiryReported h (fun u b v hb => rd_wr_other u v (by omega)) (fun u => rd_setFlag_other u 27 true ha.1) (fun _ _ => rfl)
    (fun _ _ _ => rfl) s).trans ?_
  exact (h.setFault (fun u => rd_setFlag_other u 30 true ha.1) _).trans (h.report _ _ _ _)

theorem fault_expiryReported (s : State) : flag (expiryReported s) 0x2094 30 = true :=
  (view_expiryReported (showsNoTraffic_fault (k := 30) (by decide)) (fun u b v hb => flag_wr_other u v 30 (by omega))
    (fun u => (flag_setFlag u 0x2094 27 true 0x2094 30 (by decide)).trans (if_neg (by decide))) (fun _ _ => rfl) (fun _ _ _ => rfl) s).trans
    (flag_setFlag_same _ 0x2094 30 true (by decide))

theorem controllers_expiryReported (s : State) :
    (expiryReported s).clock = s.clock ∧
      (expiryReported s).power = { s.power with watchdog := none, watchdogLeft := 0, expired := true } := by
  have h := showsNoTraffic_controllers.of_view fun c => (c.2.2.1, c.2.2.2.1)
  have seen := (view_expiryReported h (fun _ _ _ _ => rfl) (fun _ => rfl) (fun _ _ => rfl) (fun _ _ _ => rfl) s).trans
    ((h.setFault (fun _ => rfl) _).trans (h.report _ _ _ _))
  exact Prod.mk.inj seen

theorem watchdogExpires_expires (s : State) :
    (watchdogExpires s).power.expired = true ∧ (watchdogExpires s).power.watchdog = none ∧ (watchdogExpires s).power.watchdogLeft = 0 ∧
      flag (watchdogExpires s) 0x204C 31 = true ∧ flag (watchdogExpires s) 0x2094 30 = true ∧ flag (watchdogExpires s) 0x2010 0 = true ∧
      (watchdogExpires s).clock = s.clock ∧ (flag s 0x2044 30 = true → (watchdogExpires s).power.hold = true) ∧
      (flag s 0x2044 30 = false →
        (watchdogExpires s).errors.resetAt = some ((watchdogExpires s).twin.releaseAt.getD (now s) + 1000000, 5)) := by
  obtain ⟨hclock, hpower⟩ := controllers_expiryReported s
  have hnow : now (expiryReported s) = now s := by rw [now, hclock, now]
  have haction : flag (expiryReported s) 0x2044 30 = flag s 0x2044 30 := by
    rw [flag, rd_expiryReported s (by decide) (by decide) (by decide), expiredShown, rd_raise_other _ _ _ (by decide),
      rd_setFlag_other _ _ _ (by decide)]
    rfl
  have h4C : flag (expiryReported s) 0x204C 31 = true := by
    rw [flag, rd_expiryReported s (by decide) (by decide) (by decide), ← flag, expiredShown, flag_raise _ _ _ _ _ (by decide),
      if_neg (by decide),
      flag_setFlag_same _ _ _ _ (by decide)]
  have h10 : flag (expiryReported s) 0x2010 0 = true := by
    rw [flag, rd_expiryReported s (by decide) (by decide) (by decide), ← flag, expiredShown, flag_raise _ _ _ _ _ (by decide),
      if_pos (by decide)]
  have h94 := fault_expiryReported s
  rw [watchdogExpires_eq, haction, fatalAction]
  split
  case isTrue hh => exact ⟨by simp [hpower], by simp [hpower], by simp [hpower], h4C, h94, h10, hclock, fun _ => rfl, by simp [hh]⟩
  case isFalse hh =>
    exact ⟨by simp [hpower], by simp [hpower], by simp [hpower], h4C, h94, h10, hclock, fun h => absurd h hh,
      fun _ => by simp [hnow]⟩

/-- Settles O34: the kick and ENABLE restart the count, an expiry acts once, and a delayed reset waits for its time. -/
theorem watchdogsAndDelayedResetsWait : Obligations.WatchdogsAndDelayedResetsWait := by
  refine ⟨fun s src h he h31 => ?_, fun s src v h hv => ?_, fun s src h he => ?_, fun s src v h hl he h31 hv => ?_, fun s r hr hn => ?_,
    fun s hr => ?_, fun s r hr hn => ?_, fun s r c hr hn => ?_, fun s r c hr hn => ?_, fun s hr => ?_⟩
  · exact ⟨_, (exec_wdKick h _).trans (congrArg done ((if_pos rfl).trans (watchdogRestart_of_enabled he h31))), rfl, rfl⟩
  · exact ⟨_, (exec_wdKick h _).trans (congrArg done (if_neg fun e => hv (BitVec.eq_of_toNat_eq e))), rfl⟩
  · exact ⟨_, (exec_wdKick h _).trans (congrArg done ((if_pos rfl).trans (watchdogRestart_of_expired he))), rfl⟩
  · obtain ⟨ht31, htperiod, htpower, htnow⟩ := watchdogConfig_written (s := s) (src := src) hl v
    have hrestart := (watchdogConfigured_of_enabling (old := rd (atRegister s src 0x2044) 0x2044) (ht31.trans hv)
      (by rw [rd_atRegister]; exact h31)).trans (watchdogRestart_of_enabled (htpower ▸ he) (ht31.trans hv))
    refine ⟨_, (congrArg done (guarded_of_admitted h _)).trans (congrArg done hrestart), ht31.trans hv, htperiod, ?_⟩
    simp only [watchdogMs, htperiod, htnow]
  · obtain ⟨h1, h2, h3, h4, h5, h6, h7, h8, h9⟩ := watchdogExpires_expires s
    exact ⟨_, (exec_watchdogExpired hr).trans (congrArg done (if_pos hn)), rfl, h1, h2, h3, h4, h5, h6, h7, h8, h9⟩
  · have he : exec .watchdogExpired s = execWatchdogExpired s := rfl
    rw [he, execWatchdogExpired, hr]
    rfl
  · exact (exec_watchdogExpired hr).trans (congrArg done (if_neg (by omega)))
  · refine ⟨_, (exec_delayedWarmReset hr).trans (congrArg done (if_pos hn)), rfl, ?_, fun hs hc hlt => ?_⟩
    · exact resetAt_beginReset { s with errors := { s.errors with resetAt := none } } rfl c
    · obtain ⟨hu, hr⟩ := coreRuns_iff.mp hc
      obtain ⟨hstartup, hclock, ⟨hq, hf, ht, -⟩, hcause⟩ :=
        beginReset_begins (s := { s with errors := { s.errors with resetAt := none } }) hs hr hu c
      exact ⟨by rw [hstartup]; rfl, hcause hlt, hq, hf, ht, hclock⟩
  · exact (exec_delayedWarmReset hr).trans (congrArg done (if_neg (by omega)))
  · have he : exec .delayedWarmReset s = execDelayedWarmReset s := rfl
    rw [he, execDelayedWarmReset, hr]
    rfl

end Sys2Proof.Machine
end

section
/-! Requests of the always-on page (R299, R302, R410): deep standby, wake, quiet and reset. -/

namespace Sys2Proof.Machine

theorem atRegister_aoControl (s : State) (src : Source) : atRegister s src 0x2040 = dropHeld s src 0x2040 :=
  atRegister_eq s src 0x2040 fun _ _ h => nomatch h

theorem guarded_aoControl {s : State} {src : Source} (h : Admitted s src 0x2040) (act : State → State) :
    guarded s src 0x2040 act = act (dropHeld s src 0x2040) := by
  rw [guarded_of_admitted h, atRegister_aoControl]

/-! ### Deep standby (R299) -/

theorem enterStandby_enters (s : State) :
    (enterStandby s).power.inStandby = true ∧ (enterStandby s).pins.corePower = false ∧ (enterStandby s).startup.railsUp = false ∧
      (enterStandby s).power.watchdog = s.power.watchdog ∧ (enterStandby s).power.steps = [] ∧ CoreEmpty (enterStandby s) ∧
      (enterStandby s).clock = { s.clock with coreTenths := 0 } ∧ (enterStandby s).colophon.lifecycle = s.colophon.lifecycle := by
  obtain ⟨-, hclock, hpower, hcolophon, -⟩ := leaveService_leaves s standbyAddr
  have hwatchdog : (leaveService s standbyAddr).power.watchdog = s.power.watchdog := by rw [hpower]
  have hlifecycle : (leaveService s standbyAddr).colophon.lifecycle = s.colophon.lifecycle := by rw [hcolophon]; rfl
  exact ⟨rfl, rfl, rfl, hwatchdog, rfl, coreEmpty_leaveService s standbyAddr, hclock, hlifecycle⟩

/-! ### Quiet (R302) -/

/-- With no transmission under way nothing is cut. -/
theorem idleFronts_of_idle {s : State} (h : FrontsIdle s) : idleFronts s = s := by
  have idle : ∀ p express, cutStomped s p express = s := fun p express => by
    obtain ⟨he, hp⟩ := h p
    unfold cutStomped txOf
    cases express
    · rw [if_neg Bool.false_ne_true, hp]
    · rw [if_pos rfl, he]
  exact foldl_of_fixed fun p _ => by rw [idle p true, idle p false]

/-- The state with QUIET written. -/
def quietShown (s : State) (src : Source) (on : Bool) : State := setFlag (atRegister s src 0x2040) 0x2040 30 on

theorem quietShown_shows (s : State) (src : Source) (on : Bool) :
    flag (quietShown s src on) 0x2040 30 = on ∧ RegsBut [0x2040] s (quietShown s src on) ∧
      quietShown s src on = { s with regs := (quietShown s src on).regs, access := (quietShown s src on).access } := by
  refine ⟨flag_setFlag_same _ _ _ _ (by decide), ?_, ?_⟩
  · exact (RegsBut.of_regs_eq _ (atRegister_regs s src 0x2040)).setFlag (by simp) 30 on
  · rw [quietShown, atRegister_aoControl]
    rfl

theorem portUp_quietShown (s : State) (src : Source) (on : Bool) (p : Nat) : portUp (quietShown s src on) p = portUp s p := by
  have word : rd (quietShown s src on) (0x20004C + p * 0x4000) = rd s (0x20004C + p * 0x4000) :=
    (quietShown_shows s src on).2.1 _ (by simp; omega)
  simp only [portUp, portState, fld, word]

theorem exec_quiet {s : State} {src : Source} (h : Admitted s src 0x2040) (on : Bool) :
    exec (.quiet src on) s = .next (if on then idleFronts (quietShown s src on) else fcFlushAll (quietShown s src on)) :=
  congrArg done (guarded_of_admitted h _)

theorem settled_quietShown (s : State) (src : Source) (on : Bool) : settled (quietShown s src on) = settled s := by
  rw [quietShown, atRegister_aoControl]
  rfl

/-- Settles O37: STANDBY, WAKE, QUIET and RESET_REQ act where R299, R302 and R410 let them. -/
theorem alwaysOnRequestsAct : Obligations.AlwaysOnRequestsAct := by
  refine ⟨fun s src h hs hr => ?_, fun s src h hs hr => ?_, fun s src h hs => ?_, fun s src h hs => ?_, fun s src h => ?_,
    fun s src h => ?_,
    fun s src h hs hc => ?_, fun s src h hs hc => ?_⟩
  · exact ⟨dropHeld s src 0x2040, congrArg done ((guarded_aoControl h _).trans (if_pos (.inr hr))), rfl⟩
  · have hn : ¬((dropHeld s src 0x2040).power.inStandby = true ∨ standbyRefused (dropHeld s src 0x2040) = true) :=
      not_or.mpr ⟨Bool.eq_false_iff.mp hs, Bool.eq_false_iff.mp hr⟩
    obtain ⟨h1, h2, h3, h4, h5, ⟨hq, hf, ht, -⟩, h7, h8⟩ := enterStandby_enters (dropHeld s src 0x2040)
    exact ⟨_, congrArg done ((guarded_aoControl h _).trans (if_neg hn)), by rw [atRegister_aoControl], h1, h2, h3, h4, h5, hf, hq, ht, h7,
      h8⟩
  · obtain ⟨hcause, hpower, hpins, -, hclock, -⟩ := leaveStandby_wakes (s := dropHeld s src 0x2040) hs (cause := 9) (by decide)
    exact ⟨_, congrArg done (guarded_aoControl h _), by rw [hpower]; rfl, by rw [hpins], hcause, hclock⟩
  · exact ⟨dropHeld s src 0x2040, congrArg done ((guarded_aoControl h _).trans (leaveStandby_of_awake (s := dropHeld s src 0x2040) hs 9)),
    rfl⟩
  · obtain ⟨hflag, hregs, hframe⟩ := quietShown_shows s src true
    refine ⟨_, exec_quiet h true, (settled_idleFronts _).trans (settled_quietShown s src true), rfl, fun hi => ?_⟩
    have hidle : FrontsIdle (quietShown s src true) := by
      rw [hframe]
      exact hi
    rw [if_pos rfl, idleFronts_of_idle hidle]
    exact ⟨hflag, hregs, hframe⟩
  · obtain ⟨hflag, hregs, hframe⟩ := quietShown_shows s src false
    obtain ⟨hframes, hqueues⟩ := stored_iff.mp ((showsNoPort_stored.fcFlushAll (quietShown s src false)).trans
      ((congrArg stored hframe).trans rfl : _ = stored s))
    refine ⟨_, exec_quiet h false, (settled_fcFlushAll _).trans (settled_quietShown s src false), hqueues, hframes, fun hd => ?_⟩
    rw [if_neg Bool.false_ne_true, fcFlushAll_of_down fun p hp => (portUp_quietShown s src false p).trans (hd p hp)]
    exact ⟨hflag, hregs, hframe⟩
  · obtain ⟨hu, hr⟩ := coreRuns_iff.mp hc
    obtain ⟨hstartup, hclock, ⟨hq, hf, ht, -⟩, hcause⟩ := beginReset_begins (s := dropHeld s src 0x2040) hs hr hu 4
    exact ⟨_, congrArg done (guarded_aoControl h _), by rw [hstartup]; rfl, hcause (by decide), by rw [hstartup]; rfl, hclock, ht, hq, hf⟩
  · exact ⟨dropHeld s src 0x2040, congrArg done ((guarded_aoControl h _).trans
      (beginReset_of_down (s := dropHeld s src 0x2040) hs (coreRuns_eq_false.mp hc) 4)), rfl⟩

end Sys2Proof.Machine
end

section
/-! Fatal errors, the error log and rescue frames (R404, R417, R418, R420, R421). -/

namespace Sys2Proof.Machine

/-! ### Device-fatal errors (R420) -/

/-- A device-fatal error, before the release of the claim. -/
def fatalShown (s : State) (code fault : Nat) (p : Page) (detail : List Nat) : State := setFault (report s code p detail) fault

theorem controllers_fatalShown (s : State) (code fault : Nat) (p : Page) (detail : List Nat) :
    controllers (fatalShown s code fault p detail) = controllers s :=
  (showsNoTraffic_controllers.setFault (fun _ => rfl) _).trans (showsNoTraffic_controllers.report s code p detail)

theorem deviceFatal_eq (s : State) (code fault : Nat) (p : Page) (detail : List Nat) : deviceFatal s code fault p detail =
    fatalAction (startRelease (fatalShown s code fault p detail)) (flag (fatalShown s code fault p detail) 0x2098 31) 6 := by
  simp only [deviceFatal, fatalShown]

/-- FATAL_CONFIG.ACTION is as it was. -/
theorem action_fatalShown (s : State) (code fault : Nat) (p : Page) (detail : List Nat) :
    flag (fatalShown s code fault p detail) 0x2098 31 = flag s 0x2098 31 := by
  have h := showsNoTraffic_rd (a := 0x2098) (by decide) (by decide)
  exact congrArg (bitAt · 31) ((h.setFault (fun u => rd_setFlag_other u fault true (by decide)) _).trans (h.report s code p detail))

/-- A device-fatal error holds the front or asks for a reset, and leaves the controllers as they are. -/
theorem deviceFatal_leaves (s : State) (code fault : Nat) (p : Page) :
    ((deviceFatal s code fault p []).clock = s.clock ∧ (deviceFatal s code fault p []).seq = s.seq ∧
      (deviceFatal s code fault p []).startup = s.startup ∧ (deviceFatal s code fault p []).colophon = s.colophon ∧
      (deviceFatal s code fault p []).firmware = s.firmware) ∧
    ((deviceFatal s code fault p []).power.hold = true ∨ ∃ at_, (deviceFatal s code fault p []).errors.resetAt = some (at_, 6)) := by
  obtain ⟨hstartup, hfirmware, hclock, -, hseq, hcolophon, -⟩ := controllers_iff.mp
    ((showsNoTraffic_controllers.startRelease _).trans (controllers_fatalShown s code fault p []))
  rw [deviceFatal_eq, fatalAction]
  split
  case isTrue => exact ⟨⟨hclock, hseq, hstartup, hcolophon, hfirmware⟩, .inl rfl⟩
  case isFalse => exact ⟨⟨hclock, hseq, hstartup, hcolophon, hfirmware⟩, .inr ⟨_, rfl⟩⟩

/-- The error shows in FAULT_STATUS. -/
theorem fault_deviceFatal (s : State) (code : Nat) (p : Page) : flag (deviceFatal s code 31 p []) 0x2094 31 = true := by
  have shown : flag (startRelease (fatalShown s code 31 p [])) 0x2094 31 = true :=
    ((showsNoTraffic_fault (k := 31) (by decide)).startRelease _).trans (flag_setFlag_same _ 0x2094 31 true (by decide))
  rw [deviceFatal_eq, fatalAction]
  split
  · exact shown
  · exact shown

/-- The reset is due 1 ms after the release, or after the error where none is due. -/
theorem resetAt_fatalAction (u : State) (cause : Nat) :
    (fatalAction (armCleared u) false cause).errors.resetAt = some (u.twin.releaseAt.getD (now u) + 1000000, cause) := rfl

/-- A device that does not claim resets 1 ms after the error. -/
theorem resetAt_deviceFatal {s : State} (hc : claims s = false) (ha : flag s 0x2098 31 = false) (hn : s.twin.releaseAt = none)
    (code fault : Nat) (p : Page) (detail : List Nat) :
    (deviceFatal s code fault p detail).errors.resetAt = some (now s + 1000000, 6) := by
  have hclaims : claims (fatalShown s code fault p detail) = false := by
    have h := shows_rd (a := 0x604C) (by decide) (by decide)
    have hrd : rd (fatalShown s code fault p detail) 0x604C = rd s 0x604C := (h.setFault _ fault).trans (h.report s code p detail)
    rw [claims, flag, hrd, ← flag, ← claims, hc]
  have ht := shows_of_rfl (F := State.twin) fun _ _ _ _ _ => rfl
  have htwin : (fatalShown s code fault p detail).twin = s.twin := (ht.setFault _ fault).trans (ht.report s code p detail)
  obtain ⟨-, -, hclock, -⟩ := controllers_iff.mp (controllers_fatalShown s code fault p detail)
  have hnow : now (fatalShown s code fault p detail) = now s := by rw [now, hclock, now]
  rw [deviceFatal_eq, action_fatalShown, ha, startRelease_of_released hclaims, resetAt_fatalAction, htwin, hn, hnow]
  rfl

/-! ### The error log (R417, R418) -/

/-- The log's next number is taken, and the latched error has been written once its record is. -/
def recordNumbered (s : State) (r : ErrRec) : State :=
  { s with errors := { s.errors with
      sequence := (s.errors.sequence + 1) % 2 ^ 32
      first := if s.errors.first = some r then none else s.errors.first } }

theorem logError_eq (s : State) (r : ErrRec) : logError s r =
    if eventRoom (recordNumbered s r) 5 64 then eventWrite (recordNumbered s r) 5 (errorWords r s.errors.sequence)
    else count (recordNumbered s r) 5 1 := rfl

theorem errors_logError (s : State) (r : ErrRec) : (logError s r).errors = (recordNumbered s r).errors := by
  have written : ∀ u ws, (eventWrite u 5 ws).errors = u.errors := fun u ws => by rw [eq_of_besideRing (besideRing_eventWrite u 5 ws)]
  rw [logError_eq]
  exact view_ite (F := fun u : State => u.errors) (written _ _) (view_count (F := fun u : State => u.errors) (fun _ _ => rfl) _ 5 1)

/-- A waiting record is written next. -/
theorem logNext_of_waiting {s : State} {r : ErrRec} {l : List ErrRec}
    (hf : s.errors.first = none ∨ ∃ f ∈ s.errors.waiting, s.errors.first = some f)
    (hw : s.errors.waiting = r :: l) : logNext s = logError { s with errors := { s.errors with waiting := l } } r := by
  unfold logNext
  rcases hf with hf | ⟨f, hm, hf⟩
  · simp only [hf, hw]
  · rw [hw] at hm
    simp only [hf, hw, if_pos hm]

/-! ### Rescue operations (R404) -/

theorem rescueStep_of_front {s : State} {r : Rescue} {l : List Rescue} {p op : Nat} (hr : s.rescues = r :: l) (hp : r.port = p)
    (ho : r.op = op) (act : State → Rescue → State) : rescueStep s p op act = act { s with rescues := l } r := by
  rw [rescueStep, hr]
  exact if_pos ⟨hp, ho⟩

/-- A response only leaves the block. -/
theorem rescueAnswer_frame (s : State) (r : Rescue) : rescueAnswer s r = { s with out := (rescueAnswer s r).out } := by
  unfold rescueAnswer
  dsimp only
  split <;> rfl

/-- Where the port may send, one response leaves. -/
theorem rescueAnswer_of_open {s : State} {r : Rescue} (h : portUp s r.port = true ∧ egressOpen s = true) :
    (rescueAnswer s r).out = s.out ++ [.control r.port (rescueFrame s r ++ fcsOf (rescueFrame s r))] := by
  unfold rescueAnswer
  exact congrArg State.out (if_pos h)

/-- A device that claims is on its way to release. -/
theorem releaseAt_startRelease {s : State} (hc : claims s = true) : (startRelease s).twin.releaseAt.isSome = true := by
  cases hn : s.twin.releaseAt with
  | none => rw [startRelease_of_claims hc hn, releaseAt_releaseTimed]; rfl
  | some n =>
    have hs : (armCleared s).twin.releaseAt = some n := hn
    have he : startRelease s = stopEgress (armCleared s) := by
      rw [startRelease_eq, claims_armCleared, hc, hs]
      rfl
    rw [he]
    refine (congrArg (fun w : Twin => w.releaseAt.isSome) (twin_stopEgress _)).trans ?_
    rw [hs]
    rfl

/-- Settles O60: fatal errors show and ask for their reset, the log writes one record at a time, and rescue frames act. -/
theorem errorsAreLoggedAndRescued : Obligations.ErrorsAreLoggedAndRescued := by
  refine ⟨fun s hw => ?_, fun s hw => ?_, fun s => ?_, fun s code f p l hc ha hn => resetAt_deviceFatal hc ha hn code f p l,
    fun s r l hf hw => ?_, fun s hf hw => ?_, fun s r l p hr hp => ⟨fun ho => ?_, fun ho => ?_, fun ho => ?_, fun ho => ?_⟩,
    fun s p hr => ?_⟩
  · exact congrArg done (if_neg (by simp [hw]))
  · obtain ⟨⟨hclock, hseq, hstartup, -⟩, haction⟩ := deviceFatal_leaves s 0x0902 31 .alwaysOn
    exact ⟨_, congrArg done (if_pos hw), rfl, hclock, hseq, hstartup, haction⟩
  · obtain ⟨⟨hclock, hseq, hstartup, -⟩, haction⟩ := deviceFatal_leaves s 0x0107 31 .sequencer
    exact ⟨_, rfl, rfl, hclock, hseq, hstartup, fun _ => fault_deviceFatal s 0x0107 .sequencer, haction⟩
  · exact ⟨_, congrArg done (logNext_of_waiting hf hw), rfl, errors_logError _ r, settled_logError _ r⟩
  · refine congrArg done ?_
    rw [logNext]
    simp only [hf, hw]
  · refine ⟨_, congrArg done (rescueStep_of_front hr hp ho _), rfl, ?_, ?_, ?_, fun hup => ?_⟩
    · rw [rescueAnswer_frame]
    · rw [rescueAnswer_frame]
    · exact settled_rescueAnswer _ r
    · rw [rescueAnswer_of_open (s := { s with rescues := l }) (r := r) (hp ▸ hup), List.length_append]
      rfl
  · refine ⟨_, congrArg done (rescueStep_of_front hr hp ho _), rfl, fun hc hs => ?_⟩
    obtain ⟨hu, hrs⟩ := coreRuns_iff.mp hc
    obtain ⟨hstartup, -, ⟨hq, -, -, hresc, -⟩, -⟩ := beginReset_begins (s := { s with rescues := l }) hs hrs hu 7
    exact ⟨by rw [hstartup]; rfl, hq, hresc⟩
  · refine ⟨_, congrArg done (rescueStep_of_front hr hp ho _), rfl, (settled_rescueAnswer _ r).trans (settled_startRelease _), fun hc => ?_⟩
    rw [rescueAnswer_frame]
    exact releaseAt_startRelease (s := { s with rescues := l }) hc
  · refine ⟨_, congrArg done (rescueStep_of_front hr hp ho _), rfl, ?_, ?_, ?_, ?_⟩
    · rw [rescueAnswer_frame]
      rfl
    · rw [rescueAnswer_frame]
      exact flag_setFlag_same { s with rescues := l } 0x2080 30 _ (by decide)
    · rw [rescueAnswer_frame]
      exact (RegsBut.of_regs_eq [0x2080] (rfl : ({ s with rescues := l } : State).regs = s.regs)).setFlag (by simp) 30 _
    · exact (settled_rescueAnswer _ r).trans (settled_setFlag _ _ _ _)
  · have he : exec (.statusRead p) s = .next (rescueStep s p 1 fun s r => rescueAnswer s r) := rfl
    rw [he, rescueStep, hr]

end Sys2Proof.Machine
end

section
/-! Power-up, resets and supply loss (R405 to R413, R438, R447). -/

namespace Sys2Proof.Machine

/-! ### The emergency cap seen from elsewhere (R297) -/

section EmergencyCap

variable {α : Type} {F : State → α} {as : List Nat} (h : Shows F as) (hr : 0x3010 ∉ as ∧ 0x3050 ∉ as ∧ 0x3080 ∉ as)
  (hp : ∀ s x, F { s with power := x } = F s) (hd : ∀ s x, F { s with freeCount := x } = F s)
include h hr hp hd

/-- A lower clock is in the power page and the power state. -/
theorem view_lowerClock (s : State) (code : Nat) : F (lowerClock s code) = F s := by
  have clock : F (setClock s code) = F s := view_ite rfl ((hd _ _).trans ((hp _ _).trans (h.word s _ _ hr.2.1)))
  exact (hp _ _).trans ((h.out _ _).trans ((h.word _ _ _ hr.2.1).trans clock))

theorem view_emergencyCap (s : State) : F (emergencyCap s) = F s := by
  have shown : F (capShown s) = F s := (h.report _ _ _ _).trans ((h.tally hr.2.2 _).trans
    ((h.raise (p := .power) hr.1 _ 1).trans ((h.word _ _ _ hr.2.1).trans (hp s _))))
  exact view_ite (hp s _) (view_ite ((view_lowerClock h hr hp hd _ _).trans shown) shown)

end EmergencyCap

/-! ### Steps 8 and 9 of power-up (R331, R400, R407) -/

/-- The view shows nothing that service starts with: the watchdog's count, the slices' generators and the debug nonce. -/
structure ShowsNoStart {α : Type} (F : State → α) (as : List Nat) : Prop extends Shows F as where
  power : ∀ s x, F { s with power := x } = F s
  slices : ∀ s x, F { s with slices := x } = F s
  freeCount : ∀ s x, F { s with freeCount := x } = F s
  started : 0x3010 ∉ as ∧ 0x3050 ∉ as ∧ 0x3080 ∉ as ∧ 0x1060 ∉ as ∧ 0x1064 ∉ as ∧ 0x1068 ∉ as

/-- Service before the endpoint is ready. -/
def serviceSeeded (s : State) : State := drawNonce ((List.range 8).foldl seedSlice (watchdogRestart s))

theorem startService_eq (s : State) : startService s =
    if (endpointReady (serviceSeeded s)).power.alert then emergencyCap (endpointReady (serviceSeeded s))
    else endpointReady (serviceSeeded s) := rfl

section
variable {α : Type} {F : State → α} {as : List Nat}

theorem ShowsNoStart.watchdogRestart (h : ShowsNoStart F as) (s : State) : F (watchdogRestart s) = F s :=
  view_ite rfl (view_ite (h.power s _) (h.power s _))

theorem ShowsNoStart.seedSlice (h : ShowsNoStart F as) (s : State) (i : Nat) : F (seedSlice s i) = F s :=
  (h.freeCount _ _).trans ((h.freeCount _ _).trans (h.slices s _))

theorem ShowsNoStart.drawNonce (h : ShowsNoStart F as) (s : State) : F (drawNonce s) = F s := by
  obtain ⟨-, -, -, h0, h1, h2⟩ := h.started
  refine (view_foldl_mem (fun u n hn => h.word u _ _ ?_) _).trans (h.freeCount s _)
  have h3 := List.mem_range.mp hn
  interval_cases n
  · exact h0
  · exact h1
  · exact h2

theorem ShowsNoStart.serviceSeeded (h : ShowsNoStart F as) (s : State) : F (serviceSeeded s) = F s :=
  (h.drawNonce _).trans ((view_foldl (fun u i => h.seedSlice u i) _ _).trans (h.watchdogRestart s))

/-- The endpoint, once ready, and a power alert that stands (R297). -/
theorem ShowsNoStart.startService_of_seeded (h : ShowsNoStart F as) (s : State) :
    F (startService s) = F (endpointReady (Machine.serviceSeeded s)) := by
  obtain ⟨h10, h50, h80, -⟩ := h.started
  rw [startService_eq]
  exact view_ite (view_emergencyCap h.toShows ⟨h10, h50, h80⟩ h.power h.freeCount _) rfl

/-- Service starts beside the view. -/
theorem ShowsNoStart.startService (h : ShowsNoStart F as) (hh : ∀ s x, F { s with host := x } = F s) (s : State) :
    F (startService s) = F s :=
  (h.startService_of_seeded s).trans ((view_ite rfl (hh _ _)).trans (h.serviceSeeded s))

end

/-- A register of none of the pages that service reaches. -/
theorem showsNoStart_rd {a : Nat} (h2 : a / 0x1000 ≠ 2) (hd : a ≠ 0xD010)
    (ha : a ≠ 0x3010 ∧ a ≠ 0x3050 ∧ a ≠ 0x3080 ∧ a ≠ 0x1060 ∧ a ≠ 0x1064 ∧ a ≠ 0x1068) : ShowsNoStart (fun s => rd s a) [a] where
  toShows := shows_rd h2 hd
  power _ _ := rfl
  slices _ _ := rfl
  freeCount _ _ := rfl
  started := by simpa [eq_comm] using ha

/-- What service does not start with: start-up itself, the clocks, the pins, queues and tables. -/
def beforeService (s : State) : Startup × Clock × Pins × Sparse Queue × Sparse Image := (s.startup, s.clock, s.pins, s.queues, s.tabs)

theorem beforeService_iff {s t : State} : beforeService t = beforeService s ↔ t.startup = s.startup ∧ t.clock = s.clock ∧ t.pins = s.pins ∧
    t.queues = s.queues ∧ t.tabs = s.tabs := by
  simp only [beforeService, Prod.mk.injEq]

theorem showsNoStart_beforeService : ShowsNoStart beforeService [] where
  toShows := shows_of_rfl fun _ _ _ _ _ => rfl
  power _ _ := rfl
  slices _ _ := rfl
  freeCount _ _ := rfl
  started := by simp

theorem showsNoStart_host : ShowsNoStart State.host [] where
  toShows := shows_of_rfl fun _ _ _ _ _ => rfl
  power _ _ := rfl
  slices _ _ := rfl
  freeCount _ _ := rfl
  started := by simp

/-- With PERST_N high the link is up once service has started. -/
theorem linkUp_startService {s : State} (h : s.host.inReset = false) : (startService s).host.linkUp = true := by
  have seeded := showsNoStart_host.serviceSeeded s
  rw [showsNoStart_host.startService_of_seeded s]
  generalize serviceSeeded s = u at seeded ⊢
  unfold endpointReady
  split
  case isTrue hr => exact hr.resolve_left (by rw [seeded, h]; exact Bool.false_ne_true)
  case isFalse => rfl

/-- What a start leaves. -/
theorem startService_starts (s : State) (k : Nat) :
    beforeService (startService s) = beforeService s ∧ flag (startService s) 0x1040 k = flag s 0x1040 k ∧
      flag (startService s) 0x4078 k = flag s 0x4078 k :=
  ⟨showsNoStart_beforeService.startService (fun _ _ => rfl) s,
    congrArg (bitAt · k) ((showsNoStart_rd (a := 0x1040) (by decide) (by decide) (by decide)).startService (fun _ _ => rfl) s),
    congrArg (bitAt · k) ((showsNoStart_rd (a := 0x4078) (by decide) (by decide) (by decide)).startService (fun _ _ => rfl) s)⟩

end Sys2Proof.Machine
end

section
/-! What power-up, resets and lost supplies leave (R406 to R413, R438). -/

namespace Sys2Proof.Machine

/-! ### The claim dropped (R264) -/

theorem ShowsNoTraffic.dropClaim {α : Type} {F : State → α} (h : ShowsNoTraffic F) (ht : ∀ s x y, F { s with twin := x, tabs := y } = F s)
    (s : State) : F (dropClaim s) = F s := by
  have resync : ∀ u, F (Machine.startResync u) = F u := fun u =>
    (h.mail.kettleSend _ _ _ _ _).trans ((ht _ _ _).trans ((h.tally _ (by decide)).trans (h.setFlag u 23 false (by decide))))
  have done : F (handoverDone s) = F s := view_ite (h.raise s 7 (by decide)) rfl
  have driven : F (driveClaim (handoverDone s) false) = F s := (h.out _ _).trans ((h.setFlag _ 28 false (by decide)).trans done)
  have dropped : F (claimDropped s) = F s :=
    (view_ite rfl ((h.raise _ 0 (by decide)).trans (h.setFld _ _ _ _ (by decide)))).trans
      ((h.setFlag _ 28 false (by decide)).trans ((h.twin _ _).trans ((h.twin _ _).trans driven)))
  exact (view_ite (s := claimDropped s) (resync _) rfl).trans dropped

/-! ### The core's rails (R407, R411) -/

/-- The rails are in range, and the presence pin is driven. -/
def railsShown (s : State) : State := drivePresent { s with startup := { s.startup with railsUp := true } } true

theorem railsShown_frame (s : State) : railsShown s =
    { s with startup := { s.startup with railsUp := true }, pins := { s.pins with present := true }, out := (railsShown s).out } := by
  unfold railsShown drivePresent
  split
  case isTrue h =>
    have hp : s.pins.present = true := h
    rw [← hp]
  case isFalse => rfl

/-- Device time and steady time at 0, and all that counts instants of them. -/
def timeZeroed (s : State) : State :=
  { s with
    clock := {}
    fdb := {}
    policing := { s.policing with refills := 0 }
    sched := { s.sched with refills := [0, 0, 0, 0] }
    power := { s.power with coolSince := 0, relaxSince := 0 }
    startup := { s.startup with island := true, lastDequeue := 0, lastTimestamp := 0 } }

theorem startTime_eq (s : State) :
    startTime s = setFlag (timeZeroed (if s.twin.releaseAt.isSome then dropClaim s else s)) 0x4078 31 true := rfl

theorem startTime_starts (s : State) : (startTime s).clock = {} ∧ flag (startTime s) 0x4078 31 = true ∧ (startTime s).host = s.host ∧
    (startTime s).pins = s.pins ∧ (startTime s).startup = { s.startup with island := true, lastDequeue := 0, lastTimestamp := 0 } := by
  have hdropped : controllers (if s.twin.releaseAt.isSome then dropClaim s else s) = controllers s :=
    view_ite (showsNoTraffic_controllers.dropClaim (fun _ _ _ => rfl) s) rfl
  rw [startTime_eq]
  generalize (if s.twin.releaseAt.isSome then dropClaim s else s) = u at hdropped ⊢
  obtain ⟨hstartup, -, -, -, -, -, hpins, hhost⟩ := controllers_iff.mp hdropped
  rw [← hstartup, ← hpins, ← hhost]
  exact ⟨rfl, flag_setFlag_same _ 0x4078 31 true (by decide), rfl, rfl, rfl⟩

/-- The state that the steps of power-up begin with: time starts, unless it has run on. -/
def railsTimed (s : State) : State := if s.startup.island then railsShown s else startTime (railsShown s)

theorem railsInRange_of_down {s : State} (ha : s.startup.aonUp = true) (hr : s.startup.railsUp = false) (hs : s.power.inStandby = false)
    (colophonOk bistOk : Bool) : railsInRange s colophonOk bistOk = startSteps (railsTimed s) colophonOk (some bistOk) := by
  have hi : (railsShown s).startup.island = s.startup.island := by rw [railsShown_frame]
  rw [railsTimed, ← hi]
  exact if_neg (by simp [ha, hr, hs])

/-- What the steps of power-up begin with. -/
theorem railsTimed_starts (s : State) : (railsTimed s).startup.railsUp = true ∧ (railsTimed s).startup.bootStopped = s.startup.bootStopped ∧
    (railsTimed s).startup.bistFailed = s.startup.bistFailed ∧ (railsTimed s).pins.present = true ∧ (railsTimed s).host = s.host ∧
    (s.startup.island = false → (railsTimed s).clock = {} ∧ (railsTimed s).startup.island = true ∧ flag (railsTimed s) 0x4078 31 = true) ∧
    (s.startup.island = true → (railsTimed s).clock = s.clock) := by
  obtain ⟨hclock, hflag, hhost, hpins, hstartup⟩ := startTime_starts (railsShown s)
  have hshown := railsShown_frame s
  unfold railsTimed
  split
  case isTrue hi =>
    rw [hshown]
    exact ⟨rfl, rfl, rfl, rfl, rfl, fun h => by simp [hi] at h, fun _ => rfl⟩
  case isFalse hi =>
    rw [hclock, hflag, hhost, hpins, hstartup, hshown]
    exact ⟨rfl, rfl, rfl, rfl, rfl, fun _ => ⟨rfl, rfl, rfl⟩, fun h => absurd h hi⟩

/-- Colophon has started. -/
def colophonStarted (s : State) : State := setFlag { s with startup := { s.startup with resetting := false } } 0x1040 28 true

theorem startSteps_of_good {s : State} {bist : Option Bool} (hb : bist ≠ some false) :
    startSteps s true bist = startService (colophonStarted s) := by
  unfold startSteps
  exact if_neg hb

theorem startSteps_of_bad (s : State) (bist : Option Bool) :
    startSteps s false bist = colophonFails { s with startup := { s.startup with resetting := false } } := rfl

/-- What a good start leaves. -/
theorem startService_colophonStarted (s : State) :
    let t := startService (colophonStarted s)
    t.startup = { s.startup with resetting := false } ∧ t.clock = s.clock ∧ t.pins = s.pins ∧ t.queues = s.queues ∧ t.tabs = s.tabs ∧
      flag t 0x1040 28 = true ∧ flag t 0x4078 31 = flag s 0x4078 31 ∧ (s.host.inReset = false → t.host.linkUp = true) := by
  obtain ⟨hbefore, h28, -⟩ := startService_starts (colophonStarted s) 28
  obtain ⟨-, -, h78⟩ := startService_starts (colophonStarted s) 31
  obtain ⟨hstartup, hclock, hpins, hqueues, htabs⟩ := beforeService_iff.mp hbefore
  refine ⟨hstartup, hclock, hpins, hqueues, htabs, h28.trans (flag_setFlag_same _ 0x1040 28 true (by decide)), h78.trans ?_,
    fun h => linkUp_startService (s := colophonStarted s) h⟩
  exact congrArg (bitAt · 31) (rd_setFlag_other _ 28 true (by decide))

/-- Colophon's failure stops the boot (R389). -/
theorem colophonFails_fails (s : State) : (colophonFails s).startup = { s.startup with bootStopped := true } ∧
    (colophonFails s).clock = s.clock ∧ flag (colophonFails s) 0x1040 27 = true ∧ flag (colophonFails s) 0x2094 28 = true := by
  have he : ∃ u : State, colophonFails s = setFault (report (raise (setFlag u 0x1040 27 true) .colophon 2) 0x0801 .colophon []) 28 ∧
      u = { s with startup := { s.startup with bootStopped := true } } := ⟨_, rfl, rfl⟩
  obtain ⟨u, he, hu⟩ := he
  have failed : ∀ {α : Type} {F : State → α} {as : List Nat}, Shows F as → 0x1010 ∉ as →
      F (colophonFails s) = F (setFlag u 0x1040 27 true) := fun h hn => by
    rw [he]
    exact (h.setFault _ 28).trans ((h.report _ _ _ _).trans (h.raise (p := .colophon) hn _ 2))
  refine ⟨?_, ?_, ?_, ?_⟩
  · exact (failed (F := State.startup) (shows_of_rfl fun _ _ _ _ _ => rfl) List.not_mem_nil).trans (by rw [setFlag_startup, hu])
  · exact (failed (F := State.clock) (shows_of_rfl fun _ _ _ _ _ => rfl) List.not_mem_nil).trans (by rw [setFlag_clock, hu])
  · exact (congrArg (bitAt · 27) (failed (shows_rd (a := 0x1040) (by decide) (by decide)) (by decide))).trans
      (flag_setFlag_same u 0x1040 27 true (by decide))
  · rw [he]
    exact flag_setFlag_same _ 0x2094 28 true (by decide)

end Sys2Proof.Machine
end

section
/-! Cold resets, slice resets and lost supplies (R410, R438), and the reset commands. -/

namespace Sys2Proof.Machine

theorem lifecycle_of_kept {s t : State} (h : lastingOf (settled t) = lastingOf (settled s)) :
    t.pending = s.pending ∧ t.colophon.lifecycle = s.colophon.lifecycle ∧ t.colophon.ownerDigest = s.colophon.ownerDigest := by
  simp only [lastingOf, settled, Prod.mk.injEq] at h
  exact ⟨h.1, h.2.1, h.2.2.1⟩

/-! ### Cold reset (R410) -/

/-- FAULT_N is released. -/
def faultReleased (s : State) : State := if bits (rd s 0x2094) 31 25 = 0 then s else emit s (.pin "FAULT_N" 0 true)

/-- The pins that a cold reset releases. -/
def coldPins (s : State) : State :=
  if (faultReleased s).pins.corePower then faultReleased s else emit (faultReleased s) (.pin "CORE_PWR_EN" 0 true)

theorem colophon_coldPins (s : State) : (coldPins s).colophon = s.colophon := by
  have released : (faultReleased s).colophon = s.colophon := view_ite (F := State.colophon) rfl rfl
  exact view_ite (F := State.colophon) released released

theorem coldReset_of_powered {s : State} (h : s.startup.aonUp = true) (cause : Nat) (seatB : Bool) :
    coldReset s cause seatB = sampleSeat (wr (coldWiped (coldPins s)) 0x2090 cause) seatB := if_neg (by simp [h])

/-- What a cold reset leaves. -/
theorem coldReset_wipes {s : State} (h : s.startup.aonUp = true) {cause : Nat} (hc : cause < 2 ^ 32) (seatB : Bool) :
    rd (coldReset s cause seatB) 0x2090 = cause ∧ flag (coldReset s cause seatB) 0x604C 24 = seatB ∧
      (coldReset s cause seatB).startup = { aonUp := true } ∧ (coldReset s cause seatB).queues = [] ∧
      (coldReset s cause seatB).colophon.lifecycle = s.colophon.lifecycle ∧
      (coldReset s cause seatB).colophon.antiRollback = s.colophon.antiRollback := by
  obtain ⟨-, hlifecycle, -⟩ := lifecycle_of_kept (kept_coldReset s cause seatB)
  have hrollback : (coldWiped (coldPins s)).colophon.antiRollback = s.colophon.antiRollback := by
    obtain ⟨-, -, -, hcolophon, -⟩ := leaveService_leaves (coldPins s) fun _ => false
    have hk : (coldWiped (coldPins s)).colophon = keptColophon (leaveService (coldPins s) fun _ => false).colophon := rfl
    rw [hk, hcolophon, colophon_coldPins]
    rfl
  refine ⟨?_, ?_, ?_, ?_, hlifecycle, ?_⟩ <;> rw [coldReset_of_powered h]
  · refine (rd_setFlag_other _ 24 seatB (by decide)).trans ?_
    exact (rd_wr_same (coldWiped (coldPins s)) 0x2090 cause).trans (Nat.mod_eq_of_lt hc)
  · exact flag_setFlag_same _ 0x604C 24 seatB (by decide)
  · rfl
  · rfl
  · exact hrollback

/-! ### Slice reset (R410) -/

/-- What a slice reset is not about. -/
def besideSlices (s : State) : Clock × Sparse Word32 × Seq × Colophon × Power := (s.clock, s.regsCur, s.seq, s.colophon, s.power)

theorem besideSlices_of_settled {s t : State} (h : settled t = settled s) : besideSlices t = besideSlices s := by
  simp only [settled, Prod.mk.injEq] at h
  obtain ⟨-, hcolophon, hclock, hregs, -, -, -, -, -, -, -, hpower, -, -, hseq⟩ := h
  rw [besideSlices, hclock, hregs, hseq, hcolophon, hpower]
  rfl

/-- A slice that switches is in the commit and its status alone. -/
theorem view_switchSlice {α : Type} {F : State → α} (hr : ∀ s r, F { s with regs := r } = F s) (hc : ∀ s c, F { s with commit := c } = F s)
    (s : State) (i : Nat) : F (switchSlice s i) = F s := by
  unfold switchSlice
  split
  · rfl
  · refine view_ite ?_ rfl
    obtain ⟨-, -, hframe⟩ := slicesSwitched_frame { s with commit := some { ‹Commit› with waiting := ‹Commit›.waiting.filter (· != i) } }
    rw [hframe]
    exact (hr _ _).trans (hc s _)

theorem slices_showSleep (s : State) (i : Nat) : (showSleep s i).slices = s.slices := by
  unfold showSleep
  split
  all_goals rfl

/-- The slice's ports are reset. -/
def portsReset (s : State) (i : Nat) : State := (slicePorts i).foldl resetPort s

theorem settled_portsReset (s : State) (i : Nat) : settled (portsReset s i) = settled s :=
  settled_foldl _ (fun u p => settled_resetPort u p) _ s

/-- The slice is idle anew, and its generators are seeded. -/
def sliceSeeded (s : State) (i : Nat) : State := seedSlice (showSleep (setSlice s i { idleSince := now s }) i) i

theorem sliceSeeded_seeds (s : State) (i : Nat) :
    (sliceAt (sliceSeeded s i) i).idleSince = now s ∧ besideSlices (sliceSeeded s i) = besideSlices s := by
  have hs : settled (showSleep (setSlice s i { idleSince := now s }) i) = settled s :=
    (settled_showSleep _ i).trans (settled_setSlice s i _)
  have hi : sliceAt (showSleep (setSlice s i { idleSince := now s }) i) i = { idleSince := now s } := by
    rw [sliceAt, slices_showSleep, ← sliceAt, sliceAt_setSlice_same]
  rw [sliceSeeded]
  generalize showSleep (setSlice s i { idleSince := now s }) i = u at hs hi
  refine ⟨?_, (rfl : besideSlices (seedSlice u i) = besideSlices u).trans (besideSlices_of_settled hs)⟩
  refine (congrArg SliceRt.idleSince (sliceAt_setSlice_same u i _)).trans ?_
  rw [hi]

theorem resetSlice_resets (s : State) (i : Nat) :
    (sliceAt (resetSlice s i) i).idleSince = now s ∧ besideSlices (resetSlice s i) = besideSlices s := by
  have he : resetSlice s i = switchSlice (sliceSeeded (portsReset s i) i) i := rfl
  have hports := besideSlices_of_settled (settled_portsReset s i)
  obtain ⟨hidle, hbeside⟩ := sliceSeeded_seeds (portsReset s i) i
  rw [he]
  refine ⟨?_, (view_switchSlice (F := besideSlices) (fun _ _ => rfl) (fun _ _ => rfl) _ i).trans (hbeside.trans hports)⟩
  refine (view_switchSlice (F := fun u => (sliceAt u i).idleSince) (fun _ _ => rfl) (fun _ _ => rfl) _ i).trans (hidle.trans ?_)
  exact congrArg (fun x => Clock.steady x.1) hports

/-! ### Lost supplies (R264, R438) -/

/-- The twin pins are high impedance once VDD_AON or VDD_IO is lost. -/
def pinsLost (s : State) (lost : Bool) : State :=
  let s := if lost && claims s then dropClaim (setFlag (setFlag s 0x604C 25 false) 0x6048 31 false) else s
  if lost then drivePresent s false else s

theorem startup_pinsLost (s : State) (lost : Bool) : (pinsLost s lost).startup = s.startup := by
  have dropped : (dropClaim (setFlag (setFlag s 0x604C 25 false) 0x6048 31 false)).startup = s.startup := by
    obtain ⟨hstartup, -⟩ := controllers_iff.mp
      (showsNoTraffic_controllers.dropClaim (fun _ _ _ => rfl) (setFlag (setFlag s 0x604C 25 false) 0x6048 31 false))
    exact hstartup
  have driven : ∀ u, (drivePresent u false).startup = u.startup := fun u => view_ite (F := State.startup) rfl rfl
  exact (view_ite (F := State.startup) (driven _) rfl).trans (view_ite (F := State.startup) dropped rfl)

theorem supplyLost_of_always {s : State} (h : s.startup.aonUp = true) : supplyLost s 0 = unpowered (pinsLost s true) :=
  if_neg (by simp [h])

/-- The core without its rails. -/
def railLost (u : State) : State :=
  { u with
    startup := { u.startup with railsUp := false, resetting := false, island := false }
    host := { inReset := u.host.inReset } }

theorem supplyLost_of_core {s : State} (h : s.startup.aonUp = true) {rail : Nat} (hr : rail ≠ 0) (hu : s.startup.railsUp = true) :
    supplyLost s rail = railLost (wr (leaveService (pinsLost s (rail = 0 || rail = 5)) standbyAddr) 0x2090 1) := by
  have he : supplyLost s rail = if !s.startup.aonUp then s
      else if rail = 0 then unpowered (pinsLost s (rail = 0 || rail = 5))
      else if (pinsLost s (rail = 0 || rail = 5)).startup.railsUp then
        railLost (wr (leaveService (pinsLost s (rail = 0 || rail = 5)) standbyAddr) 0x2090 1)
      else { pinsLost s (rail = 0 || rail = 5) with startup := { (pinsLost s (rail = 0 || rail = 5)).startup with island := false } } := rfl
  rw [he, if_neg (by simp [h]), if_neg hr, if_pos (by rw [startup_pinsLost, hu])]

/-! ### Warm resets (R411, R412) -/

theorem warmReset_of_resetting {s : State} (hr : s.startup.resetting = true) (hu : s.startup.railsUp = true)
    (hs : s.power.inStandby = false)
    (cause : Nat) (colophonOk bistOk : Bool) :
    warmReset s cause colophonOk bistOk = startSteps s colophonOk (if bistRuns s then some bistOk else none) := by
  unfold warmReset
  dsimp only
  rw [beginReset_of_down hs (.inl hr), ite_self, if_neg (by simp [coreRuns, hr, hu])]

theorem exec_sysResetN_of_short {s : State} {n : Nat} (h : s.startup.aonUp = true) (hl : 1000 ≤ n) (hn : n < 200000000) :
    exec (.sysResetN n) s = .next (if s.power.inStandby then leaveStandby s 9 else beginReset s 3) :=
  congrArg done ((if_neg (by simp [h]; omega)).trans (if_neg (by omega)))

/-- Settles O59: supplies, pins and requests power the device up and reset it as R406 to R413 and R438 say. -/
theorem powerUpsAndResets : Obligations.PowerUpsAndResets := by
  refine ⟨fun s seatB a ha => ?_, fun s seatB a ha => ?_, fun s ha hr hs => ?_, fun s bist ha hr hs => ?_, fun s n hn => ?_,
    fun s n ha hn => ?_,
    fun s n ha hl hn hs hc => ?_, fun s n ha hl hn hs => ?_, fun s c hr hu hs => ?_, fun s c bist hu hr hs hb => ?_,
    fun s c bist hu hr hs => ?_, fun s c seatB ha hc => ?_, fun s src i h => ?_, fun s ha => ?_, fun s r ha hr hu => ?_, fun s ha r => ?_⟩
  · obtain ⟨-, hlifecycle, hdigest⟩ := lifecycle_of_kept (kept_powerUp s seatB a)
    have he : ∃ u : State, powerUp s seatB a =
          emit (emit (sampleSeat u seatB) (.pin "TWIN_PRESENT_OUT_N" 0 false)) (.pin "CORE_PWR_EN" 0 true) ∧
        u.startup = { aonUp := true } ∧ u.pins = { present := true, corePower := true, i2cAddress := 0x58 + a.val } :=
      ⟨_, if_neg (by simp [ha]), rfl, rfl⟩
    refine ⟨_, rfl, ?_⟩
    obtain ⟨u, he, hstartup, hpins⟩ := he
    refine ⟨?_, ?_, ?_, ?_, ?_, hlifecycle, hdigest⟩ <;> rw [he]
    · exact congrArg Startup.aonUp hstartup
    · exact congrArg Startup.railsUp hstartup
    · exact flag_setFlag_same _ 0x604C 24 seatB (by decide)
    · exact congrArg Pins.corePower hpins
    · exact congrArg Pins.i2cAddress hpins
  · exact congrArg done (if_pos ha)
  · obtain ⟨hup, hstopped, hbist, hpresent, hhost, hstart, hrun⟩ := railsTimed_starts s
    obtain ⟨hstartup, hclock, hpins, -, -, h28, h78, hlink⟩ := startService_colophonStarted (railsTimed s)
    refine ⟨_, congrArg done ((railsInRange_of_down ha hr hs true true).trans (startSteps_of_good (by decide))), ?_, ?_, ?_, ?_, h28,
      fun hi => ?_,
      fun hi => ?_, fun hp => hlink (hhost ▸ hp)⟩
    · rw [hstartup, ← hup]
    · rw [hstartup]
    · rw [inService, hstartup, ← hstopped, ← hbist]
      simp [hup]
    · rw [hpins, hpresent]
    · obtain ⟨htime, hisland, hlock⟩ := hstart hi
      exact ⟨hclock.trans htime, by rw [hstartup]; exact hisland, h78.trans hlock⟩
    · exact hclock.trans (hrun hi)
  · obtain ⟨hup, -⟩ := railsTimed_starts s
    obtain ⟨hstartup, -, h27, h94⟩ := colophonFails_fails
      { railsTimed s with startup := { (railsTimed s).startup with resetting := false } }
    refine ⟨_, congrArg done ((railsInRange_of_down ha hr hs false bist).trans (startSteps_of_bad _ _)), ?_, ?_, ?_, h27, h94⟩
    · rw [hstartup]
      exact hup
    · rw [hstartup]
    · rw [inService, hstartup]
      simp
  · exact congrArg done (if_pos (.inl hn))
  · obtain ⟨hcause, hseat, hstartup, hqueues, hlifecycle, -⟩ := coldReset_wipes ha (cause := 2) (by decide) s.pins.seatB
    exact ⟨_, congrArg done ((if_neg (by simp [ha]; omega)).trans (if_pos hn)), rfl, hcause, hseat, hstartup, hqueues, hlifecycle⟩
  · obtain ⟨hu, hr⟩ := coreRuns_iff.mp hc
    obtain ⟨hstartup, hclock, ⟨hq, -, ht, -⟩, -⟩ := beginReset_begins hs hr hu 3
    obtain ⟨hpending, -⟩ := lifecycle_of_kept (kept_beginReset s 3)
    refine ⟨_, (exec_sysResetN_of_short ha hl hn).trans (congrArg done (if_neg (by simp [hs]))), rfl, ?_, ?_, hclock, hq, ht,
      hpending⟩ <;> rw [hstartup]
    · rfl
    · exact hu
  · obtain ⟨hcause, hpower, hpins, hstartup, -⟩ := leaveStandby_wakes hs (cause := 9) (by decide)
    exact ⟨_, (exec_sysResetN_of_short ha hl hn).trans (congrArg done (if_pos hs)), by rw [hpower]; rfl, hcause, by rw [hpins], hstartup⟩
  · obtain ⟨hstartup, hclock, ⟨hq, -, ht, -⟩, -⟩ := beginReset_begins hs hr hu c
    obtain ⟨-, hlifecycle, -⟩ := lifecycle_of_kept (kept_beginReset s c)
    exact ⟨by rw [hstartup]; rfl, hclock, hq, ht, hlifecycle⟩
  · obtain ⟨hstartup, hclock, -, hqueues, htabs, h28, -, hlink⟩ := startService_colophonStarted s
    have hgood : (if bistRuns s then some bist else none) ≠ some false := by
      rcases hb with hb | hb <;> simp [hb]
    exact ⟨_, congrArg done ((warmReset_of_resetting hr hu hs c true bist).trans (startSteps_of_good hgood)), rfl, hstartup, h28, hclock,
      hlink, hqueues, htabs⟩
  · obtain ⟨hstartup, hclock, h27, h94⟩ := colophonFails_fails { s with startup := { s.startup with resetting := false } }
    exact ⟨_, congrArg done ((warmReset_of_resetting hr hu hs c false bist).trans (startSteps_of_bad _ _)), by rw [hstartup], h27, h94,
      hclock⟩
  · obtain ⟨hcause, hseat, hstartup, hqueues, hlifecycle, hrollback⟩ := coldReset_wipes ha (cause := c) (by omega) seatB
    exact ⟨_, congrArg done (if_pos hc), hcause, hseat, hstartup, hqueues, hlifecycle, hrollback⟩
  · have hat := besideSlices_of_settled
      ((settled_wakeForPage (dropHeld s src (0x10004C + i.val * 0x20000)) (0x10004C + i.val * 0x20000)).trans
      (settled_dropHeld s src (0x10004C + i.val * 0x20000)))
    obtain ⟨hidle, hbeside⟩ := resetSlice_resets (atRegister s src (0x10004C + i.val * 0x20000)) i
    have hall := hbeside.trans hat
    simp only [besideSlices, Prod.mk.injEq] at hall
    obtain ⟨hclock, hregs, hseq, hcolophon, hpower⟩ := hall
    refine ⟨_, congrArg done (guarded_of_admitted h _), rfl, hidle.trans ?_, hclock, hregs, hseq, hcolophon, hpower⟩
    exact congrArg (fun x => Clock.steady x.1) hat
  · obtain ⟨-, hlifecycle, -⟩ := lifecycle_of_kept (kept_supplyLost s 0)
    have he := supplyLost_of_always ha
    have hu : exec (.supplyLoss 0) s = .next (unpowered (pinsLost s true)) := congrArg done he
    exact ⟨_, hu, rfl, rfl, rfl, he ▸ hlifecycle⟩
  · have he := supplyLost_of_core ha hr hu
    obtain ⟨hstartup, -⟩ := leaveService_leaves (pinsLost s (r.val = 0 || r.val = 5)) standbyAddr
    obtain ⟨hq, -, ht, -⟩ := coreEmpty_leaveService (pinsLost s (r.val = 0 || r.val = 5)) standbyAddr
    refine ⟨_, congrArg done he, rfl, rfl, ?_, rd_wr_same _ 0x2090 1, hq, ht⟩
    have hlost : (pinsLost s (r.val = 0 || r.val = 5)).startup.aonUp = s.startup.aonUp := by rw [startup_pinsLost]
    exact (congrArg Startup.aonUp hstartup).trans (hlost.trans ha)
  · exact congrArg done (if_pos (by simp [ha]))

end Sys2Proof.Machine
end

section
/-! Keys, owner and debug (R390 to R392, R400, R401): zeroisation, enrolment, debug tokens and the error state. -/

namespace Sys2Proof.Machine

theorem atRegister_colophon {a : Nat} (ha : a / 0x1000 = 1) (s : State) (src : Source) : atRegister s src a = dropHeld s src a :=
  atRegister_eq s src a fun i k h => by
    have hp : pageAt a = some .colophon := by
      unfold pageAt
      rw [if_pos (by omega), ha]
      rfl
    simp [hp] at h

theorem guarded_colophon {s : State} {src : Source} {a : Nat} (ha : a / 0x1000 = 1) (h : Admitted s src a) (act : State → State) :
    guarded s src a act = act (dropHeld s src a) := by
  rw [guarded_of_admitted h, atRegister_colophon ha]

/-! ### Zeroisation (R391) -/

/-- What zeroisation is not about: clocks, the applied configuration, the sequencer and firmware. -/
def besideKeys (s : State) : Clock × Sparse Word32 × Seq × Firmware := (s.clock, s.regsCur, s.seq, s.firmware)

theorem besideKeys_iff {s t : State} : besideKeys t = besideKeys s ↔
    t.clock = s.clock ∧ t.regsCur = s.regsCur ∧ t.seq = s.seq ∧ t.firmware = s.firmware := by
  simp only [besideKeys, Prod.mk.injEq]

theorem settled_discardAll (s : State) : settled (discardAll s) = settled s := settled_foldl _ (fun u c => settled_forceDiscard u c) _ s

theorem besideKeys_discardAll (s : State) : besideKeys (discardAll s) = besideKeys s ∧ (discardAll s).colophon = s.colophon := by
  obtain ⟨-, hfirmware, -⟩ := controllers_iff.mp (showsNoTraffic_controllers.discardAll s)
  have h := settled_discardAll s
  simp only [settled, Prod.mk.injEq] at h
  obtain ⟨-, hcolophon, hclock, hregs, -, -, -, -, -, -, -, -, -, -, hseq⟩ := h
  exact ⟨besideKeys_iff.mpr ⟨hclock, hregs, hseq, hfirmware⟩, hcolophon⟩

theorem besideKeys_zeroiseKeys (s : State) : besideKeys (zeroiseKeys s) = besideKeys s ∧
    (zeroiseKeys s).spill = { s.spill with keyDrawn := false } := by
  have hb : ShowsNoLink besideKeys := showsNoLink_of_rfl fun _ _ _ _ _ _ _ _ => rfl
  have hs : ShowsNoLink State.spill := showsNoLink_of_rfl fun _ _ _ _ _ _ _ _ => rfl
  refine ⟨view_ite (F := besideKeys) (hb.kettleRestart _ 0) rfl, ?_⟩
  have hz : (zeroiseKeys s).spill = { s with spill := { s.spill with keyDrawn := false } }.spill :=
    view_ite (F := State.spill) (hs.kettleRestart _ 0) rfl
  exact hz

/-- The keys are gone and their source is seeded anew. -/
def keysSeeded (s : State) : State :=
  { zeroiseKeys (discardAll s) with colophon := { (zeroiseKeys (discardAll s)).colophon with seeded := true } }

theorem zeroise_of_good {s : State} (h : colophonError s = false) : zeroise s = raise (drawSpillKey (keysSeeded s)) .colophon 1 :=
  if_neg (by simp [h])

/-- A new spill key. -/
theorem drawSpillKey_of_none {s : State} (h : s.spill.keyDrawn = false) : besideKeys (drawSpillKey s) = besideKeys s ∧
    (drawSpillKey s).colophon = { s.colophon with spillKey := true } ∧ (drawSpillKey s).spill.keyDrawn = true := by
  rw [drawSpillKey, if_neg (by simp [h])]
  exact ⟨rfl, rfl, rfl⟩

theorem zeroise_zeroises {s : State} (h : colophonError s = false) : besideKeys (zeroise s) = besideKeys s ∧
    (zeroise s).colophon = { s.colophon with spillKey := true, seeded := true } ∧ (zeroise s).spill.keyDrawn = true ∧
    flag (zeroise s) 0x1010 1 = true := by
  obtain ⟨hdiscard, hcolophon⟩ := besideKeys_discardAll s
  obtain ⟨hkeys, hspill⟩ := besideKeys_zeroiseKeys (discardAll s)
  have hkept := colophon_zeroiseKeys (discardAll s)
  obtain ⟨hbeside, hdrawn, hkey⟩ := drawSpillKey_of_none (s := keysSeeded s) (congrArg Spill.keyDrawn hspill)
  rw [zeroise_of_good h]
  refine ⟨hbeside.trans (hkeys.trans hdiscard), ?_, hkey, ?_⟩
  · refine hdrawn.trans ?_
    rw [keysSeeded, hkept, hcolophon]
  · exact (flag_raise _ .colophon 1 0x1010 1 (by decide)).trans (if_pos (by decide))

/-! ### Owner enrolment (R392) -/

/-- The status of an enrolment. -/
def enrolStatus (v : Nat) (s : State) : State := setFld s 0x104C 30 28 v

theorem enrolStatus_shows (s : State) {v : Nat} (hv : v < 8) :
    fld (enrolStatus v s) 0x104C 30 28 = v ∧ RegsBut [0x104C] s (enrolStatus v s) :=
  ⟨(fld_setFld_same s 0x104C 30 28 v (by decide) (by decide)).trans (Nat.mod_eq_of_lt hv), RegsBut.wr (fun _ _ => rfl) (by simp) _⟩

/-- OWNER_ENROL may write OTP. -/
abbrev EnrolOpen (s : State) : Prop :=
  colophonError s = false ∧ (s.colophon.lifecycle = 1 ∨ s.colophon.lifecycle = 2) ∧ s.colophon.ownerDigest = none ∧
    s.colophon.ownerSpent = false

theorem enrol_of_open {s : State} (h : EnrolOpen s) (otpOk : Bool) (digest : List Word32) : enrol s true otpOk digest =
    if !otpOk then enrolStatus 3 { s with colophon := { s.colophon with ownerSpent := true } }
    else raise (enrolStatus 0 { s with colophon := { s.colophon with ownerDigest := some digest } }) .colophon 0 := by
  obtain ⟨he, hl, hd, hs⟩ := h
  refine (if_neg (by simp [he])).trans ((if_neg ?_).trans (if_neg (by decide)))
  simp only [hd, hs]
  rintro (h | h | h)
  · exact hl.elim h.1 h.2
  · exact absurd h (by decide)
  · exact absurd h (by decide)

theorem enrol_of_enrolled {s : State} (he : colophonError s = false) (hd : s.colophon.ownerDigest.isSome = true) (onCurve otpOk : Bool)
    (digest : List Word32) : enrol s onCurve otpOk digest = enrolStatus 1 s :=
  (if_neg (by simp [he])).trans (if_pos (.inr (.inl hd)))

theorem exec_ownerEnrol {s : State} {src : Source} {d : List Word32} (hl : d.length = 12) (h : Admitted s src 0x104C)
    (onCurve otpOk : Bool) :
    exec (.ownerEnrol src onCurve otpOk d) s = .next (enrol (dropHeld s src 0x104C) onCurve otpOk d) := by
  rw [← guarded_colophon rfl h fun s => enrol s onCurve otpOk d]
  exact congrArg (fun b => sized b _) (beq_iff_eq.mpr hl)

/-! ### Debug tokens (R400, R401) -/

/-- The token is read. -/
def tokenRead (s : State) : State := emit s (.hostRead (rd s 0x1074 * 2 ^ 32 + rd s 0x1070) 276)

/-- The status of a token. -/
def tokenStatus (v : Nat) (s : State) : State := setFld s 0x1078 29 28 v

theorem tokenStatus_shows (s : State) {v : Nat} (hv : v < 4) :
    fld (tokenStatus v s) 0x1078 29 28 = v ∧ RegsBut [0x1078] s (tokenStatus v s) :=
  ⟨(fld_setFld_same s 0x1078 29 28 v (by decide) (by decide)).trans (Nat.mod_eq_of_lt hv), RegsBut.wr (fun _ _ => rfl) (by simp) _⟩

/-- The nonce that the device holds. -/
def ownNonce (s : State) : List Nat := (List.range 3).map fun n => rd s (0x1060 + n * 4)

/-- The token is one that R401 accepts: read, authentic and by a signer in force. -/
def tokenGood (s : State) (image : ImageCheck) : Bool := image.readOk && image.authentic && signerGood s image.signer

/-- Debug is open by token. -/
def debugOpened (s : State) : State :=
  raise (tokenStatus 0 { zeroise s with colophon := { (zeroise s).colophon with debugByToken := true } }) .colophon 3

theorem debugToken_eq {s : State} (he : colophonError s = false) (ho : debugOpen s = false) (image : ImageCheck) (serial : BitVec 64)
    (nonce : List Word32) : debugToken s image serial nonce = drawNonce
      (if !tokenGood (tokenRead s) image then tokenStatus 1 (tokenRead s)
      else if serial ≠ (tokenRead s).colophon.serial ∨ nonce.map (·.toNat) ≠ ownNonce (tokenRead s) then tokenStatus 2 (tokenRead s)
      else debugOpened (tokenRead s)) :=
  (if_neg (by simp [he])).trans (if_neg (by simp [ho]))

/-- A new nonce is in its three registers. -/
theorem drawNonce_draws (s : State) : RegsBut [0x1060, 0x1064, 0x1068] s (drawNonce s) ∧ (drawNonce s).colophon = s.colophon ∧
    (drawNonce s).freeCount = s.freeCount + 1 ∧ (drawNonce s).clock = s.clock ∧ (drawNonce s).seq = s.seq := by
  have words : ∀ {α : Type} {F : State → α}, (∀ u n v, n < 3 → F (wr u (0x1060 + n * 4) v) = F u) → F (drawNonce s) = F (drawn s) :=
    fun hw => by
      unfold drawNonce
      exact view_foldl_mem (fun u n hn => hw u n _ (List.mem_range.mp hn)) _
  refine ⟨fun a ha => ?_, ?_, ?_, ?_, ?_⟩
  · refine words (F := fun u => rd u a) fun u n v hn => rd_wr_other u v fun e => ha ?_
    subst e
    interval_cases n <;> simp
  · exact words (F := State.colophon) fun _ _ _ _ => rfl
  · exact words (F := State.freeCount) fun _ _ _ _ => rfl
  · exact words (F := State.clock) fun _ _ _ _ => rfl
  · exact words (F := State.seq) fun _ _ _ _ => rfl

/-- A token that is refused shows its status, and the nonce is drawn anew. -/
theorem tokenRefused_shows (s : State) {v : Nat} (hv : v < 4) :
    fld (drawNonce (tokenStatus v (tokenRead s))) 0x1078 29 28 = v ∧ (drawNonce (tokenStatus v (tokenRead s))).colophon = s.colophon ∧
      (drawNonce (tokenStatus v (tokenRead s))).freeCount = s.freeCount + 1 ∧
      RegsBut [0x1060, 0x1064, 0x1068, 0x1078] s (drawNonce (tokenStatus v (tokenRead s))) := by
  obtain ⟨hregs, hcolophon, hfree, -⟩ := drawNonce_draws (tokenStatus v (tokenRead s))
  obtain ⟨hstatus, hbut⟩ := tokenStatus_shows (tokenRead s) hv
  refine ⟨(congrArg (bits · 29 28) (hregs 0x1078 (by simp))).trans hstatus, hcolophon, hfree, fun a ha => ?_⟩
  simp only [List.mem_cons, List.not_mem_nil, or_false, not_or] at ha
  exact (hregs a (by simp; omega)).trans ((hbut a (by simp; omega)).trans rfl)

/-- Debug opened by token: the keys are zeroised with it. -/
theorem debugOpened_opens {s : State} (h : colophonError s = false) :
    (drawNonce (debugOpened s)).colophon = { s.colophon with spillKey := true, seeded := true, debugByToken := true } ∧
      fld (drawNonce (debugOpened s)) 0x1078 29 28 = 0 ∧ flag (drawNonce (debugOpened s)) 0x1010 3 = true ∧
      (drawNonce (debugOpened s)).clock = s.clock ∧ (drawNonce (debugOpened s)).seq = s.seq := by
  obtain ⟨hregs, hcolophon, -, hclock, hseq⟩ := drawNonce_draws (debugOpened s)
  obtain ⟨hbeside, hkeys, -⟩ := zeroise_zeroises h
  obtain ⟨htime, -, hsequencer, -⟩ := besideKeys_iff.mp hbeside
  refine ⟨hcolophon.trans ?_, (congrArg (bits · 29 28) (hregs 0x1078 (by simp))).trans ?_,
    (congrArg (bitAt · 3) (hregs 0x1010 (by simp))).trans ?_,
    hclock.trans htime, hseq.trans hsequencer⟩
  · have he : (debugOpened s).colophon = { (zeroise s).colophon with debugByToken := true } := rfl
    rw [he, hkeys]
  · exact (fld_raise_other _ .colophon 3 29 28 (by decide)).trans (tokenStatus_shows _ (by decide)).1
  · exact (flag_raise _ .colophon 3 0x1010 3 (by decide)).trans (if_pos (by decide))

theorem exec_debugToken {s : State} {src : Source} {n : List Word32} (hl : n.length = 3) (h : Admitted s src 0x1078) (image : ImageCheck)
    (serial : BitVec 64) : exec (.debugToken src image serial n) s = .next (debugToken (dropHeld s src 0x1078) image serial n) := by
  rw [← guarded_colophon rfl h fun s => debugToken s image serial n]
  exact congrArg (fun b => sized b _) (beq_iff_eq.mpr hl)

/-! ### The error state (R390) -/

/-- Colophon has failed, and spilled data and Kettle go. -/
def entropyFailed (s : State) : State := discardAll (raise (setFlag s 0x1040 27 true) .colophon 2)

theorem entropyFailure_of_good {s u : State} (hu : u = entropyFailed s) (he : colophonError s = false) (hr : s.startup.railsUp = true)
    (hn : s.startup.resetting = false) :
    entropyFailure s = deviceFatal (if kettleState u = 0 then u else kettleLeave u 0 0) 0x0801 28 .colophon [] := by
  subst hu
  exact if_neg (by simp [he, hr, hn])

theorem controllers_entropyFailed (s : State) : controllers (entropyFailed s) = controllers s :=
  (showsNoTraffic_controllers.discardAll _).trans ((showsNoTraffic_controllers.raise _ 2 (by decide)).trans
    (showsNoTraffic_controllers.setFlag s 27 true (by decide)))

/-- Settles O56: keys are zeroised, an owner is enrolled once, and debug opens for a good token alone. -/
theorem keysOwnerAndDebug : Obligations.KeysOwnerAndDebug := by
  refine ⟨fun s src h he => ?_, fun s src h he => ?_, fun s src d hl h he hc hd hs => ?_, fun s src d hl h he hc hd hs => ?_,
    fun s src onCurve ok d hl h he hd => ?_, fun s src image serial n hl h he ho hg => ?_, fun s src image serial n hl h he ho hg hm => ?_,
    fun s src image serial n hl h he ho hg hser hn => ?_, fun s src image serial n hl h he ho => ?_, fun s src h => ?_,
    fun s he hr hn u hu => ?_, fun s he => ?_⟩
  · have hz := zeroise_of_good (s := dropHeld s src 0x1050) he
    obtain ⟨hbeside, hcolophon, hkey, hflag⟩ := zeroise_zeroises (s := dropHeld s src 0x1050) he
    obtain ⟨hclock, hregs, hseq, hfirmware⟩ := besideKeys_iff.mp hbeside
    refine ⟨_, congrArg done (guarded_colophon rfl h zeroise), ?_, hcolophon, hkey, hflag, hclock, hregs, hseq, hfirmware⟩
    rw [hz, atRegister_colophon rfl]
    rfl
  · exact ⟨dropHeld s src 0x1050, congrArg done ((guarded_colophon rfl h zeroise).trans (if_pos he)), rfl⟩
  · have ho : EnrolOpen (dropHeld s src 0x104C) := ⟨he, hc, hd, hs⟩
    obtain ⟨hfld, -⟩ := enrolStatus_shows (v := 0)
      { dropHeld s src 0x104C with colophon := { s.colophon with ownerDigest := some d } } (by decide)
    refine ⟨_, (exec_ownerEnrol hl h true true).trans (congrArg done (enrol_of_open ho true d)), rfl, ?_, ?_, ?_⟩
    · exact (fld_raise_other _ .colophon 0 30 28 (by decide)).trans hfld
    · exact (flag_raise _ .colophon 0 0x1010 0 (by decide)).trans (if_pos (by decide))
    · exact (RegsBut.trans ((RegsBut.wr (fun _ _ => rfl) (by simp) _)) (RegsBut.of_regs_eq _ rfl)).raise (p := .colophon) (by decide) 0
  · have ho : EnrolOpen (dropHeld s src 0x104C) := ⟨he, hc, hd, hs⟩
    obtain ⟨hfld, hregs⟩ :=
      enrolStatus_shows { dropHeld s src 0x104C with colophon := { s.colophon with ownerSpent := true } } (v := 3) (by decide)
    exact ⟨_, (exec_ownerEnrol hl h true false).trans (congrArg done (enrol_of_open ho false d)), rfl, hfld, hregs⟩
  · obtain ⟨hfld, hregs⟩ := enrolStatus_shows (dropHeld s src 0x104C) (v := 1) (by decide)
    exact ⟨_, (exec_ownerEnrol hl h onCurve ok).trans (congrArg done (enrol_of_enrolled (s := dropHeld s src 0x104C) he hd onCurve ok d)),
      rfl,
      hfld, hregs⟩
  · have hd := debugToken_eq (s := dropHeld s src 0x1078) he ho image serial n
    have hg' : tokenGood (tokenRead (dropHeld s src 0x1078)) image = false := hg
    rw [hg', if_pos (by decide)] at hd
    obtain ⟨hfld, hcolophon, hfree, hregs⟩ := tokenRefused_shows (dropHeld s src 0x1078) (v := 1) (by decide)
    refine ⟨_, (exec_debugToken hl h image serial).trans (congrArg done hd), ?_, hfld, hcolophon, hfree, hregs⟩
    rw [atRegister_colophon rfl]
    rfl
  · have hd := debugToken_eq (s := dropHeld s src 0x1078) he ho image serial n
    have hg' : tokenGood (tokenRead (dropHeld s src 0x1078)) image = true := hg
    have hm' : serial ≠ (tokenRead (dropHeld s src 0x1078)).colophon.serial ∨
        n.map (·.toNat) ≠ ownNonce (tokenRead (dropHeld s src 0x1078)) := hm
    rw [hg', if_neg (by decide), if_pos hm'] at hd
    obtain ⟨hfld, hcolophon, hfree, hregs⟩ := tokenRefused_shows (dropHeld s src 0x1078) (v := 2) (by decide)
    exact ⟨_, (exec_debugToken hl h image serial).trans (congrArg done hd), hfld, hcolophon, hfree, hregs⟩
  · have hd := debugToken_eq (s := dropHeld s src 0x1078) he ho image serial n
    have hg' : tokenGood (tokenRead (dropHeld s src 0x1078)) image = true := hg
    have hm' : ¬(serial ≠ (tokenRead (dropHeld s src 0x1078)).colophon.serial ∨
        n.map (·.toNat) ≠ ownNonce (tokenRead (dropHeld s src 0x1078))) := not_or.mpr ⟨not_not.mpr hser, not_not.mpr hn⟩
    rw [hg', if_neg (by decide), if_neg hm'] at hd
    obtain ⟨hcolophon, hfld, hflag, hclock, hseq⟩ := debugOpened_opens (s := tokenRead (dropHeld s src 0x1078)) he
    refine ⟨_, (exec_debugToken hl h image serial).trans (congrArg done hd), ?_, ?_, hcolophon, hfld, hflag, hclock, hseq⟩
    · rw [hcolophon]
    · rw [debugOpen, hcolophon]
      exact Bool.or_true _
  · obtain ⟨hfld, hregs⟩ := tokenStatus_shows (dropHeld s src 0x1078) (v := 3) (by decide)
    have hd : debugToken (dropHeld s src 0x1078) image serial n = tokenStatus 3 (dropHeld s src 0x1078) :=
      (if_neg (Bool.eq_false_iff.mp he)).trans (if_pos ho)
    exact ⟨_, (exec_debugToken hl h image serial).trans (congrArg done hd), hfld, rfl, hregs⟩
  · exact ⟨_, congrArg done (guarded_colophon rfl h closeDebug), rfl, rfl⟩
  · obtain ⟨⟨hclock, hseq, hstartup, hcolophon, hfirmware⟩, haction⟩ :=
      deviceFatal_leaves (if kettleState u = 0 then u else kettleLeave u 0 0) 0x0801 28 .colophon
    have hu' : controllers (if kettleState u = 0 then u else kettleLeave u 0 0) = controllers s :=
      (view_ite rfl (showsNoTraffic_controllers.kettleLeave u 0 0)).trans (hu ▸ controllers_entropyFailed s)
    obtain ⟨kstartup, kfirmware, kclock, -, kseq, kcolophon, -⟩ := controllers_iff.mp hu'
    exact ⟨_, congrArg done (entropyFailure_of_good hu he hr hn), rfl, hclock.trans kclock, hcolophon.trans kcolophon, hseq.trans kseq,
      hfirmware.trans kfirmware, hstartup.trans kstartup, haction⟩
  · exact congrArg done (if_pos (.inl he))

end Sys2Proof.Machine
end

section
/-! Counters (R303, R304, R311 to R315): snapshots, the dump engine, and narrow counters at their top. -/

namespace Sys2Proof.Machine

/-! ### Narrow counters (R303, R304) -/

/-- A correctable error is in no register. -/
theorem report_regs_of_correctable {code : Nat} (h : errClass code = 0) (s : State) (p : Page) (detail : List Nat) :
    (report s code p detail).regs = s.regs := by
  simp only [report, reportAs, h, apply_ite State.regs, count_regs, ite_self, (by decide : ¬ 3 ≤ 0), if_false]

theorem saturate_regs (s : State) (a : Nat) : (saturate s a).regs = (raise (setFlag s a 31 true) .counters 4).regs :=
  report_regs_of_correctable (by decide) _ _ _

/-- The counter at its top. -/
def toppedOut (s : State) (a : Nat) : State := setFld s a 15 0 0xFFFF

theorem narrowAdd_of_room {s : State} {a n : Nat} (h : fld s a 15 0 + n < 0xFFFF) :
    narrowAdd s a n = setFld s a 15 0 (fld s a 15 0 + n) := if_pos h

theorem narrowAdd_of_top {s : State} {a n : Nat} (h : 0xFFFF ≤ fld s a 15 0 + n) :
    narrowAdd s a n = if flag s a 31 then toppedOut s a else saturate (toppedOut s a) a := if_neg (by omega)

theorem fld_toppedOut (s : State) (a : Nat) : fld (toppedOut s a) a 15 0 = 0xFFFF := fld_setFld_same s a 15 0 0xFFFF (by decide) (by decide)

/-- Reaching the top shows it, and raises its cause. -/
theorem saturate_shows {s : State} {a : Nat} (ha : a ≠ 0xD010) :
    fld (saturate (toppedOut s a) a) a 15 0 = 0xFFFF ∧ flag (saturate (toppedOut s a) a) a 31 = true ∧
      flag (saturate (toppedOut s a) a) 0xD010 4 = true := by
  have hrd := fun b => rd_of_regs_eq (saturate_regs (toppedOut s a) a) b
  have hraised := rd_raise_other (setFlag (toppedOut s a) a 31 true) .counters 4 ha
  refine ⟨?_, ?_, ?_⟩
  · rw [fld, hrd, hraised, ← fld, fld_setFlag_other _ _ _ _ _ _ _ (by decide) (.inr (.inl (by decide)))]
    exact fld_toppedOut s a
  · rw [flag, hrd, hraised, ← flag, flag_setFlag_same _ _ _ _ (by decide)]
  · rw [flag, hrd, ← flag]
    exact (flag_raise _ .counters 4 0xD010 4 (by decide)).trans (if_pos (by decide))

/-! ### Snapshots (R311) -/

/-- What a list of words holds at each index. -/
theorem sget_sset_range (f : Nat → Nat) (n i : Nat) :
    sget zeroNat ((List.range n).foldl (fun m i => sset zeroNat m i (f i)) []) i = if i < n then f i else 0 := by
  induction n with
  | zero => rfl
  | succ n ih =>
    rw [List.range_succ, List.foldl_append, List.foldl_cons, List.foldl_nil, sget_sset, ih]
    by_cases hi : i = n
    · subst hi
      simp
    · rw [if_neg hi]
      exact if_congr (by omega) rfl rfl

/-- The wide counters as a snapshot holds them. -/
def heldWide (s : State) : Sparse Nat := (List.range 3965).foldl (fun m i => sset zeroNat m i (counter s i)) []

theorem sget_heldWide (s : State) {i : Nat} (hi : i < 3965) : sget zeroNat (heldWide s) i = counter s i := by
  rw [heldWide, sget_sset_range, if_pos hi]

/-- The counters held. -/
def countersHeld (s : State) (wide : Sparse Nat) : State :=
  { s with counters := { s.counters with holdWide := wide, holdWord := skeep hasCount s.regs } }

/-- The time of a snapshot is shown. -/
def snapshotTimed (s : State) : State := wr (wr (wr s 0xD048 (cycleNo s)) 0xD04C (devSub s)) 0xD050 (devSec s)

theorem rd_snapshotTimed (s : State) : rd (snapshotTimed s) 0xD048 = cycleNo s ∧ rd (snapshotTimed s) 0xD04C = devSub s ∧
    rd (snapshotTimed s) 0xD050 = devSec s ∧ RegsBut [0xD048, 0xD04C, 0xD050, 0xD010] s (snapshotTimed s) := by
  have hsub : devSub s < 2 ^ 32 := Nat.lt_trans (Nat.mod_lt _ (by decide)) (by decide)
  refine ⟨?_, ?_, ?_, ?_⟩
  · rw [snapshotTimed, rd_wr_other _ _ (by decide), rd_wr_other _ _ (by decide), rd_wr_same]
    exact Nat.mod_mod _ _
  · rw [snapshotTimed, rd_wr_other _ _ (by decide), rd_wr_same]
    exact Nat.mod_eq_of_lt hsub
  · rw [snapshotTimed, rd_wr_same]
    exact Nat.mod_mod _ _
  · exact (((RegsBut.wr (fun _ _ => rfl) (by simp) _).wr (by simp) _).wr (by simp) _)

theorem snapshot_eq (s : State) : snapshot s = raise (snapshotTimed (countersHeld s (heldWide s))) .counters 6 := rfl

/-- The snapshot beside what it holds. -/
theorem exists_countersHeld (s : State) (wide : Sparse Nat) : ∃ u, u = countersHeld s wide ∧ u.regs = s.regs ∧ u.clock = s.clock ∧
    u.counters.holdWide = wide := ⟨_, rfl, rfl, rfl, rfl⟩

/-- A snapshot holds the counters and shows the time. -/
theorem snapshot_holds (s : State) : rd (snapshot s) 0xD048 = cycleNo s ∧ rd (snapshot s) 0xD04C = devSub s ∧
    rd (snapshot s) 0xD050 = devSec s ∧ flag (snapshot s) 0xD010 6 = true ∧ RegsBut [0xD048, 0xD04C, 0xD050, 0xD010] s (snapshot s) ∧
    ∀ i, i < 3965 → sget zeroNat (snapshot s).counters.holdWide i = counter s i := by
  obtain ⟨u, hu, hr, hc, hw⟩ := exists_countersHeld s (heldWide s)
  have he : snapshot s = raise (snapshotTimed u) .counters 6 := by rw [hu, snapshot_eq]
  obtain ⟨hcycle, hsub, hsec, hregs⟩ := rd_snapshotTimed u
  have hcounters : (raise (snapshotTimed u) .counters 6).counters = u.counters := rfl
  have hraised := fun {b : Nat} (hb : b ≠ 0xD010) => rd_raise_other (snapshotTimed u) .counters 6 (b := b) hb
  have hns : devNs u = devNs s := by rw [devNs, hc, devNs]
  rw [cycleNo, hns] at hcycle
  rw [devSub, hns] at hsub
  rw [devSec, hns] at hsec
  rw [he]
  refine ⟨(hraised (by decide)).trans hcycle, (hraised (by decide)).trans hsub, (hraised (by decide)).trans hsec, ?_, ?_, fun i hi => ?_⟩
  · exact (flag_raise _ .counters 6 0xD010 6 (by decide)).trans (if_pos (by decide))
  · exact (RegsBut.trans hregs (RegsBut.of_regs_eq _ hr)).raise (p := .counters) (by decide) 6
  · rw [hcounters, hw, sget_heldWide s hi]

/-! ### The dump engine (R312 to R315) -/

/-- A counter is read and its delta folded. -/
def folded (s : State) (i : Nat) : State :=
  { s with counters := { s.counters with
      wide := sset zeroNat s.counters.wide i (counter s i)
      delta := sset zeroNat s.counters.delta i 0
      written := sset zeroNat s.counters.written i 0 } }

/-- The record gathered so far has room for the counter. -/
def fitsRecord (d : Dump) (i : Nat) : Bool :=
  match d.gathered.getLast? with
  | none => true
  | some (j, _) => sameRecord j i && d.gathered.length < 6

theorem dumpRead_of_due {s : State} {d : Dump} {i : Nat} (hd : s.counters.dump = some d) (ht : d.due ≤ s.clock.coreTenths)
    (hn : nextCovered s d.sets 5000 d.next = some i) {r : Dump × State}
    (hr : r = if fitsRecord d i then (d, folded s i) else flushGathered (folded s i) d) :
    dumpRead s = setDump r.2 (some { r.1 with
      next := i + 1, gathered := r.1.gathered ++ [(i, sget zeroNat s.counters.wide i)], due := r.1.due + 40 }) := by
  subst hr
  have hi : (if s.clock.coreTenths < d.due then none else nextCovered s d.sets 5000 d.next) = some i :=
    (if_neg (Nat.not_lt.mpr ht)).trans hn
  unfold dumpRead
  split
  next he => simp [hd] at he
  next e he =>
    obtain rfl := Option.some.inj (hd.symm.trans he)
    split
    next hj => simp [hi] at hj
    next j hj =>
      obtain rfl := Option.some.inj (hi.symm.trans hj)
      rfl

theorem dump_setDump (s : State) (d : Option Dump) : (setDump s d).counters = { s.counters with dump := d } := rfl

/-- DUMP_STATUS follows the engine. -/
theorem setDump_shows (s : State) (d : Dump) : fld (setDump s (some d)) 0xD058 18 0 = d.next % 2 ^ 19 ∧
    flag (setDump s (some d)) 0xD058 31 = true ∧ RegsBut [0xD058] s (setDump s (some d)) := by
  have hlow : d.next % 2 ^ 19 < 2 ^ 19 := Nat.mod_lt _ (by decide)
  have he : setDump s (some d) = wr { s with counters := { s.counters with dump := some d } } 0xD058 (2 ^ 31 + d.next % 2 ^ 19) := rfl
  have hrd : rd (setDump s (some d)) 0xD058 = 2 ^ 31 + d.next % 2 ^ 19 := by
    rw [he, rd_wr_same]
    exact Nat.mod_eq_of_lt (by omega)
  refine ⟨?_, ?_, RegsBut.wr (fun _ _ => rfl) (by simp) _⟩
  · rw [fld, hrd, bits_zero_eq_mod]
    omega
  · rw [flag, hrd, bitAt_testBit, Nat.testBit_two_pow_add_eq, Nat.testBit_lt_two_pow (Nat.lt_of_lt_of_le hlow (by decide))]
    rfl

theorem sequence_count (s : State) (i n : Nat) : (count s i n).counters.sequence = s.counters.sequence := by
  unfold count
  split
  · rfl
  · split
    · rfl
    · rfl

/-- A dump record is lost. -/
def recordLost (s : State) : State := raise (count s 287 1) .counters 2

theorem stored_recordLost (s : State) : stored (recordLost s) = stored s :=
  (shows_stored.raise (p := .counters) List.not_mem_nil _ 2).trans (shows_stored.count s 287 1)

theorem sequence_recordLost (s : State) : (recordLost s).counters.sequence = s.counters.sequence := by
  rw [recordLost, raise_counters, sequence_count]

theorem sequence_eventWrite (s : State) (e : Nat) (ws : List Nat) : (eventWrite s e ws).counters.sequence = s.counters.sequence := by
  rw [eq_of_besideRing (besideRing_eventWrite s e ws)]

theorem stored_eventWrite (s : State) (e : Nat) (ws : List Nat) : stored (eventWrite s e ws) = stored s := by
  rw [stored_iff, eq_of_besideRing (besideRing_eventWrite s e ws)]
  exact ⟨rfl, rfl⟩

theorem dumpRecord_of_room {s : State} (h : eventRoom s 3 64 = true) (ws : List Nat) : dumpRecord s ws = (true, eventWrite s 3 ws) :=
  if_pos h

theorem dumpRecord_of_full {s : State} (h : eventRoom s 3 64 = false) (ws : List Nat) : dumpRecord s ws = (false, recordLost s) :=
  if_neg (by simp [h])

/-- A dump record is written or lost, and is no work of the slices. -/
theorem dumpRecord_leaves (s : State) (ws : List Nat) : (dumpRecord s ws).1 = eventRoom s 3 64 ∧ stored (dumpRecord s ws).2 = stored s ∧
    (dumpRecord s ws).2.counters.sequence = s.counters.sequence := by
  cases hr : eventRoom s 3 64 with
  | false =>
    rw [dumpRecord_of_full hr]
    exact ⟨rfl, stored_recordLost s, sequence_recordLost s⟩
  | true =>
    rw [dumpRecord_of_room hr]
    exact ⟨rfl, stored_eventWrite s 3 ws, sequence_eventWrite s 3 ws⟩

/-- The record gathered so far goes out. -/
theorem flushGathered_flushes {s : State} {d : Dump} (h : d.gathered ≠ []) :
    (flushGathered s d).1 = { d with gathered := [], records := d.records + 1, lost := d.lost + bit (!eventRoom s 3 64) } ∧
      stored (flushGathered s d).2 = stored s := by
  obtain ⟨⟨first, v⟩, l, hg⟩ := List.exists_cons_of_ne_nil h
  unfold flushGathered
  split
  next he => exact absurd he h
  next first v l he =>
    obtain ⟨hroom, hstored, -⟩ := dumpRecord_leaves s ([1 * 2 ^ 28 + d.gathered.length * 2 ^ 25 + first, d.cycle, d.ns, d.sec] ++
      (d.gathered.flatMap fun e => [e.2 % 2 ^ 32, e.2 / 2 ^ 32]) ++
      List.replicate (12 - (d.gathered.flatMap fun e => [e.2 % 2 ^ 32, e.2 / 2 ^ 32]).length) 0)
    exact ⟨by rw [← hroom], hstored⟩

theorem sequence_flushGathered (s : State) (d : Dump) : (flushGathered s d).2.counters.sequence = s.counters.sequence := by
  unfold flushGathered
  split
  · rfl
  · exact (dumpRecord_leaves s _).2.2

/-- A dump without covered counters left ends. -/
theorem dumpEnd_of_done {s : State} {d : Dump} (hd : s.counters.dump = some d) (hn : nextCovered s d.sets 5000 d.next = none) :
    ∃ u : State, u.counters.sequence = (s.counters.sequence + 1) % 2 ^ 32 ∧ dumpEnd s = raise (setDump u none) .counters 0 := by
  unfold dumpEnd
  split
  next he => simp [hd] at he
  next e he =>
    obtain rfl := Option.some.inj (hd.symm.trans he)
    split
    next j hj => simp [hn] at hj
    next =>
      refine ⟨_, ?_, rfl⟩
      exact congrArg (fun n => (n + 1) % 2 ^ 32) ((dumpRecord_leaves _ _).2.2.trans (sequence_flushGathered s d))

/-- Settles O39: a snapshot holds counters and time, the dump engine reads one at a time and ends, and narrow counters stop at their top. -/
theorem countersAreHeldDumpedAndStopped : Obligations.CountersAreHeldDumpedAndStopped := by
  refine ⟨fun s src h => ?_, fun s d hd ht => ?_, fun s d i hd ht hn hg => ?_, fun s d i j v hd ht hn hg hf => ?_, fun s d hd hn => ?_,
    fun s a ha hf => ?_, fun s a ha => ?_, fun s a n ha => ⟨?_, fun hl => ?_, fun hl => ?_⟩⟩
  · have he : guarded s src 0xD040 snapshot = snapshot (dropHeld s src 0xD040) := by
      rw [guarded_of_admitted h, atRegister_eq s src 0xD040 fun _ _ e => nomatch e]
    exact ⟨_, congrArg done he, snapshot_holds (dropHeld s src 0xD040)⟩
  · refine congrArg done ?_
    unfold dumpRead
    simp only [hd, if_pos ht]
  · have hr : ((d, folded s i) : Dump × State) = if fitsRecord d i then (d, folded s i) else flushGathered (folded s i) d := by
      rw [fitsRecord, hg]
      rfl
    have he := dumpRead_of_due hd ht hn hr
    rw [hg] at he
    obtain ⟨hnext, hruns, hregs⟩ := setDump_shows (folded s i)
      { d with next := i + 1, gathered := [(i, sget zeroNat s.counters.wide i)], due := d.due + 40 }
    exact ⟨_, congrArg done he, sget_sset_same _ _ _ _, sget_sset_same _ _ _ _, rfl, hnext, hruns, hregs⟩
  · have hfits : fitsRecord d i = false := by
      rw [fitsRecord, hg]
      rcases hf with hf | hf
      · simp [hf]
      · simp [Nat.not_lt.mpr hf]
    have hne : d.gathered ≠ [] := fun e => by simp [e] at hg
    obtain ⟨hdump, hstored⟩ := flushGathered_flushes (s := folded s i) hne
    obtain ⟨hframes, hqueues⟩ := stored_iff.mp hstored
    have he := dumpRead_of_due hd ht hn (r := flushGathered (folded s i) d) (by rw [hfits]; rfl)
    refine ⟨_, congrArg done he, (congrArg settled he).symm.trans (settled_dumpRead s), hframes, hqueues, ?_⟩
    rw [dump_setDump, hdump]
    rfl
  · obtain ⟨u, hseq, he⟩ := dumpEnd_of_done hd hn
    refine ⟨_, congrArg done he, rfl, ?_, ?_, hseq⟩
    · refine (congrArg (bitAt · 31) (rd_raise_other _ .counters 0 (by decide))).trans ?_
      exact congrArg (bitAt · 31) (rd_wr_same _ 0xD058 0)
    · exact (flag_raise _ .counters 0 0xD010 0 (by decide)).trans (if_pos (by decide))
  · have hne : a ≠ 0xD010 := fun e => by
      subst e
      revert ha
      decide +kernel
    have hlt : fld s a 15 0 < 2 ^ 16 := Nat.mod_lt _ (by decide)
    have he := (narrowAdd_of_top (s := s) (a := a) (n := 0xFFFF - fld s a 15 0) (by omega)).trans (if_neg (by simp [hf]))
    obtain ⟨hfld, hflag, hcause⟩ := saturate_shows (s := s) hne
    refine ⟨_, congrArg done ((if_pos ha).trans he), ?_, hfld, hflag, hcause⟩
    rw [← he]
    exact settled_narrowAdd s a _
  · exact congrArg done (if_neg ha)
  · rcases Nat.lt_or_ge (fld s a 15 0 + n) 0xFFFF with hl | hl
    · rw [narrowAdd_of_room hl, fld_setFld_same _ _ _ _ _ (by decide) (by decide), Nat.min_eq_right (Nat.le_of_lt hl)]
      exact Nat.mod_eq_of_lt (by omega)
    · rw [narrowAdd_of_top hl, Nat.min_eq_left hl]
      split
      · exact fld_toppedOut s a
      · exact (saturate_shows ha).1
  · rw [narrowAdd_of_room hl, flag_setFld _ _ _ _ _ _ _ (by decide) (by decide), if_neg (by omega)]
  · rw [narrowAdd_of_top hl]
    split
    case isTrue hf => exact (flag_setFld s a 15 0 0xFFFF a 31 (by decide) (by decide)).trans ((if_neg (by omega)).trans hf)
    case isFalse => exact (saturate_shows ha).2.1

end Sys2Proof.Machine
end

section
/-! Observers (R317, R324, R327, R328, R429): what PF1 reads, and how capture and trace records leave. -/

namespace Sys2Proof.Machine

/-! ### PF1 (R317, R429) -/

/-- A denied read is counted, raised and reported. -/
theorem pf1Denied_reports (s : State) (offset : Nat) : flag (pf1Denied s offset) 0xD010 5 = true ∧ (pf1Denied s offset).tabs = s.tabs := by
  have h := shows_of_rfl (F := State.tabs) fun _ _ _ _ _ => rfl
  refine ⟨?_, (h.report _ _ _ _).trans ((h.raise (p := .counters) List.not_mem_nil _ 5).trans (h.tally List.not_mem_nil s))⟩
  refine (flag_of_regs_eq (report_regs_of_correctable (code := 0x0A03) (by decide) _ _ _) 0xD010 5).trans ?_
  exact (flag_raise _ .counters 5 0xD010 5 (by decide)).trans (if_pos (by decide))

/-- The counter under an aligned offset of the aperture. -/
def apertureCounter (s : State) (offset : Nat) : Nat := counter s (65536 * fld s 0xD064 2 0 + (offset - 0x80000) / 8)

theorem pf1Read_of_aperture {s : State} {o : Nat} (h : o < 2 ^ 20) (ha : 0x80000 ≤ o) (h8 : o % 8 = 0)
    (hp : pf1Allowed s (o / 4096) = true) :
    pf1Read s o = (apertureCounter s o % 2 ^ 32, setLatched s .pf1 (o + 4) (apertureCounter s o / 2 ^ 32 + 1)) := by
  rw [pf1Read, if_neg (by simp [hp]; omega), if_neg (by omega), if_pos ha, readAperture, if_pos h8]
  rfl

/-! ### Rings in host memory (R342) -/

/-- A record leaves before whatever follows it. -/
theorem take_out_eventWrite (s : State) (e : Nat) (ws : List Nat) :
    (eventWrite s e ws).out.take (s.out.length + 1) = s.out ++ [.record e ws] := by
  have h := List.prefix_iff_eq_take.mp (out_eventWrite s e ws)
  rw [List.length_append] at h
  exact h.symm

theorem eventWrite_besides (s : State) (e : Nat) (ws : List Nat) : (eventWrite s e ws).captures = s.captures ∧
    (eventWrite s e ws).traces = s.traces ∧ (eventWrite s e ws).tabs = s.tabs := by
  rw [eq_of_besideRing (besideRing_eventWrite s e ws)]
  exact ⟨rfl, rfl, rfl⟩

/-- A counted record in its ring. -/
theorem recordWritten_writes (s : State) (i e : Nat) (ws : List Nat) :
    (eventWrite (count s i 1) e ws).out.take (s.out.length + 1) = s.out ++ [.record e ws] ∧
      (eventWrite (count s i 1) e ws).captures = s.captures ∧ (eventWrite (count s i 1) e ws).traces = s.traces ∧
      (eventWrite (count s i 1) e ws).tabs = s.tabs := by
  have hout := take_out_eventWrite (count s i 1) e ws
  have hbeside := eventWrite_besides (count s i 1) e ws
  rw [count_frame s i 1] at hout hbeside ⊢
  exact ⟨hout, hbeside⟩

/-! ### Rings in spill memory (R325) -/

section
variable {α : Type} {F : State → α} (ht : ∀ s x, F { s with tabs := x } = F s)
include ht

theorem view_ringBytes (s : State) (t size at_ : Nat) (bs : List Byte) : F (ringBytes s t size at_ bs) = F s := by
  induction bs generalizing s at_ with
  | nil => rfl
  | cons b bs ih => exact (ih _ _).trans (ht s _)

/-- A record in spill memory is in the ring's table, the counters and what has left the block. -/
theorem view_ringStore (hc : ∀ s x, F { s with counters := x } = F s) (ho : ∀ s x, F { s with out := x } = F s) (s : State)
    (t c base size at_ : Nat) (bs : List Byte) : F (ringStore s t c base size at_ bs) = F s :=
  (view_foldl (fun u _ => ho u _) _ _).trans ((view_count hc _ _ _).trans (view_ringBytes ht s t size at_ bs))

end

/-- A counted record in spill memory, and the head of its ring at `a`. -/
def ringStored (s : State) (i t c base size head a n : Nat) (bs : List Byte) : State :=
  wr (ringStore (count s i 1) t c base size (head % size) bs) a ((head + n) % size)

theorem ringStored_stores (s : State) (i t c base size head a n : Nat) (bs : List Byte) :
    rd (ringStored s i t c base size head a n bs) a = (head + n) % size % 2 ^ 32 ∧
      RegsBut [a] s (ringStored s i t c base size head a n bs) ∧
      (ringStored s i t c base size head a n bs).queues = s.queues ∧ (ringStored s i t c base size head a n bs).captures = s.captures ∧
      (ringStored s i t c base size head a n bs).traces = s.traces := by
  have stored : ∀ {α : Type} {F : State → α}, (∀ s x, F { s with tabs := x } = F s) → (∀ s x, F { s with counters := x } = F s) →
      (∀ s x, F { s with out := x } = F s) → F (ringStore (count s i 1) t c base size (head % size) bs) = F s :=
    fun ht hc ho => (view_ringStore ht hc ho _ _ _ _ _ _ _).trans (view_count hc s i 1)
  refine ⟨rd_wr_same _ _ _, ?_, ?_, ?_, ?_⟩
  · exact (RegsBut.of_regs_eq _ (stored (F := State.regs) (fun _ _ => rfl) (fun _ _ => rfl) fun _ _ => rfl)).wr (by simp) _
  · exact stored (F := State.queues) (fun _ _ => rfl) (fun _ _ => rfl) fun _ _ => rfl
  · exact stored (F := State.captures) (fun _ _ => rfl) (fun _ _ => rfl) fun _ _ => rfl
  · exact stored (F := State.traces) (fun _ _ => rfl) (fun _ _ => rfl) fun _ _ => rfl

/-! ### Lost records (R324, R328) -/

/-- A record that finds no room. -/
theorem lost_leaves (s : State) (i : Nat) (p : Page) : flag (raise (count s i 1) p 0) (p.at_ 0x10) 0 = true ∧
    RegsBut [p.at_ 0x10] s (raise (count s i 1) p 0) ∧
    raise (count s i 1) p 0 = { s with regs := (raise (count s i 1) p 0).regs, counters := (raise (count s i 1) p 0).counters,
                                       out := (raise (count s i 1) p 0).out } := by
  refine ⟨(flag_raise _ p 0 _ 0 (by decide)).trans (if_pos ⟨rfl, rfl⟩), ?_, ?_⟩
  · exact (RegsBut.of_regs_eq _ (count_regs s i 1)).raise (by simp) 0
  · rw [count_frame s i 1]
    rfl

/-! ### The oldest record (R324, R327) -/

section
variable {s : State} {r : List Byte} {rest : List (List Byte)} (h : s.captures = r :: rest)
include h

theorem captureWrite_of_host (hh : flag s 0xE440 31 = false) : captureWrite s =
    if eventRoom s 1 r.length then eventWrite (count { s with captures := rest } 576 1) 1 (wordsOf r)
    else raise (count { s with captures := rest } 577 1) .mirror 0 := by
  rw [captureWrite, h]
  exact if_pos (congrArg (!·) hh)

theorem captureWrite_of_spill (hh : flag s 0xE440 31 = true)
    (ho : spillRingOpen s (flag s 0xE440 30) (fld s 0xE440 27 26) (fld s 0xE444 25 0 * 4096) = true) :
    captureWrite s = ringStored { s with captures := rest } 576 0x18 (fld s 0xE440 27 26) (fld s 0xE440 25 0) (fld s 0xE444 25 0 * 4096)
      (rd s 0xE448) 0xE448 r.length r := by
  rw [captureWrite, h]
  exact (if_neg (Bool.eq_false_iff.mp (congrArg (!·) hh))).trans (if_pos ho)

end

section
variable {s : State} {r : List Nat} {rest : List (List Nat)} (h : s.traces = r :: rest)
include h

theorem traceWrite_of_host (hh : flag s 0xF040 30 = false) : traceWrite s =
    if eventRoom s 2 64 then eventWrite (count { s with traces := rest } 578 1) 2 r
    else raise (count { s with traces := rest } 579 1) .tracer 0 := by
  rw [traceWrite, h]
  exact if_pos (congrArg (!·) hh)

theorem traceWrite_of_spill (hh : flag s 0xF040 30 = true)
    (ho : spillRingOpen s (flag s 0xF040 29) (fld s 0xF040 21 20) (fld s 0xF048 25 0 * 4096) = true) :
    traceWrite s = ringStored { s with traces := rest } 578 0x19 (fld s 0xF040 21 20) (fld s 0xF044 25 0) (fld s 0xF048 25 0 * 4096)
      (rd s 0xF04C) 0xF04C 64 (r.flatMap (leBytes 4)) := by
  rw [traceWrite, h]
  exact (if_neg (Bool.eq_false_iff.mp (congrArg (!·) hh))).trans (if_pos ho)

end

/-- Settles O40: PF1 reads what its mask allows, and capture and trace records leave in order or are counted lost. -/
theorem observersSeeWhatTheyMay : Obligations.ObserversSeeWhatTheyMay := by
  refine ⟨fun s o hp => ?_, fun s o hl ha h8 hp => ?_, fun s r rest h hh hr => ?_, fun s r rest h hh hr => ?_, fun s r rest h hh ho => ?_,
    fun s r rest h hh hr => ?_, fun s r rest h hh hr => ?_, fun s r rest h hh ho => ?_, fun s h => ?_, fun s h => ?_⟩
  · have he : pf1Read s o = (0, pf1Denied s o) := if_pos (.inr (by simp [hp]))
    obtain ⟨hflag, htabs⟩ := pf1Denied_reports s o
    refine ⟨_, congrArg (fun x : Nat × State => done (emit x.2 (.value .pf1 o x.1))) he, List.getLast?_concat, hflag, htabs⟩
  · have he := pf1Read_of_aperture hl ha h8 hp
    exact ⟨_, congrArg (fun x : Nat × State => done (emit x.2 (.value .pf1 o x.1))) he, rfl, rfl, sget_sset_same _ _ _ _⟩
  · have he := (captureWrite_of_host h hh).trans (if_pos hr)
    obtain ⟨hout, hcaptures, htraces, htabs⟩ := recordWritten_writes { s with captures := rest } 576 1 (wordsOf r)
    exact ⟨_, congrArg done he, (congrArg settled he).symm.trans (settled_captureWrite s), rfl, hcaptures, hout, htraces, htabs⟩
  · have he := (captureWrite_of_host h hh).trans (if_neg (by simp [hr]))
    obtain ⟨hflag, hregs, hframe⟩ := lost_leaves { s with captures := rest } 577 .mirror
    refine ⟨_, congrArg done he, (congrArg settled he).symm.trans (settled_captureWrite s), ?_, hflag, hregs, hframe⟩
    rw [hframe]
  · have he := captureWrite_of_spill h hh ho
    obtain ⟨hhead, hregs, hqueues, hcaptures, -⟩ := ringStored_stores
      { s with captures := rest } 576 0x18 (fld s 0xE440 27 26) (fld s 0xE440 25 0)
      (fld s 0xE444 25 0 * 4096) (rd s 0xE448) 0xE448 r.length r
    exact ⟨_, congrArg done he, (congrArg settled he).symm.trans (settled_captureWrite s), hcaptures, hhead, hregs, hqueues⟩
  · have he := (traceWrite_of_host h hh).trans (if_pos hr)
    obtain ⟨hout, hcaptures, htraces, htabs⟩ := recordWritten_writes { s with traces := rest } 578 2 r
    exact ⟨_, congrArg done he, (congrArg settled he).symm.trans (settled_traceWrite s), rfl, htraces, hout, hcaptures, htabs⟩
  · have he := (traceWrite_of_host h hh).trans (if_neg (by simp [hr]))
    obtain ⟨hflag, hregs, hframe⟩ := lost_leaves { s with traces := rest } 579 .tracer
    refine ⟨_, congrArg done he, (congrArg settled he).symm.trans (settled_traceWrite s), ?_, hflag, hregs, hframe⟩
    rw [hframe]
  · have he := traceWrite_of_spill h hh ho
    obtain ⟨hhead, hregs, hqueues, -, htraces⟩ := ringStored_stores
      { s with traces := rest } 578 0x19 (fld s 0xF040 21 20) (fld s 0xF044 25 0)
      (fld s 0xF048 25 0 * 4096) (rd s 0xF04C) 0xF04C 64 (r.flatMap (leBytes 4))
    exact ⟨_, congrArg done he, (congrArg settled he).symm.trans (settled_traceWrite s), htraces, hhead, hregs, hqueues⟩
  · refine congrArg done ?_
    rw [captureWrite, h]
  · refine congrArg done ?_
    rw [traceWrite, h]

end Sys2Proof.Machine
end

section
/-! Register commands and completions (R345 to R347): what reads of registers leave alone, and how a flush's walk completes. -/

namespace Sys2Proof.Machine

/-! ### What reads and messages leave alone -/

/-- What no read of a register and no message of firmware changes: tables, queues, frames, clocks, the applied words, the flushes and the
sequencer. -/
def workings (s : State) : Sparse Image × Sparse Queue × Sparse Frame × Clock × Sparse Word32 × List FlushJob × Seq :=
  (s.tabs, s.queues, s.frames, s.clock, s.regsCur, s.fdb.flushes, s.seq)

theorem workings_iff {s t : State} : workings t = workings s ↔ t.tabs = s.tabs ∧ t.queues = s.queues ∧ t.frames = s.frames ∧
    t.clock = s.clock ∧ t.regsCur = s.regsCur ∧ t.fdb.flushes = s.fdb.flushes ∧ t.seq = s.seq := by
  simp only [workings, Prod.mk.injEq]

theorem showsNoKettle_workings : ShowsNoKettle workings := ⟨fun _ _ => rfl, fun _ _ => rfl⟩

theorem workings_wr (s : State) (a v : Nat) : workings (wr s a v) = workings s := rfl

theorem workings_channelMark (s : State) (c k : Nat) : workings (channelMark s c k) = workings s := view_ite (F := workings) rfl rfl

theorem workings_setReceiverDown (s : State) (c : Nat) : workings (setReceiverDown s c) = workings s :=
  (workings_channelMark _ _ _).trans rfl

theorem workings_postMessage (s : State) (c : Nat) (words : List Nat) : workings (postMessage s c words) = workings s := by
  have sent := fun u type sub cp l => showsNoKettle_workings.kettleSend u type sub cp l
  refine (view_ite (F := workings) ?_ (view_ite (workings_setReceiverDown _ _) rfl)).trans (view_ite (F := workings) rfl rfl)
  exact (sent _ _ _ _ _).trans (sent _ _ _ _ _)

/-- A response, on any channel. -/
theorem workings_respond (s : State) (c : FwCommand) (result detail : Nat) (results : List Nat) :
    workings (respond s c result detail results) = workings s := by
  have go : ∀ u k, workings (channelGo u k) = workings u := fun u k => view_ite (workings_channelMark _ _ _) (workings_postMessage _ _ _)
  exact (go _ _).trans ((view_foldl (fun u _ => workings_wr u _ _) _ _).trans rfl)

theorem workings_of_besideRing {s t : State} (h : besideRing t = besideRing s) : workings t = workings s := (congrArg workings h :)

/-! ### Reads (R27, R30, R352, R428) -/

theorem workings_accessFault (s : State) (src : Source) (a cause : Nat) : workings (accessFault s src a cause) = workings s :=
  view_ite (F := workings) rfl rfl

theorem workings_wakeSlice (s : State) (i : Nat) : workings (wakeSlice s i) = workings s :=
  view_wakeSlice (view_count fun _ _ => rfl) (fun _ _ => rfl) s i

theorem workings_emptySlot (s : State) (c : Nat) : workings (emptySlot s c) = workings s := rfl

theorem workings_channelTake (s : State) (c : Nat) : workings (channelTake s c).2 = workings s := by
  unfold channelTake
  split
  · rfl
  · refine (view_ite (F := workings) (showsNoKettle_workings.kettleSend _ _ _ _ _) rfl).trans ((workings_emptySlot _ _).trans ?_)
    exact view_foldl (F := workings) (fun u _ => workings_wr u _ _) _ s

theorem workings_readPlain (s : State) (src : Source) (p : Page) (a : Nat) : workings (readPlain s src p a).2 = workings s := by
  unfold readPlain
  split
  · rfl
  · unfold readHi
    dsimp only
    split <;> rfl
  · exact view_ite (F := workings) rfl rfl

theorem workings_dramRead (s : State) (src : Source) : workings (dramRead s src).2 = workings s := by
  unfold dramRead
  split
  · rfl
  · exact (rfl : workings (dramNext _) = workings _).trans (workings_accessFault s src _ _)

theorem workings_tevPop (s : State) (src : Source) (n : Nat) : workings (tevPop s src n).2 = workings s := by
  unfold tevPop
  dsimp only
  split <;> rfl

theorem workings_readRegister (s : State) (src : Source) (p : Page) (a : Nat) : workings (readRegister s src p a).2 = workings s := by
  have plain := workings_readPlain s src p a
  unfold readRegister
  split
  · split
    · split
      · exact workings_channelTake _ _
      · exact workings_readPlain _ _ _ _
    · exact workings_readPlain _ _ _ _
  · split
    · exact workings_dramRead _ _
    · exact workings_readPlain _ _ _ _
  · split
    · exact workings_tevPop _ _ _
    · exact workings_readPlain _ _ _ _
  · exact workings_readPlain _ _ _ _

theorem workings_readMapped (s : State) (src : Source) (a : Nat) : workings (readMapped s src a).2 = workings s := by
  unfold readMapped
  split
  · split
    · rfl
    · split
      · exact workings_accessFault _ _ _ _
      · exact (workings_readRegister _ _ _ _).trans (view_wakeForPage (F := workings) (fun _ _ => rfl) (fun _ _ => rfl) s a)
  · exact workings_accessFault _ _ _ _

theorem workings_readWindow (s : State) (src : Source) (a : Nat) (w : Window) (e off : Nat) :
    workings (readWindow s src a w e off).2 = workings s := by
  have woken : workings (wakeTable (dropWindow s src) w.table e 1) = workings s :=
    view_foldl (F := workings) (fun u k => view_ite (workings_wakeSlice u k) rfl) _ (dropWindow s src)
  unfold readWindow
  split
  · exact workings_accessFault _ _ _ _
  · dsimp only
    split
    · exact woken
    · split
      · rfl
      · exact woken

/-- A read of BAR_0. -/
theorem workings_readAt (s : State) (src : Source) (a : Nat) : workings (readAt s src a).2 = workings s := by
  unfold readAt
  split
  · exact workings_accessFault _ _ _ _
  · split
    · exact workings_readWindow _ _ _ _ _ _
    · exact workings_readMapped _ _ _

theorem workings_readWords (s : State) (first n : Nat) : workings (readWords s first n).2 = workings s := by
  induction n with
  | zero => rfl
  | succ n ih => exact (workings_readAt _ _ _).trans ih

/-! ### The walk of a flush completes (R106, R107) -/

/-- The walk's last slots, and the walker is free. -/
def walkEnded (s : State) (j : FlushJob) : State := flushEnds (flushWalk s j 524288).2

theorem walkEnded_ends {s : State} {j : FlushJob} {rest : List FlushJob} (h : s.fdb.flushes = j :: rest) :
    (walkEnded s j).fdb.flushes = rest ∧ (walkEnded s j).clock = s.clock ∧ (walkEnded s j).queues = s.queues ∧
      (walkEnded s j).frames = s.frames ∧ ∀ e ∈ (walkEnded s j).tabs, e ∈ s.tabs := by
  have hf : (flushEnds (flushWalk s j 524288).2).fdb.flushes = s.fdb.flushes.drop 1 := by
    unfold flushEnds
    dsimp only
    split <;> rfl
  refine ⟨hf.trans (by rw [h]; rfl), rfl, rfl, rfl, fun e he => ?_⟩
  exact List.mem_of_mem_filter (he : e ∈ s.tabs.filter _)

/-- A walk that has visited every slot removes nothing more. -/
theorem flushWalk_of_done {s : State} {j : FlushJob} (h : j.slot = 524288) : (flushWalk s j 524288).2 = s ∧
    (flushWalk s j 524288).1.removed = j.removed := by
  have none_goes : ∀ e : Nat × Image, (e.1 / 2 ^ 20 == 2 && j.slot ≤ e.1 % 2 ^ 20 && e.1 % 2 ^ 20 < 524288 &&
      flushMatches j.filter j.value j.static e.2.toNat) = false := fun e => by
    simp [h]
  constructor
  · have hk : s.tabs.filter (fun e => !(e.1 / 2 ^ 20 == 2 && j.slot ≤ e.1 % 2 ^ 20 && e.1 % 2 ^ 20 < 524288 &&
        flushMatches j.filter j.value j.static e.2.toNat)) = s.tabs := List.filter_eq_self.mpr fun e _ => by rw [none_goes e]; rfl
    exact congrArg (fun x => { s with tabs := x }) hk
  · have hk : s.tabs.filter (fun e => e.1 / 2 ^ 20 == 2 && j.slot ≤ e.1 % 2 ^ 20 && e.1 % 2 ^ 20 < 524288 &&
        flushMatches j.filter j.value j.static e.2.toNat) = [] := List.filter_eq_nil_iff.mpr fun e _ => by rw [none_goes e]; decide
    exact congrArg (fun l : List (Nat × Image) => j.removed + l.length) hk

/-- What a walk's end answers: its completion record, or the response of its command. -/
def walkAnswered (s : State) (j : FlushJob) (removed : Nat) : State :=
  match j.tag, j.channel with
  | some tag, _ => complete s 7 0 tag removed removed
  | none, some k => (match commandOf s k with | some c => respond s c 0 0 [removed] | none => s)
  | none, none => s

theorem flushWalkDone_of_cons {s : State} {j : FlushJob} {rest : List FlushJob} (h : s.fdb.flushes = j :: rest) :
    flushWalkDone s = walkAnswered (walkEnded s j) j (flushWalk s j 524288).1.removed := by
  unfold flushWalkDone
  split
  next he => simp [h] at he
  next e l he =>
    obtain ⟨rfl, -⟩ := List.cons.inj (h.symm.trans he)
    unfold walkAnswered
    rfl

theorem workings_complete (s : State) (op st tag r d : Nat) : workings (complete s op st tag r d) = workings s :=
  workings_of_besideRing (besideRing_complete s op st tag r d)

theorem workings_walkAnswered (s : State) (j : FlushJob) (removed : Nat) : workings (walkAnswered s j removed) = workings s := by
  unfold walkAnswered
  split
  · exact workings_complete _ _ _ _ _ _
  · split
    · exact workings_respond _ _ _ _ _
    · rfl
  · rfl

/-! ### Register commands (R345) -/

theorem exec_regWrite (s : State) (tag i : Nat) (v : Word32) : exec (.regWrite tag i v) s =
    done (tableCommand s 9 tag fun u => if 2 ^ 26 ≤ i then refuses 8 u else ((0, 0, 1), busWrite u .dma i 4 v.toNat true)) := rfl

/-- A write at an address that is no word's is a fault (R27). -/
theorem busWrite_of_misaligned {a : Nat} (h : a % 4 ≠ 0) (s : State) (src : Source) (v : Nat) (parityOk : Bool) :
    busWrite s src a 4 v parityOk = accessFault s src a 1 :=
  (if_neg (by decide)).trans (if_pos h)

/-- Settles O44: register commands act, a flush's walk answers at its end, and a completion waits for room. -/
theorem registerCommandsAndCompletions : Obligations.RegisterCommandsAndCompletions := by
  refine ⟨fun s h tag i n a hr hh hi => ?_, fun s h tag i v hr hh hi => ?_, fun s h tag i v hr hh hi h4 => ?_,
    fun s h tag i v hr hh hi => ?_,
    fun s j rest tag hj ht hs => ?_, fun s j rest k c hj ht hk hc hs => ?_, fun s j rest hj => ?_, fun s hj => ?_, fun s c rest hc hr => ?_,
    fun s c rest hc hr => ?_, fun s hc => ?_⟩
  · have hact : (if 2 ^ 26 < i + 4 * countOf n then refuses 8 h else if !true then dmaRefuses (readWords h i (countOf n)).2
        else ((0, 0, countOf n), emit (readWords h i (countOf n)).2 (.hostWrite a ((readWords h i (countOf n)).1.flatMap (leBytes 4))))) =
          _ :=
      (if_neg (by omega)).trans (if_neg (by decide))
    have hread : workings (emit (readWords h i (countOf n)).2 (.hostWrite a ((readWords h i (countOf n)).1.flatMap (leBytes 4)))) =
        workings h :=
      workings_readWords h i (countOf n)
    obtain ⟨htabs, hqueues, hframes, hclock, hregs, -⟩ := workings_iff.mp
      ((workings_complete _ 8 0 tag 0 (countOf n)).trans (hread.trans (workings_of_besideRing (besideRing_taken hh))))
    exact ⟨_, done_of_taken hr hh hact, rfl, htabs, hqueues, hframes, hclock, hregs⟩
  · have hact : (if 2 ^ 26 ≤ i then refuses 8 h else ((0, 0, 1), busWrite h .dma i 4 v.toNat true)) = _ := if_neg (by omega)
    exact ⟨_, (exec_regWrite s tag i v).trans (done_of_taken hr hh hact), rfl⟩
  · have hact : (if 2 ^ 26 ≤ i then refuses 8 h else ((0, 0, 1), busWrite h .dma i 4 v.toNat true)) =
        ((0, 0, 1), accessFault h .dma i 1) := by
      rw [if_neg (by omega), busWrite_of_misaligned h4]
    obtain ⟨htabs, hqueues, -, hclock, hregs, -⟩ := workings_iff.mp
      ((workings_complete _ 9 0 tag 0 1).trans ((workings_accessFault h .dma i 1).trans (workings_of_besideRing (besideRing_taken hh))))
    exact ⟨_, (exec_regWrite s tag i v).trans (done_of_taken hr hh hact), rfl, htabs, hqueues, hclock, hregs⟩
  · have hact : (if 2 ^ 26 ≤ i then refuses 8 h else ((0, 0, 1), busWrite h .dma i 4 v.toNat true)) = ((8, 0, 0), h) := if_pos hi
    exact ⟨_, (exec_regWrite s tag i v).trans (done_of_taken hr hh hact), rfl,
      eq_of_besideRing ((besideRing_complete h 9 8 tag 0 0).trans (besideRing_taken hh))⟩
  · obtain ⟨hwalk, hremoved⟩ := flushWalk_of_done (s := s) hs
    obtain ⟨hflushes, -, hqueues, -, -⟩ := walkEnded_ends hj
    have he : flushWalkDone s = complete (flushEnds s) 7 0 tag j.removed j.removed := by
      rw [flushWalkDone_of_cons hj, walkAnswered, ht, walkEnded, hwalk, hremoved]
    obtain ⟨ktabs, kqueues, -, -, -, kflushes, -⟩ := workings_iff.mp (workings_complete (flushEnds s) 7 0 tag j.removed j.removed)
    rw [walkEnded, hwalk] at hflushes
    exact ⟨_, congrArg done he, rfl, kflushes.trans hflushes, ktabs, kqueues⟩
  · obtain ⟨hwalk, hremoved⟩ := flushWalk_of_done (s := s) hs
    obtain ⟨hflushes, -⟩ := walkEnded_ends hj
    rw [walkEnded, hwalk] at hflushes
    have hcommand : commandOf (flushEnds s) k = some c := hc
    have he : flushWalkDone s = respond (flushEnds s) c 0 0 [j.removed] := by
      rw [flushWalkDone_of_cons hj, walkAnswered, ht, hk, walkEnded, hwalk, hremoved]
      simp only [hcommand]
    obtain ⟨ktabs, -, -, -, -, kflushes, -⟩ := workings_iff.mp (workings_respond (flushEnds s) c 0 0 [j.removed])
    exact ⟨_, congrArg done he, rfl, kflushes.trans hflushes, ktabs⟩
  · obtain ⟨hflushes, hclock, hqueues, hframes, htabs⟩ := walkEnded_ends hj
    obtain ⟨ktabs, kqueues, kframes, kclock, -, kflushes, -⟩ := workings_iff.mp
      (workings_walkAnswered (walkEnded s j) j (flushWalk s j 524288).1.removed)
    refine ⟨_, congrArg done (flushWalkDone_of_cons hj), kflushes.trans hflushes, kclock.trans hclock, kqueues.trans hqueues,
      kframes.trans hframes, ?_⟩
    rw [ktabs]
    exact htabs
  · refine congrArg done ?_
    rw [flushWalkDone, hj]
  · have he : exec .tableCompletion s = .next (writeCompletion { s with host := { s.host with completions := rest } } c) := by
      have hx : exec .tableCompletion s = execTableCompletion s := rfl
      rw [hx, execTableCompletion, hc]
      exact congrArg done (if_pos hr)
    have hout := out_writeCompletion { s with host := { s.host with completions := rest } } c
    obtain ⟨htabs, hqueues, -⟩ := workings_iff.mp
      (workings_of_besideRing (besideRing_writeCompletion { s with host := { s.host with completions := rest } } c))
    exact ⟨_, he, settled_writeCompletion _ c, completions_writeCompletion _ c, hout, htabs, hqueues⟩
  · have hx : exec .tableCompletion s = execTableCompletion s := rfl
    rw [hx, execTableCompletion, hc]
    exact congrArg done (if_neg (by simp [hr]))
  · have hx : exec .tableCompletion s = execTableCompletion s := rfl
    rw [hx, execTableCompletion, hc]
    rfl

end Sys2Proof.Machine
end

section
/-! Frames of the host (R337 to R340): what a fetch and a delivery leave in the ring, in the interrupts and in what the block keeps. -/

namespace Sys2Proof.Machine

/-! ### HEAD of a ring -/

theorem ringSize_bounds (s : State) (r : Nat) : 0 < ringSize s r ∧ ringSize s r < 2 ^ 32 := by
  unfold ringSize
  split
  · exact ⟨Nat.two_pow_pos _, Nat.pow_lt_pow_right (by decide) (by omega)⟩
  · exact eventRingSize_bounds _ _

theorem ringHead_moveHead (s : State) (r h : Nat) : ringHead (moveHead s r h) r = h % 2 ^ 32 :=
  (rd_signalled _ _ _ _ _ _).trans (rd_wr_same s _ _)

theorem ringHead_advanceHead_of_place (s : State) (r n : Nat) : ringHead (advanceHead s r n) r = (ringHead s r + n) % ringSize s r :=
  (ringHead_moveHead s r _).trans (Nat.mod_eq_of_lt ((Nat.mod_lt _ (ringSize_bounds s r).1).trans (ringSize_bounds s r).2))

/-- The registers of the first 64 rings are those of their page. -/
theorem ringBase_bounds (r : Fin 64) : 0xA040 ≤ ringBase r ∧ ringBase r ≤ 0xA820 := by
  have hr : (r : Nat) < 64 := r.isLt
  rw [ringBase, if_pos hr]
  omega

theorem ringSize_of_rd {s t : State} {r : Fin 64} (h : rd t (ringBase r + 8) = rd s (ringBase r + 8)) : ringSize t r = ringSize s r := by
  rw [ringSize, ringSize, if_pos (show (r : Nat) < 128 by omega), if_pos (show (r : Nat) < 128 by omega), fld, fld, h]

/-! ### A fetch (R338) -/

/-- What the answer of a fetch does not touch: the registers of the ring, the frames and the queues. -/
theorem shows_ofFetch {a : Nat} (hlo : 0xA040 ≤ a) (hhi : a ≤ 0xA83F) : Shows (fun s => (rd s a, s.frames, s.queues)) [a] where
  word s b v hb := congrArg (·, s.frames, s.queues) (rd_wr_other s v fun e => hb (by simp [e]))
  counters _ _ := rfl
  errors _ _ := rfl
  out _ _ := rfl
  apart b hb := by rw [List.mem_singleton.mp hb]; omega

section
variable {α : Type} {F : State → α} {as : List Nat}

theorem Shows.readDescriptors (h : Shows F as) (s : State) (r n : Nat) : F (readDescriptors s r n) = F s :=
  view_foldl (fun u _ => h.emit u _) _ s

theorem Shows.readSegments (h : Shows F as) (s : State) (ds : List (List Nat)) : F (readSegments s ds) = F s :=
  view_foldl (fun u _ => h.emit u _) _ s

theorem Shows.hostDmaFails (h : Shows F as) (hc : 0x9330 ∉ as) (hi : 0x9010 ∉ as) (s : State) (detail : List Nat) :
    F (hostDmaFails s detail) = F s :=
  (h.report _ _ _ _).trans ((h.raise (p := .hostIf) hi _ _).trans (h.tally hc _))

end

/-- The descriptors that a frame leaves behind are written to host memory (R337). -/
def statusWritten (s : State) (r n status : Nat) : State :=
  (List.range n).foldl (fun s k => emit s (.hostWrite (descriptorAddr s r k + 28) (leBytes 4 (2 ^ 31 + status * 2 ^ 28)))) s

theorem finishDescriptors_eq (s : State) (r n status : Nat) :
    finishDescriptors s r n status = advanceHead (statusWritten s r n status) r n := rfl

theorem Shows.statusWritten {α : Type} {F : State → α} {as : List Nat} (h : Shows F as) (s : State) (r n status : Nat) :
    F (statusWritten s r n status) = F s :=
  view_foldl (fun u _ => h.emit u _) _ s

theorem kept_of_besideRing {s t : State} (h : besideRing t = besideRing s) : t.frames = s.frames ∧ t.queues = s.queues :=
  ⟨(congrArg State.frames h :), (congrArg State.queues h :)⟩

/-- The end of a fetch moves HEAD by the descriptors of the frame, and touches no other register (R336, R337). -/
theorem finishDescriptors_moves {s t : State} {r : Fin 64} (n status : Nat)
    (h : ∀ {α : Type} {F : State → α} {as : List Nat}, Shows F as → 0x9328 ∉ as → 0x9330 ∉ as → 0x9010 ∉ as → F t = F s) :
    ringHead (finishDescriptors t r n status) r = (ringHead s r + n) % ringSize s r ∧
      (∀ k, flag (finishDescriptors t r n status) 0x9010 k = flag t 0x9010 k) ∧
      (finishDescriptors t r n status).frames = s.frames ∧ (finishDescriptors t r n status).queues = s.queues := by
  obtain ⟨hlo, hhi⟩ := ringBase_bounds r
  have word : ∀ a, 0xA040 ≤ a → a ≤ 0xA83F → rd (statusWritten t r n status) a = rd s a ∧
      (statusWritten t r n status).frames = s.frames ∧ (statusWritten t r n status).queues = s.queues := by
    intro a h1 h2
    have hs := shows_ofFetch h1 h2
    have hk := (hs.statusWritten t r n status).trans (h hs (by simp; omega) (by simp; omega) (by simp; omega))
    exact ⟨congrArg Prod.fst hk, congrArg (fun x => x.2.1) hk, congrArg (fun x => x.2.2) hk⟩
  obtain ⟨hhead, hframes, hqueues⟩ := word (ringBase r + 0xC) (by omega) (by omega)
  obtain ⟨hsize, -, -⟩ := word (ringBase r + 8) (by omega) (by omega)
  obtain ⟨hf, hq⟩ := kept_of_besideRing (besideRing_advanceHead (statusWritten t r n status) r n)
  refine ⟨?_, fun k => congrArg (bitAt · k) ?_, hf.trans hframes, hq.trans hqueues⟩
  · rw [finishDescriptors_eq, ringHead_advanceHead_of_place, ringSize_of_rd hsize, ringHead, hhead, ringHead]
  · refine (regsBut_advanceHead _ _ _ 0x9010 (by simp; omega)).trans ?_
    exact (shows_rd (a := 0x9010) (by decide) (by decide)).statusWritten t r n status

theorem flag_hostDmaFails (s : State) (detail : List Nat) : flag (hostDmaFails s detail) 0x9010 2 = true :=
  (flag_report (by decide) (by decide) _ _ _ _ 2).trans ((flag_raise _ .hostIf 2 _ _ (by decide)).trans (if_pos (by decide)))

theorem flag_raise_hostIf (s : State) : flag (raise s .hostIf 0) 0x9010 0 = true :=
  (flag_raise _ .hostIf 0 _ _ (by decide)).trans (if_pos (by decide))

section
variable {s : State} {r : Fin 64} {ds : List (List Nat)} (h : Fetches s r ds)
include h

/-- A fetch whose guards hold reads its descriptors, and is judged by them (R338). -/
theorem exec_txFrameFetch (data : List Byte) (ok : Bool) : exec (.txFrameFetch r ds data ok) s = .next (
    if descriptorStatus ds ≠ 0 then
      finishDescriptors (raise (tally (readDescriptors s r ds.length) 0x9328) .hostIf 0) r ds.length (descriptorStatus ds)
    else if !ok then finishDescriptors (hostDmaFails (readSegments (readDescriptors s r ds.length) ds) [r.val]) r ds.length 4
    else if data.length + 4 ≠ bits (nth (ds.headD []) 3) 31 18 then readDescriptors s r ds.length
    else acceptHostFrame (finishDescriptors (readSegments (readDescriptors s r ds.length) ds) r ds.length 0) r (ds.headD []) data) := by
  obtain ⟨hon, hheld, hserves, hruns, hn, hposted⟩ := h
  refine congrArg done ?_
  rw [txFetch, ← hn, hon, hheld, hserves, hruns]
  exact if_neg (by simp; omega)

theorem txFrameFetch_of_bad (data : List Byte) (ok : Bool) (hd : descriptorStatus ds ≠ 0) : exec (.txFrameFetch r ds data ok) s = .next
    (finishDescriptors (raise (tally (readDescriptors s r ds.length) 0x9328) .hostIf 0) r ds.length (descriptorStatus ds)) := by
  rw [exec_txFrameFetch h, if_pos hd]

theorem txFrameFetch_of_failed (data : List Byte) (hd : descriptorStatus ds = 0) : exec (.txFrameFetch r ds data false) s = .next
    (finishDescriptors (hostDmaFails (readSegments (readDescriptors s r ds.length) ds) [r.val]) r ds.length 4) := by
  rw [exec_txFrameFetch h, if_neg (not_not.mpr hd), if_pos (by decide)]

theorem txFrameFetch_of_good {data : List Byte} (hd : descriptorStatus ds = 0)
    (hlen : data.length + 4 = bits (nth (ds.headD []) 3) 31 18) : exec (.txFrameFetch r ds data true) s = .next
    (acceptHostFrame (finishDescriptors (readSegments (readDescriptors s r ds.length) ds) r ds.length 0) r (ds.headD []) data) := by
  rw [exec_txFrameFetch h, if_neg (not_not.mpr hd), if_neg (by decide), if_neg (not_not.mpr hlen)]

end

/-- A ring that is off, a host that is not served, a slice that does not run or a ring with nothing posted: no fetch (R336, R338). -/
theorem txFrameFetch_of_idle {s : State} {r : Fin 64} (ds : List (List Nat)) (data : List Byte) (ok : Bool)
    (h : ringOn s r = false ∨ hostServes s = false ∨ pipelineRuns s (fld s (ringBase r + 8) 24 22) = false ∨ ringPosted s r = 0) :
    exec (.txFrameFetch r ds data ok) s = .next s := by
  refine congrArg done (if_pos ?_)
  rcases h with h | h | h | h
  · exact .inl (by rw [h]; rfl)
  · exact .inr (.inr (.inl (by rw [h]; rfl)))
  · exact .inr (.inr (.inr (.inl (by rw [h]; rfl))))
  · exact .inr (.inr (.inr (.inr (.inr (by omega)))))

/-- Every command of the host's frames leaves what is settled (Lasting). -/
theorem settled_of_exec {c : Instr} {s t u : State} (h : exec c s = .next t) (hu : exec c s = .next u) (hs : settled u = settled s) :
    settled t = settled s := by
  obtain rfl : t = u := by rw [h] at hu; exact Host.Outcome.next.inj hu
  exact hs

theorem settled_fetched {s t : State} {r : Fin 64} {ds : List (List Nat)} {data : List Byte} {ok : Bool}
    (h : exec (.txFrameFetch r ds data ok) s = .next t) : settled t = settled s :=
  settled_of_exec h rfl (settled_txFetch s r ds data ok)

theorem deliver_of_off {s : State} {c : Copy} (buffers : List (Nat × Nat)) (ok : Bool)
    (hc : egressCheck s (frameAt s c.frame) 64 (match c.kind with | .trap _ => true | _ => false) = 0)
    (hr : ringOn s (64 + c.ring) = false) : deliver s c buffers ok = s :=
  if_pos ⟨hc, .inl (by rw [hr]; rfl)⟩

theorem exec_rxDeliver {s : State} {c : Copy} (h : s.host.waiting = some c) (buffers : List (Nat × Nat)) (ok : Bool) :
    exec (.rxDeliver buffers ok) s = .next (deliver s c buffers ok) := by
  change done (match s.host.waiting with | none => s | some c => deliver s c buffers ok) = _
  rw [h]
  rfl

theorem rxDeliver_of_none {s : State} (h : s.host.waiting = none) (buffers : List (Nat × Nat)) (ok : Bool) :
    exec (.rxDeliver buffers ok) s = .next s := by
  change done (match s.host.waiting with | none => s | some c => deliver s c buffers ok) = _
  rw [h]
  rfl

/-- Settles O42: a fetch is one of four ends of the descriptors it read, and each moves HEAD past them. -/
theorem hostFramesComeAndGo : Obligations.HostFramesComeAndGo := by
  refine ⟨fun s r ds data ok h hd => ?_, fun s r ds data h hd => ?_, fun s r ds data h hd hlen => ?_,
    fun s r ds data ok h => txFrameFetch_of_idle ds data ok h, fun s c buffers ok h => ?_, fun s buffers ok h => rxDeliver_of_none h _ _⟩
  · have hrun := txFrameFetch_of_bad h data ok hd
    obtain ⟨hhead, hflag, hframes, hqueues⟩ := finishDescriptors_moves ds.length (descriptorStatus ds)
      (fun {_ _ _} hs h1 h2 h3 => (hs.raise (p := .hostIf) h3 _ 0).trans ((hs.tally h1 _).trans (hs.readDescriptors s r ds.length)))
    exact ⟨_, hrun, settled_fetched hrun, rfl, hhead, (hflag 0).trans (flag_raise_hostIf _), hframes, hqueues⟩
  · have hrun := txFrameFetch_of_failed h data hd
    obtain ⟨hhead, hflag, hframes, hqueues⟩ := finishDescriptors_moves ds.length 4
      (fun {_ _ _} hs h1 h2 h3 => (hs.hostDmaFails h2 h3 _ [r.val]).trans ((hs.readSegments _ ds).trans (hs.readDescriptors s r ds.length)))
    exact ⟨_, hrun, settled_fetched hrun, rfl, hhead, (hflag 2).trans (flag_hostDmaFails _ _), hframes, hqueues⟩
  · have hrun := txFrameFetch_of_good h hd hlen
    exact ⟨_, hrun, settled_fetched hrun, rfl⟩
  · exact ⟨_, exec_rxDeliver h buffers ok, settled_deliver s c buffers ok, rfl, deliver_of_off buffers ok⟩

end Sys2Proof.Machine
end

section
/-! The endpoint and its rings (R331 to R336, R342, R343): its resets, its doorbells, and how a ring starts, stops and signals. -/

namespace Sys2Proof.Machine

/-! ### The endpoint (R331, R332) -/

/-- What the mailbox is not about: the endpoint, the clock and the queues. -/
theorem showsNoMail_endpoint : ShowsNoMail fun s => (s.host, s.clock, s.queues) := showsNoMail_of_rfl fun _ _ _ _ _ => rfl

theorem ShowsNoMail.hostResetChannels {α : Type} {F : State → α} (h : ShowsNoMail F) (s : State) : F (hostResetChannels s) = F s :=
  (view_foldl_mem (fun u k hk => h.receiverReset (by have := List.mem_range.mp hk; omega) u) _).trans
    (view_foldl_mem (fun u k hk => h.senderReset (by have := List.mem_range.mp hk; omega) u) s)

/-- The rings and the table engine after a reset of the endpoint, before the mailbox meets it. -/
def ringsReset (s : State) : State :=
  { s with
    regs := skeep (fun a => !ringRegister a) s.regs
    host := { s.host with rings := [], doorbells := [], completions := [], completionSeq := 0 }
    fdb := { s.fdb with flushes := s.fdb.flushes.map fun j => { j with tag := none } } }

/-- A reset of the endpoint leaves its rings empty, and its link and the clock as they are (R332). -/
theorem endpoint_reset (s : State) :
    (receiversDown (resetEndpoint s) [6, 7, 8, 9]).host =
        { s.host with rings := [], doorbells := [], completions := [], completionSeq := 0 } ∧
      (receiversDown (resetEndpoint s) [6, 7, 8, 9]).clock = s.clock := by
  have h := (showsNoMail_endpoint.receiversDown (cs := [6, 7, 8, 9]) (by decide) (resetEndpoint s)).trans
    (showsNoMail_endpoint.hostResetChannels (ringsReset s))
  exact ⟨congrArg Prod.fst h, congrArg (fun x => x.2.1) h⟩

/-- PERST_N takes the link down, and Bus Master Enable and the power state D0 with it. -/
def perstHeld (s : State) : State := { s with host := { s.host with inReset := true, linkUp := false, d0 := false, busMaster := false } }

theorem perstAssert_of_running {s : State} (h : s.host.inReset = false) :
    perstAssert s = receiversDown (resetEndpoint (perstHeld s)) [6, 7, 8, 9] := if_neg (by rw [h]; decide)

/-- The endpoint leaves its reset: the link trains if the core answers. -/
def linkTrained (s : State) : State :=
  { s with host := { s.host with inReset := false, linkUp := endpointAnswers s, d0 := endpointAnswers s } }

/-- A channel whose message waited for the endpoint's reset to end loses it (R356). -/
def channelReleased (s : State) (c : Nat) : State :=
  if channelFull s c && (channelAt s c).inReceiverReset then discardMessage s c 1 else s

theorem ShowsNoMail.channelReleased {α : Type} {F : State → α} (h : ShowsNoMail F) {c : Nat} (hc : c < 12) (s : State) :
    F (channelReleased s c) = F s := view_ite (h.discardMessage hc s 1) rfl

theorem perstRelease_of_reset {s : State} (h : s.host.inReset = true) :
    perstRelease s = [6, 7, 8, 9].foldl channelReleased (linkTrained s) := if_neg (by rw [h]; decide)

theorem perstRelease_leaves {s : State} (h : s.host.inReset = true) :
    (perstRelease s).host = { s.host with inReset := false, linkUp := endpointAnswers s, d0 := endpointAnswers s } ∧
      (perstRelease s).clock = s.clock ∧ (perstRelease s).queues = s.queues := by
  have channels : ∀ c ∈ [6, 7, 8, 9], c < 12 := by decide
  have view := view_foldl_mem (F := fun s => (s.host, s.clock, s.queues))
    (fun u c hc => showsNoMail_endpoint.channelReleased (channels c hc) u) (linkTrained s)
  rw [perstRelease_of_reset h]
  exact ⟨congrArg Prod.fst view, congrArg (fun x => x.2.1) view, congrArg (fun x => x.2.2) view⟩

theorem endpointReset_of_running {s : State} (h : s.host.inReset = false) :
    endpointReset s = receiversDown (resetEndpoint { s with host := { s.host with busMaster := false } }) [6, 7, 8, 9] :=
  if_neg (by rw [h]; decide)

/-! ### Doorbells (R336, R342) -/

/-- The value of a doorbell is kept. -/
def rung (s : State) (page value : Nat) : State :=
  { s with host := { s.host with doorbells := sset zeroNat s.host.doorbells page value } }

/-- The slice of a transmit ring is touched by its doorbell (R290). -/
def posted (s : State) (page value : Nat) : State :=
  if page < 64 then wakeSlice (wr (rung s page value) (ringBase page + 0x10) value)
    (fld (wr (rung s page value) (ringBase page + 0x10) value) (ringBase page + 8) 24 22)
  else wr (rung s page value) (ringBase page + 0x10) value

theorem doorbell_of_served {s : State} {page : Nat} (hp : page < 136) (hl : s.host.linkUp = true) (hr : heldInReset s (.dma 0) = false)
    (value : Nat) : doorbell s page value =
      if ringSize (rung s page value) page ≤ value then raise (tally (rung s page value) 0x932C) .hostIf 1
      else if page < 128 ∨ page = 135 then posted s page value else wr (rung s page value) (ringBase page + 0xC) value :=
  if_neg (by rw [hl, hr]; simp; omega)

theorem ringSize_rung (s : State) (page value r : Nat) : ringSize (rung s page value) r = ringSize s r := rfl

theorem doorbell_of_unserved {s : State} {page : Nat} (h : 136 ≤ page ∨ s.host.linkUp = false) (value : Nat) :
    doorbell s page value = s := by
  refine if_pos ?_
  rcases h with h | h
  · exact .inr (.inr h)
  · exact .inl (by rw [h]; rfl)

/-- The registers of every ring lie in the DMA pages. -/
theorem ringBase_range {r : Nat} (h : r < 136) : 0xA040 ≤ ringBase r ∧ ringBase r ≤ 0xC120 := by
  unfold ringBase
  split
  · omega
  · split <;> omega

/-- A counted and raised event of the host interface shows in no ring register. -/
theorem rd_counted {a : Nat} (hlo : 0xA000 ≤ a) (hhi : a < 0xD000) (s : State) : rd (raise (tally s 0x932C) .hostIf 1) a = rd s a := by
  have hne : a ≠ Page.hostIf.at_ 0x10 := by
    rw [show Page.hostIf.at_ 0x10 = 0x9010 from rfl]
    omega
  exact (rd_raise_other _ .hostIf 1 hne).trans ((shows_rd (by omega) (by omega)).tally (by simp; omega) s)

theorem doorbell_of_excess {s : State} {r : Nat} (hp : r < 136) (hl : s.host.linkUp = true) (hr : heldInReset s (.dma 0) = false)
    {value : Nat} (hv : ringSize s r ≤ value) :
    doorbell s r value = raise (tally (rung s r value) 0x932C) .hostIf 1 := by
  rw [doorbell_of_served hp hl hr, if_pos (by rw [ringSize_rung]; exact hv)]

theorem posted_shows (s : State) (r value : Nat) :
    rd (posted s r value) (ringBase r + 0x10) = value % 2 ^ 32 ∧ RegsBut [ringBase r + 0x10] s (posted s r value) ∧
      (posted s r value).out = s.out := by
  have hregs : (posted s r value).regs = (wr (rung s r value) (ringBase r + 0x10) value).regs :=
    view_ite (F := State.regs) (wakeSlice_regs _ _) rfl
  have hout : (posted s r value).out = s.out := view_ite (F := State.out)
    (view_wakeSlice (F := State.out) (fun u i n => view_count (fun _ _ => rfl) u i n) (fun _ _ => rfl) _ _) rfl
  refine ⟨?_, (RegsBut.of_regs_eq _ hregs).trans ((RegsBut.of_regs_eq _ rfl).wr (by simp) value), hout⟩
  rw [rd_of_regs_eq hregs]
  exact rd_wr_same _ _ _

theorem doorbell_of_posting {s : State} {r : Nat} (hp : r < 128 ∨ r = 135) (hl : s.host.linkUp = true)
    (hr : heldInReset s (.dma 0) = false) {value : Nat} (hv : value < ringSize s r) : doorbell s r value = posted s r value := by
  rw [doorbell_of_served (by omega) hl hr, if_neg (by rw [ringSize_rung]; omega), if_pos hp]

theorem doorbell_of_taken {s : State} {r : Nat} (hlo : 128 ≤ r) (hhi : r < 135) (hl : s.host.linkUp = true)
    (hr : heldInReset s (.dma 0) = false) {value : Nat} (hv : value < ringSize s r) :
    doorbell s r value = wr (rung s r value) (ringBase r + 0xC) value := by
  rw [doorbell_of_served (by omega) hl hr, if_neg (by rw [ringSize_rung]; omega), if_neg (by omega)]

/-! ### A ring starts and stops (R336, R343) -/

/-- A register of the first sixteen pages lies in no slice. -/
theorem atRegister_low {a : Nat} (h : a < 0x10000) (s : State) (src : Source) : atRegister s src a = dropHeld s src a := by
  refine atRegister_eq s src a fun i k => ?_
  rw [pageAt, if_pos h]
  split <;> simp

theorem atRegister_ringConfig (s : State) (src : Source) (r : Fin 136) :
    atRegister s src (ringBase r + 8) = dropHeld s src (ringBase r + 8) :=
  atRegister_low (by have := (ringBase_range r.isLt).2; omega) s src

/-- The ring at its start: HEAD and TAIL at 0, enabled and not idle. -/
def ringStarted (s : State) (r : Nat) : State :=
  setFlag (setFlag (wr (wr { s with host := { s.host with busMaster := s.host.linkUp } } (ringBase r + 0xC) 0) (ringBase r + 0x10) 0)
    (ringBase r + 8) 31 true) (ringBase r + 8) 30 false

theorem ringEnable_of_idle {s : State} {r : Nat} (ho : ringOn s r = false) (hi : ringIsIdle s r = true) :
    ringEnable s r = ringStarted s r :=
  if_neg (by rw [ho, hi]; decide)

theorem ringEnable_of_busy {s : State} {r : Nat} (h : ringOn s r = true ∨ ringIsIdle s r = false) : ringEnable s r = s :=
  if_pos (h.imp id fun hi => by rw [hi]; rfl)

theorem ringStarted_shows (s : State) (r : Nat) :
    ringOn (ringStarted s r) r = true ∧ ringIsIdle (ringStarted s r) r = false ∧ ringHead (ringStarted s r) r = 0 ∧
      ringTail (ringStarted s r) r = 0 ∧ RegsBut [ringBase r + 8, ringBase r + 0xC, ringBase r + 0x10] s (ringStarted s r) := by
  refine ⟨?_, flag_setFlag_same _ _ _ _ (by decide), ?_, ?_, ?_⟩
  · refine (flag_setFlag _ _ 30 false _ 31 (by decide)).trans ?_
    rw [if_neg (by omega)]
    exact flag_setFlag_same _ _ _ _ (by decide)
  · refine (rd_setFlag_other _ _ _ (by omega)).trans ((rd_setFlag_other _ _ _ (by omega)).trans ?_)
    exact (rd_wr_other _ _ (by omega)).trans (rd_wr_same _ _ _)
  · refine (rd_setFlag_other _ _ _ (by omega)).trans ((rd_setFlag_other _ _ _ (by omega)).trans ?_)
    exact rd_wr_same _ _ _
  · exact ((((RegsBut.of_regs_eq _ rfl).wr (by simp) 0).wr (by simp) 0).setFlag (by simp) 31 true).setFlag (by simp) 30 false

theorem besideRegs_wr (s : State) (a v : Nat) : besideRegs (wr s a v) = besideRegs s := rfl

theorem besideRegs_setFlag (s : State) (a k : Nat) (b : Bool) : besideRegs (setFlag s a k b) = besideRegs s := besideRegs_wr _ _ _

theorem ringStarted_frame (s : State) (r : Nat) :
    ringStarted s r = { s with regs := (ringStarted s r).regs, host := { s.host with busMaster := s.host.linkUp } } := by
  refine eq_of_besideRegs (s := { s with host := { s.host with busMaster := s.host.linkUp } }) ?_
  rw [ringStarted, besideRegs_setFlag, besideRegs_setFlag, besideRegs_wr, besideRegs_wr]

/-! ### A ring comes to rest, and its vector (R335, R343) -/

theorem ringIdle_of_empty {s : State} {r : Nat} (h : r ≠ 135) (ho : ringOn s r = false) (hi : ringIsIdle s r = false)
    (hn : ringPosted s r = 0) : ringIdle s r [] = raise (setFlag s (ringBase r + 8) 30 true) .hostIf 3 := by
  have aborted : abortDescriptors s r = s := by rw [abortDescriptors, hn]; rfl
  unfold ringIdle
  rw [ho, hi, if_neg (by simp), if_neg (by omega), hn]
  dsimp only
  rw [if_pos rfl, if_neg (by omega), if_neg h, aborted, ite_self]

theorem itrExpiry_of_due {s : State} {r : Nat} (h : (ringAt s r).unsignalled ≠ 0)
    (hd : (ringAt s r).unsignalled - 1 + fld s (ringBase r + 8) 15 0 * 1000 ≤ now s) :
    itrExpiry s r = emit (setRing s r { ringAt s r with unsignalled := 0 }) (.vector 0 r) :=
  if_neg (by omega)

theorem itrExpiry_of_rest {s : State} {r : Nat} (h : (ringAt s r).unsignalled = 0) : itrExpiry s r = s := if_pos (.inl h)

end Sys2Proof.Machine
end

section
/-! The boot flash and the GPIO pins (R348, R349), and what the endpoint, its rings and its pins do. -/

namespace Sys2Proof.Machine

/-! ### A flash request (R349) -/

/-- QSPI_ACCESS holds the request, with no status yet. -/
def flashAsked (s : State) (op addr : Nat) : State := setFld (setFld (setFld s 0x9040 30 29 op) 0x9040 26 0 addr) 0x9040 28 27 0

theorem flashAsked_shows (s : State) {op addr : Nat} (hop : op < 4) (ha : addr < 2 ^ 27) :
    flag (flashAsked s op addr) 0x9040 31 = flag s 0x9040 31 ∧ fld (flashAsked s op addr) 0x9040 30 29 = op ∧
      fld (flashAsked s op addr) 0x9040 26 0 = addr ∧ RegsBut [0x9040] s (flashAsked s op addr) := by
  refine ⟨?_, ?_, ?_, (((RegsBut.of_regs_eq _ rfl).wr (by simp) _).wr (by simp) _).wr (by simp) _⟩
  · refine (flag_setFld _ _ 28 27 _ _ _ (by decide) (by decide)).trans ((if_neg (by decide)).trans ?_)
    refine (flag_setFld _ _ 26 0 _ _ _ (by decide) (by decide)).trans ((if_neg (by decide)).trans ?_)
    exact (flag_setFld _ _ 30 29 _ _ _ (by decide) (by decide)).trans (if_neg (by decide))
  · refine (fld_setFld_other _ _ 28 27 _ _ _ _ (by decide) (by decide) (.inr (.inr (by decide)))).trans ?_
    refine (fld_setFld_other _ _ 26 0 _ _ _ _ (by decide) (by decide) (.inr (.inr (by decide)))).trans ?_
    exact (fld_setFld_same _ _ _ _ _ (by decide) (by decide)).trans (Nat.mod_eq_of_lt hop)
  · refine (fld_setFld_other _ _ 28 27 _ _ _ _ (by decide) (by decide) (.inr (.inl (by decide)))).trans ?_
    exact (fld_setFld_same _ _ _ _ _ (by decide) (by decide)).trans (Nat.mod_eq_of_lt ha)

theorem inBootedSlot_of_regsBut {s t : State} (hf : t.firmware = s.firmware) (h : RegsBut [0x9040] s t) (addr : Nat) :
    inBootedSlot t addr = inBootedSlot s addr := by
  have hflag : flag t 0x2080 29 = flag s 0x2080 29 := congrArg (bitAt · 29) (h _ (by decide))
  rw [inBootedSlot, inBootedSlot, hflag, hf]

/-- The first byte that a request of kind `op` at `addr` reaches: erases are of 64 KiB, all others of 64 bytes. -/
def flashPlace (op addr : Nat) : Nat := if op = 2 then addr / 65536 * 65536 else addr / 64 * 64

/-- BUSY is set for the flash request. -/
def flashBusy (s : State) (op addr : Nat) : State :=
  { setFlag (flashAsked s op addr) 0x9040 31 true with host := { s.host with flash := some (op, flashPlace op addr) } }

/-- The flash request leaves the block, a program with its 16 words. -/
def flashStarted (s : State) (op addr : Nat) : State :=
  emit (flashBusy s op addr) (.low "QSPI" (op :: flashPlace op addr ::
    (if op = 1 then (List.range 16).map fun n => rd (flashBusy s op addr) (0x9080 + n * 4) else [])))

theorem qspiRequest_of_idle {s : State} (h : flag s 0x9040 31 = false) {op : Nat} (hop : op < 3) (addr : Nat) :
    qspiRequest s op addr =
      if op ≠ 0 ∧ inBootedSlot s (addr % 2 ^ 27) = true
      then raise (setFld (flashAsked s op (addr % 2 ^ 27)) 0x9040 28 27 1) .hostIf 4
      else flashStarted s op (addr % 2 ^ 27) := by
  have ha : addr % 2 ^ 27 < 2 ^ 27 := Nat.mod_lt _ (by decide)
  obtain ⟨hflag, -, -, hregs⟩ := flashAsked_shows s (op := op) (by omega) ha
  have hbusy : flag (setFld (setFld s 0x9040 30 29 op) 0x9040 26 0 (addr % 2 ^ 27)) 0x9040 31 = false := by
    rw [flag_setFld _ _ 26 0 _ _ _ (by decide) (by decide), if_neg (by decide), flag_setFld _ _ 30 29 _ _ _ (by decide) (by decide),
      if_neg (by decide), h]
  refine (if_neg (by simp [h])).trans ((if_neg (by rw [hbusy]; decide)).trans ?_)
  rw [if_neg (show op ≠ 3 by omega), ← inBootedSlot_of_regsBut (s := s) (t := flashAsked s op (addr % 2 ^ 27)) rfl hregs]
  rfl

theorem regs_flashStarted (s : State) (op addr : Nat) :
    (flashStarted s op addr).regs = (setFlag (flashAsked s op addr) 0x9040 31 true).regs := rfl

theorem flashStarted_frame (s : State) (op addr : Nat) : flashStarted s op addr =
    { s with
      regs := (flashStarted s op addr).regs
      host := (flashStarted s op addr).host
      out := (flashStarted s op addr).out } := rfl

/-- What a flash request under way shows. -/
theorem flashStarted_shows (s : State) {op : Nat} (hop : op < 4) (addr : Nat) :
    flag (flashStarted s op (addr % 2 ^ 27)) 0x9040 31 = true ∧ fld (flashStarted s op (addr % 2 ^ 27)) 0x9040 30 29 = op ∧
      fld (flashStarted s op (addr % 2 ^ 27)) 0x9040 26 0 = addr % 2 ^ 27 ∧ RegsBut [0x9040] s (flashStarted s op (addr % 2 ^ 27)) := by
  obtain ⟨-, hkind, haddr, hregs⟩ := flashAsked_shows s hop (Nat.mod_lt addr (show 0 < 2 ^ 27 by decide))
  have word := regs_flashStarted s op (addr % 2 ^ 27)
  generalize flashStarted s op (addr % 2 ^ 27) = t at word ⊢
  generalize flashAsked s op (addr % 2 ^ 27) = u at *
  have hrd : ∀ a, rd t a = rd (setFlag u 0x9040 31 true) a := rd_of_regs_eq word
  refine ⟨?_, ?_, ?_, (RegsBut.of_regs_eq _ word).trans (hregs.setFlag (by simp) 31 true)⟩
  · rw [flag, hrd]
    exact flag_setFlag_same _ _ _ _ (by decide)
  · rw [fld, hrd]
    exact (fld_setFlag_other _ _ 31 _ _ _ _ (by decide) (.inr (.inl (by decide)))).trans hkind
  · rw [fld, hrd]
    exact (fld_setFlag_other _ _ 31 _ _ _ _ (by decide) (.inr (.inl (by decide)))).trans haddr

/-- A request that would change the booted slot is refused (R349). -/
theorem flashRefused_shows {s : State} (h : flag s 0x9040 31 = false) {op : Nat} (hop : op < 4) (addr : Nat) :
    ∃ t, raise (setFld (flashAsked s op (addr % 2 ^ 27)) 0x9040 28 27 1) .hostIf 4 = t ∧ flag t 0x9040 31 = false ∧
      fld t 0x9040 28 27 = 1 ∧ flag t 0x9010 4 = true ∧ t.host = s.host ∧ RegsBut [0x9040, 0x9010] s t := by
  obtain ⟨hflag, -, -, hregs⟩ := flashAsked_shows s hop (Nat.mod_lt addr (show 0 < 2 ^ 27 by decide))
  have wide : RegsBut [0x9040, 0x9010] s (flashAsked s op (addr % 2 ^ 27)) := fun a ha => hregs a (by simp at ha ⊢; omega)
  refine ⟨_, rfl, ?_, ?_, ?_, rfl, (wide.wr (by simp) _).raise (by decide) 4⟩
  · refine (flag_raise _ .hostIf 4 _ _ (by decide)).trans ((if_neg (by decide)).trans ?_)
    exact (flag_setFld _ _ 28 27 _ _ _ (by decide) (by decide)).trans ((if_neg (by decide)).trans (hflag.trans h))
  · refine (fld_raise_other _ .hostIf 4 _ _ (by decide)).trans ?_
    exact fld_setFld_same _ _ _ _ _ (by decide) (by decide)
  · exact (flag_raise _ .hostIf 4 _ _ (by decide)).trans (if_pos (by decide))

/-! ### A flash request ends (R349) -/

/-- QSPI_ACCESS after the request, with its status. -/
def flashEnded (s : State) (ok : Bool) : State :=
  setFld (setFlag { s with host := { s.host with flash := none } } 0x9040 31 false) 0x9040 28 27 (if ok then 0 else 2)

theorem flashEnded_shows (s : State) (ok : Bool) :
    flag (flashEnded s ok) 0x9040 31 = false ∧ fld (flashEnded s ok) 0x9040 28 27 = (if ok then 0 else 2) ∧
      (flashEnded s ok).host = { s.host with flash := none } ∧ RegsBut [0x9040, 0x9010] s (flashEnded s ok) := by
  refine ⟨?_, ?_, rfl, ((RegsBut.of_regs_eq _ rfl).setFlag (by simp) 31 false).wr (by simp) _⟩
  · refine (flag_setFld _ _ 28 27 _ _ _ (by decide) (by decide)).trans ((if_neg (by decide)).trans ?_)
    exact flag_setFlag_same _ _ _ _ (by decide)
  · refine (fld_setFld_same _ _ _ _ _ (by decide) (by decide)).trans ?_
    split <;> rfl

/-- The words that a read brings are stored (R349). -/
def flashStored (s : State) (data : List Byte) : State :=
  (List.range 16).foldl (fun s n => wr s (0x9080 + n * 4) (leNat (slice data (n * 4) 4))) s

theorem rd_flashStored (s : State) (data : List Byte) {n : Nat} (h : n < 16) :
    rd (flashStored s data) (0x9080 + n * 4) = leNat (slice data (n * 4) 4) % 2 ^ 32 := by
  have := rd_storeWords 0x9080 (fun n => leNat (slice data (n * 4) 4)) s 16 n
  simp only [Nat.mul_comm 4] at this
  exact this.trans (if_pos h)

theorem rd_flashStored_other (s : State) (data : List Byte) {a : Nat} (h : a < 0x9080) : rd (flashStored s data) a = rd s a :=
  view_foldl (F := (rd · a)) (fun u _ => rd_wr_other u _ (by omega)) _ s

theorem host_flashStored (s : State) (data : List Byte) : (flashStored s data).host = s.host := by
  unfold flashStored
  exact view_foldl (F := State.host) (f := fun s n => wr s (0x9080 + n * 4) (leNat (slice data (n * 4) 4))) (fun _ _ => rfl) _ s

theorem qspiDone_of_busy {s : State} {op a : Nat} (h : s.host.flash = some (op, a)) (ok : Bool) (data : List Byte) :
    qspiDone s ok data = raise (if ok ∧ op = 0 then flashStored (flashEnded s ok) data else flashEnded s ok) .hostIf 4 := by
  rw [qspiDone, h]
  rfl

theorem qspiDone_of_rest {s : State} (h : s.host.flash = none) (ok : Bool) (data : List Byte) : qspiDone s ok data = s := by
  rw [qspiDone, h]

/-! ### GPIO (R348) -/

theorem gpioLevel_of_deaf {s : State} {k : Nat} {level : Bool}
    (h : pagePowered s .hostIf = false ∨ flag s 0x9050 k = true ∨ flag s 0x9058 k = level) : gpioLevel s k level = s :=
  if_pos (h.imp_left fun hp => by rw [hp]; rfl)

/-- The edge is one that GPIO reports. -/
def edgeReported (s : State) (k : Nat) (level : Bool) : Bool := if level then flag s 0x905C k else flag s 0x9060 (16 + k)

theorem gpioLevel_of_edge {s : State} {k : Nat} {level : Bool} (hp : pagePowered s .hostIf = true) (hd : flag s 0x9050 k = false)
    (hl : flag s 0x9058 k ≠ level) : gpioLevel s k level =
      if edgeReported s k level then raise (setFlag (setFlag s 0x9058 k level) 0x9064 k true) .hostIf 5 else setFlag s 0x9058 k level := by
  refine (if_neg (by rw [hp, hd]; simpa using hl)).trans (if_congr (iff_of_eq (congrArg (· = true) ?_)) rfl rfl)
  have other : ∀ b j, b ≠ 0x9058 → flag (setFlag s 0x9058 k level) b j = flag s b j := fun b j hb =>
    congrArg (bitAt · j) (rd_setFlag_other _ _ _ hb)
  rw [edgeReported, other _ _ (by decide), other _ _ (by decide)]

end Sys2Proof.Machine
end

section
/-! What the endpoint, its rings, the boot flash and the GPIO pins do (R331 to R343, R348, R349). -/

namespace Sys2Proof.Machine

/-- An admitted write of a register of the first sixteen pages runs its effect where what the source held is given up. -/
theorem guarded_low {s : State} {src : Source} {a : Nat} (h : Admitted s src a) (hl : a < 0x10000) (act : State → State) :
    guarded s src a act = act (dropHeld s src a) := by
  rw [guarded_of_admitted h, atRegister_low hl]

theorem inBootedSlot_dropHeld (s : State) (src : Source) (a addr : Nat) : inBootedSlot (dropHeld s src a) addr = inBootedSlot s addr := rfl

theorem qspi_starts {s : State} {src : Source} (ha : Admitted s src 0x9040) (hb : flag s 0x9040 31 = false) {op : Nat} (hop : op < 3)
    (addr : Nat) (hslot : op = 0 ∨ inBootedSlot s (addr % 2 ^ 27) = false) :
    ∃ t, done (guarded s src 0x9040 fun s => qspiRequest s op addr) = .next t ∧ flag t 0x9040 31 = true ∧ fld t 0x9040 30 29 = op ∧
      fld t 0x9040 26 0 = addr % 2 ^ 27 ∧ t.host = { s.host with flash := some (op, flashPlace op (addr % 2 ^ 27)) } ∧
      RegsBut [0x9040] s t ∧ t = { s with regs := t.regs, host := t.host, out := t.out, access := t.access } := by
  have hd : flag (dropHeld s src 0x9040) 0x9040 31 = false := hb
  obtain ⟨hgo, hkind, haddr, hregs⟩ := flashStarted_shows (dropHeld s src 0x9040) (op := op) (by omega) addr
  refine ⟨_, congrArg done ?_, hgo, hkind, haddr, rfl, hregs.trans (RegsBut.of_regs_eq _ rfl), flashStarted_frame _ _ _⟩
  rw [guarded_low ha (by decide), qspiRequest_of_idle hd hop, if_neg]
  rw [inBootedSlot_dropHeld]
  rcases hslot with h | h
  · exact fun hn => hn.1 h
  · exact fun hn => Bool.false_ne_true (h.symm.trans hn.2)

theorem qspi_refuses {s : State} {src : Source} (ha : Admitted s src 0x9040) (hb : flag s 0x9040 31 = false) {op : Nat} (hop : op < 3)
    (h0 : op ≠ 0) (addr : Nat) (hslot : inBootedSlot s (addr % 2 ^ 27) = true) :
    ∃ t, done (guarded s src 0x9040 fun s => qspiRequest s op addr) = .next t ∧ flag t 0x9040 31 = false ∧ fld t 0x9040 28 27 = 1 ∧
      flag t 0x9010 4 = true ∧ t.host = s.host ∧ RegsBut [0x9040, 0x9010] s t := by
  have hd : flag (dropHeld s src 0x9040) 0x9040 31 = false := hb
  obtain ⟨t, ht, hgo, hstatus, hcause, hhost, hregs⟩ := flashRefused_shows hd (op := op) (by omega) addr
  refine ⟨t, congrArg done ?_, hgo, hstatus, hcause, hhost, hregs.trans (RegsBut.of_regs_eq _ rfl)⟩
  rw [guarded_low ha (by decide), qspiRequest_of_idle hd hop, if_pos ⟨h0, by rw [inBootedSlot_dropHeld, hslot]⟩, ht]

/-- A request under way is not disturbed. -/
theorem qspi_waits {s : State} {src : Source} (ha : Admitted s src 0x9040) (hb : flag s 0x9040 31 = true) (op addr : Nat) :
    guarded s src 0x9040 (fun s => qspiRequest s op addr) = atRegister s src 0x9040 := by
  rw [guarded_of_admitted ha]
  exact if_pos (by rw [flag_atRegister, hb])

theorem qspiDone_shows {s : State} {op a : Nat} (h : s.host.flash = some (op, a)) (ok : Bool) (data : List Byte) :
    ∃ t, qspiDone s ok data = t ∧ t.host = { s.host with flash := none } ∧ flag t 0x9040 31 = false ∧
      fld t 0x9040 28 27 = (if ok then 0 else 2) ∧ flag t 0x9010 4 = true ∧
      (ok = true → op = 0 → ∀ n, n < 16 → rd t (0x9080 + n * 4) = leNat (slice data (n * 4) 4) % 2 ^ 32) ∧
      (ok = false ∨ op ≠ 0 → RegsBut [0x9040, 0x9010] s t) := by
  obtain ⟨hgo, hstatus, hhost, hregs⟩ := flashEnded_shows s ok
  have hrd : ∀ u : State, ∀ b, b ≠ 0x9010 → rd (raise u .hostIf 4) b = rd u b := fun u b hb => rd_raise_other u .hostIf 4 hb
  have hkeeps : ∀ u : State, (raise u .hostIf 4).host = u.host := fun _ => rfl
  have hcause : ∀ u : State, flag (raise u .hostIf 4) 0x9010 4 = true := fun u =>
    (flag_raise _ .hostIf 4 _ _ (by decide)).trans (if_pos (by decide))
  rw [qspiDone_of_busy h]
  by_cases hc : ok = true ∧ op = 0
  · have word : rd (raise (flashStored (flashEnded s ok) data) .hostIf 4) 0x9040 = rd (flashEnded s ok) 0x9040 :=
      (hrd _ _ (by decide)).trans (rd_flashStored_other _ _ (by decide))
    rw [if_pos hc]
    refine ⟨_, rfl, (hkeeps _).trans ((host_flashStored _ _).trans hhost), (congrArg (bitAt · 31) word).trans hgo,
      (congrArg (bits · 28 27) word).trans hstatus, hcause _, fun _ _ n hn => ?_, fun hn => ?_⟩
    · exact (hrd _ _ (by omega)).trans (rd_flashStored _ _ hn)
    · simp [hc] at hn
  · have word := hrd (flashEnded s ok) 0x9040 (by decide)
    rw [if_neg hc]
    exact ⟨_, rfl, (hkeeps _).trans hhost, (congrArg (bitAt · 31) word).trans hgo, (congrArg (bits · 28 27) word).trans hstatus, hcause _,
      fun h1 h2 => absurd ⟨h1, h2⟩ hc, fun _ => hregs.raise (by decide) 4⟩

theorem gpioEdge_shows {s : State} {k : Fin 16} {level : Bool} (hp : pagePowered s .hostIf = true) (hd : flag s 0x9050 k = false)
    (hl : flag s 0x9058 k ≠ level) :
    ∃ t, gpioLevel s k level = t ∧ flag t 0x9058 k = level ∧
      (edgeReported s k level = true → flag t 0x9064 k = true ∧ flag t 0x9010 5 = true ∧ RegsBut [0x9058, 0x9064, 0x9010] s t) ∧
      (edgeReported s k level = false → RegsBut [0x9058] s t ∧ t.out = s.out) := by
  have hk : (k : Nat) < 32 := by omega
  have level_shown := flag_setFlag_same s 0x9058 k level hk
  rw [gpioLevel_of_edge hp hd hl]
  cases he : edgeReported s k level with
  | true =>
    rw [if_pos rfl]
    refine ⟨_, rfl, ?_, fun _ => ⟨?_, ?_, ?_⟩, fun h => absurd h (by decide)⟩
    · refine (flag_raise _ .hostIf 5 _ _ (by decide)).trans ((if_neg (by simp [show Page.hostIf.at_ 0x10 = 0x9010 from rfl])).trans ?_)
      exact (congrArg (bitAt · k) (rd_setFlag_other _ _ _ (by decide))).trans level_shown
    · refine (flag_raise _ .hostIf 5 _ _ (by decide)).trans ((if_neg (by simp [show Page.hostIf.at_ 0x10 = 0x9010 from rfl])).trans ?_)
      exact flag_setFlag_same _ _ _ _ hk
    · exact (flag_raise _ .hostIf 5 _ _ (by decide)).trans (if_pos (by decide))
    · exact (((RegsBut.of_regs_eq _ rfl).setFlag (by simp) k level).setFlag (by simp) k true).raise (by decide) 5
  | false =>
    rw [if_neg (by decide)]
    exact ⟨_, rfl, level_shown, fun h => absurd h (by decide), fun _ => ⟨(RegsBut.of_regs_eq _ rfl).setFlag (by simp) k level, rfl⟩⟩

theorem perst_asserts {s : State} (h : s.host.inReset = false) :
    ∃ t, exec (.perstN true) s = .next t ∧ t.host.inReset = true ∧ t.host.linkUp = false ∧ t.host.busMaster = false ∧
      t.host.rings = [] ∧ t.host.completions = [] ∧ t.clock = s.clock := by
  obtain ⟨hhost, hclock⟩ := endpoint_reset (perstHeld s)
  refine ⟨_, congrArg done (perstAssert_of_running h), ?_, ?_, ?_, ?_, ?_, hclock⟩ <;> rw [hhost] <;> rfl

theorem perst_releases {s : State} (h : s.host.inReset = true) :
    ∃ t, exec (.perstN false) s = .next t ∧ t.host.inReset = false ∧ t.host.linkUp = endpointAnswers s ∧
      t.host.d0 = endpointAnswers s ∧ t.host.rings = s.host.rings ∧ t.clock = s.clock ∧ t.queues = s.queues := by
  obtain ⟨hhost, hclock, hqueues⟩ := perstRelease_leaves h
  refine ⟨perstRelease s, rfl, ?_, ?_, ?_, ?_, hclock, hqueues⟩ <;> rw [hhost]

theorem endpoint_resets {s : State} (h : s.host.inReset = false) :
    ∃ t, exec .hotReset s = .next t ∧ exec .flrPf0 s = .next t ∧ t.host.busMaster = false ∧ t.host.linkUp = s.host.linkUp ∧
      t.host.rings = [] ∧ t.host.completions = [] := by
  obtain ⟨hhost, -⟩ := endpoint_reset { s with host := { s.host with busMaster := false } }
  refine ⟨_, congrArg done (endpointReset_of_running h), congrArg done (endpointReset_of_running h), ?_, ?_, ?_, ?_⟩ <;> rw [hhost]

theorem doorbell_counts {s : State} {r : Fin 256} {v : Word32} (hr : r.val < 136) (hl : s.host.linkUp = true)
    (hh : heldInReset s (.dma 0) = false) (hv : ringSize s r ≤ v.toNat) :
    ∃ t, exec (.doorbell r v) s = .next t ∧ rd t (ringBase r + 0x10) = rd s (ringBase r + 0x10) ∧
      rd t (ringBase r + 0xC) = rd s (ringBase r + 0xC) ∧ flag t 0x9010 1 = true := by
  obtain ⟨hlo, hhi⟩ := ringBase_range hr
  refine ⟨_, congrArg done (doorbell_of_excess hr hl hh hv), rd_counted (by omega) (by omega) _, rd_counted (by omega) (by omega) _, ?_⟩
  exact (flag_raise _ .hostIf 1 _ _ (by decide)).trans (if_pos (by decide))

theorem doorbell_posts {s : State} {r : Fin 256} {v : Word32} (hl : s.host.linkUp = true) (hh : heldInReset s (.dma 0) = false)
    (hv : v.toNat < ringSize s r) (hr : r.val < 128 ∨ r.val = 135) :
    ∃ t, exec (.doorbell r v) s = .next t ∧ ringTail t r = v.toNat ∧ RegsBut [ringBase r + 0x10] s t ∧ t.out = s.out := by
  obtain ⟨htail, hregs, hout⟩ := posted_shows s r v.toNat
  exact ⟨_, congrArg done (doorbell_of_posting hr hl hh hv), htail.trans (Nat.mod_eq_of_lt v.isLt), hregs, hout⟩

theorem doorbell_takes {s : State} {r : Fin 256} {v : Word32} (hl : s.host.linkUp = true) (hh : heldInReset s (.dma 0) = false)
    (hv : v.toNat < ringSize s r) (hlo : 128 ≤ r.val) (hhi : r.val < 135) :
    ∃ t, exec (.doorbell r v) s = .next t ∧ ringHead t r = v.toNat ∧ RegsBut [ringBase r + 0xC] s t ∧ t.out = s.out :=
  ⟨_, congrArg done (doorbell_of_taken hlo hhi hl hh hv), (rd_wr_same _ _ _).trans (Nat.mod_eq_of_lt v.isLt),
    (RegsBut.of_regs_eq _ rfl).wr (by simp) _, rfl⟩

theorem ring_starts {s : State} {src : Source} {r : Fin 136} (ha : Admitted s src (ringBase r + 8)) (ho : ringOn s r = false)
    (hi : ringIsIdle s r = true) :
    ∃ t, exec (.ringEnable src r) s = .next t ∧ ringOn t r = true ∧ ringIsIdle t r = false ∧ ringHead t r = 0 ∧ ringTail t r = 0 ∧
      RegsBut [ringBase r + 8, ringBase r + 0xC, ringBase r + 0x10] s t ∧
      t = { s with regs := t.regs, access := t.access, host := { s.host with busMaster := s.host.linkUp } } := by
  obtain ⟨hon, hidle, hhead, htail, hregs⟩ := ringStarted_shows (dropHeld s src (ringBase r + 8)) r
  refine ⟨_, congrArg done ?_, hon, hidle, hhead, htail, hregs.trans (RegsBut.of_regs_eq _ rfl), ?_⟩
  · refine (guarded_of_admitted ha _).trans ?_
    rw [atRegister_ringConfig]
    exact ringEnable_of_idle ho hi
  · exact ringStarted_frame (dropHeld s src (ringBase r + 8)) r

theorem ring_busy {s : State} {src : Source} {r : Fin 136} (ha : Admitted s src (ringBase r + 8))
    (h : ringOn s r = true ∨ ringIsIdle s r = false) :
    ∃ t, exec (.ringEnable src r) s = .next t ∧ t = { s with access := t.access } := by
  refine ⟨dropHeld s src (ringBase r + 8), congrArg done ?_, rfl⟩
  refine (guarded_of_admitted ha _).trans ?_
  rw [atRegister_ringConfig]
  exact ringEnable_of_busy h

theorem ring_stops {s : State} {src : Source} {r : Fin 136} (ha : Admitted s src (ringBase r + 8)) :
    ∃ t, exec (.ringDisable src r) s = .next t ∧ ringOn t r = false ∧ RegsBut [ringBase r + 8] s t ∧
      t = { s with regs := t.regs, access := t.access } := by
  refine ⟨ringDisable (dropHeld s src (ringBase r + 8)) r, congrArg done ?_, flag_setFlag_same _ _ _ _ (by decide),
    (RegsBut.of_regs_eq _ rfl).setFlag (by simp) 31 false, rfl⟩
  refine (guarded_of_admitted ha _).trans ?_
  rw [atRegister_ringConfig]

theorem ring_rests {s : State} {r : Fin 136} (h : r.val ≠ 135) (ho : ringOn s r = false) (hi : ringIsIdle s r = false)
    (hn : ringPosted s r = 0) :
    ∃ t, exec (.ringIdle r []) s = .next t ∧ settled t = settled s ∧ ringIsIdle t r = true ∧ flag t 0x9010 3 = true ∧
      RegsBut [ringBase r + 8, 0x9010] s t := by
  obtain ⟨hlo, -⟩ := ringBase_range r.isLt
  refine ⟨_, congrArg done (ringIdle_of_empty h ho hi hn), rfl, ?_, (flag_raise _ .hostIf 3 _ _ (by decide)).trans (if_pos (by decide)),
    ((RegsBut.of_regs_eq _ rfl).setFlag (by simp) 30 true).raise (by simp [show Page.hostIf.at_ 0x10 = 0x9010 from rfl]) 3⟩
  refine (congrArg (bitAt · 30) (rd_raise_other _ .hostIf 3 ?_)).trans (flag_setFlag_same _ _ _ _ (by decide))
  rw [show Page.hostIf.at_ 0x10 = 0x9010 from rfl]
  omega

/-- Settles O41: each command is the update that its lemma above names, and the clauses read it back. -/
theorem endpointAndRings : Obligations.EndpointAndRings := by
  refine ⟨fun s h => perst_asserts h, fun s h => congrArg done (if_pos h), fun s h => perst_releases h,
    fun s h => congrArg done (if_pos (congrArg (!·) h)), fun s h => endpoint_resets h, fun s => ⟨s, rfl, rfl⟩,
    fun s r v hr hl hh hv => doorbell_counts hr hl hh hv, fun s r v _ hl hh hv hr => doorbell_posts hl hh hv hr,
    fun s r v hl hh hv hlo hhi => doorbell_takes hl hh hv hlo hhi, fun s r v h => congrArg done (doorbell_of_unserved h _),
    fun s src r ha ho hi => ring_starts ha ho hi, fun s src r ha h => ring_busy ha h, fun s src r ha => ring_stops ha,
    fun s r h ho hi hn => ring_rests h ho hi hn,
    fun s r h hd => ⟨_, congrArg done (itrExpiry_of_due h hd), congrArg Ring.unsignalled (ringAt_setRing_same s r _), rfl, rfl⟩,
    fun s r h => congrArg done (itrExpiry_of_rest h), fun s src addr ha hb => qspi_starts ha hb (op := 0) (by decide) addr (.inl rfl),
    fun s src addr ha hb hs => qspi_starts ha hb (op := 1) (by decide) addr (.inr hs),
    fun s src addr ha hb hs => qspi_starts ha hb (op := 2) (by decide) addr (.inr hs),
    fun s src addr ha hb hs => qspi_refuses ha hb (op := 1) (by decide) (by decide) addr hs,
    fun s src addr ha hb hs => qspi_refuses ha hb (op := 2) (by decide) (by decide) addr hs,
    fun s src addr ha hb => ⟨congrArg done (qspi_waits ha hb 0 addr), congrArg done (qspi_waits ha hb 1 addr),
      congrArg done (qspi_waits ha hb 2 addr)⟩,
    fun s op a ok data hl h => ?_, fun s ok data hl h => ?_, fun s k level h => congrArg done (gpioLevel_of_deaf h),
    fun s k level hp hd hl => ?_⟩
  · obtain ⟨t, ht, hshows⟩ := qspiDone_shows h ok data
    exact ⟨t, (if_pos (by simp [hl])).trans (congrArg done ht), hshows⟩
  · exact (if_pos (by simp [hl])).trans (congrArg done (qspiDone_of_rest h ok data))
  · obtain ⟨t, ht, hshows⟩ := gpioEdge_shows hp hd hl
    exact ⟨t, congrArg done ht, hshows⟩

end Sys2Proof.Machine
end

section
/-! The end of a task, of an instruction and of a microword (R368, R371, R374, R380, R383): what each leaves of the sequencer and shows. -/

namespace Sys2Proof.Machine

/-! ### The end of a task (R383) -/

theorem seq_endTask (s : State) (state cause : Nat) : (endTask s state cause).seq =
    { s.seq with task := false, abort := false, routine := none, abandoned := 0, waits := 0 } := rfl

theorem regsBut_endTask (s : State) (state cause : Nat) : RegsBut [0x805C, 0x8040, 0x8010] s (endTask s state cause) := by
  have status : RegsBut [0x805C, 0x8040, 0x8010] s (wr s 0x805C (state * 2 ^ 29 + cause % 32 * 2 ^ 24 + s.seq.pc)) :=
    (RegsBut.of_regs_eq _ rfl).wr (by simp) _
  generalize hu : wr s 0x805C (state * 2 ^ 29 + cause % 32 * 2 ^ 24 + s.seq.pc) = u at status
  unfold endTask
  rw [hu]
  exact (((RegsBut.of_regs_eq _ rfl).trans status).wr (by simp) _).raise (by decide) _

/-- TASK_STATUS of the task that ends. -/
theorem rd_endTask_status (s : State) (state cause : Nat) :
    rd (endTask s state cause) 0x805C = (state * 2 ^ 29 + cause % 32 * 2 ^ 24 + s.seq.pc) % 2 ^ 32 :=
  (rd_raise_other _ .sequencer _ (by decide)).trans ((rd_setFld_other _ _ _ _ (by decide)).trans (rd_wr_same s _ _))

theorem flag_endTask (s : State) (state cause : Nat) : flag (endTask s state cause) 0x8010 (if state = 2 then 0 else 1) = true := by
  refine (flag_raise _ .sequencer _ _ _ ?_).trans (if_pos ⟨rfl, rfl⟩)
  split <;> decide

/-- STATE and CAUSE of the task that ends, its PC being an address. -/
theorem fld_endTask_status {s : State} (hpc : s.seq.pc < 2 ^ 20) {state cause : Nat} (hs : state < 8) (hc : cause < 32) :
    fld (endTask s state cause) 0x805C 31 29 = state ∧ fld (endTask s state cause) 0x805C 28 24 = cause := by
  rw [fld, fld, rd_endTask_status, bits_mod_word _ _ (by decide), bits_mod_word _ _ (by decide), bits, bits]
  omega

/-! ### A micro fault (R380) -/

/-- The registers that record a fault. -/
def faultShown (s : State) (cause : Nat) : State :=
  tally (wr (wr s 0x8044 (cause % 16 * 2 ^ 28 + bit s.seq.task * 2 ^ 27 + (match s.seq.routine with | some r => r.upc | none => 0)))
    0x8048 s.seq.pc) 0x80C8

/-- The routine ends with its fault. -/
def faultTaken (s : State) (cause : Nat) : State :=
  { faultShown s cause with seq :=
    { (faultShown s cause).seq with routine := none, abandoned := 0, waits := 0, interrupt := false } }

theorem deliverFault_eq (s : State) (cause : Nat) : deliverFault s cause =
    if (faultTaken s cause).seq.task then endTask (faultTaken s cause) 3 cause
    else report (raise (faultTaken s cause) .sequencer 3) 0x0903 .sequencer [cause] := rfl

/-- A view of neither registers nor counters is that before the fault is recorded. -/
theorem Shows.faultShown {α : Type} {F : State → α} (h : Shows F []) (s : State) (cause : Nat) : F (faultShown s cause) = F s :=
  (h.tally List.not_mem_nil _).trans ((h.word _ _ _ List.not_mem_nil).trans (h.word _ _ _ List.not_mem_nil))

theorem shows_seq : Shows State.seq [] := shows_of_rfl fun _ _ _ _ _ => rfl

theorem seq_faultTaken (s : State) (cause : Nat) :
    (faultTaken s cause).seq = { s.seq with routine := none, abandoned := 0, waits := 0, interrupt := false } := by
  rw [faultTaken, shows_seq.faultShown]

/-- What a fault leaves of the sequencer: no routine, no task, and the registers, flags and memory of the architecture as they were. -/
theorem seq_deliverFault (s : State) (cause : Nat) : (deliverFault s cause).seq =
    { s.seq with routine := none, abandoned := 0, waits := 0, interrupt := false, task := false
                 abort := if s.seq.task then false else s.seq.abort } := by
  have htaken := seq_faultTaken s cause
  rw [deliverFault_eq]
  generalize faultTaken s cause = u at htaken
  cases ht : s.seq.task with
  | true =>
    rw [if_pos (by rw [htaken, ht]), seq_endTask, htaken, if_pos rfl]
  | false =>
    rw [if_neg (by rw [htaken, ht]; decide), shows_seq.report, shows_seq.raise List.not_mem_nil, htaken, if_neg (by decide), ← ht]

theorem fault_ends (s : State) (cause : Nat) : (deliverFault s cause).seq.routine = none ∧ (deliverFault s cause).seq.task = false ∧
    (deliverFault s cause).seq.g = s.seq.g ∧ (deliverFault s cause).seq.ram = s.seq.ram := by
  rw [seq_deliverFault]
  exact ⟨rfl, rfl, rfl, rfl⟩

/-! ### The end of an instruction (R374) -/

/-- The sequencer at the boundary after an instruction. -/
def macroEnded (s : State) (pc : Nat) : State :=
  { s with seq := { s.seq with routine := none, pc := pc % 2 ^ 20 / 4 * 4, abandoned := 0, waits := 0, interrupt := false } }

theorem endMacro_eq (s : State) (pc : Nat) :
    endMacro s pc = if s.seq.task ∧ s.seq.abort then endTask (macroEnded s pc) 4 0 else macroEnded s pc := rfl

theorem endMacro_of_kept {s : State} (h : (s.seq.task && s.seq.abort) = false) (pc : Nat) : endMacro s pc = macroEnded s pc := by
  rw [endMacro_eq, if_neg]
  rintro ⟨ht, ha⟩
  rw [ht, ha] at h
  exact absurd h (by decide)

theorem endMacro_ends (s : State) (pc : Nat) : (endMacro s pc).seq.routine = none ∧ (endMacro s pc).seq.g = s.seq.g ∧
    (endMacro s pc).seq.ram = s.seq.ram := by
  rw [endMacro_eq]
  split <;> exact ⟨rfl, rfl, rfl⟩

/-! ### A microword -/

/-- A word that stands at the routine's address runs (R368). -/
theorem microRow_of_stands {s : State} {r : Routine} {u : Nat} {m : Micro} (h : Stands s r u m) (idle : Bool) :
    microRow u m idle s = runWord s r u m idle := by
  obtain ⟨hr, hw⟩ := h
  rw [microRow, hr]
  exact if_neg fun ⟨h1, h2⟩ => hw.elim (by omega) h2

theorem microRow_of_other {s : State} {r : Routine} {u : Nat} {m : Micro} (hr : s.seq.routine = some r) (hl : 8192 ≤ r.upc)
    (hw : storeWord s r.upc ≠ microBits u m) (idle : Bool) : microRow u m idle s = s := by
  rw [microRow, hr]
  exact if_pos ⟨hl, hw⟩

theorem microRow_of_rest {s : State} (h : s.seq.routine = none) (u : Nat) (m : Micro) (idle : Bool) : microRow u m idle s = s := by
  rw [microRow, h]

theorem runWord_of_faulty {r : Routine} {u c : Nat} {m : Micro} (h : wordFault r u m = some c) (s : State) (idle : Bool) :
    runWord s r u m idle = deliverFault s c := by
  rw [runWord, h]

/-- Settles O52: every row is the word of its code where it stands, and the faults of R371 come first. -/
theorem microwordsRunWhereTheyStand : Obligations.MicrowordsRunWhereTheyStand := by
  have row : ∀ {s : State} {r : Routine} {m : Micro} {u : Nat} {idle : Bool} {i : Instr},
      exec i s = done (microRow u m idle s) → Stands s r u m → ∃ t, exec i s = .next t ∧ t = runWord s r u m idle :=
    fun hi h => ⟨_, hi.trans (congrArg done (microRow_of_stands h _)), rfl⟩
  refine ⟨fun s r m => ⟨row rfl, row rfl, row rfl, row rfl, row rfl, row rfl, row rfl, row rfl, row rfl, row rfl, row rfl, row rfl, row rfl,
      row rfl, row rfl, row rfl, row rfl, row rfl, row rfl, row rfl, row rfl, row rfl, row rfl, row rfl, row rfl, row rfl, row rfl, row rfl,
      row rfl, row rfl⟩,
    fun s r u c m idle h => ⟨runWord_of_faulty h s idle, (fault_ends s c).1⟩,
    fun s r m hr hl hw => congrArg done (microRow_of_other hr hl hw true),
    fun s m h => ⟨congrArg done (microRow_of_rest h _ m true), congrArg done (microRow_of_rest h _ m true),
      congrArg done (microRow_of_rest h _ m true)⟩⟩

end Sys2Proof.Machine
end

section
/-! What the micro-ops compute (R369, R371). -/

namespace Sys2Proof.Machine

/-! ### A word that goes on -/

theorem WordStands.stands {s : State} {r : Routine} {u : Nat} {m : Micro} (h : WordStands s r u m) : Stands s r u m := ⟨h.1, h.2.1⟩

/-- A word that goes on to an address of its region leaves the routine there. -/
theorem microRow_of_goes {s : State} {r : Routine} {u : Nat} {m : Micro} (h : WordStands s r u m) {idle : Bool} {s' : State} {r' : Routine}
    {n : Int} (he : wordEffect s r u m idle = (s', r', .next n)) {k : Nat} (hk : (n % 16384).toNat = k % 16384)
    (hin : 12288 ≤ r.entry → 12288 ≤ n ∧ n < 16384) : microRow u m idle s = withRoutine s' (afterWord r r' k) := by
  obtain ⟨-, -, hfault, -⟩ := id h
  rw [microRow_of_stands h.stands, runWord, hfault, he]
  refine (if_neg (by omega)).trans ?_
  rw [hk]
  rfl

/-- A word that goes on to the next address. -/
theorem microRow_of_next {s : State} {r : Routine} {u : Nat} {m : Micro} (h : WordStands s r u m) {idle : Bool} {s' : State} {r' : Routine}
    (he : wordEffect s r u m idle = (s', r', .next (following r))) :
    microRow u m idle s = withRoutine s' (afterWord r r' (r.upc + 1)) := by
  obtain ⟨-, -, -, hregion⟩ := id h
  refine microRow_of_goes h he ?_ ?_ <;> unfold following <;> omega

/-- A branch goes where `goesTo` says. -/
theorem microRow_of_branch {s : State} {r : Routine} {u : Nat} {m : Micro} (h : WordStands s r u m) (hv : r.entry < 12288) {idle : Bool}
    {r' : Routine} {taken : Bool}
    (he : wordEffect s r u m idle = (s, r', .next (following r + (if taken then auxInt m else 0)))) :
    microRow u m idle s = withRoutine s (afterWord r r' (goesTo r m taken)) := by
  refine microRow_of_goes h he ?_ (by omega)
  unfold goesTo following
  omega

/-! ### Results -/

/-- The routine once its temporary `k` holds `v`. -/
def tempSet (r : Routine) (k : Nat) (v : BitVec 64) : Routine := { r with temps := r.temps.set k (some v) }

theorem assign_temp {k : Nat} (h : k < 16) (s : State) (r : Routine) (v : BitVec 64) : assign s r k v = some (s, tempSet r k v) := if_pos h

theorem setFlags_of_quiet {m : Micro} (hcc : m.setcc = false) (hmf : m.setmf = false) (s : State) (r : Routine) (x : AluResult) :
    setFlags s r m x = (s, r, .next (following r)) := if_pos ⟨by rw [hcc]; decide, by rw [hmf]; decide⟩

theorem yieldTo_temp {m : Micro} (hd : m.dest.val < 16) (hcc : m.setcc = false) (hmf : m.setmf = false) (s : State) (r : Routine)
    (x : AluResult) : yieldTo s r m m.dest x = (s, tempSet r m.dest x.value, .next (following r)) := by
  rw [yieldTo, assign_temp hd]
  exact setFlags_of_quiet hcc hmf _ _ _

/-- The conditions of a result, with a carry `c`. -/
def conditionsSet (r : Routine) (v : BitVec 64) (c : Bool) : Routine := { r with z := v == 0, n := v.msb, c := c }

/-- SETCC without SETMF: the routine's conditions follow the result. -/
theorem setFlags_of_setcc {m : Micro} (hcc : m.setcc = true) (hmf : m.setmf = false) (s : State) (r : Routine) (x : AluResult) :
    setFlags s r m x = ((openFlags s x).2.2, conditionsSet r x.value (openFlags s x).1, .next (following r)) := by
  unfold setFlags
  rw [if_neg (by rw [hcc]; simp)]
  generalize openFlags s x = y
  exact (if_neg (by rw [hmf]; decide)).trans (by rw [if_pos hcc]; rfl)

theorem yieldTo_of_setcc {m : Micro} (hd : m.dest.val < 16) (hcc : m.setcc = true) (hmf : m.setmf = false) (s : State) (r : Routine)
    (x : AluResult) : yieldTo s r m m.dest x =
      ((openFlags s x).2.2, conditionsSet (tempSet r m.dest x.value) x.value (openFlags s x).1, .next (following r)) := by
  rw [yieldTo, assign_temp hd]
  exact setFlags_of_setcc hcc hmf _ _ _

theorem openFlags_aluAdd (s : State) (a b : BitVec 64) :
    (openFlags s (aluAdd a b)).1 = decide (2 ^ 64 ≤ a.toNat + b.toNat) ∧ (openFlags s (aluAdd a b)).2.2 = s := ⟨rfl, rfl⟩

/-- A result for a G register outside RESTART mode is written at once. -/
theorem yieldTo_general {m : Micro} (hlo : 0x10 ≤ m.dest.val) (hhi : m.dest.val ≤ 0x12) (hcc : m.setcc = false) (hmf : m.setmf = false)
    (s : State) {r : Routine} (hr : r.restart = false) (x : AluResult) :
    yieldTo s r m m.dest x = (setG s (fieldReg r m.dest) x.value, r, .next (following r)) := by
  have hassign : assign s r m.dest x.value = some (setG s (fieldReg r m.dest) x.value, r) :=
    (if_neg (by omega)).trans ((if_pos hhi).trans (if_neg (by rw [hr]; simp)))
  rw [yieldTo, hassign]
  exact setFlags_of_quiet hcc hmf _ _ _

/-! ### Reads of data RAM, registers and tables -/

theorem buffered_of_empty {α : Type} {r : Routine} (h : r.buffer = []) (pick : SeqWrite → Option α) : buffered r pick = none := by
  rw [buffered, h]
  rfl

/-- DLD with nothing buffered reads data RAM. -/
theorem dldWord_reads {m : Micro} (hcc : m.setcc = false) (hmf : m.setmf = false) {s : State} {r : Routine} (hb : r.buffer = [])
    (ha : ramAllowed s r = true) : dldWord s r m =
      (s, { r with mdr := some (BitVec.ofNat 64 (ramRead s (marRam s r) 8)) }, .next (following r)) := by
  unfold dldWord
  rw [if_neg (by rw [ha]; decide)]
  simp only [buffered_of_empty hb]
  exact setFlags_of_quiet hcc hmf _ _ _

/-- RRD with nothing buffered reads the register at MAR. -/
theorem rrdWord_reads {m : Micro} (hcc : m.setcc = false) (hmf : m.setmf = false) {s : State} {r : Routine} (hb : r.buffer = [])
    {n : Nat} (hn : n = marOf s r % 2 ^ 26) (ht : s.seq.task = false ∨ taskReads n = true)
    (he : r.restart = false ∨ r.committed = true ∨ readEffect n = false) : rrdWord s r m =
      ((readAt s (seqSource s) n).2, { r with mdr := some (BitVec.ofNat 64 (readAt s (seqSource s) n).1) }, .next (following r)) := by
  have allowed : ¬(s.seq.task = true ∧ (!taskReads n) = true) := by rcases ht with h | h <;> simp [h]
  have restarts : ¬(r.restart = true ∧ (!r.committed) = true ∧ readEffect n = true) := by rcases he with h | h | h <;> simp [h]
  subst hn
  unfold rrdWord
  simp only [if_neg allowed, if_neg restarts, buffered_of_empty hb]
  exact setFlags_of_quiet hcc hmf _ _ _

/-- The temporaries after an entry's doublewords `f` have been read into those from `d` on. -/
def entryRead (temps : List (Option (BitVec 64))) (d n : Nat) (f : Nat → BitVec 64) : List (Option (BitVec 64)) :=
  (List.range n).foldl (fun l k => if d + k < 16 then l.set (d + k) (some (f k)) else l) temps

theorem getD_entryRead (temps : List (Option (BitVec 64))) (hl : temps.length = 16) (d n : Nat) (f : Nat → BitVec 64) :
    (entryRead temps d n f).length = 16 ∧
      ∀ j, (entryRead temps d n f).getD j none = if d ≤ j ∧ j < d + n ∧ j < 16 then some (f (j - d)) else temps.getD j none := by
  induction n with
  | zero => exact ⟨hl, fun j => (if_neg (by omega)).symm⟩
  | succ n ih =>
    obtain ⟨ihl, ihd⟩ := ih
    have step : entryRead temps d (n + 1) f =
        if d + n < 16 then (entryRead temps d n f).set (d + n) (some (f n)) else entryRead temps d n f := by
      rw [entryRead, List.range_succ, List.foldl_append]
      rfl
    rw [step]
    by_cases hn : d + n < 16
    · rw [if_pos hn]
      refine ⟨by rw [List.length_set, ihl], fun j => ?_⟩
      by_cases hj : j = d + n
      · subst hj
        rw [if_pos (by omega), Nat.add_sub_cancel_left]
        simp [List.getD_eq_getElem?_getD, ihl, hn]
      · rw [List.getD_eq_getElem?_getD, List.getElem?_set_ne (Ne.symm hj), ← List.getD_eq_getElem?_getD, ihd]
        exact if_congr (by omega) rfl rfl
    · rw [if_neg hn]
      exact ⟨ihl, fun j => (ihd j).trans (if_congr (by omega) rfl rfl)⟩

/-- Doubleword `k` of entry `i` of table `t`. -/
def entryDouble (s : State) (t i k : Nat) : BitVec 64 :=
  BitVec.ofNat 64 (bits (BitVec.ofNat 512 (entryImage s false t i)).toNat (64 * k + 63) (64 * k))

/-- TRD with nothing buffered reads the entry into the temporaries from its destination on. -/
theorem trdWord_reads {m : Micro} {s : State} {r : Routine} {n : Nat} {a : BitVec 64} (hn : n = m.aux.val % 256)
    (ha : a = operand s r m.src)
    (hb : r.buffer = []) (he : entryExists s n a.toNat = true) : trdWord s r m =
      (wakeTable s n a.toNat 1, { r with temps := entryRead r.temps m.dest (tableBytes n / 8) (entryDouble s n a.toNat) },
        .next (following r)) := by
  subst hn ha
  unfold trdWord
  rw [if_neg (by rw [he]; decide)]
  simp only [buffered_of_empty hb]
  rfl

theorem kept_wakeTable (s : State) (t first n : Nat) : (wakeTable s t first n).tabs = s.tabs ∧ (wakeTable s t first n).regs = s.regs ∧
    (wakeTable s t first n).seq = s.seq := by
  obtain ⟨htabs, -, -, -, -, -, hseq⟩ := workings_iff.mp
    (view_wakeTable (F := workings) (view_count fun _ _ => rfl) (fun _ _ => rfl) s t first n)
  exact ⟨htabs, view_wakeTable (F := State.regs) count_regs (fun _ _ => rfl) s t first n, hseq⟩

/-! ### The groups of micro-ops -/

section
variable {s : State} {r : Routine} {m : Micro} {d a : BitVec 64}

/-- A word whose result goes to a temporary. -/
theorem microRow_of_temp (hd : m.dest.val < 16) (hcc : m.setcc = false) (hmf : m.setmf = false) {u : Nat} {idle : Bool} {x : AluResult}
    (he : wordEffect s r u m idle = yieldTo s r m m.dest x) (h : WordStands s r u m) :
    microRow u m idle s = wroteTemp s r m x.value :=
  microRow_of_next h (he.trans (yieldTo_temp hd hcc hmf s r x))

variable (hd : d = operand s r m.dest) (ha : a = operand s r m.src) (hmf : m.setmf = false)
include hd ha hmf

theorem temporaries_computed (ht : m.dest.val < 16) (hcc : m.setcc = false) :
    (WordStands s r 0x01 m → ∃ t, exec (.uopMov m) s = .next t ∧ t = wroteTemp s r m a) ∧
    (WordStands s r 0x02 m → ∃ t, exec (.uopAlu .add m) s = .next t ∧ t = wroteTemp s r m (d + a)) ∧
    (WordStands s r 0x03 m → ∃ t, exec (.uopAlu .sub m) s = .next t ∧ t = wroteTemp s r m (d - a)) ∧
    (WordStands s r 0x04 m → ∃ t, exec (.uopAlu .and m) s = .next t ∧ t = wroteTemp s r m (d &&& a)) ∧
    (WordStands s r 0x05 m → ∃ t, exec (.uopAlu .or m) s = .next t ∧ t = wroteTemp s r m (d ||| a)) ∧
    (WordStands s r 0x06 m → ∃ t, exec (.uopAlu .xor m) s = .next t ∧ t = wroteTemp s r m (d ^^^ a)) ∧
    (WordStands s r 0x07 m → ∃ t, exec (.uopShift false m) s = .next t ∧ t = wroteTemp s r m (d <<< (m.aux.val % 64))) ∧
    (WordStands s r 0x08 m → ∃ t, exec (.uopShift true m) s = .next t ∧ t = wroteTemp s r m (d >>> (m.aux.val % 64))) ∧
    (WordStands s r 0x09 m → ∃ t, exec (.uopAddi m) s = .next t ∧ t = wroteTemp s r m (a + BitVec.ofInt 64 (auxInt m))) ∧
    (WordStands s r 0x0A m → ∃ t, exec (.uopLdi m) s = .next t ∧ t = wroteTemp s r m (BitVec.ofNat 64 m.aux.val)) := by
  subst hd ha
  have row : ∀ {u : Nat} {i : Instr} {x : AluResult}, exec i s = done (microRow u m true s) →
      wordEffect s r u m true = yieldTo s r m m.dest x → WordStands s r u m → ∃ t, exec i s = .next t ∧ t = wroteTemp s r m x.value :=
    fun hi he h => ⟨_, hi.trans (congrArg done (microRow_of_temp ht hcc hmf he h)), rfl⟩
  exact ⟨row (x := { value := operand s r m.src }) rfl rfl, row (x := aluOp 2 (operand s r m.dest) (operand s r m.src)) rfl rfl,
    row (x := aluOp 3 (operand s r m.dest) (operand s r m.src)) rfl rfl,
    row (x := aluOp 4 (operand s r m.dest) (operand s r m.src)) rfl rfl,
    row (x := aluOp 5 (operand s r m.dest) (operand s r m.src)) rfl rfl,
    row (x := aluOp 6 (operand s r m.dest) (operand s r m.src)) rfl rfl,
    row (x := { value := operand s r m.dest <<< (m.aux.val % 64) }) rfl rfl,
    row (x := { value := operand s r m.dest >>> (m.aux.val % 64) }) rfl rfl,
    row (x := aluAdd (operand s r m.src) (BitVec.ofInt 64 (auxInt m))) rfl rfl,
    row (x := { value := BitVec.ofNat 64 m.aux.val }) rfl rfl⟩

theorem conditions_computed (ht : m.dest.val < 16) (hcc : m.setcc = true) :
    (WordStands s r 0x02 m → microRow 0x02 m true s = withRoutine s
      (afterWord r (conditionsSet (tempSet r m.dest (d + a)) (d + a) (decide (2 ^ 64 ≤ d.toNat + a.toNat))) (r.upc + 1))) ∧
    (WordStands s r 0x03 m → ∃ c, microRow 0x03 m true s = withRoutine (drawn s)
      (afterWord r (conditionsSet (tempSet r m.dest (d - a)) (d - a) c) (r.upc + 1))) := by
  subst hd ha
  refine ⟨fun h => microRow_of_next h ?_,
    fun h => ⟨(openFlags s (aluSub (operand s r m.dest) (operand s r m.src))).1, microRow_of_next h ?_⟩⟩
  · obtain ⟨hcarry, hstate⟩ := openFlags_aluAdd s (operand s r m.dest) (operand s r m.src)
    refine (yieldTo_of_setcc ht hcc hmf s r (aluAdd (operand s r m.dest) (operand s r m.src))).trans ?_
    rw [hcarry, hstate]
    rfl
  · exact yieldTo_of_setcc ht hcc hmf s r (aluSub (operand s r m.dest) (operand s r m.src))

end

section
variable {s : State} {r : Routine} {m : Micro}

theorem branches_go (hv : r.entry < 12288) :
    (WordStands s r 0x10 m → microRow 0x10 m true s = withRoutine s (afterWord r r (goesTo r m true))) ∧
    (WordStands s r 0x11 m → microRow 0x11 m true s = withRoutine s (afterWord r r (goesTo r m r.z))) ∧
    (WordStands s r 0x12 m → microRow 0x12 m true s = withRoutine s (afterWord r r (goesTo r m (!r.z)))) ∧
    (WordStands s r 0x13 m → microRow 0x13 m true s = withRoutine s (afterWord r r (goesTo r m r.n))) ∧
    (WordStands s r 0x14 m → microRow 0x14 m true s = withRoutine s (afterWord r r (goesTo r m r.c))) :=
  ⟨fun h => microRow_of_branch h hv rfl, fun h => microRow_of_branch h hv rfl, fun h => microRow_of_branch h hv rfl,
    fun h => microRow_of_branch h hv rfl, fun h => microRow_of_branch h hv rfl⟩

theorem jump_goes (hv : r.entry < 12288) (h : WordStands s r 0x15 m) :
    microRow 0x15 m true s = withRoutine s (afterWord r r ((operand s r m.src).toNat % 16384)) := by
  refine microRow_of_goes h rfl ?_ (by omega)
  rw [bits]
  omega

theorem loop_goes (hv : r.entry < 12288) {v : BitVec 64} (hval : v = operand s r 0x18 - 1) (h : WordStands s r 0x16 m) :
    microRow 0x16 m true s = withRoutine s (afterWord r { r with loop := some v } (goesTo r m (v != 0))) := by
  subst hval
  refine microRow_of_branch h hv (Prod.ext rfl (Prod.ext rfl (congrArg WordEnd.next (congrArg (following r + ·) ?_))))
  simp

end

/-- Settles O53: each word's effect is one of the shapes above, and the routine goes on from it. -/
theorem microOpsCompute : Obligations.MicroOpsCompute := by
  intro s r m d a hd ha hmf
  refine ⟨fun h => ⟨_, congrArg done (microRow_of_next h rfl), rfl⟩, fun ht hcc => temporaries_computed hd ha hmf ht hcc,
    fun ht hcc h => ⟨_, congrArg done ((conditions_computed hd ha hmf ht hcc).1 h), rfl⟩, fun ht hcc h => ?_, fun hlo hhi hcc hr h => ?_,
    fun hv => ?_, fun hcc hb hram h => ⟨_, congrArg done (microRow_of_next h (dldWord_reads hcc hmf hb hram)), rfl⟩,
    fun hcc hb n hn ht he h => ?_, fun n hn hb hl he h => ?_, fun idle h => ⟨_, congrArg done (microRow_of_next h rfl), rfl⟩,
    fun h => ?_, fun h => ?_⟩
  · obtain ⟨c, hc⟩ := (conditions_computed hd ha hmf ht hcc).2 h
    exact ⟨_, c, congrArg done hc, rfl⟩
  · exact ⟨_, congrArg done (microRow_of_next h (yieldTo_general hlo hhi hcc hmf s hr _)), by rw [ha]⟩
  · obtain ⟨hbr, hbz, hbnz, hbn, hbc⟩ := branches_go (s := s) (m := m) hv
    exact ⟨fun h => ⟨_, congrArg done (hbr h), rfl⟩, fun h => ⟨_, congrArg done (hbz h), rfl⟩, fun h => ⟨_, congrArg done (hbnz h), rfl⟩,
      fun h => ⟨_, congrArg done (hbn h), rfl⟩, fun h => ⟨_, congrArg done (hbc h), rfl⟩,
      fun h => ⟨_, congrArg done (jump_goes hv h), by rw [ha]⟩, fun v hval h => ⟨_, congrArg done (loop_goes hv hval h), rfl⟩⟩
  · obtain ⟨htabs, hqueues, -, -, -, -, hseq⟩ := workings_iff.mp (workings_readAt s (seqSource s) n)
    exact ⟨_, congrArg done (microRow_of_next h (rrdWord_reads hcc hmf hb hn ht he)), rfl, htabs, hqueues, (congrArg Seq.g hseq :),
      (congrArg Seq.ram hseq :)⟩
  · obtain ⟨htabs, hregs, hseq⟩ := kept_wakeTable s n a.toNat 1
    obtain ⟨-, hread⟩ := getD_entryRead r.temps hl m.dest (tableBytes n / 8) (entryDouble s n a.toNat)
    refine ⟨_, _, congrArg done (microRow_of_next h (trdWord_reads hn ha hb he)), rfl, htabs, hregs, (congrArg Seq.g hseq :),
      fun k hk hk16 => ?_, fun j hj => ?_⟩
    · refine (hread _).trans ((if_pos (by omega)).trans ?_)
      rw [Nat.add_sub_cancel_left]
      rfl
    · exact (hread j).trans (if_neg (by omega))
  · obtain ⟨-, -, hfault, -⟩ := id h
    have hend : microRow 0x31 m true s = endMacro s (s.seq.pc + 4) := by
      rw [microRow_of_stands h.stands, runWord, hfault]
      rfl
    obtain ⟨hroutine, hg, hram⟩ := endMacro_ends s (s.seq.pc + 4)
    refine ⟨_, congrArg done hend, rfl, hroutine, hg, hram, fun hk => ?_⟩
    rw [endMacro_of_kept hk]
    exact ⟨rfl, rfl⟩
  · obtain ⟨-, -, hfault, -⟩ := id h
    have hend : microRow 0x32 m true s = deliverFault s (m.aux.val % 256) := by
      rw [microRow_of_stands h.stands, runWord, hfault]
      rfl
    obtain ⟨hroutine, -, hg, hram⟩ := fault_ends s (m.aux.val % 256)
    exact ⟨_, congrArg done hend, rfl, hroutine, hg, hram⟩

end Sys2Proof.Machine
end

section
/-! RESTART and BOUNDARY mode (R375 to R378): the buffer, data RAM, COMMIT and interrupts. -/

namespace Sys2Proof.Machine

/-! ### Data RAM (R365) -/

/-- A byte after a store that stays below the end of data RAM. -/
theorem ramByte_ramWrite (s : State) {a n : Nat} (h : a + n ≤ 2 ^ 20) (v b : Nat) : ramByte (ramWrite s a n v) b =
    if a ≤ b % 2 ^ 20 ∧ b % 2 ^ 20 < a + n then BitVec.ofNat 8 (v / 256 ^ (b % 2 ^ 20 - a)) else ramByte s b := by
  induction n with
  | zero => exact (if_neg (by omega)).symm
  | succ n ih =>
    have step : ramByte (ramWrite s a (n + 1) v) b =
        if b % 2 ^ 20 = (a + n) % 2 ^ 20 then BitVec.ofNat 8 (v / 256 ^ n) else ramByte (ramWrite s a n v) b := by
      have hram : (ramWrite s a (n + 1) v).seq.ram =
          sset (fun _ => 0) (ramWrite s a n v).seq.ram ((a + n) % 2 ^ 20) (BitVec.ofNat 8 (v / 256 ^ n)) := by
        simp only [ramWrite, List.range_succ, List.foldl_append, List.foldl_cons, List.foldl_nil]
      rw [ramByte, hram, sget_sset]
      rfl
    rw [step, ih (by omega), Nat.mod_eq_of_lt (show a + n < 2 ^ 20 by omega)]
    by_cases hb : b % 2 ^ 20 = a + n
    · rw [if_pos hb, if_pos (by omega), hb, Nat.add_sub_cancel_left]
    · rw [if_neg hb]
      exact if_congr (by omega) rfl rfl

theorem leNat_leBytes (n v : Nat) : leNat (leBytes n v) = v % 256 ^ n := by
  induction n generalizing v with
  | zero => rw [Nat.pow_zero, Nat.mod_one]; rfl
  | succ n ih =>
    have split : leBytes (n + 1) v = BitVec.ofNat 8 v :: leBytes n (v / 256) := by
      rw [leBytes, List.range_succ_eq_map, List.map_cons, List.map_map, leBytes, Nat.pow_zero, Nat.div_one]
      refine congrArg (_ :: ·) (List.map_congr_left fun i _ => ?_)
      rw [Function.comp, Nat.pow_succ', Nat.div_div_eq_div_mul]
    rw [split, leNat, ih, BitVec.toNat_ofNat]
    exact (by rw [Nat.pow_succ', Nat.mod_mul] : v % 256 ^ (n + 1) = v % 256 + 256 * (v / 256 % 256 ^ n)).symm

/-- Words stored in data RAM read back. -/
theorem ramRead_ramWrite (s : State) {a n : Nat} (h : a + n ≤ 2 ^ 20) (v : Nat) : ramRead (ramWrite s a n v) a n = v % 256 ^ n := by
  rw [ramRead, ← leNat_leBytes, leBytes]
  refine congrArg leNat (List.map_congr_left fun i hi => ?_)
  have hi := List.mem_range.mp hi
  rw [ramByte_ramWrite s h, Nat.mod_eq_of_lt (show a + i < 2 ^ 20 by omega), if_pos (by omega), Nat.add_sub_cancel_left]

theorem marRam_room (s : State) (r : Routine) : marRam s r + 8 ≤ 2 ^ 20 := by
  unfold marRam
  omega

/-! ### The write buffer (R375, R376) -/

theorem store_of_restart {r : Routine} (hr : r.restart = true) (hc : r.committed = false) (hl : r.buffer.length < 16) (s : State)
    (w : SeqWrite) : store s r w = (s, { r with buffer := r.buffer ++ [w] }, .next (following r)) := by
  have h : archWrite s r w = some (s, { r with buffer := r.buffer ++ [w] }) :=
    (if_pos ⟨hr, by rw [hc]; decide⟩).trans (if_neg (by omega))
  rw [store, h]
  rfl

theorem store_of_full {r : Routine} (hr : r.restart = true) (hc : r.committed = false) (hl : 16 ≤ r.buffer.length) (s : State)
    (w : SeqWrite) : store s r w = (s, r, .fault 4) := by
  have h : archWrite s r w = none := (if_pos ⟨hr, by rw [hc]; decide⟩).trans (if_pos hl)
  rw [store, h]

theorem store_of_boundary {r : Routine} (hr : r.restart = false) (s : State) (w : SeqWrite) :
    store s r w = (applyWrite s w, r, .next (following r)) := by
  have h : archWrite s r w = some (applyWrite s w, r) := if_neg (by rw [hr]; simp)
  rw [store, h]

section
variable {s : State} {r : Routine} {u : Nat} {m : Micro}

/-- A word that writes before COMMIT only fills the buffer. -/
theorem microRow_buffers (hr : r.restart = true) (hc : r.committed = false) (hl : r.buffer.length < 16) (h : WordStands s r u m)
    {w : SeqWrite} (he : wordEffect s r u m true = store s r w) : microRow u m true s = buffers s r w :=
  microRow_of_next h (he.trans (store_of_restart hr hc hl s w))

/-- A word that writes in BOUNDARY mode writes at once. -/
theorem microRow_writes (hr : r.restart = false) (h : WordStands s r u m) {w : SeqWrite} (he : wordEffect s r u m true = store s r w) :
    microRow u m true s = withRoutine (applyWrite s w) (afterWord r r (r.upc + 1)) :=
  microRow_of_next h (he.trans (store_of_boundary hr s w))

/-- A word that ends in a fault. -/
theorem microRow_of_fault (h : WordStands s r u m) {idle : Bool} {s' : State} {r' : Routine} {c : Nat}
    (he : wordEffect s r u m idle = (s', r', .fault c)) : microRow u m idle s = deliverFault s' c := by
  obtain ⟨-, -, hfault, -⟩ := id h
  rw [microRow_of_stands h.stands, runWord, hfault, he]

theorem dst_stores (ha : ramAllowed s r = true) (idle : Bool) :
    wordEffect s r 0x21 m idle = store s r (.ram (marRam s r) (operand s r m.src)) := if_pos ha

theorem rwr_stores (ht : s.seq.task = false ∨ taskWrites (marOf s r % 2 ^ 26) = true) (idle : Bool) :
    wordEffect s r 0x23 m idle = store s r (.device (marOf s r % 2 ^ 26) ((operand s r m.src).setWidth 32)) :=
  if_neg (fun ⟨h1, h2⟩ => ht.elim (fun h => Bool.false_ne_true (h.symm.trans h1))
    fun h => Bool.false_ne_true ((congrArg (!·) h).symm.trans h2))

theorem dma_stores {ws : List Nat} (hw : ws = (List.range 4).map fun k => (operand s r (12 + k)).toNat)
    (ht : s.seq.task = false ∨ (bitAt m.aux.val 0 = false ∧ dmaAllowed s ws = true)) (idle : Bool) :
    wordEffect s r 0x26 m idle = store s r (.dma (bitAt m.aux.val 0) ws) := by
  subst hw
  exact if_neg fun ⟨h1, h2⟩ => ht.elim (fun h => Bool.false_ne_true (h.symm.trans h1))
    fun ⟨h3, h4⟩ => h2.elim (fun h => Bool.false_ne_true (h3.symm.trans h)) fun h => Bool.false_ne_true ((congrArg (!·) h4).symm.trans h)

/-- The value that TWR writes: consecutive temporaries from its destination on. -/
def twrValue (s : State) (r : Routine) (m : Micro) : Nat :=
  (List.range (tableBytes (m.aux.val % 256) / 8)).foldl (fun n k =>
    n + (if m.dest.val + k < 16 then (operand s r (m.dest.val + k)).toNat else 0) * 2 ^ (64 * k)) 0

theorem twr_stores {n : Nat} (hn : n = m.aux.val % 256) (he : entryExists s n (operand s r m.src).toNat = true)
    (ht : s.seq.task = false ∨ (n ≠ 2 ∧ tableReadOnly n = false)) (idle : Bool) :
    wordEffect s r 0x25 m idle = store s r (.table n (operand s r m.src).toNat (BitVec.ofNat 512 (twrValue s r m))) := by
  subst hn
  refine (if_neg fun h => Bool.false_ne_true ((congrArg (!·) he).symm.trans h)).trans (if_neg fun ⟨h1, h2⟩ => ?_)
  exact ht.elim (fun h => Bool.false_ne_true (h.symm.trans h1))
    fun ⟨h3, h4⟩ => h2.elim h3 fun h => Bool.false_ne_true (h4.symm.trans h)

end

/-- The lowest doubleword of a sum of doublewords. -/
theorem mod_sumDoubles (f : Nat → Nat) {n : Nat} (hn : 0 < n) :
    (List.range n).foldl (fun a k => a + f k * 2 ^ (64 * k)) 0 % 2 ^ 64 = f 0 % 2 ^ 64 := by
  induction n with
  | zero => exact absurd hn (by omega)
  | succ n ih =>
    rw [List.range_succ, List.foldl_append, List.foldl_cons, List.foldl_nil]
    cases n with
    | zero => simp
    | succ n =>
      rw [show 64 * (n + 1) = 64 * n + 64 by omega, Nat.pow_add, ← Nat.mul_assoc, Nat.add_mul_mod_self_right]
      exact ih (by omega)

theorem tableBytes_double {t : Nat} (h : t ≤ 0x19) : 0 < tableBytes t / 8 := by
  have all : ∀ t < 26, 0 < tableBytes t / 8 := by decide
  exact all t (by omega)

theorem entryExists_listed {s : State} {t i : Nat} (h : entryExists s t i = true) : t ≤ 0x19 := by
  simp only [entryExists, Bool.and_eq_true, decide_eq_true_eq] at h
  exact h.1

theorem bits_twrValue {s : State} {r : Routine} {m : Micro} (hd : m.dest.val < 16) (ht : m.aux.val % 256 ≤ 0x19) :
    bits (BitVec.ofNat 512 (twrValue s r m)).toNat 63 0 = (operand s r m.dest).toNat := by
  have low := mod_sumDoubles (fun k => if m.dest.val + k < 16 then (operand s r (m.dest.val + k)).toNat else 0) (tableBytes_double ht)
  rw [bits_zero_eq_mod, BitVec.toNat_ofNat, Nat.mod_mod_of_dvd _ (Nat.pow_dvd_pow 2 (show 64 ≤ 512 by decide))]
  exact (low.trans (by rw [if_pos (by omega)]; rfl)).trans (Nat.mod_eq_of_lt (operand s r m.dest).isLt)

/-! ### Abandoned routines (R377, R378) -/

/-- Routine `r` at its first word again, under a new draw. -/
def startedAgain (s : State) (r : Routine) : Routine :=
  { entry := r.entry, upc := r.entry, word := r.word, opcode := r.opcode, restart := r.restart, seed := s.freeCount }

theorem restartRoutine_eq (s : State) (r : Routine) : ∃ c, restartRoutine s r =
    { s with counters := c, freeCount := s.freeCount + 1, seq := { s.seq with routine := some (startedAgain s r) } } := by
  obtain ⟨c, hc⟩ : ∃ c, count s 25 1 = { s with counters := c } := ⟨_, count_frame s 25 1⟩
  refine ⟨c, ?_⟩
  rw [restartRoutine, hc]
  rfl

theorem interrupt_of_routine {s : State} {r : Routine} (hs : seqRuns s = true) (hr : s.seq.routine = some r) : interrupt s =
    if r.restart ∧ !r.committed ∧ s.seq.abandoned < 8 then
      { restartRoutine s r with
        seq := { (restartRoutine s r).seq with abandoned := (restartRoutine s r).seq.abandoned + 1 } }
    else { s with seq := { s.seq with interrupt := true } } := by
  rw [interrupt, if_neg (by rw [hs]; decide), hr]

/-- An interrupt before COMMIT abandons the routine and changes nothing else of the architecture (R377). -/
theorem interrupt_abandons {s : State} {r : Routine} (hs : seqRuns s = true) (hr : s.seq.routine = some r) (hm : r.restart = true)
    (hc : r.committed = false) (ha : s.seq.abandoned < 8) : ∃ c, interrupt s =
      { s with
        counters := c, freeCount := s.freeCount + 1
        seq := { s.seq with routine := some (startedAgain s r), abandoned := s.seq.abandoned + 1 } } := by
  obtain ⟨c, h⟩ := restartRoutine_eq s r
  refine ⟨c, ?_⟩
  rw [interrupt_of_routine hs hr, if_pos ⟨hm, by rw [hc]; decide, ha⟩, h]

theorem interrupt_waits {s : State} {r : Routine} (hs : seqRuns s = true) (hr : s.seq.routine = some r)
    (h : r.restart = false ∨ r.committed = true ∨ 8 ≤ s.seq.abandoned) :
    interrupt s = { s with seq := { s.seq with interrupt := true } } := by
  rw [interrupt_of_routine hs hr, if_neg]
  rintro ⟨h1, h2, h3⟩
  rcases h with h | h | h
  · exact Bool.false_ne_true (h.symm.trans h1)
  · exact Bool.false_ne_true ((congrArg (!·) h).symm.trans h2)
  · omega

/-- COMMIT cannot follow COMMIT (R376). -/
theorem wordFault_recommit {r : Routine} (m : Micro) (hc : r.committed = true) (ha : r.after < 64) (hd : m.dest.val < 0x1A)
    (hs : m.src.val < 0x1A) : wordFault r 0x30 m = some 5 := by
  unfold wordFault
  rw [if_neg (by simp [uopListed]; omega), if_neg (by omega), if_pos ⟨hc, .inr (.inr (.inl rfl))⟩]

theorem commit_drains {s : State} {r : Routine} {m : Micro} (hr : r.restart = true) (h : WordStands s r 0x30 m) :
    microRow 0x30 m true s = withRoutine (r.buffer.foldl applyWrite s)
      (afterWord r { r with buffer := [], committed := true, after := 0 } (r.upc + 1)) :=
  microRow_of_next h (if_pos hr)

theorem commit_idle {s : State} {r : Routine} {m : Micro} (hr : r.restart = false) (h : WordStands s r 0x30 m) :
    microRow 0x30 m true s = withRoutine s (afterWord r r (r.upc + 1)) :=
  microRow_of_next h (if_neg (by rw [hr]; decide))

/-- Settles O54: a word that writes is one `store`, which fills the buffer, overflows it or acts at once. -/
theorem restartRoutinesChangeNothingBeforeCommit : Obligations.RestartRoutinesChangeNothingBeforeCommit := by
  refine ⟨fun s r m hr hc hl h ha => ⟨_, congrArg done (microRow_buffers hr hc hl h (dst_stores ha _)), rfl⟩,
    fun s r m hr hc hl h ht => ⟨_, congrArg done (microRow_buffers hr hc hl h (rwr_stores ht _)), rfl⟩,
    fun s r m n hr hc hl h hn he ht => ⟨_, _, congrArg done (microRow_buffers hr hc hl h (twr_stores hn he ht _)), rfl,
      fun hd => bits_twrValue hd (hn ▸ entryExists_listed he)⟩,
    fun s r m ws hr hc hl h hw ht => ⟨_, congrArg done (microRow_buffers hr hc hl h (dma_stores hw ht _)), rfl⟩,
    fun s r m hr hc hl h ha => ?_, fun s r m hr h => ⟨_, congrArg done (commit_drains hr h), rfl⟩,
    fun s r m hr h => ⟨_, congrArg done (commit_idle hr h), rfl⟩, fun s r m hr h ha => ?_,
    fun s r m hr h ht => ⟨_, congrArg done (microRow_writes hr h (rwr_stores ht _)), rfl⟩,
    fun s r m n hr h hn he ht => ⟨_, _, congrArg done (microRow_writes hr h (twr_stores hn he ht _)), rfl,
      fun hd => bits_twrValue hd (hn ▸ entryExists_listed he)⟩,
    fun s r m ws hr h hw ht => ⟨_, congrArg done (microRow_writes hr h (dma_stores hw ht _)), rfl, rfl⟩,
    fun s r m ht hb h => ?_, fun s r hs hr hm hc ha => ?_, fun s r hs hr h => congrArg done (interrupt_waits hs hr h),
    fun r m hc ha hd hs => wordFault_recommit m hc ha hd hs⟩
  · refine ⟨_, congrArg done (microRow_of_fault h ((dst_stores ha true).trans (store_of_full hr hc hl s _))), rfl, ?_⟩
    obtain ⟨-, -, -, hram⟩ := fault_ends s 4
    exact hram
  · refine ⟨_, congrArg done (microRow_writes hr h (dst_stores ha _)), rfl, ?_⟩
    exact (ramRead_ramWrite s (marRam_room s r) _).trans (Nat.mod_eq_of_lt (operand s r m.src).isLt)
  · have hfault : wordEffect s r 0x26 m true = (s, r, .fault 8) := if_pos ⟨ht, .inl hb⟩
    obtain ⟨-, htask, -⟩ := fault_ends s 8
    exact ⟨_, congrArg done (microRow_of_fault h hfault), rfl, htask⟩
  · obtain ⟨c, hc'⟩ := interrupt_abandons hs hr hm hc ha
    exact ⟨_, congrArg done hc', rfl, rfl, rfl, rfl, rfl, rfl, rfl, rfl⟩

end Sys2Proof.Machine
end

section
/-! Macro-instructions (R365 to R367, R373, R374, R381, R385): registers and flags, dispatch, and the run of a customer instruction. -/

namespace Sys2Proof.Machine

/-! ### Registers and flags (R365) -/

/-- The G registers after a write of G_k. -/
def gSet (s : State) (k : Nat) (v : BitVec 64) : Sparse (BitVec 64) := if k = 0 then s.seq.g else sset (fun _ => 0) s.seq.g k v

theorem setG_eq (s : State) (k : Nat) (v : BitVec 64) : setG s k v = { s with seq := { s.seq with g := gSet s k v } } := by
  unfold setG gSet
  split <;> rfl

theorem gReg_setG (s : State) (k : Nat) (v : BitVec 64) (j : Nat) :
    gReg (setG s k v) j = if j = k then (if k = 0 then 0 else v) else gReg s j := by
  rw [setG_eq]
  unfold gReg gSet
  by_cases hk : k = 0
  · subst hk
    by_cases hj : j = 0 <;> simp [hj]
  · by_cases hj : j = 0
    · simp [hj, Ne.symm hk]
    · simp [hk, hj, sget_sset]

/-- The bits of MFLAGS in their order (log 26). -/
theorem bitAt_flagsOf (v : BitVec 64) (c o : Bool) :
    bitAt (flagsOf v c o) 3 = (v == 0) ∧ bitAt (flagsOf v c o) 2 = v.msb ∧ bitAt (flagsOf v c o) 0 = o := by
  have all : ∀ z n c o : Bool, bitAt (bit z * 8 + bit n * 4 + bit c * 2 + bit o) 3 = z ∧
      bitAt (bit z * 8 + bit n * 4 + bit c * 2 + bit o) 2 = n ∧ bitAt (bit z * 8 + bit n * 4 + bit c * 2 + bit o) 0 = o := by decide
  exact all _ _ _ _

theorem openFlags_draws (s : State) (x : AluResult) : ∃ f, (openFlags s x).2.2 = { s with freeCount := f } := by
  unfold openFlags
  dsimp only
  split
  · exact ⟨s.freeCount, rfl⟩
  · exact ⟨s.freeCount + 1, rfl⟩

/-! ### An instruction with a result (R366, R367) -/

theorem macroResult_eq (s : State) (d : Nat) (x : AluResult) : macroResult s d x =
    endMacro (setMacroFlags (setG (openFlags s x).2.2 d x.value) (flagsOf x.value (openFlags s x).1 (openFlags s x).2.1))
      ((setMacroFlags (setG (openFlags s x).2.2 d x.value)
        (flagsOf x.value (openFlags s x).1 (openFlags s x).2.1)).seq.pc + 4) := rfl

/-- What an instruction with result `x` for G_d leaves (R365, R366). -/
theorem macroResult_writes {s : State} (hk : (s.seq.task && s.seq.abort) = false) (d : Nat) (x : AluResult) :
    ∃ t, macroResult s d x = t ∧ gReg t d = (if d = 0 then 0 else x.value) ∧ (∀ k, k ≠ d → gReg t k = gReg s k) ∧
      t.seq.z = (x.value == 0) ∧ t.seq.n = x.value.msb ∧ (∀ o, x.overflow = some o → t.seq.v = o) ∧
      t.seq.pc = (s.seq.pc + 4) % 2 ^ 20 / 4 * 4 ∧ t.seq.ram = s.seq.ram ∧ t = { s with seq := t.seq, freeCount := t.freeCount } := by
  obtain ⟨f, hf⟩ := openFlags_draws s x
  have hover : ∀ o, x.overflow = some o → (openFlags s x).2.1 = o := fun o ho => by rw [openFlags, ho]; rfl
  rw [macroResult_eq, hf]
  generalize (openFlags s x).2.1 = o at hover
  generalize (openFlags s x).1 = c
  obtain ⟨hz, hn, hv⟩ := bitAt_flagsOf x.value c o
  have hg := gReg_setG { s with freeCount := f } d x.value
  rw [setG_eq] at hg ⊢
  refine ⟨_, endMacro_of_kept (by exact hk) _, (hg d).trans (if_pos rfl), fun k hk => (hg k).trans (if_neg hk), hz, hn,
    fun o' ho => hv.trans (hover o' ho), rfl, rfl, rfl⟩

/-- The opcode of a word. -/
theorem opcode_of_word {op rest : Nat} (ho : op < 256) (hr : rest < 2 ^ 24) : bits (op * 2 ^ 24 + rest) 31 24 = op := by
  rw [bits]
  omega

/-- An instruction that stands at PC and whose dispatch raises no fault acts (R374). -/
theorem macroRow_acts {s : State} (hb : atBoundary s = true) {word op rest : Nat} (hw : word = op * 2 ^ 24 + rest) (hf : fetched s = word)
    (ho : op < 256) (hr : rest < 2 ^ 24) (hd : dispatchFault s op = none) (act : State → State) : macroRow word s act = act s := by
  subst hw
  rw [macroRow, opcode_of_word ho hr, hd, if_neg]
  rintro (h | h)
  · exact Bool.false_ne_true ((congrArg (!·) hb).symm.trans h)
  · exact h hf

/-- The signed difference overflows exactly when it is not the value of the difference. -/
theorem outOfRange_sub (a b : BitVec 64) : outOfRange (a.toInt - b.toInt) = (a.toInt - b.toInt != (a - b).toInt) := by
  have hval : (a - b).toInt = (a.toInt - b.toInt).bmod (2 ^ 64) := BitVec.toInt_sub
  have hlo := (a - b).le_toInt
  have hhi := (a - b).toInt_lt
  rw [Bool.eq_iff_iff, bne_iff_ne, outOfRange, Bool.or_eq_true, decide_eq_true_eq, decide_eq_true_eq]
  constructor
  · omega
  · intro h
    by_contra hn
    exact h (by rw [hval, Int.bmod_eq_of_le (by omega) (by omega)])

/-! ### BNZ and HALT -/

theorem bnz_goes (pc : Nat) (step : Int) : ((((((pc : Int) + step) % 2 ^ 20).toNat) % 2 ^ 20 / 4 * 4 : Nat) : Int) =
    ((pc : Int) + step) % 2 ^ 20 / 4 * 4 := by
  omega

theorem haltTask_of_task {s : State} (h : s.seq.task = true) : haltTask s = endTask (wr s 0x8070 ((gReg s 1).toNat % 2 ^ 32)) 2 0 :=
  if_pos h

/-! ### Dispatch (R373, R374) -/

theorem dispatch_of_fault {s : State} {c : Nat} (h : dispatchFault s (bits (fetched s) 31 24) = some c) :
    dispatch s = deliverFault s c := by
  unfold dispatch
  simp only [h]

/-- The routine of the instruction at PC. -/
def routineAtPc (s : State) : Routine := freshRoutine s (fetched s) (bits (fetched s) 31 24)

/-- The instruction at PC has started its routine. -/
def dispatched (s : State) : State := { drawn s with seq := { s.seq with routine := some (routineAtPc s) } }

theorem dispatch_of_good {s : State} (h : dispatchFault s (bits (fetched s) 31 24) = none) : dispatch s = dispatched s := by
  unfold dispatch
  simp only [h]
  rfl

/-! ### Customer instructions (R368, R385) -/

/-- The 32 bits of a word give back its code and its fields. -/
theorem microOf_microBits {u : Nat} (h : u < 128) (m : Micro) : microOf (microBits u m) = (u, m) := by
  obtain ⟨dest, src, aux, dwell, setcc, setmf⟩ := m
  have hcc : bit setcc < 2 := by cases setcc <;> decide
  have hmf : bit setmf < 2 := by cases setmf <;> decide
  have hd := dest.isLt
  have hs := src.isLt
  have ha := aux.isLt
  have hw := dwell.isLt
  unfold microOf microBits
  simp only [bits, bitAt]
  refine Prod.ext (by dsimp only; omega) ?_
  simp only [Micro.mk.injEq]
  refine ⟨Fin.ext ?_, Fin.ext ?_, Fin.ext ?_, Fin.ext ?_, ?_, ?_⟩
  · simp only [Fin.ofNat]; omega
  · simp only [Fin.ofNat]; omega
  · simp only [Fin.ofNat]; omega
  · simp only [Fin.ofNat]; omega
  · exact (congrArg (· == 1) (show _ = bit setcc by omega)).trans (by cases setcc <;> rfl)
  · exact (congrArg (· == 1) (show _ = bit setmf by omega)).trans (by cases setmf <;> rfl)

theorem runRoutine_of_rest {s : State} (h : s.seq.routine = none) (n : Nat) : runRoutine n s = s := by
  cases n with
  | zero => rfl
  | succ n => rw [runRoutine, h]

theorem runRoutine_of_rom {s : State} {r : Routine} (h : s.seq.routine = some r) (hr : r.upc < 8192) (n : Nat) : runRoutine n s = s := by
  cases n with
  | zero => rfl
  | succ n =>
    rw [runRoutine, h]
    exact if_pos hr

theorem runRoutine_succ {s : State} {r : Routine} (h : s.seq.routine = some r) (hr : 8192 ≤ r.upc) (n : Nat) : runRoutine (n + 1) s =
    runRoutine n (runWord s r (microOf (storeWord s r.upc)).1 (microOf (storeWord s r.upc)).2 true) := by
  rw [runRoutine, h]
  exact if_neg (by omega)

theorem runCustomer_of_boundary {s : State} (ht : s.seq.task = true) (hb : atBoundary s = true) (ho : 0xE0 ≤ bits (fetched s) 31 24) :
    runCustomer s = runRoutine 4096 (dispatch s) := by
  rw [runCustomer, if_neg (by rw [ht]; decide), if_pos hb, if_pos ho]

theorem runCustomer_of_routine {s : State} {r : Routine} (ht : s.seq.task = true) (hr : s.seq.routine = some r) :
    runCustomer s = runRoutine 4096 s := by
  rw [runCustomer, if_neg (by rw [ht]; decide), if_neg (by rw [atBoundary, hr]; simp)]

theorem runCustomer_of_end {s : State} {m : Micro} {e : Nat} (ht : s.seq.task = true) (ha : s.seq.abort = false)
    (hb : atBoundary s = true) (ho : 0xE0 ≤ bits (fetched s) 31 24) (hd : dispatchFault s (bits (fetched s) 31 24) = none)
    (he : e = bits (dispatchEntry s (bits (fetched s) 31 24)) 13 0) (hl : 12288 ≤ e) (hw : storeWord s e = microBits 0x31 m)
    (hdest : m.dest.val < 0x1A) (hsrc : m.src.val < 0x1A) :
    runCustomer s = macroEnded (drawn s) (s.seq.pc + 4) := by
  have hupc : 8192 ≤ (routineAtPc s).upc := (by omega : 8192 ≤ e).trans (le_of_eq he)
  have hword : microOf (storeWord (dispatched s) (routineAtPc s).upc) = (0x31, m) := by
    rw [← microOf_microBits (by decide) m, ← hw, he]
    rfl
  have hfault : wordFault (routineAtPc s) 0x31 m = none := by
    unfold wordFault
    rw [if_neg (by simp [uopListed]; omega), if_neg (by simp [routineAtPc, freshRoutine]), if_neg (by simp [routineAtPc, freshRoutine]),
      if_neg (by simp [routineAtPc, freshRoutine])]
  have hrun : runWord (dispatched s) (routineAtPc s) 0x31 m true = macroEnded (drawn s) (s.seq.pc + 4) := by
    rw [runWord, hfault]
    exact endMacro_of_kept (s := dispatched s) (show (s.seq.task && s.seq.abort) = false by rw [ha, Bool.and_false]) (s.seq.pc + 4)
  rw [runCustomer_of_boundary ht hb ho, dispatch_of_good hd, runRoutine_succ rfl hupc 4095, hword, hrun]
  exact runRoutine_of_rest rfl 4095

/-! ### The instructions of the spec (R367, R381) -/

theorem mov_writes {s : State} {d a : Fin 32} (hb : atBoundary s = true) (hf : fetched s = 0x01 * 2 ^ 24 + d.val * 2 ^ 19 + a.val * 2 ^ 14)
    (hd : dispatchFault s 0x01 = none) : exec (.mov d a) s = .next (macroResult s d { value := gReg s a }) :=
  congrArg done (macroRow_acts hb (Nat.add_assoc _ _ _) hf (by decide) (by omega) hd _)

theorem sub_writes {s : State} {d a b : Fin 32} (hb : atBoundary s = true)
    (hf : fetched s = 0x03 * 2 ^ 24 + d.val * 2 ^ 19 + a.val * 2 ^ 14 + b.val * 2 ^ 9) (hd : dispatchFault s 0x03 = none) :
    exec (.sub d a b) s = .next (macroResult s d (aluSub (gReg s a) (gReg s b))) :=
  congrArg done (macroRow_acts hb (rest := d.val * 2 ^ 19 + a.val * 2 ^ 14 + b.val * 2 ^ 9) (by omega) hf (by decide) (by omega) hd _)

theorem ldi_writes {s : State} {d : Fin 32} {v : BitVec 14} (hb : atBoundary s = true)
    (hf : fetched s = 0x09 * 2 ^ 24 + d.val * 2 ^ 19 + v.toNat) (hd : dispatchFault s 0x09 = none) :
    exec (.ldi d v) s = .next (macroResult s d { value := v.setWidth 64 }) :=
  congrArg done (macroRow_acts hb (Nat.add_assoc _ _ _) hf (by decide) (by omega) hd _)

theorem bnz_branches {s : State} {o : BitVec 24} (hb : atBoundary s = true) (hf : fetched s = 0x52 * 2 ^ 24 + o.toNat)
    (hd : dispatchFault s 0x52 = none) : exec (.bnz o) s =
      .next (endMacro s (((s.seq.pc : Int) + (if s.seq.z = true then 4 else 4 + 4 * o.toInt)) % 2 ^ 20).toNat) :=
  congrArg done (macroRow_acts hb rfl hf (by decide) o.isLt hd _)

theorem halt_halts {s : State} (hb : atBoundary s = true) (hf : fetched s = 0x5F * 2 ^ 24) (hd : dispatchFault s 0x5F = none) :
    exec .halt s = .next (haltTask s) :=
  congrArg done (macroRow_acts hb (rest := 0) rfl hf (by decide) (by decide) hd _)

/-- The zero-extension of an immediate. -/
theorem setWidth_imm (v : BitVec 14) : (v.setWidth 64 == 0) = (v == 0) ∧ (v.setWidth 64).msb = false := by
  have hnat : (v.setWidth 64).toNat = v.toNat := by
    rw [BitVec.toNat_setWidth, Nat.mod_eq_of_lt (by omega)]
  refine ⟨?_, ?_⟩
  · rw [Bool.eq_iff_iff, beq_iff_eq, beq_iff_eq, ← BitVec.toNat_inj, ← BitVec.toNat_inj, hnat]
    rfl
  · rw [BitVec.msb_eq_decide, hnat, decide_eq_false_iff_not]
    omega

theorem task_halts {s : State} (hb : atBoundary s = true) (hf : fetched s = 0x5F * 2 ^ 24) (hd : dispatchFault s 0x5F = none)
    (ht : s.seq.task = true) (hpc : s.seq.pc < 2 ^ 20) :
    ∃ t, exec .halt s = .next t ∧ t.seq.task = false ∧ rd t 0x8070 = (gReg s 1).toNat % 2 ^ 32 ∧ fld t 0x805C 31 29 = 2 ∧
      flag t 0x8010 0 = true ∧ t.seq.g = s.seq.g ∧ t.seq.ram = s.seq.ram ∧ RegsBut [0x8070, 0x805C, 0x8040, 0x8010] s t := by
  have hrun := (halt_halts hb hf hd).trans (congrArg Host.Outcome.next (haltTask_of_task ht))
  have result : RegsBut [0x8070, 0x805C, 0x8040, 0x8010] s (wr s 0x8070 ((gReg s 1).toNat % 2 ^ 32)) :=
    (RegsBut.of_regs_eq _ rfl).wr (by simp) _
  have hresult : rd (wr s 0x8070 ((gReg s 1).toNat % 2 ^ 32)) 0x8070 = (gReg s 1).toNat % 2 ^ 32 := by
    rw [rd_wr_same, Nat.mod_mod]
  have hseq : (wr s 0x8070 ((gReg s 1).toNat % 2 ^ 32)).seq = s.seq := rfl
  generalize wr s 0x8070 ((gReg s 1).toNat % 2 ^ 32) = u at *
  have hends := regsBut_endTask u 2 0
  obtain ⟨hstate, -⟩ := fld_endTask_status (s := u) (by rw [hseq]; exact hpc) (state := 2) (cause := 0) (by decide) (by decide)
  refine ⟨_, hrun, rfl, (hends _ (by decide)).trans hresult, hstate, flag_endTask u 2 0, ?_, ?_, fun a ha => ?_⟩
  · exact (congrArg Seq.g hseq :)
  · exact (congrArg Seq.ram hseq :)
  · exact (hends a fun h => ha (List.mem_cons_of_mem _ h)).trans (result a ha)

/-- Settles O51: an instruction of a row is one result, branch or halt at the boundary, and a customer instruction its routine. -/
theorem macroInstructionsCompute : Obligations.MacroInstructionsCompute := by
  refine ⟨fun s d a hb hf hd hk => ?_, fun s d a b hb hf hd hk => ?_, fun s d v hb hf hd hk => ?_, fun s o hb hf hd hk => ?_,
    fun s hb hf hd ht hpc => task_halts hb hf hd ht hpc, fun s hb hd => ?_, fun s c hb hd => ?_, fun s ht hb ho => ?_,
    fun s m e ht ha hb ho hd he hl hw hdest hsrc => ?_, fun s r ht hr => ?_, fun s ht => congrArg done (if_pos (by rw [ht]; decide)),
    fun s v => ⟨rfl, rfl⟩⟩
  · obtain ⟨t, ht, hg, hother, hz, hn, -, hpc, hram, hframe⟩ := macroResult_writes hk d { value := gReg s a }
    exact ⟨t, (mov_writes hb hf hd).trans (congrArg Host.Outcome.next ht), hg, hother, hz, hn, hpc, hram, hframe⟩
  · obtain ⟨t, ht, hg, hother, hz, hn, hv, hpc, hram, hframe⟩ := macroResult_writes hk d (aluSub (gReg s a) (gReg s b))
    exact ⟨t, (sub_writes hb hf hd).trans (congrArg Host.Outcome.next ht), hg, hother, hz, hn,
      (hv _ rfl).trans (outOfRange_sub _ _), hpc, hram, hframe⟩
  · obtain ⟨t, ht, hg, hother, hz, hn, -, hpc, hram, hframe⟩ := macroResult_writes hk d { value := v.setWidth 64 }
    obtain ⟨hzero, hmsb⟩ := setWidth_imm v
    exact ⟨t, (ldi_writes hb hf hd).trans (congrArg Host.Outcome.next ht), hg, hother, hz.trans hzero, hn.trans hmsb, hpc, hram, hframe⟩
  · refine ⟨_, bnz_branches hb hf hd, ?_⟩
    rw [endMacro_of_kept hk]
    exact ⟨rfl, rfl, rfl, bnz_goes _ _⟩
  · exact ⟨_, congrArg done ((if_pos hb).trans (dispatch_of_good hd)), rfl, rfl, rfl⟩
  · obtain ⟨hroutine, -⟩ := fault_ends s c
    exact ⟨_, congrArg done ((if_pos hb).trans (dispatch_of_fault hd)), rfl, hroutine⟩
  · refine ⟨_, congrArg done (runCustomer_of_boundary ht hb ho), rfl, fun c hc => ?_⟩
    obtain ⟨hroutine, -⟩ := fault_ends s c
    rw [dispatch_of_fault hc, runRoutine_of_rest hroutine]
    exact ⟨rfl, hroutine⟩
  · exact ⟨_, congrArg done (runCustomer_of_end ht ha hb ho hd he hl hw hdest hsrc), rfl, rfl, ht, rfl, rfl, rfl⟩
  · exact ⟨_, congrArg done (runCustomer_of_routine ht hr), rfl, fun hrom => runRoutine_of_rom hr hrom 4096⟩

end Sys2Proof.Machine
end

section
/-! An ECC error of a task's data (R380, R386): its fault stands in TASK_STATUS above PC, and a PC beyond its 20 bits carries into CAUSE. -/

namespace Sys2Proof.Machine

/-- TASK_STATUS after a fault of a task, whatever its PC. -/
theorem rd_deliverFault_status {s : State} (h : s.seq.task = true) (cause : Nat) :
    rd (deliverFault s cause) 0x805C = (3 * 2 ^ 29 + cause % 32 * 2 ^ 24 + s.seq.pc) % 2 ^ 32 := by
  have hseq := seq_faultTaken s cause
  rw [deliverFault_eq, if_pos (by rw [hseq, h]), rd_endTask_status, hseq]

/-- An uncorrectable error in the customer region of data RAM is the fault 0xB of the task that runs (R386). -/
theorem seqEcc_of_task {s : State} {a : Nat} (hc : coreRuns s = true) (ha : inCustomerRam a = true) (ht : s.seq.task = true) :
    seqEcc s true a false = deliverFault (report s 0x0108 .sequencer [a]) 0xB := by
  have htask : (report s 0x0108 .sequencer [a]).seq.task = true := (congrArg Seq.task (shows_seq.report s _ _ _)).trans ht
  unfold seqEcc
  rw [if_neg (by rw [hc]; decide), if_neg (by decide), if_neg (by simp [ha])]
  exact if_pos ⟨htask, .inl rfl⟩

/-- A running core with a task whose PC has bit 24 set. -/
def farTask : State := { startup := { railsUp := true }, seq := { task := true, pc := 2 ^ 24 } }

/-- The PC of `farTask` makes CAUSE one more than the fault's. -/
theorem cause_farTask : fld (seqEcc farTask true 0xC0000 false) 0x805C 28 24 = 0xC := by
  have hpc : (report farTask 0x0108 .sequencer [0xC0000]).seq.pc = 2 ^ 24 := congrArg Seq.pc (shows_seq.report farTask _ _ _)
  have htask : (report farTask 0x0108 .sequencer [0xC0000]).seq.task = true := congrArg Seq.task (shows_seq.report farTask _ _ _)
  rw [seqEcc_of_task (by decide) (by decide) (by decide), fld, rd_deliverFault_status htask, hpc]
  decide

/-- Refutes O55: its clause on an ECC error in a task's data puts no bound on PC, and `farTask` shows CAUSE 0xC where the clause says 0xB.
A PC of 20 bits, which the clauses on ABORT and on faults ask for, does not carry. -/
theorem not_tasksStartEndAndFault : ¬ Obligations.TasksStartEndAndFault := by
  rintro ⟨-, -, -, -, -, -, -, -, -, -, -, -, -, -, -, hecc, -⟩
  obtain ⟨t, ht, -, -, hcause, -⟩ := hecc farTask 0xC0000 (by decide) (by decide) (by decide)
  obtain rfl : seqEcc farTask true 0xC0000 false = t := Host.Outcome.next.inj ht
  exact absurd (cause_farTask.symm.trans hcause) (by decide)

end Sys2Proof.Machine
end
